-- ==== Sys2Proof/Word.lean ====
section
/-! DEFINITION. The word types of the UX1024 and their plainest arithmetic (spec 00_scope R1, R3, R11). -/

namespace Sys2Proof

abbrev Byte := BitVec 8
abbrev W16 := BitVec 16
abbrev W32 := BitVec 32
abbrev W64 := BitVec 64

/-- A round number is 48 bits wide (00_scope, "Comparison of tick counts, rounds and pointers"). -/
abbrev Round := BitVec 48

/-- R11: `a` is later than `b` when the difference modulo 2^w lies strictly between 0 and 2^(w-1). -/
def later {w : Nat} (a b : BitVec w) : Bool :=
  0 < (a - b).toNat && (a - b).toNat < 2 ^ (w - 1)

/-- R714: round to the nearest integer, halves towards plus infinity, of `n / d` with `0 < d`. -/
def roundDiv (n : Int) (d : Nat) : Int :=
  (2 * n + d).fdiv (2 * d)

end Sys2Proof
end

