-- ==== Sys2Proof/Machine/Bits.lean ====
section
/-! DEFINITION. Byte order, signed values and checksums (00_scope R3; 04 R136; 05 R191). -/

namespace Sys2Proof.Machine

/-- `n` bytes of `v`, least significant first (R3). -/
def le : Nat → Nat → List Byte
  | 0, _ => []
  | n + 1, v => BitVec.ofNat 8 v :: le n (v / 256)

/-- The number that little-endian bytes spell (R3). -/
def ofLe : List Byte → Nat
  | [] => 0
  | b :: bs => b.toNat + 256 * ofLe bs

/-- Two's complement of `v` in `w` bits. -/
def ofInt (w : Nat) (v : Int) : Nat := (v % 2 ^ w).toNat

/-- The signed value of the low `w` bits of `v`. -/
def toInt (w v : Nat) : Int :=
  let u := v % 2 ^ w
  if u < 2 ^ (w - 1) then u else (u : Int) - 2 ^ w

/-- Bits `lo` to `lo + w - 1` of `v`. -/
def bitsOf (v lo w : Nat) : Nat := v / 2 ^ lo % 2 ^ w

/-- `v` with bits `lo` to `lo + w - 1` replaced by those of `x`. -/
def setBits (v lo w x : Nat) : Nat := v - bitsOf v lo w * 2 ^ lo + x % 2 ^ w * 2 ^ lo

/-- `v` held within `lo` and `hi`. -/
def clampI (lo hi v : Int) : Int := max lo (min hi v)

/-- `v` saturated to a signed field of `w` bits. -/
def satI (w : Nat) (v : Int) : Int := clampI (-2 ^ (w - 1)) (2 ^ (w - 1) - 1) v

/-- 1 for true. -/
def b2n (b : Bool) : Nat := if b then 1 else 0

/-- Bytes of consecutive words. -/
def leWords (n : Nat) : List Nat → List Byte
  | [] => []
  | w :: ws => le n w ++ leWords n ws

/-- The little-endian words of `n` bytes that `bs` holds, `k` of them. -/
def wordsOf (n : Nat) : Nat → List Byte → List Nat
  | 0, _ => []
  | k + 1, bs => ofLe (bs.take n) :: wordsOf n k (bs.drop n)

/-- One shift of a most-significant-first CRC-16 with polynomial 0x1021. -/
def crc16Bit (c : Nat) : Nat := if 0x8000 ≤ c then (c * 2 % 0x10000) ^^^ 0x1021 else c * 2

/-- CRC-16 of R136: polynomial 0x1021, initial value 0xFFFF, most significant bit first. -/
def crc16From (c : Nat) : List Byte → Nat
  | [] => c
  | b :: bs =>
    let c := c ^^^ (b.toNat * 256)
    crc16From (crc16Bit (crc16Bit (crc16Bit (crc16Bit (crc16Bit (crc16Bit (crc16Bit (crc16Bit c)))))))) bs

/-- The CRC-16 of bytes. -/
def crc16 (bs : List Byte) : W16 := BitVec.ofNat 16 (crc16From 0xFFFF bs)

/-- One shift of the reflected CRC-32C. -/
def crc32Bit (c : Nat) : Nat := if c % 2 = 1 then (c / 2) ^^^ 0x82F63B78 else c / 2

/-- CRC-32C of R191 before its final inversion. -/
def crc32From (c : Nat) : List Byte → Nat
  | [] => c
  | b :: bs =>
    let c := c ^^^ b.toNat
    crc32From (crc32Bit (crc32Bit (crc32Bit (crc32Bit (crc32Bit (crc32Bit (crc32Bit (crc32Bit c)))))))) bs

/-- The CRC-32C of bytes. -/
def crc32c (bs : List Byte) : W32 := BitVec.ofNat 32 (crc32From 0xFFFFFFFF bs ^^^ 0xFFFFFFFF)

/-- The number of ones in the low `n` bits. -/
def popcount : Nat → Nat → Nat
  | 0, _ => 0
  | n + 1, v => v % 2 + popcount n (v / 2)

end Sys2Proof.Machine
end

