-- ==== Sys2Proof/Config.lean ====
section
/-! DEFINITION. The free values: what the spec leaves open and the module nevertheless produces, and what the world
outside the digital logic supplies. Each is an opaque constant, so no proof can rest on a value of it. -/

namespace Sys2Proof.Config

/-- A fresh value the spec does not state; the argument is the model's counter `State.free` (log entry 3). -/
opaque freeValue : Nat → Nat

/-- ML-DSA-87 verification: public key, context string, message, signature (R477, R478, R489; log entry 4). -/
opaque mldsaVerify : List (BitVec 8) → List (BitVec 8) → List (BitVec 8) → List (BitVec 8) → Bool

/-- ML-DSA-87 hedged signature by the attestation key of an office: office, context string, message, and the number of
the signature, from which its randomness comes (R508; log entry 4). -/
opaque mldsaSign : Nat → List (BitVec 8) → List (BitVec 8) → Nat → List (BitVec 8)

/-- The attestation public key of an office (R507; log entry 4). -/
opaque attestKey : Nat → List (BitVec 8)

/-- Visiand's Vendor ID, which the spec does not state (R433, R500). -/
opaque vendorId : BitVec 16

/-- Visiand's manufacturer code in the IDCODE, which the spec does not state (R701). -/
opaque manufacturerCode : BitVec 11

/-- The SEC-DED (72,64) check byte of a data word; the spec names the code's kind and not its matrix (log entry 5). -/
opaque checkOf : Nat → BitVec 8

/-- How a stored word classifies when its check byte differs from `checkOf` in three bits or more: 0 clean,
1 correctable, 2 uncorrectable (log entry 5). -/
opaque eccClass : Nat → BitVec 8 → Nat

/-- The data a correction delivers in that case (log entry 5). -/
opaque eccData : Nat → BitVec 8 → Nat

/-- Length-limited code lengths for 89 symbol counts; R251 leaves the construction to the module (log entry 6). -/
opaque codeLengths : List Nat → List Nat

/-- Raw output of the tile's sum converters: tile, mask and gain in force, trims (the skew acts on it), tick (R323; log
entry 7). -/
opaque sumConverter : Nat → BitVec 64 → BitVec 8 → BitVec 32 → Nat → BitVec 12

end Sys2Proof.Config
end

