-- ==== Sys2Proof/Machine/Sparse.lean ====
section
/-! DEFINITION. Sparse maps in one canonical form: association lists with strictly rising keys in which no entry
equals what an unlisted key reads as. Every large array, register file and table of the state is one of these. -/

namespace Sys2Proof.Machine

/-- A sparse map from numbers to `α`. What an unlisted key reads as is given at each use. -/
abbrev Sparse (α : Type) := List (Nat × α)

namespace Sparse

variable {α : Type}

/-- What key `k` reads as, `d` where it is not listed. -/
def get (d : α) : Sparse α → Nat → α
  | [], _ => d
  | (k', v) :: m, k => if k' = k then v else get d m k

/-- The map without key `k`. -/
def erase : Sparse α → Nat → Sparse α
  | [], _ => []
  | (k', v) :: m, k => if k' = k then erase m k else (k', v) :: erase m k

/-- Puts `(k, v)` before the first larger key. -/
def insert : Sparse α → Nat → α → Sparse α
  | [], k, v => [(k, v)]
  | (k', v') :: m, k, v => if k < k' then (k, v) :: (k', v') :: m else (k', v') :: insert m k v

/-- Writes `v` at `k`; the value an unlisted key reads as removes the entry. -/
def set [DecidableEq α] (d : α) (m : Sparse α) (k : Nat) (v : α) : Sparse α :=
  if v = d then erase m k else insert (erase m k) k v

/-- Replaces the value at `k` by `f` of it. -/
def update [DecidableEq α] (d : α) (m : Sparse α) (k : Nat) (f : α → α) : Sparse α :=
  set d m k (f (get d m k))

/-- The canonical form: keys strictly rise and no listed value is `d`. -/
def wf [DecidableEq α] (d : α) : Sparse α → Bool
  | [] => true
  | (k, v) :: m => !decide (v = d) && m.all (fun e => decide (k < e.1)) && wf d m

end Sparse
end Sys2Proof.Machine
end

