-- ==== Sys2Proof/Machine/RegMap.lean ====
section
/-! DEFINITION. The register map of BAR0 and BAR2: one descriptor per field of every register table of the spec, named
`F.<register>_<field>`. An array of registers has one descriptor with its counts and strides. BAR2 (R464) is laid at
0x400_0000, behind BAR0. -/

namespace Sys2Proof.Machine

/-- Access codes of R8. -/
inductive Access | ro | rw | w1c | wo | rwl | amd
  deriving DecidableEq, Repr

/-- A register field: BAR0 offset, counts and strides of an array of it, lowest bit, width, access, reset value,
whether it reads 0 on the relief office, whether it is service die state (both offices read the same), and the value
ranges that are reserved or rejected (R5, and the chapters' validation). -/
structure Fld where
  off : Nat
  n : Nat
  stride : Nat
  n2 : Nat
  stride2 : Nat
  lo : Nat
  w : Nat
  acc : Access
  reset : Nat
  rz : Bool
  svc : Bool
  bad : List (Nat × Nat)
  deriving DecidableEq, Repr

/-- The BAR0 offset of element `(i, j)`. -/
def Fld.addr (f : Fld) (i j : Nat) : Nat := f.off + i * f.stride + j * f.stride2

/-- The key of element `(i, j)` in a register file: its offset in bits. -/
def Fld.key (f : Fld) (i j : Nat) : Nat := f.addr i j * 32 + f.lo

/-- Whether `v` is a reserved or rejected value of the field. -/
def Fld.isBad (f : Fld) (v : Nat) : Bool := f.bad.any fun r => decide (r.1 ≤ v) && decide (v ≤ r.2)

/-- The element of the field's array that lies at `addr`, if one does. -/
def Fld.locate (f : Fld) (addr : Nat) : Option (Nat × Nat) :=
  if addr < f.off then none
  else
    let d := addr - f.off
    let i := if f.stride = 0 then 0 else d / f.stride
    let r := d - i * f.stride
    let j := if f.stride2 = 0 then 0 else r / f.stride2
    if f.addr i j = addr ∧ i < f.n ∧ j < f.n2 then some (i, j) else none

/-- A field that stands alone. -/
def mkF (off lo w : Nat) (acc : Access) (reset : Nat) (rz svc : Bool) (bad : List (Nat × Nat)) : Fld :=
  ⟨off, 1, 0, 1, 0, lo, w, acc, reset, rz, svc, bad⟩

/-- A field of an array of registers. -/
def mkA (off n stride n2 stride2 lo w : Nat) (acc : Access) (reset : Nat) (rz svc : Bool) (bad : List (Nat × Nat)) : Fld :=
  ⟨off, n, stride, n2, stride2, lo, w, acc, reset, rz, svc, bad⟩

namespace F
-- GLB: spec file 18
-- GLB_ID, R686
def GLB_ID_DEVICE : Fld := mkF 0x0 16 16 .ro 0x1024 false false []
def GLB_ID_STEP : Fld := mkF 0x0 8 8 .ro 0 false false []
def GLB_ID_GRADE : Fld := mkF 0x0 0 2 .ro 0 false false []
-- GLB_WHO, R686
def GLB_WHO_OFFICE : Fld := mkF 0x4 8 1 .ro 0 false false []
def GLB_WHO_MODID : Fld := mkF 0x4 0 8 .ro 1 false false []
-- GLB_MODE, R686
def GLB_MODE_MODE : Fld := mkF 0x8 28 4 .ro 2 false false []
def GLB_MODE_PEND_MODE : Fld := mkF 0x8 24 4 .ro 0 false false []
def GLB_MODE_PEND_SCHED : Fld := mkF 0x8 23 1 .ro 0 false false []
def GLB_MODE_HELD_CAUSE : Fld := mkF 0x8 16 4 .ro 0 false false []
def GLB_MODE_REFUSE : Fld := mkF 0x8 12 4 .ro 0 false false []
-- GLB_MODE_REQ, R686
def GLB_MODE_REQ_GO : Fld := mkF 0xc 31 1 .wo 0 false false []
def GLB_MODE_REQ_MODE : Fld := mkF 0xc 0 4 .wo 0 false false []
-- GLB_MODE_TICK_LO, R687
def GLB_MODE_TICK_LO_TICK_L : Fld := mkF 0x10 0 32 .ro 0 false false []
-- GLB_MODE_TICK_HI, R687
def GLB_MODE_TICK_HI_TICK_H : Fld := mkF 0x14 0 32 .ro 0 false false []
-- GLB_CFG, R687
def GLB_CFG_BIAS_REQ : Fld := mkF 0x18 30 2 .amd 0 false false []
def GLB_CFG_TILE_REQ : Fld := mkF 0x18 20 4 .amd 0xf false false []
def GLB_CFG_UNLOCK_MAX : Fld := mkF 0x18 0 15 .amd 0x10 false false [(16385, 32767)]
-- GLB_CALSEQ, R687
def GLB_CALSEQ_GO : Fld := mkF 0x1c 31 1 .wo 0 false false []
def GLB_CALSEQ_RUN : Fld := mkF 0x1c 30 1 .ro 0 false false []
def GLB_CALSEQ_SEQ : Fld := mkF 0x1c 0 4 .rw 0 false false []
-- GLB_BOOT, R687
def GLB_BOOT_MS : Fld := mkF 0x20 0 16 .ro 0 false false []
-- TB: spec file 09
-- TB_CTL, R412
def TB_CTL_START : Fld := mkF 0x100000 31 1 .wo 0 false true []
-- TB_STAT, R412
def TB_STAT_STATE : Fld := mkF 0x100004 29 3 .ro 0 false true []
def TB_STAT_SYNCED : Fld := mkF 0x100004 28 1 .ro 0 false true []
def TB_STAT_STARTED : Fld := mkF 0x100004 27 1 .ro 0 false true []
def TB_STAT_HEAD : Fld := mkF 0x100004 26 1 .ro 0 false true []
def TB_STAT_REFLOCK : Fld := mkF 0x100004 25 1 .ro 0 false true []
def TB_STAT_REFLOSS : Fld := mkF 0x100004 24 1 .ro 0 false true []
def TB_STAT_PPS_OK : Fld := mkF 0x100004 23 1 .ro 0 false true []
def TB_STAT_TOD_OK : Fld := mkF 0x100004 22 1 .ro 0 false true []
def TB_STAT_UNSYNC : Fld := mkF 0x100004 21 1 .ro 0 false true []
def TB_STAT_RHOLD : Fld := mkF 0x100004 20 1 .ro 0 false true []
def TB_STAT_ERR : Fld := mkF 0x100004 0 8 .ro 0xff false true []
-- TB_COUNT_LO, R413
def TB_COUNT_LO_TICK_L : Fld := mkF 0x100008 0 32 .ro 0 false true []
-- TB_COUNT_HI, R413
def TB_COUNT_HI_TICK_H : Fld := mkF 0x10000c 0 32 .ro 0 false true []
-- TB_PM_SEC_LO, R413
def TB_PM_SEC_LO_SEC_L : Fld := mkF 0x100010 0 32 .ro 0 false true []
-- TB_PM_SEC_HI, R413
def TB_PM_SEC_HI_QUALITY : Fld := mkF 0x100014 16 16 .ro 0xff false true []
def TB_PM_SEC_HI_SEC_H : Fld := mkF 0x100014 0 16 .ro 0 false true []
-- TB_PM_NS, R413
def TB_PM_NS_NS : Fld := mkF 0x100018 0 32 .ro 0 false true []
-- TB_PM_FRAC, R413
def TB_PM_FRAC_FRAC : Fld := mkF 0x10001c 0 32 .ro 0 false true []
-- TB_INC, R414
def TB_INC_INC : Fld := mkF 0x100020 0 32 .ro 0xaaaaaaab false true []
-- TB_START_SEC_LO, R414
def TB_START_SEC_LO_SEC_L : Fld := mkF 0x100024 0 32 .rw 0 false true []
-- TB_START_SEC_HI, R414
def TB_START_SEC_HI_SEC_H : Fld := mkF 0x100028 0 16 .rw 0 false true []
-- TB_UTC, R414
def TB_UTC_LEAP_SUB : Fld := mkF 0x10002c 17 1 .ro 0 false true []
def TB_UTC_LEAP_ADD : Fld := mkF 0x10002c 16 1 .ro 0 false true []
def TB_UTC_UTC_OFF : Fld := mkF 0x10002c 0 16 .ro 0 false true []
-- TB_PPS_ERR, R414
def TB_PPS_ERR_E_PS : Fld := mkF 0x100030 0 32 .ro 0 false true []
-- TB_SERVO, R414
def TB_SERVO_KP_SHIFT : Fld := mkF 0x100040 26 6 .amd 0x21 false true [(0, 19), (49, 63)]
def TB_SERVO_KI_SHIFT : Fld := mkF 0x100040 20 6 .amd 0x26 false true [(0, 19), (57, 63)]
def TB_SERVO_SLEW : Fld := mkF 0x100040 0 20 .amd 0x22f3e false true []
-- TB_REF, R414
def TB_REF_REF_EN : Fld := mkF 0x100044 31 1 .amd 0 false true []
def TB_REF_REF_N : Fld := mkF 0x100044 8 8 .amd 0xf false true [(0, 5)]
def TB_REF_REF_M : Fld := mkF 0x100044 0 4 .amd 1 false true [(0, 0)]
-- TB_PPS, R414
def TB_PPS_WIN : Fld := mkF 0x100048 0 16 .amd 0x3e8 false true [(0, 0)]
-- TB_PHASE, R414
def TB_PHASE_STEPS : Fld := mkF 0x10004c 0 16 .ro 0 false true []
-- TB_CNT_PPSREJ, R415
def TB_CNT_PPSREJ_COUNT : Fld := mkF 0x100050 0 32 .ro 0 false true []
-- TB_CNT_TODERR, R415
def TB_CNT_TODERR_COUNT : Fld := mkF 0x100054 0 32 .ro 0 false true []
-- TB_CNT_EPOCHFIX, R415
def TB_CNT_EPOCHFIX_COUNT : Fld := mkF 0x100058 0 32 .ro 0 false true []
-- TB_CNT_CLR, R415
def TB_CNT_CLR_EPOCHFIX : Fld := mkF 0x10005c 2 1 .wo 0 false true []
def TB_CNT_CLR_TODERR : Fld := mkF 0x10005c 1 1 .wo 0 false true []
def TB_CNT_CLR_PPSREJ : Fld := mkF 0x10005c 0 1 .wo 0 false true []
-- RING: spec file 09
-- RING_CFG, R416
def RING_CFG_HEAD : Fld := mkF 0x200000 31 1 .amd 0 false true []
def RING_CFG_HUB : Fld := mkF 0x200000 30 1 .amd 0 false true []
def RING_CFG_N_MAP : Fld := mkF 0x200000 8 8 .amd 0 false true []
def RING_CFG_HOP_TICKS : Fld := mkF 0x200000 0 8 .amd 0x4b false true []
-- RING_CFG2, R416
def RING_CFG2_DISAGREE_LIM : Fld := mkF 0x200004 16 16 .amd 0xc8 false true []
def RING_CFG2_LEAD_MARGIN : Fld := mkF 0x200004 0 16 .amd 0x1000 false true []
-- RING_STAT, R418
def RING_STAT_E_STATE : Fld := mkF 0x200008 30 2 .ro 0 false true []
def RING_STAT_W_STATE : Fld := mkF 0x200008 28 2 .ro 0 false true []
def RING_STAT_WRAP : Fld := mkF 0x200008 27 1 .ro 0 false true []
def RING_STAT_TPORT : Fld := mkF 0x200008 26 1 .ro 0 false true []
def RING_STAT_H_W : Fld := mkF 0x200008 17 9 .ro 0 false true []
def RING_STAT_H_E : Fld := mkF 0x200008 8 9 .ro 0 false true []
-- RING_PEER, R418
def RING_PEER_PEER_E : Fld := mkF 0x20000c 24 8 .ro 0 false true []
def RING_PEER_PEER_W : Fld := mkF 0x20000c 16 8 .ro 0 false true []
def RING_PEER_SKIP_E : Fld := mkF 0x20000c 8 8 .ro 0 false true []
def RING_PEER_SKIP_W : Fld := mkF 0x20000c 0 8 .ro 0 false true []
-- RING_PDELAY_E, R418
def RING_PDELAY_E_DELAY : Fld := mkF 0x200010 0 24 .ro 0 false true []
-- RING_PDELAY_W, R418
def RING_PDELAY_W_DELAY : Fld := mkF 0x200014 0 24 .ro 0 false true []
-- RING_OFS, R418
def RING_OFS_OFS : Fld := mkF 0x200018 0 32 .ro 0 false true []
-- RING_OFS_W, R418
def RING_OFS_W_OFS : Fld := mkF 0x20001c 0 32 .ro 0 false true []
-- RING_OFS_E, R418
def RING_OFS_E_OFS : Fld := mkF 0x200020 0 32 .ro 0 false true []
-- RING_SM_TICK_LO, R419
def RING_SM_TICK_LO_TICK_L : Fld := mkF 0x200030 0 32 .rw 0 false true []
-- RING_SM_TICK_HI, R419
def RING_SM_TICK_HI_TICK_H : Fld := mkF 0x200034 0 32 .rw 0 false true []
-- RING_SM_CMD, R419
def RING_SM_CMD_GO : Fld := mkF 0x200038 31 1 .wo 0 false true []
def RING_SM_CMD_OP : Fld := mkF 0x200038 0 8 .rw 0 false true [(0, 1), (6, 255)]
-- RING_SM_ARG, R419
def RING_SM_ARG_ARG : Fld := mkF 0x20003c 0 32 .rw 0 false true []
-- RING_SM_STAT, R419
def RING_SM_STAT_RESULT : Fld := mkF 0x200040 28 4 .ro 0 false true []
def RING_SM_STAT_PENDING : Fld := mkF 0x200040 16 5 .ro 0 false true []
def RING_SM_STAT_SEQ : Fld := mkF 0x200040 0 16 .ro 0 false true []
-- RING_BAR_CMD, R419
def RING_BAR_CMD_GO : Fld := mkF 0x200044 31 1 .wo 0 false true []
-- RING_BAR_STAT, R419
def RING_BAR_STAT_DONE : Fld := mkF 0x200048 31 1 .w1c 0 false true []
def RING_BAR_STAT_BUSY : Fld := mkF 0x200048 30 1 .ro 0 false true []
def RING_BAR_STAT_TIMEOUT : Fld := mkF 0x200048 29 1 .ro 0 false true []
def RING_BAR_STAT_COUNT : Fld := mkF 0x200048 0 8 .ro 0 false true []
-- RING_BAR_RES, R419
def RING_BAR_RES_OR : Fld := mkF 0x20004c 16 16 .ro 0 false true []
def RING_BAR_RES_AND : Fld := mkF 0x20004c 0 16 .ro 0 false true []
-- RING_CNT_CRC, R420
def RING_CNT_CRC_COUNT : Fld := mkF 0x200050 0 32 .ro 0 false true []
-- RING_CNT_LATESM, R420
def RING_CNT_LATESM_COUNT : Fld := mkF 0x200054 0 32 .ro 0 false true []
-- RING_CNT_PDREJ, R420
def RING_CNT_PDREJ_COUNT : Fld := mkF 0x200058 0 32 .ro 0 false true []
-- RING_CTL, R420
def RING_CTL_RETRAIN_E : Fld := mkF 0x20005c 31 1 .wo 0 false true []
def RING_CTL_RETRAIN_W : Fld := mkF 0x20005c 30 1 .wo 0 false true []
def RING_CTL_PDREJ : Fld := mkF 0x20005c 2 1 .wo 0 false true []
def RING_CTL_LATESM : Fld := mkF 0x20005c 1 1 .wo 0 false true []
def RING_CTL_CRC : Fld := mkF 0x20005c 0 1 .wo 0 false true []
-- RING_MAP0, R417
def RING_MAP0_W0 : Fld := mkA 0x210000 255 8 1 0 0 32 .amd 0 false true []
-- RING_MAP1, R417
def RING_MAP1_W1 : Fld := mkA 0x210004 255 8 1 0 0 32 .amd 0 false true []
-- SORT: spec file 05
-- SORT_CTL, R219
def SORT_CTL_ROUND_SHIFT : Fld := mkF 0x300000 0 5 .amd 0x10 true false [(0, 11), (21, 31)]
-- SORT_MG_ROUND_LO, R221
def SORT_MG_ROUND_LO_ROUND_L : Fld := mkF 0x300008 0 32 .ro 0 true false []
-- SORT_MG_ROUND_HI, R221
def SORT_MG_ROUND_HI_ROUND_H : Fld := mkF 0x30000c 0 16 .ro 0 true false []
-- SORT_MG_LATEWIN, R222
def SORT_MG_LATEWIN_LATE_WIN : Fld := mkF 0x300010 0 16 .amd 0x100 true false []
-- SORT_MG_DEADLINE, R222
def SORT_MG_DEADLINE_DEADLINE : Fld := mkF 0x300014 0 21 .amd 0x4000 true false []
-- SORT_CAL_EPOCH, R223
def SORT_CAL_EPOCH_EPOCH : Fld := mkF 0x300018 0 32 .ro 0 true false []
-- SORT_MG_CNT_NOCLOSE, R224
def SORT_MG_CNT_NOCLOSE_COUNT : Fld := mkF 0x300020 0 32 .ro 0 true false []
-- SORT_MG_CNT_CORRUPT, R224
def SORT_MG_CNT_CORRUPT_COUNT : Fld := mkF 0x300024 0 32 .ro 0 true false []
-- SORT_MG_CNT_MASKED, R224
def SORT_MG_CNT_MASKED_COUNT : Fld := mkF 0x300028 0 32 .ro 0 true false []
-- SORT_CTX_CNT_PDROP, R224
def SORT_CTX_CNT_PDROP_COUNT : Fld := mkF 0x30002c 0 32 .ro 0 true false []
-- SORT_RT_CNT_UNDELIV, R224
def SORT_RT_CNT_UNDELIV_COUNT : Fld := mkF 0x300030 0 32 .ro 0 true false []
-- SORT_MG_CNT_CONT, R224
def SORT_MG_CNT_CONT_COUNT : Fld := mkF 0x300034 0 32 .ro 0 true false []
-- SORT_MG_CNT_CLR, R225
def SORT_MG_CNT_CLR_RXDROP : Fld := mkF 0x300038 6 1 .wo 0 true false []
def SORT_MG_CNT_CLR_CONT : Fld := mkF 0x300038 5 1 .wo 0 true false []
def SORT_MG_CNT_CLR_UNDELIV : Fld := mkF 0x300038 4 1 .wo 0 true false []
def SORT_MG_CNT_CLR_PDROP : Fld := mkF 0x300038 3 1 .wo 0 true false []
def SORT_MG_CNT_CLR_MASKED : Fld := mkF 0x300038 2 1 .wo 0 true false []
def SORT_MG_CNT_CLR_CORRUPT : Fld := mkF 0x300038 1 1 .wo 0 true false []
def SORT_MG_CNT_CLR_NOCLOSE : Fld := mkF 0x300038 0 1 .wo 0 true false []
-- SORT_MG_CNT_RXDROP, R224
def SORT_MG_CNT_RXDROP_COUNT : Fld := mkF 0x30003c 0 32 .ro 0 true false []
-- SORT_HOT, R226
def SORT_HOT_WIN_LOG2 : Fld := mkF 0x300040 28 4 .amd 8 true false []
def SORT_HOT_STRIKE_LIM : Fld := mkF 0x300040 24 4 .amd 3 true false [(0, 0)]
def SORT_HOT_REL_WIN : Fld := mkF 0x300040 16 8 .amd 0 true false []
def SORT_HOT_HOT_LIM : Fld := mkF 0x300040 0 12 .amd 0x400 true false []
-- SORT_NOISE, R227
def SORT_NOISE_NOISE_TOT : Fld := mkF 0x300044 0 17 .amd 0x800 true false []
-- SORT_HOT_STAT, R227
def SORT_HOT_STAT_AUTOMASKED : Fld := mkF 0x300048 0 21 .ro 0 true false []
-- SORT_CTX_CLR, R228
def SORT_CTX_CLR_START : Fld := mkF 0x300050 31 1 .wo 0 true false []
def SORT_CTX_CLR_BUSY : Fld := mkF 0x300050 30 1 .ro 0 true false []
def SORT_CTX_CLR_FIRST : Fld := mkF 0x300050 0 20 .rw 0 true false []
-- SORT_CTX_CLR_LAST, R228
def SORT_CTX_CLR_LAST_LAST : Fld := mkF 0x300054 0 20 .rw 0xfffff true false []
-- SORT_RT_CTL, R229
def SORT_RT_CTL_SLICE_M1 : Fld := mkF 0x300060 8 8 .amd 0 true false []
def SORT_RT_CTL_SLICE_SHIFT : Fld := mkF 0x300060 0 5 .amd 0 true false [(25, 31)]
-- FE: spec file 02
-- SORT_FE_THR, R70
def SORT_FE_THR_GTHR : Fld := mkA 0x300100 4 64 1 0 0 10 .amd 0xa0 true false []
-- SORT_FE_CTL, R71
def SORT_FE_CTL_RST_TICKS : Fld := mkA 0x300104 4 64 1 0 16 8 .amd 0x18 true false [(0, 5)]
def SORT_FE_CTL_SLOPE : Fld := mkA 0x300104 4 64 1 0 3 1 .amd 0 true false []
def SORT_FE_CTL_POL : Fld := mkA 0x300104 4 64 1 0 2 1 .amd 0 true false []
-- SORT_FE_STAT, R72
def SORT_FE_STAT_INJ_ACT : Fld := mkA 0x30010c 4 64 1 0 16 10 .ro 0 true false []
def SORT_FE_STAT_CALIB_STATE : Fld := mkA 0x30010c 4 64 1 0 12 1 .ro 0 true false []
def SORT_FE_STAT_GTHR_ACT : Fld := mkA 0x30010c 4 64 1 0 0 10 .ro 0xa0 true false []
-- SORT_FE_CNT_PBUSY, R74
def SORT_FE_CNT_PBUSY_COUNT : Fld := mkA 0x300110 4 64 1 0 0 32 .ro 0 true false []
-- SORT_FE_CNT_QFULL, R74
def SORT_FE_CNT_QFULL_COUNT : Fld := mkA 0x300114 4 64 1 0 0 32 .ro 0 true false []
-- SORT_FE_CNT_TOTSAT, R74
def SORT_FE_CNT_TOTSAT_COUNT : Fld := mkA 0x300118 4 64 1 0 0 32 .ro 0 true false []
-- SORT_FE_CNT_INJSKIP, R74
def SORT_FE_CNT_INJSKIP_COUNT : Fld := mkA 0x30011c 4 64 1 0 0 32 .ro 0 true false []
-- SORT_FE_CNT_SEU, R74
def SORT_FE_CNT_SEU_COUNT : Fld := mkA 0x300120 4 64 1 0 0 32 .ro 0 true false []
-- SORT_FE_CNT_CLR, R75
def SORT_FE_CNT_CLR_SEU : Fld := mkA 0x300124 4 64 1 0 4 1 .wo 0 true false []
def SORT_FE_CNT_CLR_INJSKIP : Fld := mkA 0x300124 4 64 1 0 3 1 .wo 0 true false []
def SORT_FE_CNT_CLR_TOTSAT : Fld := mkA 0x300124 4 64 1 0 2 1 .wo 0 true false []
def SORT_FE_CNT_CLR_QFULL : Fld := mkA 0x300124 4 64 1 0 1 1 .wo 0 true false []
def SORT_FE_CNT_CLR_PBUSY : Fld := mkA 0x300124 4 64 1 0 0 1 .wo 0 true false []
-- SORT_FE_TEMP, R653
def SORT_FE_TEMP_T_ODD : Fld := mkA 0x300128 4 64 4 4 16 16 .ro 0 true false []
def SORT_FE_TEMP_T_EVEN : Fld := mkA 0x300128 4 64 4 4 0 16 .ro 0 true false []
-- TE: spec file 03
-- SORT_TE_CNT_COLEAD, R118
def SORT_TE_CNT_COLEAD_COUNT : Fld := mkA 0x300200 4 64 1 0 0 32 .ro 0 true false []
-- SORT_TE_CNT_COTRAIL, R118
def SORT_TE_CNT_COTRAIL_COUNT : Fld := mkA 0x300204 4 64 1 0 0 32 .ro 0 true false []
-- SORT_TE_CNT_ORPHAN, R118
def SORT_TE_CNT_ORPHAN_COUNT : Fld := mkA 0x300208 4 64 1 0 0 32 .ro 0 true false []
-- SORT_TE_CNT_UNLOCK, R118
def SORT_TE_CNT_UNLOCK_COUNT : Fld := mkA 0x30020c 4 64 1 0 0 32 .ro 0 true false []
-- SORT_TE_STAT, R119
def SORT_TE_STAT_IP_OFF : Fld := mkA 0x300210 4 64 1 0 16 16 .ro 0 true false []
def SORT_TE_STAT_UNLOCKED : Fld := mkA 0x300210 4 64 1 0 0 15 .ro 0 true false []
-- SORT_TE_CNT_CLR, R120
def SORT_TE_CNT_CLR_UNLOCK : Fld := mkA 0x300214 4 64 1 0 3 1 .wo 0 true false []
def SORT_TE_CNT_CLR_ORPHAN : Fld := mkA 0x300214 4 64 1 0 2 1 .wo 0 true false []
def SORT_TE_CNT_CLR_COTRAIL : Fld := mkA 0x300214 4 64 1 0 1 1 .wo 0 true false []
def SORT_TE_CNT_CLR_COLEAD : Fld := mkA 0x300214 4 64 1 0 0 1 .wo 0 true false []
-- SORT_RES_CNT_RETRY, R121
def SORT_RES_CNT_RETRY_COUNT : Fld := mkF 0x300300 0 32 .ro 0 true false []
-- SORT_RES_CNT_DROP, R121
def SORT_RES_CNT_DROP_COUNT : Fld := mkF 0x300304 0 32 .ro 0 true false []
-- SORT_RES_CNT_TBLPOIS, R121
def SORT_RES_CNT_TBLPOIS_COUNT : Fld := mkF 0x300308 0 32 .ro 0 true false []
-- SORT_RES_CTL, R121
def SORT_RES_CTL_INJ : Fld := mkF 0x30030c 8 1 .wo 0 true false []
def SORT_RES_CTL_INJ_STEP : Fld := mkF 0x30030c 0 3 .rw 1 true false [(0, 0), (5, 7)]
-- SORT_RES_CNT_CLR, R121
def SORT_RES_CNT_CLR_TBLPOIS : Fld := mkF 0x300310 2 1 .wo 0 true false []
def SORT_RES_CNT_CLR_DROP : Fld := mkF 0x300310 1 1 .wo 0 true false []
def SORT_RES_CNT_CLR_RETRY : Fld := mkF 0x300310 0 1 .wo 0 true false []
-- SORT_CD_CTL, R122
def SORT_CD_CTL_START : Fld := mkF 0x300340 31 1 .wo 0 true false []
def SORT_CD_CTL_LOG2N : Fld := mkF 0x300340 24 4 .rw 8 true false []
def SORT_CD_CTL_SRC : Fld := mkF 0x300340 20 2 .rw 0 true false [(2, 3)]
def SORT_CD_CTL_FIRST : Fld := mkF 0x300340 0 17 .rw 0 true false []
-- SORT_CD_STAT, R123
def SORT_CD_STAT_BUSY : Fld := mkF 0x300344 31 1 .ro 0 true false []
def SORT_CD_STAT_DONE : Fld := mkF 0x300344 30 1 .w1c 0 true false []
def SORT_CD_STAT_SHORT : Fld := mkF 0x300344 0 14 .ro 0 true false []
-- SORT_CD_TIMEOUT, R124
def SORT_CD_TIMEOUT_LIMIT : Fld := mkF 0x300348 0 32 .rw 0x100000 true false []
-- LN: spec file 04
-- SORT_LN_STAT, R166
def SORT_LN_STAT_NUP : Fld := mkA 0x300400 4 64 1 0 28 4 .ro 0 false false []
def SORT_LN_STAT_DL : Fld := mkA 0x300400 4 64 1 0 22 2 .ro 0 false false []
def SORT_LN_STAT_SUM : Fld := mkA 0x300400 4 64 1 0 16 6 .ro 0 false false []
def SORT_LN_STAT_LETTER : Fld := mkA 0x300400 4 64 1 0 0 16 .ro 0 false false []
-- SORT_LN_CNT_CRC, R167
def SORT_LN_CNT_CRC_COUNT : Fld := mkA 0x300404 4 64 1 0 0 32 .ro 0 false false []
-- SORT_LN_CNT_BADHDR, R167
def SORT_LN_CNT_BADHDR_COUNT : Fld := mkA 0x300408 4 64 1 0 0 32 .ro 0 false false []
-- SORT_LN_CNT_LOSTFRM, R167
def SORT_LN_CNT_LOSTFRM_COUNT : Fld := mkA 0x30040c 4 64 1 0 0 32 .ro 0 true false []
-- SORT_LN_CNT_OVFDROP, R167
def SORT_LN_CNT_OVFDROP_COUNT : Fld := mkA 0x300410 4 64 1 0 0 32 .ro 0 true false []
-- SORT_LN_CNT_LATE, R167
def SORT_LN_CNT_LATE_COUNT : Fld := mkA 0x300414 4 64 1 0 0 32 .ro 0 true false []
-- SORT_LN_CNT_LATEDROP, R167
def SORT_LN_CNT_LATEDROP_COUNT : Fld := mkA 0x300418 4 64 1 0 0 32 .ro 0 true false []
-- SORT_LN_CNT_RETRAIN, R167
def SORT_LN_CNT_RETRAIN_COUNT : Fld := mkA 0x30041c 4 64 1 0 0 32 .ro 0 false false []
-- SORT_LN_CNT_DLNAK, R167
def SORT_LN_CNT_DLNAK_COUNT : Fld := mkA 0x300420 4 64 1 0 0 32 .ro 0 true false []
-- SORT_LN_CNT_CLR, R168
def SORT_LN_CNT_CLR_PEAK : Fld := mkA 0x300424 4 64 1 0 8 1 .wo 0 false false []
def SORT_LN_CNT_CLR_DLNAK : Fld := mkA 0x300424 4 64 1 0 7 1 .wo 0 false false []
def SORT_LN_CNT_CLR_RETRAIN : Fld := mkA 0x300424 4 64 1 0 6 1 .wo 0 false false []
def SORT_LN_CNT_CLR_LATEDROP : Fld := mkA 0x300424 4 64 1 0 5 1 .wo 0 false false []
def SORT_LN_CNT_CLR_LATE : Fld := mkA 0x300424 4 64 1 0 4 1 .wo 0 false false []
def SORT_LN_CNT_CLR_OVFDROP : Fld := mkA 0x300424 4 64 1 0 3 1 .wo 0 false false []
def SORT_LN_CNT_CLR_LOSTFRM : Fld := mkA 0x300424 4 64 1 0 2 1 .wo 0 false false []
def SORT_LN_CNT_CLR_BADHDR : Fld := mkA 0x300424 4 64 1 0 1 1 .wo 0 false false []
def SORT_LN_CNT_CLR_CRC : Fld := mkA 0x300424 4 64 1 0 0 1 .wo 0 false false []
-- SORT_LN_PEAK, R169
def SORT_LN_PEAK_ENTRIES : Fld := mkA 0x300428 4 64 1 0 0 17 .ro 0 true false []
-- SORT_CLOSE, R170
def SORT_CLOSE_CLOSE_DLY : Fld := mkF 0x300500 0 21 .amd 0x1040 false false []
-- SORT_LN_CMD, R171
def SORT_LN_CMD_RETRAIN : Fld := mkF 0x300504 31 1 .wo 0 false false []
def SORT_LN_CMD_TILE : Fld := mkF 0x300504 4 2 .wo 0 false false []
def SORT_LN_CMD_LANE : Fld := mkF 0x300504 0 4 .wo 0 false false [(12, 15)]
-- CMP: spec file 06
-- CMP_CTL, R260
def CMP_CTL_ENG_MASK : Fld := mkF 0x400000 16 16 .amd 0xffff false false []
def CMP_CTL_KEY_LOG2 : Fld := mkF 0x400000 8 5 .amd 0 false false [(25, 31)]
def CMP_CTL_STATIC_IDX : Fld := mkF 0x400000 4 4 .amd 0 false false []
def CMP_CTL_EFFORT : Fld := mkF 0x400000 0 2 .amd 2 false false [(3, 3)]
-- CMP_STAT, R261
def CMP_STAT_ENG_ACT : Fld := mkF 0x400004 16 5 .ro 0 true false []
def CMP_STAT_FORCED : Fld := mkF 0x400004 2 1 .ro 0 true false []
def CMP_STAT_EFFORT_ACT : Fld := mkF 0x400004 0 2 .ro 0 true false []
-- CMP_CNT_COMP, R262
def CMP_CNT_COMP_COUNT : Fld := mkF 0x400010 0 32 .ro 0 true false []
-- CMP_CNT_KEY, R262
def CMP_CNT_KEY_COUNT : Fld := mkF 0x400014 0 32 .ro 0 true false []
-- CMP_CNT_PLAIN, R262
def CMP_CNT_PLAIN_COUNT : Fld := mkF 0x400018 0 32 .ro 0 true false []
-- CMP_CNT_VFAIL, R262
def CMP_CNT_VFAIL_COUNT : Fld := mkF 0x40001c 0 32 .ro 0 true false []
-- CMP_CNT_STPOIS, R262
def CMP_CNT_STPOIS_COUNT : Fld := mkF 0x400020 0 32 .ro 0 true false []
-- CMP_CNT_CLR, R264
def CMP_CNT_CLR_OUT : Fld := mkF 0x400024 6 1 .wo 0 false false []
def CMP_CNT_CLR_IN : Fld := mkF 0x400024 5 1 .wo 0 false false []
def CMP_CNT_CLR_STPOIS : Fld := mkF 0x400024 4 1 .wo 0 false false []
def CMP_CNT_CLR_VFAIL : Fld := mkF 0x400024 3 1 .wo 0 false false []
def CMP_CNT_CLR_PLAIN : Fld := mkF 0x400024 2 1 .wo 0 false false []
def CMP_CNT_CLR_KEY : Fld := mkF 0x400024 1 1 .wo 0 false false []
def CMP_CNT_CLR_COMP : Fld := mkF 0x400024 0 1 .wo 0 false false []
-- CMP_IN_LO, R263
def CMP_IN_LO_COUNT_L : Fld := mkF 0x400028 0 32 .ro 0 true false []
-- CMP_IN_HI, R263
def CMP_IN_HI_COUNT_H : Fld := mkF 0x40002c 0 32 .ro 0 true false []
-- CMP_OUT_LO, R263
def CMP_OUT_LO_COUNT_L : Fld := mkF 0x400030 0 32 .ro 0 true false []
-- CMP_OUT_HI, R263
def CMP_OUT_HI_COUNT_H : Fld := mkF 0x400034 0 32 .ro 0 true false []
-- STO: spec file 07
-- STO_CFG, R312
def STO_CFG_AUTO_UNPIN : Fld := mkF 0x500000 31 1 .amd 0 false false []
def STO_CFG_LOSS_LOG2 : Fld := mkF 0x500000 24 5 .amd 0x10 false false [(0, 9), (21, 31)]
def STO_CFG_STALL_US : Fld := mkF 0x500000 16 8 .amd 0x32 false false [(0, 0)]
def STO_CFG_GUARD : Fld := mkF 0x500000 8 8 .amd 4 false false []
def STO_CFG_SACK_LOG2 : Fld := mkF 0x500000 0 5 .amd 0x17 false false [(0, 19), (27, 31)]
-- STO_CTL, R313
def STO_CTL_ENABLE : Fld := mkF 0x500004 31 1 .rw 0 false false []
def STO_CTL_MIRROR : Fld := mkF 0x500004 30 1 .rw 0 false false []
def STO_CTL_REATTACH : Fld := mkF 0x500004 29 1 .wo 0 false false []
-- STO_STAT, R314
def STO_STAT_STATE : Fld := mkF 0x500008 28 4 .ro 0 false false []
def STO_STAT_STALLED : Fld := mkF 0x500008 27 1 .ro 0 true false []
def STO_STAT_LIVE_HELD : Fld := mkF 0x500008 26 1 .ro 0 true false []
def STO_STAT_DROPPING : Fld := mkF 0x500008 25 1 .ro 0 true false []
def STO_STAT_ALLPINNED : Fld := mkF 0x500008 24 1 .ro 0 true false []
def STO_STAT_COPY1_OK : Fld := mkF 0x500008 23 1 .ro 0 true false []
def STO_STAT_COPY0_OK : Fld := mkF 0x500008 22 1 .ro 0 true false []
def STO_STAT_RGN_FAIL : Fld := mkF 0x500008 8 8 .ro 0 true false []
def STO_STAT_IDX_FAIL : Fld := mkF 0x500008 6 2 .ro 0 true false []
def STO_STAT_REFUSE : Fld := mkF 0x500008 0 4 .ro 0 true false []
-- STO_WP_LO, R315
def STO_WP_LO_OFFSET : Fld := mkF 0x500010 0 32 .ro 0 true false []
-- STO_WP_HI, R315
def STO_WP_HI_SACK : Fld := mkF 0x500014 0 32 .ro 0xffffffff true false []
-- STO_OLDEST_LO, R315
def STO_OLDEST_LO_ROUND_L : Fld := mkF 0x500018 0 32 .ro 0 true false []
-- STO_OLDEST_HI, R315
def STO_OLDEST_HI_ROUND_H : Fld := mkF 0x50001c 0 16 .ro 0 true false []
-- STO_NEWEST_LO, R315
def STO_NEWEST_LO_ROUND_L : Fld := mkF 0x500020 0 32 .ro 0 true false []
-- STO_NEWEST_HI, R315
def STO_NEWEST_HI_ROUND_H : Fld := mkF 0x500024 0 16 .ro 0 true false []
-- STO_SACKS_TOTAL, R316
def STO_SACKS_TOTAL_COUNT : Fld := mkF 0x500028 0 23 .ro 0 true false []
-- STO_SACKS_PINNED, R316
def STO_SACKS_PINNED_COUNT : Fld := mkF 0x50002c 0 23 .ro 0 true false []
-- STO_SACKS_FAULT, R316
def STO_SACKS_FAULT_COUNT : Fld := mkF 0x500030 0 23 .ro 0 true false []
-- STO_STAGE, R316
def STO_STAGE_PEAK : Fld := mkF 0x500034 16 11 .ro 0 true false []
def STO_STAGE_FILL : Fld := mkF 0x500034 0 11 .ro 0 true false []
-- STO_CNT_DROPRND, R317
def STO_CNT_DROPRND_COUNT : Fld := mkF 0x500040 0 32 .ro 0 true false []
-- STO_CNT_DROPDIST, R317
def STO_CNT_DROPDIST_COUNT : Fld := mkF 0x500044 0 32 .ro 0 true false []
-- STO_CNT_SPILL, R317
def STO_CNT_SPILL_COUNT : Fld := mkF 0x500048 0 32 .ro 0 true false []
-- STO_CNT_WERR, R317
def STO_CNT_WERR_COUNT : Fld := mkF 0x50004c 0 32 .ro 0 true false []
-- STO_CNT_RPOIS, R317
def STO_CNT_RPOIS_COUNT : Fld := mkF 0x500050 0 32 .ro 0 true false []
-- STO_CNT_IDXERR, R317
def STO_CNT_IDXERR_COUNT : Fld := mkF 0x500054 0 32 .ro 0 true false []
-- STO_CNT_AUTOUNPIN, R317
def STO_CNT_AUTOUNPIN_COUNT : Fld := mkF 0x500058 0 32 .ro 0 true false []
-- STO_CNT_STALL, R317
def STO_CNT_STALL_COUNT : Fld := mkF 0x50005c 0 32 .ro 0 true false []
-- STO_CNT_CLR, R318
def STO_CNT_CLR_PEAK : Fld := mkF 0x500060 8 1 .wo 0 false false []
def STO_CNT_CLR_STALL : Fld := mkF 0x500060 7 1 .wo 0 false false []
def STO_CNT_CLR_AUTOUNPIN : Fld := mkF 0x500060 6 1 .wo 0 false false []
def STO_CNT_CLR_IDXERR : Fld := mkF 0x500060 5 1 .wo 0 false false []
def STO_CNT_CLR_RPOIS : Fld := mkF 0x500060 4 1 .wo 0 false false []
def STO_CNT_CLR_WERR : Fld := mkF 0x500060 3 1 .wo 0 false false []
def STO_CNT_CLR_SPILL : Fld := mkF 0x500060 2 1 .wo 0 false false []
def STO_CNT_CLR_DROPDIST : Fld := mkF 0x500060 1 1 .wo 0 false false []
def STO_CNT_CLR_DROPRND : Fld := mkF 0x500060 0 1 .wo 0 false false []
-- STO_PIN_CMD, R319
def STO_PIN_CMD_GO : Fld := mkF 0x500080 31 1 .wo 0 true false []
def STO_PIN_CMD_BUSY : Fld := mkF 0x500080 30 1 .ro 0 true false []
def STO_PIN_CMD_OP : Fld := mkF 0x500080 28 2 .rw 0 true false [(3, 3)]
-- STO_PIN_FIRST_LO, R319
def STO_PIN_FIRST_LO_ROUND_L : Fld := mkF 0x500084 0 32 .rw 0 true false []
-- STO_PIN_FIRST_HI, R319
def STO_PIN_FIRST_HI_ROUND_H : Fld := mkF 0x500088 0 16 .rw 0 true false []
-- STO_PIN_LAST_LO, R319
def STO_PIN_LAST_LO_ROUND_L : Fld := mkF 0x50008c 0 32 .rw 0 true false []
-- STO_PIN_LAST_HI, R319
def STO_PIN_LAST_HI_ROUND_H : Fld := mkF 0x500090 0 16 .rw 0 true false []
-- STO_PIN_RESULT, R319
def STO_PIN_RESULT_STATUS : Fld := mkF 0x500094 30 2 .ro 0 true false []
def STO_PIN_RESULT_SACKS : Fld := mkF 0x500094 0 23 .ro 0 true false []
-- STO_IDX_REPAIR, R320
def STO_IDX_REPAIR_GO : Fld := mkF 0x5000a0 31 1 .wo 0 false false []
def STO_IDX_REPAIR_SACK : Fld := mkF 0x5000a0 0 23 .wo 0 false false []
-- STO_RGN_BASE_LO, R321
def STO_RGN_BASE_LO_BASE_L : Fld := mkA 0x500100 8 16 1 0 0 32 .rw 0 false false []
-- STO_RGN_BASE_HI, R321
def STO_RGN_BASE_HI_BASE_H : Fld := mkA 0x500104 8 16 1 0 0 32 .rw 0 false false []
-- STO_RGN_SIZE, R321
def STO_RGN_SIZE_SIZE : Fld := mkA 0x500108 8 16 1 0 0 23 .rw 0 false false [(4194305, 8388607)]
-- STO_RGN_CTL, R321
def STO_RGN_CTL_EN : Fld := mkA 0x50010c 8 16 1 0 31 1 .rw 0 false false []
def STO_RGN_CTL_COPY : Fld := mkA 0x50010c 8 16 1 0 30 1 .rw 0 false false []
def STO_RGN_CTL_PATH : Fld := mkA 0x50010c 8 16 1 0 28 2 .rw 0 false false [(2, 3)]
def STO_RGN_CTL_FAILED : Fld := mkA 0x50010c 8 16 1 0 27 1 .ro 0 false false []
-- STO_IDX_BASE_LO, R321
def STO_IDX_BASE_LO_BASE_L : Fld := mkA 0x500200 2 16 1 0 0 32 .rw 0 false false []
-- STO_IDX_BASE_HI, R321
def STO_IDX_BASE_HI_BASE_H : Fld := mkA 0x500204 2 16 1 0 0 32 .rw 0 false false []
-- STO_IDX_SIZE, R321
def STO_IDX_SIZE_SIZE : Fld := mkA 0x500208 2 16 1 0 0 23 .rw 0 false false []
-- STO_IDX_CTL0, R321
def STO_IDX_CTL0_COPY : Fld := mkF 0x50020c 30 1 .ro 0 false false []
-- STO_IDX_CTL1, R321
def STO_IDX_CTL1_COPY : Fld := mkF 0x50021c 30 1 .ro 1 false false []
-- STO_IDX_CTL, R321
def STO_IDX_CTL_EN : Fld := mkA 0x50020c 2 16 1 0 31 1 .rw 0 false false []
def STO_IDX_CTL_PATH : Fld := mkA 0x50020c 2 16 1 0 28 2 .rw 0 false false [(2, 3)]
def STO_IDX_CTL_FAILED : Fld := mkA 0x50020c 2 16 1 0 27 1 .ro 0 false false []
-- TRG: spec file 08
-- TRG_CTL, R363
def TRG_CTL_ARM : Fld := mkA 0x600000 4 128 1 0 31 1 .rw 0 true false []
def TRG_CTL_STROBE : Fld := mkA 0x600000 4 128 1 0 30 1 .wo 0 true false []
def TRG_CTL_PROG : Fld := mkA 0x600000 4 128 1 0 28 2 .rw 0 true false []
def TRG_CTL_PROFILE : Fld := mkA 0x600000 4 128 1 0 26 2 .rw 0 true false []
def TRG_CTL_RED_EN : Fld := mkA 0x600000 4 128 1 0 22 4 .rw 0 true false []
-- TRG_STAT, R364
def TRG_STAT_STATE : Fld := mkA 0x600004 4 128 1 0 29 3 .ro 0 true false []
def TRG_STAT_CAPTURE : Fld := mkA 0x600004 4 128 1 0 28 1 .ro 0 true false []
def TRG_STAT_HOLDOFF : Fld := mkA 0x600004 4 128 1 0 27 1 .ro 0 true false []
def TRG_STAT_PROG_ACT : Fld := mkA 0x600004 4 128 1 0 25 2 .ro 0 true false []
def TRG_STAT_PROFILE_ACT : Fld := mkA 0x600004 4 128 1 0 23 2 .ro 0 true false []
def TRG_STAT_DEC : Fld := mkA 0x600004 4 128 1 0 21 2 .ro 3 true false []
def TRG_STAT_CAUSE_LAST : Fld := mkA 0x600004 4 128 1 0 0 16 .ro 0 true false []
-- TRG_SUM_TRIM, R364
def TRG_SUM_TRIM_GAIN1 : Fld := mkA 0x600008 4 128 1 0 24 8 .amd 0 false false []
def TRG_SUM_TRIM_OFS1 : Fld := mkA 0x600008 4 128 1 0 16 8 .amd 0 false false []
def TRG_SUM_TRIM_OFS0 : Fld := mkA 0x600008 4 128 1 0 8 8 .amd 0 false false []
def TRG_SUM_TRIM_SKEW : Fld := mkA 0x600008 4 128 1 0 0 7 .amd 0 false false []
-- TRG_LAST_FIRE_LO, R365
def TRG_LAST_FIRE_LO_TICK_L : Fld := mkA 0x60000c 4 128 1 0 0 32 .ro 0 true false []
-- TRG_LAST_FIRE_HI, R365
def TRG_LAST_FIRE_HI_TICK_H : Fld := mkA 0x600010 4 128 1 0 0 32 .ro 0 true false []
-- TRG_CNT_FIRE, R366
def TRG_CNT_FIRE_COUNT : Fld := mkA 0x600014 4 128 1 0 0 32 .ro 0 true false []
-- TRG_CNT_HOLD, R366
def TRG_CNT_HOLD_COUNT : Fld := mkA 0x600018 4 128 1 0 0 32 .ro 0 true false []
-- TRG_CNT_BUSY, R366
def TRG_CNT_BUSY_COUNT : Fld := mkA 0x60001c 4 128 1 0 0 32 .ro 0 true false []
-- TRG_CNT_EXT, R366
def TRG_CNT_EXT_COUNT : Fld := mkA 0x600020 4 128 1 0 0 32 .ro 0 true false []
-- TRG_CNT_TRUNC, R366
def TRG_CNT_TRUNC_COUNT : Fld := mkA 0x600024 4 128 1 0 0 32 .ro 0 true false []
-- TRG_CNT_PLOST, R366
def TRG_CNT_PLOST_COUNT : Fld := mkA 0x600028 4 128 1 0 0 32 .ro 0 true false []
-- TRG_CNT_LIVEGAP, R366
def TRG_CNT_LIVEGAP_COUNT : Fld := mkA 0x60002c 4 128 1 0 0 32 .ro 0 true false []
-- TRG_CNT_CLR, R367
def TRG_CNT_CLR_REDDROP : Fld := mkA 0x600030 4 128 1 0 7 1 .wo 0 false false []
def TRG_CNT_CLR_LIVEGAP : Fld := mkA 0x600030 4 128 1 0 6 1 .wo 0 false false []
def TRG_CNT_CLR_PLOST : Fld := mkA 0x600030 4 128 1 0 5 1 .wo 0 false false []
def TRG_CNT_CLR_TRUNC : Fld := mkA 0x600030 4 128 1 0 4 1 .wo 0 false false []
def TRG_CNT_CLR_EXT : Fld := mkA 0x600030 4 128 1 0 3 1 .wo 0 false false []
def TRG_CNT_CLR_BUSY : Fld := mkA 0x600030 4 128 1 0 2 1 .wo 0 false false []
def TRG_CNT_CLR_HOLD : Fld := mkA 0x600030 4 128 1 0 1 1 .wo 0 false false []
def TRG_CNT_CLR_FIRE : Fld := mkA 0x600030 4 128 1 0 0 1 .wo 0 false false []
-- TRG_CNT_REDDROP, R366
def TRG_CNT_REDDROP_COUNT : Fld := mkA 0x600034 4 128 1 0 0 32 .ro 0 true false []
-- TRG_RED_CFG, R368
def TRG_RED_CFG_LEVEL : Fld := mkA 0x600040 4 128 4 4 20 12 .amd 0 true false []
def TRG_RED_CFG_PH : Fld := mkA 0x600040 4 128 4 4 8 12 .amd 2 true false [(0, 1)]
def TRG_RED_CFG_B : Fld := mkA 0x600040 4 128 4 4 0 5 .amd 0xa true false [(0, 5), (21, 31)]
-- COL_ORDER, R369
def COL_ORDER_W : Fld := mkA 0x608000 16 4 1 0 0 32 .wo 0 false false []
-- COL_SUBMIT, R369
def COL_SUBMIT_GO : Fld := mkF 0x608040 31 1 .wo 0 false false []
-- COL_STAT, R369
def COL_STAT_RESULT : Fld := mkF 0x608044 28 4 .ro 0 true false []
def COL_STAT_QUEUED : Fld := mkF 0x608044 16 7 .ro 0 true false []
def COL_STAT_TAG : Fld := mkF 0x608044 0 16 .ro 0 true false []
-- COL_CTL, R369
def COL_CTL_RATE_CAP : Fld := mkF 0x608048 24 8 .rw 0 false false []
def COL_CTL_AHEAD_LOG2 : Fld := mkF 0x608048 16 5 .amd 4 false false [(21, 31)]
-- COL_CNT_DONE, R370
def COL_CNT_DONE_COUNT : Fld := mkF 0x608050 0 32 .ro 0 true false []
-- COL_CNT_CLIPPED, R370
def COL_CNT_CLIPPED_COUNT : Fld := mkF 0x608054 0 32 .ro 0 true false []
-- COL_CNT_PARTIAL, R370
def COL_CNT_PARTIAL_COUNT : Fld := mkF 0x608058 0 32 .ro 0 true false []
-- COL_CNT_MERGED, R370
def COL_CNT_MERGED_COUNT : Fld := mkF 0x60805c 0 32 .ro 0 true false []
-- COL_CNT_REFUSED, R370
def COL_CNT_REFUSED_COUNT : Fld := mkF 0x608060 0 32 .ro 0 true false []
-- COL_CNT_CLR, R371
def COL_CNT_CLR_BYTES : Fld := mkF 0x608064 5 1 .wo 0 false false []
def COL_CNT_CLR_REFUSED : Fld := mkF 0x608064 4 1 .wo 0 false false []
def COL_CNT_CLR_MERGED : Fld := mkF 0x608064 3 1 .wo 0 false false []
def COL_CNT_CLR_PARTIAL : Fld := mkF 0x608064 2 1 .wo 0 false false []
def COL_CNT_CLR_CLIPPED : Fld := mkF 0x608064 1 1 .wo 0 false false []
def COL_CNT_CLR_DONE : Fld := mkF 0x608064 0 1 .wo 0 false false []
-- COL_BYTES_LO, R370
def COL_BYTES_LO_COUNT_L : Fld := mkF 0x608068 0 32 .ro 0 true false []
-- COL_BYTES_HI, R370
def COL_BYTES_HI_COUNT_H : Fld := mkF 0x60806c 0 32 .ro 0 true false []
-- PH: spec file 11
-- PH_DR_BASE_LO, R465
def PH_DR_BASE_LO_BASE_L : Fld := mkA 0x700000 4096 64 1 0 0 32 .rw 0 false false []
-- PH_DR_BASE_HI, R465
def PH_DR_BASE_HI_BASE_H : Fld := mkA 0x700004 4096 64 1 0 0 32 .rw 0 false false []
-- PH_RR_BASE_LO, R465
def PH_RR_BASE_LO_BASE_L : Fld := mkA 0x700008 4096 64 1 0 0 32 .rw 0 false false []
-- PH_RR_BASE_HI, R465
def PH_RR_BASE_HI_BASE_H : Fld := mkA 0x70000c 4096 64 1 0 0 32 .rw 0 false false []
-- PH_CFG, R466
def PH_CFG_EN : Fld := mkA 0x700010 4096 64 1 0 31 1 .rw 0 false false []
def PH_CFG_CLOSE : Fld := mkA 0x700010 4096 64 1 0 29 2 .rw 0 false false [(3, 3)]
def PH_CFG_ONEBAG : Fld := mkA 0x700010 4096 64 1 0 28 1 .rw 0 false false []
def PH_CFG_MB_SIZE : Fld := mkA 0x700010 4096 64 1 0 26 2 .rw 3 false false []
def PH_CFG_DR_LOG2 : Fld := mkA 0x700010 4096 64 1 0 21 5 .rw 4 false false []
def PH_CFG_RR_LOG2 : Fld := mkA 0x700010 4096 64 1 0 16 5 .rw 4 false false []
def PH_CFG_VECTOR : Fld := mkA 0x700010 4096 64 1 0 0 11 .rw 0 false false []
-- PH_IRQ, R467
def PH_IRQ_COAL_US : Fld := mkA 0x700014 4096 64 1 0 16 16 .rw 0 false false []
def PH_IRQ_COAL_N : Fld := mkA 0x700014 4096 64 1 0 0 8 .rw 1 false false []
-- PH_TMO, R467
def PH_TMO_IDLE_US : Fld := mkA 0x700018 4096 64 1 0 0 16 .rw 0x64 false false []
-- PH_STAT, R467
def PH_STAT_STATE : Fld := mkA 0x70001c 4096 64 1 0 30 2 .ro 0 false false []
def PH_STAT_HELD : Fld := mkA 0x70001c 4096 64 1 0 24 2 .ro 0 false false []
def PH_STAT_CAUSE : Fld := mkA 0x70001c 4096 64 1 0 0 8 .ro 0 false false []
-- PH_DCONS, R468
def PH_DCONS_INDEX : Fld := mkA 0x700020 4096 64 1 0 0 32 .ro 0 false false []
-- PH_RPROD, R468
def PH_RPROD_INDEX : Fld := mkA 0x700024 4096 64 1 0 0 32 .ro 0 false false []
-- PH_CNT_MAILBAG, R468
def PH_CNT_MAILBAG_COUNT : Fld := mkA 0x700028 4096 64 1 0 0 32 .ro 0 false false []
-- PH_CNT_UNDELIV, R468
def PH_CNT_UNDELIV_COUNT : Fld := mkA 0x70002c 4096 64 1 0 0 32 .ro 0 false false []
-- PH_CNT_RETURNED, R468
def PH_CNT_RETURNED_COUNT : Fld := mkA 0x700030 4096 64 1 0 0 32 .ro 0 false false []
-- PH_CNT_CLR, R468
def PH_CNT_CLR_RETURNED : Fld := mkA 0x700034 4096 64 1 0 2 1 .wo 0 false false []
def PH_CNT_CLR_UNDELIV : Fld := mkA 0x700034 4096 64 1 0 1 1 .wo 0 false false []
def PH_CNT_CLR_MAILBAG : Fld := mkA 0x700034 4096 64 1 0 0 1 .wo 0 false false []
-- PH_PORT_CTL, R469
def PH_PORT_CTL_UIO_EN : Fld := mkF 0x740000 31 1 .rw 0 false false []
-- PH_PORT_STAT, R469
def PH_PORT_STAT_L0 : Fld := mkF 0x740004 31 1 .ro 0 false false []
def PH_PORT_STAT_FLIT : Fld := mkF 0x740004 30 1 .ro 0 false false []
def PH_PORT_STAT_UIO_CAP : Fld := mkF 0x740004 29 1 .ro 0 false false []
def PH_PORT_STAT_UIO_ACT : Fld := mkF 0x740004 28 1 .ro 0 false false []
def PH_PORT_STAT_BME : Fld := mkF 0x740004 27 1 .ro 0 false false []
def PH_PORT_STAT_RATE : Fld := mkF 0x740004 24 3 .ro 0 false false []
def PH_PORT_STAT_WIDTH : Fld := mkF 0x740004 16 3 .ro 0 false false []
-- PH_NOTICE_STAT, R469
def PH_NOTICE_STAT_HELD : Fld := mkF 0x740008 0 11 .ro 0 false false []
-- PH_CNT_NOTICELOST, R470
def PH_CNT_NOTICELOST_COUNT : Fld := mkF 0x740010 0 32 .ro 0 false false []
-- PH_CNT_DLODROP, R470
def PH_CNT_DLODROP_COUNT : Fld := mkF 0x740014 0 32 .ro 0 false false []
-- PH_CNT_LINKDOWN, R470
def PH_CNT_LINKDOWN_COUNT : Fld := mkF 0x740018 0 32 .ro 0 false false []
-- PH_CNT_MMIOERR, R470
def PH_CNT_MMIOERR_COUNT : Fld := mkF 0x74001c 0 32 .ro 0 false false []
-- PH_GCNT_CLR, R470
def PH_GCNT_CLR_MMIOERR : Fld := mkF 0x740020 3 1 .wo 0 false false []
def PH_GCNT_CLR_LINKDOWN : Fld := mkF 0x740020 2 1 .wo 0 false false []
def PH_GCNT_CLR_DLODROP : Fld := mkF 0x740020 1 1 .wo 0 false false []
def PH_GCNT_CLR_NOTICELOST : Fld := mkF 0x740020 0 1 .wo 0 false false []
-- PH_PTM_CTL, R471
def PH_PTM_CTL_EN : Fld := mkF 0x740040 31 1 .rw 0 false false []
def PH_PTM_CTL_INTERVAL_LOG2 : Fld := mkF 0x740040 0 5 .rw 0xa false false [(0, 5), (25, 31)]
-- PH_PTM_TICK_LO, R471
def PH_PTM_TICK_LO_TICK_L : Fld := mkF 0x740044 0 32 .ro 0 false false []
-- PH_PTM_TICK_HI, R471
def PH_PTM_TICK_HI_TICK_H : Fld := mkF 0x740048 0 32 .ro 0 false false []
-- PH_PTM_HOST_LO, R471
def PH_PTM_HOST_LO_NS_L : Fld := mkF 0x74004c 0 32 .ro 0 false false []
-- PH_PTM_HOST_HI, R471
def PH_PTM_HOST_HI_NS_H : Fld := mkF 0x740050 0 32 .ro 0 false false []
-- PH_PTM_STAT, R471
def PH_PTM_STAT_VALID : Fld := mkF 0x740054 31 1 .ro 0 false false []
def PH_PTM_STAT_COUNT : Fld := mkF 0x740054 0 16 .ro 0 false false []
-- PH_PTM_PM_SEC_LO, R471
def PH_PTM_PM_SEC_LO_SEC_L : Fld := mkF 0x740058 0 32 .ro 0 false false []
-- PH_PTM_PM_SEC_HI, R471
def PH_PTM_PM_SEC_HI_QUALITY : Fld := mkF 0x74005c 16 16 .ro 0xff false false []
def PH_PTM_PM_SEC_HI_SEC_H : Fld := mkF 0x74005c 0 16 .ro 0 false false []
-- PH_PTM_PM_NS, R471
def PH_PTM_PM_NS_NS : Fld := mkF 0x740060 0 32 .ro 0 false false []
-- PH_PTM_PM_FRAC, R471
def PH_PTM_PM_FRAC_FRAC : Fld := mkF 0x740064 0 32 .ro 0 false false []
-- DB_DPROD, R464
def DB_DPROD_DPROD : Fld := mkA 0x4000000 4096 4096 1 0 0 32 .rw 0 false false []
-- DB_RCONS, R464
def DB_RCONS_RCONS : Fld := mkA 0x4000004 4096 4096 1 0 0 32 .rw 0 false false []
-- DB_CMD, R464
def DB_CMD_FLUSH : Fld := mkA 0x4000008 4096 4096 1 0 1 1 .wo 0 false false []
def DB_CMD_RESUME : Fld := mkA 0x4000008 4096 4096 1 0 0 1 .wo 0 false false []
-- SEC: spec file 12
-- SEC_STAT, R509
def SEC_STAT_FUSED_SVN : Fld := mkF 0x800000 25 7 .ro 0 false false []
def SEC_STAT_IMAGE_SVN : Fld := mkF 0x800000 18 7 .ro 0 false false []
def SEC_STAT_RUN_SLOT : Fld := mkF 0x800000 16 2 .ro 3 false false []
def SEC_STAT_TRIAL : Fld := mkF 0x800000 15 1 .ro 0 false false []
def SEC_STAT_BOOK_DEGRADED : Fld := mkF 0x800000 14 1 .ro 0 false false []
def SEC_STAT_NVM_WIN : Fld := mkF 0x800000 13 1 .ro 0 false false []
def SEC_STAT_FUSE_WIN : Fld := mkF 0x800000 12 1 .ro 0 false false []
def SEC_STAT_KEY_REVOKED : Fld := mkF 0x800000 8 4 .ro 0 false false []
def SEC_STAT_KEY_PROG : Fld := mkF 0x800000 4 4 .ro 0 false false []
def SEC_STAT_SIGNER : Fld := mkF 0x800000 0 4 .ro 0xf false false []
-- SEC_BOOT, R510
def SEC_BOOT_CAUSE1 : Fld := mkF 0x800004 4 4 .ro 0 false false []
def SEC_BOOT_CAUSE0 : Fld := mkF 0x800004 0 4 .ro 0 false false []
-- SEC_BUILD_LO, R510
def SEC_BUILD_LO_BUILD_L : Fld := mkF 0x800008 0 32 .ro 0 false false []
-- SEC_BUILD_HI, R510
def SEC_BUILD_HI_BUILD_H : Fld := mkF 0x80000c 0 32 .ro 0 false false []
-- SEC_SERIAL_LO, R510
def SEC_SERIAL_LO_SERIAL_L : Fld := mkF 0x800010 0 32 .ro 0 false false []
-- SEC_SERIAL_HI, R510
def SEC_SERIAL_HI_SERIAL_H : Fld := mkF 0x800014 0 32 .ro 0 false false []
-- SEC_BOOK_SEQ, R510
def SEC_BOOK_SEQ_SEQ : Fld := mkF 0x800018 0 32 .ro 0 false false []
-- SEC_BOOK_USE, R510
def SEC_BOOK_USE_ENTRIES : Fld := mkF 0x80001c 16 13 .ro 0 false false []
def SEC_BOOK_USE_HEAP : Fld := mkF 0x80001c 0 9 .ro 0 false false []
-- SEC_BOOK_VOL, R510
def SEC_BOOK_VOL_VOLUME : Fld := mkF 0x800020 0 16 .ro 0 false false []
-- SEC_JOB, R511
def SEC_JOB_STATE : Fld := mkF 0x800024 28 4 .ro 0 false false []
def SEC_JOB_OP : Fld := mkF 0x800024 16 8 .ro 0 false false []
def SEC_JOB_CAUSE : Fld := mkF 0x800024 8 8 .ro 0 false false []
def SEC_JOB_PROGRESS : Fld := mkF 0x800024 0 8 .ro 0 false false []
-- SEC_MEAS_IMAGE, R512
def SEC_MEAS_IMAGE_W : Fld := mkA 0x800040 16 4 1 0 0 32 .ro 0 false false []
-- SEC_MEAS_PERSONAL, R512
def SEC_MEAS_PERSONAL_W : Fld := mkA 0x800080 16 4 1 0 0 32 .ro 0 false false []
-- SEC_CNT_AMD, R512
def SEC_CNT_AMD_COUNT : Fld := mkF 0x8000c0 0 32 .ro 0 false false []
-- SEC_CNT_REFUSED, R512
def SEC_CNT_REFUSED_COUNT : Fld := mkF 0x8000c4 0 32 .ro 0 false false []
-- SEC_CNT_LBERR, R512
def SEC_CNT_LBERR_COUNT : Fld := mkF 0x8000c8 0 32 .ro 0 false false []
-- SEC_CNT_CLR, R512
def SEC_CNT_CLR_LBERR : Fld := mkF 0x8000cc 2 1 .wo 0 false false []
def SEC_CNT_CLR_REFUSED : Fld := mkF 0x8000cc 1 1 .wo 0 false false []
def SEC_CNT_CLR_AMD : Fld := mkF 0x8000cc 0 1 .wo 0 false false []
-- TWN: spec file 13
-- TWN_CFG, R549
def TWN_CFG_AUTO_FAILBACK : Fld := mkF 0x900000 31 1 .amd 1 false false []
def TWN_CFG_SENIOR : Fld := mkF 0x900000 30 1 .amd 0 false false []
def TWN_CFG_FAILBACK_S : Fld := mkF 0x900000 16 8 .amd 0xa false false [(0, 0)]
def TWN_CFG_START_GRACE : Fld := mkF 0x900000 8 8 .amd 0x14 false false [(0, 0)]
def TWN_CFG_HANDOVER_TMO : Fld := mkF 0x900000 0 8 .amd 0xa false false [(0, 0)]
-- TWN_CTL, R550
def TWN_CTL_HANDOVER : Fld := mkF 0x900004 31 1 .wo 0 false false []
def TWN_CTL_CLEAR_HEALTH : Fld := mkF 0x900004 30 1 .wo 0 false false []
def TWN_CTL_RESYNC : Fld := mkF 0x900004 29 1 .wo 0 false false []
-- TWN_STAT, R551
def TWN_STAT_ROLE : Fld := mkF 0x900008 30 2 .ro 2 false false []
def TWN_STAT_HEALTHY : Fld := mkF 0x900008 29 1 .ro 0 false false []
def TWN_STAT_ELIGIBLE : Fld := mkF 0x900008 28 1 .ro 0 false false []
def TWN_STAT_STALE : Fld := mkF 0x900008 27 1 .ro 0 false false []
def TWN_STAT_CURRENT : Fld := mkF 0x900008 26 1 .ro 0 false false []
def TWN_STAT_HANDOVER : Fld := mkF 0x900008 25 1 .ro 0 false false []
def TWN_STAT_LINK_UP : Fld := mkF 0x900008 24 1 .ro 0 false false []
def TWN_STAT_VOTES_SELF : Fld := mkF 0x900008 20 3 .ro 0 false false []
def TWN_STAT_VOTES_PEER : Fld := mkF 0x900008 16 3 .ro 0 false false []
def TWN_STAT_HEARD : Fld := mkF 0x900008 12 4 .ro 0 false false []
def TWN_STAT_REACH : Fld := mkF 0x900008 8 4 .ro 0 false false []
def TWN_STAT_PEER_AGE : Fld := mkF 0x900008 0 8 .ro 0xff false false []
-- TWN_HEALTH, R552
def TWN_HEALTH_PORT : Fld := mkF 0x90000c 8 1 .ro 0 false false []
def TWN_HEALTH_REACH : Fld := mkF 0x90000c 7 1 .ro 0 false false []
def TWN_HEALTH_BOOK : Fld := mkF 0x90000c 6 1 .ro 0 false false []
def TWN_HEALTH_IMAGE : Fld := mkF 0x90000c 5 1 .ro 0 false false []
def TWN_HEALTH_LINK : Fld := mkF 0x90000c 4 1 .ro 0 false false []
def TWN_HEALTH_ARRAY : Fld := mkF 0x90000c 3 1 .ro 0 false false []
def TWN_HEALTH_SELFTEST : Fld := mkF 0x90000c 2 1 .ro 0 false false []
def TWN_HEALTH_ARITH : Fld := mkF 0x90000c 1 1 .ro 0 false false []
def TWN_HEALTH_TICK : Fld := mkF 0x90000c 0 1 .ro 0 false false []
-- TWN_TILES, R553
def TWN_TILES_TILE3 : Fld := mkF 0x900010 24 8 .ro 2 false false []
def TWN_TILES_TILE2 : Fld := mkF 0x900010 16 8 .ro 2 false false []
def TWN_TILES_TILE1 : Fld := mkF 0x900010 8 8 .ro 2 false false []
def TWN_TILES_TILE0 : Fld := mkF 0x900010 0 8 .ro 2 false false []
-- TWN_TERM, R553
def TWN_TERM_PEER_TERM : Fld := mkF 0x900014 16 16 .ro 0 false false []
def TWN_TERM_TERM : Fld := mkF 0x900014 0 16 .ro 0 false false []
-- TWN_MIRROR, R554
def TWN_MIRROR_BOOK_LAG : Fld := mkF 0x900018 16 16 .ro 0 false false []
def TWN_MIRROR_UNACKED : Fld := mkF 0x900018 0 16 .ro 0 false false []
-- TWN_TIMER, R554
def TWN_TIMER_ELIG_S : Fld := mkF 0x90001c 0 16 .ro 0 false false []
-- TWN_FIRST_ROUND_LO, R554
def TWN_FIRST_ROUND_LO_ROUND_L : Fld := mkF 0x900020 0 32 .ro 0 false false []
-- TWN_FIRST_ROUND_HI, R554
def TWN_FIRST_ROUND_HI_ROUND_H : Fld := mkF 0x900024 0 16 .ro 0 false false []
-- TWN_SELFTEST, R554
def TWN_SELFTEST_RUNNING : Fld := mkF 0x900028 31 1 .ro 0 false false []
def TWN_SELFTEST_LAST_FAIL : Fld := mkF 0x900028 16 8 .ro 0 false false []
def TWN_SELFTEST_CYCLES : Fld := mkF 0x900028 0 16 .ro 0 false false []
-- TWN_CNT_GAIN, R555
def TWN_CNT_GAIN_COUNT : Fld := mkF 0x900030 0 32 .ro 0 false false []
-- TWN_CNT_HANDOVER, R555
def TWN_CNT_HANDOVER_COUNT : Fld := mkF 0x900034 0 32 .ro 0 false false []
-- TWN_CNT_ROUNDSLOST, R555
def TWN_CNT_ROUNDSLOST_COUNT : Fld := mkF 0x900038 0 32 .ro 0 false false []
-- TWN_CNT_LINKLOSS, R555
def TWN_CNT_LINKLOSS_COUNT : Fld := mkF 0x90003c 0 32 .ro 0 false false []
-- TWN_CNT_STFAIL, R555
def TWN_CNT_STFAIL_COUNT : Fld := mkF 0x900040 0 32 .ro 0 false false []
-- TWN_CNT_CLR, R555
def TWN_CNT_CLR_STFAIL : Fld := mkF 0x900044 4 1 .wo 0 false false []
def TWN_CNT_CLR_LINKLOSS : Fld := mkF 0x900044 3 1 .wo 0 false false []
def TWN_CNT_CLR_ROUNDSLOST : Fld := mkF 0x900044 2 1 .wo 0 false false []
def TWN_CNT_CLR_HANDOVER : Fld := mkF 0x900044 1 1 .wo 0 false false []
def TWN_CNT_CLR_GAIN : Fld := mkF 0x900044 0 1 .wo 0 false false []
-- LOOP: spec file 14
-- LOOP_CMD, R582
def LOOP_CMD_GO : Fld := mkA 0xa00000 2 512 1 0 31 1 .wo 0 false true []
def LOOP_CMD_ACK : Fld := mkA 0xa00000 2 512 1 0 30 1 .wo 0 false true []
def LOOP_CMD_REQ : Fld := mkA 0xa00000 2 512 1 0 0 2 .wo 0 false true [(3, 3)]
-- LOOP_STAT, R582
def LOOP_STAT_STATE : Fld := mkA 0xa00004 2 512 1 0 30 2 .ro 0 false true []
def LOOP_STAT_STOPPING : Fld := mkA 0xa00004 2 512 1 0 29 1 .ro 0 false true []
def LOOP_STAT_LOCK : Fld := mkA 0xa00004 2 512 1 0 28 1 .ro 0 false true []
def LOOP_STAT_REGFLT : Fld := mkA 0xa00004 2 512 1 0 27 1 .ro 0 false true []
def LOOP_STAT_CAUSE : Fld := mkA 0xa00004 2 512 1 0 24 3 .ro 0 false true []
def LOOP_STAT_REFUSE : Fld := mkA 0xa00004 2 512 1 0 0 8 .ro 0 false true []
-- LOOP_SETPOINT, R582
def LOOP_SETPOINT_MV : Fld := mkA 0xa00008 2 512 1 0 0 20 .rw 0 false true []
-- LOOP_MAN_V, R582
def LOOP_MAN_V_MV : Fld := mkA 0xa0000c 2 512 1 0 0 20 .rw 0 false true []
-- LOOP_R, R582
def LOOP_R_MV : Fld := mkA 0xa00010 2 512 1 0 0 32 .ro 0 false true []
-- LOOP_Y, R582
def LOOP_Y_MV : Fld := mkA 0xa00014 2 512 1 0 0 32 .ro 0 false true []
-- LOOP_OUT, R582
def LOOP_OUT_MON_CODE : Fld := mkA 0xa00018 2 512 1 0 16 16 .ro 0 false true []
def LOOP_OUT_DAC_CODE : Fld := mkA 0xa00018 2 512 1 0 0 16 .ro 0 false true []
-- LOOP_LIMIT, R583
def LOOP_LIMIT_V_MAX : Fld := mkA 0xa00020 2 512 1 0 0 20 .amd 0 false true []
-- LOOP_RAMP, R583
def LOOP_RAMP_RAMP_TRIP : Fld := mkA 0xa00024 2 512 1 0 16 10 .amd 0x3e8 false true [(0, 0), (1001, 1023)]
def LOOP_RAMP_RAMP : Fld := mkA 0xa00024 2 512 1 0 0 10 .amd 0x64 false true [(0, 0), (1001, 1023)]
-- LOOP_SCALE, R583
def LOOP_SCALE_MON_GAIN : Fld := mkA 0xa00028 2 512 1 0 16 16 .amd 0xc800 false true [(0, 0)]
def LOOP_SCALE_REG_GAIN : Fld := mkA 0xa00028 2 512 1 0 0 16 .amd 0xc800 false true [(0, 0)]
-- LOOP_OUTLIM, R583
def LOOP_OUTLIM_OUT_MAX : Fld := mkA 0xa0002c 2 512 1 0 16 16 .amd 0 false true []
def LOOP_OUTLIM_OUT_MIN : Fld := mkA 0xa0002c 2 512 1 0 0 16 .amd 0 false true []
-- LOOP_CHECK, R583
def LOOP_CHECK_STALE_N : Fld := mkA 0xa00030 2 512 1 0 28 4 .amd 4 false true [(0, 0)]
def LOOP_CHECK_V_OFF : Fld := mkA 0xa00030 2 512 1 0 16 12 .amd 0x7d0 false true []
def LOOP_CHECK_FROZEN_N : Fld := mkA 0xa00030 2 512 1 0 0 16 .amd 0x1388 false true [(0, 63)]
-- LOOP_KP, R583
def LOOP_KP_KP : Fld := mkA 0xa00034 2 512 1 0 0 32 .amd 0 false true []
-- LOOP_KI, R583
def LOOP_KI_KI : Fld := mkA 0xa00038 2 512 1 0 0 32 .amd 0 false true []
-- LOOP_NSEC, R583
def LOOP_NSEC_NSEC : Fld := mkA 0xa0003c 2 512 1 0 0 4 .amd 0 false true [(9, 15)]
-- LOOP_BQ_B0, R583
def LOOP_BQ_B0_B0 : Fld := mkA 0xa00040 2 512 8 20 0 32 .amd 0x40000000 false true []
-- LOOP_BQ_B1, R583
def LOOP_BQ_B1_B1 : Fld := mkA 0xa00044 2 512 8 20 0 32 .amd 0 false true []
-- LOOP_BQ_B2, R583
def LOOP_BQ_B2_B2 : Fld := mkA 0xa00048 2 512 8 20 0 32 .amd 0 false true []
-- LOOP_BQ_A1, R583
def LOOP_BQ_A1_A1 : Fld := mkA 0xa0004c 2 512 8 20 0 32 .amd 0 false true []
-- LOOP_BQ_A2, R583
def LOOP_BQ_A2_A2 : Fld := mkA 0xa00050 2 512 8 20 0 32 .amd 0 false true []
-- LOOP_REP_CFG, R584
def LOOP_REP_CFG_REP_EN : Fld := mkA 0xa000e0 2 512 1 0 31 1 .amd 0 false true []
def LOOP_REP_CFG_SRC : Fld := mkA 0xa000e0 2 512 1 0 30 1 .amd 0 false true []
def LOOP_REP_CFG_LEAD : Fld := mkA 0xa000e0 2 512 1 0 20 10 .amd 0 false true []
def LOOP_REP_CFG_F_TOL : Fld := mkA 0xa000e0 2 512 1 0 12 8 .amd 0xa false true [(0, 0)]
-- LOOP_REP_KR, R584
def LOOP_REP_KR_KR : Fld := mkA 0xa000e4 2 512 1 0 0 32 .amd 0 false true []
-- LOOP_REP_QF, R584
def LOOP_REP_QF_QF : Fld := mkA 0xa000e8 2 512 1 0 0 32 .amd 0x40000000 false true []
-- LOOP_REP_LIM, R584
def LOOP_REP_LIM_REP_LIM : Fld := mkA 0xa000ec 2 512 1 0 0 32 .amd 0 false true []
-- LOOP_REP_FMIN, R584
def LOOP_REP_FMIN_FMIN : Fld := mkA 0xa000f0 2 512 1 0 0 32 .amd 0x32 false true []
-- LOOP_REP_FMAX, R584
def LOOP_REP_FMAX_FMAX : Fld := mkA 0xa000f4 2 512 1 0 0 32 .amd 0xf4240 false true []
-- LOOP_REP_DPHI, R584
def LOOP_REP_DPHI_DPHI : Fld := mkA 0xa000f8 2 512 1 0 0 32 .ro 0 false true []
-- LOOP_REP_STAT, R584
def LOOP_REP_STAT_ACTIVE : Fld := mkA 0xa000fc 2 512 1 0 31 1 .ro 0 false true []
def LOOP_REP_STAT_CAUSE : Fld := mkA 0xa000fc 2 512 1 0 0 3 .ro 0 false true []
-- LOOP_CNT_HOLD, R584
def LOOP_CNT_HOLD_COUNT : Fld := mkA 0xa00100 2 512 1 0 0 32 .ro 0 false true []
-- LOOP_CNT_SAT, R584
def LOOP_CNT_SAT_COUNT : Fld := mkA 0xa00104 2 512 1 0 0 32 .ro 0 false true []
-- LOOP_CNT_PLFAIL, R584
def LOOP_CNT_PLFAIL_COUNT : Fld := mkA 0xa00108 2 512 1 0 0 32 .ro 0 false true []
-- LOOP_CNT_CLR, R584
def LOOP_CNT_CLR_PLFAIL : Fld := mkA 0xa0010c 2 512 1 0 2 1 .wo 0 false true []
def LOOP_CNT_CLR_SAT : Fld := mkA 0xa0010c 2 512 1 0 1 1 .wo 0 false true []
def LOOP_CNT_CLR_HOLD : Fld := mkA 0xa0010c 2 512 1 0 0 1 .wo 0 false true []
-- LOOP_REP_TAB, R584
def LOOP_REP_TAB_V : Fld := mkA 0xa01000 2 4096 1024 4 0 32 .ro 0 false true []
-- BIAS_ECFG, R585
def BIAS_ECFG_GATE : Fld := mkA 0xa03000 2 256 1 0 16 16 .amd 0x1388 false true [(0, 999)]
def BIAS_ECFG_FIX : Fld := mkA 0xa03000 2 256 1 0 2 1 .amd 0 false true []
def BIAS_ECFG_RANGE : Fld := mkA 0xa03000 2 256 1 0 0 2 .amd 0 false true [(3, 3)]
-- BIAS_ESTAT, R585
def BIAS_ESTAT_OVR : Fld := mkA 0xa03004 2 256 1 0 31 1 .ro 0 false true []
def BIAS_ESTAT_RANGING : Fld := mkA 0xa03004 2 256 1 0 30 1 .ro 0 false true []
def BIAS_ESTAT_RANGE_ACT : Fld := mkA 0xa03004 2 256 1 0 0 2 .ro 0 false true []
-- BIAS_I, R585
def BIAS_I_IMEAS : Fld := mkA 0xa03008 2 256 1 0 0 32 .ro 0 false true []
-- BIAS_IEXP, R585
def BIAS_IEXP_IEXP : Fld := mkA 0xa0300c 2 256 1 0 0 32 .ro 0 false true []
-- BIAS_TEMP, R585
def BIAS_TEMP_VALID : Fld := mkA 0xa03010 2 256 1 0 31 1 .ro 0 false true []
def BIAS_TEMP_T : Fld := mkA 0xa03010 2 256 1 0 0 16 .ro 0 false true []
-- BIAS_PL_CFG, R585
def BIAS_PL_CFG_HI_RATIO : Fld := mkA 0xa03014 2 256 1 0 24 8 .amd 0x30 false true []
def BIAS_PL_CFG_LO_RATIO : Fld := mkA 0xa03014 2 256 1 0 16 8 .amd 0x10 false true []
def BIAS_PL_CFG_PL_N : Fld := mkA 0xa03014 2 256 1 0 12 4 .amd 3 false true [(0, 0)]
def BIAS_PL_CFG_PL_ACT : Fld := mkA 0xa03014 2 256 1 0 10 2 .amd 0 false true [(3, 3)]
-- BIAS_PL_ENV, R585
def BIAS_PL_ENV_C_SENS : Fld := mkA 0xa03018 2 256 1 0 16 16 .amd 0 false true []
def BIAS_PL_ENV_ENV_MASK : Fld := mkA 0xa03018 2 256 1 0 0 12 .amd 0 false true []
-- BIAS_IREF, R585
def BIAS_IREF_IREF : Fld := mkA 0xa0301c 2 256 1 0 0 32 .amd 0 false true []
-- BIAS_ITRIP, R585
def BIAS_ITRIP_ITRIP : Fld := mkA 0xa03020 2 256 1 0 0 32 .amd 0 false true []
-- BIAS_IFLOOR, R585
def BIAS_IFLOOR_IFLOOR : Fld := mkA 0xa03024 2 256 1 0 0 32 .amd 0x2710 false true []
-- BIAS_PL_STAT, R585
def BIAS_PL_STAT_RESULT : Fld := mkA 0xa03028 2 256 1 0 30 2 .ro 3 false true []
def BIAS_PL_STAT_RUN : Fld := mkA 0xa03028 2 256 1 0 0 4 .ro 0 false true []
-- BIAS_FTAB, R579
def BIAS_FTAB_F : Fld := mkA 0xa03400 2 512 64 4 0 32 .amd 0x10000 false true []
-- BIAS_GTAB, R579
def BIAS_GTAB_G : Fld := mkA 0xa03500 2 512 17 4 0 32 .amd 0x10000 false true []
-- BIAS_GCFG, R585
def BIAS_GCFG_MODE : Fld := mkA 0xa03800 4 16 1 0 30 2 .amd 0 false true []
def BIAS_GCFG_LOOP : Fld := mkA 0xa03800 4 16 1 0 29 1 .amd 0 false true []
def BIAS_GCFG_G_SET : Fld := mkA 0xa03800 4 16 1 0 0 16 .amd 0 false true []
-- BIAS_GK, R585
def BIAS_GK_GK : Fld := mkA 0xa03804 4 16 1 0 0 32 .amd 0 false true []
-- BIAS_GSTAT, R585
def BIAS_GSTAT_OVC : Fld := mkA 0xa03808 4 16 1 0 31 1 .ro 0 false true []
def BIAS_GSTAT_G_OUT : Fld := mkA 0xa03808 4 16 1 0 0 16 .ro 0 false true []
-- ENV: spec file 15
-- ENV_CTL, R610
def ENV_CTL_SWAP : Fld := mkF 0xa04000 31 1 .wo 0 false true []
-- ENV_CFG, R610
def ENV_CFG_PAIR_N : Fld := mkF 0xa04004 16 4 .amd 3 false true [(0, 0)]
def ENV_CFG_F_LOG2 : Fld := mkF 0xa04004 8 3 .amd 6 false true [(0, 3)]
def ENV_CFG_N_SETTLE : Fld := mkF 0xa04004 0 8 .amd 0x10 false true [(0, 0)]
-- ENV_PAIR_TOL, R610
def ENV_PAIR_TOL_TOL : Fld := mkF 0xa04008 0 16 .amd 0x32 false true []
-- ENV_HK_STAT, R610
def ENV_HK_STAT_REF_OK : Fld := mkF 0xa0400c 31 1 .ro 0 false true []
def ENV_HK_STAT_GND_OK : Fld := mkF 0xa0400c 30 1 .ro 0 false true []
def ENV_HK_STAT_SCAN : Fld := mkF 0xa0400c 0 16 .ro 0 false true []
-- ENV_CNT_RESTART, R610
def ENV_CNT_RESTART_COUNT : Fld := mkF 0xa04010 0 32 .ro 0 false true []
-- ENV_CNT_ABANDON, R610
def ENV_CNT_ABANDON_COUNT : Fld := mkF 0xa04014 0 32 .ro 0 false true []
-- ENV_CNT_DISAGREE, R610
def ENV_CNT_DISAGREE_COUNT : Fld := mkF 0xa04018 0 32 .ro 0 false true []
-- ENV_CNT_CLR, R610
def ENV_CNT_CLR_DISAGREE : Fld := mkF 0xa0401c 2 1 .wo 0 false true []
def ENV_CNT_CLR_ABANDON : Fld := mkF 0xa0401c 1 1 .wo 0 false true []
def ENV_CNT_CLR_RESTART : Fld := mkF 0xa0401c 0 1 .wo 0 false true []
-- ENV_PT_CFG, R611
def ENV_PT_CFG_EN : Fld := mkA 0xa04100 12 16 1 0 31 1 .amd 0 false true []
def ENV_PT_CFG_IEXC : Fld := mkA 0xa04100 12 16 1 0 29 2 .amd 0 false true [(3, 3)]
def ENV_PT_CFG_GAIN : Fld := mkA 0xa04100 12 16 1 0 28 1 .amd 0 false true []
def ENV_PT_CFG_TABLE : Fld := mkA 0xa04100 12 16 1 0 27 1 .amd 0 false true []
def ENV_PT_CFG_PAIR_EN : Fld := mkA 0xa04100 12 16 1 0 26 1 .amd 0 false true []
def ENV_PT_CFG_PAIR : Fld := mkA 0xa04100 12 16 1 0 20 4 .amd 0 false true [(12, 15)]
def ENV_PT_CFG_R0 : Fld := mkA 0xa04100 12 16 1 0 0 20 .amd 0 false true []
-- ENV_PT_RES, R611
def ENV_PT_RES_R : Fld := mkA 0xa04104 12 16 1 0 0 32 .ro 0 false true []
-- ENV_PT_TEMP, R611
def ENV_PT_TEMP_VALID : Fld := mkA 0xa04108 12 16 1 0 31 1 .ro 0 false true []
def ENV_PT_TEMP_FLAGS : Fld := mkA 0xa04108 12 16 1 0 23 8 .ro 0 false true []
def ENV_PT_TEMP_T : Fld := mkA 0xa04108 12 16 1 0 0 16 .ro 0 false true []
-- ENV_PT_OFS, R611
def ENV_PT_OFS_SCAN : Fld := mkA 0xa0410c 12 16 1 0 16 16 .ro 0 false true []
def ENV_PT_OFS_OFS : Fld := mkA 0xa0410c 12 16 1 0 0 16 .ro 0 false true []
-- ENV_HK, R612
def ENV_HK_VALID : Fld := mkA 0xa04200 32 4 1 0 31 1 .ro 0 false true []
def ENV_HK_VALUE : Fld := mkA 0xa04200 32 4 1 0 0 16 .ro 0 false true []
-- ENV_TAB_RATIO, R612
def ENV_TAB_RATIO_RATIO : Fld := mkA 0xa04400 2 256 32 8 0 32 .amd 0 false true []
-- ENV_TAB_TEMP, R612
def ENV_TAB_TEMP_T : Fld := mkA 0xa04404 2 256 32 8 0 32 .amd 0 false true []
-- SL_CFG, R613
def SL_CFG_FAIL_DIR : Fld := mkF 0xa04800 31 1 .amd 0 false true []
def SL_CFG_FHOLD : Fld := mkF 0xa04800 16 8 .amd 0xa false true [(101, 255)]
def SL_CFG_SRC : Fld := mkF 0xa04800 0 5 .amd 0 false true [(18, 31)]
-- SL_LO, R613
def SL_LO_LO : Fld := mkF 0xa04804 0 32 .amd 0 false true []
-- SL_HI, R613
def SL_HI_HI : Fld := mkF 0xa04808 0 32 .amd 0x2710 false true []
-- SL_MASK, R613
def SL_MASK_MASK : Fld := mkF 0xa0480c 0 10 .amd 0x2cf false true []
-- SL_FORCE, R613
def SL_FORCE_EN : Fld := mkF 0xa04810 31 1 .rw 0 false true []
def SL_FORCE_UA : Fld := mkF 0xa04810 0 15 .rw 0xfa0 false true []
-- SL_STAT, R613
def SL_STAT_LEVEL : Fld := mkF 0xa04814 30 2 .ro 3 false true []
def SL_STAT_SL_ERR : Fld := mkF 0xa04814 29 1 .ro 0 false true []
def SL_STAT_COMPLIANCE : Fld := mkF 0xa04814 28 1 .ro 0 false true []
def SL_STAT_CAUSES : Fld := mkF 0xa04814 16 10 .ro 0 false true []
def SL_STAT_UA_SET : Fld := mkF 0xa04814 0 15 .ro 0xdac false true []
-- AUX: spec file 15
-- AUX_CFG, R614
def AUX_CFG_EN : Fld := mkA 0xa05000 2 256 1 0 31 1 .amd 0 false false []
def AUX_CFG_SLOPE : Fld := mkA 0xa05000 2 256 1 0 30 1 .amd 0 false false []
def AUX_CFG_TERM : Fld := mkA 0xa05000 2 256 1 0 29 1 .amd 0 false false []
def AUX_CFG_HYS : Fld := mkA 0xa05000 2 256 1 0 25 4 .amd 4 false false []
def AUX_CFG_THR : Fld := mkA 0xa05000 2 256 1 0 0 10 .amd 0x100 false false []
-- AUX_DEAD, R614
def AUX_DEAD_DEAD : Fld := mkA 0xa05004 2 256 1 0 0 16 .amd 8 false false [(0, 7)]
-- AUX_DLY, R614
def AUX_DLY_DLY : Fld := mkA 0xa05008 2 256 1 0 0 32 .amd 0 false false []
-- AUX_LAST_LO, R614
def AUX_LAST_LO_T_L : Fld := mkA 0xa0500c 2 256 1 0 0 32 .ro 0 false false []
-- AUX_LAST_HI, R614
def AUX_LAST_HI_T_H : Fld := mkA 0xa05010 2 256 1 0 0 32 .ro 0 false false []
-- AUX_F_CFG, R614
def AUX_F_CFG_FGATE : Fld := mkA 0xa05014 2 256 1 0 16 16 .amd 0x3e8 false false []
def AUX_F_CFG_FUPD : Fld := mkA 0xa05014 2 256 1 0 7 9 .amd 0x64 false false []
def AUX_F_CFG_F_JIT : Fld := mkA 0xa05014 2 256 1 0 0 7 .amd 0xa false false [(0, 0)]
-- AUX_FREQ_LO, R614
def AUX_FREQ_LO_F_L : Fld := mkA 0xa05018 2 256 1 0 0 32 .ro 0 false false []
-- AUX_FREQ_HI, R614
def AUX_FREQ_HI_F_H : Fld := mkA 0xa0501c 2 256 1 0 0 32 .ro 0 false false []
-- AUX_F_STAT, R614
def AUX_F_STAT_VALID : Fld := mkA 0xa05020 2 256 1 0 31 1 .ro 0 false false []
def AUX_F_STAT_CAUSE : Fld := mkA 0xa05020 2 256 1 0 28 3 .ro 4 false false []
def AUX_F_STAT_EDGES : Fld := mkA 0xa05020 2 256 1 0 0 11 .ro 0 false false []
-- AUX_CNT_EDGE, R614
def AUX_CNT_EDGE_COUNT : Fld := mkA 0xa05024 2 256 1 0 0 32 .ro 0 false false []
-- AUX_CNT_DEAD, R614
def AUX_CNT_DEAD_COUNT : Fld := mkA 0xa05028 2 256 1 0 0 32 .ro 0 false false []
-- AUX_CNT_CLR, R614
def AUX_CNT_CLR_DEAD : Fld := mkA 0xa0502c 2 256 1 0 1 1 .wo 0 false false []
def AUX_CNT_CLR_EDGE : Fld := mkA 0xa0502c 2 256 1 0 0 1 .wo 0 false false []
-- AUX_IVL_CFG, R615
def AUX_IVL_CFG_EN : Fld := mkF 0xa05200 31 1 .amd 0 false false []
def AUX_IVL_CFG_START_IN : Fld := mkF 0xa05200 30 1 .amd 0 false false []
def AUX_IVL_CFG_START_SLOPE : Fld := mkF 0xa05200 29 1 .amd 0 false false []
def AUX_IVL_CFG_STOP_IN : Fld := mkF 0xa05200 28 1 .amd 1 false false []
def AUX_IVL_CFG_STOP_SLOPE : Fld := mkF 0xa05200 27 1 .amd 0 false false []
-- AUX_IVL_MAX, R615
def AUX_IVL_MAX_MAX : Fld := mkF 0xa05204 0 32 .amd 0 false false []
-- AUX_IVL_LO, R615
def AUX_IVL_LO_D_L : Fld := mkF 0xa05208 0 32 .ro 0 false false []
-- AUX_IVL_HI, R615
def AUX_IVL_HI_VALID : Fld := mkF 0xa0520c 31 1 .ro 0 false false []
def AUX_IVL_HI_SUB_BIN : Fld := mkF 0xa0520c 30 1 .ro 0 false false []
def AUX_IVL_HI_D_H : Fld := mkF 0xa0520c 0 16 .ro 0 false false []
-- AUX_IVL_STAT, R615
def AUX_IVL_STAT_FILL : Fld := mkF 0xa05210 0 7 .ro 0 false false []
-- AUX_CNT_ORDER, R615
def AUX_CNT_ORDER_COUNT : Fld := mkF 0xa05214 0 32 .ro 0 false false []
-- AUX_CNT_NOSTART, R615
def AUX_CNT_NOSTART_COUNT : Fld := mkF 0xa05218 0 32 .ro 0 false false []
-- AUX_CNT_REPLACED, R615
def AUX_CNT_REPLACED_COUNT : Fld := mkF 0xa0521c 0 32 .ro 0 false false []
-- AUX_CNT_TIMEOUT, R615
def AUX_CNT_TIMEOUT_COUNT : Fld := mkF 0xa05220 0 32 .ro 0 false false []
-- AUX_CNT_OVF, R615
def AUX_CNT_OVF_COUNT : Fld := mkF 0xa05224 0 32 .ro 0 false false []
-- AUX_IVL_CLR, R615
def AUX_IVL_CLR_CNT : Fld := mkF 0xa05228 0 5 .wo 0 false false []
-- EMT: spec file 16
-- EMT_CFG, R635
def EMT_CFG_T_SHUT : Fld := mkF 0xa06000 24 8 .amd 0x69 false true [(0, 79), (116, 255)]
def EMT_CFG_T_PT_EN : Fld := mkF 0xa06000 23 1 .amd 0 false true []
def EMT_CFG_T_PT : Fld := mkF 0xa06000 16 4 .amd 0 false true [(12, 15)]
def EMT_CFG_PRE_TICKS : Fld := mkF 0xa06000 8 8 .amd 8 false true [(0, 2)]
def EMT_CFG_SYNC_EN : Fld := mkF 0xa06000 7 1 .amd 0 false true []
def EMT_CFG_SYNC_SEQ : Fld := mkF 0xa06000 0 6 .amd 0 false true []
-- EMT_VER, R635
def EMT_VER_VER_AGE : Fld := mkF 0xa06004 0 16 .amd 0xe10 false true []
-- EMT_CTL, R635
def EMT_CTL_GO : Fld := mkF 0xa06008 31 1 .wo 0 false true []
def EMT_CTL_SWAP : Fld := mkF 0xa06008 30 1 .wo 0 false true []
def EMT_CTL_ROW_CLR : Fld := mkF 0xa06008 29 1 .wo 0 false true []
def EMT_CTL_SEQ : Fld := mkF 0xa06008 0 6 .wo 0 false true []
-- EMT_STAT, R635
def EMT_STAT_RUN : Fld := mkF 0xa0600c 31 1 .ro 0 false true []
def EMT_STAT_SHUT : Fld := mkF 0xa0600c 30 1 .ro 0 false true []
def EMT_STAT_SEQ_ACT : Fld := mkF 0xa0600c 24 6 .ro 0 false true []
def EMT_STAT_F : Fld := mkF 0xa0600c 16 8 .ro 0x80 false true []
def EMT_STAT_ROW_OVC : Fld := mkF 0xa0600c 0 16 .ro 0 false true []
-- EMT_TD, R635
def EMT_TD_TD : Fld := mkF 0xa06010 0 16 .ro 0 false true []
-- EMT_LAST_F0_LO, R636
def EMT_LAST_F0_LO_TICK_L : Fld := mkF 0xa06014 0 32 .ro 0 false true []
-- EMT_LAST_F0_HI, R636
def EMT_LAST_F0_HI_TICK_H : Fld := mkF 0xa06018 0 32 .ro 0 false true []
-- EMT_CNT_BUSY, R636
def EMT_CNT_BUSY_COUNT : Fld := mkF 0xa06040 0 32 .ro 0 false true []
-- EMT_CNT_MISS, R636
def EMT_CNT_MISS_COUNT : Fld := mkF 0xa06044 0 32 .ro 0 false true []
-- EMT_CNT_SUPPR, R636
def EMT_CNT_SUPPR_COUNT : Fld := mkF 0xa06048 0 32 .ro 0 false true []
-- EMT_CNT_CLR, R636
def EMT_CNT_CLR_SUPPR : Fld := mkF 0xa0604c 2 1 .wo 0 false true []
def EMT_CNT_CLR_MISS : Fld := mkF 0xa0604c 1 1 .wo 0 false true []
def EMT_CNT_CLR_BUSY : Fld := mkF 0xa0604c 0 1 .wo 0 false true []
-- EMT_FRONT, R636
def EMT_FRONT_ICODE : Fld := mkA 0xa06100 16 8 1 0 16 8 .ro 0 false true []
def EMT_FRONT_COLS : Fld := mkA 0xa06100 16 8 1 0 0 16 .ro 0 false true []
-- EMT_FRONT1, R636
def EMT_FRONT1_WIDTH : Fld := mkA 0xa06104 16 8 1 0 0 11 .ro 0 false true []
-- EMT_BACK, R636
def EMT_BACK_ICODE : Fld := mkA 0xa06180 16 8 1 0 16 8 .rw 0 false true [(246, 255)]
def EMT_BACK_COLS : Fld := mkA 0xa06180 16 8 1 0 0 16 .rw 0 false true []
-- EMT_BACK1, R636
def EMT_BACK1_WIDTH : Fld := mkA 0xa06184 16 8 1 0 0 11 .rw 0 false true [(0, 1)]
-- EMT_STATE, R636
def EMT_STATE_E : Fld := mkA 0xa06200 16 4 1 0 0 32 .ro 0 false true []
-- EMT_PAT, R636
def EMT_PAT_ICODE : Fld := mkA 0xa06880 15 128 16 8 16 8 .amd 0 false true []
def EMT_PAT_COLS : Fld := mkA 0xa06880 15 128 16 8 0 16 .amd 0 false true []
-- EMT_PAT1, R636
def EMT_PAT1_WIDTH : Fld := mkA 0xa06884 15 128 16 8 0 11 .amd 0 false true []
-- EMT_SEQ_PATTERN, R636
def EMT_SEQ_PATTERN_PATTERN : Fld := mkA 0xa07000 64 16 1 0 0 4 .amd 0 false true []
-- EMT_SEQ_REPEAT, R636
def EMT_SEQ_REPEAT_REPEAT : Fld := mkA 0xa07004 64 16 1 0 0 16 .amd 0 false true []
-- EMT_SEQ_PERIOD, R636
def EMT_SEQ_PERIOD_PERIOD : Fld := mkA 0xa07008 64 16 1 0 0 32 .amd 0 false true []
-- CAL: spec file 16
-- EMT_CAL_CTL, R637
def EMT_CAL_CTL_START : Fld := mkF 0xa08000 31 1 .wo 0 false false []
def EMT_CAL_CTL_STOP : Fld := mkF 0xa08000 30 1 .wo 0 false false []
def EMT_CAL_CTL_APPLY : Fld := mkF 0xa08000 29 1 .wo 0 false false []
def EMT_CAL_CTL_DISCARD : Fld := mkF 0xa08000 28 1 .wo 0 false false []
def EMT_CAL_CTL_MODE : Fld := mkF 0xa08000 0 1 .rw 0 false false []
-- EMT_CAL_CFG, R637
def EMT_CAL_CFG_AUTO_APPLY : Fld := mkF 0xa08004 31 1 .amd 0 false false []
def EMT_CAL_CFG_PERSIST : Fld := mkF 0xa08004 30 1 .amd 1 false false []
def EMT_CAL_CFG_XGAIN : Fld := mkF 0xa08004 24 6 .amd 8 false false []
def EMT_CAL_CFG_MIN_CELLS : Fld := mkF 0xa08004 16 8 .amd 0xf0 false false []
def EMT_CAL_CFG_MATCH_WIN : Fld := mkF 0xa08004 0 16 .amd 0x600 false false []
-- EMT_CAL_LIM, R637
def EMT_CAL_LIM_MAX_STEP : Fld := mkF 0xa08008 16 16 .amd 0x1000 false false []
def EMT_CAL_LIM_MIN_N : Fld := mkF 0xa08008 0 10 .amd 0x100 false false [(0, 0)]
-- EMT_CAL_XMIN, R637
def EMT_CAL_XMIN_MIN_XN : Fld := mkF 0xa0800c 0 32 .amd 0x2710 false false [(0, 0)]
-- EMT_CAL_CAMP, R637
def EMT_CAL_CAMP_CAMP_FLASHES : Fld := mkF 0xa08010 0 32 .rw 0 false false []
-- EMT_CAL_STAT, R637
def EMT_CAL_STAT_STATE : Fld := mkF 0xa08014 29 3 .ro 0 true false []
def EMT_CAL_STAT_CAUSE : Fld := mkF 0xa08014 24 5 .ro 0 true false []
def EMT_CAL_STAT_FLASHES : Fld := mkF 0xa08014 0 24 .ro 0 true false []
-- EMT_CAL_XN, R637
def EMT_CAL_XN_XN : Fld := mkF 0xa08018 0 32 .ro 0 true false []
-- EMT_CAL_XSUM, R637
def EMT_CAL_XSUM_XSUM : Fld := mkF 0xa0801c 0 32 .ro 0 true false []
-- EMT_CAL_RES, R637
def EMT_CAL_RES_ACCEPT : Fld := mkF 0xa08020 0 21 .ro 0 true false []
-- EMT_CAL_RES2, R637
def EMT_CAL_RES2_REJECT : Fld := mkF 0xa08024 0 21 .ro 0 true false []
-- EMT_CAL_DM, R637
def EMT_CAL_DM_DM : Fld := mkF 0xa08028 0 32 .ro 0 true false []
-- PWR: spec file 17
-- PWR_STAT, R652
def PWR_STAT_VIN_LOW : Fld := mkF 0xb00000 31 1 .ro 0 false true []
def PWR_STAT_PCAP : Fld := mkF 0xb00000 30 1 .ro 0 false true []
def PWR_STAT_CLK_SYNC : Fld := mkF 0xb00000 29 1 .ro 0 false true []
def PWR_STAT_EMT_OFF : Fld := mkF 0xb00000 28 1 .ro 0 false true []
def PWR_STAT_OFFA : Fld := mkF 0xb00000 26 2 .ro 0 false true []
def PWR_STAT_OFFB : Fld := mkF 0xb00000 24 2 .ro 0 false true []
def PWR_STAT_RAIL_FLT : Fld := mkF 0xb00000 16 8 .ro 0 false true []
def PWR_STAT_VIN_MV : Fld := mkF 0xb00000 0 16 .ro 0 false true []
-- PWR_PIN, R652
def PWR_PIN_I_IN : Fld := mkF 0xb00004 16 16 .ro 0 false true []
def PWR_PIN_P_IN : Fld := mkF 0xb00004 0 16 .ro 0 false true []
-- PWR_RAIL, R652
def PWR_RAIL_MA : Fld := mkA 0xb00010 9 4 1 0 16 16 .ro 0 false true []
def PWR_RAIL_MV : Fld := mkA 0xb00010 9 4 1 0 0 16 .ro 0 false true []
-- PWR_CFG, R652
def PWR_CFG_P_CAP : Fld := mkF 0xb00040 24 8 .amd 0x46 false true [(71, 255)]
def PWR_CFG_VIN_LOW : Fld := mkF 0xb00040 16 8 .amd 0x3c false true [(0, 59), (101, 255)]
-- PWR_CTL, R652
def PWR_CTL_OFFICE_ON_A : Fld := mkF 0xb00044 31 1 .wo 0 false true []
def PWR_CTL_OFFICE_ON_B : Fld := mkF 0xb00044 30 1 .wo 0 false true []
-- PWR_CNT_RAILFLT, R652
def PWR_CNT_RAILFLT_COUNT : Fld := mkF 0xb00050 0 32 .ro 0 false true []
-- PWR_CNT_VINLOW, R652
def PWR_CNT_VINLOW_COUNT : Fld := mkF 0xb00054 0 32 .ro 0 false true []
-- PWR_CNT_CLR, R652
def PWR_CNT_CLR_VINLOW : Fld := mkF 0xb00058 1 1 .wo 0 false true []
def PWR_CNT_CLR_RAILFLT : Fld := mkF 0xb00058 0 1 .wo 0 false true []
-- THM_TRIP, R653
def THM_TRIP_TRIPPED : Fld := mkF 0xb00140 31 1 .ro 0 false true []
def THM_TRIP_DIODE : Fld := mkF 0xb00140 0 7 .ro 0 false true []
-- THM: spec file 17
-- THM_CFG, R653
def THM_CFG_T_THR : Fld := mkF 0xb00100 24 8 .amd 0x5f false false []
def THM_CFG_HYS : Fld := mkF 0xb00100 20 4 .amd 5 false false [(0, 0)]
def THM_CFG_T_STOP : Fld := mkF 0xb00100 12 8 .amd 0x69 false false [(111, 255)]
def THM_CFG_DWELL : Fld := mkF 0xb00100 0 8 .amd 0xa false false [(0, 0)]
-- THM_CFG2, R653
def THM_CFG2_COOL_EN : Fld := mkF 0xb00104 31 1 .amd 0 false false []
def THM_CFG2_COOL_PT : Fld := mkF 0xb00104 24 4 .amd 0 false false [(12, 15)]
def THM_CFG2_SENS_TOL : Fld := mkF 0xb00104 16 8 .amd 0xf false false [(0, 0)]
def THM_CFG2_T_COOL : Fld := mkF 0xb00104 0 16 .amd 0x7d0 false false []
-- THM_ELETTER, R653
def THM_ELETTER_E_LETTER : Fld := mkF 0xb00108 0 16 .amd 0x6d6 false false []
-- THM_STAT, R653
def THM_STAT_LEVEL : Fld := mkF 0xb0010c 29 3 .ro 0 false true []
def THM_STAT_HOLD : Fld := mkF 0xb0010c 28 1 .ro 0 false true []
def THM_STAT_VALID : Fld := mkF 0xb0010c 27 1 .ro 0 true false []
def THM_STAT_STOPPED : Fld := mkF 0xb0010c 26 1 .ro 0 true false []
def THM_STAT_NODE : Fld := mkF 0xb0010c 16 9 .ro 0 true false []
def THM_STAT_T_MAX : Fld := mkF 0xb0010c 0 16 .ro 0 true false []
-- THM_CTL, R653
def THM_CTL_ACK : Fld := mkF 0xb00110 31 1 .wo 0 false false []
def THM_CTL_READMIT : Fld := mkF 0xb00110 30 1 .wo 0 false false []
def THM_CTL_SENSOR : Fld := mkF 0xb00110 0 6 .wo 0 false false [(42, 63)]
-- THM_EXCL_LO, R653
def THM_EXCL_LO_MASK : Fld := mkF 0xb00114 0 32 .ro 0 true false []
-- THM_EXCL_HI, R653
def THM_EXCL_HI_MASK : Fld := mkF 0xb00118 0 10 .ro 0 true false []
-- THM_HOT, R653
def THM_HOT_D : Fld := mkA 0xb00120 8 4 1 0 0 32 .ro 0 true false []
-- THM_CNT_STEPUP, R653
def THM_CNT_STEPUP_COUNT : Fld := mkF 0xb00150 0 32 .ro 0 true false []
-- THM_CNT_SENSFAIL, R653
def THM_CNT_SENSFAIL_COUNT : Fld := mkF 0xb00154 0 32 .ro 0 true false []
-- THM_CNT_STOP, R653
def THM_CNT_STOP_COUNT : Fld := mkF 0xb00158 0 32 .ro 0 true false []
-- THM_CNT_CLR, R653
def THM_CNT_CLR_STOP : Fld := mkF 0xb0015c 2 1 .wo 0 false false []
def THM_CNT_CLR_SENSFAIL : Fld := mkF 0xb0015c 1 1 .wo 0 false false []
def THM_CNT_CLR_STEPUP : Fld := mkF 0xb0015c 0 1 .wo 0 false false []
-- THM_NODE, R653
def THM_NODE_VALID : Fld := mkA 0xb01000 268 4 1 0 31 1 .ro 0 true false []
def THM_NODE_EST : Fld := mkA 0xb01000 268 4 1 0 30 1 .ro 0 true false []
def THM_NODE_T : Fld := mkA 0xb01000 268 4 1 0 0 16 .ro 0 true false []
-- THM_SENS, R653
def THM_SENS_ADMIT : Fld := mkA 0xb01800 42 4 1 0 31 1 .ro 0 true false []
def THM_SENS_CAUSE : Fld := mkA 0xb01800 42 4 1 0 28 3 .ro 0 true false []
def THM_SENS_T : Fld := mkA 0xb01800 42 4 1 0 0 16 .ro 0 true false []
-- ERR: spec file 18
-- ERR_ESC_CFG, R688
def ERR_ESC_CFG_UE_MAX : Fld := mkF 0xc00000 24 8 .amd 0x10 false false [(0, 0)]
def ERR_ESC_CFG_VF_MAX : Fld := mkF 0xc00000 16 8 .amd 8 false false [(0, 0)]
def ERR_ESC_CFG_RES_DROP_MAX : Fld := mkF 0xc00000 8 8 .amd 4 false false [(0, 0)]
-- ERR_ESC_CFG2, R688
def ERR_ESC_CFG2_RES_RETRY_MAX : Fld := mkF 0xc00004 16 16 .amd 0x400 false false [(0, 0)]
def ERR_ESC_CFG2_ESC_MS : Fld := mkF 0xc00004 4 12 .amd 0x3e8 false false [(0, 0)]
def ERR_ESC_CFG2_THRESH : Fld := mkF 0xc00004 0 4 .amd 4 false false [(0, 0)]
-- ERR_CNT_CE, R689
def ERR_CNT_CE_COUNT : Fld := mkA 0xc00040 8 4 1 0 0 32 .ro 0 false false []
-- ERR_CNT_UE, R689
def ERR_CNT_UE_COUNT : Fld := mkA 0xc00060 8 4 1 0 0 32 .ro 0 false false []
-- ERR_CNT_RTEVICT, R689
def ERR_CNT_RTEVICT_COUNT : Fld := mkF 0xc00080 0 32 .ro 0 false false []
-- ERR_CNT_PWREF, R689
def ERR_CNT_PWREF_COUNT : Fld := mkF 0xc00084 0 32 .ro 0 false false []
-- ERR_CNT_CLR, R689
def ERR_CNT_CLR_PWREF : Fld := mkF 0xc00088 3 1 .wo 0 false false []
def ERR_CNT_CLR_RTEVICT : Fld := mkF 0xc00088 2 1 .wo 0 false false []
def ERR_CNT_CLR_UE : Fld := mkF 0xc00088 1 1 .wo 0 false false []
def ERR_CNT_CLR_CE : Fld := mkF 0xc00088 0 1 .wo 0 false false []
-- ERR_PAGE_CMD, R691
def ERR_PAGE_CMD_GO : Fld := mkF 0xc00100 31 1 .wo 0 false false []
def ERR_PAGE_CMD_BUSY : Fld := mkF 0xc00100 30 1 .ro 0 false false []
def ERR_PAGE_CMD_OP : Fld := mkF 0xc00100 28 2 .rw 0 false false [(2, 3)]
def ERR_PAGE_CMD_OFFICE : Fld := mkF 0xc00100 27 1 .rw 0 false false []
def ERR_PAGE_CMD_ARRAY : Fld := mkF 0xc00100 20 4 .rw 0 false false [(8, 15)]
def ERR_PAGE_CMD_PAGE : Fld := mkF 0xc00100 0 20 .rw 0 false false []
-- ERR_PAGE_RES, R691
def ERR_PAGE_RES_RESULT : Fld := mkF 0xc00104 28 4 .ro 0 false false []
def ERR_PAGE_RES_POISONED : Fld := mkF 0xc00104 14 14 .ro 0 false false []
def ERR_PAGE_RES_REPAIRED : Fld := mkF 0xc00104 0 14 .ro 0 false false []
-- ERR_SPARE, R691
def ERR_SPARE_SPARES_USED : Fld := mkF 0xc00108 16 7 .ro 0 false false []
def ERR_SPARE_STAGE_RET : Fld := mkF 0xc00108 0 5 .ro 0 false false []
-- ERR_CBT_CTL, R692
def ERR_CBT_CTL_EN : Fld := mkF 0xc00200 31 1 .rw 0 false false []
def ERR_CBT_CTL_GO : Fld := mkF 0xc00200 30 1 .wo 0 false false []
def ERR_CBT_CTL_OP : Fld := mkF 0xc00200 28 2 .rw 0 false false [(3, 3)]
def ERR_CBT_CTL_ARRAY : Fld := mkF 0xc00200 24 4 .rw 0 false false [(8, 15)]
-- ERR_CBT_ADDR, R692
def ERR_CBT_ADDR_WORD : Fld := mkF 0xc00204 0 32 .rw 0 false false []
-- ERR_CBT_DATA_LO, R692
def ERR_CBT_DATA_LO_DATA_L : Fld := mkF 0xc00208 0 32 .rw 0 false false []
-- ERR_CBT_DATA_HI, R692
def ERR_CBT_DATA_HI_DATA_H : Fld := mkF 0xc0020c 0 32 .rw 0 false false []
-- ERR_CBT_CHECK, R692
def ERR_CBT_CHECK_CLASS : Fld := mkF 0xc00210 8 2 .ro 0 false false []
def ERR_CBT_CHECK_CHECK : Fld := mkF 0xc00210 0 8 .rw 0 false false []
-- ERR_LOG_HEAD, R692
def ERR_LOG_HEAD_NSEQ : Fld := mkF 0xc00300 0 16 .ro 0 false false []
-- ERR_RT_ADDR, R690
def ERR_RT_ADDR_WORD : Fld := mkA 0xc01000 64 16 1 0 0 32 .ro 0 false false []
-- ERR_RT_STAT, R690
def ERR_RT_STAT_COUNT : Fld := mkA 0xc01004 64 16 1 0 24 8 .ro 0 false false []
def ERR_RT_STAT_ARRAY : Fld := mkA 0xc01004 64 16 1 0 20 4 .ro 0 false false []
def ERR_RT_STAT_VALID : Fld := mkA 0xc01004 64 16 1 0 19 1 .ro 0 false false []
def ERR_RT_STAT_NOTIFIED : Fld := mkA 0xc01004 64 16 1 0 18 1 .ro 0 false false []
-- ERR_RT_LAST_LO, R690
def ERR_RT_LAST_LO_TICK_L : Fld := mkA 0xc01008 64 16 1 0 0 32 .ro 0 false false []
-- ERR_RT_LAST_HI, R690
def ERR_RT_LAST_HI_TICK_H : Fld := mkA 0xc0100c 64 16 1 0 0 32 .ro 0 false false []
-- MSIX: spec file 11
-- MSIX_ADDR_LO, R434
def MSIX_ADDR_LO_A : Fld := mkA 0xe00000 2048 16 1 0 0 32 .rw 0 false false []
-- MSIX_ADDR_HI, R434
def MSIX_ADDR_HI_A : Fld := mkA 0xe00004 2048 16 1 0 0 32 .rw 0 false false []
-- MSIX_DATA, R434
def MSIX_DATA_D : Fld := mkA 0xe00008 2048 16 1 0 0 32 .rw 0 false false []
-- MSIX_VCTRL, R434
def MSIX_VCTRL_MASK : Fld := mkA 0xe0000c 2048 16 1 0 0 1 .rw 1 false false []
-- MSIX_PBA, R434
def MSIX_PBA_P : Fld := mkA 0xe10000 64 4 1 0 0 32 .ro 0 false false []

end F

/-- The fields of the GLB block. -/
def regsGlb : List Fld :=
  [F.GLB_ID_DEVICE, F.GLB_ID_STEP, F.GLB_ID_GRADE, F.GLB_WHO_OFFICE,
   F.GLB_WHO_MODID, F.GLB_MODE_MODE, F.GLB_MODE_PEND_MODE, F.GLB_MODE_PEND_SCHED,
   F.GLB_MODE_HELD_CAUSE, F.GLB_MODE_REFUSE, F.GLB_MODE_REQ_GO, F.GLB_MODE_REQ_MODE,
   F.GLB_MODE_TICK_LO_TICK_L, F.GLB_MODE_TICK_HI_TICK_H, F.GLB_CFG_BIAS_REQ, F.GLB_CFG_TILE_REQ,
   F.GLB_CFG_UNLOCK_MAX, F.GLB_CALSEQ_GO, F.GLB_CALSEQ_RUN, F.GLB_CALSEQ_SEQ,
   F.GLB_BOOT_MS]

/-- The fields of the TB block. -/
def regsTb : List Fld :=
  [F.TB_CTL_START, F.TB_STAT_STATE, F.TB_STAT_SYNCED, F.TB_STAT_STARTED,
   F.TB_STAT_HEAD, F.TB_STAT_REFLOCK, F.TB_STAT_REFLOSS, F.TB_STAT_PPS_OK,
   F.TB_STAT_TOD_OK, F.TB_STAT_UNSYNC, F.TB_STAT_RHOLD, F.TB_STAT_ERR,
   F.TB_COUNT_LO_TICK_L, F.TB_COUNT_HI_TICK_H, F.TB_PM_SEC_LO_SEC_L, F.TB_PM_SEC_HI_QUALITY,
   F.TB_PM_SEC_HI_SEC_H, F.TB_PM_NS_NS, F.TB_PM_FRAC_FRAC, F.TB_INC_INC,
   F.TB_START_SEC_LO_SEC_L, F.TB_START_SEC_HI_SEC_H, F.TB_UTC_LEAP_SUB, F.TB_UTC_LEAP_ADD,
   F.TB_UTC_UTC_OFF, F.TB_PPS_ERR_E_PS, F.TB_SERVO_KP_SHIFT, F.TB_SERVO_KI_SHIFT,
   F.TB_SERVO_SLEW, F.TB_REF_REF_EN, F.TB_REF_REF_N, F.TB_REF_REF_M,
   F.TB_PPS_WIN, F.TB_PHASE_STEPS, F.TB_CNT_PPSREJ_COUNT, F.TB_CNT_TODERR_COUNT,
   F.TB_CNT_EPOCHFIX_COUNT, F.TB_CNT_CLR_EPOCHFIX, F.TB_CNT_CLR_TODERR, F.TB_CNT_CLR_PPSREJ]

/-- The fields of the RING block. -/
def regsRing : List Fld :=
  [F.RING_CFG_HEAD, F.RING_CFG_HUB, F.RING_CFG_N_MAP, F.RING_CFG_HOP_TICKS,
   F.RING_CFG2_DISAGREE_LIM, F.RING_CFG2_LEAD_MARGIN, F.RING_STAT_E_STATE, F.RING_STAT_W_STATE,
   F.RING_STAT_WRAP, F.RING_STAT_TPORT, F.RING_STAT_H_W, F.RING_STAT_H_E,
   F.RING_PEER_PEER_E, F.RING_PEER_PEER_W, F.RING_PEER_SKIP_E, F.RING_PEER_SKIP_W,
   F.RING_PDELAY_E_DELAY, F.RING_PDELAY_W_DELAY, F.RING_OFS_OFS, F.RING_OFS_W_OFS,
   F.RING_OFS_E_OFS, F.RING_SM_TICK_LO_TICK_L, F.RING_SM_TICK_HI_TICK_H, F.RING_SM_CMD_GO,
   F.RING_SM_CMD_OP, F.RING_SM_ARG_ARG, F.RING_SM_STAT_RESULT, F.RING_SM_STAT_PENDING,
   F.RING_SM_STAT_SEQ, F.RING_BAR_CMD_GO, F.RING_BAR_STAT_DONE, F.RING_BAR_STAT_BUSY,
   F.RING_BAR_STAT_TIMEOUT, F.RING_BAR_STAT_COUNT, F.RING_BAR_RES_OR, F.RING_BAR_RES_AND,
   F.RING_CNT_CRC_COUNT, F.RING_CNT_LATESM_COUNT, F.RING_CNT_PDREJ_COUNT, F.RING_CTL_RETRAIN_E,
   F.RING_CTL_RETRAIN_W, F.RING_CTL_PDREJ, F.RING_CTL_LATESM, F.RING_CTL_CRC,
   F.RING_MAP0_W0, F.RING_MAP1_W1]

/-- The fields of the SORT block. -/
def regsSort : List Fld :=
  [F.SORT_CTL_ROUND_SHIFT, F.SORT_MG_ROUND_LO_ROUND_L, F.SORT_MG_ROUND_HI_ROUND_H, F.SORT_MG_LATEWIN_LATE_WIN,
   F.SORT_MG_DEADLINE_DEADLINE, F.SORT_CAL_EPOCH_EPOCH, F.SORT_MG_CNT_NOCLOSE_COUNT, F.SORT_MG_CNT_CORRUPT_COUNT,
   F.SORT_MG_CNT_MASKED_COUNT, F.SORT_CTX_CNT_PDROP_COUNT, F.SORT_RT_CNT_UNDELIV_COUNT, F.SORT_MG_CNT_CONT_COUNT,
   F.SORT_MG_CNT_CLR_RXDROP, F.SORT_MG_CNT_CLR_CONT, F.SORT_MG_CNT_CLR_UNDELIV, F.SORT_MG_CNT_CLR_PDROP,
   F.SORT_MG_CNT_CLR_MASKED, F.SORT_MG_CNT_CLR_CORRUPT, F.SORT_MG_CNT_CLR_NOCLOSE, F.SORT_MG_CNT_RXDROP_COUNT,
   F.SORT_HOT_WIN_LOG2, F.SORT_HOT_STRIKE_LIM, F.SORT_HOT_REL_WIN, F.SORT_HOT_HOT_LIM,
   F.SORT_NOISE_NOISE_TOT, F.SORT_HOT_STAT_AUTOMASKED, F.SORT_CTX_CLR_START, F.SORT_CTX_CLR_BUSY,
   F.SORT_CTX_CLR_FIRST, F.SORT_CTX_CLR_LAST_LAST, F.SORT_RT_CTL_SLICE_M1, F.SORT_RT_CTL_SLICE_SHIFT]

/-- The fields of the FE block. -/
def regsFe : List Fld :=
  [F.SORT_FE_THR_GTHR, F.SORT_FE_CTL_RST_TICKS, F.SORT_FE_CTL_SLOPE, F.SORT_FE_CTL_POL,
   F.SORT_FE_STAT_INJ_ACT, F.SORT_FE_STAT_CALIB_STATE, F.SORT_FE_STAT_GTHR_ACT, F.SORT_FE_CNT_PBUSY_COUNT,
   F.SORT_FE_CNT_QFULL_COUNT, F.SORT_FE_CNT_TOTSAT_COUNT, F.SORT_FE_CNT_INJSKIP_COUNT, F.SORT_FE_CNT_SEU_COUNT,
   F.SORT_FE_CNT_CLR_SEU, F.SORT_FE_CNT_CLR_INJSKIP, F.SORT_FE_CNT_CLR_TOTSAT, F.SORT_FE_CNT_CLR_QFULL,
   F.SORT_FE_CNT_CLR_PBUSY, F.SORT_FE_TEMP_T_ODD, F.SORT_FE_TEMP_T_EVEN]

/-- The fields of the TE block. -/
def regsTe : List Fld :=
  [F.SORT_TE_CNT_COLEAD_COUNT, F.SORT_TE_CNT_COTRAIL_COUNT, F.SORT_TE_CNT_ORPHAN_COUNT, F.SORT_TE_CNT_UNLOCK_COUNT,
   F.SORT_TE_STAT_IP_OFF, F.SORT_TE_STAT_UNLOCKED, F.SORT_TE_CNT_CLR_UNLOCK, F.SORT_TE_CNT_CLR_ORPHAN,
   F.SORT_TE_CNT_CLR_COTRAIL, F.SORT_TE_CNT_CLR_COLEAD, F.SORT_RES_CNT_RETRY_COUNT, F.SORT_RES_CNT_DROP_COUNT,
   F.SORT_RES_CNT_TBLPOIS_COUNT, F.SORT_RES_CTL_INJ, F.SORT_RES_CTL_INJ_STEP, F.SORT_RES_CNT_CLR_TBLPOIS,
   F.SORT_RES_CNT_CLR_DROP, F.SORT_RES_CNT_CLR_RETRY, F.SORT_CD_CTL_START, F.SORT_CD_CTL_LOG2N,
   F.SORT_CD_CTL_SRC, F.SORT_CD_CTL_FIRST, F.SORT_CD_STAT_BUSY, F.SORT_CD_STAT_DONE,
   F.SORT_CD_STAT_SHORT, F.SORT_CD_TIMEOUT_LIMIT]

/-- The fields of the LN block. -/
def regsLn : List Fld :=
  [F.SORT_LN_STAT_NUP, F.SORT_LN_STAT_DL, F.SORT_LN_STAT_SUM, F.SORT_LN_STAT_LETTER,
   F.SORT_LN_CNT_CRC_COUNT, F.SORT_LN_CNT_BADHDR_COUNT, F.SORT_LN_CNT_LOSTFRM_COUNT, F.SORT_LN_CNT_OVFDROP_COUNT,
   F.SORT_LN_CNT_LATE_COUNT, F.SORT_LN_CNT_LATEDROP_COUNT, F.SORT_LN_CNT_RETRAIN_COUNT, F.SORT_LN_CNT_DLNAK_COUNT,
   F.SORT_LN_CNT_CLR_PEAK, F.SORT_LN_CNT_CLR_DLNAK, F.SORT_LN_CNT_CLR_RETRAIN, F.SORT_LN_CNT_CLR_LATEDROP,
   F.SORT_LN_CNT_CLR_LATE, F.SORT_LN_CNT_CLR_OVFDROP, F.SORT_LN_CNT_CLR_LOSTFRM, F.SORT_LN_CNT_CLR_BADHDR,
   F.SORT_LN_CNT_CLR_CRC, F.SORT_LN_PEAK_ENTRIES, F.SORT_CLOSE_CLOSE_DLY, F.SORT_LN_CMD_RETRAIN,
   F.SORT_LN_CMD_TILE, F.SORT_LN_CMD_LANE]

/-- The fields of the CMP block. -/
def regsCmp : List Fld :=
  [F.CMP_CTL_ENG_MASK, F.CMP_CTL_KEY_LOG2, F.CMP_CTL_STATIC_IDX, F.CMP_CTL_EFFORT,
   F.CMP_STAT_ENG_ACT, F.CMP_STAT_FORCED, F.CMP_STAT_EFFORT_ACT, F.CMP_CNT_COMP_COUNT,
   F.CMP_CNT_KEY_COUNT, F.CMP_CNT_PLAIN_COUNT, F.CMP_CNT_VFAIL_COUNT, F.CMP_CNT_STPOIS_COUNT,
   F.CMP_CNT_CLR_OUT, F.CMP_CNT_CLR_IN, F.CMP_CNT_CLR_STPOIS, F.CMP_CNT_CLR_VFAIL,
   F.CMP_CNT_CLR_PLAIN, F.CMP_CNT_CLR_KEY, F.CMP_CNT_CLR_COMP, F.CMP_IN_LO_COUNT_L,
   F.CMP_IN_HI_COUNT_H, F.CMP_OUT_LO_COUNT_L, F.CMP_OUT_HI_COUNT_H]

/-- The fields of the STO block. -/
def regsSto : List Fld :=
  [F.STO_CFG_AUTO_UNPIN, F.STO_CFG_LOSS_LOG2, F.STO_CFG_STALL_US, F.STO_CFG_GUARD,
   F.STO_CFG_SACK_LOG2, F.STO_CTL_ENABLE, F.STO_CTL_MIRROR, F.STO_CTL_REATTACH,
   F.STO_STAT_STATE, F.STO_STAT_STALLED, F.STO_STAT_LIVE_HELD, F.STO_STAT_DROPPING,
   F.STO_STAT_ALLPINNED, F.STO_STAT_COPY1_OK, F.STO_STAT_COPY0_OK, F.STO_STAT_RGN_FAIL,
   F.STO_STAT_IDX_FAIL, F.STO_STAT_REFUSE, F.STO_WP_LO_OFFSET, F.STO_WP_HI_SACK,
   F.STO_OLDEST_LO_ROUND_L, F.STO_OLDEST_HI_ROUND_H, F.STO_NEWEST_LO_ROUND_L, F.STO_NEWEST_HI_ROUND_H,
   F.STO_SACKS_TOTAL_COUNT, F.STO_SACKS_PINNED_COUNT, F.STO_SACKS_FAULT_COUNT, F.STO_STAGE_PEAK,
   F.STO_STAGE_FILL, F.STO_CNT_DROPRND_COUNT, F.STO_CNT_DROPDIST_COUNT, F.STO_CNT_SPILL_COUNT,
   F.STO_CNT_WERR_COUNT, F.STO_CNT_RPOIS_COUNT, F.STO_CNT_IDXERR_COUNT, F.STO_CNT_AUTOUNPIN_COUNT,
   F.STO_CNT_STALL_COUNT, F.STO_CNT_CLR_PEAK, F.STO_CNT_CLR_STALL, F.STO_CNT_CLR_AUTOUNPIN,
   F.STO_CNT_CLR_IDXERR, F.STO_CNT_CLR_RPOIS, F.STO_CNT_CLR_WERR, F.STO_CNT_CLR_SPILL,
   F.STO_CNT_CLR_DROPDIST, F.STO_CNT_CLR_DROPRND, F.STO_PIN_CMD_GO, F.STO_PIN_CMD_BUSY,
   F.STO_PIN_CMD_OP, F.STO_PIN_FIRST_LO_ROUND_L, F.STO_PIN_FIRST_HI_ROUND_H, F.STO_PIN_LAST_LO_ROUND_L,
   F.STO_PIN_LAST_HI_ROUND_H, F.STO_PIN_RESULT_STATUS, F.STO_PIN_RESULT_SACKS, F.STO_IDX_REPAIR_GO,
   F.STO_IDX_REPAIR_SACK, F.STO_RGN_BASE_LO_BASE_L, F.STO_RGN_BASE_HI_BASE_H, F.STO_RGN_SIZE_SIZE] ++
  [F.STO_RGN_CTL_EN, F.STO_RGN_CTL_COPY, F.STO_RGN_CTL_PATH, F.STO_RGN_CTL_FAILED,
   F.STO_IDX_BASE_LO_BASE_L, F.STO_IDX_BASE_HI_BASE_H, F.STO_IDX_SIZE_SIZE, F.STO_IDX_CTL0_COPY,
   F.STO_IDX_CTL1_COPY, F.STO_IDX_CTL_EN, F.STO_IDX_CTL_PATH, F.STO_IDX_CTL_FAILED]

/-- The fields of the TRG block. -/
def regsTrg : List Fld :=
  [F.TRG_CTL_ARM, F.TRG_CTL_STROBE, F.TRG_CTL_PROG, F.TRG_CTL_PROFILE,
   F.TRG_CTL_RED_EN, F.TRG_STAT_STATE, F.TRG_STAT_CAPTURE, F.TRG_STAT_HOLDOFF,
   F.TRG_STAT_PROG_ACT, F.TRG_STAT_PROFILE_ACT, F.TRG_STAT_DEC, F.TRG_STAT_CAUSE_LAST,
   F.TRG_SUM_TRIM_GAIN1, F.TRG_SUM_TRIM_OFS1, F.TRG_SUM_TRIM_OFS0, F.TRG_SUM_TRIM_SKEW,
   F.TRG_LAST_FIRE_LO_TICK_L, F.TRG_LAST_FIRE_HI_TICK_H, F.TRG_CNT_FIRE_COUNT, F.TRG_CNT_HOLD_COUNT,
   F.TRG_CNT_BUSY_COUNT, F.TRG_CNT_EXT_COUNT, F.TRG_CNT_TRUNC_COUNT, F.TRG_CNT_PLOST_COUNT,
   F.TRG_CNT_LIVEGAP_COUNT, F.TRG_CNT_CLR_REDDROP, F.TRG_CNT_CLR_LIVEGAP, F.TRG_CNT_CLR_PLOST,
   F.TRG_CNT_CLR_TRUNC, F.TRG_CNT_CLR_EXT, F.TRG_CNT_CLR_BUSY, F.TRG_CNT_CLR_HOLD,
   F.TRG_CNT_CLR_FIRE, F.TRG_CNT_REDDROP_COUNT, F.TRG_RED_CFG_LEVEL, F.TRG_RED_CFG_PH,
   F.TRG_RED_CFG_B, F.COL_ORDER_W, F.COL_SUBMIT_GO, F.COL_STAT_RESULT,
   F.COL_STAT_QUEUED, F.COL_STAT_TAG, F.COL_CTL_RATE_CAP, F.COL_CTL_AHEAD_LOG2,
   F.COL_CNT_DONE_COUNT, F.COL_CNT_CLIPPED_COUNT, F.COL_CNT_PARTIAL_COUNT, F.COL_CNT_MERGED_COUNT,
   F.COL_CNT_REFUSED_COUNT, F.COL_CNT_CLR_BYTES, F.COL_CNT_CLR_REFUSED, F.COL_CNT_CLR_MERGED,
   F.COL_CNT_CLR_PARTIAL, F.COL_CNT_CLR_CLIPPED, F.COL_CNT_CLR_DONE, F.COL_BYTES_LO_COUNT_L,
   F.COL_BYTES_HI_COUNT_H]

/-- The fields of the PH block. -/
def regsPh : List Fld :=
  [F.PH_DR_BASE_LO_BASE_L, F.PH_DR_BASE_HI_BASE_H, F.PH_RR_BASE_LO_BASE_L, F.PH_RR_BASE_HI_BASE_H,
   F.PH_CFG_EN, F.PH_CFG_CLOSE, F.PH_CFG_ONEBAG, F.PH_CFG_MB_SIZE,
   F.PH_CFG_DR_LOG2, F.PH_CFG_RR_LOG2, F.PH_CFG_VECTOR, F.PH_IRQ_COAL_US,
   F.PH_IRQ_COAL_N, F.PH_TMO_IDLE_US, F.PH_STAT_STATE, F.PH_STAT_HELD,
   F.PH_STAT_CAUSE, F.PH_DCONS_INDEX, F.PH_RPROD_INDEX, F.PH_CNT_MAILBAG_COUNT,
   F.PH_CNT_UNDELIV_COUNT, F.PH_CNT_RETURNED_COUNT, F.PH_CNT_CLR_RETURNED, F.PH_CNT_CLR_UNDELIV,
   F.PH_CNT_CLR_MAILBAG, F.PH_PORT_CTL_UIO_EN, F.PH_PORT_STAT_L0, F.PH_PORT_STAT_FLIT,
   F.PH_PORT_STAT_UIO_CAP, F.PH_PORT_STAT_UIO_ACT, F.PH_PORT_STAT_BME, F.PH_PORT_STAT_RATE,
   F.PH_PORT_STAT_WIDTH, F.PH_NOTICE_STAT_HELD, F.PH_CNT_NOTICELOST_COUNT, F.PH_CNT_DLODROP_COUNT,
   F.PH_CNT_LINKDOWN_COUNT, F.PH_CNT_MMIOERR_COUNT, F.PH_GCNT_CLR_MMIOERR, F.PH_GCNT_CLR_LINKDOWN,
   F.PH_GCNT_CLR_DLODROP, F.PH_GCNT_CLR_NOTICELOST, F.PH_PTM_CTL_EN, F.PH_PTM_CTL_INTERVAL_LOG2,
   F.PH_PTM_TICK_LO_TICK_L, F.PH_PTM_TICK_HI_TICK_H, F.PH_PTM_HOST_LO_NS_L, F.PH_PTM_HOST_HI_NS_H,
   F.PH_PTM_STAT_VALID, F.PH_PTM_STAT_COUNT, F.PH_PTM_PM_SEC_LO_SEC_L, F.PH_PTM_PM_SEC_HI_QUALITY,
   F.PH_PTM_PM_SEC_HI_SEC_H, F.PH_PTM_PM_NS_NS, F.PH_PTM_PM_FRAC_FRAC, F.DB_DPROD_DPROD,
   F.DB_RCONS_RCONS, F.DB_CMD_FLUSH, F.DB_CMD_RESUME]

/-- The fields of the SEC block. -/
def regsSec : List Fld :=
  [F.SEC_STAT_FUSED_SVN, F.SEC_STAT_IMAGE_SVN, F.SEC_STAT_RUN_SLOT, F.SEC_STAT_TRIAL,
   F.SEC_STAT_BOOK_DEGRADED, F.SEC_STAT_NVM_WIN, F.SEC_STAT_FUSE_WIN, F.SEC_STAT_KEY_REVOKED,
   F.SEC_STAT_KEY_PROG, F.SEC_STAT_SIGNER, F.SEC_BOOT_CAUSE1, F.SEC_BOOT_CAUSE0,
   F.SEC_BUILD_LO_BUILD_L, F.SEC_BUILD_HI_BUILD_H, F.SEC_SERIAL_LO_SERIAL_L, F.SEC_SERIAL_HI_SERIAL_H,
   F.SEC_BOOK_SEQ_SEQ, F.SEC_BOOK_USE_ENTRIES, F.SEC_BOOK_USE_HEAP, F.SEC_BOOK_VOL_VOLUME,
   F.SEC_JOB_STATE, F.SEC_JOB_OP, F.SEC_JOB_CAUSE, F.SEC_JOB_PROGRESS,
   F.SEC_MEAS_IMAGE_W, F.SEC_MEAS_PERSONAL_W, F.SEC_CNT_AMD_COUNT, F.SEC_CNT_REFUSED_COUNT,
   F.SEC_CNT_LBERR_COUNT, F.SEC_CNT_CLR_LBERR, F.SEC_CNT_CLR_REFUSED, F.SEC_CNT_CLR_AMD]

/-- The fields of the TWN block. -/
def regsTwn : List Fld :=
  [F.TWN_CFG_AUTO_FAILBACK, F.TWN_CFG_SENIOR, F.TWN_CFG_FAILBACK_S, F.TWN_CFG_START_GRACE,
   F.TWN_CFG_HANDOVER_TMO, F.TWN_CTL_HANDOVER, F.TWN_CTL_CLEAR_HEALTH, F.TWN_CTL_RESYNC,
   F.TWN_STAT_ROLE, F.TWN_STAT_HEALTHY, F.TWN_STAT_ELIGIBLE, F.TWN_STAT_STALE,
   F.TWN_STAT_CURRENT, F.TWN_STAT_HANDOVER, F.TWN_STAT_LINK_UP, F.TWN_STAT_VOTES_SELF,
   F.TWN_STAT_VOTES_PEER, F.TWN_STAT_HEARD, F.TWN_STAT_REACH, F.TWN_STAT_PEER_AGE,
   F.TWN_HEALTH_PORT, F.TWN_HEALTH_REACH, F.TWN_HEALTH_BOOK, F.TWN_HEALTH_IMAGE,
   F.TWN_HEALTH_LINK, F.TWN_HEALTH_ARRAY, F.TWN_HEALTH_SELFTEST, F.TWN_HEALTH_ARITH,
   F.TWN_HEALTH_TICK, F.TWN_TILES_TILE3, F.TWN_TILES_TILE2, F.TWN_TILES_TILE1,
   F.TWN_TILES_TILE0, F.TWN_TERM_PEER_TERM, F.TWN_TERM_TERM, F.TWN_MIRROR_BOOK_LAG,
   F.TWN_MIRROR_UNACKED, F.TWN_TIMER_ELIG_S, F.TWN_FIRST_ROUND_LO_ROUND_L, F.TWN_FIRST_ROUND_HI_ROUND_H,
   F.TWN_SELFTEST_RUNNING, F.TWN_SELFTEST_LAST_FAIL, F.TWN_SELFTEST_CYCLES, F.TWN_CNT_GAIN_COUNT,
   F.TWN_CNT_HANDOVER_COUNT, F.TWN_CNT_ROUNDSLOST_COUNT, F.TWN_CNT_LINKLOSS_COUNT, F.TWN_CNT_STFAIL_COUNT,
   F.TWN_CNT_CLR_STFAIL, F.TWN_CNT_CLR_LINKLOSS, F.TWN_CNT_CLR_ROUNDSLOST, F.TWN_CNT_CLR_HANDOVER,
   F.TWN_CNT_CLR_GAIN]

/-- The fields of the LOOP block. -/
def regsLoop : List Fld :=
  [F.LOOP_CMD_GO, F.LOOP_CMD_ACK, F.LOOP_CMD_REQ, F.LOOP_STAT_STATE,
   F.LOOP_STAT_STOPPING, F.LOOP_STAT_LOCK, F.LOOP_STAT_REGFLT, F.LOOP_STAT_CAUSE,
   F.LOOP_STAT_REFUSE, F.LOOP_SETPOINT_MV, F.LOOP_MAN_V_MV, F.LOOP_R_MV,
   F.LOOP_Y_MV, F.LOOP_OUT_MON_CODE, F.LOOP_OUT_DAC_CODE, F.LOOP_LIMIT_V_MAX,
   F.LOOP_RAMP_RAMP_TRIP, F.LOOP_RAMP_RAMP, F.LOOP_SCALE_MON_GAIN, F.LOOP_SCALE_REG_GAIN,
   F.LOOP_OUTLIM_OUT_MAX, F.LOOP_OUTLIM_OUT_MIN, F.LOOP_CHECK_STALE_N, F.LOOP_CHECK_V_OFF,
   F.LOOP_CHECK_FROZEN_N, F.LOOP_KP_KP, F.LOOP_KI_KI, F.LOOP_NSEC_NSEC,
   F.LOOP_BQ_B0_B0, F.LOOP_BQ_B1_B1, F.LOOP_BQ_B2_B2, F.LOOP_BQ_A1_A1,
   F.LOOP_BQ_A2_A2, F.LOOP_REP_CFG_REP_EN, F.LOOP_REP_CFG_SRC, F.LOOP_REP_CFG_LEAD,
   F.LOOP_REP_CFG_F_TOL, F.LOOP_REP_KR_KR, F.LOOP_REP_QF_QF, F.LOOP_REP_LIM_REP_LIM,
   F.LOOP_REP_FMIN_FMIN, F.LOOP_REP_FMAX_FMAX, F.LOOP_REP_DPHI_DPHI, F.LOOP_REP_STAT_ACTIVE,
   F.LOOP_REP_STAT_CAUSE, F.LOOP_CNT_HOLD_COUNT, F.LOOP_CNT_SAT_COUNT, F.LOOP_CNT_PLFAIL_COUNT,
   F.LOOP_CNT_CLR_PLFAIL, F.LOOP_CNT_CLR_SAT, F.LOOP_CNT_CLR_HOLD, F.LOOP_REP_TAB_V,
   F.BIAS_ECFG_GATE, F.BIAS_ECFG_FIX, F.BIAS_ECFG_RANGE, F.BIAS_ESTAT_OVR,
   F.BIAS_ESTAT_RANGING, F.BIAS_ESTAT_RANGE_ACT, F.BIAS_I_IMEAS, F.BIAS_IEXP_IEXP] ++
  [F.BIAS_TEMP_VALID, F.BIAS_TEMP_T, F.BIAS_PL_CFG_HI_RATIO, F.BIAS_PL_CFG_LO_RATIO,
   F.BIAS_PL_CFG_PL_N, F.BIAS_PL_CFG_PL_ACT, F.BIAS_PL_ENV_C_SENS, F.BIAS_PL_ENV_ENV_MASK,
   F.BIAS_IREF_IREF, F.BIAS_ITRIP_ITRIP, F.BIAS_IFLOOR_IFLOOR, F.BIAS_PL_STAT_RESULT,
   F.BIAS_PL_STAT_RUN, F.BIAS_FTAB_F, F.BIAS_GTAB_G, F.BIAS_GCFG_MODE,
   F.BIAS_GCFG_LOOP, F.BIAS_GCFG_G_SET, F.BIAS_GK_GK, F.BIAS_GSTAT_OVC,
   F.BIAS_GSTAT_G_OUT]

/-- The fields of the ENV block. -/
def regsEnv : List Fld :=
  [F.ENV_CTL_SWAP, F.ENV_CFG_PAIR_N, F.ENV_CFG_F_LOG2, F.ENV_CFG_N_SETTLE,
   F.ENV_PAIR_TOL_TOL, F.ENV_HK_STAT_REF_OK, F.ENV_HK_STAT_GND_OK, F.ENV_HK_STAT_SCAN,
   F.ENV_CNT_RESTART_COUNT, F.ENV_CNT_ABANDON_COUNT, F.ENV_CNT_DISAGREE_COUNT, F.ENV_CNT_CLR_DISAGREE,
   F.ENV_CNT_CLR_ABANDON, F.ENV_CNT_CLR_RESTART, F.ENV_PT_CFG_EN, F.ENV_PT_CFG_IEXC,
   F.ENV_PT_CFG_GAIN, F.ENV_PT_CFG_TABLE, F.ENV_PT_CFG_PAIR_EN, F.ENV_PT_CFG_PAIR,
   F.ENV_PT_CFG_R0, F.ENV_PT_RES_R, F.ENV_PT_TEMP_VALID, F.ENV_PT_TEMP_FLAGS,
   F.ENV_PT_TEMP_T, F.ENV_PT_OFS_SCAN, F.ENV_PT_OFS_OFS, F.ENV_HK_VALID,
   F.ENV_HK_VALUE, F.ENV_TAB_RATIO_RATIO, F.ENV_TAB_TEMP_T, F.SL_CFG_FAIL_DIR,
   F.SL_CFG_FHOLD, F.SL_CFG_SRC, F.SL_LO_LO, F.SL_HI_HI,
   F.SL_MASK_MASK, F.SL_FORCE_EN, F.SL_FORCE_UA, F.SL_STAT_LEVEL,
   F.SL_STAT_SL_ERR, F.SL_STAT_COMPLIANCE, F.SL_STAT_CAUSES, F.SL_STAT_UA_SET]

/-- The fields of the AUX block. -/
def regsAux : List Fld :=
  [F.AUX_CFG_EN, F.AUX_CFG_SLOPE, F.AUX_CFG_TERM, F.AUX_CFG_HYS,
   F.AUX_CFG_THR, F.AUX_DEAD_DEAD, F.AUX_DLY_DLY, F.AUX_LAST_LO_T_L,
   F.AUX_LAST_HI_T_H, F.AUX_F_CFG_FGATE, F.AUX_F_CFG_FUPD, F.AUX_F_CFG_F_JIT,
   F.AUX_FREQ_LO_F_L, F.AUX_FREQ_HI_F_H, F.AUX_F_STAT_VALID, F.AUX_F_STAT_CAUSE,
   F.AUX_F_STAT_EDGES, F.AUX_CNT_EDGE_COUNT, F.AUX_CNT_DEAD_COUNT, F.AUX_CNT_CLR_DEAD,
   F.AUX_CNT_CLR_EDGE, F.AUX_IVL_CFG_EN, F.AUX_IVL_CFG_START_IN, F.AUX_IVL_CFG_START_SLOPE,
   F.AUX_IVL_CFG_STOP_IN, F.AUX_IVL_CFG_STOP_SLOPE, F.AUX_IVL_MAX_MAX, F.AUX_IVL_LO_D_L,
   F.AUX_IVL_HI_VALID, F.AUX_IVL_HI_SUB_BIN, F.AUX_IVL_HI_D_H, F.AUX_IVL_STAT_FILL,
   F.AUX_CNT_ORDER_COUNT, F.AUX_CNT_NOSTART_COUNT, F.AUX_CNT_REPLACED_COUNT, F.AUX_CNT_TIMEOUT_COUNT,
   F.AUX_CNT_OVF_COUNT, F.AUX_IVL_CLR_CNT]

/-- The fields of the EMT block. -/
def regsEmt : List Fld :=
  [F.EMT_CFG_T_SHUT, F.EMT_CFG_T_PT_EN, F.EMT_CFG_T_PT, F.EMT_CFG_PRE_TICKS,
   F.EMT_CFG_SYNC_EN, F.EMT_CFG_SYNC_SEQ, F.EMT_VER_VER_AGE, F.EMT_CTL_GO,
   F.EMT_CTL_SWAP, F.EMT_CTL_ROW_CLR, F.EMT_CTL_SEQ, F.EMT_STAT_RUN,
   F.EMT_STAT_SHUT, F.EMT_STAT_SEQ_ACT, F.EMT_STAT_F, F.EMT_STAT_ROW_OVC,
   F.EMT_TD_TD, F.EMT_LAST_F0_LO_TICK_L, F.EMT_LAST_F0_HI_TICK_H, F.EMT_CNT_BUSY_COUNT,
   F.EMT_CNT_MISS_COUNT, F.EMT_CNT_SUPPR_COUNT, F.EMT_CNT_CLR_SUPPR, F.EMT_CNT_CLR_MISS,
   F.EMT_CNT_CLR_BUSY, F.EMT_FRONT_ICODE, F.EMT_FRONT_COLS, F.EMT_FRONT1_WIDTH,
   F.EMT_BACK_ICODE, F.EMT_BACK_COLS, F.EMT_BACK1_WIDTH, F.EMT_STATE_E,
   F.EMT_PAT_ICODE, F.EMT_PAT_COLS, F.EMT_PAT1_WIDTH, F.EMT_SEQ_PATTERN_PATTERN,
   F.EMT_SEQ_REPEAT_REPEAT, F.EMT_SEQ_PERIOD_PERIOD]

/-- The fields of the CAL block. -/
def regsCal : List Fld :=
  [F.EMT_CAL_CTL_START, F.EMT_CAL_CTL_STOP, F.EMT_CAL_CTL_APPLY, F.EMT_CAL_CTL_DISCARD,
   F.EMT_CAL_CTL_MODE, F.EMT_CAL_CFG_AUTO_APPLY, F.EMT_CAL_CFG_PERSIST, F.EMT_CAL_CFG_XGAIN,
   F.EMT_CAL_CFG_MIN_CELLS, F.EMT_CAL_CFG_MATCH_WIN, F.EMT_CAL_LIM_MAX_STEP, F.EMT_CAL_LIM_MIN_N,
   F.EMT_CAL_XMIN_MIN_XN, F.EMT_CAL_CAMP_CAMP_FLASHES, F.EMT_CAL_STAT_STATE, F.EMT_CAL_STAT_CAUSE,
   F.EMT_CAL_STAT_FLASHES, F.EMT_CAL_XN_XN, F.EMT_CAL_XSUM_XSUM, F.EMT_CAL_RES_ACCEPT,
   F.EMT_CAL_RES2_REJECT, F.EMT_CAL_DM_DM]

/-- The fields of the PWR block. -/
def regsPwr : List Fld :=
  [F.PWR_STAT_VIN_LOW, F.PWR_STAT_PCAP, F.PWR_STAT_CLK_SYNC, F.PWR_STAT_EMT_OFF,
   F.PWR_STAT_OFFA, F.PWR_STAT_OFFB, F.PWR_STAT_RAIL_FLT, F.PWR_STAT_VIN_MV,
   F.PWR_PIN_I_IN, F.PWR_PIN_P_IN, F.PWR_RAIL_MA, F.PWR_RAIL_MV,
   F.PWR_CFG_P_CAP, F.PWR_CFG_VIN_LOW, F.PWR_CTL_OFFICE_ON_A, F.PWR_CTL_OFFICE_ON_B,
   F.PWR_CNT_RAILFLT_COUNT, F.PWR_CNT_VINLOW_COUNT, F.PWR_CNT_CLR_VINLOW, F.PWR_CNT_CLR_RAILFLT,
   F.THM_TRIP_TRIPPED, F.THM_TRIP_DIODE]

/-- The fields of the THM block. -/
def regsThm : List Fld :=
  [F.THM_CFG_T_THR, F.THM_CFG_HYS, F.THM_CFG_T_STOP, F.THM_CFG_DWELL,
   F.THM_CFG2_COOL_EN, F.THM_CFG2_COOL_PT, F.THM_CFG2_SENS_TOL, F.THM_CFG2_T_COOL,
   F.THM_ELETTER_E_LETTER, F.THM_STAT_LEVEL, F.THM_STAT_HOLD, F.THM_STAT_VALID,
   F.THM_STAT_STOPPED, F.THM_STAT_NODE, F.THM_STAT_T_MAX, F.THM_CTL_ACK,
   F.THM_CTL_READMIT, F.THM_CTL_SENSOR, F.THM_EXCL_LO_MASK, F.THM_EXCL_HI_MASK,
   F.THM_HOT_D, F.THM_CNT_STEPUP_COUNT, F.THM_CNT_SENSFAIL_COUNT, F.THM_CNT_STOP_COUNT,
   F.THM_CNT_CLR_STOP, F.THM_CNT_CLR_SENSFAIL, F.THM_CNT_CLR_STEPUP, F.THM_NODE_VALID,
   F.THM_NODE_EST, F.THM_NODE_T, F.THM_SENS_ADMIT, F.THM_SENS_CAUSE,
   F.THM_SENS_T]

/-- The fields of the ERR block. -/
def regsErr : List Fld :=
  [F.ERR_ESC_CFG_UE_MAX, F.ERR_ESC_CFG_VF_MAX, F.ERR_ESC_CFG_RES_DROP_MAX, F.ERR_ESC_CFG2_RES_RETRY_MAX,
   F.ERR_ESC_CFG2_ESC_MS, F.ERR_ESC_CFG2_THRESH, F.ERR_CNT_CE_COUNT, F.ERR_CNT_UE_COUNT,
   F.ERR_CNT_RTEVICT_COUNT, F.ERR_CNT_PWREF_COUNT, F.ERR_CNT_CLR_PWREF, F.ERR_CNT_CLR_RTEVICT,
   F.ERR_CNT_CLR_UE, F.ERR_CNT_CLR_CE, F.ERR_PAGE_CMD_GO, F.ERR_PAGE_CMD_BUSY,
   F.ERR_PAGE_CMD_OP, F.ERR_PAGE_CMD_OFFICE, F.ERR_PAGE_CMD_ARRAY, F.ERR_PAGE_CMD_PAGE,
   F.ERR_PAGE_RES_RESULT, F.ERR_PAGE_RES_POISONED, F.ERR_PAGE_RES_REPAIRED, F.ERR_SPARE_SPARES_USED,
   F.ERR_SPARE_STAGE_RET, F.ERR_CBT_CTL_EN, F.ERR_CBT_CTL_GO, F.ERR_CBT_CTL_OP,
   F.ERR_CBT_CTL_ARRAY, F.ERR_CBT_ADDR_WORD, F.ERR_CBT_DATA_LO_DATA_L, F.ERR_CBT_DATA_HI_DATA_H,
   F.ERR_CBT_CHECK_CLASS, F.ERR_CBT_CHECK_CHECK, F.ERR_LOG_HEAD_NSEQ, F.ERR_RT_ADDR_WORD,
   F.ERR_RT_STAT_COUNT, F.ERR_RT_STAT_ARRAY, F.ERR_RT_STAT_VALID, F.ERR_RT_STAT_NOTIFIED,
   F.ERR_RT_LAST_LO_TICK_L, F.ERR_RT_LAST_HI_TICK_H]

/-- The fields of the MSIX block. -/
def regsMsix : List Fld :=
  [F.MSIX_ADDR_LO_A, F.MSIX_ADDR_HI_A, F.MSIX_DATA_D, F.MSIX_VCTRL_MASK,
   F.MSIX_PBA_P]

/-- The fields of the block that holds `addr` (R438). -/
def regsAt (addr : Nat) : List Fld :=
  if addr < 0x0100000 then regsGlb
  else if addr < 0x0200000 then regsTb
  else if addr < 0x0300000 then regsRing
  else if addr < 0x0400000 then regsSort ++ regsFe ++ regsTe ++ regsLn
  else if addr < 0x0500000 then regsCmp
  else if addr < 0x0600000 then regsSto
  else if addr < 0x0700000 then regsTrg
  else if addr < 0x0800000 then regsPh
  else if addr < 0x0900000 then regsSec
  else if addr < 0x0A00000 then regsTwn
  else if addr < 0x0A04000 then regsLoop
  else if addr < 0x0A05000 then regsEnv
  else if addr < 0x0A06000 then regsAux
  else if addr < 0x0A08000 then regsEmt
  else if addr < 0x0B00000 then regsCal
  else if addr < 0x0C00000 then regsPwr ++ regsThm
  else if addr < 0x0E00000 then regsErr
  else if addr < 0x4000000 then regsMsix
  else regsPh

/-- The fields of the register at `addr`, each with its element of the field's array. -/
def fieldsAt (addr : Nat) : List (Fld × Nat × Nat) :=
  (regsAt addr).filterMap fun f => (f.locate addr).map fun ij => (f, ij.1, ij.2)

/-- The counters with the layout of R74. -/
def counterFields : List Fld :=
  [F.TB_CNT_PPSREJ_COUNT, F.TB_CNT_TODERR_COUNT, F.TB_CNT_EPOCHFIX_COUNT, F.RING_CNT_CRC_COUNT,
   F.RING_CNT_LATESM_COUNT, F.RING_CNT_PDREJ_COUNT, F.SORT_MG_CNT_NOCLOSE_COUNT, F.SORT_MG_CNT_CORRUPT_COUNT,
   F.SORT_MG_CNT_MASKED_COUNT, F.SORT_CTX_CNT_PDROP_COUNT, F.SORT_RT_CNT_UNDELIV_COUNT, F.SORT_MG_CNT_CONT_COUNT,
   F.SORT_MG_CNT_RXDROP_COUNT, F.SORT_FE_CNT_PBUSY_COUNT, F.SORT_FE_CNT_QFULL_COUNT, F.SORT_FE_CNT_TOTSAT_COUNT,
   F.SORT_FE_CNT_INJSKIP_COUNT, F.SORT_FE_CNT_SEU_COUNT, F.SORT_TE_CNT_COLEAD_COUNT, F.SORT_TE_CNT_COTRAIL_COUNT,
   F.SORT_TE_CNT_ORPHAN_COUNT, F.SORT_TE_CNT_UNLOCK_COUNT, F.SORT_RES_CNT_RETRY_COUNT, F.SORT_RES_CNT_DROP_COUNT,
   F.SORT_RES_CNT_TBLPOIS_COUNT, F.SORT_LN_CNT_CRC_COUNT, F.SORT_LN_CNT_BADHDR_COUNT, F.SORT_LN_CNT_LOSTFRM_COUNT,
   F.SORT_LN_CNT_OVFDROP_COUNT, F.SORT_LN_CNT_LATE_COUNT, F.SORT_LN_CNT_LATEDROP_COUNT, F.SORT_LN_CNT_RETRAIN_COUNT,
   F.SORT_LN_CNT_DLNAK_COUNT, F.CMP_CNT_COMP_COUNT, F.CMP_CNT_KEY_COUNT, F.CMP_CNT_PLAIN_COUNT,
   F.CMP_CNT_VFAIL_COUNT, F.CMP_CNT_STPOIS_COUNT, F.STO_CNT_DROPRND_COUNT, F.STO_CNT_DROPDIST_COUNT] ++
  [F.STO_CNT_SPILL_COUNT, F.STO_CNT_WERR_COUNT, F.STO_CNT_RPOIS_COUNT, F.STO_CNT_IDXERR_COUNT,
   F.STO_CNT_AUTOUNPIN_COUNT, F.STO_CNT_STALL_COUNT, F.TRG_CNT_FIRE_COUNT, F.TRG_CNT_HOLD_COUNT,
   F.TRG_CNT_BUSY_COUNT, F.TRG_CNT_EXT_COUNT, F.TRG_CNT_TRUNC_COUNT, F.TRG_CNT_PLOST_COUNT,
   F.TRG_CNT_LIVEGAP_COUNT, F.TRG_CNT_REDDROP_COUNT, F.COL_CNT_DONE_COUNT, F.COL_CNT_CLIPPED_COUNT,
   F.COL_CNT_PARTIAL_COUNT, F.COL_CNT_MERGED_COUNT, F.COL_CNT_REFUSED_COUNT, F.PH_CNT_MAILBAG_COUNT,
   F.PH_CNT_UNDELIV_COUNT, F.PH_CNT_RETURNED_COUNT, F.PH_CNT_NOTICELOST_COUNT, F.PH_CNT_DLODROP_COUNT,
   F.PH_CNT_LINKDOWN_COUNT, F.PH_CNT_MMIOERR_COUNT, F.SEC_CNT_AMD_COUNT, F.SEC_CNT_REFUSED_COUNT,
   F.SEC_CNT_LBERR_COUNT, F.TWN_CNT_GAIN_COUNT, F.TWN_CNT_HANDOVER_COUNT, F.TWN_CNT_ROUNDSLOST_COUNT,
   F.TWN_CNT_LINKLOSS_COUNT, F.TWN_CNT_STFAIL_COUNT, F.LOOP_CNT_HOLD_COUNT, F.LOOP_CNT_SAT_COUNT,
   F.LOOP_CNT_PLFAIL_COUNT, F.ENV_CNT_RESTART_COUNT, F.ENV_CNT_ABANDON_COUNT, F.ENV_CNT_DISAGREE_COUNT] ++
  [F.AUX_CNT_EDGE_COUNT, F.AUX_CNT_DEAD_COUNT, F.AUX_CNT_ORDER_COUNT, F.AUX_CNT_NOSTART_COUNT,
   F.AUX_CNT_REPLACED_COUNT, F.AUX_CNT_TIMEOUT_COUNT, F.AUX_CNT_OVF_COUNT, F.EMT_CNT_BUSY_COUNT,
   F.EMT_CNT_MISS_COUNT, F.EMT_CNT_SUPPR_COUNT, F.PWR_CNT_RAILFLT_COUNT, F.PWR_CNT_VINLOW_COUNT,
   F.THM_CNT_STEPUP_COUNT, F.THM_CNT_SENSFAIL_COUNT, F.THM_CNT_STOP_COUNT, F.ERR_CNT_CE_COUNT,
   F.ERR_CNT_UE_COUNT, F.ERR_CNT_RTEVICT_COUNT, F.ERR_CNT_PWREF_COUNT]

/-- The 64-bit counter pairs (R263, R370). -/
def counterPairs : List Fld :=
  [F.CMP_IN_LO_COUNT_L, F.CMP_IN_HI_COUNT_H, F.CMP_OUT_LO_COUNT_L, F.CMP_OUT_HI_COUNT_H,
   F.COL_BYTES_LO_COUNT_L, F.COL_BYTES_HI_COUNT_H]

end Sys2Proof.Machine
end

