-- ==== Sys2Proof/Syntax.lean ====
section
/-! DEFINITION. The commands of the UX1024 block: one constructor per row of spec/opcode_table.json, in the table's
order, with the operands each needs. What the surroundings decide (an edge, a received frame, a raw code, a
completion) is an operand; what the module decides is in the state. -/

namespace Sys2Proof

/-- The two offices (01_module_anatomy R17). -/
inductive OfficeId | A | B
  deriving DecidableEq, Repr, Inhabited

/-- A lane that follows R151: a letter lane, a sum lane, an office's downlink, or a lane of the inter-office link. -/
inductive LaneRef
  | letter (k : Fin 8)
  | sum (k : Fin 3)
  | downlink
  | link (k : Fin 4)
  deriving DecidableEq, Repr

/-- The crossings of R21 that a clock-crossing FIFO serves. -/
inductive FifoRef
  | ringRxE | ringRxW
  | pcieRx (o : OfficeId) | pcieTx (o : OfficeId)
  deriving DecidableEq, Repr

/-- A ring port: E or W (09_time_base_and_ring, "Ring ports and topology"). -/
inductive RingPort | E | W
  deriving DecidableEq, Repr

/-- A tile frame or a sum frame as received: header, payload bytes, the CRC-16 that followed, and whether a K
character, code or disparity error fell inside it (R136, R140, R332). -/
structure LaneFrame where
  hdr : W32
  payload : List Byte
  crc : W16
  charErr : Bool
  deriving DecidableEq, Repr

/-- A downlink frame as received (R158). -/
structure DlFrame where
  hdr : W16
  words : List W64
  crc : W16
  charErr : Bool
  deriving DecidableEq, Repr

/-- A frame of the inter-office link as received (R531). -/
structure LinkFrame where
  hdr : W32
  words : List W64
  crc : W32
  charErr : Bool
  deriving DecidableEq, Repr

/-- A ring frame as received (R392). -/
structure RingFrame where
  hdr : W32
  words : List W32
  crc : W16
  charErr : Bool
  deriving DecidableEq, Repr

/-- How a host-memory access of the module ended (R299, R304, R448). -/
inductive Completion | ok | unsupported | abort | timeout | poisoned
  deriving DecidableEq, Repr

/-- The write that a completion of the UIO path ends: its region (8 and 9 for the index) and its bus address (R267). On the ordered path
the region alone names the confirmation. -/
structure StoreWriteRef where
  region : Fin 10
  addr : W64
  deriving DecidableEq, Repr

/-- What a store read of an extraction found (R304, R305, R362). -/
inductive ReadFinding
  /-- A record of the run of `round`, or `badRecord` in its place; `packed` tells that it is compressed. -/
  | good (round : Round)
  | badRecord (round : Round) (stream : BitVec 9) (packed : Bool)
  | badMark (round : Round)
  | badHeader
  | badEntry
  /-- The last run of the sack has been read. -/
  | sackEnd
  deriving DecidableEq, Repr

/-- A host configuration request that this manual gives an effect (R429, R434, R435, R462): `Max_Payload_Size` and
`Max_Read_Request_Size` are 128 bytes times 2 to the code, up to 512 and 4,096 bytes. -/
inductive CfgRequest
  | busMaster (on : Bool)
  | msixEnable (on : Bool)
  | d3hot (on : Bool)
  | maxPayload (code : Fin 3)
  | maxReadRequest (code : Fin 6)
  deriving DecidableEq, Repr

/-- Causes of a function reset (R436, R472). -/
inductive FnResetCause | linkDown | hotReset | flr
  deriving DecidableEq, Repr

/-- Instructions of the IEEE 1149.1 test port (R701). -/
inductive JtagIr | bypass | idcode | sample | extest
  deriving DecidableEq, Repr

/-- The samples of one loop at the first tick of a sample period (R560, R574, R576). -/
structure LoopSample where
  mon : W16
  monValid : Bool
  elecMv : BitVec 12
  elecOver : Bool
  fltLow : Bool
  deriving DecidableEq, Repr

/-- One slot of a flash as the service die reports it (R623). -/
structure FlashSlot where
  row : BitVec 4
  start : W64
  code : Byte
  cols : W16
  deriving DecidableEq, Repr

/-- A flash report over the service link (R623). -/
structure FlashReport where
  f0 : W64
  seq : BitVec 6
  num : W16
  slots : List FlashSlot
  cut : Bool
  suppressed : Bool
  deriving DecidableEq, Repr

/-- The commands. `o` names the office addressed, `t` a tile, `v` a value written by the host. -/
inductive Instr
  -- host accesses, reset and time (00, 01, 18)
  | registerWrite (o : OfficeId) (addr : BitVec 26) (v : W32)
  | lowRegisterRead (o : OfficeId) (addr : BitVec 26)
  | highRegisterWrite (o : OfficeId) (addr : BitVec 26) (v : W32)
  | barAccessError (o : OfficeId) (addr : BitVec 26)
  | poisonedWriteRx (o : OfficeId) (addr : BitVec 26)
  | resetNAssert
  | resetNRelease (nvmFail : BitVec 4)
  | standbyEntry
  | timeBaseStart
  | roundBoundary (stFail : BitVec 3)
  -- cells and clusters (02, 03)
  | leadingEdge (t : Fin 4) (cell : BitVec 18) (fine : BitVec 7)
  | trailingEdge (t : Fin 4) (cell : BitVec 18) (fine : BitVec 7)
  | gainSwitch (t : Fin 4) (cell : BitVec 18)
  | totSaturation (t : Fin 4) (cell : BitVec 18)
  | resetSwitchOpen (t : Fin 4) (cell : BitVec 18)
  | cellRearm (t : Fin 4) (cell : BitVec 18) (above : Bool) (fine : BitVec 7)
  | sarSamplingEnd (t : Fin 4) (cluster : BitVec 14)
  | sarConversionEnd (t : Fin 4) (cluster : BitVec 14) (raw : BitVec 12)
  | letterComplete (t : Fin 4) (cell : BitVec 18)
  | lateFrameTimeout (t : Fin 4) (district : BitVec 6) (round : Round)
  | interpolatorRelease (t : Fin 4) (cluster : BitVec 14) (ip : Bool)
  | blankingEnd (t : Fin 4) (cell : BitVec 18)
  | injectionStrobe (t : Fin 4)
  | latchMajorityCorrection (t : Fin 4) (isCluster : Bool) (place : BitVec 18) (u0 u1 u2 : W16)
  | dllLock (t : Fin 4) (cluster : BitVec 14)
  | dllLossOfLock (t : Fin 4) (cluster : BitVec 14)
  | dllLockTimeout (t : Fin 4) (cluster : BitVec 14)
  -- tile read-out and lanes (04)
  | bucketClose (t : Fin 4) (round : Round)
  | laneFrameSent (t : Fin 4) (o : OfficeId) (lane : Fin 8) (badEntries : BitVec 24)
  | idleFrameSend (t : Fin 4)
  | dataFrameRx (o : OfficeId) (t : Fin 4) (lane : Fin 8) (f : LaneFrame)
  | lateFrameRx (o : OfficeId) (t : Fin 4) (lane : Fin 8) (f : LaneFrame)
  | closeFrameRx (o : OfficeId) (t : Fin 4) (lane : Fin 8) (f : LaneFrame)
  | idleFrameRx (o : OfficeId) (t : Fin 4) (lane : LaneRef) (f : LaneFrame)
  | statusFrameRx (o : OfficeId) (t : Fin 4) (lane : Fin 8) (f : LaneFrame)
  | readbackReplyRx (o : OfficeId) (t : Fin 4) (word : W64)
  | elasticBufferOverflow (o : OfficeId) (t : Fin 4) (lane : LaneRef)
  | laneTrainingPass (o : OfficeId) (t : Fin 4) (lane : LaneRef)
  | laneTrainingAttemptTimeout (o : OfficeId) (t : Fin 4) (lane : LaneRef)
  | laneCodeErrors (o : OfficeId) (t : Fin 4) (lane : LaneRef) (alignment : Bool)
  | fifoFlush (f : FifoRef) (writing : Bool)
  | dlConfigFrameRx (t : Fin 4) (o : OfficeId) (f : DlFrame)
  | writeCellWord (t : Fin 4) (cmd : W64)
  | writeClusterWord (t : Fin 4) (cmd : W64)
  | readCellWord (t : Fin 4) (cmd : W64)
  | readClusterWord (t : Fin 4) (cmd : W64)
  | configWriteComplete (t : Fin 4)
  | dlLaneStatusRx (t : Fin 4) (o : OfficeId) (f : DlFrame)
  | downlinkNakRx (o : OfficeId) (t : Fin 4) (seq : Byte)
  -- type 3 downlink words (08, 17)
  | sumMaskLow (t : Fin 4) (o : OfficeId) (v : W32)
  | sumMaskHigh (t : Fin 4) (o : OfficeId) (v : W32)
  | sumCoefficients (t : Fin 4) (o : OfficeId) (k : Byte) (c0 c1 : W16)
  | sumFilterGain (t : Fin 4) (o : OfficeId) (flen fshift gain : Byte)
  | sumTrim (t : Fin 4) (o : OfficeId) (v : W32)
  | sumApply (t : Fin 4) (o : OfficeId)
  | captureCommand (t : Fin 4) (o : OfficeId) (tag : Byte) (start lenm1 : W16) (block : Byte)
  | throttleOverride (t : Fin 4) (o : OfficeId) (district : Byte) (bits : Byte)
  | throttleClear (t : Fin 4) (o : OfficeId)
  | quiet (t : Fin 4) (o : OfficeId) (enter : Bool)
  | tileCommandRefused (t : Fin 4) (o : OfficeId) (word : W64)
  -- sorting registers and the merge (02 to 05)
  | sortFeCntClr (o : OfficeId) (t : Fin 4) (v : W32)
  | sortTeCntClr (o : OfficeId) (t : Fin 4) (v : W32)
  | sortResCntClr (o : OfficeId) (v : W32)
  | sortLnCntClr (o : OfficeId) (t : Fin 4) (v : W32)
  | retrain (o : OfficeId) (v : W32)
  | residueErrorInject (o : OfficeId) (v : W32)
  | codeDensityStart (o : OfficeId) (v : W32)
  | codeDensityPassEnd (o : OfficeId)
  | lateWindowExpiry (o : OfficeId) (round : Round)
  | mergeDeadlineExpiry (o : OfficeId) (round : Round)
  | mergeStart (o : OfficeId) (badEntries : List Nat)
  | mergeComplete (o : OfficeId) (unit : Fin 8)
  | envelopeUndeliverable (o : OfficeId) (ph : BitVec 12)
  | hotSweepVisit (o : OfficeId)
  | contextChangeApply (o : OfficeId)
  | contextClearStart (o : OfficeId) (v : W32)
  | contextClearDone (o : OfficeId)
  | sortMgCntClr (o : OfficeId) (v : W32)
  -- compression (06)
  | compressionEngineTake (o : OfficeId) (engine : Fin 16)
  | envelopeCoded (o : OfficeId) (engine : Fin 16) (differs : Bool)
  | cmpCntClr (o : OfficeId) (v : W32)
  -- the event store (07)
  | stagingEntry (o : OfficeId)
  | stagingDrained (o : OfficeId)
  | roundWriteStart (o : OfficeId)
  | storeWriteDone (o : OfficeId) (done : StoreWriteRef)
  | storeWriteError (o : OfficeId) (region : Fin 10) (addr : W64)
  | storeStall (o : OfficeId) (region : Byte)
  | lossRecordAppend (o : OfficeId)
  | storeReadComplete (o : OfficeId) (slot : Fin 4) (sack : W32) (gen : W32) (c : Completion) (f : ReadFinding)
      (rec : List Byte)
  | storeEnable (o : OfficeId) (v : W32)
  | storeDisable (o : OfficeId) (v : W32)
  | storeFormatDone (o : OfficeId)
  | reattach (o : OfficeId) (v : W32)
  | pin (o : OfficeId) (v : W32)
  | unpin (o : OfficeId) (v : W32)
  | unpinAll (o : OfficeId) (v : W32)
  | indexRepair (o : OfficeId) (v : W32)
  | stoCntClr (o : OfficeId) (v : W32)
  -- sums, triggers, collection (08)
  | sumLiveFrameRx (o : OfficeId) (t : Fin 4) (lane : Fin 3) (f : LaneFrame)
  | liveFrameMissing (o : OfficeId) (t : Fin 4)
  | decimationChange (t : Fin 4)
  | sequencerStep (o : OfficeId) (t : Fin 4)
  | sequencerTimerExpiry (o : OfficeId) (t : Fin 4) (timer : Bool)
  | holdoffExpiry (o : OfficeId) (t : Fin 4)
  | captureFreeze (t : Fin 4)
  | captureResume (t : Fin 4)
  | readoutFrameRx (o : OfficeId) (t : Fin 4) (lane : Fin 3) (f : LaneFrame)
  | reductionRecord (o : OfficeId) (t : Fin 4) (r : Fin 4)
  | strobe (o : OfficeId) (t : Fin 4) (v : W32)
  | trgCntClr (o : OfficeId) (t : Fin 4) (v : W32)
  | collectionOrderSubmit (o : OfficeId) (v : W32)
  | collectionOrderStart (o : OfficeId)
  | collectionOrderComplete (o : OfficeId) (slot : Fin 4)
  | colCntClr (o : OfficeId) (v : W32)
  -- time base and ring (09)
  | tbStart (o : OfficeId) (v : W32)
  | ppsinEdge (fine : BitVec 7)
  | servoHoldover
  | todMessageRx (bytes : List Byte) (inWindow : Bool)
  | refinLoss
  | refinReturn
  | epochBoundary
  | syncSend
  | syncFrameRx (p : RingPort) (f : RingFrame) (fine : BitVec 7) (residence : BitVec 6)
  | ringHoldover
  | pdreqSend (p : RingPort)
  | pdreqRx (p : RingPort) (f : RingFrame) (t2 : W64) (t3 : W64)
  | pdrespRx (p : RingPort) (f : RingFrame) (t4 : W64)
  | ringPortTrainingPass (p : RingPort) (peer : Byte)
  | ringPortOpen (p : RingPort) (peer : Option Byte)
  | ringPortErrors (p : RingPort)
  | ringPortRetry (p : RingPort)
  | retrainE (o : OfficeId) (v : W32)
  | retrainW (o : OfficeId) (v : W32)
  | ringCntClr (o : OfficeId) (v : W32)
  | bcastRx (p : RingPort) (f : RingFrame)
  | snapshot
  | reset
  | flash
  | mode
  | trigger
  | order
  | smRequestSnapshot (o : OfficeId) (v : W32)
  | smRequestReset (o : OfficeId) (v : W32)
  | smRequestFlash (o : OfficeId) (v : W32)
  | smRequestMode (o : OfficeId) (v : W32)
  | barrierStart (o : OfficeId) (v : W32)
  | barrierRx (p : RingPort) (f : RingFrame)
  | barrierTimeout
  | tbCountRead (o : OfficeId)
  | tbCntClr (o : OfficeId) (v : W32)
  -- host attachment (11)
  | portLeaveL0 (o : OfficeId)
  | portEnterL0 (o : OfficeId) (flit uioCap : Bool) (rate width : BitVec 3)
  | functionReset (o : OfficeId) (cause : FnResetCause)
  | ptmDialog (o : OfficeId) (hostNs : W64) (tick : W64)
  | ptmTickRead (o : OfficeId)
  | pigeonholeEnable (o : OfficeId) (ph : BitVec 12) (v : W32)
  | pigeonholeDisable (o : OfficeId) (ph : BitVec 12) (v : W32)
  | dprod (o : OfficeId) (ph : BitVec 12) (v : W32)
  | rcons (o : OfficeId) (ph : BitVec 12) (v : W32)
  | resume (o : OfficeId) (ph : BitVec 12) (v : W32)
  | flush (o : OfficeId) (ph : BitVec 12) (v : W32)
  | descriptorFetch (o : OfficeId) (ph : BitVec 12)
  | descriptorFetchComplete (o : OfficeId) (ph : BitVec 12) (c : Completion) (desc : BitVec 256)
  | recordAdd (o : OfficeId) (ph : BitVec 12)
  | mailbagIdleClose (o : OfficeId) (ph : BitVec 12)
  | irqCoalesceTimeout (o : OfficeId) (ph : BitVec 12)
  | msixUnmask (o : OfficeId) (vector : BitVec 11)
  | noticeDeliver (o : OfficeId)
  | snapshotRecordExpiry (o : OfficeId)
  | phCntClr (o : OfficeId) (ph : BitVec 12) (v : W32)
  | phGcntClr (o : OfficeId) (v : W32)
  -- images, amendments, letterbox (12)
  | letterboxOversize (o : OfficeId) (bytes : W32)
  | doeAbort (o : OfficeId)
  | info (o : OfficeId) (tag : W16)
  | attest (o : OfficeId) (tag : W16) (nonce : BitVec 512)
  | amend (o : OfficeId) (tag : W16) (body : List Byte)
  | poll (o : OfficeId) (tag : W16)
  | uploadBegin (o : OfficeId) (tag : W16) (slot : Byte) (len : W32) (measurement : BitVec 512)
  | uploadData (o : OfficeId) (tag : W16) (offset : W32) (data : List Byte)
  | uploadEnd (o : OfficeId) (tag : W16)
  | activate (o : OfficeId) (tag : W16) (slot trial : Byte)
  | confirm (o : OfficeId) (tag : W16)
  | bookRead (o : OfficeId) (tag : W16) (seq : W32) (count : W16)
  | bookBody (o : OfficeId) (tag : W16) (seq : W32) (offset len : W32)
  | reboot (o : OfficeId) (tag : W16)
  | letterboxJobEnd (o : OfficeId) (nvmOk : Bool) (fuseBreak : Option Bool)
  | nvmWindowWaitExpiry (o : OfficeId)
  | nvmWindowOpen (o : OfficeId)
  | secCntClr (o : OfficeId) (v : W32)
  -- twin offices (13)
  | heartbeatSend (o : OfficeId)
  | dlHeartbeatRx (t : Fin 4) (o : OfficeId) (f : DlFrame)
  | heartbeatAgeExpiry (t : Fin 4) (o : OfficeId)
  | linkHeartbeatRx (o : OfficeId) (f : LinkFrame)
  | linkHeartbeatTimeout (o : OfficeId)
  | ownershipEvaluation (o : OfficeId)
  | startGraceExpiry (o : OfficeId)
  | mirrorItemRx (o : OfficeId) (f : LinkFrame)
  | mirrorAckRx (o : OfficeId) (f : LinkFrame)
  | mirrorRetransmit (o : OfficeId)
  | resyncRequestRx (o : OfficeId) (f : LinkFrame)
  | resync (o : OfficeId) (v : W32)
  | noOwnerTimeout (o : OfficeId)
  | handover (o : OfficeId) (v : W32)
  | failbackTimer (o : OfficeId)
  | handoverAcceptTimeout (o : OfficeId)
  | handoverReleaseComplete (o : OfficeId)
  | handoverTimeout (o : OfficeId)
  | clearHealth (o : OfficeId) (v : W32)
  | signatureSelfTest (o : OfficeId) (pass : Bool)
  | twnCntClr (o : OfficeId) (v : W32)
  -- bias loops (14)
  | biasSamplePeriod (l0 l1 : LoopSample) (guardOver : BitVec 4)
  | electrometerGateEnd (k : Fin 2)
  | loopRequestOff (o : OfficeId) (k : Fin 2) (v : W32)
  | loopRequestManual (o : OfficeId) (k : Fin 2) (v : W32)
  | loopRequestAuto (o : OfficeId) (k : Fin 2) (v : W32)
  | ack (o : OfficeId) (k : Fin 2) (v : W32)
  | loopStopTimer (k : Fin 2)
  | loopSetpointWrite (o : OfficeId) (k : Fin 2) (v : W32)
  | loopManVWrite (o : OfficeId) (k : Fin 2) (v : W32)
  | frequencyHandoff (o : OfficeId) (x : Bool)
  | loopCntClr (o : OfficeId) (k : Fin 2) (v : W32)
  -- environment, auxiliary inputs, status loop (15)
  | housekeepingSample (code : BitVec 12) (compliance : Bool)
  | pointCycleEnd
  | scanEnd
  | swap (o : OfficeId) (v : W32)
  | auxEdge (o : OfficeId) (x : Bool) (falling : Bool) (tick : W64) (fine : BitVec 7)
  | intervalStartTimeout (o : OfficeId)
  | intervalRead (o : OfficeId)
  | frequencyUpdate (o : OfficeId) (x : Bool)
  | auxCntClr (o : OfficeId) (x : Bool) (v : W32)
  | auxIvlClr (o : OfficeId) (v : W32)
  | envCntClr (o : OfficeId) (v : W32)
  | statusLoopUpdate
  | slForceWrite (o : OfficeId) (v : W32)
  | slForceExpiry
  -- emitters and calibration service (16)
  | go (o : OfficeId) (v : W32)
  | flashSyncEdge
  | flashStart (noCurrent : List Byte) (overCurrent : W16)
  | verAgeExpiry (emitter : Byte)
  | bufferSwap (o : OfficeId) (v : W32)
  | rowClr (o : OfficeId) (v : W32)
  | flashReportRx (o : OfficeId) (r : FlashReport)
  | start (o : OfficeId) (v : W32)
  | stop (o : OfficeId) (v : W32)
  | evaluationDone (o : OfficeId)
  | apply (o : OfficeId) (v : W32)
  | discard (o : OfficeId) (v : W32)
  | emtCntClr (o : OfficeId) (v : W32)
  -- supply and thermal (17)
  | vinRise (mv : W16)
  | railGood (rail : Fin 9)
  | synthesiserLock
  | vinLow (mv : W16)
  | brownout (mv : W16)
  | vinOverVoltage (mv : W16)
  | vinRecovery (mv : W16)
  | powerCapDemand (p : W16)
  | railFault (rail : Fin 9) (cause : BitVec 2)
  | officeOnA (o : OfficeId) (v : W32)
  | officeOnB (o : OfficeId) (v : W32)
  | thermalModelUpdate (o : OfficeId) (readings : List W16)
  | thermalAck (o : OfficeId) (v : W32)
  | readmit (o : OfficeId) (v : W32)
  | analogueTrip (diodes : BitVec 7)
  | pwrCntClr (o : OfficeId) (v : W32)
  | thmCntClr (o : OfficeId) (v : W32)
  -- modes and errors (18)
  | modeRequest (o : OfficeId) (v : W32)
  | modeTransition (o : OfficeId)
  | heldEntry (o : OfficeId)
  | calibrationSequenceGo (o : OfficeId) (v : W32)
  | calibrationSequenceEnd (o : OfficeId)
  | refresh (o : OfficeId) (v : W32)
  | retire (o : OfficeId) (v : W32)
  | cbtEnable (o : OfficeId) (v : W32)
  | cbtData (o : OfficeId) (v : W32)
  | cbtCheck (o : OfficeId) (v : W32)
  | cbtRead (o : OfficeId) (v : W32)
  | escalationWindowEnd (o : OfficeId)
  | errCntClr (o : OfficeId) (v : W32)
  -- rows added at the end of the table
  | configurationRequest (o : OfficeId) (r : CfgRequest)
  | arrayHostRead (o : OfficeId) (addr : BitVec 26)
  | doeDiscovery (o : OfficeId) (index : Byte)
  | letterboxBadRequest (o : OfficeId) (tag : W16) (op : Byte)
  | tripWaitEnd
  | handoverRequestEnd (o : OfficeId)
  | wrapExpiry
  | testPortInstruction (ir : JtagIr)
  deriving DecidableEq, Repr

end Sys2Proof
end

