-- ==== Sys2Proof/Machine/TileState.lean ====
section
/-! DEFINITION. What a tile holds (02, 03, 04, 08, 13), and what leaves a die or a port. All of it is plain data.
Times named `…At`, `…Until` and `now` count the model's own ticks (log entry 1); tick counts of a die are 64 bits wide. -/

namespace Sys2Proof.Machine

/-- Four things, one per tile. -/
structure Quad (α : Type) where
  t0 : α
  t1 : α
  t2 : α
  t3 : α
  deriving DecidableEq, Repr

/-- The element of tile `t`. -/
def Quad.get {α : Type} (q : Quad α) : Fin 4 → α
  | 0 => q.t0
  | 1 => q.t1
  | 2 => q.t2
  | 3 => q.t3

/-- Replaces the element of tile `t`. -/
def Quad.set {α : Type} (q : Quad α) (t : Fin 4) (x : α) : Quad α :=
  match t with
  | 0 => { q with t0 := x }
  | 1 => { q with t1 := x }
  | 2 => { q with t2 := x }
  | 3 => { q with t3 := x }

/-- The same value four times. -/
def Quad.all {α : Type} (x : α) : Quad α := ⟨x, x, x, x⟩

/-- Two things, one per office. -/
structure Pair (α : Type) where
  a : α
  b : α
  deriving DecidableEq, Repr

/-- The element of office `o`. -/
def Pair.get {α : Type} (p : Pair α) : OfficeId → α
  | .A => p.a
  | .B => p.b

/-- Replaces the element of office `o`. -/
def Pair.set {α : Type} (p : Pair α) (o : OfficeId) (x : α) : Pair α :=
  match o with
  | .A => { p with a := x }
  | .B => { p with b := x }

/-! ### Clock-crossing FIFOs (R154 to R157) -/

/-- A word of an item, with the markers of R157. -/
structure FifoWord where
  value : Nat := 0
  first : Bool := false
  last : Bool := false
  deriving DecidableEq, Repr

/-- A FIFO of 2^k words between two clock islands (R154 to R157): the words it holds, by place; the pointers of k + 1 bits of
its writer and reader; each pointer in Gray code in the three stages of the synchroniser to the other side, newest first; whether
the writer drops words up to the next start marker; whether the reader is in mid-item; when it was last flushed; and how many
words were refused while it read full. The pointer registers are triple-voted: what is held here is their majority. The spec does
not state k (log entry 78). -/
structure Fifo where
  k : Nat := 4
  words : Sparse FifoWord := []
  wptr : Nat := 0
  rptr : Nat := 0
  wSync : List Nat := [0, 0, 0]
  rSync : List Nat := [0, 0, 0]
  skipping : Bool := false
  inItem : Bool := false
  flushedAt : Option Nat := none
  refused : Nat := 0
  deriving DecidableEq, Repr

/-! ### What leaves a die or a port -/

/-- Everything the module sends: an internal frame appears here when it leaves its die and comes back to the model as
the operand of the receiver's command. -/
inductive Emission
  | tileFrame (t : Fin 4) (o : OfficeId) (lane : Nat) (bytes : List Byte)
  | sumFrame (t : Fin 4) (o : OfficeId) (lane : Nat) (bytes : List Byte)
  | downlink (o : OfficeId) (t : Fin 4) (hdr : W16) (words : List W64)
  | link (o : OfficeId) (hdr : W32) (words : List W64)
  | ring (p : RingPort) (hdr : W32) (words : List W32)
  /-- K27.7: the frame that a SYNC frame suspended goes on (R395). -/
  | ringResume (p : RingPort)
  | hostWrite (o : OfficeId) (addr : Nat) (bytes : List Byte)
  | hostRead (o : OfficeId) (addr : Nat) (len : Nat)
  | completion (o : OfficeId) (value : List W32) (poisoned : Bool)
  | completerAbort (o : OfficeId)
  | aerError (o : OfficeId)
  | letterbox (o : OfficeId) (bytes : List Byte)
  | syncPulse (word : W16) (start : Bool)
  | emitterPulse (row : Nat) (cols : Nat) (icode : Nat) (start : Nat) (len : Nat)
  | flashReport (r : FlashReport)
  | testPort (bits : Nat) (len : Nat)
  deriving DecidableEq, Repr

/-! ### A tile: cells, clusters, read-out, sums (02, 03, 04, 08, 13) -/

/-- A letter as the tile holds it: the fields of R79, the whole tick count of its leading edge, and the
interpolator bit of R97. -/
structure Letter where
  channel : BitVec 20
  lead : W64
  fine : BitVec 7
  tot : BitVec 17
  amp : BitVec 12
  gain : Bool
  flags : BitVec 7
  ip : Bool
  deriving DecidableEq, Repr

/-- A pulse in progress (R94 to R101). -/
structure Pulse where
  lead : W64
  leadAt : Nat
  fine : BitVec 7
  coarseOnly : Bool
  ip : Bool
  gainLow : Bool
  switched : Bool
  calib : Bool
  /-- R55: the peak hold was still busy at the leading edge. -/
  noPeak : Bool
  deriving DecidableEq, Repr

/-- The timing path of a cell (R36, R54). -/
inductive CellPhase
  | idle
  | pulse (p : Pulse)
  | resetClosed (untilT : Nat)
  | recovering (untilT : Nat)
  deriving DecidableEq, Repr

/-- A cell: timing path, peak hold (R45, R55), blanking (R44), and the gain mode it keeps until its reset switch next
opens after a change (R50). -/
structure Cell where
  phase : CellPhase := .idle
  peakHeld : Bool := false
  /-- R38, R43: in a tile that times the return crossing, the pulse has switched gain before that crossing. -/
  preSwitch : Bool := false
  blankUntil : Option Nat := none
  keepMode : Option (BitVec 2) := none
  deriving DecidableEq, Repr

/-- A conversion request: cell, letter without amplitude, and the tick it is raised in (R45). -/
structure SarRequest where
  cell : BitVec 18
  letter : Letter
  raisedAt : Nat
  deriving DecidableEq, Repr

/-- A conversion running in a cluster's SAR (R46). -/
structure Conversion where
  cell : BitVec 18
  letter : Letter
  raisedAt : Nat
  startAt : Nat
  sampled : Bool
  deriving DecidableEq, Repr

/-- An edge that a cluster's arbiter has placed (R94, R95): its tick and fine code, the interpolator it got, the pulse it
started or ended, and what it found at its capture: since when the DLL was locked, and which interpolators were disabled or
forced off (R90, R93). -/
structure Edge where
  cell : BitVec 18
  trailing : Bool
  tick : Nat
  count : W64
  fine : BitVec 7
  ip : Option Bool
  pulse : Pulse
  locked : Option Nat := none
  off0 : Bool := false
  off1 : Bool := false
  deriving DecidableEq, Repr

/-- The DLL of a cluster (R88 to R91). -/
inductive Dll
  | off
  | acquiring (since : Nat)
  | locked (at_ : Nat)
  deriving DecidableEq, Repr

/-- An interpolator: busy until the third tick boundary after its edge, or free since a tick (R87, R94). -/
inductive Interp
  | free (since : Nat)
  | busy (untilT : Nat)
  deriving DecidableEq, Repr

/-- A cluster: the SAR's conversion and what waits for it (R46), conversions still to mark SETTLING (R50), DLL, the two
interpolators, and the arbiter's present window (R95): the bin it opened at, its edges in order, and the interpolators as they
stood before it; and every edge placed in the tick of the latest one (R90). -/
structure Cluster where
  conv : Option Conversion := none
  waiting : List SarRequest := []
  settle : Nat := 0
  dll : Dll := .off
  ip0 : Interp := .free 0
  ip1 : Interp := .free 0
  openBin : Nat := 0
  edges : List Edge := []
  base0 : Interp := .free 0
  base1 : Interp := .free 0
  tickEdges : List Edge := []
  deriving DecidableEq, Repr

/-- The bucket of a district round (R126 to R135): letters not yet in a frame, frames made, and what the close record
will say. -/
structure Bucket where
  letters : List Letter := []
  made : Nat := 0
  frames : Nat := 0
  shipped : Nat := 0
  dropped : Nat := 0
  eccDrop : Nat := 0
  overflowed : Bool := false
  deriving DecidableEq, Repr

/-- Late letters of one district round (R130). -/
structure LateBucket where
  letters : List Letter := []
  firstAt : Nat := 0
  deriving DecidableEq, Repr

/-- Kinds of tile frame, by the priority of R148. -/
inductive FrameKind | status | late | data | close
  deriving DecidableEq, Repr

/-- A frame in the tile queue or on a lane (R136 to R148). The words of a status frame; the letters of a data or late
frame; a close frame takes its record from its bucket when it is sent. -/
structure TileFrame where
  kind : FrameKind
  round : Nat
  district : Nat
  fnum : Nat
  letters : List Letter
  words : List Nat
  deriving DecidableEq, Repr

/-- A letter lane at the tile: the frame it sends, since when, and the frame committed behind it (R147). -/
structure LaneTx where
  sending : Option TileFrame := none
  startAt : Nat := 0
  committed : Option TileFrame := none
  deriving DecidableEq, Repr

/-- A sum set: what a profile and the trims load (R328 to R330). -/
structure SumSet where
  mask : W64 := 0
  flen : Byte := 1
  fshift : Byte := 0
  gain : Byte := 0
  coef : Sparse Nat := []
  trim : W32 := 0
  deriving DecidableEq, Repr

/-- A capture of the pre-trigger memory (R334 to R338): its tag, length and form, the tick of its first sample plus 65,536
(it may lie before tick 0), and the tick of the last one written before the freeze. -/
structure Capture where
  tag : Byte
  lenm1 : W16
  block : Byte
  startTick : Nat
  endTick : Nat
  frozen : Bool
  deriving DecidableEq, Repr

/-- What a tile has heard from an office (R519, R520). -/
structure HeartbeatSeen where
  at_ : Option Nat := none
  flags : Byte := 0
  hround : W32 := 0
  deriving DecidableEq, Repr

/-- The vote of a tile (R520). -/
inductive Vote | office (o : OfficeId) | none
  deriving DecidableEq, Repr

/-- A lane at the side that runs its states (R151, R152). -/
inductive LaneState | training | up | retired
  deriving DecidableEq, Repr

/-- Bookkeeping of a lane: its state, the start and number of its failed attempts, the training frames counted in the running
one (R712), the times of its moves from UP in the last second, and the time of its last notice 0x0202. -/
structure Lane where
  state : LaneState := .training
  since : Nat := 0
  attempts : Nat := 0
  good : Nat := 0
  moves : List Nat := []
  noticeAt : Option Nat := none
  deriving DecidableEq, Repr

/-- A configuration write in the tile's write engine (R68, R161). -/
structure EngineWrite where
  cmd : W64
  doneAt : Nat
  deriving DecidableEq, Repr

/-- What an office's downlink brings a tile beside configuration frames, heartbeats and the words of R330. Such an order acts in
the tick after it has arrived complete (R44, R50, R671; its form on the wire is not stated, log entry 77): the settings of R42,
R43, R71 and R170; a point of a calibration sequence; the selection of a sequence and the interpolator that it forces off, none at
its end; a throttle override; the clear of every override. -/
inductive TileOrder
  | settings (gthr : BitVec 10) (pol slope : Bool) (rstTicks : Byte) (closeDly : Nat)
  | point (inj gthr : BitVec 10)
  | sequence (select : Option W32) (forced : Option Bool)
  | throttle (district bits : Nat)
  | throttleClear
  deriving DecidableEq, Repr

/-- A tile. -/
structure Tile where
  inReset : Bool := false
  /-- When it last left reset, on the model's clock (R151). -/
  leftResetAt : Nat := 0
  count : W64 := 0
  /-- R25: when the check word differed; the count is reloaded at the next boundary. -/
  reload : Option Nat := none
  /-- Its own counters of R74 and R118, keyed as the owner's copies. -/
  cnt : Sparse Nat := []
  clrFe : BitVec 5 := 0
  clrTe : BitVec 4 := 0
  /-- Events counted in the running tick, by the counter's key (R14), and counters for which 0x0101 has been raised since their
  last clear (R78). -/
  fresh : Sparse Nat := []
  fullNoted : List Nat := []
  /-- Latch corrections counted in the running tick: cluster word, place, how many (R162). -/
  seuNow : List (Bool × Nat × Nat) := []
  cells : Sparse Cell := []
  clusters : Sparse Cluster := []
  /-- Configuration words, voted (R64 to R66); unlisted words hold their reset values. -/
  cellCfg : Sparse Nat := []
  clusterCfg : Sparse Nat := []
  gthrAct : BitVec 10 := 0x0A0
  /-- The set-point that `gthrAct` follows outside a sequence (R73), and orders that act in the next tick. -/
  gthrSet : BitVec 10 := 0x0A0
  orders : List TileOrder := []
  injAct : BitVec 10 := 0
  slope : Bool := false
  pol : Bool := false
  rstTicks : Byte := 0x18
  closeDly : Nat := 0x1040
  calib : Bool := false
  /-- Tile-wide blanking of R44. -/
  blankUntil : Option Nat := none
  /-- Injection selection and forced-off interpolator of a running sequence (R116, R671). -/
  injSelect : Option W32 := none
  forcedOff : Option Bool := none
  /-- Overrides of R647 per district: bit 0 FIXED_HIGH, bit 1 SAR_OFF; and QUIET. -/
  throttle : Sparse Nat := []
  quiet : Bool := false
  /-- Letters between their last conversion step and completion (R57): cell, tick due, letter. -/
  completing : List (BitVec 18 × Nat × Letter) := []
  buckets : Sparse Bucket := []
  late : Sparse LateBucket := []
  /-- The first round whose buckets are still open (R127). -/
  closedTo : Nat := 0
  memPeak : Nat := 0
  /-- Latest readings of its eight sensors, which its status frames carry (R69, R653). -/
  sensors : Sparse Nat := []
  queue : List TileFrame := []
  lanes : Sparse LaneTx := []
  upLetter : Pair (BitVec 8) := ⟨0, 0⟩
  upSum : Pair (BitVec 3) := ⟨0, 0⟩
  addLetter : Pair (BitVec 8) := ⟨0, 0⟩
  addSum : Pair (BitVec 3) := ⟨0, 0⟩
  /-- Downlinks of the two offices, whose states the tile runs (R151). -/
  dl : Pair Lane := ⟨{}, {}⟩
  expectSeq : Byte := 0
  nakAt : Option Nat := none
  cfgQueue : List W64 := []
  engine : Option EngineWrite := none
  /-- The write that completed last, and when (R162). -/
  lastWrite : Option W64 := none
  lastWriteAt : Nat := 0
  vote : Vote := .none
  laneOwner : Vote := .none
  /-- First round of the present lane owner, and the owner before (R521). -/
  switchRound : Nat := 0
  prevOwner : Vote := .none
  heard : Pair HeartbeatSeen := ⟨{}, {}⟩
  sumShadow : SumSet := {}
  sumActive : SumSet := {}
  /-- The set in force before, and the tick from which `sumActive` is (R327). -/
  sumPrev : SumSet := {}
  sumSince : Nat := 0
  sumApply : Bool := false
  /-- Settling windows: first tick and the tick after the last (R327); outputs of the converters for the last 64 ticks,
  newest first (R323). -/
  inv : List (Nat × Nat) := []
  conv : List Nat := []
  /-- Decimation D; 0 for no live stream (R331). -/
  dec : Nat := 0
  decPending : Bool := false
  /-- The first tick of which live samples are sent again (R331, R338), and by office * 3 + lane when a sum lane's queue
  drains, in quarter ticks (R332). -/
  liveFrom : Nat := 0
  sumBusy : Sparse Nat := []
  /-- Pre-trigger memory, samples written since it last resumed, and the capture (R334 to R338). -/
  preTrig : Sparse Nat := []
  written : Nat := 0
  capture : Option Capture := none
  deriving DecidableEq, Repr

end Sys2Proof.Machine
end

