-- ==== Sys2Proof/Machine/OfficeState.lean ====
section
/-! DEFINITION. What an office holds (04 to 08, 11 to 13, 18). All of it is plain data. -/

namespace Sys2Proof.Machine

/-! ### An office: core -/

/-- A notice as raised (R672). -/
structure Notice where
  code : W16
  flags : Byte
  tick : W64
  nseq : W16
  payload : List Byte
  deriving DecidableEq, Repr

/-- Roles of an office (R514). -/
inductive Role | owner | relief | neither
  deriving DecidableEq, Repr

/-- Modes (R656). -/
inductive Mode
  | dormant | loading | fallback | standby | calibration | streaming | selective | held
  deriving DecidableEq, Repr

/-- The code of a mode (R656). -/
def Mode.code : Mode → Nat
  | .dormant => 1
  | .loading => 2
  | .fallback => 3
  | .standby => 4
  | .calibration => 5
  | .streaming => 6
  | .selective => 7
  | .held => 8

/-- The mode of a code (R656). -/
def Mode.ofCode : Nat → Option Mode
  | 1 => some .dormant
  | 2 => some .loading
  | 3 => some .fallback
  | 4 => some .standby
  | 5 => some .calibration
  | 6 => some .streaming
  | 7 => some .selective
  | 8 => some .held
  | _ => none

/-- Calibration, Streaming and Selective: the modes that merge (R659). -/
def Mode.isData : Mode → Bool
  | .calibration | .streaming | .selective => true
  | _ => false

/-- A pending transition (R661, R662). -/
structure PendingMode where
  target : Mode
  atCount : W64
  sched : Bool
  deriving DecidableEq, Repr

/-! ### An office: receive buffer, merge, envelopes (05) -/

/-- A letter in the receive buffer: the 80-bit letter, its side byte, and whether it came in a late frame (R178). -/
structure RxLetter where
  word : BitVec 80
  side : Byte
  late : Bool
  deriving DecidableEq, Repr

/-- The close record of R142. -/
structure CloseRec where
  letters : Nat
  frames : Nat
  dropped : Nat
  eccDrop : Nat
  deriving DecidableEq, Repr

/-- A district round at an office (R174 to R190). -/
structure DRound where
  letters : List RxLetter := []
  frames : Nat := 0
  close : Option CloseRec := none
  noClose : Bool := false
  readyAt : Option Nat := none
  lostFrames : Bool := false
  overflowed : Bool := false
  rxDropped : Nat := 0
  lateIn : Nat := 0
  /-- R177: the office core clock in which letters of late frames came last, plus one, and how many came in it. -/
  lateClock : Nat := 0
  lateN : Nat := 0
  begun : Bool := false
  deriving DecidableEq, Repr

/-- The postmark of a tick (09): seconds, nanoseconds, 2^-32 ns, quality word. -/
structure Postmark where
  sec : BitVec 48 := 0
  ns : W32 := 0
  frac : W32 := 0
  quality : W16 := 0x00FF
  deriving DecidableEq, Repr

/-- A letter as an envelope carries it, with the `T` and `Q` of its timed form (R192). -/
structure EnvLetter where
  word : BitVec 80
  t : Int
  q : Nat
  deriving DecidableEq, Repr

/-- Where the route table sends an envelope (R213, R215). -/
structure Route where
  ph : Nat
  timed : Bool
  dlo : Bool
  deriving DecidableEq, Repr

/-- An envelope: the header fields of R186, its letters, and its live route. -/
structure Envelope where
  district : Byte
  part : Nat
  sub : Nat
  round : Round
  rshift : Nat
  more : Bool
  status : W16
  lateIn : Nat
  dropped : Nat
  calEpoch : W32
  postmark : Postmark
  inc : W32
  letters : List EnvLetter
  route : Option Route
  deriving DecidableEq, Repr

/-- A merge unit at work (R176): its district round, when it began, the letters it reads, and the envelopes formed. -/
structure MergeUnit where
  key : Nat
  startAt : Nat
  letters : Nat
  envs : List Envelope
  deriving DecidableEq, Repr

/-- A configuration item (R481), fuse items apart. -/
structure Item where
  kind : Nat
  esize : Nat
  target : Nat
  count : Nat
  stride : Nat
  count2 : Nat
  stride2 : Nat
  data : List Byte
  deriving DecidableEq, Repr

/-- What waits for the gap between the merges of two rounds (R202): an amendment or a calibration delta with its `SEQ`,
a clear of word 2 (R203), the clear of word 3 at the start of a campaign (R631), a page refresh or a retirement
(R681, R682). -/
inductive CtxJob
  | items (seq : W32) (amdId : W64) (delta : Bool) (items : List Item)
  | clear (first last : Nat)
  | campaign
  | refresh (array page : Nat)
  | retire (array page spare : Nat)
  deriving DecidableEq, Repr

/-- The merge of an office (R176, R180, R202, R209). -/
structure Merging where
  units : Sparse (Option MergeUnit) := []
  /-- Finished district rounds whose turn has not come (R180). -/
  held : Sparse (Option (List Envelope)) := []
  /-- The last round whose merge has begun since the office entered a data mode (R209). -/
  lastBegun : Option Nat := none
  /-- The next channel of the hot-window sweep (R209). -/
  sweep : Nat := 0
  jobs : List CtxJob := []
  /-- Until when merging pauses for the writes of a change (R202). -/
  pauseUntil : Nat := 0
  deriving DecidableEq, Repr

/-- The calibration service (R629 to R634): the latest 64 flash reports, by channel the `F0` plus one of the last flash
matched, the flashes counted, the walk accumulators and the new walk values by table * 64 + bin, the cell offsets
accepted, deltas that wait for IDLE, and since when a delta waits for the NVM window. -/
structure CalSvc where
  reports : List FlashReport := []
  lastFlash : Sparse Nat := []
  flashHits : List Nat := []
  walkN : Sparse Nat := []
  walkS : Sparse Int := []
  offsets : Sparse Int := []
  walk : Sparse Int := []
  waiting : List Item := []
  waitSince : Option Nat := none
  deriving DecidableEq, Repr

/-! ### An office: compression (06) -/

/-- A stream's saved history (R233). `table` is the current table set, 89 code lengths, or none. -/
structure History where
  ma0 : Nat := 8192
  ma1 : Nat := 8192
  mt : Sparse Nat := []
  mb : Nat := 32768
  table : List Nat := []
  /-- The static set that `table` is, where it is one. -/
  static : Option Nat := none
  counts : Sparse Nat := []
  rebuild : Nat := 0
  /-- A rebuilt table that the stream's next envelope uses first (R251). -/
  nextTable : List Nat := []
  keypend : Bool := true
  deriving DecidableEq, Repr

/-- A parcel (R348, R349). -/
structure Parcel where
  tile : Fin 4
  prog : Nat
  branch : Byte
  fireTick : W64
  postmark : Postmark
  samples : List W16
  pre : Nat
  preReq : Nat
  cause : W16
  block : Nat
  profile : Nat
  pcnum : W16
  ext : Nat
  summary : Bool
  trunc : Bool
  extended : Bool
  lost : Bool
  parcelPh : Nat
  round : Round
  deriving DecidableEq, Repr

/-- What compression handles: an envelope or a parcel. -/
inductive CmpBody
  | env (e : Envelope)
  | par (p : Parcel)
  deriving DecidableEq, Repr

/-- An item on its way through compression: its place in the order of R180, its round, its body, and the effort and
key flag its round carries (R235, R257). -/
structure CmpItem where
  ord : Nat
  round : Round
  body : CmpBody
  deriving DecidableEq, Repr

/-- A record as it leaves compression: header and body bytes, and the letters and sample counts it holds. -/
structure CodedItem where
  ord : Nat
  round : Round
  body : CmpBody
  compressed : Bool
  bytes : List Byte
  deriving DecidableEq, Repr

/-- What the office fixes for a round when it is handed to compression (R236, R257, R276): its effort and engines;
whether it has been decided that it opens a sack; whether it is a key round of `KEY_LOG2` (R235); the places of its items in the order of R180, the end once all are
handed over; and whether it is dropped whole (R295). -/
structure RoundPlan where
  round : Round
  effort : Nat
  engines : Nat
  decided : Bool := false
  opens : Bool := false
  firstOrd : Nat
  endOrd : Option Nat := none
  dropped : Bool := false
  keyRound : Bool := false
  deriving DecidableEq, Repr

/-- An engine at work (R238, R252): its item, the history saved before it, the history after it, and the body coded. -/
structure EngineJob where
  item : CmpItem
  stream : Nat
  key : Bool
  forcedPlain : Bool
  saved : History
  after : History
  body : List Byte
  deriving DecidableEq, Repr

/-- Compression: places given out, items that wait, engines, items coded and waiting for staging, the next place to
enter staging, stream histories, rounds under way, recent verification failures by engine, engines out of service,
the effort of the last round planned, and the level the thermal model forces (R232 to R257). -/
structure Compression where
  nextOrd : Nat := 0
  queue : List CmpItem := []
  engines : Sparse (Option EngineJob) := []
  coded : List CodedItem := []
  stageOrd : Nat := 0
  hist : Sparse History := []
  plans : List RoundPlan := []
  /-- The rounds that make every stream's next envelope a key envelope, of those before the rounds under way only the
  latest, and by stream the round of the last item taken, plus one (R235). -/
  keyRounds : List Nat := []
  seen : Sparse Nat := []
  fails : Sparse (List Nat) := []
  outEngines : Nat := 0
  lastEffort : Nat := 0
  forcedEffort : Nat := 2
  allowedEngines : Nat := 16
  deriving DecidableEq, Repr

/-! ### An office: the store (07) -/

/-- An item in staging, with its byte address there (R295, R298). -/
structure Staged where
  item : CodedItem
  addr : Nat
  /-- A word of it has read uncorrectable: its record is lost (R298). -/
  lost : Bool := false
  deriving DecidableEq, Repr

/-- A sack table entry (R282), with the marks that its stored copy is in fault (R305) and that its data has been found
unreadable (R304). -/
structure Sack where
  state : Nat := 0
  pinned : Bool := false
  spill : Bool := false
  loss : Bool := false
  single : Bool := false
  released : Bool := false
  rshift : Nat := 0
  gen : Nat := 0
  first : Nat := 0
  last : Nat := 0
  next : Nat := 0
  head : Nat := 0
  used : Nat := 0
  rounds : Nat := 0
  seq : Nat := 0
  entryFault : Bool := false
  badNoted : Bool := false
  deriving DecidableEq, Repr

/-- A loss record (R284). -/
structure LossRec where
  cause : Nat
  district : Nat
  all : Bool
  chain : Bool
  first : Round
  rounds : Nat
  sack : Nat
  lseq : Nat
  deriving DecidableEq, Repr

/-- A store write issued, or waiting for the port, and not yet done (R267, R715): region 0 to 7, or 8 + copy of an index
region; its round, when it belongs to a run; and whether it has been retried (R299). -/
structure PendWrite where
  region : Nat
  addr : Nat
  bytes : List Byte
  round : Option Round
  retried : Bool
  deriving DecidableEq, Repr

/-- Confirmations of an ordered region (R267): bytes since the last, whether one is due, the writes that the outstanding
one covers, whether it has been retried, and the last address written. -/
structure RegionIo where
  since : Nat := 0
  due : Bool := false
  cover : Option Nat := none
  retried : Bool := false
  lastAddr : Nat := 0
  deriving DecidableEq, Repr

/-- A sack opened and not yet the one being written (R276, R277): the bytes of a run that spilled into it. `opener` is
the round that opens it, once decided. -/
structure OpenSack where
  sack : Nat
  opener : Option Round
  head : Nat
  deriving DecidableEq, Repr

/-- A run issued and not stored: its round, the sack it starts in, and where the write pointer stood after it (R269,
R310). -/
structure Run where
  round : Nat
  start : Nat
  /-- The offset of its round mark in the sack `start`. -/
  mark : Nat
  sack : Nat
  off : Nat
  deriving DecidableEq, Repr

/-- The store of an office (R267 to R311). -/
structure Store where
  /-- Sacks of a copy. -/
  count : Nat := 0
  sacks : Sparse Sack := []
  nextSeq : Nat := 0
  /-- The sack being written, the next byte in it, whether its header is written, and sacks opened ahead of it. -/
  cur : Option Nat := none
  off : Nat := 0
  headed : Bool := false
  ahead : List OpenSack := []
  lastOpened : Option Nat := none
  /-- The next round decided is a resume point (R276). -/
  resume : Bool := true
  /-- Staging: its items, the next address, the first round dropped while rounds are being dropped, whether live
  deliveries wait for a new round, and whether replay is stopped (R295). -/
  staged : List Staged := []
  stageAddr : Nat := 0
  dropFrom : Option Nat := none
  liveArmed : Bool := false
  replayHeld : Bool := false
  /-- Rounds whose run has been issued and is not stored, oldest first. -/
  writing : List Run := []
  newest : Option Nat := none
  pend : List PendWrite := []
  io : Sparse RegionIo := []
  lastDoneAt : Nat := 0
  /-- The loss buffer, oldest first, the next `LSEQ`, and the records appended to the log (R286). -/
  lossBuf : List LossRec := []
  lseq : Nat := 0
  logTail : Nat := 0
  /-- The port has returned to L0 without UIO: UIO regions fail at their next write (R443). -/
  uioLost : Bool := false
  /-- Copies that rejoin at the next opening (R303). -/
  rejoin : Pair Bool := ⟨false, false⟩
  /-- Staging pages excluded, and pages that leave use once they hold no data (R682). -/
  retired : List Nat := []
  /-- The tick of the last pin command, and the sacks that were pinned before it, which an opening of that tick goes by (R291). -/
  pinsBefore : Option (Nat × List Nat) := none
  leaving : List Nat := []
  /-- The postmark at format (R281). -/
  formatted : Postmark := {}
  deriving DecidableEq, Repr

/-- An item of the mirror (R530, R532): number, kind, payload words, and when it was last and first sent. -/
structure MirrorItem where
  mseq : Nat
  kind : Nat
  words : List W64
  sentAt : Nat
  firstAt : Nat
  deriving DecidableEq, Repr

/-! ### An office: triggers and collection (08) -/

/-- A capture under way in the owner (R344 to R348): the parcel of its first fire without samples, the tick of its last
sample, its `TAG`, and the read-out frames received. -/
structure CapJob where
  parcel : Parcel
  endTick : Nat
  tag : Nat
  frames : Sparse (List W16) := []
  deriving DecidableEq, Repr

/-- The sequencer of a tile in the office (R339 to R346): whether it runs, the next tick to evaluate, counters, expiry
ticks of the timers, comparators armed with `EDGE` = 1, sources raised since the previous tick, ticks of its latest fires,
the tick at which the hold-off ends, the tick at which the last capture ended, the capture under way, the number of the
next parcel, and the round plus one of its last notice 0x0604. -/
structure Sequencer where
  running : Bool := false
  tick : Nat := 0
  state : Nat := 0
  c0 : Nat := 0
  c1 : Nat := 0
  t0 : Option Nat := none
  t1 : Option Nat := none
  armed : List Nat := []
  raised : Nat := 0
  fires : List Nat := []
  holdEnd : Nat := 0
  capEnd : Option Nat := none
  job : Option CapJob := none
  pcnum : W16 := 0
  holdNote : Nat := 0
  deriving DecidableEq, Repr

/-- A live frame received (R332): its first tick, D, and its words. -/
structure LiveFrame where
  first : Nat
  dec : Nat
  words : List Nat
  deriving DecidableEq, Repr

/-- The live stream of a tile at the owner: the latest frames, and the first ticks of frames counted as missing (R333). -/
structure LiveRx where
  frames : List LiveFrame := []
  missed : List Nat := []
  deriving DecidableEq, Repr

/-- What a reduction has seen of a block (R352). -/
structure RedBlock where
  n : Nat := 0
  sum : Nat := 0
  min : Option Nat := none
  max : Nat := 0
  overs : Nat := 0
  flags : Nat := 0
  deriving DecidableEq, Repr

/-- A reduction (R352): the next block it will report, the `B` under which that block is numbered, the blocks begun,
records dropped, and the last notice 0x0609. -/
structure Reduction where
  next : Option Nat := none
  b : Nat := 0
  blocks : Sparse RedBlock := []
  drops : Nat := 0
  noticeAt : Option Nat := none
  deriving DecidableEq, Repr

/-- A collection order (R353). -/
structure Order where
  opts : Byte
  tag : W16
  ph : Nat
  firstTick : W64
  lastTick : W64
  districts : BitVec 256
  status : W16
  /-- Orders merged into this one: their tags (R358). -/
  merged : List W16
  /-- The store has left ON since the order was accepted (R355). -/
  aborted : Bool := false
  deriving DecidableEq, Repr

/-- A decoded envelope that waits for what follows of its district round, which sets its `MORE` (R189, R361). -/
structure HeldEnv where
  env : Envelope
  module : Nat
  deriving DecidableEq, Repr

/-- Where a record stands in the order of R359: its round, then its district byte, `SUB` and `PART`, or 2^20 and its tile, and the
`FIRE_TICK` of a parcel. -/
structure RecPos where
  round : Nat
  rank : Nat
  tick : Nat := 0
  deriving DecidableEq, Repr

/-- A running order (R359 to R362): the sacks it located with their `GEN` plus one, those it has still to read, oldest first, the place
of the last record it took, the decoded envelope it holds back, whether its last read failed and how often, streams skipped up to their
next key envelope, sack * 1,024 + stream noted as unreadable, streams whose envelopes are delivered as stored, and the histories of
decoding and of re-encoding by stream. -/
structure RunningOrder where
  order : Order
  gens : Sparse Nat := []
  todo : List Nat := []
  last : Option RecPos := none
  held : Option HeldEnv := none
  tries : Nat := 0
  skip : List Nat := []
  noted : List Nat := []
  through : List Nat := []
  dec : Sparse History := []
  enc : Sparse (Option History) := []
  deriving DecidableEq, Repr

/-! ### An office: pigeonholes (11) -/

/-- A posted buffer the office holds (R447, R448): `used` bytes of it hold closed mailbags. -/
structure Buffer where
  addr : Nat
  len : Nat
  seq : Nat
  cookie : Nat
  used : Nat := 0
  deriving DecidableEq, Repr

/-- The open mailbag (R454 to R458): its kind and source, its offset in the buffer, its length so far with header and
padding, its records, the rounds of the first and the last, and when a record was last added. -/
structure Mailbag where
  kind : Nat
  order : Bool
  tag : W16
  offset : Nat
  size : Nat
  records : Nat
  first : Round
  last : Round
  lastAt : Nat
  deriving DecidableEq, Repr

/-- A record that waits for its pigeonhole (R453), or, with kind 0, a mark at which the open mailbag closes (R456).
`order` and `tag` name a collection order; `dlo` diverts an undelivered envelope (R218); `parcel` marks a parcel. -/
structure PhRecord where
  kind : Nat
  round : Round
  bytes : List Byte
  order : Bool := false
  tag : W16 := 0
  district : Byte := 0
  dlo : Bool := false
  parcel : Bool := false
  /-- The stamp moment of a snapshot record, by the model's ticks (R453). -/
  at_ : Nat := 0
  /-- When it was queued: of two requests of one priority the older goes first (R32). -/
  queuedAt : Nat := 0
  /-- The item of staging that a live delivery reads (R298). -/
  staged : Option Nat := none
  deriving DecidableEq, Repr

/-- The part of a pigeonhole that no register shows: buffers held, the fetch under way, producer and consumer indices in
force, the open mailbag, records that wait, receipts not signalled, whether records were lost since the last mailbag,
and a disable that waits for receipt slots (R452). -/
structure Ph where
  held : List Buffer := []
  fetching : Bool := false
  dprod : W32 := 0
  rcons : W32 := 0
  bag : Option Mailbag := none
  queue : List PhRecord := []
  unsig : Nat := 0
  unsigAt : Nat := 0
  gap : Bool := false
  /-- The last round delivered live, plus one; 0 before the first (R530). -/
  liveRound : Nat := 0
  disabling : Bool := false
  undelivNoticeAt : Option Nat := none
  deriving DecidableEq, Repr

/-- What the owner accumulates over one round for the notices that it raises once: close frames seen, overflowed
districts and letters dropped (R135), corrupt letters (R181), late letters discarded (R131), each by tile; district
rounds and letters lost to a full receive buffer (R179); and district rounds handed over (R180). -/
structure RoundAcc where
  closes : Quad Nat := Quad.all 0
  ovfDistricts : Quad Nat := Quad.all 0
  ovfDropped : Quad Nat := Quad.all 0
  corrupt : Quad Nat := Quad.all 0
  rxDistricts : Nat := 0
  rxLetters : Nat := 0
  handed : Nat := 0
  /-- Letters of each district byte (R643). -/
  letters : Sparse Nat := []
  deriving DecidableEq, Repr

/-- A code-density pass (R114 to R116): the counts `M` by interpolator and `C_k` by interpolator * 16 + k, and the round
it started in. -/
structure CodeDensity where
  m : Sparse Nat := []
  c : Sparse Nat := []
  startRound : Round := 0
  first : Nat := 0
  deriving DecidableEq, Repr

/-! ### An office: NVM, letterbox (12) -/

/-- An image slot of an office's NVM (R487): its bytes, none while it is erased; whether an IMAGE entry was recorded since
its last UPLOAD_BEGIN (R506); the `SVN` with which it verified, if it did (R475). -/
structure ImageSlot where
  data : List Byte := []
  entry : Bool := false
  svn : Option Nat := none
  deriving DecidableEq, Repr

/-- An office's NVM (R487, R494 to R498): the slots, the book header, the 256-byte entries of the volume from index 0,
what stands at the index after the last one (nothing when it is erased), and the bodies by heap offset / 256 with the
bytes the heap has given out. It outlives every reset. -/
structure Nvm where
  slot0 : ImageSlot := {}
  slot1 : ImageSlot := {}
  volume : Nat := 0
  firstSeq : Nat := 0
  prevChain : BitVec 512 := 0
  entries : List (List Byte) := []
  heap : Sparse (List Byte) := []
  heapUse : Nat := 0
  deriving DecidableEq, Repr

/-- The work of a letterbox job (R503). -/
inductive JobWork
  | amend (bytes : List Byte)
  | uploadBegin (slot : Nat) (len : Nat) (meas : BitVec 512)
  | uploadEnd
  | activate (slot : Nat) (trial : Bool)
  | confirm
  deriving DecidableEq, Repr

/-- A letterbox job (R502): its work, and since when it waits for the NVM window (R488). -/
structure LbJob where
  work : JobWork
  waiting : Option Nat := none
  deriving DecidableEq, Repr

/-- An upload under way (R504): its slot, length, expected measurement, and the next offset. -/
structure Upload where
  slot : Nat
  len : Nat
  meas : BitVec 512
  offset : Nat := 0
  deriving DecidableEq, Repr

/-- The letterbox of an office (R500 to R506): the job, what POLL answers of the last one, DOE Error, the upload, and
whether 0x090B has been raised in this volume (R498). -/
structure Letterbox where
  job : Option LbJob := none
  outcome : Option (Nat × Nat) := none
  doeError : Bool := false
  upload : Option Upload := none
  full90 : Bool := false
  deriving DecidableEq, Repr

/-! ### An office: the twin (13) -/

/-- A store pointer item as the relief holds it (R310, R532): sack, offset after the run, `GEN`, `SEQ`, round, loss log
tail and next `LSEQ`. -/
structure PointerItem where
  sack : Nat
  off : Nat
  gen : Nat
  seq : Nat
  round : Nat
  logTail : Nat
  lseq : Nat
  deriving DecidableEq, Repr

/-- A handover at the owner (R545): the round n, the tick P, and whether `ACCEPT` for n has come. -/
structure Release where
  round : Nat
  started : Nat
  accepted : Bool := false
  deriving DecidableEq, Repr

/-- The twin logic of an office (R514 to R547). `appliedAt` when its image was applied; `graceOver`, `seniorElig`,
`seniorOwned` of R529; the latest link heartbeat with its arrival; the last heartbeat word sent; `mayWrite` of R540, when
it gained ownership and by what; `release` and `accept` of a handover; until when it carries `REQUEST`; since when it has
been healthy and eligible, the other office too, and the other reached more tiles; since when it finds no owner, and
whether 0x0A0C has been raised; the mirror receiver: next `MSEQ`, the words of an item under way, whether a frame of it was discarded, the newest pointer,
live positions by pigeonhole (the round plus one, and `PH_RPROD` times 2^49), what is still missing of a resynchronisation (bits 0 time, 1 run state, 2 positions, 3 pointer);
what the owner has last mirrored of time items, run state and positions; the items of entries recorded without a body since
the reset, by `SEQ`, which a resynchronisation sends again (R532, R536); whether
a clear of health faults waits for a self-test cycle, and passing rounds of the cycle; the words of the last run state
item received; the peer's term for which a dual claim has been resolved. -/
structure Twin where
  appliedAt : Option Nat := none
  graceOver : Bool := false
  seniorElig : Bool := false
  seniorOwned : Bool := false
  hbWord : W64 := 0
  hbAt : Option Nat := none
  sentWord : Option W64 := none
  mayWrite : Bool := false
  gainAt : Nat := 0
  gainKind : Nat := 0
  release : Option Release := none
  accept : Option Nat := none
  requestUntil : Option Nat := none
  eligSince : Option Nat := none
  peerEligSince : Option Nat := none
  reachSince : Option Nat := none
  noOwnerSince : Option Nat := none
  noOwnerNoted : Bool := false
  rxNext : Nat := 0
  rxWords : List W64 := []
  rxBroken : Bool := false
  pointer : Option PointerItem := none
  positions : Sparse Nat := []
  missing : Nat := 0
  sentTime : List W64 := []
  sentRun : List W64 := []
  sentPositions : Sparse Nat := []
  volItems : Sparse (List Byte) := []
  clearing : Bool := false
  passed : Nat := 0
  run : List Nat := []
  dualTerm : Option Nat := none
  deriving DecidableEq, Repr

/-! ### An office: auxiliary inputs, thermal model, sequences (15, 17, 18) -/

/-- An edge stamp of the interval unit: raw and corrected sub-bins (R599, R601). -/
structure AuxStamp where
  raw : Int
  t : Int
  tick : Nat
  deriving DecidableEq, Repr

/-- The auxiliary timing inputs of an office (R599 to R604): by input, the corrected stamps of accepted edges, newest
first, with the tick of each; by input * 2 + slope, the tick of the last edge accepted by the meter and by the interval
unit; edges of the interval unit that wait for the 16-tick window, the pending start, queued results (interval and SUB_BIN),
results lost since the last 0x0C06 and when it was raised; when each meter was last updated. -/
structure Aux where
  edges : Pair (List (Nat × Int)) := ⟨[], []⟩
  last : Sparse Nat := []
  ivlLast : Sparse Nat := []
  ivlWait : List (Bool × AuxStamp) := []
  ivlStart : Option AuxStamp := none
  fifo : List (Nat × Bool) := []
  lost : Nat := 0
  lostAt : Option Nat := none
  updAt : Pair Nat := ⟨0, 0⟩
  deriving DecidableEq, Repr

/-- A sensor of the thermal model (R645): updates out of tolerance in a row, and updates passed since a write of
`READMIT`, where one waits. -/
structure SensorState where
  bad : Nat := 0
  good : Option Nat := none
  deriving DecidableEq, Repr

/-- The thermal model of an office (R643 to R649): node temperatures in °C, exact; updates since the gain, and when the last one
was; sensors; the sensors excluded; updates in a row at or above `T_STOP`; when the hot set was last sent; whether an `ACK` waits
for the next update. -/
structure Thermal where
  temps : Sparse Rat := []
  updates : Nat := 0
  lastAt : Nat := 0
  sensors : Sparse SensorState := []
  excluded : List Nat := []
  stopRun : Nat := 0
  hotAt : Nat := 0
  ack : Bool := false
  deriving DecidableEq, Repr

/-- A calibration sequence (R670, R671): its slot, the round at which it starts, whether it has, the strobes each tile has
had, whether a code-density pass has ended in it. -/
structure CalRun where
  slot : Nat
  fromRound : Nat
  running : Bool := false
  fired : Quad Nat := Quad.all 0
  passEnded : Bool := false
  deriving DecidableEq, Repr

/-! ### An office as a whole -/

/-- An office. Registers that no sequence below duplicates live in `regs`: every field of the register tables, status
fields and counters included, keyed by `Fld.key`, each entry holding the value XOR the field's reset value. -/
structure Office where
  inReset : Bool := false
  count : W64 := 0
  /-- R25: when the check word differed; the count is reloaded at the next boundary. -/
  reload : Option Nat := none
  /-- Rounds of tiles, as tile and round, whose letters the owner discards, and how many there were (R26). -/
  tickBad : List (Nat × Nat) := []
  tickLost : Nat := 0
  /-- The tick at which the office last left reset (R668). -/
  leftResetAt : Nat := 0
  regs : Sparse Nat := []
  /-- Events counted in the running tick by the counter's key, and W1C bits that an event of it set (R10, R14). -/
  fresh : Sparse Nat := []
  /-- R6: the values latched by reads of low registers, by the offset of the register that reads as them, and at 2^32 plus it the
  mark of poisoned data. -/
  latch : Sparse Nat := []
  /-- R7: low halves written and not committed. DESIGN CHOICE: one for each office also where the pair lies on the service die, as the
  latch above (log entry 80). -/
  lowHeld : Sparse Nat := []
  /-- The FIFOs to and from the PCIe island (R21, R154). -/
  pcieRx : Fifo := {}
  pcieTx : Fifo := {}
  /-- `Max_Payload_Size` and `Max_Read_Request_Size` of configuration space, in bytes (R429; log entry 83). -/
  mps : Nat := 128
  mrrs : Nat := 512
  /-- Arrays of R676, keyed `array * 2^32 + word`: data, and syndromes (stored check byte XOR the data's). -/
  arr : Sparse Nat := []
  syn : Sparse Nat := []
  /-- Retired pages: page of array 0x0, or 2^20 + spare, to the spare that replaces it (R682). -/
  spareOf : Sparse Nat := []
  /-- The automatic mask flags `AM` of channels, one for set (R204). -/
  am : Sparse Nat := []
  /-- Words whose once-only notice has been raised (R112, R208, R256), and the last 256 words of R206. -/
  noticed : List Nat := []
  poisonRecent : List Nat := []
  /-- Distinct uncorrectable words and the other events of the running escalation window (R684, R685). -/
  ueWindow : List Nat := []
  resDrops : Nat := 0
  resRetries : Nat := 0
  vFails : Nat := 0
  /-- When 0x0120 was last raised for a cluster, plus one, and the clusters for which 0x0121 stands (R91); the key is
  tile * 16,384 + cluster. -/
  dllNoticeAt : Sparse Nat := []
  dllNoted : List Nat := []
  /-- The step whose residue prediction the next letter's first computation gets wrong (R113). -/
  resInj : Option Nat := none
  cd : CodeDensity := {}
  imageApplied : Bool := false
  /-- The function is in D3hot (R434); MSI-X is enabled in configuration space. -/
  d3hot : Bool := false
  msixOn : Bool := false
  pendMode : Option PendingMode := none
  /-- A cause for which the owner enters Held, and the round boundary at which it does (R664); the tick at which QUIET is sent
  (R666); a mode change whose notice 0x0810 is due in the next tick: old mode, new mode, `HELD_CAUSE` and effective tick
  (R663). -/
  toHeld : Option (Nat × Nat) := none
  quietAt : Option Nat := none
  modeNote : Option (Nat × Nat × Nat × Nat) := none
  /-- The error log of R674, newest first, and the notice buffer of R463, oldest first. -/
  log : List Notice := []
  held : List Notice := []
  /-- Notices in the open mailbag of pigeonhole 1, whose receipt is not written (R715). -/
  sentNotices : List Notice := []
  /-- Notices lost since the last notice 0x0806 (R463). -/
  noticesLost : Nat := 0
  /-- Lanes: tile * 12 + 0 to 7 letter lanes, 8 to 10 sum lanes; 48 to 51 the lanes of the inter-office link. -/
  lanes : Sparse Lane := []
  /-- `SEQ` of the next configuration frame to each tile, and the last 128 frames by tile * 256 + `SEQ` (R165). -/
  dlSeq : Sparse Nat := []
  dlKept : Sparse (List W64) := []
  /-- By tile: configuration commands that wait (R163), when the downlink can take the next configuration frame, and the `SEQ` plus
  one from which frames go out again after a NAK (R165). -/
  cfgTx : Sparse (List W64) := []
  cfgFree : Sparse Nat := []
  cfgResend : Sparse Nat := []
  /-- Runtime states that the owner has sent the tiles, which read-back treats as expected (R67): throttle overrides by tile * 64 +
  district, and the tiles in QUIET (R647). -/
  thrSent : Sparse Nat := []
  quietSent : List Nat := []
  /-- Newest liveness word of each tile with its arrival, and when its last status frame came (R522). -/
  liveness : Quad (Option (Nat × W32)) := Quad.all none
  statusAt : Quad (Option Nat) := Quad.all none
  /-- District rounds collected, by round * 256 + district byte. -/
  rounds : Sparse DRound := []
  /-- The rounds merged, oldest first: from a round on, up to one that is no longer merged (R173, R663); the round from which
  each mode holds, newest first. -/
  spans : List (Nat × Option Nat) := []
  modeFrom : List (Nat × Mode) := []
  /-- The next district round to hand to compression, as round * 256 + district byte (R180). -/
  nextKey : Nat := 0
  /-- What the owner counts for a round's notices. -/
  roundAcc : Sparse RoundAcc := []
  /-- Notices raised once per tile and round, by round * 4 + tile: bit 0 notice 0x0203 (R135), bit 1 0x0205 (R131). -/
  roundNotes : Sparse Nat := []
  mrg : Merging := {}
  cmp : Compression := {}
  cal : CalSvc := {}
  /-- Sequencers and the live streams of the tiles, reductions by tile * 4 + number, the latest ticks at which an emitter
  flash fell, and parcels formed and not yet handed to compression (R339, R350, R352). -/
  seqs : Quad Sequencer := Quad.all {}
  live : Quad LiveRx := Quad.all {}
  reds : Sparse Reduction := []
  flashTicks : List Nat := []
  parcels : List Parcel := []
  /-- Pigeonholes, and when notice 0x0809 was last raised (R453). -/
  phs : Sparse Ph := []
  dloNoticeAt : Option Nat := none
  sto : Store := {}
  /-- Collection orders that wait, oldest first, and the four run slots (R354, R359). -/
  orders : List Order := []
  /-- Extraction units at work: the slot and the stream of each, and the tick at which its letters are done (R426). -/
  units : List (Nat × Nat × Nat) := []
  running : Sparse (Option RunningOrder) := []
  /-- The owner's side of the mirror: the next `MSEQ` and the items not acknowledged (R532, R534). -/
  mseq : Nat := 0
  unacked : List MirrorItem := []
  nvm : Nvm := {}
  lb : Letterbox := {}
  twin : Twin := {}
  aux : Aux := {}
  thm : Thermal := {}
  calRun : Option CalRun := none
  /-- A retirement whose entry waits for the NVM window: the value of `ERR_PAGE_CMD`, and since when (R488, R682). -/
  pageWait : Option (Nat × Nat) := none
  /-- When the running escalation window began (R684), and when the last configuration word of R668 was sent. -/
  escAt : Nat := 0
  loadedAt : Option Nat := none
  /-- Link frames discarded, which R531 counts in a register that has no offset (log entry 58). -/
  linkCrc : W32 := 0
  /-- Letters of each district byte in the last merged round (R643). -/
  districtLetters : Sparse Nat := []
  deriving DecidableEq, Repr

end Sys2Proof.Machine
end

