-- ==== Sys2Proof/Machine/ServiceState.lean ====
section
/-! DEFINITION. What the service die holds (09, 14 to 17). All of it is plain data. -/

namespace Sys2Proof.Machine

/-- A servo epoch (R374, R377): its boundary, the postmark there and the increment. -/
structure Epoch where
  tick : Nat
  pm : Postmark
  inc : Nat
  deriving DecidableEq, Repr

/-- The servo of the head and the start of the time base (R379 to R389). `incI` is the integral; `incNext` an increment
not yet in force and the first tick from which it may be; `armed` a start that waits for a PPSIN edge; `due` the postmark
of tick 0 of a start pulse that is due, its state and the tick of the pulse; `run` the consecutive accepted edges that
count towards LOCKED; `bound` the LOCKED bound in ps; `holdAt` when HOLDOVER began; `clamped` that notice 0x0709 stands
for the running episode. -/
structure Servo where
  incI : Nat := 0xAAAAAAAB
  incNext : Option (Nat × Nat) := none
  armed : Bool := false
  due : Option (Postmark × Nat × Nat) := none
  run : Nat := 0
  edgeAt : Option Nat := none
  bound : Nat := 0
  holdAt : Nat := 0
  clamped : Bool := false
  deriving DecidableEq, Repr

/-- TODIN (R385, R386): the TAI second of the next PPSIN edge by the last valid message, whether the message before was
valid too and names the second before, whether a message came since the last accepted edge or its absence has been counted, wrong
messages in a row, the source bound, and the correction of the edge in ps. -/
structure Tod where
  next : Option Nat := none
  lastSec : Option Nat := none
  run : Nat := 0
  seen : Bool := false
  wrong : Nat := 0
  tod : Bool := false
  acc : Nat := 255
  corr : Int := 0
  deriving DecidableEq, Repr

/-- A ring frame to be sent; `own` tells that the module originates it (R395). -/
structure TxFrame where
  hdr : W32
  words : List W32
  own : Bool
  deriving DecidableEq, Repr

/-- A ring port (R390, R396, R399): since when it is in its state, the link delay in 2^-16 tick with the sum and number
of its first samples, the `SEQ` and stamp of the last PDREQ, and the offset in 2^-10 tick of the newest SYNC frame with
its `ORIGIN_TICK`, hops and arrival; the transmitter: the frame being sent and the tick in which it ends, the frame that a SYNC frame
suspended with the ticks left of it, and those that wait, in the order in which they go (R395). -/
structure RPort where
  since : Nat := 0
  samples : Nat := 0
  sum : Int := 0
  delay : Int := 0
  pdSeq : Nat := 0
  t1 : Option Nat := none
  pdAt : Option Nat := none
  ofs : Int := 0
  syncTick : Option Nat := none
  hops : Nat := 0
  syncAt : Option Nat := none
  sending : Option (TxFrame × Nat) := none
  parked : Option (TxFrame × Nat) := none
  waiting : List TxFrame := []
  deriving DecidableEq, Repr

/-- A broadcast that a module holds: its origin, `SEQ`, `OP`, `TICK` and argument bytes (R405, R407). -/
structure Bcast where
  origin : Nat
  seq : Nat
  op : Nat
  tick : Nat
  arg : List Byte
  deriving DecidableEq, Repr

/-- The ring (R390 to R411): the bypass open; ports W and E; broadcasts acted on, newest first; scheduled operations
held; TRIGGER and ORDER broadcasts that wait; `SEQ` of the next broadcast, SYNC and barrier; when the last SYNC frame and
the last wrapped frame came; whether the count has come from the ring (R381), and whether the start pulse waits for an
epoch boundary; what happened since the last barrier (status bits 2 and 3); the running barrier, the last one seen; and
when 0x0705 was last raised. -/
structure Ring where
  open_ : Bool := false
  w : RPort := {}
  e : RPort := {}
  seen : List (Nat × Nat) := []
  sched : List Bcast := []
  arrived : List Bcast := []
  seq : Nat := 0
  syncSeq : Nat := 0
  bid : Nat := 0
  syncAt : Option Nat := none
  wrapAt : Nat := 0
  loaded : Bool := false
  startPending : Bool := false
  phaseOk : Bool := false
  timed : Bool := false
  missed : Bool := false
  epochFixed : Bool := false
  barAt : Nat := 0
  lastBid : Option Nat := none
  disagreeAt : Option Nat := none
  /-- The head's `ERR` as a SYNC or EPOCH last brought it (R389), and the INC of the SYNC frame that the count was loaded from, in force
  from the start pulse on (R374, R381). -/
  headErr : Nat := 255
  loadInc : Nat := 0xAAAAAAAB
  deriving DecidableEq, Repr

/-! ### Fuses, bias loops, environment, status loop, emitters, power (12, 14 to 17) -/

/-- An owner key slot (R473). -/
structure KeySlot where
  digest : BitVec 512 := 0
  prog : Bool := false
  revoked : Bool := false
  deriving DecidableEq, Repr

/-- The security fuses (R473, R474): four key slots and the security version bits. -/
structure Fuses where
  slots : Quad KeySlot := ⟨{ prog := true }, {}, {}, {}⟩
  svn : W64 := 0
  deriving DecidableEq, Repr

/-- A write that waits for a sample period (R560, R561): its register, 0 `LOOP_CMD`, 1 `LOOP_SETPOINT`, 2 `LOOP_MAN_V`, its
value, and when it was received. -/
structure BiasWrite where
  kind : Nat
  value : Nat
  at_ : Nat
  deriving DecidableEq, Repr

/-- The states of a second-order section (R569). -/
structure BqState where
  x1 : Int := 0
  x2 : Int := 0
  v1 : Int := 0
  v2 : Int := 0
  deriving DecidableEq, Repr

/-- A bias loop (R562 to R580). `r` in 2^-36 V; `u`, `uI`, `y` in 2^-20 V; `entered` until the first AUTO period has run;
`zeroSince` since when a stop's ramp output is 0; `trip` a stop at `RAMP_TRIP`. Feedback: periods stale and frozen in a row,
the last code, the last valid y, episodes noted (bits 0 stale, 1 frozen, 2 regulator). Repetitive controller: the phase, the
latest frequency in µHz with its arrival, its last output, and the phase before the last sample period. Electrometer:
the sample before in mV, whether the reset switch closes before the next sample, the gate's sum of differences in mV, how
many there are and how many were left out, the sum of y, periods, r at its start, whether a sample overran, whether the
gate is discarded; whether a failing run has reached `PL_N` and no PASS has come since, and whether 0x0B0A stands. `cfgBusy` of
R563. -/
structure BiasLoop where
  r : Int := 0
  u : Int := 0
  uI : Int := 0
  y : Int := 0
  sects : List BqState := []
  entered : Bool := false
  zeroSince : Option Nat := none
  trip : Bool := false
  writes : List BiasWrite := []
  stale : Nat := 0
  frozen : Nat := 0
  lastCode : Option Nat := none
  lastValidY : Int := 0
  noted : Nat := 0
  cfgBusy : Bool := false
  phi : Nat := 0
  phiAt : Nat := 0
  freq : Option Nat := none
  freqAt : Option Nat := none
  repOut : Int := 0
  elecLast : Option Nat := none
  elecReset : Bool := false
  dSum : Int := 0
  dNum : Nat := 0
  dSkip : Nat := 0
  ySum : Int := 0
  yNum : Nat := 0
  rStart : Int := 0
  overrun : Bool := false
  overNoted : Bool := false
  discard : Bool := false
  plausRun : Bool := false
  skipNoted : Bool := false
  deriving DecidableEq, Repr

/-- An environment point: scans its pair was out of tolerance or within it in a row, whether `DISAGREE` holds, and whether
it has a result of the scan under way, and any at all since it was enabled (R597, R598). -/
structure EnvPoint where
  out : Nat := 0
  within : Nat := 0
  disagree : Bool := false
  fresh : Bool := false
  had : Bool := false
  deriving DecidableEq, Repr

/-- The housekeeping converter (R587 to R598): the channel of the cycle under way, whether its phase is the reverse one,
samples still to discard, samples summed, their sum, the forward sum, flags gathered, restarts, whether a swap waits;
whether the scan's reference and ground were good, and whether 0x0C04 stands; the points; channels 30 and 31 as R609 has
seen them. -/
structure EnvScan where
  chan : Nat := 12
  reverse : Bool := false
  skip : Nat := 1
  num : Nat := 0
  sum : Int := 0
  fwd : Int := 0
  ovr : Bool := false
  open_ : Bool := false
  restarts : Nat := 0
  checkNoted : Bool := false
  points : Sparse EnvPoint := []
  slRun : Nat := 0
  deriving DecidableEq, Repr

/-- The status current loop (R605 to R609): whether the owner has configured it, causes active since the last evaluation,
since when no masked cause has been active, until when a force lasts. -/
structure StatusLoop where
  configured : Bool := false
  latched : Nat := 0
  clearSince : Option Nat := none
  forceUntil : Option Nat := none
  deriving DecidableEq, Repr

/-- A flash sequence under way (R621): its index, `F0`, the flashes begun, and its source: 0 host, 1 FLASH_SYNC, 2
broadcast. -/
structure FlashRun where
  seq : Nat
  f0 : Nat
  num : Nat := 0
  source : Nat
  deriving DecidableEq, Repr

/-- A flash under way (R618): its report, the widths of its pulses, the tick it ends, the emitters that carry no current and
the rows that stay at their limit. -/
structure Flash where
  report : FlashReport
  widths : List Nat
  ends : Nat
  noCurrent : List Byte
  overCurrent : W16
  deriving DecidableEq, Repr

/-- The emitter driver (R617 to R627): the sequence, the flash under way, when a swap of buffers that waits was written; by
emitter, when its last verification pulse was plus one, verification pulses in a row without (or, when OPEN,
with) current, and emitters for which 0x0D02 has been raised. -/
structure Emitter where
  run : Option FlashRun := none
  flash : Option Flash := none
  swap : Option Nat := none
  verAt : Sparse Nat := []
  verRun : Sparse Nat := []
  verNoted : List Nat := []
  deriving DecidableEq, Repr

/-- Supply and trips (R639 to R651): VIN is above the start level; rails that are good, as a mask with VSVC in bit 8; the step
of the power-up sequence under way, if one runs, and by office the step of its own restart, 0 core and 1 I/O; whether the
synthesiser has locked; whether the converter has stopped for over-voltage; the last fault of each office's rails; whether tile
rails are off after a fault; whether a trip is latched, whether its notice is still due, and whether the sequence waits for the
diodes; whether RESET_N is low; when the throttle level last changed. -/
structure Power where
  started : Bool := true
  on : Nat := 0x1FF
  next : Option Nat := none
  officeStep : Pair (Option Nat) := ⟨none, none⟩
  locked : Bool := false
  ovr : Bool := false
  faultAt : Pair (Option Nat) := ⟨none, none⟩
  tileFault : Bool := false
  tripped : Bool := false
  tripDue : Bool := false
  waiting : Bool := false
  resetHeld : Bool := false
  levelAt : Option Nat := none
  deriving DecidableEq, Repr

/-- The service die. -/
structure ServiceDie where
  inReset : Bool := false
  count : W64 := 0
  /-- `SORT_CTL.ROUND_SHIFT` in force on every die (R2, R220). -/
  roundShift : Nat := 16
  /-- The model tick and the count of the last round boundary handled (R25). -/
  boundaryAt : Option (Nat × Nat) := none
  regs : Sparse Nat := []
  /-- The FIFOs of the ring-receive islands (R21, R23): 0 port E, 1 port W. -/
  fifos : Sparse Fifo := []
  /-- Events counted in the running tick by the counter's key, and W1C bits that an event of it set (R10, R14). -/
  fresh : Sparse Nat := []
  /-- The latest 64 epochs, newest first; none before the time base starts (R711). -/
  epochs : List Epoch := []
  servo : Servo := {}
  tod : Tod := {}
  ring : Ring := {}
  fuses : Fuses := {}
  loops : Pair BiasLoop := ⟨{}, {}⟩
  env : EnvScan := {}
  sl : StatusLoop := {}
  emt : Emitter := {}
  pwr : Power := {}
  /-- The instruction of the test port (R701). -/
  jtag : JtagIr := .idcode
  deriving DecidableEq, Repr

end Sys2Proof.Machine
end

