-- ==== Sys2Proof/Machine/State.lean ====
section
/-! DEFINITION. The state of the UX1024: the service die, four tiles, two offices, and the queue of commands that
wait. All of it is plain data. -/

namespace Sys2Proof.Machine

/-- The faults of the model. No meaning raises one: the block stops nowhere by itself, its errors are notices,
counters and refused requests, all next states. -/
inductive Fault
  /-- Never raised: kept so that the type has a name to list. Safe. -/
  | none
  deriving DecidableEq, Repr

/-- The refusals of the model. -/
inductive Refusal
  /-- A command whose meaning is not written yet; raised by an arm of `exec` only. Safe. -/
  | notModelled (mnemonic : String)
  deriving DecidableEq, Repr

/-- The module. -/
structure State where
  /-- Commands that wait, first in, first out. -/
  pending : List Instr
  /-- The model's own tick counter, by which intervals are measured. -/
  now : Nat
  /-- The model's own counter for free values (log entry 3). -/
  free : Nat
  svc : ServiceDie
  tiles : Quad Tile
  offices : Pair Office
  /-- What has left a die or a port, newest first. -/
  out : List Emission
  deriving DecidableEq, Repr

/-- The state right after reset. -/
def State.reset : State :=
  { pending := [], now := 0, free := 0, svc := {}, tiles := Quad.all {}, offices := ⟨{}, { regs := [(F.GLB_WHO_OFFICE.key 0 0, 1)] }⟩, out := [] }

end Sys2Proof.Machine
end

