-- ==== Sys2Proof/Machine/Ops.lean ====
section
/-! DEFINITION. The named operations over the state: dies, registers, counters, notices, emissions, and the arrays of
R676 with their error policy. -/

namespace Sys2Proof.Machine

/-- What a meaning answers. -/
abbrev Out := Host.Outcome State Fault Refusal

/-! ### Dies -/

/-- The office `o`. -/
def State.off (s : State) (o : OfficeId) : Office := s.offices.get o

/-- Changes office `o`. -/
def State.modOff (s : State) (o : OfficeId) (f : Office → Office) : State :=
  { s with offices := s.offices.set o (f (s.off o)) }

/-- The tile `t`. -/
def State.tile (s : State) (t : Fin 4) : Tile := s.tiles.get t

/-- Changes tile `t`. -/
def State.modTile (s : State) (t : Fin 4) (f : Tile → Tile) : State :=
  { s with tiles := s.tiles.set t (f (s.tile t)) }

/-- Changes the service die. -/
def State.modSvc (s : State) (f : ServiceDie → ServiceDie) : State := { s with svc := f s.svc }

/-- Sends something out of a die or a port. -/
def State.emit (s : State) (e : Emission) : State := { s with out := e :: s.out }

/-- Draws a free value below `2 ^ w` (log entry 3). -/
def State.draw (s : State) (w : Nat) : Nat × State :=
  (Config.freeValue s.free % 2 ^ w, { s with free := s.free + 1 })

/-- The other office. -/
def otherOffice : OfficeId → OfficeId
  | .A => .B
  | .B => .A

/-- 0 for A and 1 for B (`GLB_WHO.OFFICE`, R686). -/
def officeBit : OfficeId → Nat
  | .A => 0
  | .B => 1

/-! ### Registers -/

/-- A field of a register file. -/
def regGet (m : Sparse Nat) (f : Fld) (i j : Nat) : Nat := Sparse.get 0 m (f.key i j) ^^^ f.reset

/-- Writes a field of a register file, cut to the field's width. -/
def regSet (m : Sparse Nat) (f : Fld) (i j v : Nat) : Sparse Nat :=
  Sparse.set 0 m (f.key i j) ((v % 2 ^ f.w) ^^^ f.reset)

/-- The value of a field as office `o` holds it; a service die field is one for both offices. -/
def State.rd (s : State) (o : OfficeId) (f : Fld) (i : Nat := 0) (j : Nat := 0) : Nat :=
  if f.svc then regGet s.svc.regs f i j else regGet (s.off o).regs f i j

/-- Sets a field. -/
def State.wr (s : State) (o : OfficeId) (f : Fld) (v : Nat) (i : Nat := 0) (j : Nat := 0) : State :=
  if f.svc then s.modSvc fun d => { d with regs := regSet d.regs f i j v }
  else s.modOff o fun d => { d with regs := regSet d.regs f i j v }

/-- A field of the service die. -/
def State.srd (s : State) (f : Fld) (i : Nat := 0) (j : Nat := 0) : Nat := regGet s.svc.regs f i j

/-- Sets a field of the service die. -/
def State.swr (s : State) (f : Fld) (v : Nat) (i : Nat := 0) (j : Nat := 0) : State :=
  s.modSvc fun d => { d with regs := regSet d.regs f i j v }

/-- A field as a flag. -/
def State.flag (s : State) (o : OfficeId) (f : Fld) (i : Nat := 0) (j : Nat := 0) : Bool := s.rd o f i j ≠ 0

/-- Sets a pair of a low and a high field. -/
def State.wrPair (s : State) (o : OfficeId) (lo hi : Fld) (v : Nat) (i : Nat := 0) : State :=
  (s.wr o lo v i).wr o hi (v / 2 ^ lo.w) i

/-- A pair of a low and a high field. -/
def State.rdPair (s : State) (o : OfficeId) (lo hi : Fld) (i : Nat := 0) : Nat :=
  s.rd o lo i + s.rd o hi i * 2 ^ lo.w

/-! ### Roles, modes, time -/

/-- The role of an office (`TWN_STAT.ROLE`, R514, R551). -/
def State.role (s : State) (o : OfficeId) : Role :=
  match s.rd o F.TWN_STAT_ROLE with
  | 0 => .owner
  | 1 => .relief
  | _ => .neither

/-- Whether an office owns. -/
def State.owns (s : State) (o : OfficeId) : Bool := s.role o = .owner

/-- The owner, if an office owns. -/
def State.owner (s : State) : Option OfficeId :=
  if s.owns .A then some .A else if s.owns .B then some .B else none

/-- The mode of an office (`GLB_MODE.MODE`, R656, R657). -/
def State.mode (s : State) (o : OfficeId) : Mode := (Mode.ofCode (s.rd o F.GLB_MODE_MODE)).getD .loading

/-- Sets the mode of an office. -/
def State.setMode (s : State) (o : OfficeId) (m : Mode) : State := s.wr o F.GLB_MODE_MODE m.code

/-- The owner, or the office that runs and answers where none owns (log entry 8). -/
def State.speaker (s : State) : OfficeId :=
  match s.owner with
  | some o => o
  | none => if (s.off .A).inReset then .B else .A

/-- The round number of a tick count (R2). -/
def State.roundOf (s : State) (c : W64) : Round := BitVec.ofNat 48 (c.toNat / 2 ^ s.svc.roundShift)

/-- The first tick of a round. -/
def State.roundStart (s : State) (r : Round) : W64 := BitVec.ofNat 64 (r.toNat * 2 ^ s.svc.roundShift)

/-- Round `a` is `b` or earlier; `a` is earlier than `b` (R11, 48 bits). -/
def roundLe (a b : Nat) : Bool := !later (BitVec.ofNat 48 a) (BitVec.ofNat 48 b)
def roundLt (a b : Nat) : Bool := later (BitVec.ofNat 48 b) (BitVec.ofNat 48 a)

/-- The same of tick counts (R11, 64 bits). -/
def tickLe (a b : Nat) : Bool := !later (BitVec.ofNat 64 a) (BitVec.ofNat 64 b)
def tickLt (a b : Nat) : Bool := later (BitVec.ofNat 64 b) (BitVec.ofNat 64 a)

/-- District rounds, as round * 256 + district byte: the round counts first, and wraps (R11, R15). -/
def keyLt (a b : Nat) : Bool := later (BitVec.ofNat 56 b) (BitVec.ofNat 56 a)

/-- The round after `r`, and the one `n` before it (R15). -/
def nextRound (r : Nat) : Nat := (r + 1) % 2 ^ 48
def roundBack (r n : Nat) : Nat := (r + 2 ^ 48 - n) % 2 ^ 48

/-- The ticks that `us` microseconds last (R1). -/
def ticksOfUs (us : Nat) : Nat := us * 1500

/-! ### Notices (R463, R672 to R674) -/

/-- The notice an office would raise now. -/
def State.mkNotice (s : State) (o : OfficeId) (code : Nat) (payload : List Byte) : Notice :=
  { code := BitVec.ofNat 16 code
    flags := BitVec.ofNat 8 (officeBit o + 2 * b2n (s.owns o) + 4 * b2n (s.srd F.TB_STAT_STARTED = 0))
    tick := (s.off o).count
    nseq := BitVec.ofNat 16 (s.rd o F.ERR_LOG_HEAD_NSEQ)
    payload := payload.take 18 }

/-- Writes a notice to the error log (R674). -/
def State.logNotice (s : State) (o : OfficeId) (n : Notice) : State :=
  (s.modOff o fun d => { d with log := (n :: d.log).take 256 }).wr o F.ERR_LOG_HEAD_NSEQ (n.nseq.toNat + 1)

/-- Holds a notice for pigeonhole 1, or loses it when 1,024 wait (R463). -/
def State.holdNotice (s : State) (o : OfficeId) (n : Notice) : State :=
  if (s.off o).held.length < 1024 then
    (s.modOff o fun d => { d with held := d.held ++ [n] }).wr o F.PH_NOTICE_STAT_HELD ((s.off o).held.length + 1)
  else
    (s.modOff o fun d => { d with noticesLost := d.noticesLost + 1 }).wr o F.PH_CNT_NOTICELOST_COUNT
      (min (s.rd o F.PH_CNT_NOTICELOST_COUNT + 1) 0xFFFFFFFF)

/-- Raises a notice whose number is drawn at once. -/
def State.raiseOne (s : State) (o : OfficeId) (code : Nat) (payload : List Byte) : State :=
  let n := s.mkNotice o code payload
  (s.logNotice o n).holdNotice o n

/-- Raises a notice on an office that is not in reset. When notices were lost and space has returned, notice 0x0806
with the number lost comes first (R463). -/
def State.raise (s : State) (o : OfficeId) (code : Nat) (payload : List Byte) : State :=
  if (s.off o).inReset then s
  else
    let lost := (s.off o).noticesLost
    if lost ≠ 0 ∧ (s.off o).held.length < 1024 then
      ((s.modOff o fun d => { d with noticesLost := 0 }).raiseOne o 0x0806 (le 4 lost)).raiseOne o code payload
    else s.raiseOne o code payload

/-- Raises a notice of the service die: by the owner, else by every office that is not in reset (log entry 8). -/
def State.raiseSvc (s : State) (code : Nat) (payload : List Byte) : State :=
  match s.owner with
  | some o => s.raise o code payload
  | none => (s.raise .A code payload).raise .B code payload

/-! ### Counters (R13, R14, R78) -/

/-- The notice of a counter that has reached all ones, by its block: code and payload. -/
def fullNotice (addr i : Nat) : Nat × List Byte :=
  if addr < 0x0200000 then (0x070F, le 4 addr)
  else if addr < 0x0300000 then (0x070F, le 4 addr)
  else if addr < 0x0300100 then (0x0303, le 4 addr)
  else if addr < 0x0300300 then (0x0101, le 1 i ++ le 4 addr)
  else if addr < 0x0300400 then (0x0303, le 4 addr)
  else if addr < 0x0300500 then (0x0207, le 1 i ++ le 4 addr)
  else if addr < 0x0400000 then (0x0303, le 4 addr)
  else if addr < 0x0500000 then (0x0405, le 4 addr)
  else if addr < 0x0600000 then (0x050C, le 4 addr)
  else if addr < 0x0700000 then (0x0608, le 4 addr)
  else if addr < 0x0800000 then (0x080A, le 4 addr)
  else if addr < 0x0900000 then (0x0912, le 4 addr)
  else if addr < 0x0A00000 then (0x0A0E, le 4 addr)
  else if addr < 0x0A04000 then (0x0B0F, le 1 i ++ le 4 addr)
  else if addr < 0x0A06000 then (0x0C09, le 4 addr)
  else if addr < 0x0B00000 then (0x0D14, le 4 addr)
  else if addr < 0x0C00000 then (0x0E0F, le 4 addr)
  else (0x0F2F, le 4 addr)

/-- Remembers `n` events of the running tick at a field, which a clear in the same tick leaves (R10, R14; the tick is the clock
cycle of these rules, log entry 79). -/
def State.noteEvents (s : State) (o : OfficeId) (f : Fld) (n : Nat) (i : Nat := 0) (j : Nat := 0) : State :=
  if f.svc then s.modSvc fun d => { d with fresh := Sparse.update 0 d.fresh (f.key i j) (· + n) }
  else s.modOff o fun d => { d with fresh := Sparse.update 0 d.fresh (f.key i j) (· + n) }

/-- The events of the running tick at a field. -/
def State.eventsNow (s : State) (o : OfficeId) (f : Fld) (i : Nat := 0) (j : Nat := 0) : Nat :=
  Sparse.get 0 (if f.svc then s.svc.fresh else (s.off o).fresh) (f.key i j)

/-- Clears a counter: it holds the events of the running tick afterwards (R14). -/
def State.clearCounter (s : State) (o : OfficeId) (f : Fld) (i : Nat := 0) (j : Nat := 0) : State :=
  s.wr o f (min (s.eventsNow o f i j) (2 ^ f.w - 1)) i j

/-- Hardware sets a W1C bit: it stands over a clear of the same tick (R10). -/
def State.setEvent (s : State) (o : OfficeId) (f : Fld) : State := (s.wr o f 1).noteEvents o f 1

/-- Adds `n` events to an event counter, which saturates (R13); reaching all ones raises its notice (R78). -/
def State.countBy (s : State) (o : OfficeId) (f : Fld) (n : Nat) (i : Nat := 0) (j : Nat := 0) : State :=
  let old := s.rd o f i j
  let top := 2 ^ f.w - 1
  let new := min (old + n) top
  let s' := (s.wr o f new i j).noteEvents o f n i j
  if old < top ∧ new = top then
    let nt := fullNotice (f.addr i j) i
    if f.svc then s'.raiseSvc nt.1 nt.2 else s'.raise o nt.1 nt.2
  else s'

/-- Counts one event. -/
def State.countUp (s : State) (o : OfficeId) (f : Fld) (i : Nat := 0) (j : Nat := 0) : State := s.countBy o f 1 i j

/-- Adds to a saturating 64-bit pair (R263, R370); reaching all ones raises its notice (R78, R266). -/
def State.countPair (s : State) (o : OfficeId) (lo hi : Fld) (n : Nat) : State :=
  let old := s.rdPair o lo hi
  let new := min (old + n) (2 ^ 64 - 1)
  let s' := (s.wrPair o lo hi new).noteEvents o lo n
  if old < 2 ^ 64 - 1 ∧ new = 2 ^ 64 - 1 then
    let nt := fullNotice lo.off 0
    s'.raise o nt.1 nt.2
  else s'

/-- Clears such a pair (R14). -/
def State.clearPair (s : State) (o : OfficeId) (lo hi : Fld) : State :=
  s.wrPair o lo hi (min (s.eventsNow o lo) (2 ^ 64 - 1))

/-! ### Office health (R526, R684, R685) -/

/-- The value of `TWN_HEALTH` (R552). -/
def State.healthWord (s : State) (o : OfficeId) : Nat :=
  [F.TWN_HEALTH_TICK, F.TWN_HEALTH_ARITH, F.TWN_HEALTH_SELFTEST, F.TWN_HEALTH_ARRAY, F.TWN_HEALTH_LINK,
   F.TWN_HEALTH_IMAGE, F.TWN_HEALTH_BOOK, F.TWN_HEALTH_REACH, F.TWN_HEALTH_PORT].foldl
    (fun n f => n + s.rd o f * 2 ^ f.lo) 0

/-- Whether no fault of the first group is set (R526). -/
def State.healthy (s : State) (o : OfficeId) : Bool := s.healthWord o % 16 = 0

/-- Sets or clears a fault of `TWN_HEALTH`; a change raises notice 0x0A09 (R526, R551, R556). -/
def State.setHealth (s : State) (o : OfficeId) (f : Fld) (on : Bool) : State :=
  if s.flag o f = on then s
  else
    let s := s.wr o f (b2n on)
    let s := s.wr o F.TWN_STAT_HEALTHY (b2n (s.healthy o))
    s.raise o 0x0A09 (le 2 (s.healthWord o))

/-- An escalation trips when a count of the window has reached its limit: the fault and notice 0x0F27 (R684, R685). -/
def State.trip (s : State) (o : OfficeId) (f : Fld) (kind count limit : Nat) : State :=
  if count < limit ∨ s.flag o f then s
  else (s.setHealth o f true).raise o 0x0F27 (le 1 kind ++ le 2 count ++ le 2 limit)

/-- Counts a letter discarded under R111 towards the escalation (R684). -/
def State.noteResDrop (s : State) (o : OfficeId) : State :=
  let s := s.modOff o fun d => { d with resDrops := d.resDrops + 1 }
  s.trip o F.TWN_HEALTH_ARITH 0 (s.off o).resDrops (s.rd o F.ERR_ESC_CFG_RES_DROP_MAX)

/-- Counts a second computation under R111 (R684). -/
def State.noteResRetry (s : State) (o : OfficeId) : State :=
  let s := s.modOff o fun d => { d with resRetries := d.resRetries + 1 }
  s.trip o F.TWN_HEALTH_ARITH 0 (s.off o).resRetries (s.rd o F.ERR_ESC_CFG2_RES_RETRY_MAX)

/-- Counts a verification failure under R254 (R684). -/
def State.noteVFail (s : State) (o : OfficeId) : State :=
  let s := s.modOff o fun d => { d with vFails := d.vFails + 1 }
  s.trip o F.TWN_HEALTH_ARITH 0 (s.off o).vFails (s.rd o F.ERR_ESC_CFG_VF_MAX)

/-- Counts an uncorrectable read of a word, each word once a window (R685). -/
def State.noteUe (s : State) (o : OfficeId) (k : Nat) : State :=
  if (s.off o).ueWindow.contains k then s
  else
    let s := s.modOff o fun d => { d with ueWindow := k :: d.ueWindow }
    s.trip o F.TWN_HEALTH_ARRAY 1 (s.off o).ueWindow.length (s.rd o F.ERR_ESC_CFG_UE_MAX)

/-! ### Arrays (R676 to R682) -/

/-- Classes of a stored word (R692). -/
inductive EccClass | clean | correctable | uncorrectable
  deriving DecidableEq, Repr

/-- The key of a word of an array. -/
def arrKey (a w : Nat) : Nat := a * 2 ^ 32 + w

/-- The class of a word, by the weight of its syndrome: one bit is a check bit in error, two are detected; beyond that
the code decides (R676, R683, log entry 5). -/
def eccClassOf (data syn : Nat) : EccClass :=
  match popcount 8 syn with
  | 0 => .clean
  | 1 => .correctable
  | 2 => .uncorrectable
  | _ =>
    match Config.eccClass data (BitVec.ofNat 8 syn) % 3 with
    | 0 => .clean
    | 1 => .correctable
    | _ => .uncorrectable

/-- The data a read delivers after correction. -/
def eccDataOf (data syn : Nat) : Nat :=
  if popcount 8 syn ≤ 2 then data else Config.eccData data (BitVec.ofNat 8 syn) % 2 ^ 64

/-- Words per page of an array (R676, R709). -/
def pageWords (a : Nat) : Nat :=
  if a = 4 then 64 else if a = 6 then 8192 else 512

/-- Follows the retirements of a page: `fuel` bounds a chain of spares retired in turn (R682). -/
def followSpare (m : Sparse Nat) : Nat → Nat → Nat
  | 0, k => k
  | fuel + 1, k =>
    match Sparse.get 0 m (2 ^ 20 + k) with
    | 0 => k
    | n => followSpare m fuel (n - 1)

/-- Where a word lies after retirements: array and word. -/
def Office.place (d : Office) (a w : Nat) : Nat × Nat :=
  if a = 0 then
    match Sparse.get 0 d.spareOf (w / 512) with
    | 0 => (0, w)
    | n => (7, followSpare d.spareOf 64 (n - 1) * 512 + w % 512)
  else (a, w)

/-- Stored data of a word. -/
def Office.arrData (d : Office) (a w : Nat) : Nat := let p := d.place a w; Sparse.get 0 d.arr (arrKey p.1 p.2)

/-- Syndrome of a word. -/
def Office.arrSyn (d : Office) (a w : Nat) : Nat := let p := d.place a w; Sparse.get 0 d.syn (arrKey p.1 p.2)

/-- Class of a word. -/
def Office.arrClass (d : Office) (a w : Nat) : EccClass := eccClassOf (d.arrData a w) (d.arrSyn a w)

/-- A word as a correcting read delivers it. -/
def Office.arrRead (d : Office) (a w : Nat) : Nat := eccDataOf (d.arrData a w) (d.arrSyn a w)

/-- The tracker entry of a physical word, if it has one. -/
def State.trackerOf (s : State) (o : OfficeId) (a w : Nat) : Option Nat :=
  (List.range 64).find? fun k =>
    s.rd o F.ERR_RT_STAT_VALID k = 1 && s.rd o F.ERR_RT_STAT_ARRAY k = a && s.rd o F.ERR_RT_ADDR_WORD k = w

/-- Frees a tracker entry (R680). -/
def State.freeTracker (s : State) (o : OfficeId) (k : Nat) : State :=
  ((s.wr o F.ERR_RT_STAT_VALID 0 k).wr o F.ERR_RT_STAT_COUNT 0 k).wr o F.ERR_RT_STAT_NOTIFIED 0 k

/-- Raises 0x0F20 once when an entry's count has reached the threshold (R680). -/
def State.trackerNotify (s : State) (o : OfficeId) (k : Nat) : State :=
  if s.rd o F.ERR_ESC_CFG2_THRESH ≤ s.rd o F.ERR_RT_STAT_COUNT k ∧ s.rd o F.ERR_RT_STAT_NOTIFIED k = 0 then
    (s.wr o F.ERR_RT_STAT_NOTIFIED 1 k).raise o 0x0F20
      (le 1 (s.rd o F.ERR_RT_STAT_ARRAY k) ++ le 4 (s.rd o F.ERR_RT_ADDR_WORD k) ++ le 1 (s.rd o F.ERR_RT_STAT_COUNT k))
  else s

/-- Fills tracker entry `k` with a correction of `(a, w)`. -/
def State.fillTracker (s : State) (o : OfficeId) (k a w : Nat) : State :=
  let s := ((s.wr o F.ERR_RT_ADDR_WORD w k).wr o F.ERR_RT_STAT_ARRAY a k).wr o F.ERR_RT_STAT_VALID 1 k
  let s := (s.wr o F.ERR_RT_STAT_COUNT 1 k).wr o F.ERR_RT_STAT_NOTIFIED 0 k
  (s.wrPair o F.ERR_RT_LAST_LO_TICK_L F.ERR_RT_LAST_HI_TICK_H (s.off o).count.toNat k).trackerNotify o k

/-- Of two tracker entries, the one replaced first: lower count, then the older (R680, R11). -/
def State.trackerOlder (s : State) (o : OfficeId) (best : Option Nat) (k : Nat) : Option Nat :=
  if s.rd o F.ERR_ESC_CFG2_THRESH ≤ s.rd o F.ERR_RT_STAT_COUNT k then best
  else
    match best with
    | none => some k
    | some b =>
      let cb := s.rd o F.ERR_RT_STAT_COUNT b
      let ck := s.rd o F.ERR_RT_STAT_COUNT k
      let tb := s.rdPair o F.ERR_RT_LAST_LO_TICK_L F.ERR_RT_LAST_HI_TICK_H b
      let tk := s.rdPair o F.ERR_RT_LAST_LO_TICK_L F.ERR_RT_LAST_HI_TICK_H k
      if ck < cb ∨ (ck = cb ∧ later (BitVec.ofNat 64 tb) (BitVec.ofNat 64 tk)) then some k else best

/-- Offers a correction to the repeat tracker (R680). -/
def State.track (s : State) (o : OfficeId) (a w : Nat) : State :=
  match s.trackerOf o a w with
  | some k =>
    let s := s.wr o F.ERR_RT_STAT_COUNT (min (s.rd o F.ERR_RT_STAT_COUNT k + 1) 255) k
    (s.wrPair o F.ERR_RT_LAST_LO_TICK_L F.ERR_RT_LAST_HI_TICK_H (s.off o).count.toNat k).trackerNotify o k
  | none =>
    match (List.range 64).find? fun k => s.rd o F.ERR_RT_STAT_VALID k = 0 with
    | some k => s.fillTracker o k a w
    | none =>
      let s' := s.countUp o F.ERR_CNT_RTEVICT_COUNT
      match (List.range 64).foldl (s.trackerOlder o) none with
      | some k => s'.fillTracker o k a w
      | none => s'

/-- Writes a physical word and its syndrome. -/
def State.putWord (s : State) (o : OfficeId) (a w data syn : Nat) : State :=
  s.modOff o fun d =>
    { d with arr := Sparse.set 0 d.arr (arrKey a w) (data % 2 ^ 64), syn := Sparse.set 0 d.syn (arrKey a w) syn }

/-- A full write of a word: new check bits, no poison, and its tracker entry freed (R679, R680). -/
def State.arrWrite (s : State) (o : OfficeId) (a w data : Nat) : State :=
  let p := (s.off o).place a w
  let s := s.putWord o p.1 p.2 data 0
  let s := s.modOff o fun d => { d with noticed := d.noticed.erase (arrKey p.1 p.2) }
  match s.trackerOf o p.1 p.2 with
  | some k => s.freeTracker o k
  | none => s

/-- The effects of a read on the counters, the tracker and the word (R677, R678): nothing for a clean word. The
notice of R676 is the consumer's. -/
def State.arrTouch (s : State) (o : OfficeId) (a w : Nat) : State :=
  let p := (s.off o).place a w
  match (s.off o).arrClass a w with
  | .clean => s
  | .correctable => (s.countUp o F.ERR_CNT_CE_COUNT p.1).track o p.1 p.2
  | .uncorrectable =>
    ((s.putWord o p.1 p.2 ((s.off o).arrData a w) 3).countUp o F.ERR_CNT_UE_COUNT p.1).noteUe o (arrKey p.1 p.2)

/-- The array and word at a BAR0 offset that is a multiple of 8 or lies inside the word (R676, R709; 03 R104, R105;
05 R213). Word indices of array 0x3 run through the class map and then the route table (log entry 9). -/
def arrayAt (addr : Nat) : Option (Nat × Nat) :=
  if 0x2000000 ≤ addr ∧ addr < 0x4000000 then some (0, (addr - 0x2000000) / 8)
  else if 0x1000000 ≤ addr ∧ addr < 0x1400000 then some (1, (addr - 0x1000000) / 8)
  else if 0x0380000 ≤ addr ∧ addr < 0x0390000 then some (2, (addr - 0x0380000) / 8)
  else if 0x0310000 ≤ addr ∧ addr < 0x0310100 then some (3, (addr - 0x0310000) / 8)
  else if 0x0311000 ≤ addr ∧ addr < 0x0313000 then some (3, 32 + (addr - 0x0311000) / 8)
  else if (0x0001000 ≤ addr ∧ addr < 0x0001400) ∨ (0x0401000 ≤ addr ∧ addr < 0x0401400)
      ∨ (0x0610000 ≤ addr ∧ addr < 0x0611000) ∨ (0x0620000 ≤ addr ∧ addr < 0x0620800)
      ∨ (0x0A09000 ≤ addr ∧ addr < 0x0A0B000) ∨ (0x0B10000 ≤ addr ∧ addr < 0x0B14300)
      ∨ (0x0B18000 ≤ addr ∧ addr < 0x0B18150) then some (5, addr / 8)
  else none

/-- The number of words of an array (R676); array 0x5 is addressed by BAR0 offset. -/
def arrayWords (a : Nat) : Nat :=
  match a with
  | 0 => 2 ^ 22
  | 1 => 2 ^ 19
  | 2 => 2 ^ 13
  | 3 => 1056
  | 4 => 260 * 64
  | 6 => 2 ^ 23
  | 7 => 2 ^ 15
  | _ => 0

/-- Whether a word exists in an array (R676, R709). -/
def wordExists (a w : Nat) : Bool :=
  if a = 5 then (arrayAt (w * 8)).any (fun p => p.1 = 5) else w < arrayWords a

/-- The BAR0 offset of a word of arrays 0x1 to 0x3 and 0x5. -/
def addrOfWord (a w : Nat) : Nat :=
  if a = 5 then w * 8
  else if a = 1 then 0x1000000 + w * 8
  else if a = 2 then 0x0380000 + w * 8
  else if w < 32 then 0x0310000 + w * 8
  else 0x0311000 + (w - 32) * 8

/-- Raises a notice for a word once, until the word is rewritten (R112, R208, R256). -/
def State.raiseOnceFor (s : State) (o : OfficeId) (a w code : Nat) (payload : List Byte) : State :=
  let k := arrKey a w
  if (s.off o).noticed.contains k then s
  else (s.modOff o fun d => { d with noticed := k :: d.noticed }).raise o code payload

/-- Notice 0x0310, unless the word is among the last 256 for which it was raised (R206). -/
def State.raisePoisonedContext (s : State) (o : OfficeId) (channel word : Nat) : State :=
  let k := channel * 4 + word
  if (s.off o).poisonRecent.contains k then s
  else (s.modOff o fun d => { d with poisonRecent := (k :: d.poisonRecent).take 256 }).raise o 0x0310
    (le 3 channel ++ le 1 word)

/-- The notice of R676 for an uncorrectable read of a word of the arrays 0x0 to 0x3 and 0x5 (R112, R206, R208, R256, R678): once
until the word is rewritten, for a context word unless it is among the last 256, for a static set once for the set. -/
def State.arrNotice (s : State) (o : OfficeId) (a w : Nat) : State :=
  if a = 0 then s.raisePoisonedContext o (w / 4) (w % 4)
  else if a = 1 ∨ a = 2 then s.raiseOnceFor o a w 0x0F11 (le 4 (addrOfWord a w))
  else if a = 3 then s.raiseOnceFor o a w 0x0311 (le 4 (addrOfWord a w))
  else if 0x0401000 ≤ w * 8 ∧ w * 8 < 0x0401400 then s.raiseOnceFor o 5 (w / 8 * 8) 0x0403 (le 1 ((w * 8 - 0x0401000) / 64))
  else s.raiseOnceFor o 5 w 0x0F21 (le 1 5 ++ le 4 w)

/-- A read of a word with all its effects: `arrTouch`, and the notice of R676 where the word is uncorrectable (R678). -/
def State.arrUse (s : State) (o : OfficeId) (a w : Nat) : State :=
  if (s.off o).arrClass a w = .uncorrectable then (s.arrTouch o a w).arrNotice o a w else s.arrTouch o a w

/-- A partial write (R679): merged into a clean or corrected word; refused on an uncorrectable one. `counted` tells
that the read of this operation has been counted already (R677), and its notice raised. -/
def State.arrUpdate (s : State) (o : OfficeId) (a w : Nat) (counted : Bool) (f : Nat → Nat) : State :=
  let p := (s.off o).place a w
  let s' := if counted then s else s.arrUse o a w
  match (s.off o).arrClass a w with
  | .uncorrectable => s'.countUp o F.ERR_CNT_PWREF_COUNT
  | _ => s'.putWord o p.1 p.2 (f ((s.off o).arrRead a w)) 0

/-- `len` bytes of a window of array 0x5, or of arrays 0x1 to 0x3, from a BAR0 offset on, as stored. -/
def Office.windowBytes (d : Office) (addr : Nat) : Nat → List Byte
  | 0 => []
  | n + 1 =>
    let w := match arrayAt addr with
      | some p => d.arrRead p.1 p.2
      | none => 0
    BitVec.ofNat 8 (w / 2 ^ (8 * (addr % 8))) :: d.windowBytes (addr + 1) n

/-- Reads the words of a window (R677, R678). -/
def State.useWindow (s : State) (o : OfficeId) (addr len : Nat) : State :=
  (List.range (len / 8)).foldl (fun s k =>
    match arrayAt (addr + 8 * k) with
    | some p => s.arrUse o p.1 p.2
    | none => s) s

/-- The notices of a window's uncorrectable words (R676, R678). -/
def State.noticeWindow (s : State) (o : OfficeId) (addr len : Nat) : State :=
  (List.range (len / 8)).foldl (fun s k =>
    match arrayAt (addr + 8 * k) with
    | some p => if (s.off o).arrClass p.1 p.2 = .uncorrectable then s.arrNotice o p.1 p.2 else s
    | none => s) s

/-- Whether any word of a window is uncorrectable. -/
def Office.windowBad (d : Office) (addr len : Nat) : Bool :=
  (List.range (len / 8)).any fun k =>
    match arrayAt (addr + 8 * k) with
    | some p => d.arrClass p.1 p.2 = .uncorrectable
    | none => false

end Sys2Proof.Machine
end

