-- ==== Sys2Proof/Machine/Causes.lean ====
section
/-! DEFINITION. The causes that the status current loop reports (15 R607), and those that came and went (R606). -/

namespace Sys2Proof.Machine

/-- The mode that the module reports: the owner's, or that of the office that answers (R656). -/
def State.moduleMode (s : State) : Mode := s.mode s.speaker

/-- Whether an environment point is enabled (R611). -/
def State.pointOn (s : State) (i : Nat) : Bool := s.srd F.ENV_PT_CFG_EN i = 1

/-- Whether a point is valid (R597). -/
def State.pointValid (s : State) (i : Nat) : Bool := s.srd F.ENV_PT_TEMP_VALID i = 1

/-- Whether the source of the status loop is valid: a point, or the hottest node of the owner's model (R607, R613). -/
def State.sourceValid (s : State) : Bool :=
  let c := s.srd F.SL_CFG_SRC
  if 1 ≤ c ∧ c ≤ 12 then s.pointValid (c - 1)
  else if c = 17 then s.owner.any fun o => s.flag o F.THM_STAT_VALID
  else true

/-- The derating temperature of the emitters, in 0.01 °C (R624): the service die node of the owner's model, as it was last
while no office owns, and the point, 100 °C while that is not valid. -/
def State.emitterTd (s : State) : Int :=
  let node := match s.owner with
    | some o => toInt 16 (s.rd o F.THM_NODE_T 264)
    | none => toInt 16 (s.srd F.EMT_TD_TD)
  let k := s.srd F.EMT_CFG_T_PT
  if s.srd F.EMT_CFG_T_PT_EN = 0 then node
  else max node (if s.pointValid k then toInt 16 (s.srd F.ENV_PT_TEMP_T k) else 10000)

/-- The causes active now (R607). -/
def State.causesNow (s : State) : Nat :=
  let held := fun (k : Nat) => decide (s.srd F.LOOP_STAT_STATE k = 3)
  let lock := fun (k : Nat) => decide (s.srd F.LOOP_STAT_LOCK k = 1)
  let bad := (List.range 12).any fun i => s.pointOn i && !s.pointValid i
  ([!s.sourceValid, held 0, held 1, lock 0 || lock 1, s.svc.loops.a.plausRun || s.svc.loops.b.plausRun,
    decide (s.srd F.THM_STAT_LEVEL ≠ 0), decide (s.moduleMode = .held), s.owner.isNone, bad,
    decide (s.srd F.ENV_HK_STAT_REF_OK = 0) || decide (s.srd F.ENV_HK_STAT_GND_OK = 0)].zipIdx).foldl
    (fun m x => m + b2n x.1 * 2 ^ x.2) 0

/-- Keeps the causes active now for the next evaluation: called before and after what may end one of them (R606). -/
def State.latchCauses (s : State) : State :=
  let c := s.causesNow
  s.modSvc fun d => { d with sl := { d.sl with latched := d.sl.latched ||| c } }

end Sys2Proof.Machine
end

