-- ==== Sys2Proof/Machine/Crossing.lean ====
section
/-! DEFINITION. Clock-crossing FIFOs (01 R21, R23; 04 R154 to R157): Gray pointers, pessimistic flags, the blank item, the flush,
and what passes through one between two commands; and the form of an office's requests to host memory (10 R429). -/

namespace Sys2Proof.Machine

/-- Gray code of a pointer (R154). -/
def gray (n : Nat) : Nat := n ^^^ (n / 2)

/-- A pointer of `k` + 1 bits after `n` more words (R15, R154). -/
def Fifo.ahead (f : Fifo) (p n : Nat) : Nat := (p + n) % 2 ^ (f.k + 1)

/-- A synchroniser takes the other side's pointer in: three stages (R154). -/
def syncShift (stages : List Nat) (p : Nat) : List Nat := (gray p :: stages).take 3

/-- The pointer that has come through a synchroniser. -/
def synced (stages : List Nat) : Nat := stages.getLastD 0

/-- Whether the flags still settle after a flush (R157): four clocks, one tick each at most (log entry 78). -/
def Fifo.settling (f : Fifo) (now : Nat) : Bool := f.flushedAt.any fun a => decide (now < a + 4)

/-- What the writer sees (R155, R157): full when its pointer is 2^k ahead of the read pointer as synchronised. In Gray code the two
differ then in the two highest bits alone. -/
def Fifo.full (f : Fifo) (now : Nat) : Bool := f.settling now || gray f.wptr = synced f.rSync ^^^ (3 * 2 ^ (f.k - 1))

/-- What the reader sees (R155, R157). -/
def Fifo.empty (f : Fifo) (now : Nat) : Bool := f.settling now || gray f.rptr = synced f.wSync

/-- A word is written (R155, R157): the rest of an item that a flush cut is dropped; while the flag reads full the word is refused
and counted, and the rest of its item is dropped with it. -/
def Fifo.write (f : Fifo) (now : Nat) (w : FifoWord) : Fifo :=
  if f.skipping && !w.first then f
  else if f.full now then { f with refused := f.refused + 1, skipping := !w.last }
  else { f with words := Sparse.set {} f.words (f.wptr % 2 ^ f.k) w, wptr := f.ahead f.wptr 1, skipping := false }

/-- A word is read (R156): its valid bit and the word; the blank item, with valid bit 0, while the flag reads empty. -/
def Fifo.read (f : Fifo) (now : Nat) : Fifo × Bool × FifoWord :=
  if f.empty now then (f, false, {})
  else
    let w := Sparse.get {} f.words (f.rptr % 2 ^ f.k)
    ({ f with words := Sparse.erase f.words (f.rptr % 2 ^ f.k), rptr := f.ahead f.rptr 1, inItem := !w.last }, true, w)

/-- A writer clock: the read pointer comes one stage nearer, and a word may be written. -/
def Fifo.writerClock (f : Fifo) (now : Nat) (w : Option FifoWord) : Fifo :=
  let f := { f with rSync := syncShift f.rSync f.rptr }
  match w with
  | some w => f.write now w
  | none => f

/-- A reader clock: the write pointer comes one stage nearer, and a word is read; the consumer discards a blank item (R156). -/
def Fifo.readerClock (f : Fifo) (now : Nat) (got : List FifoWord) : Fifo × List FifoWord :=
  let r := { f with wSync := syncShift f.wSync f.wptr }.read now
  (r.1, if r.2.1 then got ++ [r.2.2] else got)

/-- Writer and reader clocks in turn, one word a writer clock. -/
def Fifo.carryFrom (now : Nat) : Fifo → List FifoWord → List (Option FifoWord) → Fifo × List FifoWord
  | f, got, [] => (f, got)
  | f, got, w :: ws =>
    let r := (f.writerClock now w).readerClock now got
    Fifo.carryFrom now r.1 r.2 ws

/-- An item crosses between two commands: its words, and eight clocks more, in which the last of them becomes visible and the
pointers come through (R155). -/
def Fifo.carry (f : Fifo) (now : Nat) (ws : List FifoWord) : Fifo × List FifoWord :=
  f.carryFrom now [] (ws.map some ++ List.replicate 8 none)

/-- The words of an item with its start and end markers (R157). -/
def itemWords (vs : List Nat) : List FifoWord :=
  vs.zipIdx.map fun x => { value := x.1, first := decide (x.2 = 0), last := decide (x.2 + 1 = vs.length) }

/-- `n` words cross a FIFO that neither side finds full or empty for long: both pointers pass them, and they have come through to the
other side (R154, R155). -/
def Fifo.pass (f : Fifo) (n : Nat) : Fifo :=
  let w := f.ahead f.wptr n
  { f with wptr := w, rptr := w, words := [], wSync := List.replicate 3 (gray w), rSync := List.replicate 3 (gray w), skipping := false }

/-- A flush (R157): empty, both pointers zero, and a word written in the cycle gone; a writer in mid-item drops the rest of it. -/
def Fifo.flush (f : Fifo) (now : Nat) (writing : Bool) : Fifo :=
  { f with words := [], wptr := 0, rptr := 0, wSync := [0, 0, 0], rSync := [0, 0, 0], skipping := writing, inItem := false,
           flushedAt := some now }

/-- Words of a request or a completion come in from the PCIe island of an office (R21). The port gives the host no credit for what
does not fit, so that none is refused (log entry 78). -/
def State.pcieIn (s : State) (o : OfficeId) (n : Nat) : State := s.modOff o fun d => { d with pcieRx := d.pcieRx.pass n }

/-- Words of a request or a completion go out to the PCIe island of an office (R21). -/
def State.pcieOut (s : State) (o : OfficeId) (n : Nat) : State := s.modOff o fun d => { d with pcieTx := d.pcieTx.pass n }

/-! ### Requests to host memory (R429) -/

/-- The pieces of `len` bytes at `addr` that end at the multiples of `m`: address and length; `fuel` bounds them. -/
def cutAligned (m : Nat) : Nat → Nat → Nat → List (Nat × Nat)
  | 0, a, len => [(a, len)]
  | fuel + 1, a, len =>
    let k := m - a % m
    if len ≤ k then [(a, len)] else (a, k) :: cutAligned m fuel (a + k) (len - k)

/-- Doublewords of a request or a completion, with the four of its header. -/
def tlpWords (len : Nat) : Nat := 4 + (len + 3) / 4

/-- Writes to host memory: memory write TLPs of `Max_Payload_Size`, aligned to it but for the first and the last (R429). -/
def State.postWrite (s : State) (o : OfficeId) (addr : Nat) (bytes : List Byte) : State :=
  let m := (s.off o).mps
  (cutAligned m (bytes.length / m + 1) addr bytes.length).foldl (fun s p =>
    (s.pcieOut o (tlpWords p.2)).emit (.hostWrite o p.1 ((bytes.drop (p.1 - addr)).take p.2))) s

/-- Reads of the store: requests of `Max_Read_Request_Size`, aligned to it (R429). -/
def State.postRead (s : State) (o : OfficeId) (addr len : Nat) : State :=
  let m := (s.off o).mrrs
  (cutAligned m (len / m + 1) addr len).foldl (fun s p => (s.pcieOut o (tlpWords 0)).emit (.hostRead o p.1 p.2)) s

end Sys2Proof.Machine
end

