-- ==== Sys2Proof/Machine/Postmarks.lean ====
section
/-! DEFINITION. Postmarks (05 R193; 09 R374 to R377, R711). -/

namespace Sys2Proof.Machine

/-- One second in units of 2^-32 ns. -/
def secondUnits : Int := 1000000000 * 2 ^ 32

/-- A postmark advanced by `units` of 2^-32 ns, with the carry of R193. -/
def Postmark.advance (p : Postmark) (units : Int) : Postmark :=
  let tot : Int := p.ns.toNat * 2 ^ 32 + p.frac.toNat + units
  let rem := (tot % secondUnits).toNat
  { sec := BitVec.ofInt 48 (p.sec.toNat + tot / secondUnits)
    ns := BitVec.ofNat 32 (rem / 2 ^ 32)
    frac := BitVec.ofNat 32 rem
    quality := p.quality }

/-- The 16 bytes of a postmark (R375). -/
def Postmark.bytes (p : Postmark) : List Byte :=
  le 6 p.sec.toNat ++ le 4 p.ns.toNat ++ le 4 p.frac.toNat ++ le 2 p.quality.toNat

/-- The postmark as one signed number of 2^-32 ns. -/
def Postmark.units (p : Postmark) : Int := p.sec.toNat * secondUnits + p.ns.toNat * 2 ^ 32 + p.frac.toNat

/-- The nominal increment (R378, R711). -/
def nominalInc : Nat := 0xAAAAAAAB

/-- Ticks from one tick count to another, negative backwards (R11). -/
def ticksSince (a b : Nat) : Int := toInt 64 ((b + 2 ^ 64 - a % 2 ^ 64) % 2 ^ 64)

/-- The postmark of a tick and the increment in force there: by the epoch it lies in (R377), or R711 before the start.
Ticks before the oldest epoch kept count back from it (log entry 21). -/
def State.postmarkAt (s : State) (tick : Nat) : Postmark × Nat :=
  match s.svc.epochs.find? (fun e => tickLe e.tick tick) with
  | some e => (e.pm.advance (ticksSince e.tick tick * e.inc), e.inc)
  | none =>
    match s.svc.epochs.getLast? with
    | some e => (e.pm.advance (ticksSince e.tick tick * e.inc), e.inc)
    | none => (({} : Postmark).advance ((tick : Int) * nominalInc), nominalInc)

/-- The postmark of the tick in which the service die's count stands. -/
def State.postmarkNow (s : State) : Postmark := (s.postmarkAt s.svc.count.toNat).1

end Sys2Proof.Machine
end

