-- ==== Sys2Proof/Machine/Access.lean ====
section
/-! DEFINITION. Host accesses to BAR0 and BAR2: what a read returns and latches, and how a write is checked,
journalled and stored (00_scope R3 to R10; 11 R438 to R441; 12 R499; 18 R667). -/

namespace Sys2Proof.Machine

/-- Whether an office takes host writes to BAR0 and BAR2: out of reset, not in Loading (R667) or Fallback (R486), and
not in D3hot (R434). -/
def State.takesWrites (s : State) (o : OfficeId) : Bool :=
  !(s.off o).inReset && !(s.off o).d3hot &&
    match s.mode o with
    | .dormant | .loading | .fallback => false
    | _ => true

/-- Register pairs: base of the low registers, number, stride. The high register follows its low one (R6). -/
def readPairs : List (Nat × Nat × Nat) :=
  [(0x0000010, 1, 0), (0x0100008, 1, 0), (0x0100024, 1, 0), (0x0200030, 1, 0), (0x0300008, 1, 0),
   (0x0400028, 2, 8), (0x0500010, 3, 8), (0x0500084, 2, 8), (0x0500100, 8, 0x10), (0x0500200, 2, 0x10),
   (0x060000C, 4, 0x80), (0x0608068, 1, 0), (0x0700000, 4096, 0x40), (0x0700008, 4096, 0x40),
   (0x0740044, 1, 0), (0x074004C, 1, 0), (0x0740058, 1, 0), (0x0800008, 2, 8), (0x0900020, 1, 0)] ++
  [(0x0A0500C, 2, 0x100), (0x0A05018, 2, 0x100), (0x0A05208, 1, 0), (0x0A06014, 1, 0), (0x0C01008, 64, 0x10),
   (0x0C00208, 1, 0), (0x2000000, 2 ^ 22, 8)]

/-- The pairs that the host may write, whose halves commit together (R7). -/
def writePairs : List (Nat × Nat × Nat) :=
  [(0x0100024, 1, 0), (0x0200030, 1, 0), (0x0500084, 2, 8), (0x0500100, 8, 0x10), (0x0500200, 2, 0x10),
   (0x0700000, 4096, 0x40), (0x0700008, 4096, 0x40), (0x0C00208, 1, 0)]

/-- Whether `addr` is one of the `n` elements from `base` on. -/
def inSeries (addr : Nat) (r : Nat × Nat × Nat) : Bool :=
  r.1 ≤ addr && (if r.2.2 = 0 then addr = r.1 else (addr - r.1) % r.2.2 = 0 && (addr - r.1) / r.2.2 < r.2.1)

/-- The low register of a pair of R6. -/
def isPairLow (addr : Nat) : Bool := readPairs.any (inSeries addr)

/-- The low register of a writable pair of R7. -/
def isWriteLow (addr : Nat) : Bool := writePairs.any (inSeries addr)

/-- The 32 bytes of a notice (R672, R673). -/
def Notice.bytes (n : Notice) : List Byte :=
  le 2 n.code.toNat ++ [n.flags, BitVec.ofNat 8 n.payload.length] ++ le 8 n.tick.toNat ++ le 2 n.nseq.toNat ++
    n.payload ++ List.replicate (18 - n.payload.length) 0

/-- The bytes of slot `k` of the error log (R674). -/
def Office.logSlot (d : Office) (k : Nat) : List Byte :=
  match d.log.find? fun n => n.nseq.toNat % 256 = k with
  | some n => n.bytes
  | none => List.replicate 32 0

/-- The value of a register, assembled from its fields: write-only fields read 0 (R8), and fields of the data path
read 0 on an office that does not own. -/
def State.regWord (s : State) (o : OfficeId) (addr : Nat) : Nat :=
  (fieldsAt addr).foldl (fun acc e =>
    let f := e.1
    if f.acc = .wo ∨ (f.rz ∧ !s.owns o) then acc else acc + s.rd o f e.2.1 e.2.2 * 2 ^ f.lo) 0

/-- The value of a 4-byte read and whether it is poisoned, before R6's latch. -/
def State.readRaw (s : State) (o : OfficeId) (addr : Nat) : Nat × Bool :=
  match arrayAt addr with
  | some p =>
    if (s.off o).arrClass p.1 p.2 = .uncorrectable then (0xFFFFFFFF, true)
    else
      let v := (s.off o).arrRead p.1 p.2
      let v := if p.1 = 0 ∧ p.2 % 4 = 0 then setBits v 33 1 (Sparse.get 0 (s.off o).am (p.2 / 4)) else v
      (bitsOf v (8 * (addr % 8)) 32, false)
  | none =>
    if 0x0C10000 ≤ addr ∧ addr < 0x0C12000 then
      (ofLe (((s.off o).logSlot ((addr - 0x0C10000) / 32)).drop (addr % 32) |>.take 4), false)
    else if 0x4000000 ≤ addr ∧ addr % 0x1000 = 0xC then
      (s.regWord o (0x070001C + (addr - 0x4000000) / 0x1000 * 0x40), false)
    else (s.regWord o addr, false)

/-- Whether a read of BAR0 is answered with the register's value: not in Fallback (R486), and in Loading only the
identity block (R667). -/
def State.answersRead (s : State) (o : OfficeId) (addr : Nat) : Bool :=
  match s.mode o with
  | .loading => addr < 0x0100000
  | .fallback | .dormant => false
  | _ => true

/-- The other PTM registers, which a read of `PH_PTM_TICK_LO` latches with it (R444). -/
def ptmMembers : List Nat :=
  [0x074004C, 0x0740050, 0x0740054, 0x0740058, 0x074005C, 0x0740060, 0x0740064]

/-- The registers that a read of a low register latches (R6, R444). -/
def latchMembers (addr : Nat) : List Nat := (addr + 4) :: (if addr = 0x0740044 then ptmMembers else [])

/-- Whether a register is read from a latch: the high half of a pair, and a PTM register once `PH_PTM_TICK_LO` has been
read, which the latch at its own address marks. -/
def Office.fromLatch (d : Office) (addr : Nat) : Bool :=
  (4 ≤ addr && isPairLow (addr - 4)) || (ptmMembers.contains addr && decide (Sparse.get 0 d.latch 0x0740044 = 1))

/-- Where a latch holds whether its value is poisoned data (R441). -/
def latchPoison (addr : Nat) : Nat := 2 ^ 32 + addr

/-- Takes the latch of a low register: every member as it reads now, with its mark of R441. -/
def State.takeLatch (s : State) (o : OfficeId) (addr : Nat) : State :=
  let l := (latchMembers addr).foldl (fun m a =>
    Sparse.set 0 (Sparse.set 0 m a (s.readRaw o a).1) (latchPoison a) (b2n (s.readRaw o a).2)) (s.off o).latch
  s.modOff o fun d => { d with latch := if addr = 0x0740044 then Sparse.set 0 l addr 1 else l }

/-- Registers that show a running value are brought up to date before they are read: the tick count and the postmark of
the same tick (R413), the derating temperature (R624). -/
def State.freshen (s : State) (addr : Nat) : State :=
  if addr = 0x0100008 then
    let c := s.svc.count.toNat
    let p := s.postmarkNow
    let s := (s.swr F.TB_COUNT_LO_TICK_L c).swr F.TB_COUNT_HI_TICK_H (c / 2 ^ 32)
    let s := (s.swr F.TB_PM_SEC_LO_SEC_L p.sec.toNat).swr F.TB_PM_SEC_HI_SEC_H (p.sec.toNat / 2 ^ 32)
    ((s.swr F.TB_PM_SEC_HI_QUALITY p.quality.toNat).swr F.TB_PM_NS_NS p.ns.toNat).swr F.TB_PM_FRAC_FRAC p.frac.toNat
  else if addr = F.EMT_TD_TD.off then s.swr F.EMT_TD_TD (ofInt 16 s.emitterTd)
  else s

/-- The bits of a register that no field holds: a read returns an undefined value there (R4). An address without a register
has none (R440). -/
def reservedMask (addr : Nat) : Nat :=
  if (fieldsAt addr).isEmpty then 0
  else 2 ^ 32 - 1 - (fieldsAt addr).foldl (fun m e => m ||| (2 ^ e.1.w - 1) * 2 ^ e.1.lo) 0

/-- The reserved bits of the four bytes at `addr` of an array window for which no value is stated (R4; R64, R65, R195, R196, R213,
R265, R328, R346, R628, R654). The cluster word has a place in the context of cell 0 of a cluster only. -/
def arrayReserved (addr : Nat) : Nat :=
  match arrayAt addr with
  | none => 0
  | some p =>
    let ch := p.2 / 4
    if p.1 = 0 then
      match addr % 32 / 4 with
      | 0 => if ch % 4 = 0 ∧ ch / 64 % 4 = 0 then 0x10F8FF00 else 0xFF00
      | 1 => 0xFFFFFFF0
      | 2 => 0xFFF00000
      | _ => 0
    else if p.1 = 3 then (if p.2 < 32 then 0xF0F0F0F0 else 0)
    else if p.1 ≠ 5 then 0
    else if 0x0401000 ≤ addr ∧ addr < 0x0401400 then (if 52 ≤ addr % 64 then 0xFFFFFFFF else 0)
    else if 0x0610000 ≤ addr ∧ addr < 0x0611000 then
      let k := addr % 256
      if 128 ≤ k ∧ k < 144 then 0xFFC00000
      else if 148 ≤ k ∧ k < 156 then 0xFFF00000
      else if k = 164 then 0xFF000000
      else if k = 168 then 0xFFFFC880
      else 0
    else if 0x0620000 ≤ addr ∧ addr < 0x0620800 then (if addr % 128 = 8 then 0x00FC0000 else 0)
    else if 0x0A09000 ≤ addr ∧ addr < 0x0A0B000 then (if addr % 16 = 0 then 0x00FE0000 else 0)
    else if 0x0B10000 ≤ addr ∧ addr < 0x0B14300 then (if 16 ≤ addr % 64 ∧ addr % 8 = 0 then 0xFFFF0000 else 0)
    else 0

/-- The bits of a read that are undefined (R4). A register of the data path reads 0 whole on an office that does not own. -/
def State.undefinedBits (s : State) (o : OfficeId) (addr : Nat) : Nat :=
  if (arrayAt addr).isSome then arrayReserved addr
  else if (fieldsAt addr).all (·.1.rz) && !s.owns o then 0
  else reservedMask addr

/-- Answers a read: undefined bits are a free value (R4); poisoned data is all ones (R441). -/
def State.answer (s : State) (o : OfficeId) (addr v : Nat) (poisoned : Bool) : State :=
  let m := if poisoned then 0 else s.undefinedBits o addr
  let s := s.pcieOut o (tlpWords 4)
  if m = 0 then s.emit (.completion o [BitVec.ofNat 32 v] poisoned)
  else
    let p := s.draw 32
    p.2.emit (.completion o [BitVec.ofNat 32 (v - (v &&& m) + (p.1 &&& m))] poisoned)

/-- A 4-byte host read. The read of a low register latches the whole value, the read of a high register returns that
latch (R6, R201, R413, R444); an array word is read under R677 and R678. -/
def State.hostRead (s : State) (o : OfficeId) (addr : Nat) : State :=
  if (s.off o).inReset ∨ (s.off o).d3hot then s
  else if s.answersRead o addr = false then ((s.pcieIn o (tlpWords 0)).pcieOut o (tlpWords 4)).emit (.completion o [0] false)
  else if (s.off o).fromLatch addr then
    (s.pcieIn o (tlpWords 0)).answer o addr (Sparse.get 0 (s.off o).latch addr) (Sparse.get 0 (s.off o).latch (latchPoison addr) = 1)
  else
    let s := (s.pcieIn o (tlpWords 0)).freshen addr
    let r := s.readRaw o addr
    let s1 := match arrayAt addr with
      | some p => s.arrUse o p.1 p.2
      | none => s
    let s2 := if isPairLow addr then s1.takeLatch o addr else s1
    s2.answer o addr r.1 r.2

/-! ### Writes -/

/-- The journal entry of a host write (R499). -/
def State.journal (s : State) (o : OfficeId) (addr v : Nat) (accepted : Bool) : State :=
  s.raise o 0x0910 (le 4 addr ++ le 4 v ++ le 1 (b2n accepted))

/-- The notice of a value refused under R5 (R675). -/
def State.refuse5 (s : State) (o : OfficeId) (addr v : Nat) : State :=
  s.raise o 0x0811 (le 4 addr ++ le 4 v)

/-- Whether the host may write a field (R8). -/
def Fld.hostWritable (f : Fld) : Bool :=
  match f.acc with
  | .rw | .w1c | .wo => true
  | _ => false

/-- The bits of a written value that belong to a field. -/
def Fld.part (f : Fld) (v : Nat) : Nat := bitsOf v f.lo f.w

/-- Stores one field of a host write: RW takes the value, W1C clears the ones written, but not a
bit that hardware has set in the same tick (R10), WO holds nothing (R8). A reserved value leaves the field (R5). -/
def State.storeField (s : State) (o : OfficeId) (v : Nat) (e : Fld × Nat × Nat) : State :=
  let f := e.1
  let x := f.part v
  match f.acc with
  | .rw => if f.isBad x then s else s.wr o f x e.2.1 e.2.2
  | .w1c => if s.eventsNow o f e.2.1 e.2.2 = 0 then s.wr o f (s.rd o f e.2.1 e.2.2 &&& (2 ^ f.w - 1 - x)) e.2.1 e.2.2 else s
  | _ => s

/-- Stores the fields of a register, with the pairing of R7. DESIGN CHOICE: each office keeps the low half held for a pair, and the
latch of R6, also for a pair that lies on the service die; the spec does not say whether one serves both (log entry 80). -/
def State.storeReg (s : State) (o : OfficeId) (addr v : Nat) : State :=
  if isWriteLow addr then s.modOff o fun d => { d with lowHeld := Sparse.set 0 d.lowHeld addr v }
  else if 4 ≤ addr ∧ isWriteLow (addr - 4) then
    let s := (fieldsAt (addr - 4)).foldl (fun s e => s.storeField o (Sparse.get 0 (s.off o).lowHeld (addr - 4)) e) s
    (fieldsAt addr).foldl (fun s e => s.storeField o v e) s
  else (fieldsAt addr).foldl (fun s e => s.storeField o v e) s

/-- Whether a write would change a field the host may not change (R9). -/
def State.changesLocked (s : State) (o : OfficeId) (addr v : Nat) : Bool :=
  (fieldsAt addr).any fun e => (e.1.acc = .amd || e.1.acc = .rwl) && e.1.part v ≠ s.rd o e.1 e.2.1 e.2.2

/-- The windows without a register table that the host may only read: arrays and the error log (R9, R106, R200). -/
def isReadOnlyWindow (addr : Nat) : Bool := (arrayAt addr).isSome || (0x0C10000 ≤ addr && addr < 0x0C12000)

/-- Whether a register belongs to the service die: only the owner accepts writes to it (R9; 09 "Time base registers"). -/
def isServiceReg (addr : Nat) : Bool := (fieldsAt addr).any fun e => e.1.svc

/-- A 4-byte host write that an office takes, up to its action: journalled; refused under R9 where no
field is writable; refused whole under R5 where a reserved value comes with an action bit; else stored. The Bool tells
that the write went through, so that its action may start. `extra` adds a refusal of the register's own chapter to
those of R5; `own` tells that the register's own rule states the outcome of its reserved values. -/
def State.registerWrite (s : State) (o : OfficeId) (addr v : Nat) (extra own : Bool) : State × Bool :=
  if isReadOnlyWindow addr then (s.journal o addr v false, false)
  else if (fieldsAt addr).isEmpty then (s, false)
  else if (fieldsAt addr).all (fun e => !e.1.hostWritable) then (s.journal o addr v false, false)
  else if isServiceReg addr && !s.owns o then (s.journal o addr v false, false)
  else
    let s1 := if (0x0E00000 ≤ addr ∧ addr < 0x0F00000) ∨ (0x0608000 ≤ addr ∧ addr < 0x0608040) ∨ 0x4000000 ≤ addr then s
      else s.journal o addr v (!s.changesLocked o addr v)
    let bad := extra || !own && (fieldsAt addr).any fun e => e.1.hostWritable && e.1.isBad (e.1.part v)
    let act := (fieldsAt addr).any fun e => e.1.acc = .wo && e.1.part v ≠ 0
    if bad then
      let s2 := s1.refuse5 o addr v
      if act || extra then (s2, false) else (s2.storeReg o addr v, true)
    else (s1.storeReg o addr v, true)

/-- A host write of a register, once its words have crossed from the PCIe island (R21). -/
def State.hostWrite (s : State) (o : OfficeId) (addr v : Nat) (extra : Bool := false) (own : Bool := false) : State × Bool :=
  if s.takesWrites o = false then (s, false) else (s.pcieIn o (tlpWords 4)).registerWrite o addr v extra own

/-- A host write with an action: `act` runs when the write went through and carries the bit `go`. -/
def State.hostAction (s : State) (o : OfficeId) (addr v : Nat) (go : Nat) (act : State → State) : State :=
  let r := s.hostWrite o addr v
  if r.2 ∧ bitsOf v go 1 = 1 then act r.1 else r.1

end Sys2Proof.Machine
end

