-- ==== Sys2Proof/Machine/Operands.lean ====
section
/-! DEFINITION. Operand forms: cells, clusters and channels (02 "Cell addressing", R64, R65, R79, R92), and the 80-bit
letter with its flags (R79, R82, R83). -/

namespace Sys2Proof.Machine

/-- District in tile of a cell number `district * 4096 + row * 64 + column`. -/
def cellDistrict (c : Nat) : Nat := c / 4096

/-- Row of a cell within its district. -/
def cellRow (c : Nat) : Nat := c / 64 % 64

/-- Column of a cell within its district. -/
def cellCol (c : Nat) : Nat := c % 64

/-- Cluster in tile of a cell (02 "Cell addressing"). -/
def clusterOf (c : Nat) : Nat := cellDistrict c * 256 + cellRow c / 4 * 16 + cellCol c / 4

/-- Cell in cluster (02 "Cell addressing"). -/
def cellInCluster (c : Nat) : Nat := cellRow c % 4 * 4 + cellCol c % 4

/-- The cell of a cluster with an index within it. -/
def cellOfCluster (cl k : Nat) : Nat :=
  cl / 256 * 4096 + (cl % 256 / 16 * 4 + k / 4) * 64 + cl % 16 * 4 + k % 4

/-- The sixteen cells of a cluster, lower cell first (R34). -/
def cellsOf (cl : Nat) : List Nat := (List.range 16).map (cellOfCluster cl)

/-- The district byte of a district of a tile. -/
def districtByte (t : Fin 4) (d : Nat) : Nat := t.val * 64 + d

/-- The channel of a cell of a tile (R79). -/
def channelOf (t : Fin 4) (c : Nat) : Nat := t.val * 262144 + c

/-- Fields of a cell configuration word (R64). -/
def cfgPeakEn (w : Nat) : Bool := bitsOf w 7 1 = 1
def cfgInjSel (w : Nat) : Bool := bitsOf w 6 1 = 1
def cfgDiscEn (w : Nat) : Bool := bitsOf w 5 1 = 1
def cfgTrim (w : Nat) : Nat := bitsOf w 0 5

/-- Fields of a cluster configuration word (R65, R92). -/
def cfgDllEn (w : Nat) : Bool := bitsOf w 15 1 = 1
def cfgIpOff (w : Nat) (ip : Bool) : Bool := bitsOf w (if ip then 14 else 13) 1 = 1
def cfgDllStart (w : Nat) : Nat := bitsOf w 8 2
def cfgSarEn (w : Nat) : Bool := bitsOf w 2 1 = 1
def cfgGmode (w : Nat) : Nat := if bitsOf w 0 2 = 3 then 0 else bitsOf w 0 2

/-- Flag bits of a letter (R82). -/
def flagCoarseOnly : Nat := 1
def flagZeroTot : Nat := 2
def flagOrder : Nat := 4
def flagGainSwitched : Nat := 8
def flagSettling : Nat := 16
def flagCalib : Nat := 32
def flagLate : Nat := 64

/-- The 80 bits of a letter (R79): channel, tick count, fine code, ToT, amplitude, gain, flags. -/
def packLetter (channel coarse fine tot amp gain flags : Nat) : BitVec 80 :=
  BitVec.ofNat 80 (channel % 2 ^ 20 + coarse % 2 ^ 16 * 2 ^ 20 + fine % 2 ^ 7 * 2 ^ 36 + tot % 2 ^ 17 * 2 ^ 43 +
    amp % 2 ^ 12 * 2 ^ 60 + gain % 2 * 2 ^ 72 + flags % 2 ^ 7 * 2 ^ 73)

/-- The 80 bits of a tile's letter. -/
def Letter.word (l : Letter) : BitVec 80 :=
  packLetter l.channel.toNat l.lead.toNat l.fine.toNat l.tot.toNat l.amp.toNat (b2n l.gain) l.flags.toNat

/-- Fields of an 80-bit letter (R79). -/
def letterChannel (w : BitVec 80) : Nat := bitsOf w.toNat 0 20
def letterCoarse (w : BitVec 80) : Nat := bitsOf w.toNat 20 16
def letterFine (w : BitVec 80) : Nat := bitsOf w.toNat 36 7
def letterTot (w : BitVec 80) : Nat := bitsOf w.toNat 43 17
def letterAmp (w : BitVec 80) : Nat := bitsOf w.toNat 60 12
def letterGain (w : BitVec 80) : Nat := bitsOf w.toNat 72 1
def letterFlags (w : BitVec 80) : Nat := bitsOf w.toNat 73 7

/-- Whether a letter has a flag. -/
def letterHas (w : BitVec 80) (flag : Nat) : Bool := letterFlags w / flag % 2 = 1

/-- A letter with a flag set. -/
def letterWith (w : BitVec 80) (flag : Nat) : BitVec 80 :=
  if letterHas w flag then w else w + BitVec.ofNat 80 (flag * 2 ^ 73)

/-- The combinations that a letter never carries (R83). -/
def badCombination (w : BitVec 80) : Bool :=
  (letterHas w flagGainSwitched && letterGain w = 0) ||
  (letterHas w flagSettling && letterAmp w = 0) ||
  (letterHas w flagCoarseOnly && letterFine w ≠ 0) ||
  ((letterHas w flagZeroTot || letterHas w flagOrder) && letterTot w ≠ 0) ||
  (letterHas w flagZeroTot && letterHas w flagOrder)

/-! ### Configuration commands (R159 to R161) -/

/-- Fields of a configuration command (R159). -/
def cmdOp (c : W64) : Nat := bitsOf c.toNat 0 4
def cmdWord (c : W64) : Nat := bitsOf c.toNat 48 16

/-- Whether an index matches a mask and value of a command that start at bit `lo` (R160). -/
def cmdMatches (c : W64) (lo k : Nat) : Bool := (k &&& bitsOf c.toNat lo 6) = bitsOf c.toNat (lo + 6) 6

/-- The districts, rows and columns a command addresses; rows and columns run to `n` (R159, R160). -/
def cmdDistricts (c : W64) : List Nat := (List.range 64).filter (cmdMatches c 12)
def cmdRows (c : W64) (n : Nat) : List Nat := (List.range n).filter (cmdMatches c 24)
def cmdCols (c : W64) (n : Nat) : List Nat := (List.range n).filter (cmdMatches c 36)

/-- Whether a command is about clusters. -/
def cmdIsCluster (c : W64) : Bool := cmdOp c % 2 = 1

/-- Rows and columns of a district as a command counts them. -/
def cmdSpan (c : W64) : Nat := if cmdIsCluster c then 16 else 64

/-- Whether the tile refuses a command (R160). -/
def cmdRefused (c : W64) : Bool :=
  let m := fun lo => bitsOf c.toNat lo 6
  let stray := fun lo => (m (lo + 6) &&& (63 - m lo)) ≠ 0
  stray 12 || stray 24 || stray 36 || 4 ≤ cmdOp c || bitsOf c.toNat 4 8 ≠ 0 ||
  (cmdIsCluster c && (16 ≤ m 24 || 16 ≤ m 30 || 16 ≤ m 36 || 16 ≤ m 42)) ||
  (2 ≤ cmdOp c && !(m 12 = 63 && m 24 = (if cmdIsCluster c then 15 else 63) && m 36 = (if cmdIsCluster c then 15 else 63)))

/-- The number of a place: a cell of the tile, or a cluster of the tile (R159). -/
def cmdPlace (c : W64) (district row col : Nat) : Nat :=
  if cmdIsCluster c then district * 256 + row * 16 + col else district * 4096 + row * 64 + col

/-- Every place a command addresses (R160). -/
def cmdPlaces (c : W64) : List Nat :=
  (cmdDistricts c).flatMap fun a => (cmdRows c (cmdSpan c)).flatMap fun r => (cmdCols c (cmdSpan c)).map fun k =>
    cmdPlace c a r k

/-- Ticks a write occupies the engine (R161). -/
def cmdTicks (c : W64) : Nat := (cmdDistricts c).length * (cmdRows c (cmdSpan c)).length

/-- The place a read names. -/
def cmdReadPlace (c : W64) : Nat := cmdPlace c (bitsOf c.toNat 18 6) (bitsOf c.toNat 30 6) (bitsOf c.toNat 42 6)

end Sys2Proof.Machine
end

