-- ==== Sys2Proof/Machine/FrontEnd.lean ====
section
/-! DEFINITION. Cells, clusters, interpolators and DLLs: the events of the front end (02, 03). -/

namespace Sys2Proof.Machine

/-- Adds to a counter that the tile holds (R69, R74, R118), and remembers the events of the running tick (R14). -/
def Tile.countBy (d : Tile) (t : Fin 4) (f : Fld) (n : Nat) : Tile :=
  { d with cnt := regSet d.cnt f t.val 0 (min (regGet d.cnt f t.val 0 + n) (2 ^ f.w - 1))
           fresh := Sparse.update 0 d.fresh (f.key t.val 0) (· + n) }

/-- Counts one event of the tile. -/
def Tile.countUp (d : Tile) (t : Fin 4) (f : Fld) : Tile := d.countBy t f 1

/-- A cell's configuration word (R64; reset 0x0080). -/
def Tile.cellWord (d : Tile) (c : Nat) : Nat := Sparse.get 0x80 d.cellCfg c

/-- A cluster's configuration word (R65; reset 0x0004). -/
def Tile.clusterWord (d : Tile) (cl : Nat) : Nat := Sparse.get 4 d.clusterCfg cl

/-- The state of a cell. -/
def Tile.cell (d : Tile) (c : Nat) : Cell := Sparse.get {} d.cells c

/-- Changes a cell. -/
def Tile.modCell (d : Tile) (c : Nat) (f : Cell → Cell) : Tile := { d with cells := Sparse.update {} d.cells c f }

/-- The state of a cluster. -/
def Tile.cluster (d : Tile) (cl : Nat) : Cluster := Sparse.get {} d.clusters cl

/-- Changes a cluster. -/
def Tile.modCluster (d : Tile) (cl : Nat) (f : Cluster → Cluster) : Tile :=
  { d with clusters := Sparse.update {} d.clusters cl f }

/-- The throttle override of a district: bit 0 `FIXED_HIGH`, bit 1 `SAR_OFF` (R647). -/
def Tile.throttleOf (d : Tile) (district : Nat) : Nat := Sparse.get 0 d.throttle district

/-- The gain mode a cluster is set to, throttle included (R65, R647). -/
def Tile.gmode (d : Tile) (cl : Nat) : Nat :=
  if d.throttleOf (cl / 256) % 2 = 1 then 1 else cfgGmode (d.clusterWord cl)

/-- The gain mode in force for a cell: a cell that was busy at a change keeps the old one (R50). -/
def Tile.cellGmode (d : Tile) (c : Nat) : Nat :=
  match (d.cell c).keepMode with
  | some m => m.toNat
  | none => d.gmode (clusterOf c)

/-- Whether a cluster's SAR converts (R52, R647). -/
def Tile.sarOn (d : Tile) (cl : Nat) : Bool :=
  !d.quiet && cfgSarEn (d.clusterWord cl) && bitsOf (d.throttleOf (cl / 256)) 1 1 = 0

/-- Whether a cell's discriminator is blanked (R44). -/
def Tile.blanked (d : Tile) (now c : Nat) : Bool :=
  (d.blankUntil.any fun u => now < u) || ((d.cell c).blankUntil.any fun u => now < u)

/-- Whether the tile times the return crossing (R43). -/
def Tile.slopeOn (d : Tile) : Bool := d.slope && d.calib

/-! ### Interpolators (R87, R90, R94) -/

/-- Since when an interpolator is free, if it is. -/
def Interp.freeSince (i : Interp) (now : Nat) : Option Nat :=
  match i with
  | .free n => some n
  | .busy u => if u ≤ now then some u else none

/-- Since when a cluster's DLL is locked, if it is. -/
def Tile.lockedAt (d : Tile) (cl : Nat) : Option Nat :=
  match (d.cluster cl).dll with
  | .locked n => some n
  | _ => none

/-- Whether an interpolator is disabled or forced off (R90, R92, R116). -/
def Tile.ipDisabled (d : Tile) (cl : Nat) (ip : Bool) : Bool :=
  !cfgDllEn (d.clusterWord cl) || cfgIpOff (d.clusterWord cl) ip || decide (d.forcedOff = some ip)

/-- Since when an interpolator can take an edge of a tick, given what the edge found at its capture: since when the DLL was locked,
and whether the interpolator was disabled; none where it counts as busy (R90). -/
def Tile.ipFree (d : Tile) (tick cl : Nat) (locked : Option Nat) (off ip : Bool) : Option Nat :=
  match locked with
  | some n =>
    if n < tick ∧ off = false then ((if ip then (d.cluster cl).ip1 else (d.cluster cl).ip0).freeSince tick).map (max n) else none
  | none => none

/-- The interpolator an edge takes of the two: the one free longer, 0 on a tie, none when both are busy (R94). -/
def chooseIp : Option Nat → Option Nat → Option Bool
  | some a, some b => some (decide (b < a))
  | some _, none => some false
  | none, some _ => some true
  | none, none => none

/-- The interpolator an edge of now takes (R94). -/
def Tile.allocate (d : Tile) (now cl : Nat) : Option Bool :=
  chooseIp (d.ipFree now cl (d.lockedAt cl) (d.ipDisabled cl false) false)
    (d.ipFree now cl (d.lockedAt cl) (d.ipDisabled cl true) true)

/-- Marks the interpolator that an edge took as busy until the third tick boundary after it (R87). -/
def Tile.takeIp (d : Tile) (now cl : Nat) (ip : Option Bool) : Tile :=
  match ip with
  | none => d
  | some false => d.modCluster cl fun k => { k with ip0 := .busy (now + 3) }
  | some true => d.modCluster cl fun k => { k with ip1 := .busy (now + 3) }

/-! ### Pulses and conversions (R45 to R57, R94 to R101) -/

/-- `TOT` and its flag from the raw difference (R98). -/
def totOf (raw : Int) (fullyTimed : Bool) : Nat × Nat :=
  if 0 < raw then (min raw.toNat 131070, 0)
  else if raw = 0 ∨ fullyTimed then (0, flagZeroTot)
  else (0, flagOrder)

/-- The letter of a pulse before its amplitude is known. -/
def Pulse.letter (p : Pulse) (t : Fin 4) (c tot flags : Nat) : Letter :=
  { channel := BitVec.ofNat 20 (channelOf t c)
    lead := p.lead
    fine := p.fine
    tot := BitVec.ofNat 17 tot
    amp := 0
    gain := p.gainLow
    flags := BitVec.ofNat 7 (flags + (if p.coarseOnly then flagCoarseOnly else 0) +
      (if p.switched then flagGainSwitched else 0) + (if p.calib then flagCalib else 0))
    ip := p.ip }

/-- A letter without amplitude on its way to completion at tick `due` (R57). -/
def Tile.complete (d : Tile) (c : BitVec 18) (due : Nat) (l : Letter) : Tile :=
  { d with completing := d.completing ++ [(c, due, l)] }

/-! ### Conversion requests (R45 to R47) -/

/-- A request is placed among those waiting: behind the earlier ones and, of those of the same tick, behind the lower cells
(R46, R47). -/
def SarRequest.place (r : SarRequest) : List SarRequest → List SarRequest
  | [] => [r]
  | x :: xs => if x.raisedAt = r.raisedAt ∧ r.cell.toNat < x.cell.toNat then r :: x :: xs else x :: r.place xs

/-- A request that finds the SAR converting: one may wait, two where the conversion ends in the request's own tick. The last in
order finds no place: its peak hold is released, and its letter gets no amplitude (R46). -/
def Tile.await (d : Tile) (t : Fin 4) (cl : Nat) (v : Conversion) (r : SarRequest) : Tile :=
  let room := if v.startAt + 1536 ≤ r.raisedAt then 2 else 1
  let q := r.place (d.cluster cl).waiting
  let d := (d.modCluster cl fun k => { k with waiting := q.take room }).modCell r.cell.toNat fun e => { e with peakHeld := true }
  (q.drop room).foldl (fun d x =>
    ((d.modCell x.cell.toNat fun e => { e with peakHeld := false }).countUp t F.SORT_FE_CNT_QFULL_COUNT).complete x.cell
      (x.raisedAt + 8) x.letter) d

/-- A request starts to convert. -/
def Tile.convert (d : Tile) (cl : Nat) (r : SarRequest) (at_ : Nat) : Tile :=
  (d.modCluster cl fun k => { k with conv := some { cell := r.cell, letter := r.letter, raisedAt := r.raisedAt, startAt := at_, sampled := false } }).modCell
    r.cell.toNat fun e => { e with peakHeld := true }

/-- A conversion request reaches the SAR (R46): it converts at once where the SAR is idle. Of requests of one tick the lower cell
comes first, so a conversion that a higher cell began in the same tick gives way (R47). -/
def Tile.request (d : Tile) (t : Fin 4) (cl : Nat) (r : SarRequest) : Tile :=
  match (d.cluster cl).conv with
  | none => d.convert cl r r.raisedAt
  | some v =>
    if v.raisedAt = r.raisedAt ∧ v.startAt = r.raisedAt ∧ r.cell.toNat < v.cell.toNat then
      (d.convert cl r r.raisedAt).await t cl { v with cell := r.cell } { cell := v.cell, letter := v.letter, raisedAt := v.raisedAt }
    else d.await t cl v r

/-- Ends a pulse: closes the reset switch at the tick boundary `b` and raises the conversion request there, or does
what R52, R53 and R55 say instead. `now` is the tick of the trailing edge. -/
def Tile.endPulse (d : Tile) (t : Fin 4) (c : BitVec 18) (now b : Nat) (noPeak : Bool) (l : Letter) : Tile :=
  let cl := clusterOf c.toNat
  let d := d.modCell c.toNat fun e => { e with phase := .resetClosed (b + d.rstTicks.toNat) }
  if cfgPeakEn (d.cellWord c.toNat) = false then d.complete c (now + 8) l
  else if d.sarOn cl = false then d.complete c (b + 8) l
  else if noPeak then (d.countUp t F.SORT_FE_CNT_PBUSY_COUNT).complete c (now + 8) l
  else d.request t cl { cell := c, letter := l, raisedAt := b }

/-! ### The edge arbiter (R94 to R96) -/

/-- A pulse with the stamp of its leading edge (R96). -/
def Pulse.stamp (p : Pulse) (fine : BitVec 7) (ip : Option Bool) : Pulse :=
  { p with fine := if ip.isNone then 0 else fine, coarseOnly := ip.isNone, ip := decide (ip = some true) }

/-- `TOT` and its flag of the pulse that a trailing edge ends (R96, R98). -/
def Edge.tot (e : Edge) (p : Pulse) : Nat × Nat :=
  let fT : Int := if e.ip.isNone then 64 else e.fine.toNat
  let fL : Int := if p.coarseOnly then 64 else p.fine.toNat
  totOf (((e.count - p.lead).toNat : Int) * 128 + fT - fL) (e.ip.isSome && !p.coarseOnly)

/-- The bin of an edge on the model's clock. -/
def Edge.bin (e : Edge) : Nat := e.tick * 128 + e.fine.toNat

/-- The order within a window: leading edges first, then the lower cell (R95). -/
def Edge.before (a b : Edge) : Bool :=
  (!a.trailing && b.trailing) || (a.trailing == b.trailing && decide (a.cell.toNat < b.cell.toNat))

/-- The edges of the arbiter's window that are less than 4 bins from an edge (R95). -/
def Cluster.window (k : Cluster) (bin : Nat) : List Edge := if bin < k.openBin + 4 ∧ k.openBin < bin + 4 then k.edges else []

/-- An edge with what it finds at its capture (R90, R93). -/
def Tile.caught (d : Tile) (cl : Nat) (e : Edge) : Edge :=
  { e with locked := d.lockedAt cl, off0 := d.ipDisabled cl false, off1 := d.ipDisabled cl true }

/-- Allocates edges in the arbiter's order, each in its own tick and by what it found at its capture (R93, R94). -/
def Tile.allot (d : Tile) (cl : Nat) : List Edge → Tile × List Edge
  | [] => (d, [])
  | e :: es =>
    let ip := chooseIp (d.ipFree e.tick cl e.locked e.off0 false) (d.ipFree e.tick cl e.locked e.off1 true)
    let r := (d.takeIp e.tick cl ip).allot cl es
    (r.1, { e with ip := ip } :: r.2)

/-- Replaces the letter of a pulse of a cell, wherever it waits for its amplitude or for completion. -/
def Tile.reletter (d : Tile) (cl : Nat) (c : BitVec 18) (l : Letter) : Tile :=
  let same := fun (x : BitVec 18) (m : Letter) => decide (x = c) && decide (m.lead = l.lead)
  let d := d.modCluster cl fun k =>
    { k with conv := k.conv.map fun v => if same v.cell v.letter then { v with letter := l } else v
             waiting := k.waiting.map fun r => if same r.cell r.letter then { r with letter := l } else r }
  { d with completing := d.completing.map fun x => if same x.1 x.2.2 then (x.1, x.2.1, l) else x }

/-- Gives an edge of the window the stamp that it has now (R95): the pulse it started, or the letter it ended. -/
def Tile.restamp (t : Fin 4) (cl : Nat) (es : List Edge) (d : Tile) (e : Edge) : Tile :=
  if e.trailing then
    let lead := es.find? fun x => !x.trailing && decide (x.cell = e.cell) && decide (x.count = e.pulse.lead)
    let p := match lead with
      | some x => e.pulse.stamp x.fine x.ip
      | none => e.pulse
    d.reletter cl e.cell (p.letter t e.cell.toNat (e.tot p).1 (e.tot p).2)
  else
    match (d.cell e.cell.toNat).phase with
    | .pulse p =>
      if p.lead = e.count then d.modCell e.cell.toNat fun x => { x with phase := .pulse (p.stamp e.fine e.ip) } else d
    | _ => d.reletter cl e.cell ((e.pulse.stamp e.fine e.ip).letter t e.cell.toNat 0 0)

/-- The edges placed in the tick of an edge: those of the tick that the window does not hold, and the window's (R90). -/
def tickEdgesAfter (old window : List Edge) (e : Edge) : List Edge :=
  (old.filter fun x => decide (x.tick = e.tick) && !window.any fun y => decide (y.cell = x.cell ∧ y.count = x.count) && y.trailing == x.trailing) ++
    window.filter fun x => decide (x.tick = e.tick)

/-- How many edges of a class have a coarse-only stamp. -/
def coarseOf (trailing : Bool) (es : List Edge) : Nat := (es.filter fun e => e.trailing == trailing && e.ip.isNone).length

/-- The arbiter places an edge (R94, R95): the edges less than 4 bins apart are allocated again, in its order, from the
interpolators as they stood before them, and each takes the stamp that this gives it. -/
def Tile.arbitrate (d : Tile) (t : Fin 4) (cl : Nat) (e : Edge) : Tile × Option Bool :=
  let e := d.caught cl e
  let old := (d.cluster cl).window e.bin
  let d := d.modCluster cl fun k =>
    if old.isEmpty then { k with base0 := k.ip0, base1 := k.ip1, openBin := e.bin } else { k with ip0 := k.base0, ip1 := k.base1 }
  let r := d.allot cl (old.filter (·.before e) ++ e :: old.filter fun x => !x.before e)
  let d := (r.1.modCluster cl fun k => { k with edges := r.2, tickEdges := tickEdgesAfter k.tickEdges r.2 e }).countBy t F.SORT_TE_CNT_COLEAD_COUNT (coarseOf false r.2 - coarseOf false old)
  let d := d.countBy t F.SORT_TE_CNT_COTRAIL_COUNT (coarseOf true r.2 - coarseOf true old)
  let others := r.2.filter fun x => decide (x.cell ≠ e.cell) || x.trailing != e.trailing
  (if old.isEmpty then d else others.foldl (Tile.restamp t cl r.2) d,
    (r.2.find? fun x => decide (x.cell = e.cell) && x.trailing == e.trailing).bind (·.ip))

/-- An accepted leading edge: takes an interpolator or a coarse-only stamp and starts a pulse (R55, R61, R94, R96). In
a tile that times the return crossing the letter is formed at once, with `TOT` 0 (R43, R101). -/
def Tile.startPulse (d : Tile) (t : Fin 4) (c : BitVec 18) (now : Nat) (fine : BitVec 7) : Tile :=
  let cl := clusterOf c.toNat
  let switched := d.slopeOn && (d.cell c.toNat).preSwitch
  let p : Pulse :=
    { lead := d.count, leadAt := now, fine := fine, coarseOnly := false, ip := false,
      gainLow := decide (d.cellGmode c.toNat = 2) || switched, switched := switched, calib := d.calib,
      noPeak := (d.cell c.toNat).peakHeld }
  let r := d.arbitrate t cl { cell := c, trailing := false, tick := now, count := d.count, fine := fine, ip := none, pulse := p }
  let p := p.stamp fine r.2
  if d.slopeOn then r.1.endPulse t c now (if fine = 0 then now else now + 1) p.noPeak (p.letter t c.toNat 0 0)
  else r.1.modCell c.toNat fun e => { e with phase := .pulse p }

/-- Whether a cell takes a leading edge: armed, enabled, and not blanked (R44, R54, R62, R63); in QUIET no cell does
(R647). -/
def Tile.accepts (d : Tile) (now : Nat) (c : BitVec 18) : Bool :=
  !d.inReset && !d.quiet && (d.cell c.toNat).phase = .idle && cfgDiscEn (d.cellWord c.toNat) && !d.blanked now c.toNat

/-- LEADING_EDGE (R54, R94): an edge that the cell does not accept produces nothing. -/
def execLeadingEdge (t : Fin 4) (cell : BitVec 18) (fine : BitVec 7) (s : State) : Out :=
  .next (s.modTile t fun d => if d.accepts s.now cell then d.startPulse t cell s.now fine else d)

/-- The end of a pulse at 1,024 ticks (R56). -/
def Tile.saturate (d : Tile) (t : Fin 4) (c : BitVec 18) (now : Nat) (p : Pulse) : Tile :=
  (d.countUp t F.SORT_FE_CNT_TOTSAT_COUNT).endPulse t c now now p.noPeak (p.letter t c.toNat 0x1FFFF 0)

/-- A trailing edge of a pulse: timed like a leading edge (R94, R96, R98). -/
def Tile.trail (d : Tile) (t : Fin 4) (c : BitVec 18) (now : Nat) (p : Pulse) (fine : BitVec 7) : Tile :=
  if p.leadAt + 1024 ≤ now then d.saturate t c now p
  else
    let e : Edge := { cell := c, trailing := true, tick := now, count := d.count, fine := fine, ip := none, pulse := p }
    let r := d.arbitrate t (clusterOf c.toNat) e
    let p := match (r.1.cell c.toNat).phase with
      | .pulse p => p
      | _ => p
    let tot := { e with ip := r.2 }.tot p
    r.1.endPulse t c now (if fine = 0 then now else now + 1) p.noPeak (p.letter t c.toNat tot.1 tot.2)

/-- TRAILING_EDGE (R45, R98, R99): a trailing edge with no accepted leading edge, on an armed and enabled cell, is an
orphan: counted, and the reset switch closes. -/
def execTrailingEdge (t : Fin 4) (cell : BitVec 18) (fine : BitVec 7) (s : State) : Out :=
  .next (s.modTile t fun d =>
    match (d.cell cell.toNat).phase with
    | .pulse p => d.trail t cell s.now p fine
    | _ =>
      if d.accepts s.now cell && !d.slopeOn then
        (d.countUp t F.SORT_TE_CNT_ORPHAN_COUNT).modCell cell.toNat fun e =>
          { e with phase := .resetClosed ((if fine = 0 then s.now else s.now + 1) + d.rstTicks.toNat) }
      else d)

/-- GAIN_SWITCH (R38): a pulse in AUTO goes to low gain, once. With `SLOPE` in force the switch comes before the crossing that
starts the hit (R43). -/
def execGainSwitch (t : Fin 4) (cell : BitVec 18) (s : State) : Out :=
  .next (s.modTile t fun d =>
    match (d.cell cell.toNat).phase with
    | .pulse p =>
      if d.cellGmode cell.toNat = 0 then
        d.modCell cell.toNat fun e => { e with phase := .pulse { p with gainLow := true, switched := true } }
      else d
    | .idle =>
      if d.slopeOn && d.accepts s.now cell && decide (d.cellGmode cell.toNat = 0) then
        d.modCell cell.toNat fun e => { e with preSwitch := true }
      else d
    | _ => d)

/-- TOT_SATURATION (R56): at 1,024 ticks the pulse ends with `TOT` 0x1_FFFF. -/
def execTotSaturation (t : Fin 4) (cell : BitVec 18) (s : State) : Out :=
  .next (s.modTile t fun d =>
    match (d.cell cell.toNat).phase with
    | .pulse p => if p.leadAt + 1024 ≤ s.now then d.saturate t cell s.now p else d
    | _ => d)

/-- RESET_SWITCH_OPEN (R36, R40, R50): the switch opens `RST_TICKS` after it closed, recovery starts, and a gain mode
that waited takes effect. -/
def execResetSwitchOpen (t : Fin 4) (cell : BitVec 18) (s : State) : Out :=
  .next (s.modTile t fun d =>
    match (d.cell cell.toNat).phase with
    | .resetClosed u =>
      if u ≤ s.now then d.modCell cell.toNat fun e => { e with phase := .recovering (u + 12), keepMode := none, preSwitch := false } else d
    | _ => d)

/-- CELL_REARM (R36, R56, R100): at the end of recovery the cell re-arms; above threshold it starts a hit at once. -/
def execCellRearm (t : Fin 4) (cell : BitVec 18) (above : Bool) (fine : BitVec 7) (s : State) : Out :=
  .next (s.modTile t fun d =>
    match (d.cell cell.toNat).phase with
    | .recovering u =>
      if u ≤ s.now then
        let d := d.modCell cell.toNat fun e => { e with phase := .idle }
        if above && d.accepts s.now cell then d.startPulse t cell s.now fine else d
      else d
    | _ => d)

/-- SAR_SAMPLING_END (R45): 192 ticks into the conversion the peak hold is released. -/
def execSarSamplingEnd (t : Fin 4) (cluster : BitVec 14) (s : State) : Out :=
  .next (s.modTile t fun d =>
    match (d.cluster cluster.toNat).conv with
    | some v =>
      if v.startAt + 192 ≤ s.now ∧ v.sampled = false then
        (d.modCluster cluster.toNat fun k => { k with conv := some { v with sampled := true } }).modCell v.cell.toNat
          fun e => { e with peakHeld := false }
      else d
    | none => d)

/-- The amplitude a letter takes from a conversion (R49). -/
def ampOf (raw : BitVec 12) : BitVec 12 := if raw = 0 then 1 else raw

/-- SAR_CONVERSION_END (R46, R49, R50, R57): the converted letter completes 8 ticks later, and a waiting request starts
to convert. -/
def execSarConversionEnd (t : Fin 4) (cluster : BitVec 14) (raw : BitVec 12) (s : State) : Out :=
  .next (s.modTile t fun d =>
    let k := d.cluster cluster.toNat
    match k.conv with
    | some v =>
      if v.startAt + 1536 ≤ s.now then
        let flags := if k.settle = 0 then v.letter.flags else v.letter.flags ||| BitVec.ofNat 7 flagSettling
        let l := { v.letter with amp := ampOf raw, flags := flags }
        let d := if v.sampled then d else d.modCell v.cell.toNat fun e => { e with peakHeld := false }
        let d := d.modCluster cluster.toNat fun k =>
          { k with
            settle := k.settle - 1
            conv := k.waiting.head?.map fun r => { cell := r.cell, letter := r.letter, raisedAt := r.raisedAt, startAt := s.now, sampled := false }
            waiting := k.waiting.tail }
        d.complete v.cell (s.now + 8) l
      else d
    | none => d)

/-- INTERPOLATOR_RELEASE (R87): the interpolator is free from the third tick boundary after its edge. -/
def execInterpolatorRelease (t : Fin 4) (cluster : BitVec 14) (ip : Bool) (s : State) : Out :=
  .next (s.modTile t fun d =>
    let k := d.cluster cluster.toNat
    match (if ip then k.ip1 else k.ip0) with
    | .busy u =>
      if u ≤ s.now then
        d.modCluster cluster.toNat fun k => if ip then { k with ip1 := .free u } else { k with ip0 := .free u }
      else d
    | .free _ => d)

/-- BLANKING_END (R44, R100): the discriminator of the cell is no longer blanked; that starts no hit. -/
def execBlankingEnd (t : Fin 4) (cell : BitVec 18) (s : State) : Out :=
  .next (s.modTile t fun d =>
    let d := if d.blankUntil.any fun u => u ≤ s.now then { d with blankUntil := none } else d
    if (d.cell cell.toNat).blankUntil.any fun u => u ≤ s.now then
      d.modCell cell.toNat fun e => { e with blankUntil := none }
    else d)

/-! ### Injection (R59, R60) -/

/-- Whether a running sequence's `SELECT` matches a cell (R670): row mask and value, column mask and value. -/
def selectMatches (sel : W32) (c : Nat) : Bool :=
  let b := fun k => bitsOf sel.toNat (8 * k) 8
  (cellRow c &&& b 0) = b 1 && (cellCol c &&& b 2) = b 3

/-- Whether a cell receives injection strobes (R60): its word says so, or a running sequence sets `INJ_SEL` as a runtime state
(R671). -/
def Tile.injSelected (d : Tile) (c : Nat) : Bool := cfgInjSel (d.cellWord c) || d.injSelect.any fun sel => selectMatches sel c

/-- The selected cells that are skipped because they are not armed; a cell with `DISC_EN` = 0 is never counted (R60). Only cells
listed in the state can be busy. -/
def Tile.injSkipped (d : Tile) : Nat :=
  (d.cells.filter fun e => e.2.phase ≠ .idle && d.injSelected e.1 && cfgDiscEn (d.cellWord e.1)).length

/-! ### Configuration latches and words (R44, R50, R65, R66, R68, R88, R93) -/

/-- A cell takes a new configuration word: a change of `TRIM` blanks its discriminator for 96 ticks (R44, R68). -/
def Tile.applyCellWord (d : Tile) (now c w : Nat) : Tile :=
  let old := d.cellWord c
  let d := { d with cellCfg := Sparse.set 0x80 d.cellCfg c (w % 65536) }
  if cfgTrim old = cfgTrim w then d else d.modCell c fun e => { e with blankUntil := some (now + 96) }

/-- The gain mode of a cluster changes: busy cells keep the old one until their reset switch opens, and the next two
conversions carry SETTLING (R50). -/
def Tile.gmodeChanged (d : Tile) (cl old : Nat) : Tile :=
  let d := (cellsOf cl).foldl (fun d c =>
    match (d.cell c).phase, (d.cell c).keepMode with
    | .pulse _, none => d.modCell c fun e => { e with keepMode := some (BitVec.ofNat 2 old) }
    | .resetClosed _, none => d.modCell c fun e => { e with keepMode := some (BitVec.ofNat 2 old) }
    | _, _ => d) d
  d.modCluster cl fun k => { k with settle := 2 }

/-- The DLL settings of a cluster word: `DLL_EN`, `DLL_BW`, `DLL_START` (R93). -/
def dllSettings (w : Nat) : Nat := bitsOf w 15 1 * 16 + bitsOf w 8 4

/-- An interpolator that `IPCFG` no longer disables: it counted as busy until now (R90, R94). -/
def Interp.enabled (i : Interp) (now : Nat) : Interp :=
  match i with
  | .free u => .free (max u now)
  | .busy u => .busy (max u now)

/-- The SAR of a cluster stops converting (R52): the request that it converts and those that wait are dropped, their peak holds
released, and their letters complete without amplitude, 8 ticks after the tick boundary of the request, at once where that has
passed (log entry 16). -/
def Tile.stopSar (d : Tile) (now cl : Nat) : Tile :=
  let k := d.cluster cl
  let rs := (k.conv.map fun v => (v.cell, v.raisedAt, v.letter)).toList ++ k.waiting.map fun r => (r.cell, r.raisedAt, r.letter)
  let d := d.modCluster cl fun k => { k with conv := none, waiting := [] }
  rs.foldl (fun d r => (d.modCell r.1.toNat fun e => { e with peakHeld := false }).complete r.1 (max (r.2.1 + 8) now) r.2.2) d

/-- Stops the SAR of a cluster that no longer converts (R52). -/
def Tile.settleSar (d : Tile) (now cl : Nat) : Tile := if d.sarOn cl then d else d.stopSar now cl

/-- The same for every cluster of the tile. -/
def Tile.settleSars (d : Tile) (now : Nat) : Tile := (d.clusters.map (·.1)).foldl (fun d cl => d.settleSar now cl) d

/-- A cluster takes a new configuration word (R50, R52, R68, R88, R93). -/
def Tile.applyClusterWord (d : Tile) (now cl w : Nat) : Tile :=
  let old := d.clusterWord cl
  let oldMode := d.gmode cl
  let d := { d with clusterCfg := Sparse.set 4 d.clusterCfg cl (w % 65536) }
  let d := (if d.gmode cl = oldMode then d else d.gmodeChanged cl oldMode).settleSar now cl
  let on := fun ip => cfgIpOff old ip && !cfgIpOff w ip
  let d := if on false || on true then
      d.modCluster cl fun k => { k with ip0 := if on false then k.ip0.enabled now else k.ip0
                                        ip1 := if on true then k.ip1.enabled now else k.ip1 }
    else d
  if dllSettings old = dllSettings w then d
  else d.modCluster cl fun k => { k with dll := if cfgDllEn w && !d.quiet then .acquiring (now + 1) else .off }

/-- Majority of three latches, bit by bit (R66). -/
def majority (a b c : W16) : W16 := (a &&& b) ||| (a &&& c) ||| (b &&& c)

/-- The configuration word of a place (R64, R65). -/
def Tile.placeWord (d : Tile) (isCluster : Bool) (p : Nat) : Nat := if isCluster then d.clusterWord p else d.cellWord p

/-- A place takes a configuration word. -/
def Tile.applyWord (d : Tile) (now : Nat) (isCluster : Bool) (p w : Nat) : Tile :=
  if isCluster then d.applyClusterWord now p w else d.applyCellWord now p w

/-- Voting of a place with the upsets of the previous tick (R66): the word becomes the majority, with all that a changed word does;
every latch that disagreed counts, and the tick's count stays known for R162. -/
def Tile.voteLatches (d : Tile) (t : Fin 4) (now : Nat) (isCluster : Bool) (p : Nat) (u0 u1 u2 : W16) : Tile :=
  let w := BitVec.ofNat 16 (d.placeWord isCluster p)
  let a := w ^^^ u0
  let b := w ^^^ u1
  let c := w ^^^ u2
  let m := majority a b c
  let n := popcount 16 ((a ^^^ m) ||| (b ^^^ m) ||| (c ^^^ m)).toNat
  let f := F.SORT_FE_CNT_SEU_COUNT
  let e := d.countBy t f n
  let e := { e with seuNow := (isCluster, p, regGet e.cnt f t.val 0 - regGet d.cnt f t.val 0) :: e.seuNow }
  if m = w then e else e.applyWord now isCluster p m.toNat

/-- A configuration write of the tick takes these corrections back: they are not counted (R162). -/
def Tile.uncountSeu (d : Tile) (t : Fin 4) (cmd : W64) : Tile :=
  let hit := fun (x : Bool × Nat × Nat) => x.1 == cmdIsCluster cmd && (cmdPlaces cmd).contains x.2.1
  let n := ((d.seuNow.filter hit).map (·.2.2)).sum
  let f := F.SORT_FE_CNT_SEU_COUNT
  { d with cnt := regSet d.cnt f t.val 0 (regGet d.cnt f t.val 0 - n)
           fresh := Sparse.update 0 d.fresh (f.key t.val 0) (· - n)
           seuNow := d.seuNow.filter fun x => !hit x }

/-! ### Orders over the downlink (R42 to R44, R50, R52, R71, R73, R116, R647, R671) -/

/-- Other overrides of the districts: the gain mode in force may change (R50), and SARs may stop (R52). -/
def Tile.setThrottle (d : Tile) (now : Nat) (m : Sparse Nat) : Tile :=
  let cls := ((List.range 64).filter fun k => Sparse.get 0 d.throttle k % 2 ≠ Sparse.get 0 m k % 2).flatMap fun k =>
    (List.range 256).map fun j => k * 256 + j
  let e := { d with throttle := m }
  (cls.foldl (fun x cl => if d.gmode cl = e.gmode cl then x else x.gmodeChanged cl (d.gmode cl)) e).settleSars now

/-- The active threshold takes a value; a change blanks the whole tile for 96 ticks (R44). -/
def Tile.driveThreshold (d : Tile) (now : Nat) (g : BitVec 10) : Tile :=
  if g = d.gthrAct then d else { d with gthrAct := g, blankUntil := some (now + 96) }

/-- An order acts. A change of polarity blanks like one of the threshold (R44); while a sequence runs, it drives the threshold
(R73). -/
def Tile.applyOrder (d : Tile) (now : Nat) : TileOrder → Tile
  | .settings g pol slope rst close =>
    let d := { d with gthrSet := g, pol := pol, slope := slope, rstTicks := rst, closeDly := close
                      blankUntil := if pol = d.pol then d.blankUntil else some (now + 96) }
    if d.injSelect.isSome then d else d.driveThreshold now g
  | .point inj g => { d with injAct := inj }.driveThreshold now g
  | .sequence sel forced => { d with injSelect := sel, forcedOff := forced }
  | .throttle k bits => d.setThrottle now (Sparse.set 0 d.throttle k bits)
  | .throttleClear => d.setThrottle now []

/-- The orders that have come act in the tick after their arrival (R44, R50). -/
def Tile.applyOrders (d : Tile) (now : Nat) : Tile := d.orders.foldl (fun d x => d.applyOrder now x) { d with orders := [] }

/-- Outside a sequence the active threshold returns to the set-point at a round boundary (R73); in a dither sequence the other
interpolator is forced off there (R671). -/
def Tile.boundaryOrders (d : Tile) (now : Nat) : Tile :=
  match d.injSelect with
  | none => d.driveThreshold now d.gthrSet
  | some _ => { d with forcedOff := d.forcedOff.map not }

/-- Whether a tile takes commands of an office: its vote names it (R18), and it is not in reset. -/
def State.heeds (s : State) (t : Fin 4) (o : OfficeId) : Bool := (s.tile t).vote = .office o && !(s.tile t).inReset

/-- Sends a tile an order: taken from the office that its vote names (R18), in force in the tick after (R44). The form on the wire
of the orders beside those of R330 is not stated (log entry 77). -/
def State.orderTile (s : State) (o : OfficeId) (t : Fin 4) (x : TileOrder) : State :=
  if s.heeds t o then s.modTile t fun d => { d with orders := d.orders ++ [x] } else s

/-- An order that tile and owner put into force together, at the round boundary that the spec names for it (R59, R671). -/
def State.orderNow (s : State) (o : OfficeId) (t : Fin 4) (x : TileOrder) : State :=
  if s.heeds t o then s.modTile t fun d => d.applyOrder s.now x else s

/-! ### DLLs (R88 to R91) -/

/-- The key of a cluster of a tile in the office's tables. -/
def dllKey (t : Fin 4) (cl : Nat) : Nat := t.val * 16384 + cl

/-- DLL_LOCK (R88, R90, R91): a DLL that has acquired for at least 1,024 ticks declares lock; 0x0121 may be raised for
it again. -/
def execDllLock (t : Fin 4) (cluster : BitVec 14) (s : State) : Out :=
  .next (
    match ((s.tile t).cluster cluster.toNat).dll with
    | .acquiring since =>
      if since + 1024 ≤ s.now then
        let s := s.modTile t fun d => d.modCluster cluster.toNat fun k => { k with dll := .locked s.now }
        let clear := fun (d : Office) => { d with dllNoted := d.dllNoted.erase (dllKey t cluster.toNat) }
        (s.modOff .A clear).modOff .B clear
      else s
    | _ => s)

/-- Notice 0x0120, at most once a second for a cluster (R91). -/
def State.noticeUnlock (s : State) (o : OfficeId) (t : Fin 4) (cl : Nat) : State :=
  let last := Sparse.get 0 (s.off o).dllNoticeAt (dllKey t cl)
  if last ≠ 0 ∧ s.now < last - 1 + ticksOfUs 1000000 then s
  else
    (s.modOff o fun d => { d with dllNoticeAt := Sparse.set 0 d.dllNoticeAt (dllKey t cl) (s.now + 1) }).raise o 0x0120
      (le 1 t.val ++ le 2 cl)

/-- The counts of an interpolator in a code-density pass restart from zero (R114). -/
def CodeDensity.restart (c : CodeDensity) (ip : Nat) : CodeDensity :=
  { c with m := Sparse.set 0 c.m ip 0, c := c.c.filter fun e => e.1 / 16 ≠ ip }

/-- A cluster's DLL has gone from locked to unlocked (R91, R114): counted, the owner raises 0x0120, and a running code-density
pass restarts the cluster's counts. It is known to the owner at once: the spec gives no frame for it (log entry 81). -/
def State.noteUnlock (s : State) (t : Fin 4) (cl : Nat) : State :=
  let s := s.modTile t fun d => d.countUp t F.SORT_TE_CNT_UNLOCK_COUNT
  match s.owner with
  | some o =>
    let ip := t.val * 32768 + cl * 2
    (s.modOff o fun d => { d with cd := (d.cd.restart ip).restart (ip + 1) }).noticeUnlock o t cl
  | none => s

/-- The clusters of a tile whose DLL is locked. -/
def Tile.lockedClusters (d : Tile) : List Nat :=
  (d.clusters.filter fun e => match e.2.dll with
    | .locked _ => true
    | _ => false).map (·.1)

/-- A change of a tile by configuration or by QUIET, and what it unlocks: on every transition from locked to unlocked the count and
the notice of R91 follow. -/
def State.modTileDlls (s : State) (t : Fin 4) (f : Tile → Tile) : State :=
  let u := s.modTile t f
  let still := (u.tile t).lockedClusters
  ((s.tile t).lockedClusters.filter fun cl => !still.contains cl).foldl (fun s cl => s.noteUnlock t cl) u

/-- LATCH_MAJORITY_CORRECTION (R66): the upsets of the previous tick, one mask for each latch of every bit, are voted. In the tick in
which a configuration write of the place took effect, the write stands and nothing counts (R162). -/
def execLatchMajorityCorrection (t : Fin 4) (isCluster : Bool) (place : BitVec 18) (u0 u1 u2 : W16) (s : State) : Out :=
  .next (
    let d := s.tile t
    let p := if isCluster then place.toNat % 16384 else place.toNat
    if d.lastWriteAt = s.now ∧ (d.lastWrite.any fun c => cmdIsCluster c = isCluster && (cmdPlaces c).contains p) then s
    else s.modTileDlls t fun d => d.voteLatches t s.now isCluster p u0 u1 u2)

/-- A DLL loses lock: the edges of this very tick see it as not locked and become coarse-only, counted and stamped so (R90, R96);
acquisition starts again at once (R89). -/
def Tile.loseLock (d : Tile) (t : Fin 4) (now cl : Nat) : Tile :=
  let hit := fun (e : Edge) => decide (e.tick = now) && e.ip.isSome
  let strip := fun (e : Edge) => if e.tick = now then { e with ip := none, locked := none } else e
  let k := d.cluster cl
  let es := k.tickEdges.filter hit
  let d := d.modCluster cl fun k =>
    { k with dll := .acquiring now, edges := k.edges.map strip, tickEdges := k.tickEdges.map strip }
  let d := (d.countBy t F.SORT_TE_CNT_COLEAD_COUNT (es.filter fun e => !e.trailing).length).countBy t F.SORT_TE_CNT_COTRAIL_COUNT
    (es.filter fun e => e.trailing).length
  (es.map strip).foldl (Tile.restamp t cl ((k.edges.map strip) ++ k.tickEdges.map strip)) d

/-- DLL_LOSS_OF_LOCK (R89, R90, R91, R114). -/
def execDllLossOfLock (t : Fin 4) (cluster : BitVec 14) (s : State) : Out :=
  .next (
    match ((s.tile t).cluster cluster.toNat).dll with
    | .locked _ => (s.modTile t fun d => d.loseLock t s.now cluster.toNat).noteUnlock t cluster.toNat
    | _ => s)

/-- DLL_LOCK_TIMEOUT (R91): 20.0 µs after acquisition started without lock, the owner raises 0x0121 once until the DLL
has locked. -/
def execDllLockTimeout (t : Fin 4) (cluster : BitVec 14) (s : State) : Out :=
  .next (
    match ((s.tile t).cluster cluster.toNat).dll, s.owner with
    | .acquiring since, some o =>
      if since + 30000 ≤ s.now ∧ (s.off o).dllNoted.contains (dllKey t cluster.toNat) = false then
        (s.modOff o fun d => { d with dllNoted := dllKey t cluster.toNat :: d.dllNoted }).raise o 0x0121
          (le 1 t.val ++ le 2 cluster.toNat ++ le 1 (cfgDllStart ((s.tile t).clusterWord cluster.toNat)))
      else s
    | _, _ => s)

/-! ### Counter clears and the correction path's registers (R75, R76, R113 to R124) -/

/-- SORT_FE_CNT_CLR (R75, R76): the owner passes the clear on to a tile that heeds it (R18; its form on the wire is not stated, log
entry 77), and the tile applies it at the next round boundary. -/
def execSortFeCntClr (o : OfficeId) (t : Fin 4) (v : W32) (s : State) : Out :=
  .next (
    let r := s.hostWrite o (F.SORT_FE_CNT_CLR_PBUSY.addr t.val 0) v.toNat
    if r.2 && r.1.owns o && r.1.heeds t o then r.1.modTile t fun d => { d with clrFe := d.clrFe ||| BitVec.ofNat 5 v.toNat } else r.1)

/-- SORT_TE_CNT_CLR (R120, R76). -/
def execSortTeCntClr (o : OfficeId) (t : Fin 4) (v : W32) (s : State) : Out :=
  .next (
    let r := s.hostWrite o (F.SORT_TE_CNT_CLR_COLEAD.addr t.val 0) v.toNat
    if r.2 && r.1.owns o && r.1.heeds t o then r.1.modTile t fun d => { d with clrTe := d.clrTe ||| BitVec.ofNat 4 v.toNat } else r.1)

/-- Clears the counters whose bit a write sets (R14); bit `k` of `v` belongs to the `k`-th counter of `l`, element `i`. -/
def State.clearBits (s : State) (o : OfficeId) (v i : Nat) : Nat → List Fld → State
  | _, [] => s
  | k, f :: fs => (if bitsOf v k 1 = 1 then s.clearCounter o f i else s).clearBits o v i (k + 1) fs

/-- A host write to a clear register whose counters an office clears at once (R14). -/
def State.clearWrite (s : State) (o : OfficeId) (addr v i : Nat) (l : List Fld) : State :=
  let r := s.hostWrite o addr v
  if r.2 then r.1.clearBits o v i 0 l else r.1

/-- SORT_RES_CNT_CLR (R121). -/
def execSortResCntClr (o : OfficeId) (v : W32) (s : State) : Out :=
  .next (s.clearWrite o F.SORT_RES_CNT_CLR_RETRY.off v.toNat 0
    [F.SORT_RES_CNT_RETRY_COUNT, F.SORT_RES_CNT_DROP_COUNT, F.SORT_RES_CNT_TBLPOIS_COUNT])

/-- RESIDUE_ERROR_INJECT (R113): arms one wrong residue prediction for the next letter the owner corrects. -/
def execResidueErrorInject (o : OfficeId) (v : W32) (s : State) : Out :=
  .next (s.hostAction o F.SORT_RES_CTL_INJ.off v.toNat 8 fun s =>
    if s.owns o then s.modOff o fun d => { d with resInj := some (s.rd o F.SORT_RES_CTL_INJ_STEP) } else s)

/-- The first case of R117 that refuses a start of a code-density pass; 0 for none. DESIGN CHOICE: the spec gives notice 0x0123 a
cause without numbers; the model numbers R117's cases 1 to 4 in the order of its list, and names the first that holds (log entry
82). -/
def State.cdRefusal (s : State) (o : OfficeId) (v : Nat) : Nat :=
  if s.flag o F.SORT_CD_STAT_BUSY then 1
  else if F.SORT_CD_CTL_SRC.part v = 1 ∧ s.mode o ≠ .calibration then 2
  else if F.SORT_CD_CTL_FIRST.part v % 8192 ≠ 0 then 3
  else if F.SORT_CD_CTL_SRC.isBad (F.SORT_CD_CTL_SRC.part v) then 4
  else 0

/-- CODE_DENSITY_START (R114, R117): the owner starts a pass, or refuses it with 0x0123. A write without `START` is an
ordinary register write; the rule's own outcome stands in place of R5's. -/
def execCodeDensityStart (o : OfficeId) (v : W32) (s : State) : Out :=
  .next (
    if bitsOf v.toNat 31 1 = 0 then (s.hostWrite o F.SORT_CD_CTL_START.off v.toNat).1
    else if s.takesWrites o = false then s
    else
      let s := s.journal o F.SORT_CD_CTL_START.off v.toNat true
      if s.owns o = false then s
      else
        match s.cdRefusal o v.toNat with
        | 0 =>
          let s := (s.storeReg o F.SORT_CD_CTL_START.off v.toNat).wr o F.SORT_CD_STAT_BUSY 1
          s.modOff o fun d =>
            { d with cd := { startRound := s.roundOf d.count, first := s.rd o F.SORT_CD_CTL_FIRST } }
        | n + 1 => s.raise o 0x0123 (le 4 v.toNat ++ le 1 (n + 1)))

/-- The number of interpolators of a pass that have reached N edges (R115). -/
def CodeDensity.reached (c : CodeDensity) (n : Nat) : Nat :=
  (c.m.filter fun e => c.first ≤ e.1 && e.1 < c.first + 8192 && n ≤ e.2).length

end Sys2Proof.Machine
end

