-- ==== Sys2Proof/Machine/TileReadout.lean ====
section
/-! DEFINITION. The tile's side of read-out: buckets, frames, lanes, and the configuration bus (04). -/

namespace Sys2Proof.Machine

/-! ### Buckets and the letter memory (R126 to R135) -/

/-- The key of a district round at a tile. -/
def bucketKey (round district : Nat) : Nat := round * 64 + district

/-- Letters that a lane holds. -/
def LaneTx.held (l : LaneTx) : Nat :=
  (l.sending.map fun f => f.letters.length).getD 0 + (l.committed.map fun f => f.letters.length).getD 0

/-- Occupied entries of the letter memory (R133): open buckets, late letters, queued frames, frames on lanes. -/
def Tile.memUsed (d : Tile) : Nat :=
  (d.buckets.map fun e => e.2.letters.length).sum + (d.late.map fun e => e.2.letters.length).sum +
    (d.queue.map fun f => f.letters.length).sum + (d.lanes.map fun e => e.2.held).sum

/-- The rank of a frame kind in the queue (R148). -/
def FrameKind.rank : FrameKind → Nat
  | .status => 0
  | .late => 1
  | .data => 2
  | .close => 2

/-- Whether a frame goes before another that is in the queue already (R148): on equal terms it does not. -/
def TileFrame.before (f g : TileFrame) : Bool :=
  f.kind.rank < g.kind.rank || (f.kind.rank = 2 && g.kind.rank = 2 && roundLt f.round g.round)

/-- Puts a frame in its place in the tile queue (R148). -/
def enqueue (f : TileFrame) : List TileFrame → List TileFrame
  | [] => [f]
  | g :: q => if f.before g then f :: g :: q else g :: enqueue f q

/-- Returns a frame that was committed to a lane to its place: it became ready before the frames that are still queued on equal
terms (R148, R150). -/
def requeue (f : TileFrame) : List TileFrame → List TileFrame
  | [] => [f]
  | g :: q => if g.before f then g :: requeue f q else f :: g :: q

/-- Characters of a frame, comma included (R138). -/
def TileFrame.chars (f : TileFrame) : Nat :=
  match f.kind with
  | .status => 7 + 8 * f.words.length
  | .close => 19
  | _ => 7 + 11 * f.letters.length

/-- Characters still to send on a lane at `now`: four characters leave in five ticks. -/
def LaneTx.remaining (l : LaneTx) (now : Nat) : Nat :=
  match l.sending with
  | some f => f.chars - (now - l.startAt) * 4 / 5
  | none => 0

/-- The key of a lane to an office. -/
def laneKey (o : OfficeId) (k : Nat) : Nat := officeBit o * 8 + k

/-- The office that takes a frame (R521): frames of rounds before the last lane switch go to the previous lane owner. -/
def Tile.destOf (d : Tile) (f : TileFrame) : Vote :=
  if f.kind ≠ .status ∧ roundLt f.round d.switchRound then d.prevOwner else d.laneOwner

/-- Whether a data frame of the district round still waits or is being sent (R143). -/
def Tile.dataPending (d : Tile) (round district : Nat) : Bool :=
  let p := fun (f : TileFrame) => f.kind = .data && f.round = round && f.district = district
  d.queue.any p || d.lanes.any fun e => e.2.sending.any p || e.2.committed.any p

/-- The lane a frame may move to now: in the UP set, with nothing committed, with the fewest characters still to send,
the lowest number on a tie (R147); a close frame waits for its data frames (R143). -/
def Tile.laneFor (d : Tile) (now : Nat) (f : TileFrame) : Option (OfficeId × Nat) :=
  match d.destOf f with
  | .none => none
  | .office o =>
    if f.kind = .close ∧ d.dataPending f.round f.district then none
    else
      let open_ := (List.range 8).filter fun k =>
        (d.upLetter.get o).getLsbD k && (Sparse.get {} d.lanes (laneKey o k)).committed.isNone
      (open_.foldl (fun best k =>
        match best with
        | none => some k
        | some b =>
          if (Sparse.get {} d.lanes (laneKey o k)).remaining now < (Sparse.get {} d.lanes (laneKey o b)).remaining now
          then some k else some b) none).map fun k => (o, k)

/-- Moves a frame to a lane: it starts at once on an idle lane, else it is committed behind the frame in sending. -/
def LaneTx.take (l : LaneTx) (now : Nat) (f : TileFrame) : LaneTx :=
  match l.sending with
  | none => { l with sending := some f, startAt := now }
  | some _ => { l with committed := some f }

/-- Moves frames from the queue to lanes while a lane can take one (R147); `fuel` bounds the moves by the places. -/
def Tile.dispatch (d : Tile) (now : Nat) : Nat → Tile
  | 0 => d
  | fuel + 1 =>
    match d.queue.find? fun f => (d.laneFor now f).isSome with
    | none => d
    | some f =>
      match d.laneFor now f with
      | none => d
      | some (o, k) =>
        Tile.dispatch
          { d with
            queue := d.queue.erase f
            lanes := Sparse.update {} d.lanes (laneKey o k) fun l => l.take now f } now fuel

/-- Queues a frame and moves what can move. -/
def Tile.queueFrame (d : Tile) (now : Nat) (f : TileFrame) : Tile :=
  let d := { d with queue := enqueue f d.queue }
  let d := { d with memPeak := max d.memPeak d.memUsed }
  d.dispatch now 32

/-- Ships the letters of a bucket in a data frame (R129, R137). -/
def Tile.shipData (d : Tile) (now round district : Nat) : Tile :=
  let b := Sparse.get {} d.buckets (bucketKey round district)
  let d := { d with buckets := Sparse.set {} d.buckets (bucketKey round district) { b with letters := [], made := b.made + 1 } }
  d.queueFrame now
    { kind := .data, round := round, district := district, fnum := b.made % 32, letters := b.letters, words := [] }

/-- Ships the late letters of a district round (R130). -/
def Tile.shipLate (d : Tile) (now round district : Nat) : Tile :=
  let b := Sparse.get {} d.late (bucketKey round district)
  let d := { d with late := Sparse.erase d.late (bucketKey round district) }
  d.queueFrame now { kind := .late, round := round, district := district, fnum := 0, letters := b.letters, words := [] }

/-- Whether letters of a round still join their buckets: the closing tick, `CLOSE_DLY` after the round's last, has not come (R127). -/
def Tile.openFor (d : Tile) (rs round : Nat) : Bool :=
  roundLe d.closedTo round && tickLt d.count.toNat ((round + 1) * 2 ^ rs - 1 + d.closeDly)

/-- Files a completed letter (R126, R129, R130, R133): into its bucket while that is open, else as a late letter;
discarded when its district round has overflowed or the letter memory is full. -/
def Tile.file (d : Tile) (now rs : Nat) (l : Letter) : Tile :=
  let round := l.lead.toNat / 2 ^ rs
  let district := cellDistrict (l.channel.toNat % 262144)
  let k := bucketKey round district
  let b := Sparse.get {} d.buckets k
  if b.overflowed ∨ 65536 ≤ d.memUsed then
    { d with buckets := Sparse.set {} d.buckets k { b with overflowed := true, dropped := b.dropped + 1 } }
  else if d.openFor rs round then
    let d := { d with buckets := Sparse.set {} d.buckets k { b with letters := b.letters ++ [l] } }
    let d := { d with memPeak := max d.memPeak d.memUsed }
    if b.letters.length + 1 < 24 then d else d.shipData now round district
  else
    let e := Sparse.get {} d.late k
    let l := { l with flags := l.flags ||| BitVec.ofNat 7 flagLate }
    let first := if e.letters = [] then now else e.firstAt
    let d := { d with late := Sparse.set {} d.late k { letters := e.letters ++ [l], firstAt := first } }
    let d := { d with memPeak := max d.memPeak d.memUsed }
    if e.letters.length + 1 < 24 then d else d.shipLate now round district

/-- LETTER_COMPLETE (R57, R126): the cell's first letter that is due is filed. -/
def execLetterComplete (t : Fin 4) (cell : BitVec 18) (s : State) : Out :=
  .next (s.modTile t fun d =>
    match d.completing.find? fun e => e.1 = cell && decide (e.2.1 ≤ s.now) with
    | some e => { d with completing := d.completing.erase e }.file s.now s.svc.roundShift e.2.2
    | none => d)

/-- LATE_FRAME_TIMEOUT (R130): 64 ticks after the first late letter was filed, the late frame goes. -/
def execLateFrameTimeout (t : Fin 4) (district : BitVec 6) (round : Round) (s : State) : Out :=
  .next (s.modTile t fun d =>
    let b := Sparse.get {} d.late (bucketKey round.toNat district.toNat)
    if b.letters ≠ [] ∧ b.firstAt + 64 ≤ s.now then d.shipLate s.now round.toNat district.toNat else d)

/-- Closes one bucket: the remaining letters in a data frame, then the close frame (R127, R129). -/
def Tile.closeBucket (d : Tile) (now round district : Nat) : Tile :=
  let d := if (Sparse.get {} d.buckets (bucketKey round district)).letters = [] then d else d.shipData now round district
  d.queueFrame now { kind := .close, round := round, district := district, fnum := 0, letters := [], words := [] }

/-- Closes the buckets of a round: older rounds that still hold something, then the 64 districts (R127). -/
def Tile.closeRound (d : Tile) (now round : Nat) : Tile :=
  let stale := (d.buckets.filter fun e => roundLe d.closedTo (e.1 / 64) && roundLt (e.1 / 64) round).map (·.1)
  let d := stale.foldl (fun d k => d.closeBucket now (k / 64) (k % 64)) d
  let d := (List.range 64).foldl (fun d k => d.closeBucket now round k) d
  { d with closedTo := nextRound round }

/-- BUCKET_CLOSE (R127): at the closing tick of a round, `CLOSE_DLY` ticks after its last tick. -/
def execBucketClose (t : Fin 4) (round : Round) (s : State) : Out :=
  .next (s.modTile t fun d =>
    if !d.inReset && roundLe d.closedTo round.toNat &&
        tickLe ((round.toNat + 1) * 2 ^ s.svc.roundShift - 1 + d.closeDly) d.count.toNat then
      d.closeRound s.now round.toNat
    else d)

/-! ### Frames as bytes (R136 to R142) -/

/-- A frame header (R137). -/
def frameHeader (type round district fnum count : Nat) : W32 :=
  BitVec.ofNat 32 (type % 16 * 2 ^ 28 + round % 4096 * 2 ^ 16 + district % 64 * 2 ^ 10 + fnum % 32 * 2 ^ 5 + count % 32)

/-- The side byte of a letter (R141). -/
def Letter.side (l : Letter) (rs : Nat) : Byte :=
  BitVec.ofNat 8 ((if 16 < rs then l.lead.toNat / 65536 % 2 ^ (rs - 16) else 0) * 2 + b2n l.ip)

/-- Header, payload and CRC-16 of a frame. -/
def frameBytes (hdr : W32) (payload : List Byte) : List Byte :=
  let b := le 4 hdr.toNat ++ payload
  b ++ le 2 (crc16 b).toNat

/-- The close record of a bucket (R142). -/
def Bucket.record (b : Bucket) : List Byte :=
  le 3 b.shipped ++ le 3 b.frames ++ le 4 (min b.dropped 0xFFFFFFFF) ++ le 2 (min b.eccDrop 0xFFFF)

/-- The bytes of a frame as sent, with the letters that it carries. -/
def Tile.frameOut (d : Tile) (rs : Nat) (f : TileFrame) (letters : List Letter) : List Byte :=
  match f.kind with
  | .status => frameBytes (frameHeader 4 0 0 0 f.words.length) (leWords 8 f.words)
  | .close =>
    frameBytes (frameHeader 2 f.round f.district 0 0) (Sparse.get {} d.buckets (bucketKey f.round f.district)).record
  | .data =>
    frameBytes (frameHeader 0 f.round f.district f.fnum letters.length)
      ((letters.map fun l => le 10 l.word.toNat).flatten ++ letters.map fun l => l.side rs)
  | .late =>
    frameBytes (frameHeader 1 f.round f.district 0 letters.length)
      ((letters.map fun l => le 10 l.word.toNat).flatten ++ letters.map fun l => l.side rs)

/-- The letters whose entry was good when it was read (R134). -/
def goodLetters (bad : BitVec 24) : Nat → List Letter → List Letter
  | _, [] => []
  | k, l :: ls => if bad.getLsbD k then goodLetters bad (k + 1) ls else l :: goodLetters bad (k + 1) ls

/-- Accounts for a data frame that left a lane, whole or cut short (R142, R143, R150). -/
def Tile.accountFrame (d : Tile) (f : TileFrame) (good : Nat) : Tile :=
  if f.kind = .data then
    { d with
      buckets := Sparse.update {} d.buckets (bucketKey f.round f.district) fun b =>
        { b with frames := b.frames + (if good = 0 then 0 else 1), shipped := b.shipped + good,
                 eccDrop := b.eccDrop + (f.letters.length - good) } }
  else if f.kind = .close then
    { d with
      buckets := Sparse.update {} d.buckets (bucketKey f.round f.district) fun b =>
        if b.overflowed then { overflowed := true } else {} }
  else d

/-- LANE_FRAME_SENT (R133, R134, R136, R147): the frame in sending has left in full; `badEntries` marks the letters whose
entry read uncorrectable, which are left out and counted. Its entries are free, and the committed frame starts. -/
def execLaneFrameSent (t : Fin 4) (o : OfficeId) (lane : Fin 8) (badEntries : BitVec 24) (s : State) : Out :=
  .next (
    let d := s.tile t
    let l := Sparse.get {} d.lanes (laneKey o lane.val)
    match l.sending with
    | none => s
    | some f =>
      if (s.now - l.startAt) * 4 < f.chars * 5 then s
      else
        let good := goodLetters badEntries 0 f.letters
        let bytes := d.frameOut s.svc.roundShift f good
        let l := { sending := l.committed, startAt := s.now, committed := none }
        let d := { d with lanes := Sparse.set {} d.lanes (laneKey o lane.val) l }
        let d := (d.accountFrame f good.length).dispatch s.now 32
        let s := s.modTile t fun _ => d
        if f.letters ≠ [] ∧ good = [] then s else s.emit (.tileFrame t o lane.val bytes))

/-! ### Idle frames (R144, R149, R712) -/

/-- The code of a lane state (R166). -/
def LaneState.code : LaneState → Nat
  | .training => 0
  | .up => 1
  | .retired => 2

/-- The age of an office's heartbeat at a tile in µs, saturating (R144, R519). -/
def HeartbeatSeen.ageUs (h : HeartbeatSeen) (now : Nat) : Nat :=
  match h.at_ with
  | some a => min ((now - a) / 1500) 255
  | none => 255

/-- Whether an office is live at a tile (R519). -/
def HeartbeatSeen.live (h : HeartbeatSeen) (now : Nat) : Bool :=
  (h.at_.any fun a => now - a < 45000) && h.flags.getLsbD 1

/-- The idle liveness word to an office (R144). -/
def Tile.livenessWord (d : Tile) (now : Nat) (o : OfficeId) : Nat :=
  let ownerAge := match d.vote with
    | .office x => (d.heard.get x).at_.any fun a => decide (now - a < 45000)
    | .none => false
  let who := match d.vote with
    | .office .A => 0
    | .office .B => 1
    | .none => 2
  (d.heard.a.ageUs now) * 2 ^ 24 + (d.heard.b.ageUs now) * 2 ^ 16 + (d.dl.get o).state.code * 2 ^ 8 +
    b2n ownerAge * 8 + b2n (d.vote ≠ .none) * 4 + who

/-- An idle frame on a letter lane (R138). -/
def Tile.idleFrame (d : Tile) (now : Nat) (o : OfficeId) : List Byte :=
  frameBytes (frameHeader 3 0 0 0 0) (le 4 (d.livenessWord now o))

/-- Whether a tile sends idle frames on a letter lane (`k` below 8) or sum lane (`k` - 8) to an office: every lane to an
office that its vote does not name, and the voted office's lanes that its last lane-status word does not show as UP (R149, R712). -/
def Tile.idlesOn (d : Tile) (o : OfficeId) (k : Nat) : Bool :=
  if d.vote = .office o then !(if k < 8 then (d.addLetter.get o).getLsbD k else (d.addSum.get o).getLsbD (k - 8)) else true

/-- An idle frame of a sum lane: a sum header of `TYPE` 0x2 and no payload (R332). -/
def idleSum : List Byte := frameBytes 0x20000000 []

/-- Sends the idle frames of one tile to one office, lane by lane; a retired lane gets none. -/
def State.sendIdle (s : State) (t : Fin 4) (o : OfficeId) : State :=
  (List.range 11).foldl (fun s k =>
    let d := s.tile t
    if d.idlesOn o k = false ∨ (Sparse.get {} (s.off o).lanes (t.val * 12 + k)).state = .retired then s
    else if k < 8 then s.emit (.tileFrame t o k (d.idleFrame s.now o))
    else s.emit (.sumFrame t o (k - 8) idleSum)) s

/-- IDLE_FRAME_SEND (R149). -/
def execIdleFrameSend (t : Fin 4) (s : State) : Out :=
  .next (if (s.tile t).inReset then s else (s.sendIdle t .A).sendIdle t .B)

/-! ### The configuration bus (R158 to R164) -/

/-- A configuration word as a read-back returns it, with the runtime states of the tile (R67, R116, R647, R671): a sequence's `INJ_SEL`
and forced-off interpolator, throttle overrides, QUIET. -/
def Tile.shownWord (d : Tile) (isCluster : Bool) (p : Nat) : Nat :=
  if isCluster then
    let w := d.clusterWord p
    let w := if d.throttleOf (p / 256) % 2 = 1 then setBits w 0 2 1 else w
    let w := if bitsOf (d.throttleOf (p / 256)) 1 1 = 1 ∨ d.quiet then setBits w 2 1 0 else w
    let w := if d.quiet then setBits w 15 1 0 else w
    match d.forcedOff with
    | some ip => setBits w (if ip then 14 else 13) 1 1
    | none => w
  else
    let w := d.cellWord p
    let w := if d.injSelect.any fun sel => selectMatches sel p then setBits w 6 1 1 else w
    if d.quiet then setBits w 5 1 0 else w

/-- A frame for an office's downlink counts towards its training at the tile (R151, R712): one with a good CRC, of any `TYPE`; a CRC
error starts the count again. -/
def Tile.trainDownlink (d : Tile) (o : OfficeId) (good : Bool) : Tile :=
  let l := d.dl.get o
  if l.state = .training ∧ d.inReset = false then { d with dl := d.dl.set o { l with good := if good then l.good + 1 else 0 } } else d

/-- A status frame of one word, queued for the owner. -/
def Tile.sendStatusWord (d : Tile) (now w : Nat) : Tile :=
  d.queueFrame now { kind := .status, round := 0, district := 0, fnum := 0, letters := [], words := [w] }

/-- The downlink NAK word with the expected `SEQ`, at most once per microsecond (R145, R164). -/
def Tile.sendNak (d : Tile) (now : Nat) : Tile :=
  if d.nakAt.any fun a => now - a < 1500 then d
  else { d with nakAt := some now }.sendStatusWord now (3 + d.expectSeq.toNat * 256)

/-- Fields of a downlink header (R158). -/
def dlType (h : W16) : Nat := bitsOf h.toNat 13 3
def dlSeq (h : W16) : Nat := bitsOf h.toNat 5 8
def dlCount (h : W16) : Nat := bitsOf h.toNat 0 5

/-- Header of a downlink frame. -/
def dlHeader (type seq count : Nat) : W16 := BitVec.ofNat 16 (type % 8 * 8192 + seq % 256 * 32 + count % 32)

/-- The CRC-16 that belongs to a downlink frame (R158). -/
def dlCrc (hdr : W16) (words : List W64) : W16 := crc16 (le 2 hdr.toNat ++ leWords 8 (words.map (·.toNat)))

/-- Whether a downlink frame arrived whole (R158). -/
def dlGood (f : DlFrame) : Bool := !f.charErr && f.crc = dlCrc f.hdr f.words && f.words.length = dlCount f.hdr

/-- DL_CONFIG_FRAME_RX (R18, R160, R164): frames of the office that the vote names, in `SEQ` order; refused commands are
counted at the owner and dropped. -/
def execDlConfigFrameRx (t : Fin 4) (o : OfficeId) (f : DlFrame) (s : State) : Out :=
  .next (
    let s := s.modTile t fun d => d.trainDownlink o (dlGood f)
    let d := s.tile t
    if d.vote ≠ .office o ∨ d.inReset then s
    else if dlGood f = false then s.modTile t fun d => d.sendNak s.now
    else if dlType f.hdr ≠ 0 ∨ dlCount f.hdr = 0 ∨ 16 < dlCount f.hdr then s
    else if dlSeq f.hdr ≠ d.expectSeq.toNat then s.modTile t fun d => d.sendNak s.now
    else
      let bad := (f.words.filter cmdRefused).length
      let s := s.modTile t fun d =>
        { d with expectSeq := d.expectSeq + 1, cfgQueue := d.cfgQueue ++ f.words.filter fun c => !cmdRefused c }
      if bad = 0 then s else s.countBy o F.SORT_LN_CNT_BADHDR_COUNT bad t.val)

/-- Whether the next command of the tile's queue is `cmd`, with this `OP`, and the write engine is free (R161). -/
def Tile.canRun (d : Tile) (cmd : W64) (op : Nat) : Bool :=
  d.cfgQueue.head? = some cmd && cmdOp cmd = op && d.engine.isNone

/-- A write enters the engine (R161). -/
def Tile.startWrite (d : Tile) (now : Nat) (cmd : W64) : Tile :=
  { d with cfgQueue := d.cfgQueue.tail, engine := some { cmd := cmd, doneAt := now + cmdTicks cmd } }

/-- WRITE_CELL_WORD (R161). -/
def execWriteCellWord (t : Fin 4) (cmd : W64) (s : State) : Out :=
  .next (s.modTile t fun d => if d.canRun cmd 0 then d.startWrite s.now cmd else d)

/-- WRITE_CLUSTER_WORD (R161). -/
def execWriteClusterWord (t : Fin 4) (cmd : W64) (s : State) : Out :=
  .next (s.modTile t fun d => if d.canRun cmd 1 then d.startWrite s.now cmd else d)

/-- The read-back word of a place (R145): `KIND` 0x02, address echo, word. -/
def readBackWord (place w : Nat) (isCluster : Bool) : Nat :=
  2 + (if isCluster then (place / 256 * 4096 + place / 16 % 16 * 64 + place % 16 + 2 ^ 18) else place) * 256 + w % 65536 * 2 ^ 32

/-- READ_CELL_WORD (R161): the reply returns the word as it stands after every earlier command, runtime states included (R67). -/
def execReadCellWord (t : Fin 4) (cmd : W64) (s : State) : Out :=
  .next (s.modTile t fun d =>
    if d.canRun cmd 2 then
      { d with cfgQueue := d.cfgQueue.tail }.sendStatusWord s.now
        (readBackWord (cmdReadPlace cmd) (d.shownWord false (cmdReadPlace cmd)) false)
    else d)

/-- READ_CLUSTER_WORD (R161). -/
def execReadClusterWord (t : Fin 4) (cmd : W64) (s : State) : Out :=
  .next (s.modTile t fun d =>
    if d.canRun cmd 3 then
      { d with cfgQueue := d.cfgQueue.tail }.sendStatusWord s.now
        (readBackWord (cmdReadPlace cmd) (d.shownWord true (cmdReadPlace cmd)) true)
    else d)

/-- The write that has left the engine acts on every place it addresses (R68, R161); corrections of those places in the same tick are
not counted (R162). -/
def Tile.completeWrite (d : Tile) (t : Fin 4) (now : Nat) (cmd : W64) : Tile :=
  (cmdPlaces cmd).foldl (fun d p => d.applyWord now (cmdIsCluster cmd) p (cmdWord cmd))
    { d.uncountSeu t cmd with engine := none, lastWrite := some cmd, lastWriteAt := now }

/-- CONFIG_WRITE_COMPLETE (R68, R161): the written word takes effect in every addressed place; a DLL that this unlocks is counted
and reported (R91, R93). -/
def execConfigWriteComplete (t : Fin 4) (s : State) : Out :=
  .next (
    match (s.tile t).engine with
    | some e => if e.doneAt ≤ s.now then s.modTileDlls t fun d => d.completeWrite t s.now e.cmd else s
    | none => s)

/-- A frame on a lane that left the UP set: cut short and lost, its letters counted as shipped (R143, R150). -/
def Tile.dropLane (d : Tile) (o : OfficeId) (k : Nat) : Tile :=
  let l := Sparse.get {} d.lanes (laneKey o k)
  let d := { d with lanes := Sparse.erase d.lanes (laneKey o k) }
  let d := match l.sending with
    | some f => d.accountFrame f f.letters.length
    | none => d
  match l.committed with
  | some f => { d with queue := requeue f d.queue }
  | none => d

/-- Decimation by the number of sum lanes in UP; 0 for no live stream (R331). -/
def decOf (u : Nat) : Nat :=
  match u with
  | 0 => 0
  | 1 => 4
  | 2 => 2
  | _ => 1

/-- The sum lanes in UP towards the lane owner. -/
def Tile.sumLanes (d : Tile) : BitVec 3 :=
  match d.laneOwner with
  | .office o => d.upSum.get o
  | .none => 0

/-- After a change of the UP set, the decimation waits for a multiple of 256 ticks (R331). -/
def Tile.noteDec (d : Tile) : Tile := { d with decPending := decide (decOf (popcount 3 d.sumLanes.toNat) ≠ d.dec) }

/-- A new UP set (R150): lanes leave at once; lanes join at the next round boundary. -/
def Tile.setUp (d : Tile) (o : OfficeId) (now : Nat) (letters : BitVec 8) (sums : BitVec 3) : Tile :=
  let gone := (List.range 8).filter fun k => (d.upLetter.get o).getLsbD k && !letters.getLsbD k
  let d := { d with
    upLetter := d.upLetter.set o (d.upLetter.get o &&& letters)
    upSum := d.upSum.set o (d.upSum.get o &&& sums)
    addLetter := d.addLetter.set o letters
    addSum := d.addSum.set o sums }
  ((gone.foldl (fun d k => d.dropLane o k) d).dispatch now 32).noteDec

/-- DL_LANE_STATUS_RX (R150, R164): the owner's UP set, and the `SEQ` of its last configuration frame; a tile that lags
sends a NAK, as it does on a CRC failure. -/
def execDlLaneStatusRx (t : Fin 4) (o : OfficeId) (f : DlFrame) (s : State) : Out :=
  .next (s.modTile t fun d =>
    let d := d.trainDownlink o (dlGood f)
    if d.vote ≠ .office o ∨ d.inReset then d
    else if dlGood f = false then d.sendNak s.now
    else if dlType f.hdr ≠ 2 then d
    else
      match f.words with
      | w :: _ =>
        let d := d.setUp o s.now (w.extractLsb' 0 8) (w.extractLsb' 8 3)
        let lag := (w.extractLsb' 16 8 - d.expectSeq).toNat
        if 0 < lag ∧ lag < 128 then d.sendNak s.now else d
      | [] => d)

end Sys2Proof.Machine
end

