-- ==== Sys2Proof/Machine/Lanes.lean ====
section
/-! DEFINITION. The office's side of the lanes: training and retirement, received tile frames, the receive buffer, and
the office's end of the configuration bus (04, 05 R173 to R179, 08 R332 for sum lanes' states). -/

namespace Sys2Proof.Machine

/-! ### Lane states (R151 to R153, R166) -/

/-- The number of a lane of a tile in `SORT_LN_CMD` and in notices (R171). -/
def laneNum : LaneRef → Nat
  | .letter k => k.val
  | .sum k => 8 + k.val
  | .downlink => 11
  | .link k => 48 + k.val

/-- The lane's key in the office's table; the lanes of the inter-office link belong to no tile. -/
def officeLaneKey (t : Fin 4) (lane : LaneRef) : Nat :=
  match lane with
  | .link k => 48 + k.val
  | l => t.val * 12 + laneNum l

/-- A lane's bookkeeping: the tile runs the downlink's, the office every other (R151). -/
def State.lane (s : State) (o : OfficeId) (t : Fin 4) (lane : LaneRef) : Lane :=
  match lane with
  | .downlink => (s.tile t).dl.get o
  | l => Sparse.get {} (s.off o).lanes (officeLaneKey t l)

/-- Sets a lane's bookkeeping. -/
def State.setLane (s : State) (o : OfficeId) (t : Fin 4) (lane : LaneRef) (x : Lane) : State :=
  match lane with
  | .downlink => s.modTile t fun d => { d with dl := d.dl.set o x }
  | l => s.modOff o fun d => { d with lanes := Sparse.set {} d.lanes (officeLaneKey t l) x }

/-- The state of letter lane or sum lane number `k` of a tile. -/
def Office.laneState (d : Office) (t : Fin 4) (k : Nat) : LaneState := (Sparse.get {} d.lanes (t.val * 12 + k)).state

/-- Two bits per lane, `n` lanes from number `k` on (R166). -/
def Office.laneCodes (d : Office) (t : Fin 4) (k n : Nat) : Nat :=
  (List.range n).foldl (fun acc j => acc + (d.laneState t (k + j)).code * 4 ^ j) 0

/-- One bit per lane that is UP, `n` lanes from number `k` on. -/
def Office.upMask (d : Office) (t : Fin 4) (k n : Nat) : Nat :=
  (List.range n).foldl (fun acc j => acc + (if d.laneState t (k + j) = .up then 2 ^ j else 0)) 0

/-- Whether an office reaches a tile: its downlink is UP as last reported, and a letter lane is not retired (R527). -/
def State.reaches (s : State) (o : OfficeId) (t : Fin 4) : Bool :=
  s.rd o F.SORT_LN_STAT_DL t.val = 1 && (List.range 8).any fun k => (s.off o).laneState t k ≠ .retired

/-- The mask of tiles an office reaches (R527). -/
def State.reachMask (s : State) (o : OfficeId) : Nat :=
  b2n (s.reaches o 0) + 2 * b2n (s.reaches o 1) + 4 * b2n (s.reaches o 2) + 8 * b2n (s.reaches o 3)

/-- Writes the reach mask and its fault (R526, R527). -/
def State.refreshReach (s : State) (o : OfficeId) : State :=
  let m := s.reachMask o
  (s.wr o F.TWN_STAT_REACH m).setHealth o F.TWN_HEALTH_REACH (m ≠ 15)

/-- Writes `SORT_LN_STAT` from the lanes' states (R166). -/
def State.refreshLanes (s : State) (o : OfficeId) (t : Fin 4) : State :=
  let d := s.off o
  let s := s.wr o F.SORT_LN_STAT_LETTER (d.laneCodes t 0 8) t.val
  let s := s.wr o F.SORT_LN_STAT_SUM (d.laneCodes t 8 3) t.val
  (s.wr o F.SORT_LN_STAT_NUP (popcount 8 (d.upMask t 0 8)) t.val).refreshReach o

/-- The lane-status frame of an owner to a tile (R164). -/
def State.sendLaneStatus (s : State) (o : OfficeId) (t : Fin 4) : State :=
  if s.owns o then
    let d := s.off o
    let last := (Sparse.get 0 d.dlSeq t.val + 255) % 256
    s.emit (.downlink o t (dlHeader 2 0 1) [BitVec.ofNat 64 (d.upMask t 0 8 + d.upMask t 8 3 * 256 + last * 65536)])
  else s

/-- After a change of a lane's state from `was`: the register, and a lane-status frame when the UP set changed (R164). -/
def State.laneChanged (s : State) (o : OfficeId) (t : Fin 4) (lane : LaneRef) (was : LaneState) : State :=
  let report := fun (s : State) => if (was = .up) = ((s.lane o t lane).state = .up) then s else s.sendLaneStatus o t
  match lane with
  | .letter _ => report (s.refreshLanes o t)
  | .sum _ => report (s.refreshLanes o t)
  | .downlink => s
  | .link _ => s

/-- Whether a lane belongs to the inter-office link, which no lane counter or notice of R167 and R172 names. -/
def isLink : LaneRef → Bool
  | .link _ => true
  | _ => false

/-- Notice 0x0208 of the owner when a tile becomes unreachable (R153). -/
def State.noticeUnreachable (s : State) (o : OfficeId) (t : Fin 4) (lane : LaneRef) : State :=
  match lane with
  | .letter _ =>
    if s.owns o && (List.range 8).all fun k => (s.off o).laneState t k = .retired then
      s.raise o 0x0208 (le 1 t.val ++ le 1 0)
    else s
  | .downlink => if s.owns o then s.raise o 0x0208 (le 1 t.val ++ le 1 1) else s
  | _ => s

/-- Retires a lane: notice 0x0201 with its cause (R152). -/
def State.retireLane (s : State) (o : OfficeId) (t : Fin 4) (lane : LaneRef) (cause : Nat) : State :=
  let was := (s.lane o t lane).state
  let s := s.setLane o t lane { s.lane o t lane with state := .retired, attempts := 0 }
  if isLink lane then s
  else ((s.laneChanged o t lane was).raise o 0x0201 (le 1 t.val ++ le 1 (laneNum lane) ++ le 1 cause)).noticeUnreachable o t lane

/-- A lane leaves UP for TRAINING: counted, noticed at most once a second, and retired at the eighth move within a
second (R151, R152). -/
def State.laneDown (s : State) (o : OfficeId) (t : Fin 4) (lane : LaneRef) (cause : Nat) : State :=
  let l := s.lane o t lane
  let moves := s.now :: l.moves.filter fun m => s.now - m < ticksOfUs 1000000
  let quiet := l.noticeAt.any fun a => s.now - a < ticksOfUs 1000000
  let s := s.setLane o t lane
    { state := .training, since := s.now, attempts := 0, good := 0, moves := moves, noticeAt := if quiet then l.noticeAt else some s.now }
  let s := if isLink lane then s else s.countUp o F.SORT_LN_CNT_RETRAIN_COUNT t.val
  let s := s.laneChanged o t lane l.state
  let s := if quiet || isLink lane then s else s.raise o 0x0202 (le 1 t.val ++ le 1 (laneNum lane) ++ le 1 cause)
  if 8 ≤ moves.length then s.retireLane o t lane 1 else s

/-- A frame on a lane in TRAINING (R151, R712): a training frame counts, an error starts the count again. -/
def State.trainLane (s : State) (o : OfficeId) (t : Fin 4) (lane : LaneRef) (counts bad : Bool) : State :=
  let l := s.lane o t lane
  if l.state ≠ .training then s
  else if bad then s.setLane o t lane { l with good := 0 }
  else if counts then s.setLane o t lane { l with good := l.good + 1 }
  else s

/-- When the die that runs a lane's states last left reset: the tile for the downlink, else the office (R151). -/
def State.laneReset (s : State) (o : OfficeId) (t : Fin 4) (lane : LaneRef) : Nat :=
  match lane with
  | .downlink => (s.tile t).leftResetAt
  | _ => (s.off o).leftResetAt

/-- LANE_TRAINING_PASS (R151, R712): a lane in TRAINING reaches UP after 256 training frames in a row. -/
def execLaneTrainingPass (o : OfficeId) (t : Fin 4) (lane : LaneRef) (s : State) : Out :=
  .next (
    let l := s.lane o t lane
    if l.state = .training ∧ 256 ≤ l.good then
      (s.setLane o t lane { l with state := .up, attempts := 0, good := 0 }).laneChanged o t lane .training
    else s)

/-- LANE_TRAINING_ATTEMPT_TIMEOUT (R151 to R153): 2.5 ms without UP is a failed attempt; the fourth retires the lane. -/
def execLaneTrainingAttemptTimeout (o : OfficeId) (t : Fin 4) (lane : LaneRef) (s : State) : Out :=
  .next (
    let l := s.lane o t lane
    if l.state = .training ∧ max l.since (s.laneReset o t lane) + ticksOfUs 2500 ≤ s.now then
      if 3 ≤ l.attempts then s.retireLane o t lane 0
      else s.setLane o t lane { l with since := s.now, attempts := l.attempts + 1, good := 0 }
    else s)

/-- LANE_CODE_ERRORS (R151): four code errors within 256 characters, or a comma at another alignment; in TRAINING the count of
training frames starts again. -/
def execLaneCodeErrors (o : OfficeId) (t : Fin 4) (lane : LaneRef) (alignment : Bool) (s : State) : Out :=
  .next (if (s.lane o t lane).state = .up then s.laneDown o t lane (b2n alignment) else s.trainLane o t lane false true)

/-- ELASTIC_BUFFER_OVERFLOW (R22): the frame in progress is discarded and the lane retrains; in TRAINING the
count starts again (R712). -/
def execElasticBufferOverflow (o : OfficeId) (t : Fin 4) (lane : LaneRef) (s : State) : Out :=
  .next (if (s.lane o t lane).state = .up then s.laneDown o t lane 2 else s.trainLane o t lane false true)

/-- The lane that `SORT_LN_CMD.LANE` names (R171). -/
def laneOfNum (n : Nat) : Option LaneRef :=
  if h : n < 8 then some (.letter ⟨n, h⟩)
  else if h : n - 8 < 3 then some (.sum ⟨n - 8, h⟩)
  else if n = 11 then some .downlink
  else none

/-- A retrain command on one lane (R151, R152): an UP lane leaves UP; a retired lane trains again, for up to four
attempts; a lane in TRAINING goes on. -/
def State.retrainLane (s : State) (o : OfficeId) (t : Fin 4) (lane : LaneRef) : State :=
  match (s.lane o t lane).state with
  | .up => s.laneDown o t lane 3
  | .retired =>
    (s.setLane o t lane { s.lane o t lane with state := .training, since := s.now, attempts := 0, good := 0 }).laneChanged o t lane .retired
  | .training => s

/-- RETRAIN (R171). -/
def execRetrain (o : OfficeId) (v : W32) (s : State) : Out :=
  .next (s.hostAction o F.SORT_LN_CMD_RETRAIN.off v.toNat 31 fun s =>
    match laneOfNum (F.SORT_LN_CMD_LANE.part v.toNat) with
    | some lane => s.retrainLane o ⟨F.SORT_LN_CMD_TILE.part v.toNat % 4, Nat.mod_lt _ (by decide)⟩ lane
    | none => s)

/-- SORT_LN_CNT_CLR (R168, R169). -/
def execSortLnCntClr (o : OfficeId) (t : Fin 4) (v : W32) (s : State) : Out :=
  .next (
    let s' := s.clearWrite o (F.SORT_LN_CNT_CLR_CRC.addr t.val 0) v.toNat t.val
      [F.SORT_LN_CNT_CRC_COUNT, F.SORT_LN_CNT_BADHDR_COUNT, F.SORT_LN_CNT_LOSTFRM_COUNT, F.SORT_LN_CNT_OVFDROP_COUNT,
       F.SORT_LN_CNT_LATE_COUNT, F.SORT_LN_CNT_LATEDROP_COUNT, F.SORT_LN_CNT_RETRAIN_COUNT, F.SORT_LN_CNT_DLNAK_COUNT,
       F.SORT_LN_PEAK_ENTRIES]
    if s.takesWrites o && s.owns o && bitsOf v.toNat 8 1 = 1 then s'.modTile t fun d => { d with memPeak := d.memUsed }
    else s')

/-! ### Configuration frames of the owner (R158, R165, R195) -/

/-- A configuration command for one place (R159, R160). -/
def cmdFor (op place word : Nat) : W64 :=
  let cl := op % 2 = 1
  let dist := if cl then place / 256 else place / 4096
  let row := if cl then place / 16 % 16 else place / 64 % 64
  let col := if cl then place % 16 else place % 64
  let m := if cl then 15 else 63
  BitVec.ofNat 64 (op + 63 * 2 ^ 12 + dist % 64 * 2 ^ 18 + m * 2 ^ 24 + row * 2 ^ 30 + m * 2 ^ 36 + col * 2 ^ 42 +
    word % 65536 * 2 ^ 48)

/-- The ticks that a command executes for (R161); one that the tile refuses takes 1. -/
def cmdTime (c : W64) : Nat := if cmdRefused c ∨ 2 ≤ cmdOp c then 1 else cmdTicks c

/-- The commands of the next configuration frame: up to 16, sent 40 ticks apart; one that executes for longer is the last (R163). -/
def nextFrame : Nat → List W64 → List W64
  | 0, _ => []
  | _, [] => []
  | n + 1, c :: cs => if 40 < cmdTime c then [c] else c :: nextFrame n cs

/-- The ticks until the next configuration frame may start: five a character, and the execution of the last command from when it has
been sent (R158, R163). -/
def frameTicks (words : List W64) : Nat :=
  max (5 * (5 + 8 * words.length)) (5 * (3 + 8 * words.length) + (words.getLast?.map cmdTime).getD 0)

/-- Sends a configuration frame on a downlink. -/
def State.putConfigFrame (s : State) (o : OfficeId) (t : Fin 4) (q : Nat) (words : List W64) : State :=
  (s.modOff o fun d => { d with cfgFree := Sparse.set 0 d.cfgFree t.val (s.now + frameTicks words) }).emit
    (.downlink o t (dlHeader 0 q words.length) words)

/-- What a downlink sends next, once it is free (R163, R165): the frames kept from the `SEQ` of a NAK on, then a frame of the commands
that wait, which is kept with the 127 before it. -/
def State.pumpConfig (s : State) (o : OfficeId) (t : Fin 4) : State :=
  let d := s.off o
  let next := Sparse.get 0 d.dlSeq t.val
  if s.now < Sparse.get 0 d.cfgFree t.val then s
  else
    match Sparse.get 0 d.cfgResend t.val with
    | q + 1 =>
      if q = next then s.modOff o fun d => { d with cfgResend := Sparse.erase d.cfgResend t.val }
      else
        (s.modOff o fun d => { d with cfgResend := Sparse.set 0 d.cfgResend t.val ((q + 1) % 256 + 1) }).putConfigFrame o t q
          (Sparse.get [] d.dlKept (t.val * 256 + q))
    | 0 =>
      let wait := Sparse.get [] d.cfgTx t.val
      if wait = [] then s
      else
        let ws := nextFrame 16 wait
        (s.modOff o fun d => { d with
          cfgTx := Sparse.set [] d.cfgTx t.val (wait.drop ws.length)
          dlSeq := Sparse.set 0 d.dlSeq t.val ((next + 1) % 256)
          dlKept := Sparse.erase (Sparse.set [] d.dlKept (t.val * 256 + next) ws) (t.val * 256 + (next + 128) % 256) }).putConfigFrame
            o t next ws

/-- Configuration commands for a tile, in order, paced under R163: they wait until the downlink can take them. -/
def State.sendConfig (s : State) (o : OfficeId) (t : Fin 4) (words : List W64) : State :=
  (s.modOff o fun d => { d with cfgTx := Sparse.set [] d.cfgTx t.val (Sparse.get [] d.cfgTx t.val ++ words) }).pumpConfig o t

/-- The master copy of a cell's configuration word (R195). -/
def Office.masterCell (d : Office) (t : Fin 4) (c : Nat) : Nat := bitsOf (d.arrRead 0 (channelOf t c * 4)) 0 16

/-- The master copy of a cluster's configuration word, in the context of its cell 0 (R195). -/
def Office.masterCluster (d : Office) (t : Fin 4) (cl : Nat) : Nat :=
  bitsOf (d.arrRead 0 (channelOf t (cellOfCluster cl 0) * 4)) 16 16

/-- Whether a word of a channel's context is uncorrectable (R206). -/
def Office.contextBad (d : Office) (ch : Nat) : Bool :=
  (List.range 4).any fun k => d.arrClass 0 (ch * 4 + k) = .uncorrectable

/-- A cell word with `DISC_EN` cleared. -/
def discOff (w : Nat) : Nat := setBits w 5 1 0

/-- The cell word the owner expects at the tile: the master copy, with `DISC_EN` clear while the cell is auto-masked
(R206, R211). -/
def Office.expectedCell (d : Office) (t : Fin 4) (c : Nat) : Nat :=
  let w := d.masterCell t c
  if Sparse.get 0 d.am (channelOf t c) = 1 then discOff w else w

/-- Loads every configuration word of a tile (R165, R668): clusters, then cells. -/
def State.loadTile (s : State) (o : OfficeId) (t : Fin 4) : State :=
  let d := s.off o
  s.sendConfig o t (((List.range 16384).map fun k => cmdFor 1 k (d.masterCluster t k)) ++
    (List.range 262144).map fun k => cmdFor 0 k (d.expectedCell t k))

/-- The whole word of a register, whatever its accesses. -/
def State.regWhole (s : State) (o : OfficeId) (addr : Nat) : Nat :=
  (fieldsAt addr).foldl (fun acc e => acc + s.rd o e.1 e.2.1 e.2.2 * 2 ^ e.1.lo) 0

/-- Type 3 command words (R330, R334, R647): `CMD`, bytes 1 to 3, and bytes 4 to 7. -/
def cmdWord3 (cmd b1 b2 b3 v : Nat) : W64 :=
  BitVec.ofNat 64 (cmd % 256 + b1 % 256 * 2 ^ 8 + b2 % 256 * 2 ^ 16 + b3 % 256 * 2 ^ 24 + v % 2 ^ 32 * 2 ^ 32)

/-- Sends type 3 words in frames of 16; `fuel` bounds the frames (R330). -/
def State.sendType3 (s : State) (o : OfficeId) (t : Fin 4) : Nat → List W64 → State
  | 0, _ => s
  | _, [] => s
  | fuel + 1, ws => (s.emit (.downlink o t (dlHeader 3 0 (ws.take 16).length) (ws.take 16))).sendType3 o t fuel (ws.drop 16)

/-- The words that load a profile and the trims into the tile, and apply them (R328 to R330). A profile whose window
reads uncorrectable is not loaded. -/
def State.profileWords (s : State) (o : OfficeId) (t : Fin 4) (p : Nat) : List W64 :=
  let base := 0x0620000 + 0x80 * (4 * t.val + p)
  let b := (s.off o).windowBytes base 128
  let at_ := fun ofs n => ofLe ((b.drop ofs).take n)
  [cmdWord3 0x10 0 0 0 (at_ 0 4), cmdWord3 0x11 0 0 0 (at_ 4 4)] ++
    ((List.range 16).map fun k =>
      BitVec.ofNat 64 (0x12 + 2 * k * 2 ^ 8 + at_ (16 + 4 * k) 4 * 2 ^ 16)) ++
    [cmdWord3 0x13 (at_ 8 1) (at_ 9 1) (at_ 10 1) 0, cmdWord3 0x14 0 0 0 (s.regWhole o (F.TRG_SUM_TRIM_SKEW.addr t.val 0)),
     cmdWord3 0x15 0 0 0 0]

/-- The owner loads a profile into a tile (R329). -/
def State.loadProfile (s : State) (o : OfficeId) (t : Fin 4) (p : Nat) : State :=
  let base := 0x0620000 + 0x80 * (4 * t.val + p)
  if s.owns o = false then s
  else
    let u := s.useWindow o base 128
    if (s.off o).windowBad base 128 then u else u.sendType3 o t 2 (s.profileWords o t p)

/-- A NAK (R165): the frames kept go out again from the named one; where it is no longer kept, notice 0x0206 and a full reload of the
tile's words. DESIGN CHOICE: the reload's frames are numbered from the `SEQ` that the tile expects; the spec does not say from which
(log entry 84). The sum profile is loaded again with it (R329). -/
def State.nakFrom (s : State) (o : OfficeId) (t : Fin 4) (seq : Nat) : State :=
  if s.owns o = false then s
  else
    let s := s.countUp o F.SORT_LN_CNT_DLNAK_COUNT t.val
    if seq = Sparse.get 0 (s.off o).dlSeq t.val then s
    else if Sparse.get [] (s.off o).dlKept (t.val * 256 + seq) = [] then
      let s := (s.raise o 0x0206 (le 1 t.val ++ le 1 seq)).modOff o fun d => { d with
        dlSeq := Sparse.set 0 d.dlSeq t.val seq
        dlKept := d.dlKept.filter fun e => decide (e.1 / 256 ≠ t.val)
        cfgTx := Sparse.erase d.cfgTx t.val
        cfgResend := Sparse.erase d.cfgResend t.val }
      (s.loadTile o t).loadProfile o t (s.rd o F.TRG_CTL_PROFILE t.val)
    else (s.modOff o fun d => { d with cfgResend := Sparse.set 0 d.cfgResend t.val (seq + 1) }).pumpConfig o t

/-- DOWNLINK_NAK_RX (R145, R165). -/
def execDownlinkNakRx (o : OfficeId) (t : Fin 4) (seq : Byte) (s : State) : Out := .next (s.nakFrom o t seq.toNat)

/-- The BAR0 offset of a calibration sequence (R670). -/
def sequenceAddr (k : Nat) : Nat := 0x0001000 + 0x40 * k

/-- Whether a calibration sequence of dither strobes runs (R116, R671). -/
def Office.ditherRuns (d : Office) : Bool :=
  d.calRun.any fun c => c.running && decide (ofLe (d.windowBytes (sequenceAddr c.slot) 1) = 3)

/-- The words that a read-back of a place may return while the owner's runtime states stand at the tile (R67, R116, R647, R671), the
master copy first. A state that has just been sent or ended may show or not. -/
def State.expectedWords (s : State) (o : OfficeId) (t : Fin 4) (isCluster : Bool) (p want : Nat) : List Nat :=
  let d := s.off o
  let run := d.calRun.any (·.running)
  let slot := (d.calRun.map (·.slot)).getD 0
  let also := fun (on : Bool) (f : Nat → Nat) (ws : List Nat) => if on then ws ++ ws.map f else ws
  let q := d.quietSent.contains t.val
  if isCluster then
    let thr := Sparse.get 0 d.thrSent (t.val * 64 + p / 256)
    also d.ditherRuns (fun w => setBits w 14 1 1) (also d.ditherRuns (fun w => setBits w 13 1 1)
      (also q (fun w => setBits (setBits w 15 1 0) 2 1 0) (also (bitsOf thr 1 1 = 1) (fun w => setBits w 2 1 0)
        (also (thr % 2 = 1) (fun w => setBits w 0 2 1) [want]))))
  else
    let sel := BitVec.ofNat 32 (ofLe (d.windowBytes (sequenceAddr slot + 20) 4))
    also (run && selectMatches sel p) (fun w => setBits w 6 1 1) (also q discOff [want])

/-- Compares a read-back with the master copy and the runtime states sent (R67, R206): a cell of a poisoned context, read for R206, is
kept disabled; another difference rewrites the word and raises 0x0102. -/
def State.readBack (s : State) (o : OfficeId) (t : Fin 4) (w : W64) : State :=
  let a := bitsOf w.toNat 8 24
  let got := bitsOf w.toNat 32 16
  if s.owns o = false then s
  else if bitsOf a 18 1 = 1 then
    let cl := bitsOf a 12 6 * 256 + bitsOf a 6 6 % 16 * 16 + bitsOf a 0 6 % 16
    let want := (s.off o).masterCluster t cl
    if (s.expectedWords o t true cl want).contains got ∨ (s.off o).contextBad (channelOf t (cellOfCluster cl 0)) then s
    else (s.raise o 0x0102 (le 1 t.val ++ le 2 cl ++ le 1 0xFF ++ le 2 got ++ le 2 want)).sendConfig o t [cmdFor 1 cl want]
  else
    let c := bitsOf a 0 18
    if (s.off o).contextBad (channelOf t c) then
      if cfgDiscEn got then s.sendConfig o t [cmdFor 0 c (discOff got)] else s
    else
      let want := (s.off o).expectedCell t c
      if (s.expectedWords o t false c want).contains got then s
      else
        (s.raise o 0x0102 (le 1 t.val ++ le 2 (clusterOf c) ++ le 1 (cellInCluster c) ++ le 2 got ++ le 2 want)).sendConfig
          o t [cmdFor 0 c want]

/-- READBACK_REPLY_RX (R67, R145). -/
def execReadbackReplyRx (o : OfficeId) (t : Fin 4) (word : W64) (s : State) : Out := .next (s.readBack o t word)

/-! ### Received tile frames (R140, R143 to R146, R173 to R179) -/

/-- Fields of a frame header (R137). -/
def frmType (h : W32) : Nat := bitsOf h.toNat 28 4
def frmRound (h : W32) : Nat := bitsOf h.toNat 16 12
def frmDistrict (h : W32) : Nat := bitsOf h.toNat 10 6
def frmCount (h : W32) : Nat := bitsOf h.toNat 0 5

/-- Payload bytes that a header announces (R138). -/
def payloadLen (h : W32) : Option Nat :=
  match frmType h with
  | 0 => some (11 * frmCount h)
  | 1 => some (11 * frmCount h)
  | 2 => some 12
  | 3 => some 4
  | 4 => some (8 * frmCount h)
  | _ => none

/-- Whether `COUNT` is in its range for the `TYPE` (R137, R140). -/
def countOk (h : W32) : Bool :=
  match frmType h with
  | 2 | 3 => frmCount h = 0
  | _ => 1 ≤ frmCount h && frmCount h ≤ 24

/-- The full number of the round that a frame names: the nearest at or before the round in which the office's count
stands, when it is at most 2,048 rounds back (R140, log entry 20). -/
def State.fullRound (s : State) (o : OfficeId) (low : Nat) : Option Nat :=
  let p := (s.roundOf (s.off o).count).toNat
  let back := (p + 4096 - low % 4096) % 4096
  if back ≤ 2048 then some (roundBack p back) else none

/-- The CRC-16 of a tile frame (R139). -/
def frameCrc (f : LaneFrame) : W16 := crc16 (le 4 f.hdr.toNat ++ f.payload)

/-- The counter of a frame that is discarded, if it is (R140). -/
def State.frameFault (s : State) (o : OfficeId) (f : LaneFrame) : Option Fld :=
  if f.charErr ∨ f.crc ≠ frameCrc f then some F.SORT_LN_CNT_CRC_COUNT
  else if (payloadLen f.hdr).any fun n => n ≠ f.payload.length then some F.SORT_LN_CNT_CRC_COUNT
  else if 5 ≤ frmType f.hdr ∨ countOk f.hdr = false then some F.SORT_LN_CNT_BADHDR_COUNT
  else if frmType f.hdr ≤ 1 ∧ s.owns o = false then some F.SORT_LN_CNT_BADHDR_COUNT
  else if frmType f.hdr ≤ 2 ∧ (s.fullRound o (frmRound f.hdr)).isNone then some F.SORT_LN_CNT_BADHDR_COUNT
  else none

/-- Whether the owner merges a round (R173, R663). -/
def Office.merges (d : Office) (r : Nat) : Bool :=
  d.spans.any fun x => roundLe x.1 r && x.2.all fun b => roundLt r b

/-- The key of a district round at an office. -/
def roundKey (r : Nat) (db : Nat) : Nat := r * 256 + db

/-- A district round. -/
def Office.round (d : Office) (k : Nat) : DRound := Sparse.get {} d.rounds k

/-- Whether the merge of a district round has begun (R131, R176). -/
def Office.begun (d : Office) (k : Nat) : Bool := keyLt k d.nextKey || (d.round k).begun

/-- Letters in the receive buffer (R178): those of the district rounds that wait, and those that the merge units have not consumed, at
one letter per office core clock. -/
def Office.rxUsed (d : Office) (now : Nat) : Nat :=
  (d.rounds.map fun e => e.2.letters.length).sum +
    (d.mrg.units.map fun e => e.2.elim 0 fun m => m.letters - (now - m.startAt) / 2).sum

/-- Changes what is accumulated for a round's notices. -/
def State.modAcc (s : State) (o : OfficeId) (r : Nat) (f : RoundAcc → RoundAcc) : State :=
  s.modOff o fun d => { d with roundAcc := Sparse.update {} d.roundAcc r f }

/-- Puts one letter into its district round, or discards it when the buffer is full or the round has overflowed
(R179). -/
def State.bufferLetter (s : State) (o : OfficeId) (r db : Nat) (l : RxLetter) : State :=
  let k := roundKey r db
  let e := (s.off o).round k
  if e.overflowed ∨ 4194304 ≤ (s.off o).rxUsed s.now then
    let s := s.modOff o fun d =>
      { d with rounds := Sparse.set {} d.rounds k { e with overflowed := true, rxDropped := e.rxDropped + 1 } }
    let s := s.modAcc o r fun a =>
      { a with rxDistricts := a.rxDistricts + b2n (!e.overflowed), rxLetters := a.rxLetters + 1 }
    s.countUp o F.SORT_MG_CNT_RXDROP_COUNT
  else
    let clock := (s.off o).count.toNat / 2 + 1
    let e := { e with letters := e.letters ++ [l], lateIn := e.lateIn + b2n l.late }
    let e := if l.late then { e with lateClock := clock, lateN := if e.lateClock = clock then e.lateN + 1 else 1 } else e
    s.modOff o fun d => { d with rounds := Sparse.set {} d.rounds k e }

/-- The letters of a data or late frame with their side bytes. -/
def frameLetters (f : LaneFrame) (late : Bool) : List RxLetter :=
  let n := frmCount f.hdr
  (List.range n).map fun k =>
    { word := BitVec.ofNat 80 (ofLe ((f.payload.drop (10 * k)).take 10))
      side := (f.payload.drop (10 * n + k)).headD 0
      late := late }

/-- Raises a notice that comes at most once per tile and round (R131, R135): `bit` tells which. -/
def State.raiseOnceRound (s : State) (o : OfficeId) (t : Fin 4) (r bit code : Nat) (payload : List Byte) : State :=
  let n := Sparse.get 0 (s.off o).roundNotes (r * 4 + t.val)
  if bitsOf n bit 1 = 1 then s
  else (s.modOff o fun d => { d with roundNotes := Sparse.set 0 d.roundNotes (r * 4 + t.val) (n + 2 ^ bit) }).raise o code payload

/-- Letters discarded because the merge of their district round has begun (R131, R177): counted, and notice 0x0205 once per tile and
round. DESIGN CHOICE: the notice comes with the first frame so discarded and gives the letters of that frame; the spec says only that
it comes at most once (log entry 85). -/
def State.lateDrop (s : State) (o : OfficeId) (t : Fin 4) (r n : Nat) : State :=
  if n = 0 then s
  else (s.countBy o F.SORT_LN_CNT_LATEDROP_COUNT n t.val).raiseOnceRound o t r 1 0x0205 (le 1 t.val ++ le 6 r ++ le 4 n)

/-- A data frame whose checks passed (R173, R178). Letters of a round whose count was wrong are discarded (R26). DEDUCED: letters whose
merge has begun without the close frame are discarded and counted like late ones, for R31 names no other discard (log entry 86); the
frame itself counts for R143. -/
def State.takeData (s : State) (o : OfficeId) (t : Fin 4) (r : Nat) (f : LaneFrame) : State :=
  let db := districtByte t (frmDistrict f.hdr)
  let k := roundKey r db
  if (s.off o).merges r = false then s
  else
    let begun := (s.off o).begun k
    let keep := !begun || (s.off o).round k != {}
    let s := if keep then
        s.modOff o fun d => { d with rounds := Sparse.update {} d.rounds k fun e => { e with frames := e.frames + 1 } }
      else s
    if (s.off o).tickBad.contains (t.val, r) then s
    else if begun then s.lateDrop o t r (frmCount f.hdr)
    else (frameLetters f false).foldl (fun s l => s.bufferLetter o r db l) s

/-- A late frame whose checks passed (R131, R173): letters that the receive buffer takes are counted as accepted. -/
def State.takeLate (s : State) (o : OfficeId) (t : Fin 4) (r : Nat) (f : LaneFrame) : State :=
  let k := roundKey r (districtByte t (frmDistrict f.hdr))
  if (s.off o).merges r = false ∨ (s.off o).tickBad.contains (t.val, r) then s
  else if (s.off o).begun k then s.lateDrop o t r (frmCount f.hdr)
  else
    let u := (frameLetters f true).foldl (fun s l => s.bufferLetter o r (districtByte t (frmDistrict f.hdr)) l) s
    u.countBy o F.SORT_LN_CNT_LATE_COUNT (((u.off o).round k).lateIn - ((s.off o).round k).lateIn) t.val

/-- Notice 0x0203 of a tile and round (R135). -/
def State.noticeOverflow (s : State) (o : OfficeId) (t : Fin 4) (r : Nat) : State :=
  let a := Sparse.get {} (s.off o).roundAcc r
  if a.ovfDropped.get t = 0 then s
  else s.raiseOnceRound o t r 0 0x0203
    (le 1 t.val ++ le 6 r ++ le 1 (a.ovfDistricts.get t) ++ le 4 (min (a.ovfDropped.get t) 0xFFFFFFFF))

/-- Counts a district round's close for notice 0x0203, raised when the tile's 64 are in (R135). -/
def State.accClose (s : State) (o : OfficeId) (t : Fin 4) (r dropped : Nat) : State :=
  let s := s.modAcc o r fun a =>
    { a with closes := a.closes.set t (a.closes.get t + 1)
             ovfDistricts := a.ovfDistricts.set t (a.ovfDistricts.get t + b2n (dropped ≠ 0))
             ovfDropped := a.ovfDropped.set t (a.ovfDropped.get t + dropped) }
  if (Sparse.get {} (s.off o).roundAcc r).closes.get t = 64 then s.noticeOverflow o t r else s

/-- A close that comes after its district round was made ready without it: the notice of its letters dropped is raised with it, where
the round's has not been raised (R135). -/
def State.lateClose (s : State) (o : OfficeId) (t : Fin 4) (r dropped : Nat) : State :=
  if dropped = 0 then s
  else s.raiseOnceRound o t r 0 0x0203 (le 1 t.val ++ le 6 r ++ le 1 1 ++ le 4 (min dropped 0xFFFFFFFF))

/-- The closing tick of a round (R127). -/
def State.closingTick (s : State) (o : OfficeId) (r : Nat) : Nat :=
  (r + 1) * 2 ^ s.svc.roundShift - 1 + s.rd o F.SORT_CLOSE_CLOSE_DLY

/-- A close frame whose checks passed (R134, R135, R143, R174). One that comes after its district round was made ready without it
counts and is reported all the same; the round's readiness does not change, and what was kept of a merged round for it goes. -/
def State.takeClose (s : State) (o : OfficeId) (t : Fin 4) (r : Nat) (f : LaneFrame) : State :=
  let dist := frmDistrict f.hdr
  let k := roundKey r (districtByte t dist)
  let e := (s.off o).round k
  if (s.off o).merges r = false ∨ e.close.isSome ∨ ((s.off o).begun k ∧ e.noClose = false) then s
  else
    let rec_ : CloseRec :=
      { letters := ofLe (f.payload.take 3), frames := ofLe ((f.payload.drop 3).take 3),
        dropped := ofLe ((f.payload.drop 6).take 4), eccDrop := ofLe ((f.payload.drop 10).take 2) }
    let missing := rec_.frames - e.frames
    let now := (s.off o).count.toNat
    let late := tickLe (s.closingTick o r + s.rd o F.SORT_MG_LATEWIN_LATE_WIN) now
    let e := { e with close := some rec_, lostFrames := decide (missing ≠ 0),
                      readyAt := if late && !e.noClose then some s.now else e.readyAt }
    let s := s.modOff o fun d =>
      { d with rounds := if keyLt k d.nextKey then Sparse.erase d.rounds k else Sparse.set {} d.rounds k e }
    let s := if missing = 0 then s
      else (s.countBy o F.SORT_LN_CNT_LOSTFRM_COUNT missing t.val).raise o 0x0204
        (le 1 t.val ++ le 1 dist ++ le 6 r ++ le 3 missing)
    let s := if rec_.eccDrop = 0 then s
      else s.raise o 0x0209 (le 1 t.val ++ le 1 dist ++ le 6 r ++ le 2 rec_.eccDrop)
    let s := if rec_.dropped = 0 then s else s.countBy o F.SORT_LN_CNT_OVFDROP_COUNT rec_.dropped t.val
    if e.noClose then s.lateClose o t r rec_.dropped else s.accClose o t r rec_.dropped

/-- An idle frame's liveness word (R144, R522): kept with its arrival, and the downlink's state with it. A valid vote for a
live senior office tells that this one was eligible (R520, R529; log entry 59). -/
def State.takeLiveness (s : State) (o : OfficeId) (t : Fin 4) (w : W32) : State :=
  let s := s.modOff o fun d =>
    { d with liveness := d.liveness.set t (some (s.now, w))
             twin := { d.twin with seniorElig := d.twin.seniorElig ||
               (decide (bitsOf w.toNat 2 2 = 3) && decide (bitsOf w.toNat 0 2 = s.rd o F.TWN_CFG_SENIOR)) } }
  (s.wr o F.SORT_LN_STAT_DL (bitsOf w.toNat 8 2) t.val).refreshReach o

/-- A refreshed counter copy (R69); notice 0x0101 when it has reached all ones, once for the module until the tile clears the counter
(R78). -/
def State.copyCounter (s : State) (o : OfficeId) (t : Fin 4) (f : Fld) (v : Nat) : State :=
  let s := s.wr o f v t.val
  if v = 0xFFFFFFFF ∧ (s.tile t).fullNoted.contains (f.key t.val 0) = false then
    (s.modTile t fun d => { d with fullNoted := f.key t.val 0 :: d.fullNoted }).raise o 0x0101 (le 1 t.val ++ le 4 (f.addr t.val 0))
  else s

/-- Stores the fields of a register image (R69, R145). -/
def State.copyRegister (s : State) (o : OfficeId) (addr v : Nat) : State :=
  (fieldsAt addr).foldl (fun s e => s.wr o e.1 (e.1.part v) e.2.1 e.2.2) s

/-- The counters that a tile reports, by group and offset (R74, R118). -/
def tileCounters : List (Nat × Nat × Fld) :=
  [(0, 0x10, F.SORT_FE_CNT_PBUSY_COUNT), (0, 0x14, F.SORT_FE_CNT_QFULL_COUNT), (0, 0x18, F.SORT_FE_CNT_TOTSAT_COUNT),
   (0, 0x1C, F.SORT_FE_CNT_INJSKIP_COUNT), (0, 0x20, F.SORT_FE_CNT_SEU_COUNT), (1, 0x00, F.SORT_TE_CNT_COLEAD_COUNT),
   (1, 0x04, F.SORT_TE_CNT_COTRAIL_COUNT), (1, 0x08, F.SORT_TE_CNT_ORPHAN_COUNT), (1, 0x0C, F.SORT_TE_CNT_UNLOCK_COUNT)]

/-- The registers beside the counters whose images a status frame carries, by group and offset (R146). -/
def tileRegisters : List (Nat × Nat) := [(0, 0x0C), (0, 0x28), (0, 0x2C), (0, 0x30), (0, 0x34), (1, 0x10)]

/-- One status word (R145). -/
def State.takeStatusWord (s : State) (o : OfficeId) (t : Fin 4) (w : W64) : State :=
  match bitsOf w.toNat 0 8 with
  | 1 =>
    let g := bitsOf w.toNat 8 8
    let ofs := bitsOf w.toNat 16 8
    let v := bitsOf w.toNat 32 32
    match tileCounters.find? fun e => e.1 = g && e.2.1 = ofs with
    | some e => s.copyCounter o t e.2.2 v
    | none =>
      if tileRegisters.contains (g, ofs) then s.copyRegister o ((if g = 0 then 0x0300100 else 0x0300200) + 0x40 * t.val + ofs) v
      else s
  | 2 => s.readBack o t w
  | 3 => s.nakFrom o t (bitsOf w.toNat 8 8)
  | 4 => (s.wr o F.SORT_LN_STAT_DL (bitsOf w.toNat 8 2) t.val).refreshReach o
  | _ => s.countUp o F.SORT_LN_CNT_BADHDR_COUNT t.val

/-- A status frame (R69, R145, R146). -/
def State.takeStatus (s : State) (o : OfficeId) (t : Fin 4) (f : LaneFrame) : State :=
  let s := s.modOff o fun d => { d with statusAt := d.statusAt.set t (some s.now) }
  (wordsOf 8 (frmCount f.hdr) f.payload).foldl (fun s w => s.takeStatusWord o t (BitVec.ofNat 64 w)) s

/-- A tile frame on a letter lane: discarded and counted once under R140, else taken by its `TYPE`. -/
def State.takeFrame (s : State) (o : OfficeId) (t : Fin 4) (f : LaneFrame) : State :=
  if (s.off o).inReset then s
  else
    match s.frameFault o f with
    | some c => s.countUp o c t.val
    | none =>
      let r := (s.fullRound o (frmRound f.hdr)).getD 0
      match frmType f.hdr with
      | 0 => s.takeData o t r f
      | 1 => s.takeLate o t r f
      | 2 => if s.owns o then s.takeClose o t r f else s
      | 3 => s.takeLiveness o t (BitVec.ofNat 32 (ofLe f.payload))
      | _ => s.takeStatus o t f

/-- A tile frame on a letter lane, with what it does for the lane's training (R151, R712). -/
def State.rxFrame (s : State) (o : OfficeId) (t : Fin 4) (lane : Fin 8) (f : LaneFrame) : State :=
  if (s.off o).inReset then s
  else (s.trainLane o t (.letter lane) (decide (frmType f.hdr = 3)) (f.charErr || decide (f.crc ≠ frameCrc f))).takeFrame o t f

/-- DATA_FRAME_RX (R140, R173, R178, R179). -/
def execDataFrameRx (o : OfficeId) (t : Fin 4) (lane : Fin 8) (f : LaneFrame) (s : State) : Out := .next (s.rxFrame o t lane f)

/-- LATE_FRAME_RX (R131, R140). -/
def execLateFrameRx (o : OfficeId) (t : Fin 4) (lane : Fin 8) (f : LaneFrame) (s : State) : Out := .next (s.rxFrame o t lane f)

/-- CLOSE_FRAME_RX (R135, R143, R174). -/
def execCloseFrameRx (o : OfficeId) (t : Fin 4) (lane : Fin 8) (f : LaneFrame) (s : State) : Out := .next (s.rxFrame o t lane f)

/-- STATUS_FRAME_RX (R69, R145, R146). -/
def execStatusFrameRx (o : OfficeId) (t : Fin 4) (lane : Fin 8) (f : LaneFrame) (s : State) : Out :=
  .next (s.rxFrame o t lane f)

/-- The counter of a sum frame that is discarded, if it is (R140, R332). -/
def sumFault (f : LaneFrame) : Option Fld :=
  let len := match frmType f.hdr with
    | 0 => 128
    | 1 => 2 * bitsOf f.hdr.toNat 0 8
    | _ => 0
  if f.charErr ∨ f.crc ≠ frameCrc f ∨ (frmType f.hdr ≤ 2 ∧ f.payload.length ≠ len) then some F.SORT_LN_CNT_CRC_COUNT
  else if 3 ≤ frmType f.hdr ∨ (frmType f.hdr = 0 ∧ bitsOf f.hdr.toNat 4 2 = 3) ∨
      (frmType f.hdr = 1 ∧ (bitsOf f.hdr.toNat 0 8 = 0 ∨ 64 < bitsOf f.hdr.toNat 0 8)) then some F.SORT_LN_CNT_BADHDR_COUNT
  else none

/-- A frame on a sum lane: counted and discarded when bad (R140), else taken by `act`. -/
def State.takeSum (s : State) (o : OfficeId) (t : Fin 4) (f : LaneFrame) (act : State → State) : State :=
  if (s.off o).inReset then s
  else
    match sumFault f with
    | some c => s.countUp o c t.val
    | none => act s

/-- IDLE_FRAME_RX (R144, R522): of a letter lane, or of a sum lane, where it carries nothing (R332); it trains its lane (R712). -/
def execIdleFrameRx (o : OfficeId) (t : Fin 4) (lane : LaneRef) (f : LaneFrame) (s : State) : Out :=
  .next (match lane with
    | .letter k => s.rxFrame o t k f
    | .sum _ =>
      if (s.off o).inReset then s
      else (s.trainLane o t lane (decide (frmType f.hdr = 2)) (f.charErr || decide (f.crc ≠ frameCrc f))).takeSum o t f id
    | _ => s.takeFrame o t f)

/-! ### Clock-crossing FIFOs (R157) -/

/-- Flushes the FIFO of a ring port; an item cut on either side is discarded and counted as a bad frame (R157, R393). -/
def State.flushRing (s : State) (p : RingPort) (writing : Bool) : State :=
  let k := match p with
    | .E => 0
    | .W => 1
  let old := Sparse.get {} s.svc.fifos k
  let s := s.modSvc fun d => { d with fifos := Sparse.set {} d.fifos k (old.flush s.now writing) }
  if writing || old.inItem then s.countUp s.speaker F.RING_CNT_CRC_COUNT else s

/-- FIFO_FLUSH (R157): `writing` tells that the writer was in mid-item. An item cut on the PCIe island is sent again by the link
(R715). -/
def execFifoFlush (f : FifoRef) (writing : Bool) (s : State) : Out :=
  .next (
    match f with
    | .ringRxE => s.flushRing .E writing
    | .ringRxW => s.flushRing .W writing
    | .pcieRx o => s.modOff o fun d => { d with pcieRx := d.pcieRx.flush s.now writing }
    | .pcieTx o => s.modOff o fun d => { d with pcieTx := d.pcieTx.flush s.now writing })

end Sys2Proof.Machine
end

