-- ==== Sys2Proof/Machine/Items.lean ====
section
/-! DEFINITION. Configuration items (12 R481, R482, R492): their places, and how an element is written into an array or
a register; and what the owner sends the tiles after a change (02 R42 to R44; 08 R329, R330). -/

namespace Sys2Proof.Machine

/-- An item header and its data, padded to a multiple of 8 (R481). -/
def Item.bytes (it : Item) : List Byte :=
  le 1 it.kind ++ le 1 it.esize ++ le 2 0 ++ le 4 it.target ++ le 4 it.count ++ le 4 it.stride ++ le 4 it.count2 ++
    le 4 it.stride2 ++ it.data ++ List.replicate ((8 - it.data.length % 8) % 8) 0

/-- Data bytes of an item by its header (R481). -/
def itemDataLen (kind esize count count2 : Nat) : Nat :=
  match kind with
  | 0x01 => esize
  | 0x02 => count * max 1 count2 * esize
  | 0x10 => 64
  | _ => 0

/-- The items of a section; none where it is cut short. `fuel` bounds their number. -/
def parseItems : Nat → List Byte → Option (List Item)
  | _, [] => some []
  | 0, _ => none
  | fuel + 1, bs =>
    if bs.length < 24 then none
    else
      let w := fun ofs n => ofLe ((bs.drop ofs).take n)
      let n := itemDataLen (w 0 1) (w 1 1) (w 8 4) (w 16 4)
      let padded := (n + 7) / 8 * 8
      if bs.length < 24 + padded ∨ w 2 2 ≠ 0 ∨ w (24 + n) (padded - n) ≠ 0 then none
      else
        let it : Item :=
          { kind := w 0 1, esize := w 1 1, target := w 4 4, count := w 8 4, stride := w 12 4, count2 := w 16 4,
            stride2 := w 20 4, data := (bs.drop 24).take n }
        (parseItems fuel (bs.drop (24 + padded))).map (it :: ·)

/-- The places of an item's elements, `j` outer and `i` inner (R481). -/
def Item.places (it : Item) : List Nat :=
  (List.range (max 1 it.count2)).flatMap fun j =>
    (List.range it.count).map fun i => it.target + i * it.stride + j * it.stride2

/-- The elements of an item: address and value (R481). -/
def Item.elements (it : Item) : List (Nat × Nat) :=
  if it.kind = 1 then it.places.map fun a => (a, ofLe (it.data.take it.esize))
  else it.places.zip (wordsOf it.esize (it.count * max 1 it.count2) it.data)

/-- Whether an item may write a field: AMD, and RWL in an image (R482). -/
def Fld.itemWritable (f : Fld) (image : Bool) : Bool := f.acc = .amd || (image && f.acc = .rwl)

/-- Writes the fields that `n` bytes at `addr` cover of one register. Fields of the service die are written by the owner, or
while no office owns (log entry 50). -/
def State.itemRegister (s : State) (o : OfficeId) (image : Bool) (addr n v : Nat) : State :=
  let base := addr - addr % 4
  let word := setBits (s.regWhole o base) (8 * (addr % 4)) (8 * n) v
  (fieldsAt base).foldl (fun s e =>
    if e.1.itemWritable image && (!e.1.svc || s.owns o || s.owner.isNone) then s.wr o e.1 (e.1.part word) e.2.1 e.2.2 else s) s

/-- Writes one element (R482, R492): a part of a word that reads uncorrectable is skipped with notice 0x090F. -/
def State.itemElement (s : State) (o : OfficeId) (image : Bool) (seq esize : Nat) (e : Nat × Nat) : State :=
  let addr := e.1
  match arrayAt addr with
  | some p =>
    if p.1 = 0 ∧ 2 ≤ p.2 % 4 then s
    else if esize = 8 then s.arrWrite o p.1 p.2 e.2
    else
      let bad := decide ((s.off o).arrClass p.1 p.2 = .uncorrectable)
      let s := s.arrUpdate o p.1 p.2 false fun w => setBits w (8 * (addr % 8)) (8 * esize) e.2
      if bad then s.raise o 0x090F (le 4 addr ++ le 4 seq) else s
  | none =>
    if esize = 8 then (s.itemRegister o image addr 4 e.2).itemRegister o image (addr + 4) 4 (e.2 / 2 ^ 32)
    else s.itemRegister o image addr esize e.2

/-- After a write into the context window by the owner: the tile gets the configuration word from the master copy, when
word 0 was written, or when the context has just lost its last poisoned word (R195, R207). -/
def State.contextWritten (s : State) (o : OfficeId) (w : Nat) (wasBad : Bool) : State :=
  let ch := w / 4
  let t : Fin 4 := ⟨ch / 262144 % 4, Nat.mod_lt _ (by decide)⟩
  let c := ch % 262144
  if s.owns o && !(s.off o).contextBad ch && (w % 4 = 0 || wasBad) then
    let cfg := cmdFor 0 c ((s.off o).expectedCell t c)
    if cellInCluster c = 0 then
      s.sendConfig o t [cmdFor 1 (clusterOf c) ((s.off o).masterCluster t (clusterOf c)), cfg]
    else s.sendConfig o t [cfg]
  else s

/-- Writes one element and restores the tile's word where it lies in the context window. -/
def State.applyElement (s : State) (o : OfficeId) (image : Bool) (seq esize : Nat) (e : Nat × Nat) : State :=
  match arrayAt e.1 with
  | some (0, w) =>
    let bad := (s.off o).contextBad (w / 4)
    (s.itemElement o image seq esize e).contextWritten o w bad
  | _ => s.itemElement o image seq esize e

/-- Applies items in order (R482, R492). -/
def State.applyItems (s : State) (o : OfficeId) (image : Bool) (seq : Nat) (items : List Item) : State :=
  items.foldl (fun s it => it.elements.foldl (fun s e => s.applyElement o image seq it.esize e) s) s

/-! ### What reaches the tiles -/

/-- The front-end settings that the owner sends a tile (R42 to R44, R71, R170). DESIGN CHOICE: `SLOPE`, `RST_TICKS` and `CLOSE_DLY`
come with them and act at the tile in the same tick as R44 states for `GTHR` and `POL`; the spec gives them no moment (log entry
77). -/
def State.sendFrontEnd (s : State) (o : OfficeId) (t : Fin 4) : State :=
  s.orderTile o t (.settings (BitVec.ofNat 10 (s.rd o F.SORT_FE_THR_GTHR t.val)) (s.flag o F.SORT_FE_CTL_POL t.val)
    (s.flag o F.SORT_FE_CTL_SLOPE t.val) (BitVec.ofNat 8 (s.rd o F.SORT_FE_CTL_RST_TICKS t.val)) (s.rd o F.SORT_CLOSE_CLOSE_DLY))

/-- The front-end settings of every tile. -/
def State.sendFrontEnds (s : State) (o : OfficeId) : State :=
  if s.owns o then (((s.sendFrontEnd o 0).sendFrontEnd o 1).sendFrontEnd o 2).sendFrontEnd o 3 else s

/-- Whether an item touches a range of BAR0. -/
def Item.touches (it : Item) (lo hi : Nat) : Bool :=
  it.places.any fun a => decide (lo ≤ a) && decide (a < hi)

/-- Profiles in use that a change touches, and trims, are loaded again (R329, R491). -/
def State.reloadProfiles (s : State) (o : OfficeId) (items : List Item) : State :=
  [(0 : Fin 4), 1, 2, 3].foldl (fun s t =>
    let p := s.rd o F.TRG_CTL_PROFILE t.val
    let base := 0x0620000 + 0x80 * (4 * t.val + p)
    let trim := F.TRG_SUM_TRIM_SKEW.addr t.val 0
    if items.any fun it => it.touches base (base + 128) || it.touches trim (trim + 4) then s.loadProfile o t p else s) s

/-! ### Calibration sequences (18 R671) -/

/-- A calibration sequence ends: `INJ_SEL` returns to the master copy and no interpolator is forced off; `GTHR_ACT` returns at
the next round boundary (R73, R671). -/
def State.endSequence (s : State) (o : OfficeId) : State :=
  match (s.off o).calRun with
  | none => s
  | some _ =>
    let s := (s.modOff o fun d => { d with calRun := none }).wr o F.GLB_CALSEQ_RUN 0
    [(0 : Fin 4), 1, 2, 3].foldl (fun s t => s.orderTile o t (.sequence none none)) s

/-- Items that rewrite the slot of the sequence under way end it (R671). -/
def State.rewriteSlot (s : State) (o : OfficeId) (items : List Item) : State :=
  match (s.off o).calRun with
  | none => s
  | some c =>
    if items.any fun it => it.touches (sequenceAddr c.slot) (sequenceAddr c.slot + 64) then s.endSequence o else s

end Sys2Proof.Machine
end

