-- ==== Sys2Proof/Machine/Mirror.lean ====
section
/-! DEFINITION. The owner's side of the mirror: frames of the inter-office link and mirrored items (13 R530 to R534). -/

namespace Sys2Proof.Machine

/-- The header of a link frame (R531). -/
def linkHeader (type : Nat) (more : Bool) (len : Nat) : W32 :=
  BitVec.ofNat 32 (type % 16 * 2 ^ 28 + b2n more * 2 ^ 27 + len % 4096 * 2 ^ 12)

/-- The first payload word of a mirror frame (R532). -/
def mirrorWord (mseq kind : Nat) : W64 := BitVec.ofNat 64 (mseq % 2 ^ 32 + kind % 256 * 2 ^ 32)

/-- Sends the frames of an item, at most 4,094 words after the first in each; `fuel` bounds the frames (R531, R532). -/
def State.sendItemFrames (s : State) (o : OfficeId) (mseq kind : Nat) : Nat → List W64 → State
  | 0, _ => s
  | fuel + 1, ws =>
    let part := ws.take 4094
    let rest := ws.drop 4094
    let s := s.emit (.link o (linkHeader 1 (rest ≠ []) (part.length + 1)) (mirrorWord mseq kind :: part))
    if rest = [] then s else s.sendItemFrames o mseq kind fuel rest

/-- Sends an item again, or for the first time. -/
def State.sendItem (s : State) (o : OfficeId) (i : MirrorItem) : State :=
  s.sendItemFrames o i.mseq i.kind (i.words.length / 4094 + 1) i.words

/-- Sets `TWN_MIRROR.UNACKED` (R554). -/
def State.refreshUnacked (s : State) (o : OfficeId) : State :=
  s.wr o F.TWN_MIRROR_UNACKED (min (s.off o).unacked.length 0xFFFF)

/-- Sends a new item and keeps it until it is acknowledged (R532, R534). -/
def State.sendMirror (s : State) (o : OfficeId) (kind : Nat) (words : List W64) : State :=
  let i : MirrorItem := { mseq := (s.off o).mseq, kind := kind, words := words, sentAt := s.now, firstAt := s.now }
  ((s.modOff o fun d => { d with mseq := (i.mseq + 1) % 2 ^ 32, unacked := d.unacked ++ [i] }).refreshUnacked o).sendItem o i

/-- The owner mirrors an item (R530): kept until it is acknowledged. Nothing is sent while the link is known to have
failed; the resynchronisation of R536 then sends what is current. -/
def State.mirror (s : State) (o : OfficeId) (kind : Nat) (words : List W64) : State :=
  if s.owns o = false ∨ s.flag o F.TWN_HEALTH_LINK then s else s.sendMirror o kind words

/-! ### Time items and run state (R530, R532) -/

/-- Bytes as whole words, zero-padded (R532). -/
def padWords (b : List Byte) : List W64 := (wordsOf 8 ((b.length + 7) / 8) b).map (BitVec.ofNat 64)

/-- A broadcast as the mirror carries it. -/
def Bcast.mirrorBytes (b : Bcast) : List Byte :=
  le 1 b.origin ++ le 2 b.seq ++ le 1 b.op ++ le 4 b.arg.length ++ le 8 b.tick ++ b.arg

/-- The time items: pending scheduled operations, the last 64 pairs of R405, the numbers of broadcasts and barriers. -/
def State.timeItems (s : State) : List W64 :=
  let r := s.svc.ring
  padWords (le 8 r.sched.length ++ r.sched.flatMap Bcast.mirrorBytes ++ le 8 r.seen.length ++
    r.seen.flatMap (fun p => le 1 p.1 ++ le 2 p.2 ++ le 1 0) ++ le 2 r.seq ++ le 2 r.bid)

/-- The `SVN` of an office's other image slot, 0xFF for none (R475). -/
def State.otherSvn (s : State) (o : OfficeId) : Option Nat :=
  (if s.rd o F.SEC_STAT_RUN_SLOT = 0 then (s.off o).nvm.slot1 else (s.off o).nvm.slot0).svn

/-- The run state: mode, `TRG_CTL` of each tile, `RATE_CAP`, `STO_CTL`, the selected calibration sequence, and the `SVN` of
each office's other slot. -/
def State.runState (s : State) (o : OfficeId) : List W64 :=
  ([(s.mode o).code] ++ ((List.range 4).map fun t => s.regWhole o (F.TRG_CTL_ARM.addr t 0)) ++
    [s.rd o F.COL_CTL_RATE_CAP, s.regWhole o F.STO_CTL_ENABLE.off, s.rd o F.GLB_CALSEQ_SEQ,
     (s.otherSvn .A).getD 0xFF, (s.otherSvn .B).getD 0xFF]).map (BitVec.ofNat 64)

/-- Changes the twin logic of an office. -/
def State.modTwin (s : State) (o : OfficeId) (f : Twin → Twin) : State := s.modOff o fun d => { d with twin := f d.twin }

/-- The owner mirrors time items and run state when they have changed (R530). -/
def State.mirrorChanges (s : State) : State :=
  match s.owner with
  | none => s
  | some o =>
    let t := s.timeItems
    let r := s.runState o
    let s := if t = (s.off o).twin.sentTime then s else (s.modTwin o fun x => { x with sentTime := t }).mirror o 4 t
    if r = (s.off o).twin.sentRun then s else (s.modTwin o fun x => { x with sentRun := r }).mirror o 5 r

end Sys2Proof.Machine
end

