-- ==== Sys2Proof/Machine/Pigeonholes.lean ====
section
/-! DEFINITION. Pigeonholes: rings, states, mailbags, receipts, interrupts, notices (11 R445 to R464, R472; 05 R218). -/

namespace Sys2Proof.Machine

/-! ### The port and the pigeonhole -/

/-- Whether the office can reach host memory: its link is in L0 and bus mastering is on (R434, R435). -/
def State.portReady (s : State) (o : OfficeId) : Bool :=
  !(s.off o).inReset && !(s.off o).d3hot && s.flag o F.PH_PORT_STAT_L0 && s.flag o F.PH_PORT_STAT_BME

/-- Whether the office may deliver to a pigeonhole: an office that has gained ownership delivers nothing until R540 lets
it; notices are its own. -/
def State.mayDeliver (s : State) (o : OfficeId) (p : Nat) : Bool := decide (p = 1) || (s.off o).twin.mayWrite

/-- Whether an owner can write its store (R434, R435, R540). -/
def State.storeReady (s : State) (o : OfficeId) : Bool := s.portReady o && (s.off o).twin.mayWrite

/-- The unregistered part of a pigeonhole. -/
def Office.ph (d : Office) (p : Nat) : Ph := Sparse.get {} d.phs p

/-- Changes it, and `PH_STAT.HELD` with it. -/
def State.modPh (s : State) (o : OfficeId) (p : Nat) (f : Ph → Ph) : State :=
  let x := f ((s.off o).ph p)
  (s.modOff o fun d => { d with phs := Sparse.set {} d.phs p x }).wr o F.PH_STAT_HELD x.held.length p

/-- States of `PH_STAT.STATE` (R467). -/
def phDisabled : Nat := 0
def phStarved : Nat := 1
def phReady : Nat := 2
def phStalled : Nat := 3

/-- The state of a pigeonhole. -/
def State.phState (s : State) (o : OfficeId) (p : Nat) : Nat := s.rd o F.PH_STAT_STATE p

/-- Sets the state of a pigeonhole. -/
def State.setPhState (s : State) (o : OfficeId) (p st : Nat) : State := s.wr o F.PH_STAT_STATE st p

/-- Stalls a pigeonhole (R446, R448): notice 0x0804. -/
def State.stall (s : State) (o : OfficeId) (p cause : Nat) : State :=
  ((s.setPhState o p phStalled).wr o F.PH_STAT_CAUSE cause p).raise o 0x0804
    (le 2 p ++ le 4 (s.rd o F.PH_DCONS_INDEX p) ++ le 1 cause)

/-! ### Interrupts (R462) -/

/-- Signals a vector: a message, or the pending bit while it is masked or MSI-X is disabled. -/
def State.signal (s : State) (o : OfficeId) (vector : Nat) : State :=
  if (s.off o).msixOn && s.rd o F.MSIX_VCTRL_MASK vector = 0 then
    s.postWrite o (s.rd o F.MSIX_ADDR_LO_A vector + s.rd o F.MSIX_ADDR_HI_A vector * 2 ^ 32) (le 4 (s.rd o F.MSIX_DATA_D vector))
  else
    let w := s.rd o F.MSIX_PBA_P (vector / 32)
    s.wr o F.MSIX_PBA_P (setBits w (vector % 32) 1 1) (vector / 32)

/-- Signals the receipts of a pigeonhole that are unsignalled. -/
def State.signalPh (s : State) (o : OfficeId) (p : Nat) : State :=
  (s.modPh o p fun x => { x with unsig := 0 }).signal o (s.rd o F.PH_CFG_VECTOR p)

/-- After a receipt: signalled when `COAL_N` wait, 0 treated as 1 (R462). -/
def State.noteReceipt (s : State) (o : OfficeId) (p : Nat) : State :=
  let x := (s.off o).ph p
  let s := s.modPh o p fun x => { x with unsig := x.unsig + 1, unsigAt := if x.unsig = 0 then s.now else x.unsigAt }
  if max 1 (s.rd o F.PH_IRQ_COAL_N p) ≤ x.unsig + 1 then s.signalPh o p else s

/-! ### Receipts (R457, R460, R461) -/

/-- A receipt as the office fills it in. -/
structure Receipt where
  kind : Nat
  last : Bool
  order : Bool
  status : Nat
  dseq : Nat
  cookie : Nat
  offset : Nat
  len : Nat
  tag : Nat

/-- The 32 bytes of a receipt of index `r` (R460, R461). -/
def Receipt.bytes (c : Receipt) (p r rrLog2 : Nat) : List Byte :=
  let phase := 1 - r / 2 ^ rrLog2 % 2
  let b := le 1 c.kind ++ le 1 (phase + 2 * b2n c.last + 4 * b2n c.order) ++ le 2 c.status ++ le 2 p ++ le 2 c.dseq ++
    le 8 c.cookie ++ le 4 c.offset ++ le 4 c.len ++ le 2 c.tag ++ le 2 r
  b ++ le 4 (crc32c b).toNat

/-- Free slots of a receipt ring (R453). -/
def State.receiptRoom (s : State) (o : OfficeId) (p : Nat) : Nat :=
  2 ^ s.rd o F.PH_CFG_RR_LOG2 p -
    (BitVec.ofNat 32 (s.rd o F.PH_RPROD_INDEX p) - ((s.off o).ph p).rcons).toNat

/-- Writes a receipt into the ring. -/
def State.writeReceipt (s : State) (o : OfficeId) (p : Nat) (c : Receipt) : State :=
  let r := s.rd o F.PH_RPROD_INDEX p
  let lg := s.rd o F.PH_CFG_RR_LOG2 p
  let base := s.rd o F.PH_RR_BASE_LO_BASE_L p + s.rd o F.PH_RR_BASE_HI_BASE_H p * 2 ^ 32
  let s := s.postWrite o (base + 32 * (r % 2 ^ lg)) (c.bytes p r lg)
  (s.wr o F.PH_RPROD_INDEX (r + 1) p).noteReceipt o p

/-- The first held buffer leaves the pigeonhole; without any buffer or descriptor left it is STARVED (R450). -/
def State.dropBuffer (s : State) (o : OfficeId) (p : Nat) : State :=
  let s := s.modPh o p fun x => { x with held := x.held.drop 1 }
  let x := (s.off o).ph p
  if x.held = [] ∧ s.phState o p = phReady ∧ s.rd o F.PH_DCONS_INDEX p = x.dprod.toNat then s.setPhState o p phStarved
  else s

/-- Returns the first held buffer unfilled (R452, R459). -/
def State.returnBuffer (s : State) (o : OfficeId) (p status : Nat) : State :=
  match ((s.off o).ph p).held with
  | [] => s
  | b :: _ =>
    let s := s.writeReceipt o p { kind := 4, last := true, order := false, status := status, dseq := b.seq,
                                  cookie := b.cookie, offset := 0, len := 0, tag := 0 }
    (s.dropBuffer o p).countUp o F.PH_CNT_RETURNED_COUNT p

/-! ### Mailbags (R454 to R459) -/

/-- The next multiple of `m`. -/
def roundUp (m n : Nat) : Nat := (n + m - 1) / m * m

/-- The limit of a mailbag (R454). -/
def State.bagLimit (s : State) (o : OfficeId) (p : Nat) : Nat := 2 ^ (21 + s.rd o F.PH_CFG_MB_SIZE p)

/-- The 32 bytes of a mailbag header (R458). -/
def Mailbag.header (b : Mailbag) (p : Nat) (gap : Bool) : List Byte :=
  let h := le 2 0x4BA6 ++ le 1 1 ++ le 1 b.kind ++ le 2 p ++ le 2 (b2n b.order + 2 * b2n gap) ++ le 4 (b.size - 32) ++
    le 4 b.records ++ le 6 (if b.kind = 1 then b.first.toNat else 0) ++ le 6 (if b.kind = 1 then b.last.toNat else 0)
  h ++ le 4 (crc32c h).toNat

/-- Closes the open mailbag: its header and then its receipt; the buffer goes back with `ONEBAG` or when less than
4,096 bytes are left (R456 to R458). -/
def State.closeBag (s : State) (o : OfficeId) (p : Nat) : State :=
  let x := (s.off o).ph p
  match x.bag, x.held with
  | some b, f :: _ =>
    if s.portReady o = false then s
    else
      let used := roundUp 4096 (b.offset + b.size)
      let back := s.flag o F.PH_CFG_ONEBAG p || decide (f.len < used + 4096)
      let s := s.postWrite o (f.addr + b.offset) (b.header p x.gap)
      let s := s.modPh o p fun x =>
        { x with bag := none, gap := false, held := { f with used := used } :: x.held.drop 1
                 liveRound := if b.kind = 1 ∧ b.order = false then b.last.toNat + 1 else x.liveRound }
      let s := s.writeReceipt o p { kind := 1, last := back, order := b.order, status := 0, dseq := f.seq, cookie := f.cookie,
                                    offset := b.offset, len := b.size, tag := if b.order then b.tag.toNat else 0 }
      let s := (s.countUp o F.PH_CNT_MAILBAG_COUNT p).modOff o fun d => if p = 1 then { d with sentNotices := [] } else d
      if back then s.dropBuffer o p else s
  | _, _ => s

/-- Bytes that a record takes in a mailbag (R454). -/
def PhRecord.size (r : PhRecord) : Nat := roundUp 16 r.bytes.length

/-- Whether a record goes into the open mailbag: kind, source, and room in limit and buffer (R455, R456). -/
def State.joinsBag (s : State) (o : OfficeId) (p : Nat) (b : Mailbag) (f : Buffer) (r : PhRecord) : Bool :=
  decide (b.kind = r.kind) && decide (b.order = r.order) && (!r.order || decide (b.tag = r.tag)) &&
    decide (b.size + r.size ≤ s.bagLimit o p) && decide (b.offset + b.size + r.size ≤ f.len)

/-- Whether a record fits a new mailbag in the rest of a buffer. -/
def fitsRest (f : Buffer) (r : PhRecord) : Bool := decide (f.used + 32 + r.size ≤ f.len)

/-- Whether some held buffer has room for a record (R453). -/
def State.hasRoom (s : State) (o : OfficeId) (p : Nat) (r : PhRecord) : Bool :=
  let x := (s.off o).ph p
  (match x.bag, x.held with
   | some b, f :: _ =>
     s.joinsBag o p b f r ||
       (!s.flag o F.PH_CFG_ONEBAG p && fitsRest { f with used := roundUp 4096 (b.offset + b.size) } r)
   | none, f :: _ => fitsRest f r
   | _, [] => false) || (x.held.drop 1).any fun f => fitsRest f r

/-- Whether a pigeonhole has the room for a record (R453). -/
def State.canHold (s : State) (o : OfficeId) (p : Nat) (r : PhRecord) : Bool :=
  s.portReady o && s.mayDeliver o p && decide (s.phState o p = phReady) && decide (2 ≤ s.receiptRoom o p) && s.hasRoom o p r

/-- Whether a record is held back: live and replay deliveries stop while staging is high (R33, R295). -/
def State.heldBack (s : State) (o : OfficeId) (r : PhRecord) : Bool :=
  decide (r.kind = 1) && (if r.order then (s.off o).sto.replayHeld else s.flag o F.STO_STAT_LIVE_HELD)

/-- Whether a pigeonhole can take a record (R453), deliveries not being held back. -/
def State.canTake (s : State) (o : OfficeId) (p : Nat) (r : PhRecord) : Bool := s.canHold o p r && !s.heldBack o r

/-- Writes a record into the mailbag, which opens with it when none is open. -/
def State.putRecord (s : State) (o : OfficeId) (p : Nat) (f : Buffer) (b : Mailbag) (r : PhRecord) : State :=
  let pad := List.replicate (r.size - r.bytes.length) 0
  let s := s.postWrite o (f.addr + b.offset + b.size) (r.bytes ++ pad)
  s.modPh o p fun x =>
    { x with bag := some { b with
        size := b.size + r.size, records := b.records + 1, first := if b.records = 0 then r.round else b.first,
        last := r.round, lastAt := s.now } }

/-- RECORD_ADD, MAILBAG_CLOSE: adds a record, closing the open mailbag and returning buffers that are too small first
(R454 to R459); the Bool tells that it was added. `fuel` bounds the buffers passed over. -/
def State.addRecord (s : State) (o : OfficeId) (p : Nat) (r : PhRecord) : Nat → State × Bool
  | 0 => (s, false)
  | fuel + 1 =>
    let x := (s.off o).ph p
    if s.portReady o = false ∨ s.mayDeliver o p = false ∨ s.phState o p ≠ phReady ∨ s.receiptRoom o p < 2 then (s, false)
    else
      match x.bag, x.held with
      | some b, f :: _ =>
        if s.joinsBag o p b f r then (s.putRecord o p f b r, true) else (s.closeBag o p).addRecord o p r fuel
      | none, f :: _ =>
        if fitsRest f r then
          (s.putRecord o p f { kind := r.kind, order := r.order, tag := r.tag, offset := f.used, size := 32, records := 0,
                               first := 0, last := 0, lastAt := s.now } r, true)
        else (s.returnBuffer o p 0x10).addRecord o p r fuel
      | _, [] => (s, false)

/-- Counts a record that pigeonhole `p` could not take (R453). -/
def State.missRecord (s : State) (o : OfficeId) (p : Nat) : State :=
  let s := s.modPh o p fun x => { x with gap := true }
  if 2 ≤ p then s.countUp o F.PH_CNT_UNDELIV_COUNT p else s

/-- An item for the dead-letter office: taken at once, or dropped, with notice 0x0809 at most once per second (R453). -/
def State.deadLetter (s : State) (o : OfficeId) (named : Nat) (r : PhRecord) : State :=
  let a := if s.canHold o 0 r then s.addRecord o 0 r 4 else (s, false)
  if a.2 then a.1
  else
    let s := (s.countUp o F.PH_CNT_DLODROP_COUNT).modPh o 0 fun x => { x with gap := true }
    if (s.off o).dloNoticeAt.any fun t => s.now - t < ticksOfUs 1000000 then s
    else (s.modOff o fun d => { d with dloNoticeAt := some s.now }).raise o 0x0809 (le 2 named ++ le 1 r.kind)

/-- The next record of a pigeonhole: replay deliveries wait for all the others (R32). -/
def Ph.next (x : Ph) : Option PhRecord := (x.queue.find? fun r => !r.order).or x.queue.head?

/-- The pigeonhole without its next record. -/
def Ph.dropNext (x : Ph) : Ph :=
  match x.next with
  | some r => { x with queue := x.queue.eraseP fun y => y.order = r.order }
  | none => x

/-- Closes the mailbag at marks whose turn has come; `fuel` bounds them. -/
def State.passMarks (s : State) (o : OfficeId) (p : Nat) : Nat → State
  | 0 => s
  | fuel + 1 =>
    if ((s.off o).ph p).next.any fun r => r.kind = 0 then ((s.modPh o p Ph.dropNext).closeBag o p).passMarks o p fuel else s

/-- Queues a record, or a mark, at a pigeonhole. -/
def State.queueRecord (s : State) (o : OfficeId) (p : Nat) (r : PhRecord) : State :=
  (s.modPh o p fun x => { x with queue := x.queue ++ [{ r with queuedAt := s.now }] }).passMarks o p 4

/-- Queues a mark at which the mailbag closes, where a mailbag is open or records wait. -/
def State.queueMark (s : State) (o : OfficeId) (p : Nat) : State :=
  let x := (s.off o).ph p
  if x.bag.isNone ∧ x.queue = [] then s else s.queueRecord o p { kind := 0, round := 0, bytes := [] }

/-- Whether a notice waits that pigeonhole 1 can take (R32, R463). -/
def State.noticeReady (s : State) (o : OfficeId) : Bool :=
  match (s.off o).held with
  | n :: _ => s.canTake o 1 { kind := 4, round := 0, bytes := n.bytes }
  | [] => false

/-- Whether a record waits that goes before `r` at the port: a live delivery before a replay delivery, and of two of one priority the
older (R32). -/
def State.recordBefore (s : State) (o : OfficeId) (r : PhRecord) : Bool :=
  (s.off o).phs.any fun e => e.2.next.any fun y =>
    ((r.order && !y.order) || (decide (r.order = y.order) && decide (y.queuedAt < r.queuedAt))) && s.canTake o e.1 y

/-- A live record that pigeonhole `p` has not taken in time: counted, noted at most once per second, diverted where the
route says so (R218). While deliveries are held, the cause is 1, whatever the route says (R295). -/
def State.undelivered (s : State) (o : OfficeId) (p : Nat) (x : PhRecord) : State :=
  let s := (if x.parcel then s else s.countUp o F.SORT_RT_CNT_UNDELIV_COUNT).missRecord o p
  let quiet := x.parcel || ((s.off o).ph p).undelivNoticeAt.any fun t => s.now - t < ticksOfUs 1000000
  let cause := if s.flag o F.STO_STAT_LIVE_HELD then 1 else if x.dlo then 2 else 0
  let s := if quiet then s
    else (s.modPh o p fun q => { q with undelivNoticeAt := some s.now }).raise o 0x0330
      (le 2 p ++ le 6 x.round.toNat ++ le 1 x.district.toNat ++ le 1 cause)
  if x.dlo then s.deadLetter o p x else s

/-- Whether a record is a live delivery. -/
def PhRecord.live (x : PhRecord) : Bool := decide (x.kind = 1) && !x.order

/-- Drops the live records of a pigeonhole that `gone` selects (R218, R295). -/
def State.dropLive (s : State) (o : OfficeId) (p : Nat) (gone : PhRecord → Bool) : State :=
  let out := ((s.off o).ph p).queue.filter fun x => x.live && gone x
  if out = [] then s
  else
    let s := s.modPh o p fun q => { q with queue := q.queue.filter fun x => !(x.live && gone x) }
    (out.foldl (fun s x => s.undelivered o p x) s).passMarks o p 64

/-- Drops every live record that waits (R295). -/
def State.dropAllLive (s : State) (o : OfficeId) : State := (s.off o).phs.foldl (fun s e => s.dropLive o e.1 fun _ => true) s

/-- ENVELOPE_UNDELIVERABLE (R218): live envelopes that the pigeonhole has not taken when those of a later round are
ready for it. -/
def execEnvelopeUndeliverable (o : OfficeId) (ph : BitVec 12) (s : State) : Out :=
  .next (
    let p := ph.toNat
    let q := ((s.off o).ph p).queue
    match q.find? PhRecord.live with
    | none => s
    | some r =>
      if s.canTake o p r = false ∧ q.any (fun x => x.live ∧ x.round ≠ r.round) then s.dropLive o p fun x => x.round = r.round
      else s)

/-! ### Descriptors (R447 to R449) -/

/-- DESCRIPTOR_FETCH (R448): the office fetches the next descriptor when it holds fewer than two buffers and one is
posted. -/
def execDescriptorFetch (o : OfficeId) (ph : BitVec 12) (s : State) : Out :=
  .next (
    let p := ph.toNat
    let x := (s.off o).ph p
    let d := s.rd o F.PH_DCONS_INDEX p
    let st := s.phState o p
    if s.portReady o && (st = phStarved || st = phReady) && !x.fetching && !x.disabling && x.held.length < 2 &&
        d ≠ x.dprod.toNat then
      let base := s.rd o F.PH_DR_BASE_LO_BASE_L p + s.rd o F.PH_DR_BASE_HI_BASE_H p * 2 ^ 32
      (s.modPh o p fun x => { x with fetching := true }).postRead o (base + 32 * (d % 2 ^ s.rd o F.PH_CFG_DR_LOG2 p)) 32
    else s)

/-- The cause for which a fetched descriptor is rejected, if it is (R448). -/
def descriptorFault (c : Completion) (d : Nat) (index : Nat) : Option Nat :=
  let addr := bitsOf d 0 64
  let len := bitsOf d 64 32
  if c ≠ .ok then some 7
  else if len = 0 then some 1
  else if 268435456 < len then some 2
  else if len % 4096 ≠ 0 then some 3
  else if addr % 4096 ≠ 0 ∨ 2 ^ 64 < addr + len then some 4
  else if bitsOf d 96 16 ≠ index % 65536 then some 5
  else if bitsOf d 112 16 ≠ 0 ∨ bitsOf d 192 64 ≠ 0 then some 6
  else none

/-- DESCRIPTOR_FETCH_COMPLETE (R448, R450): a good descriptor is a held buffer, a bad one stalls the pigeonhole. -/
def execDescriptorFetchComplete (o : OfficeId) (ph : BitVec 12) (c : Completion) (desc : BitVec 256) (s : State) : Out :=
  .next (
    let p := ph.toNat
    if ((s.off o).ph p).fetching = false then s
    else
      let s := s.modPh o p fun x => { x with fetching := false }
      let d := s.rd o F.PH_DCONS_INDEX p
      match descriptorFault c desc.toNat d with
      | none =>
        let b : Buffer := { addr := bitsOf desc.toNat 0 64, len := bitsOf desc.toNat 64 32, seq := bitsOf desc.toNat 96 16,
                            cookie := bitsOf desc.toNat 128 64 }
        ((s.modPh o p fun x => { x with held := x.held ++ [b] }).wr o F.PH_DCONS_INDEX (d + 1) p).setPhState o p phReady
      | some cause =>
        let s := s.writeReceipt o p { kind := 3, last := true, order := false, status := cause, dseq := bitsOf desc.toNat 96 16,
                                      cookie := bitsOf desc.toNat 128 64, offset := 0, len := 0, tag := 0 }
        s.stall o p cause)

/-! ### Enable and disable (R445, R451, R452) -/

/-- The cause for which an enable is refused, if it is (R451). -/
def State.enableFault (s : State) (o : OfficeId) (p : Nat) : Option Nat :=
  let dr := s.rd o F.PH_DR_BASE_LO_BASE_L p + s.rd o F.PH_DR_BASE_HI_BASE_H p * 2 ^ 32
  let rr := s.rd o F.PH_RR_BASE_LO_BASE_L p + s.rd o F.PH_RR_BASE_HI_BASE_H p * 2 ^ 32
  let dl := s.rd o F.PH_CFG_DR_LOG2 p
  let rl := s.rd o F.PH_CFG_RR_LOG2 p
  if dr % 4096 ≠ 0 ∨ rr % 4096 ≠ 0 then some 1
  else if dl < 4 ∨ 16 < dl ∨ rl < 4 ∨ 16 < rl then some 2
  else if 2 ^ 64 < dr + 32 * 2 ^ dl ∨ 2 ^ 64 < rr + 32 * 2 ^ rl then some 3
  else none

/-- Enables a pigeonhole (R445, R450). -/
def State.enablePh (s : State) (o : OfficeId) (p : Nat) : State :=
  let s := ((s.wr o F.PH_DCONS_INDEX 0 p).wr o F.PH_RPROD_INDEX 0 p).setPhState o p phStarved
  let s := (s.wr o F.DB_DPROD_DPROD 0 p).wr o F.DB_RCONS_RCONS 0 p
  s.modPh o p fun x => { x with held := [], fetching := false, dprod := 0, rcons := 0, bag := none, unsig := 0, gap := false,
                                disabling := false }

/-- Runs a disable as far as the receipt ring lets it (R452); `fuel` bounds the receipts. -/
def State.runDisable (s : State) (o : OfficeId) (p : Nat) : Nat → State
  | 0 => s
  | fuel + 1 =>
    let x := (s.off o).ph p
    if x.disabling = false then s
    else if x.bag.isNone ∧ x.held = [] then
      (s.modPh o p fun x => { x with disabling := false, fetching := false }).setPhState o p phDisabled
    else if s.receiptRoom o p = 0 ∨ s.portReady o = false then s
    else if x.bag.isSome then (s.closeBag o p).runDisable o p fuel
    else (s.returnBuffer o p 0x11).runDisable o p fuel

/-- PIGEONHOLE_ENABLE (R451): a write of `PH_CFG` with `EN` = 1. -/
def execPigeonholeEnable (o : OfficeId) (ph : BitVec 12) (v : W32) (s : State) : Out :=
  .next (
    let p := ph.toNat
    let addr := F.PH_CFG_EN.addr p 0
    if s.takesWrites o = false then s
    else if s.rd o F.PH_CFG_EN p = 1 ∨ s.phState o p ≠ phDisabled then s.journal o addr v.toNat true
    else
      let s := (s.hostWrite o addr v.toNat).1
      if bitsOf v.toNat 31 1 = 0 then s
      else
        match s.enableFault o p with
        | some c => (s.wr o F.PH_CFG_EN 0 p).raise o 0x0805 (le 2 p ++ le 1 c)
        | none => s.enablePh o p)

/-- PIGEONHOLE_DISABLE (R451, R452): a write of `PH_CFG` with `EN` = 0; its other fields are ignored while the pigeonhole
is enabled. -/
def execPigeonholeDisable (o : OfficeId) (ph : BitVec 12) (v : W32) (s : State) : Out :=
  .next (
    let p := ph.toNat
    let addr := F.PH_CFG_EN.addr p 0
    if s.takesWrites o = false then s
    else if s.phState o p = phDisabled then (s.hostWrite o addr v.toNat).1
    else
      let s := (s.journal o addr v.toNat true).wr o F.PH_CFG_EN 0 p
      (s.modPh o p fun x => { x with disabling := true }).runDisable o p 4)

/-! ### Doorbells (R446, R449, R456, R464) -/

/-- Applies a producer index (R446). -/
def State.applyDprod (s : State) (o : OfficeId) (p : Nat) : State :=
  let v := BitVec.ofNat 32 (s.rd o F.DB_DPROD_DPROD p)
  if (v - BitVec.ofNat 32 (s.rd o F.PH_DCONS_INDEX p)).toNat ≤ 2 ^ s.rd o F.PH_CFG_DR_LOG2 p then
    s.modPh o p fun x => { x with dprod := v }
  else s.stall o p 8

/-- Applies a consumer index (R446); a disable that waited for slots goes on (R452). -/
def State.applyRcons (s : State) (o : OfficeId) (p : Nat) : State :=
  let v := BitVec.ofNat 32 (s.rd o F.DB_RCONS_RCONS p)
  if later v (BitVec.ofNat 32 (s.rd o F.PH_RPROD_INDEX p)) then s.stall o p 9
  else (s.modPh o p fun x => { x with rcons := v }).runDisable o p 4

/-- Whether a doorbell of a pigeonhole is heard (R434, R464, R667). -/
def State.doorbell (s : State) (o : OfficeId) (p : Nat) : Bool := s.takesWrites o && decide (s.phState o p ≠ phDisabled)

/-- DPROD (R446): in STALLED, the value waits for `RESUME` where its indices cannot be trusted. -/
def execDprod (o : OfficeId) (ph : BitVec 12) (v : W32) (s : State) : Out :=
  .next (
    let p := ph.toNat
    if s.doorbell o p = false then s
    else
      let c := s.rd o F.PH_STAT_CAUSE p
      let s := s.wr o F.DB_DPROD_DPROD v.toNat p
      if s.phState o p = phStalled ∧ (c = 8 ∨ c = 9) then s else s.applyDprod o p)

/-- RCONS (R446). -/
def execRcons (o : OfficeId) (ph : BitVec 12) (v : W32) (s : State) : Out :=
  .next (
    let p := ph.toNat
    if s.doorbell o p = false then s
    else
      let c := s.rd o F.PH_STAT_CAUSE p
      let s := s.wr o F.DB_RCONS_RCONS v.toNat p
      if s.phState o p = phStalled ∧ (c = 8 ∨ c = 9) then s else s.applyRcons o p)

/-- Resumes a stalled pigeonhole (R449). -/
def State.resumePh (s : State) (o : OfficeId) (p : Nat) : State :=
  if s.phState o p ≠ phStalled then s
  else
    let c := s.rd o F.PH_STAT_CAUSE p
    let s := s.setPhState o p (if ((s.off o).ph p).held = [] then phStarved else phReady)
    if c = 8 ∨ c = 9 then
      let s := s.applyDprod o p
      if s.phState o p = phStalled then s else s.applyRcons o p
    else s

/-- A write of `DB_CMD` (R464): `RESUME`, then `FLUSH`. -/
def State.doorbellCmd (s : State) (o : OfficeId) (p v : Nat) : State :=
  if s.doorbell o p = false then s
  else
    let s := if bitsOf v 0 1 = 1 then s.resumePh o p else s
    if bitsOf v 1 1 = 1 ∧ 1 ≤ s.receiptRoom o p then s.closeBag o p else s

/-- RESUME (R449): a write of `DB_CMD`. -/
def execResume (o : OfficeId) (ph : BitVec 12) (v : W32) (s : State) : Out := .next (s.doorbellCmd o ph.toNat v.toNat)

/-- FLUSH (R456): a write of `DB_CMD`. -/
def execFlush (o : OfficeId) (ph : BitVec 12) (v : W32) (s : State) : Out := .next (s.doorbellCmd o ph.toNat v.toNat)

/-- MAILBAG_IDLE_CLOSE (R456): no record added for `IDLE_US`. -/
def execMailbagIdleClose (o : OfficeId) (ph : BitVec 12) (s : State) : Out :=
  .next (
    let p := ph.toNat
    let us := s.rd o F.PH_TMO_IDLE_US p
    match ((s.off o).ph p).bag with
    | some b => if us ≠ 0 ∧ b.lastAt + ticksOfUs us ≤ s.now then s.closeBag o p else s
    | none => s)

/-- IRQ_COALESCE_TIMEOUT (R462): `COAL_US` after the first unsignalled receipt. -/
def execIrqCoalesceTimeout (o : OfficeId) (ph : BitVec 12) (s : State) : Out :=
  .next (
    let p := ph.toNat
    let x := (s.off o).ph p
    let us := s.rd o F.PH_IRQ_COAL_US p
    if x.unsig ≠ 0 ∧ us ≠ 0 ∧ x.unsigAt + ticksOfUs us ≤ s.now then s.signalPh o p else s)

/-- MSIX_UNMASK (R462): the host clears a vector's mask bit; one message follows where one is pending. -/
def execMsixUnmask (o : OfficeId) (vector : BitVec 11) (s : State) : Out :=
  .next (
    if s.takesWrites o = false then s
    else
      let v := vector.toNat
      let s := s.wr o F.MSIX_VCTRL_MASK 0 v
      let w := s.rd o F.MSIX_PBA_P (v / 32)
      if bitsOf w (v % 32) 1 = 1 ∧ (s.off o).msixOn then
        (s.wr o F.MSIX_PBA_P (setBits w (v % 32) 1 0) (v / 32)).signal o v
      else s)

/-- NOTICE_DELIVER (R453, R463): the oldest buffered notice goes to pigeonhole 1 when it can take it; when space has
returned after losses, notice 0x0806 is raised. -/
def execNoticeDeliver (o : OfficeId) (s : State) : Out :=
  .next (
    match (s.off o).held with
    | [] => s
    | n :: ns =>
      let r : PhRecord := { kind := 4, round := 0, bytes := n.bytes }
      if s.canTake o 1 r = false then s
      else
        let a := s.addRecord o 1 r 4
        if a.2 = false then a.1
        else
          let s := (a.1.modOff o fun d => { d with held := ns, sentNotices := d.sentNotices ++ [n] }).wr o F.PH_NOTICE_STAT_HELD ns.length
          let lost := (s.off o).noticesLost
          if lost = 0 then s
          else (s.modOff o fun d => { d with noticesLost := 0 }).raiseOne o 0x0806 (le 4 lost))

/-- SNAPSHOT_RECORD_EXPIRY (R453): a snapshot record that no pigeonhole took within 1 ms of its stamp moment is dropped
and counted. -/
def execSnapshotRecordExpiry (o : OfficeId) (s : State) : Out :=
  .next (
    (s.off o).phs.foldl (fun s e =>
      let old := e.2.queue.filter fun r => r.kind = 3 ∧ r.at_ + ticksOfUs 1000 ≤ s.now
      if old = [] then s
      else
        let s := s.modPh o e.1 fun x => { x with queue := x.queue.filter fun r => !(r.kind = 3 ∧ r.at_ + ticksOfUs 1000 ≤ s.now) }
        old.foldl (fun s _ => (s.modPh o e.1 fun x => { x with gap := true }).countUp o F.PH_CNT_UNDELIV_COUNT e.1) s) s)

/-- PH_CNT_CLR (R468). -/
def execPhCntClr (o : OfficeId) (ph : BitVec 12) (v : W32) (s : State) : Out :=
  .next (s.clearWrite o (F.PH_CNT_CLR_MAILBAG.addr ph.toNat 0) v.toNat ph.toNat
    [F.PH_CNT_MAILBAG_COUNT, F.PH_CNT_UNDELIV_COUNT, F.PH_CNT_RETURNED_COUNT])

/-- PH_GCNT_CLR (R470). -/
def execPhGcntClr (o : OfficeId) (v : W32) (s : State) : Out :=
  .next (s.clearWrite o F.PH_GCNT_CLR_MMIOERR.off v.toNat 0
    [F.PH_CNT_NOTICELOST_COUNT, F.PH_CNT_DLODROP_COUNT, F.PH_CNT_LINKDOWN_COUNT, F.PH_CNT_MMIOERR_COUNT])

/-- Closes the open mailbags of an office that a test selects (R456). -/
def State.closeBags (s : State) (o : OfficeId) (sel : State → Nat → Mailbag → Bool) : State :=
  (s.off o).phs.foldl (fun s e =>
    match ((s.off o).ph e.1).bag with
    | some b => if sel s e.1 b && decide (1 ≤ s.receiptRoom o e.1) then s.closeBag o e.1 else s
    | none => s) s

/-- The mailbags that a round boundary of the time base closes: kinds other than data with `CLOSE` ROUND, or SLICE after
the last round of a slice (R456). -/
def State.boundaryCloses (s : State) (o : OfficeId) (r : Nat) : State :=
  let sh := s.rd o F.SORT_RT_CTL_SLICE_SHIFT
  s.closeBags o fun s p b =>
    decide (b.kind ≠ 1) && (decide (s.rd o F.PH_CFG_CLOSE p = 0) ||
      (decide (s.rd o F.PH_CFG_CLOSE p = 1) && decide ((r + 1) % 2 ^ sh = 0)))

/-- Pigeonhole registers and doorbells back at reset, every pigeonhole DISABLED without receipts (R436); notices whose
receipt had not been written wait again (R715). -/
def State.resetPhs (s : State) (o : OfficeId) : State :=
  let keep := fun (k : Nat) => decide (k < 0x0700000 * 32) || (decide (0x0740010 * 32 ≤ k) && decide (k < 0x0740020 * 32)) ||
    (decide (0x0740004 * 32 ≤ k) && decide (k < 0x074000C * 32)) ||
    (decide (0x0740068 * 32 ≤ k) && decide (k < 0x4000000 * 32))
  let s := s.modOff o fun d =>
    { d with
      regs := d.regs.filter fun e => keep e.1
      held := d.sentNotices ++ d.held, sentNotices := []
      phs := (d.phs.map fun e => (e.1, ({ queue := e.2.queue, undelivNoticeAt := e.2.undelivNoticeAt } : Ph))).filter
        fun e => e.2 ≠ {} }
  s.wr o F.PH_NOTICE_STAT_HELD (min 1024 (s.off o).held.length)

end Sys2Proof.Machine
end

