-- ==== Sys2Proof/Machine/Flags.lean ====
section
/-! DEFINITION. Flag words that the office computes: the `STATUS` of an envelope (05 R187) and the quality word of a
postmark (09 R376). -/

namespace Sys2Proof.Machine

/-- What an envelope's `STATUS` says of its district round (R187). -/
structure LossFlags where
  noClose : Bool := false
  overflow : Bool := false
  eccLoss : Bool := false
  lostFrames : Bool := false
  resDrop : Bool := false
  ctxLoss : Bool := false
  calRound : Bool := false
  corrupt : Bool := false
  deriving DecidableEq, Repr

/-- The loss bits 0 to 5 and 8 (R187, R188). -/
def LossFlags.lossBits (f : LossFlags) : Nat :=
  b2n f.noClose + 2 * b2n f.overflow + 4 * b2n f.eccLoss + 8 * b2n f.lostFrames + 16 * b2n f.resDrop +
    32 * b2n f.ctxLoss + 256 * b2n f.corrupt

/-- `STATUS` of an envelope: the loss bits only in the last one of the district round; bit 7 by its own letters; bit 6
in every one (R187, R188). -/
def LossFlags.status (f : LossFlags) (last hasLate : Bool) : Nat :=
  (if last then f.lossBits else 0) + 64 * b2n f.calRound + 128 * b2n hasLate

/-- The least `n` with `v ≤ 2 ^ (n / 8)`, for `v` at least 1: ceil(8 × log2 v), found by comparing eighth powers. -/
def ceilLog8 (v : Nat) : Nat :=
  (List.range 256).find? (fun n => v ^ 8 ≤ 2 ^ n) |>.getD 255

/-- `ERR` of a bound in picoseconds (R376). -/
def errOf (ps : Nat) : Nat := min 255 (ceilLog8 (max ps 1))

/-- The bound in picoseconds that an `ERR` stands for: the greatest with that code. -/
def boundOf (err : Nat) : Nat := Nat.sqrt (Nat.sqrt (Nat.sqrt (2 ^ err)))

/-- A quality word (R376). -/
def qualityWord (state : Nat) (tod leapAdd leapSub rhold : Bool) (err : Nat) : W16 :=
  BitVec.ofNat 16 (state % 8 * 8192 + 4096 * b2n tod + 2048 * b2n leapAdd + 1024 * b2n leapSub + 512 * b2n rhold +
    err % 256)

end Sys2Proof.Machine
end

