-- ==== Sys2Proof/Machine/Envelopes.lean ====
section
/-! DEFINITION. Envelopes as bytes (05 R186, R189 to R192) and the parcel record (08 R349). -/

namespace Sys2Proof.Machine

/-- The coding of a record (R186). -/
inductive Coding | plain | compressed | timed
  deriving DecidableEq, Repr

/-- The code of a coding. -/
def Coding.code : Coding → Nat
  | .plain => 0
  | .compressed => 1
  | .timed => 2

/-- The 64-byte header of an envelope over a body (R186, R191). -/
def Envelope.header (e : Envelope) (module : Nat) (c : Coding) (body : List Byte) : List Byte :=
  let h := le 2 0xE5A7 ++ le 1 1 ++ le 1 (c.code + 4 * b2n e.more) ++ le 1 module ++ le 1 e.district.toNat ++ le 1 e.part ++
    le 1 e.sub ++ le 6 e.round.toNat ++ le 1 e.rshift ++ le 1 0 ++ le 2 e.letters.length ++ le 2 e.status.toNat ++
    le 2 (min e.lateIn 0xFFFF) ++ le 2 0 ++ le 4 (min e.dropped 0xFFFFFFFF) ++ le 4 e.calEpoch.toNat ++
    e.postmark.bytes ++ le 4 e.inc.toNat ++ le 4 body.length ++ le 4 (crc32c body).toNat
  h ++ le 4 (crc32c h).toNat

/-- A plain body: letters of 10 bytes (R186). -/
def Envelope.plainBody (e : Envelope) : List Byte := (e.letters.map fun l => le 10 l.word.toNat).flatten

/-- A timed body: timed letters of 16 bytes (R192). -/
def Envelope.timedBody (e : Envelope) : List Byte :=
  (e.letters.map fun l => le 10 l.word.toNat ++ le 4 (ofInt 32 l.t) ++ le 2 l.q).flatten

/-- A whole record. -/
def Envelope.record (e : Envelope) (module : Nat) (c : Coding) (body : List Byte) : List Byte :=
  e.header module c body ++ body

/-- The plain body of a parcel (R349). -/
def Parcel.plainBody (p : Parcel) : List Byte := (p.samples.map fun w => le 2 w.toNat).flatten

/-- The 64-byte header of a parcel over a body (R349). -/
def Parcel.header (p : Parcel) (module : Nat) (compressed : Bool) (body : List Byte) : List Byte :=
  let form := b2n compressed + 4 * b2n p.summary + 8 * b2n p.trunc + 16 * b2n p.extended + 32 * b2n p.lost
  let h := le 2 0x9A5C ++ le 1 1 ++ le 1 form ++ le 1 module ++ le 1 p.tile.val ++ le 1 p.prog ++ le 1 p.branch.toNat ++
    le 8 p.fireTick.toNat ++ p.postmark.bytes ++ le 4 p.samples.length ++ le 2 p.pre ++ le 2 p.preReq ++
    le 2 p.cause.toNat ++ le 1 p.block ++ le 1 p.profile ++ le 2 p.pcnum.toNat ++ le 2 p.ext ++ le 4 body.length ++
    le 4 0 ++ le 4 (crc32c body).toNat
  h ++ le 4 (crc32c h).toNat

/-- A whole record of compression: header and body, plain or compressed. -/
def CmpBody.record (b : CmpBody) (module : Nat) (compressed : Bool) (body : List Byte) : List Byte :=
  match b with
  | .env e => e.record module (if compressed then .compressed else .plain) body
  | .par p => p.header module compressed body ++ body

/-- The plain record of an item (R235, R263). -/
def CmpBody.plainRecord (b : CmpBody) (module : Nat) : List Byte :=
  match b with
  | .env e => b.record module false e.plainBody
  | .par p => b.record module false p.plainBody

/-- Bytes of the plain record (R276). -/
def CmpBody.plainSize : CmpBody → Nat
  | .env e => 64 + 10 * e.letters.length
  | .par p => 64 + 2 * p.samples.length

/-- Cuts a list of letters into parts of at most `n`; `fuel` bounds the parts (R189). -/
def cutParts {α : Type} (n : Nat) : Nat → List α → List (List α)
  | 0, _ => []
  | fuel + 1, l => if l.length ≤ n then [l] else l.take n :: cutParts n fuel (l.drop n)

end Sys2Proof.Machine
end

