-- ==== Sys2Proof/Machine/Coder.lean ====
section
/-! DEFINITION. The coding of envelope and parcel bodies: tables, symbols, letters, samples, and decoding
(06 R240 to R252). -/

namespace Sys2Proof.Machine

/-! ### Tables (R241, R242) -/

/-- First symbol and number of symbols of the alphabets A to F (R241). -/
def alphabet : Fin 6 → Nat × Nat
  | 0 => (0, 13)
  | 1 => (13, 26)
  | 2 => (39, 19)
  | 3 => (58, 14)
  | 4 => (72, 3)
  | 5 => (75, 14)

/-- The lengths of one alphabet of a table set. -/
def lengthsOf (table : List Nat) (a : Fin 6) : List Nat := (table.drop (alphabet a).1).take (alphabet a).2

/-- Whether an alphabet's lengths are valid: each 1 to 15, with the sum of 2^-length at most 1 (R242). -/
def validAlphabet (ls : List Nat) : Bool :=
  ls.all (fun l => decide (1 ≤ l) && decide (l ≤ 15)) && decide ((ls.map fun l => 2 ^ (15 - l)).sum ≤ 2 ^ 15)

/-- Whether a table set is valid (R242). -/
def validTable (table : List Nat) : Bool :=
  decide (table.length = 89) && (List.range 6).all fun a => validAlphabet (lengthsOf table (Fin.ofNat 6 a))

/-- The 89 lengths held in 48 bytes, low nibble first (R241). -/
def tableOfBytes (bs : List Byte) : List Nat :=
  (List.range 89).map fun j => let b := (bs.getD (j / 2) 0).toNat; if j % 2 = 0 then b % 16 else b / 16

/-- The 48 bytes of a table set (R241). -/
def tableBytes (table : List Nat) : List Byte :=
  (List.range 48).map fun k =>
    if k < 45 then BitVec.ofNat 8 (table.getD (2 * k) 0 % 16 + table.getD (2 * k + 1) 0 % 16 * 16) else 0

/-- The first code of each length (R242). -/
def firstCode (ls : List Nat) : Nat → Nat
  | 0 => 0
  | 1 => 0
  | n + 2 => (firstCode ls (n + 1) + ls.count (n + 1)) * 2

/-- The canonical code of a symbol (R242). -/
def codeOf (ls : List Nat) (sym : Nat) : Nat :=
  firstCode ls (ls.getD sym 0) + (ls.take sym).count (ls.getD sym 0)

/-! ### Bits (R243, R244) -/

/-- `n` bits of `v`, least significant first. -/
def lsbBits : Nat → Nat → List Bool
  | 0, _ => []
  | n + 1, v => (v % 2 == 1) :: lsbBits n (v / 2)

/-- `n` bits of `v`, most significant first. -/
def msbBits (n v : Nat) : List Bool := (lsbBits n v).reverse

/-- The value of bits given least significant first. -/
def bitsVal : List Bool → Nat
  | [] => 0
  | b :: bs => b2n b + 2 * bitsVal bs

/-- Packs bits into bytes, least significant bit first (R243); `fuel` bounds the bytes. -/
def packBits : Nat → List Bool → List Byte
  | 0, _ => []
  | _, [] => []
  | fuel + 1, bs => BitVec.ofNat 8 (bitsVal (bs.take 8)) :: packBits fuel (bs.drop 8)

/-- The bits of bytes. -/
def unpackBits (bs : List Byte) : List Bool := (bs.map fun b => lsbBits 8 b.toNat).flatten

/-- A signed residual as an unsigned value (R244). -/
def zig (r : Int) : Nat := if 0 ≤ r then (2 * r).toNat else (-2 * r - 1).toNat

/-- The residual of an unsigned value. -/
def zag (v : Nat) : Int := if v % 2 = 0 then (v / 2 : Nat) else -((v / 2 : Nat) : Int) - 1

/-- The bucket of a value (R244). -/
def bucket (v : Nat) : Nat := if v = 0 then 0 else Nat.log2 v + 1

/-- One item of a coded stream: a symbol of an alphabet, or `n` raw bits of a value. -/
inductive Token
  | sym (a : Fin 6) (k : Nat)
  | raw (n v : Nat)
  deriving DecidableEq, Repr

/-- A value with its bucket's extra bits (R244). -/
def valueTokens (a : Fin 6) (v : Nat) : List Token :=
  let k := bucket v
  if 2 ≤ k then [.sym a k, .raw (k - 1) (v - 2 ^ (k - 1))] else [.sym a k]

/-- The bits of a token under a table. -/
def Token.bits (table : List Nat) : Token → List Bool
  | .sym a k => let ls := lengthsOf table a; msbBits (ls.getD k 0) (codeOf ls k)
  | .raw n v => lsbBits n v

/-! ### Histories and symbol counts (R233, R234, R251) -/

/-- The history a key envelope starts from (R234). -/
def History.key (h : History) : History := { keypend := h.keypend }

/-- `MT16[k]`; every entry starts at 65,536 (R234). -/
def History.mtAt (h : History) (k : Nat) : Nat := Sparse.get 65536 h.mt k

/-- One symbol counted; an alphabet in which a count reaches 32,768 is halved, rounding up (R251). -/
def countSymbol (c : Sparse Nat) (a : Fin 6) (k : Nat) : Sparse Nat :=
  let j := (alphabet a).1 + k
  let c := Sparse.update 0 c j (· + 1)
  if 32768 ≤ Sparse.get 0 c j then
    (List.range (alphabet a).2).foldl (fun c i => Sparse.update 0 c ((alphabet a).1 + i) fun v => (v + 1) / 2) c
  else c

/-- The symbols of a stream of tokens counted (R251). -/
def countTokens (c : Sparse Nat) (ts : List Token) : Sparse Nat :=
  ts.foldl (fun c t => match t with
    | .sym a k => countSymbol c a k
    | .raw _ _ => c) c

/-- A table built from counts: any table that R242 allows (R251, log entry 6). -/
def builtTable (counts : Sparse Nat) : List Nat :=
  let t := Config.codeLengths ((List.range 89).map fun j => Sparse.get 0 counts j)
  if validTable t then t else List.replicate 89 5

/-! ### Letters (R245 to R247) -/

/-- What coding a letter needs of the envelope so far: the history's means, the previous cell and flag byte, and the
times of the coded cells, plus one (R245). -/
structure CodeState where
  h : History
  x : Nat := 0
  f : Nat := 0
  times : Sparse Nat := []

/-- The neighbours whose time may predict a cell's: itself, W, N, NW, NE (R246). -/
def neighbours (x : Nat) : List Nat :=
  let r := x / 64
  let c := x % 64
  [x] ++ (if 0 < c then [x - 1] else []) ++ (if 0 < r then [x - 64] else []) ++
    (if 0 < r ∧ 0 < c then [x - 65] else []) ++ (if 0 < r ∧ c < 63 then [x - 63] else [])

/-- The prediction of a cell's time: the first coded neighbour (R246). -/
def CodeState.predicted (c : CodeState) (x : Nat) : Option Nat :=
  (neighbours x).findSome? fun y => match Sparse.get 0 c.times y with
    | 0 => none
    | t + 1 => some t

/-- A running mean moves by a sixteenth of the difference, shifted arithmetically (R246, R249). -/
def meanStep (m v : Nat) : Nat := ((m : Int) + ((16 * v : Int) - m) / 16).toNat

/-- The means after a letter (R246). -/
def History.learn (h : History) (amp gain tot flags : Nat) : History :=
  let h := if amp = 0 then h
    else if gain = 0 then { h with ma0 := meanStep h.ma0 amp } else { h with ma1 := meanStep h.ma1 amp }
  let k := 32 * gain + amp / 128
  if flags / flagZeroTot % 2 = 1 ∨ flags / flagOrder % 2 = 1 ∨ tot = 0x1FFFF then h
  else { h with mt := Sparse.set 65536 h.mt k (meanStep (h.mtAt k) tot) }

/-- The time of a letter within its envelope (R245). -/
def codedTime (rs : Nat) (w : BitVec 80) : Nat := letterCoarse w % 2 ^ min rs 16 * 128 + letterFine w

/-- Predictions of amplitude and ToT (R246). -/
def History.ampPred (h : History) (gain : Nat) : Nat := ((if gain = 0 then h.ma0 else h.ma1) + 8) / 16
def History.totPred (h : History) (gain amp : Nat) : Nat := (h.mtAt (32 * gain + amp / 128) + 8) / 16

/-- The flag byte's tokens (R246). -/
def flagTokens (n f prev : Nat) : List Token :=
  if f = 0 then [.sym 4 0] else if f = prev then [.sym 4 1] else [.sym 4 2, .raw n f]

/-- The tokens of one letter and the state after it (R246). -/
def letterTokens (rs : Nat) (c : CodeState) (w : BitVec 80) : List Token × CodeState :=
  let b := min rs 16 + 7
  let x := letterChannel w % 4096
  let f := letterGain w + 2 * letterFlags w
  let t := codedTime rs w
  let time := match c.predicted x with
    | none => [Token.raw b t]
    | some p =>
      let v := zig ((t : Int) - p)
      if b ≤ bucket v then [.sym 1 25, .raw b t] else valueTokens 1 v
  let g := letterGain w
  let amp := letterAmp w
  let tot := letterTot w
  let ampT := valueTokens 3 (zig ((amp : Int) - c.h.ampPred g))
  let totT := if letterHas w flagZeroTot || letterHas w flagOrder then []
    else valueTokens 2 (zig ((tot : Int) - c.h.totPred g amp))
  (valueTokens 0 (x - c.x) ++ flagTokens 8 f c.f ++ time ++ ampT ++ totT,
   { h := c.h.learn amp g tot (letterFlags w), x := x, f := f, times := Sparse.set 0 c.times x (t + 1) })

/-- The tokens of an envelope's letters and the history after them. -/
def envelopeTokens (rs : Nat) (h : History) (ls : List (BitVec 80)) : List Token × History :=
  let r := ls.foldl (fun (acc : List (List Token) × CodeState) w =>
    let q := letterTokens rs acc.2 w
    (q.1 :: acc.1, q.2)) ([], { h := h })
  (r.1.reverse.flatten, r.2.h)

/-! ### Parcel samples (R249) -/

/-- The prediction of sample `n` from the two before it. -/
def samplePred (h : History) (n s1 s2 : Nat) : Nat :=
  if n = 0 then (h.mb + 8) / 16 else if n = 1 then s1 else (clampI 0 4095 (2 * (s1 : Int) - s2)).toNat

/-- The tokens of a parcel's sample words from number `n` on, and the history after them (R249). -/
def sampleTokens (h : History) : Nat → Nat → Nat → Nat → List W16 → List Token × History
  | _, _, _, _, [] => ([], h)
  | n, s1, s2, hp, w :: ws =>
    let s := w.toNat % 4096
    let f := w.toNat / 4096
    let ts := flagTokens 4 f hp ++ valueTokens 5 (zig ((s : Int) - samplePred h n s1 s2))
    let h' := if n = 0 then { h with mb := meanStep h.mb s } else h
    let r := sampleTokens h' (n + 1) s s1 f ws
    (ts ++ r.1, r.2)

/-! ### Bodies (R240) -/

/-- How a body names its table: a static set, an inline table, or the stream's current table (R240). -/
inductive TableMode
  | static (idx : Nat)
  | inline
  | current
  deriving DecidableEq, Repr

/-- The bytes of a compressed body (R240, R243). -/
def bodyBytes (key : Bool) (m : TableMode) (table : List Nat) (ts : List Token) : List Byte :=
  let bits := (ts.map (Token.bits table)).flatten
  let mode := match m with
    | .static _ => 0
    | .inline => 1
    | .current => 2
  let idx := match m with
    | .static i => i
    | _ => 0
  le 1 (mode + 4 * b2n key) ++ le 1 idx ++ le 2 0 ++ le 4 bits.length ++ (if m = .inline then tableBytes table else []) ++
    packBits (bits.length / 8 + 1) bits

/-! ### Decoding (R246 to R248) -/

/-- Reads `n` raw bits, least significant first. -/
def takeRaw (n : Nat) (bs : List Bool) : Option (Nat × List Bool) :=
  if bs.length < n then none else some (bitsVal (bs.take n), bs.drop n)

/-- The symbol of an alphabet with a code of a length. -/
def symbolFor (ls : List Nat) (len code : Nat) : Option Nat :=
  (List.range ls.length).find? fun k => ls.getD k 0 = len && codeOf ls k = code

/-- Reads one prefix code, most significant bit first, from length `len` on; `fuel` bounds the lengths left. -/
def takeSymbol (ls : List Nat) : Nat → Nat → Nat → List Bool → Option (Nat × List Bool)
  | 0, _, _, _ => none
  | _, _, _, [] => none
  | fuel + 1, len, code, b :: bs =>
    match symbolFor ls (len + 1) (code * 2 + b2n b) with
    | some k => some (k, bs)
    | none => takeSymbol ls fuel (len + 1) (code * 2 + b2n b) bs

/-- Reads a symbol of an alphabet. -/
def takeSym (table : List Nat) (a : Fin 6) (bs : List Bool) : Option (Nat × List Bool) :=
  takeSymbol (lengthsOf table a) 15 0 0 bs

/-- The value of a bucket with its extra bits (R244). -/
def takeValue (k : Nat) (bs : List Bool) : Option (Nat × List Bool) :=
  if k ≤ 1 then some (k, bs) else (takeRaw (k - 1) bs).map fun r => (2 ^ (k - 1) + r.1, r.2)

/-- Reads a signed value of an alphabet. -/
def takeSigned (table : List Nat) (a : Fin 6) (bs : List Bool) : Option (Int × List Bool) :=
  (takeSym table a bs).bind fun r => (takeValue r.1 r.2).map fun q => (zag q.1, q.2)

/-- Reads a flag byte of `n` bits (R246, R249). -/
def takeFlags (table : List Nat) (n prev : Nat) (bs : List Bool) : Option (Nat × List Bool) :=
  (takeSym table 4 bs).bind fun r =>
    if r.1 = 0 then some (0, r.2) else if r.1 = 1 then some (prev, r.2) else takeRaw n r.2

/-- The coded time of the next letter (R246). -/
def takeTime (table : List Nat) (b : Nat) (p : Option Nat) (bs : List Bool) : Option (Int × List Bool) :=
  match p with
  | none => (takeRaw b bs).map fun r => ((r.1 : Int), r.2)
  | some p =>
    (takeSym table 1 bs).bind fun r =>
      if r.1 = 25 then (takeRaw b r.2).map fun q => ((q.1 : Int), q.2)
      else (takeValue r.1 r.2).map fun q => ((p : Int) + zag q.1, q.2)

/-- Decodes one letter of district `db` and round `r` (R246 to R248). -/
def takeLetter (table : List Nat) (rs r db : Nat) (c : CodeState) (bs : List Bool) :
    Option (BitVec 80 × CodeState × List Bool) :=
  let b := min rs 16 + 7
  (takeSym table 0 bs).bind fun q => (takeValue q.1 q.2).bind fun q =>
  let x := c.x + q.1
  if 4096 ≤ x then none else
  (takeFlags table 8 c.f q.2).bind fun q =>
  let f := q.1
  (takeTime table b (c.predicted x) q.2).bind fun q =>
  if q.1 < 0 ∨ (2 ^ b : Int) ≤ q.1 then none else
  let t := q.1.toNat
  let g := f % 2
  (takeSigned table 3 q.2).bind fun q =>
  let amp := (c.h.ampPred g : Int) + q.1
  if amp < 0 ∨ 4096 ≤ amp then none else
  let noTot := f / 2 / flagZeroTot % 2 = 1 ∨ f / 2 / flagOrder % 2 = 1
  (if noTot then some ((0 : Int), q.2)
   else (takeSigned table 2 q.2).map fun z => ((c.h.totPred g amp.toNat : Int) + z.1, z.2)).bind fun q =>
  if q.1 < 0 ∨ 131072 ≤ q.1 then none else
  let coarse := if 16 ≤ rs then t / 128 else r % 2 ^ (16 - rs) * 2 ^ rs + t / 128
  let w := packLetter (db * 4096 + x) coarse (t % 128) q.1.toNat amp.toNat g (f / 2)
  if badCombination w then none
  else some (w, { h := c.h.learn amp.toNat g q.1.toNat (f / 2), x := x, f := f, times := Sparse.set 0 c.times x (t + 1) }, q.2)

/-- Decodes `n` letters. -/
def takeLetters (table : List Nat) (rs r db : Nat) : Nat → CodeState → List Bool →
    Option (List (BitVec 80) × History × List Bool)
  | 0, c, bs => some ([], c.h, bs)
  | n + 1, c, bs =>
    (takeLetter table rs r db c bs).bind fun q =>
      (takeLetters table rs r db n q.2.1 q.2.2).map fun z => (q.1 :: z.1, z.2)

/-- What the sub-header of a compressed body says: key flag, table mode and index, and the bits that follow (R240);
none where a reserved value or a length is wrong (R248). -/
def parseBody (body : List Byte) : Option (Bool × TableMode × List Byte × List Bool) :=
  let tm := (body.getD 0 0).toNat
  let ti := (body.getD 1 0).toNat
  let nbits := ofLe ((body.drop 4).take 4)
  let m := if tm % 4 = 0 then some (TableMode.static (ti % 16)) else if tm % 4 = 1 then some .inline
    else if tm % 4 = 2 then some .current else none
  match m with
  | none => none
  | some m =>
    let start := if m = .inline then 56 else 8
    if 8 ≤ tm ∨ 16 ≤ ti ∨ (tm % 4 ≠ 0 ∧ ti ≠ 0) ∨ ofLe ((body.drop 2).take 2) ≠ 0 ∨
        body.length ≠ start + (nbits + 7) / 8 ∨ (tm / 4 % 2 = 1 ∧ m = .current) then none
    else some (decide (tm / 4 % 2 = 1), m, (body.drop 8).take 48, (unpackBits (body.drop start)).take nbits)

/-- The history and table a body is coded from: `statics` gives the static sets (R234, R248, R250). -/
def bodyStart (statics : Nat → List Nat) (h : History) (key : Bool) (m : TableMode) (inl : List Byte) :
    Option (History × List Nat × Option Nat) :=
  let h := if key then h.key else h
  match m with
  | .static i => if validTable (statics i) then some (h, statics i, some i) else none
  | .inline => if validTable (tableOfBytes inl) then some (h, tableOfBytes inl, none) else none
  | .current => if h.table = [] then none else some (h, h.table, h.static)

/-- A valid compressed envelope body decoded, with the history after it (R248). -/
def decodeBody (statics : Nat → List Nat) (h : History) (rs r db count : Nat) (body : List Byte) :
    Option (List (BitVec 80) × History) :=
  (parseBody body).bind fun q => (bodyStart statics h q.1 q.2.1 q.2.2.1).bind fun z =>
    (takeLetters z.2.1 rs r db count { h := z.1 } q.2.2.2).bind fun y =>
      if y.2.2 = [] then some (y.1, { y.2.1 with table := z.2.1, static := z.2.2, keypend := false }) else none

/-- Decodes `n` sample words from number `k` on (R248, R249). -/
def takeSamples (table : List Nat) (h : History) : Nat → Nat → Nat → Nat → Nat → List Bool →
    Option (List W16 × History × List Bool)
  | 0, _, _, _, _, bs => some ([], h, bs)
  | n + 1, k, s1, s2, hp, bs =>
    (takeFlags table 4 hp bs).bind fun q => (takeSigned table 5 q.2).bind fun z =>
      let v := (samplePred h k s1 s2 : Int) + z.1
      if v < 0 ∨ 4096 ≤ v then none
      else
        let h := if k = 0 then { h with mb := meanStep h.mb v.toNat } else h
        (takeSamples table h n (k + 1) v.toNat s1 q.1 z.2).map fun y =>
          (BitVec.ofNat 16 (q.1 % 16 * 4096 + v.toNat) :: y.1, y.2)

/-- A valid compressed parcel body: its sample words and the history after it (R248, R249). -/
def decodeParcel (statics : Nat → List Nat) (h : History) (count : Nat) (body : List Byte) : Option (List W16 × History) :=
  (parseBody body).bind fun q => (bodyStart statics h q.1 q.2.1 q.2.2.1).bind fun z =>
    (takeSamples z.2.1 z.1 count 0 0 0 0 q.2.2.2).bind fun y =>
      if y.2.2 = [] then some (y.1, { y.2.1 with table := z.2.1, static := z.2.2, keypend := false }) else none

end Sys2Proof.Machine
end

