-- ==== Sys2Proof/Machine/Correction.lean ====
section
/-! DEFINITION. The corrected time of a letter with its residue checks (03 R103 to R112), its charge (05 R184), and the
match with an emitter flash (16 R628 to R630). -/

namespace Sys2Proof.Machine

/-! ### Tables (R103 to R106, R112) -/

/-- `VAL` of an entry. -/
def entryVal (e : Nat) : Int := toInt 13 (bitsOf e 3 13)

/-- How far an entry's `RES` is from `VAL` mod 7; none for the invalid `RES` of 7 (R103, R110). -/
def entryErr (e : Nat) : Option Nat :=
  if e % 8 = 7 then none else some (((e % 8 : Nat) - entryVal e) % 7).toNat

/-- An entry with its correct `RES` (R103). -/
def makeEntry (v : Int) : Nat := ofInt 13 v * 8 + (v % 7).toNat

/-- The word and place of entry `k` of a table of `per` entries in array `a`. -/
def entryWord (per table k : Nat) : Nat := (table * per + k) / 4

/-- An entry as read. -/
def Office.entry (d : Office) (a per table k : Nat) : Nat :=
  bitsOf (d.arrRead a (entryWord per table k)) (16 * ((table * per + k) % 4)) 16

/-- Touches the words of entries `k` and `k + 1`, once each: the array policy, and notice 0x0F11 once for an uncorrectable word
(R112). -/
def State.touchEntries (s : State) (o : OfficeId) (a per table k : Nat) : State :=
  let w := entryWord per table k
  let w' := entryWord per table (min (k + 1) (per - 1))
  let s := s.arrUse o a w
  if w' = w then s else s.arrUse o a w'

/-- Whether a word of entries `k` and `k + 1` is uncorrectable. -/
def Office.entriesBad (d : Office) (a per table k : Nat) : Bool :=
  decide (d.arrClass a (entryWord per table k) = .uncorrectable) ||
    decide (d.arrClass a (entryWord per table (min (k + 1) (per - 1))) = .uncorrectable)

/-- Whether the checks of an interpolation between two entries fail: the shift check on `(e1 - e0) * m`, and the check
of the sum (R109, R110). -/
def residueBad (e0 e1 : Option Nat) (m : Nat) : Bool :=
  match e0, e1 with
  | some a, some b => decide ((((b : Int) - a) * m) % 7 ≠ 0) || decide (a ≠ 0)
  | _, _ => true

/-- The result of a correction (R111, R112). -/
inductive Corrected
  | time (t : Int)
  | poison
  | mismatch (step : Nat)
  deriving DecidableEq, Repr

/-- What a correction works on. -/
structure CorrIn where
  /-- Tick within the round. -/
  q : Nat
  word : BitVec 80
  interp : Nat
  walk : Nat
  ocell : Int
  slope : Bool
  /-- Word 1 of the context, for the charge (R184). -/
  word1 : Nat

/-- Whether the letter takes the interpolator table, and the walk table (R107). -/
def CorrIn.usesInl (c : CorrIn) : Bool := !letterHas c.word flagCoarseOnly
def CorrIn.usesWalk (c : CorrIn) : Bool := !(letterHas c.word flagOrder || c.slope)

/-- The segment of the walk table (R107). -/
def CorrIn.walkSeg (c : CorrIn) : Nat := min 63 (letterTot c.word / 256)

/-- Step 2 of R107: the correction, and whether a check fails. -/
def CorrIn.inl (c : CorrIn) (d : Office) : Int × Bool :=
  if c.usesInl = false then (0, false)
  else
    let k := letterFine c.word / 8
    let j := letterFine c.word % 8
    let e0 := d.entry 1 16 c.interp k
    let e1 := if k = 15 then 0 else d.entry 1 16 c.interp (k + 1)
    let dd := entryVal e1 - entryVal e0
    (entryVal e0 + (dd * (2 * j + 1) + 8) / 16, residueBad (entryErr e0) (entryErr e1) (2 * j + 1))

/-- Step 3 of R107: the walk, and whether a check fails. -/
def CorrIn.walk8 (c : CorrIn) (d : Office) : Int × Bool :=
  if c.usesWalk = false then (0, false)
  else
    let n := c.walkSeg
    let e0 := d.entry 2 64 c.walk n
    if n = 63 then (entryVal e0, residueBad (entryErr e0) (some 0) 0)
    else
      let u := letterTot c.word % 256
      let e1 := d.entry 2 64 c.walk (n + 1)
      (entryVal e0 + ((entryVal e1 - entryVal e0) * u + 128) / 256, residueBad (entryErr e0) (entryErr e1) u)

/-- Calibrated charge, from word 1 of the context (R184, R196, R714). -/
def chargeOf (w : BitVec 80) (word1 : Nat) : Nat :=
  let amp := letterAmp w
  if amp = 0 then 0
  else if amp = 0xFFF then 0xFFFF
  else
    let x : Int := (amp : Int) - bitsOf word1 32 8
    let q := if letterGain w = 0 then roundDiv (x * bitsOf word1 40 12) 2048 else roundDiv (x * bitsOf word1 52 12) 256
    (clampI 1 0xFFFE q).toNat

/-- Whether the check of the charge fails (R184): the residue of the product that is divided, against the product of the residues of
its factors. -/
def chargeBad (w : BitVec 80) (word1 : Nat) : Bool :=
  let x : Int := (letterAmp w : Int) - bitsOf word1 32 8
  let g : Int := if letterGain w = 0 then bitsOf word1 40 12 else bitsOf word1 52 12
  decide ((x * g) % 7 ≠ ((x % 7) * (g % 7)) % 7)

/-- One computation of R107 with the checks of R110, and of the charge with its own (R184); `inj` names the step whose prediction is
corrupted (R113). The spec gives a mismatch of the charge no step number: 5 (DESIGN CHOICE, log entry 88). -/
def CorrIn.compute (c : CorrIn) (d : Office) (inj : Option Nat) : Corrected :=
  if (c.usesInl && d.entriesBad 1 16 c.interp (letterFine c.word / 8)) ||
      (c.usesWalk && d.entriesBad 2 64 c.walk c.walkSeg) then .poison
  else
    let a : Int := 8192 * c.q + (if letterHas c.word flagCoarseOnly then 4096 else 64 * letterFine c.word + 32)
    let i := c.inl d
    let w := c.walk8 d
    if inj = some 1 then .mismatch 1
    else if i.2 ∨ inj = some 2 then .mismatch 2
    else if w.2 ∨ inj = some 3 then .mismatch 3
    else if inj = some 4 then .mismatch 4
    else if chargeBad c.word c.word1 then .mismatch 5
    else .time (a + i.1 - c.ocell - 8 * w.1)

/-- The table reads of one computation. -/
def State.touchTables (s : State) (o : OfficeId) (c : CorrIn) : State :=
  let s := if c.usesInl then s.touchEntries o 1 16 c.interp (letterFine c.word / 8) else s
  if c.usesWalk then s.touchEntries o 2 64 c.walk c.walkSeg else s

/-- Corrects a letter (R107 to R113): a mismatch computes it again once; a second one discards it. A letter that is discarded for a
poisoned table word uses an armed injection up, which R113 leaves open (DESIGN CHOICE, log entry 87). -/
def State.correct (s : State) (o : OfficeId) (channel : Nat) (round : Nat) (c : CorrIn) : Option Int × State :=
  let inj := (s.off o).resInj
  let first := c.compute (s.off o) inj
  let s := (s.touchTables o c).modOff o fun d => { d with resInj := none }
  match first with
  | .time t => (some t, s)
  | .poison => (none, s.countUp o F.SORT_RES_CNT_TBLPOIS_COUNT)
  | .mismatch _ =>
    let s := if inj.isSome then s else s.noteResRetry o
    match c.compute (s.off o) none with
    | .time t => (some t, (s.touchTables o c).countUp o F.SORT_RES_CNT_RETRY_COUNT)
    | .poison => (none, (s.touchTables o c).countUp o F.SORT_RES_CNT_TBLPOIS_COUNT)
    | .mismatch step =>
      let s := (s.touchTables o c).countUp o F.SORT_RES_CNT_DROP_COUNT
      let s := s.noteResDrop o
      (none, s.raise o 0x0F10 (le 3 channel ++ le 6 round ++ le 1 step))

/-! ### Matching a flash (R628 to R630) -/

/-- A slot of the path table (R628). -/
structure PathSlot where
  modid : Nat
  emitter : Nat
  en : Bool
  d0 : Int
  gr : Int
  gc : Int
  k : Int

/-- Slot `k` of a district byte's path (R628). A slot whose words read uncorrectable is not enabled (log entry 22). -/
def Office.pathSlot (d : Office) (db k : Nat) : PathSlot :=
  let base := 0x0A09000 + 32 * db + 16 * k
  let b := d.windowBytes base 16
  let at_ := fun ofs n => ofLe ((b.drop ofs).take n)
  { modid := at_ 0 1, emitter := at_ 1 1, en := decide (at_ 2 1 % 2 = 1) && !d.windowBad base 16,
    d0 := toInt 32 (at_ 4 4), gr := toInt 16 (at_ 8 2), gc := toInt 16 (at_ 10 2), k := toInt 16 (at_ 12 2) }

/-- The path delay of a cell, in 1/8 bin (R628). -/
def PathSlot.delay (p : PathSlot) (row col : Nat) : Int :=
  let x : Int := 2 * row - 63
  let y : Int := 2 * col - 63
  p.d0 + (p.gr * x + p.gc * y) / 16 + p.k * (x * x + y * y) / 4096

/-- The tick at which a flash lit an emitter, if it did (R618, R623). -/
def flashLit (r : FlashReport) (emitter : Nat) : Option Nat :=
  (r.slots.find? fun sl => sl.row.toNat = emitter / 16 && bitsOf sl.cols.toNat (emitter % 16) 1 = 1).map fun sl =>
    sl.start.toNat

/-- The state of an emitter (R627): 0 UNVERIFIED, 1 OK, 2 OPEN. -/
def State.emitterState (s : State) (e : Nat) : Nat := bitsOf (s.srd F.EMT_STATE_E (e / 16)) (2 * (e % 16)) 2

/-- The residual of a corrected time against a slot in a flash, when the slot serves and the residual is in the window
(R629). -/
def State.residual (s : State) (o : OfficeId) (r : FlashReport) (p : PathSlot) (round row col : Nat) (t : Int) :
    Option Int :=
  match flashLit r p.emitter with
  | none => none
  | some e =>
    let texp : Int := 8192 * ((e : Int) - round * 2 ^ s.svc.roundShift) + 8 * p.delay row col
    let rho := (t - texp + 4) / 8
    if p.en && !r.cut && !r.suppressed && s.emitterState p.emitter ≠ 2 && rho.natAbs ≤ s.rd o F.EMT_CAL_CFG_MATCH_WIN then
      some rho
    else none

/-- The flash that a letter matches, with the slot and the residual: the first flash later than the last one matched in
the channel (R629). The cross slot is tried where the primary emitter was not lit. -/
def State.findFlash (s : State) (o : OfficeId) (db ch round : Nat) (t : Int) : Option (Nat × Nat × Int) :=
  let p0 := (s.off o).pathSlot db 0
  let p1 := (s.off o).pathSlot db 1
  let row := ch / 64 % 64
  let col := ch % 64
  (s.off o).cal.reports.reverse.findSome? fun r =>
    if r.f0.toNat < Sparse.get 0 (s.off o).cal.lastFlash ch then none
    else
      match flashLit r p0.emitter with
      | some _ => (s.residual o r p0 round row col t).map fun rho => (r.f0.toNat, 0, rho)
      | none => (s.residual o r p1 round row col t).map fun rho => (r.f0.toNat, 1, rho)

/-- The peer on the timing port (R401, R630). -/
def State.timingPeer (s : State) : Nat :=
  if s.srd F.RING_STAT_TPORT = 0 then s.srd F.RING_PEER_PEER_W else s.srd F.RING_PEER_PEER_E

/-- The accumulators outside the context that a match updates (R630), and the count of flashes matched. -/
def State.noteMatch (s : State) (o : OfficeId) (db ch : Nat) (w : BitVec 80) (f0 slot : Nat) (rho : Int) : State :=
  let seen := (s.off o).cal.flashHits.contains f0
  let s := s.modOff o fun d =>
    { d with cal := { d.cal with
        lastFlash := Sparse.set 0 d.cal.lastFlash ch (f0 + 1)
        flashHits := if seen then d.cal.flashHits else f0 :: d.cal.flashHits } }
  let s := if seen then s
    else s.wr o F.EMT_CAL_STAT_FLASHES (min (s.rd o F.EMT_CAL_STAT_FLASHES + 1) 0xFFFFFF)
  if slot = 1 then
    if ((s.off o).pathSlot db 1).modid = s.timingPeer then
      let s := s.wr o F.EMT_CAL_XN_XN (min (s.rd o F.EMT_CAL_XN_XN + 1) 0xFFFFFFFF)
      s.wr o F.EMT_CAL_XSUM_XSUM (ofInt 32 (satI 32 (toInt 32 (s.rd o F.EMT_CAL_XSUM_XSUM) + rho)))
    else s
  else if s.rd o F.EMT_CAL_CTL_MODE = 1 then
    let k := (db * 2 + letterGain w) * 64 + min 63 (letterTot w / 256)
    s.modOff o fun d =>
      { d with cal := { d.cal with walkN := Sparse.update 0 d.cal.walkN k (· + 1)
                                   walkS := Sparse.update 0 d.cal.walkS k (· + rho) } }
  else s

end Sys2Proof.Machine
end

