-- ==== Sys2Proof/Machine/Sorting.lean ====
section
/-! DEFINITION. The merge of district rounds into envelopes, hot cells, routing, and changes between rounds
(05; 03 R114; 16 R631 for the end of a campaign by count). -/

namespace Sys2Proof.Machine

/-! ### Hand-over to compression (05 R180; 06 R235, R257) -/

/-- The effective effort an office would use now (R257). -/
def State.effortNow (s : State) (o : OfficeId) : Nat := min (s.rd o F.CMP_CTL_EFFORT) (s.off o).cmp.forcedEffort

/-- The lowest `n` ones of a mask, from bit `k` on; `fuel` bounds the bits. -/
def lowestOnes (mask : Nat) : Nat → Nat → Nat → Nat
  | 0, _, _ => 0
  | fuel + 1, k, n =>
    if n = 0 then 0
    else if bitsOf mask k 1 = 1 then 2 ^ k + lowestOnes mask fuel (k + 1) (n - 1)
    else lowestOnes mask fuel (k + 1) n

/-- The engines an office would enable now (R257). -/
def State.enginesNow (s : State) (o : OfficeId) : Nat :=
  lowestOnes (s.rd o F.CMP_CTL_ENG_MASK) 16 0 (s.off o).cmp.allowedEngines

/-- Writes `CMP_STAT` (R261). -/
def State.refreshCmp (s : State) (o : OfficeId) (effort engines : Nat) : State :=
  let c := (s.off o).cmp
  let act := popcount 16 (engines &&& (65535 - c.outEngines % 65536))
  ((s.wr o F.CMP_STAT_ENG_ACT act).wr o F.CMP_STAT_EFFORT_ACT effort).wr o F.CMP_STAT_FORCED
    (b2n (c.forcedEffort < 2 || c.allowedEngines < 16))

/-- Effort and engines follow the throttle level (R257, R647): level 3 forces effort 1 at most with 8 engines, level 4
effort 0. A change raises 0x0404. -/
def State.followLevel (s : State) (o : OfficeId) : State :=
  let lvl := s.srd F.THM_STAT_LEVEL
  let e := if 4 ≤ lvl then 0 else if 3 ≤ lvl then 1 else 2
  let n := if 3 ≤ lvl then 8 else 16
  if (s.off o).cmp.forcedEffort = e ∧ (s.off o).cmp.allowedEngines = n then s
  else (s.modOff o fun d => { d with cmp := { d.cmp with forcedEffort := e, allowedEngines := n } }).raise o 0x0404 (le 1 e ++ le 1 n)

/-- Adds a round to those that make key envelopes (R235). -/
def State.addKeyRound (s : State) (o : OfficeId) (r : Nat) : State :=
  let c := (s.off o).cmp
  let oldest := c.plans.head?.elim r fun p => p.round.toNat
  let past := (c.keyRounds.filter (roundLe · oldest)).foldl (fun (b : Option Nat) k => if b.any (roundLe k) then b else some k) none
  let kept := c.keyRounds.filter fun k => roundLt oldest k || some k = past
  s.modOff o fun d => { d with cmp := { d.cmp with keyRounds := r :: kept.eraseDups } }

/-- Fixes effort and engines of a round with its first item (R257); an effort that rises from 0, and a key round, make
every stream's next envelope a key envelope (R235). -/
def State.planRound (s : State) (o : OfficeId) (r : Round) : State :=
  let c := (s.off o).cmp
  if c.plans.any fun p => p.round = r then s
  else
    let e := s.effortNow o
    let g := s.enginesNow o
    let k := s.rd o F.CMP_CTL_KEY_LOG2
    let key := decide (k ≠ 0) && decide (r.toNat % 2 ^ k = 0)
    let plan : RoundPlan := { round := r, effort := e, engines := g, firstOrd := c.nextOrd, keyRound := key }
    let s := s.modOff o fun d => { d with cmp := { d.cmp with plans := d.cmp.plans ++ [plan], lastEffort := e } }
    let s := if (c.lastEffort = 0 ∧ e ≠ 0) ∨ key then s.addKeyRound o r.toNat else s
    s.refreshCmp o e g

/-- Plain-body bytes of an item (R263). -/
def CmpBody.plainLen : CmpBody → Nat
  | .env e => 10 * e.letters.length
  | .par p => 2 * p.samples.length

/-- Hands an envelope or a parcel to compression (R180, R257, R263). -/
def State.handOver (s : State) (o : OfficeId) (r : Round) (b : CmpBody) : State :=
  let s := s.planRound o r
  let s := s.modOff o fun d =>
    { d with cmp := { d.cmp with queue := d.cmp.queue ++ [{ ord := d.cmp.nextOrd, round := r, body := b }],
                                 nextOrd := d.cmp.nextOrd + 1 } }
  s.countPair o F.CMP_IN_LO_COUNT_L F.CMP_IN_HI_COUNT_H b.plainLen

/-- Marks a round as handed over whole. -/
def State.endRound (s : State) (o : OfficeId) (r : Round) : State :=
  s.modOff o fun d =>
    { d with cmp := { d.cmp with
        plans := d.cmp.plans.map fun p => if p.round = r then { p with endOrd := some d.cmp.nextOrd } else p } }

/-! ### Rounds and readiness (R174 to R177) -/

/-- The mode in which the owner takes a round (R173, R663). -/
def Office.modeOf (d : Office) (r : Nat) : Mode :=
  match d.modeFrom.find? fun e => roundLe e.1 r with
  | some e => e.2
  | none => .standby

/-- Makes a district round ready now. -/
def State.makeReady (s : State) (o : OfficeId) (k : Nat) (noClose : Bool) : State :=
  s.modOff o fun d =>
    { d with rounds := Sparse.update {} d.rounds k fun e => { e with readyAt := some s.now, noClose := noClose } }

/-- LATE_WINDOW_EXPIRY (R174): district rounds whose close frame has come are ready at C_n + `LATE_WIN`. -/
def execLateWindowExpiry (o : OfficeId) (round : Round) (s : State) : Out :=
  .next (
    let r := round.toNat
    if s.owns o && (s.off o).merges r && tickLe (s.closingTick o r + s.rd o F.SORT_MG_LATEWIN_LATE_WIN) (s.off o).count.toNat
    then
      (List.range 256).foldl (fun s db =>
        let k := roundKey r db
        let e := (s.off o).round k
        if e.close.isSome && e.readyAt.isNone && !(s.off o).begun k then s.makeReady o k false else s) s
    else s)

/-- Gives up the close frame of a district round (R174): NOCLOSE, counted once, notice 0x0301. -/
def State.giveUpClose (s : State) (o : OfficeId) (r db : Nat) : State :=
  let k := roundKey r db
  let e := (s.off o).round k
  if e.close.isSome || e.readyAt.isSome || (s.off o).begun k then s
  else
    let t : Fin 4 := ⟨db / 64 % 4, Nat.mod_lt _ (by decide)⟩
    let s := (s.makeReady o k true).countUp o F.SORT_MG_CNT_NOCLOSE_COUNT
    (s.raise o 0x0301 (le 1 t.val ++ le 1 (db % 64) ++ le 6 r)).accClose o t r 0

/-- MERGE_DEADLINE_EXPIRY (R174): at C_n + `DEADLINE` a missing close frame is given up. -/
def execMergeDeadlineExpiry (o : OfficeId) (round : Round) (s : State) : Out :=
  .next (
    let r := round.toNat
    if s.owns o && (s.off o).merges r && tickLe (s.closingTick o r + s.rd o F.SORT_MG_DEADLINE_DEADLINE) (s.off o).count.toNat
    then (List.range 256).foldl (fun s db => s.giveUpClose o r db) s
    else s)

/-! ### Hot cells (R209 to R212) -/

/-- The tile and cell of a channel. -/
def tileOfChannel (ch : Nat) : Fin 4 := ⟨ch / 262144 % 4, Nat.mod_lt _ (by decide)⟩
def cellOfChannel (ch : Nat) : Nat := ch % 262144

/-- Sends the tile the cell word the owner expects now, unless the context is poisoned (R206, R211, R212). -/
def State.sendExpected (s : State) (o : OfficeId) (ch : Nat) : State :=
  let t := tileOfChannel ch
  if (s.off o).contextBad ch then s
  else s.sendConfig o t [cmdFor 0 (cellOfChannel ch) ((s.off o).expectedCell t (cellOfChannel ch))]

/-- `DISC_EN` of a cell cleared as a runtime state, with the rest of the word from a read-back where the context is
poisoned (R206, R211). -/
def State.disableCell (s : State) (o : OfficeId) (ch : Nat) : State :=
  if (s.off o).contextBad ch then s.sendConfig o (tileOfChannel ch) [cmdFor 2 (cellOfChannel ch) 0]
  else s.sendExpected o ch

/-- Auto-masks a cell (R211). -/
def State.autoMask (s : State) (o : OfficeId) (ch win : Nat) : State :=
  let s := s.modOff o fun d => { d with am := Sparse.set 0 d.am ch 1 }
  let s := (s.disableCell o ch).wr o F.SORT_HOT_STAT_AUTOMASKED (s.rd o F.SORT_HOT_STAT_AUTOMASKED + 1)
  s.raise o 0x0320 (le 3 ch ++ le 2 win)

/-- Releases an auto-masked cell (R212). -/
def State.releaseMask (s : State) (o : OfficeId) (ch : Nat) : State :=
  let s := s.modOff o fun d => { d with am := Sparse.set 0 d.am ch 0 }
  let s := (s.sendExpected o ch).wr o F.SORT_HOT_STAT_AUTOMASKED (s.rd o F.SORT_HOT_STAT_AUTOMASKED - 1)
  s.raise o 0x0321 (le 3 ch)

/-- `NOHOT` of a channel, from word 0 of its context. The sweep reads the word for it under the array policy and acts on an
uncorrectable one (R204, R206); a merge has read it with the others. DESIGN CHOICE: where word 0 is uncorrectable, the stored data
decides; the spec does not say (log entry 89). -/
def State.noHot (s : State) (o : OfficeId) (ch : Nat) (sweep : Bool) : State × Bool :=
  let w := ch * 4
  let on := decide (bitsOf ((s.off o).arrRead 0 w) 35 1 = 1)
  if !sweep then (s, on)
  else
    let bad := decide ((s.off o).arrClass 0 w = .uncorrectable)
    let s := s.arrUse o 0 w
    (if bad then s.disableCell o ch else s, on)

/-- Closes the stored window of a channel when it is not window `w`; `x` is word 2, and the result its new value
(R209 to R212). `sweep` tells that the hot-window sweep does it, not a merge. -/
def State.closeWindow (s : State) (o : OfficeId) (ch w x : Nat) (sweep : Bool) : State × Nat :=
  let g := (w + 16 - bitsOf x 0 4) % 16
  if g = 0 then (s, x)
  else
    let win := bitsOf x 8 12
    let lim := s.rd o F.SORT_HOT_STRIKE_LIM
    if Sparse.get 0 (s.off o).am ch = 1 then
      let win := min 4095 (win + g)
      let rel := s.rd o F.SORT_HOT_REL_WIN
      if rel ≠ 0 ∧ rel ≤ win then
        (s.releaseMask o ch, setBits (setBits (setBits x 0 4 w) 8 12 0) 4 4 (lim - 1))
      else (s, setBits (setBits x 0 4 w) 8 12 win)
    else
      let hot := s.rd o F.SORT_HOT_HOT_LIM
      let k := bitsOf x 4 4
      let k := if hot ≤ win then min 15 (k + 1) else k
      let k := if 2 * win < hot then k - 1 else k
      let k := k - (g - 1)
      let y := setBits (setBits (setBits x 4 4 k) 8 12 0) 0 4 w
      if lim ≤ k ∧ hot ≠ 0 then
        let n := s.noHot o ch sweep
        if n.2 then (n.1, y) else (n.1.autoMask o ch win, y)
      else (s, y)

/-- The hot window of a round (R209). -/
def State.windowOf (s : State) (o : OfficeId) (r : Nat) : Nat := r / 2 ^ s.rd o F.SORT_HOT_WIN_LOG2

/-- The current window (R209). -/
def State.currentWindow (s : State) (o : OfficeId) : Nat :=
  match (s.off o).mrg.lastBegun with
  | some r => s.windowOf o r
  | none => s.windowOf o (s.roundOf (s.off o).count).toNat

/-- HOT_SWEEP_VISIT (R209): the owner's sweep visits the next channel and closes its stored window. A word 2 that reads
uncorrectable refuses the update (R205) and acts under R206. -/
def execHotSweepVisit (o : OfficeId) (s : State) : Out :=
  .next (
    if s.owns o = false ∨ (s.off o).inReset then s
    else
      let ch := (s.off o).mrg.sweep
      let w := ch * 4 + 2
      let bad := decide ((s.off o).arrClass 0 w = .uncorrectable)
      let s := (s.arrUse o 0 w).modOff o fun d => { d with mrg := { d.mrg with sweep := (ch + 1) % 2 ^ 20 } }
      if bad then s.disableCell o ch
      else
        let x := (s.off o).arrRead 0 w
        let r := s.closeWindow o ch (s.currentWindow o) x true
        if r.2 = x then s else r.1.arrUpdate o 0 w true fun _ => r.2)

/-! ### The work on each letter (R181 to R184) -/

/-- What a merge gathers over one district round: its letters with their `SUB`, newest first, and what was lost. -/
structure MergeAcc where
  letters : List (Nat × EnvLetter) := []
  dropped : Nat := 0
  resDrop : Bool := false
  ctxLoss : Bool := false
  corrupt : Bool := false

/-- Whether a letter is corrupt in district round `(r, db)` (R181, R81). -/
def corruptLetter (rs r db : Nat) (w : BitVec 80) : Bool :=
  decide (letterChannel w / 4096 ≠ db) ||
    (decide (rs < 16) && decide (letterCoarse w / 2 ^ rs ≠ r % 2 ^ (16 - rs))) || badCombination w

/-- The tick within the round of a letter (R107, R141). -/
def tickInRound (rs : Nat) (l : RxLetter) : Nat :=
  if rs ≤ 16 then letterCoarse l.word % 2 ^ rs
  else letterCoarse l.word + bitsOf l.side.toNat 1 4 % 2 ^ (rs - 16) * 65536

/-- `SUB` of a letter: bits 19:16 of the tick count of its leading edge, which hold low bits of the round where `ROUND_SHIFT` is below
20 (R186, R189). -/
def subOf (rs r : Nat) (l : RxLetter) : Nat := if 16 < rs then (r * 2 ^ rs + tickInRound rs l) / 65536 % 16 else 0

/-- Word 2 after a letter: `HITS`, and `WIN` and `NOISE` of a letter without CALIB (R182, R209). -/
def State.hitWord (s : State) (o : OfficeId) (ch r : Nat) (w : BitVec 80) (x : Nat) : State × Nat :=
  let x := setBits x 36 28 (min (bitsOf x 36 28 + 1) (2 ^ 28 - 1))
  if letterHas w flagCalib then (s, x)
  else
    let c := s.closeWindow o ch (s.windowOf o r) x false
    let x := c.2
    let x := if Sparse.get 0 (c.1.off o).am ch = 1 then x else setBits x 8 12 (min 4095 (bitsOf x 8 12 + 1))
    let x := if letterTot w < s.rd o F.SORT_NOISE_NOISE_TOT then setBits x 20 16 (min 65535 (bitsOf x 20 16 + 1)) else x
    (c.1, x)

/-- The interpolator that timed a letter (R104). -/
def interpOf (t : Fin 4) (l : RxLetter) : Nat :=
  t.val * 32768 + clusterOf (cellOfChannel (letterChannel l.word)) * 2 + bitsOf l.side.toNat 0 1

/-- Counts a leading edge of round `r` in the running code-density pass, whatever becomes of its letter (R114); `w` is the letter as it
stands at the end of the merge's work. A live pass counts letters without CALIB; a dither pass those to which the tile gave CALIB
under a running sequence of dither strobes in Calibration (R116, log entry 18). -/
def State.countDensity (s : State) (o : OfficeId) (t : Fin 4) (r : Nat) (l : RxLetter) (w : BitVec 80) : State :=
  let c := (s.off o).cd
  let interp := interpOf t l
  let counts := if s.rd o F.SORT_CD_CTL_SRC = 1 then
      letterHas l.word flagCalib && decide ((s.off o).modeOf r = .calibration) && (s.off o).ditherRuns
    else !letterHas w flagCalib
  if s.rd o F.SORT_CD_STAT_BUSY = 1 ∧ c.first ≤ interp ∧ interp < c.first + 8192 ∧ counts ∧
      letterHas w flagCoarseOnly = false ∧ letterHas w flagLate = false then
    s.modOff o fun d =>
      { d with cd := { d.cd with
          m := Sparse.update 0 d.cd.m interp (· + 1)
          c := (List.range 16).foldl (fun m k =>
            if 1 ≤ k ∧ letterFine w < 8 * k then Sparse.update 0 m (interp * 16 + k) (· + 1) else m) d.cd.c } }
  else s

/-- Offers a letter to the calibration service (R182, R629): the flash matched, if the campaign runs and the letter may
match. -/
def State.offer (s : State) (o : OfficeId) (t : Fin 4) (ch r : Nat) (w : BitVec 80) (slope : Bool) (tm : Int) :
    Option (Nat × Nat × Int) :=
  if s.rd o F.EMT_CAL_STAT_STATE ≠ 1 ∨ bitsOf ((s.off o).arrRead 0 (ch * 4)) 34 1 = 1 ∨ letterHas w flagCoarseOnly ∨
      letterHas w flagOrder ∨ letterHas w flagLate ∨ slope then none
  else s.findFlash o (t.val * 64 + ch / 4096 % 64) ch r tm

/-- Word 3 after a letter (R182, R198, R630). -/
def lastWord (x lead : Nat) (rho : Option Int) : Nat :=
  let x := setBits x 40 24 lead
  match rho with
  | none => x
  | some rho =>
    if bitsOf x 30 10 = 1023 then x
    else setBits (setBits x 30 10 (bitsOf x 30 10 + 1)) 0 30 (ofInt 30 (toInt 30 (bitsOf x 0 30) + rho))

/-- A letter of an unmasked cell: corrected, offered to the calibration service, and placed (R182). -/
def State.placeLetter (s : State) (o : OfficeId) (t : Fin 4) (r db : Nat) (a : MergeAcc) (l : RxLetter) : State × MergeAcc :=
  let ch := letterChannel l.word
  let rs := s.svc.roundShift
  let q := tickInRound rs l
  let lead := r * 2 ^ rs + q
  let slope := s.flag o F.SORT_FE_CTL_SLOPE t.val && decide ((s.off o).modeOf r = .calibration)
  let w1 := (s.off o).arrRead 0 (ch * 4 + 1)
  let inp : CorrIn := { q := q, word := l.word, interp := interpOf t l, walk := db * 2 + letterGain l.word,
                        ocell := toInt 20 (bitsOf w1 0 20), slope := slope, word1 := w1 }
  let c := s.correct o ch r inp
  match c.1 with
  | none =>
    ((c.2.arrUpdate o 0 (ch * 4 + 3) true fun x => lastWord x lead none).countDensity o t r l l.word,
      { a with dropped := a.dropped + 1, resDrop := true })
  | some tm =>
    let s := c.2
    match s.offer o t ch r l.word slope tm with
    | none =>
      let s := (s.arrUpdate o 0 (ch * 4 + 3) true fun x => lastWord x lead none).countDensity o t r l l.word
      (s, { a with letters := (subOf rs r l, { word := l.word, t := (tm + 4) / 8, q := chargeOf l.word w1 }) :: a.letters })
    | some m =>
      let w := letterWith l.word flagCalib
      let s := s.arrUpdate o 0 (ch * 4 + 3) true fun x => lastWord x lead (if m.2.1 = 0 then some m.2.2 else none)
      let s := (s.noteMatch o db ch w m.1 m.2.1 m.2.2).countDensity o t r l w
      (s, { a with letters := (subOf rs r l, { word := w, t := (tm + 4) / 8, q := chargeOf w w1 }) :: a.letters })

/-- MERGE_LETTER: one letter of district round `(r, db)` in the order of R182. -/
def State.mergeLetter (s : State) (o : OfficeId) (t : Fin 4) (r db : Nat) (a : MergeAcc) (l : RxLetter) : State × MergeAcc :=
  let rs := s.svc.roundShift
  if corruptLetter rs r db l.word then
    let s := (s.countUp o F.SORT_MG_CNT_CORRUPT_COUNT).modAcc o r fun x =>
      { x with corrupt := x.corrupt.set t (x.corrupt.get t + 1) }
    (s, { a with dropped := a.dropped + 1, corrupt := true })
  else
    let ch := letterChannel l.word
    let bad := (s.off o).contextBad ch
    let s := (List.range 4).foldl (fun s k => s.arrUse o 0 (ch * 4 + k)) s
    if bad then
      let s := (s.countUp o F.SORT_CTX_CNT_PDROP_COUNT).countDensity o t r l l.word
      (s.disableCell o ch, { a with dropped := a.dropped + 1, ctxLoss := true })
    else
      let h := s.hitWord o ch r l.word ((s.off o).arrRead 0 (ch * 4 + 2))
      let s := h.1.arrUpdate o 0 (ch * 4 + 2) true fun _ => h.2
      if bitsOf ((s.off o).arrRead 0 (ch * 4)) 32 1 = 1 ∨ Sparse.get 0 (s.off o).am ch = 1 then
        let lead := r * 2 ^ rs + tickInRound rs l
        let s := (s.arrUpdate o 0 (ch * 4 + 3) true fun x => lastWord x lead none).countUp o F.SORT_MG_CNT_MASKED_COUNT
        (s.countDensity o t r l l.word, a)
      else s.placeLetter o t r db a l

/-- Whether letter `a` comes before or with `b` in an envelope: channel, then coarse and fine time (R185). -/
def sortsBefore (a b : Nat × EnvLetter) : Bool :=
  let key := fun (x : Nat × EnvLetter) => (letterChannel x.2.word * 2 ^ 32 + x.1 * 2 ^ 23 + letterCoarse x.2.word * 128 +
    letterFine x.2.word)
  decide (key a ≤ key b)

/-! ### Envelopes and routing (R185 to R190, R213 to R216) -/

/-- The word of the class map or route table at an address: none where it reads uncorrectable, with notice 0x0311 once
(R208). -/
def State.routeWord (s : State) (o : OfficeId) (addr : Nat) : Option Nat × State :=
  match arrayAt addr with
  | some p =>
    let bad := decide ((s.off o).arrClass p.1 p.2 = .uncorrectable)
    let s' := s.arrUse o p.1 p.2
    if bad then (none, s')
    else (some ((s.off o).arrRead p.1 p.2 / 2 ^ (8 * (addr % 8))), s')
  | none => (none, s)

/-- ROUTING: the route of a district round, in Calibration and Streaming (R213 to R215). -/
def State.routeOf (s : State) (o : OfficeId) (r db : Nat) : Option Route × State :=
  match (s.off o).modeOf r with
  | .calibration | .streaming =>
    let c := s.routeWord o (0x0310000 + db)
    match c.1 with
    | none => (none, c.2)
    | some cls =>
      let slice := r / 2 ^ s.rd o F.SORT_RT_CTL_SLICE_SHIFT % (s.rd o F.SORT_RT_CTL_SLICE_M1 + 1)
      let e := c.2.routeWord o (0x0311000 + 2 * (cls % 16 * 256 + slice))
      match e.1 with
      | none => (none, e.2)
      | some x =>
        if bitsOf x 15 1 = 1 then
          (some { ph := bitsOf x 0 12, timed := decide (bitsOf x 14 1 = 1), dlo := decide (bitsOf x 13 1 = 1) }, e.2)
        else (none, e.2)
  | _ => (none, s)

/-- The letters of a district round as lists by `SUB` and part (R189). -/
def partsOf (rs : Nat) (ls : List (Nat × EnvLetter)) : List (Nat × Nat × List EnvLetter) :=
  (List.range (if 16 < rs then 16 else 1)).flatMap fun sub =>
    let mine := (ls.filter fun x => x.1 = sub).map (·.2)
    if mine = [] then []
    else
      let ps := cutParts 65535 64 mine
      (List.range ps.length).map fun k => (sub, k, ps.getD k [])

/-- The loss flags of a district round (R187). -/
def lossFlags (e : DRound) (a : MergeAcc) (rxBad : Nat) (cal : Bool) : LossFlags :=
  { noClose := e.noClose
    overflow := (e.close.any fun c => c.dropped ≠ 0) || decide (e.rxDropped + rxBad ≠ 0)
    eccLoss := e.close.any fun c => c.eccDrop ≠ 0
    lostFrames := e.lostFrames
    resDrop := a.resDrop
    ctxLoss := a.ctxLoss
    calRound := cal
    corrupt := a.corrupt }

/-- The letters known to be discarded (R188). -/
def droppedOf (e : DRound) (a : MergeAcc) (rxBad : Nat) : Nat :=
  (match e.close with
   | some c => c.dropped + c.eccDrop
   | none => 0) + e.rxDropped + rxBad + a.dropped

/-- The envelopes of a district round (R185 to R190). -/
def State.envelopes (s : State) (o : OfficeId) (r db : Nat) (e : DRound) (a : MergeAcc) (rxBad : Nat) (route : Option Route) :
    List Envelope :=
  let rs := s.svc.roundShift
  let f := lossFlags e a rxBad ((s.off o).modeOf r = .calibration)
  let ls := a.letters.reverse.mergeSort sortsBefore
  let ps := partsOf rs ls
  let ps := if ps = [] ∧ f.lossBits ≠ 0 then [(0, 0, [])] else ps
  let pm := s.postmarkAt (r * 2 ^ rs)
  (List.range ps.length).map fun k =>
    let p := ps.getD k (0, 0, [])
    let last := decide (k + 1 = ps.length)
    { district := BitVec.ofNat 8 db, part := p.2.1, sub := p.1, round := BitVec.ofNat 48 r, rshift := rs, more := !last
      status := BitVec.ofNat 16 (f.status last (p.2.2.any fun l => letterHas l.word flagLate))
      lateIn := if last then e.lateIn else 0
      dropped := if last then droppedOf e a rxBad else 0
      calEpoch := BitVec.ofNat 32 (s.rd o F.SORT_CAL_EPOCH_EPOCH)
      postmark := pm.1, inc := BitVec.ofNat 32 pm.2, letters := p.2.2, route := route }

/-! ### Merge units (R176, R179, R180) -/

/-- Whether a unit may take a district round: the round in order is not barred by a change that waits (R202). -/
def Office.mayBegin (d : Office) (k : Nat) : Bool :=
  d.mrg.jobs.isEmpty || d.mrg.lastBegun.any fun r => roundLe (k / 256) r

/-- The ready district round that a free unit takes: ready first, then the oldest round, then the lowest district
(R176). -/
def Office.nextReady (d : Office) : Option Nat :=
  let best := d.rounds.foldl (fun (b : Option (Nat × Nat)) e =>
    match e.2.readyAt with
    | some a =>
      if e.2.begun || !d.mayBegin e.1 then b
      else
        match b with
        | some x => if a < x.1 || (a = x.1 && keyLt e.1 x.2) then some (a, e.1) else b
        | none => some (a, e.1)
    | none => b) none
  best.map (·.2)

/-- The lowest free merge unit. -/
def Office.freeUnit (d : Office) : Option Nat :=
  (List.range 8).find? fun u => (Sparse.get none d.mrg.units u).isNone

/-- The letters whose entries read well, by index (R179). -/
def keepGood (bad : List Nat) : Nat → List RxLetter → List RxLetter
  | _, [] => []
  | k, l :: ls => if bad.contains k then keepGood bad (k + 1) ls else l :: keepGood bad (k + 1) ls

/-- Counts letters lost to uncorrectable entries (R179); `known` where letters of the district round were lost before. -/
def State.rxLoss (s : State) (o : OfficeId) (r n : Nat) (known : Bool) : State :=
  if n = 0 then s
  else
    (s.countBy o F.SORT_MG_CNT_RXDROP_COUNT n).modAcc o r fun a =>
      { a with rxDistricts := a.rxDistricts + b2n (!known), rxLetters := a.rxLetters + n }

/-- The late letters that came in the office core clock in which the merge begins (R177). -/
def DRound.fresh (e : DRound) (count : W64) : Nat := if e.lateClock = count.toNat / 2 + 1 then e.lateN else 0

/-- A list without its first `n` late letters. -/
def dropLate : Nat → List RxLetter → List RxLetter
  | 0, l => l
  | _, [] => []
  | n + 1, x :: xs => if x.late then dropLate n xs else x :: dropLate (n + 1) xs

/-- The merge discards the late letters that came in its own clock (R177). -/
def State.dropFresh (s : State) (o : OfficeId) (k : Nat) : State :=
  let e := (s.off o).round k
  let n := e.fresh (s.off o).count
  if n = 0 then s
  else
    let t : Fin 4 := ⟨k % 256 / 64 % 4, Nat.mod_lt _ (by decide)⟩
    let kept := { e with letters := (dropLate n e.letters.reverse).reverse, lateIn := e.lateIn - n, lateN := 0 }
    let s := s.modOff o fun d => { d with rounds := Sparse.set {} d.rounds k kept }
    (s.wr o F.SORT_LN_CNT_LATE_COUNT (s.rd o F.SORT_LN_CNT_LATE_COUNT t.val - n) t.val).lateDrop o t (k / 256) n

/-- A unit merges a district round: every letter in the order of R182, and the envelopes (R176 to R190). -/
def State.mergeRound (s : State) (o : OfficeId) (u k : Nat) (badEntries : List Nat) : State :=
  let r := k / 256
  let db := k % 256
  let t : Fin 4 := ⟨db / 64 % 4, Nat.mod_lt _ (by decide)⟩
  let s := s.dropFresh o k
  let e := (s.off o).round k
  let good := keepGood badEntries 0 e.letters
  let rxBad := e.letters.length - good.length
  let s := s.modOff o fun d =>
    { d with
      rounds := Sparse.set {} d.rounds k { e with begun := true, letters := [] }
      mrg := { d.mrg with lastBegun := some (match d.mrg.lastBegun with
        | some x => if roundLe r x then x else r
        | none => r) } }
  let s := s.rxLoss o r rxBad (e.overflowed)
  let m := good.foldl (fun (x : State × MergeAcc) l => x.1.mergeLetter o t r db x.2 l) (s, {})
  let rt := m.1.routeOf o r db
  let envs := rt.2.envelopes o r db e m.2 rxBad rt.1
  rt.2.modOff o fun d =>
    { d with mrg := { d.mrg with
        units := Sparse.set none d.mrg.units u
          (some { key := k, startAt := s.now, letters := e.letters.length, envs := envs }) } }

/-- MERGE_START (R176 to R182, R202): outside a merge pause, a free unit takes the ready district round that became ready first;
`badEntries` lists its receive-buffer entries that read uncorrectable. -/
def execMergeStart (o : OfficeId) (badEntries : List Nat) (s : State) : Out :=
  .next (
    if s.owns o = false ∨ (s.off o).inReset ∨ s.now < (s.off o).mrg.pauseUntil then s
    else
      match (s.off o).freeUnit, (s.off o).nextReady with
      | some u, some k => s.mergeRound o u k badEntries
      | _, _ => s)

/-- Notices that a round raises once (R179, R181). -/
def State.roundNotices (s : State) (o : OfficeId) (r : Nat) : State :=
  let a := Sparse.get {} (s.off o).roundAcc r
  let s := [(0 : Fin 4), 1, 2, 3].foldl (fun s t =>
    if a.corrupt.get t = 0 then s else s.raise o 0x0302 (le 1 t.val ++ le 6 r ++ le 4 (a.corrupt.get t))) s
  if a.rxDistricts = 0 then s else s.raise o 0x0305 (le 6 r ++ le 2 a.rxDistricts ++ le 4 a.rxLetters)

/-- Parcels in the order of R350: tile, then fire tick under R11. -/
def parcelBefore (p q : Parcel) : Bool :=
  decide (p.tile < q.tile) || (decide (p.tile = q.tile) && !later p.fireTick q.fireTick)

/-- A RUNNING campaign that has matched `CAMP_FLASHES` flashes moves to EVALUATING when a round ends (R631, log
entry 23). -/
def State.campaignCount (s : State) (o : OfficeId) : State :=
  let n := s.rd o F.EMT_CAL_CAMP_CAMP_FLASHES
  if s.rd o F.EMT_CAL_STAT_STATE = 1 ∧ n ≠ 0 ∧ n ≤ s.rd o F.EMT_CAL_STAT_FLASHES then s.wr o F.EMT_CAL_STAT_STATE 2 else s

/-- What an office keeps once round `r` has been merged: nothing of it but the district rounds whose close frame is still to come (R135,
R143), and nothing of rounds that no frame can name any more (R140). -/
def Office.pruneRounds (d : Office) (r : Nat) : Office :=
  let old := fun n => roundLt n (roundBack r 2048)
  { d with rounds := d.rounds.filter fun e => (e.1 / 256 ≠ r || (e.2.noClose && e.2.close.isNone)) && !old (e.1 / 256)
           roundNotes := d.roundNotes.filter fun e => !old (e.1 / 4) }

/-- The end of a round's merge: `SORT_MG_ROUND`, its parcels after its envelopes, and its notices (R221, R350). -/
def State.roundMerged (s : State) (o : OfficeId) (r : Nat) : State :=
  let round := BitVec.ofNat 48 r
  let mine := ((s.off o).parcels.filter fun p => roundLe p.round.toNat r).mergeSort parcelBefore
  let s := mine.foldl (fun s p => s.handOver o round (.par { p with round := round })) s
  let s := (s.endRound o round).modOff o fun d =>
    { d with parcels := d.parcels.filter fun p => roundLt r p.round.toNat }
  let s := s.roundNotices o r
  let s := s.wrPair o F.SORT_MG_ROUND_LO_ROUND_L F.SORT_MG_ROUND_HI_ROUND_H r
  let s := s.modOff o fun d =>
    Office.pruneRounds { d with districtLetters := (Sparse.get {} d.roundAcc r).letters, roundAcc := Sparse.erase d.roundAcc r } r
  s.campaignCount o

/-- Goes on to the next rounds merged once those before have been handed over (R663). -/
def Office.nextSpan (d : Office) : Office :=
  match d.spans with
  | (_, some b) :: x :: rest => if roundLe b (d.nextKey / 256) then { d with spans := x :: rest, nextKey := x.1 * 256 } else d
  | _ => d

/-- Hands over finished district rounds while their turn has come (R180); `fuel` bounds them. -/
def State.handFinished (s : State) (o : OfficeId) : Nat → State
  | 0 => s
  | fuel + 1 =>
    let k := (s.off o).nextKey
    match Sparse.get none (s.off o).mrg.held k with
    | none => s
    | some envs =>
      let s := s.planRound o (BitVec.ofNat 48 (k / 256))
      let s := envs.foldl (fun s e => s.handOver o e.round (.env e)) s
      let s := s.modOff o fun d =>
        { d with nextKey := (k + 1) % 2 ^ 56, mrg := { d.mrg with held := Sparse.erase d.mrg.held k } }.nextSpan
      (if k % 256 = 255 then s.roundMerged o (k / 256) else s).handFinished o fuel

/-- MERGE_COMPLETE (R176, R180, R185 to R190): the unit has read its letters at one per office core clock; its envelopes
are handed over in order, and held until every earlier one has been. Every envelope of a district round that is cut or split counts. -/
def execMergeComplete (o : OfficeId) (unit : Fin 8) (s : State) : Out :=
  .next (
    match Sparse.get none (s.off o).mrg.units unit.val with
    | none => s
    | some m =>
      if s.now < m.startAt + 2 * m.letters then s
      else
        let s := s.countBy o F.SORT_MG_CNT_CONT_COUNT (if m.envs.length ≤ 1 then 0 else m.envs.length)
        let s := s.modAcc o (m.key / 256) fun a => { a with letters := Sparse.set 0 a.letters (m.key % 256) m.letters }
        let s := s.modOff o fun d =>
          { d with mrg := { d.mrg with units := Sparse.set none d.mrg.units unit.val none
                                       held := Sparse.set none d.mrg.held m.key (some m.envs) } }
        s.handFinished o ((s.off o).mrg.held.length + 1))

/-! ### Changes between the merges of two rounds (R202, R203, R216) -/

/-- Whether no round is half merged (R202). -/
def Office.betweenRounds (d : Office) : Bool :=
  d.mrg.held.isEmpty && decide (d.nextKey % 256 = 0) && (List.range 8).all fun u => (Sparse.get none d.mrg.units u).isNone

/-- Clears word 2 of channels `first` to `last` in full, `WTAG` at the current window (R203). -/
def State.clearHits (s : State) (o : OfficeId) (first last : Nat) : State :=
  let tag := s.currentWindow o % 16
  (List.range (last + 1 - first)).foldl (fun s i =>
    let ch := first + i
    let bad := (s.off o).contextBad ch
    (s.arrWrite o 0 (ch * 4 + 2) tag).contextWritten o (ch * 4 + 2) bad) s

/-- Clears the accumulators of a campaign outside the contexts (R631). -/
def State.clearAccumulators (s : State) (o : OfficeId) : State :=
  let s := s.modOff o fun d =>
    { d with cal := { d.cal with lastFlash := [], flashHits := [], walkN := [], walkS := [], offsets := [], walk := [] } }
  ((s.wr o F.EMT_CAL_XN_XN 0).wr o F.EMT_CAL_XSUM_XSUM 0).wr o F.EMT_CAL_STAT_FLASHES 0

/-- Clears word 3 of every context, and the accumulators (R631, R207). -/
def State.clearCampaign (s : State) (o : OfficeId) : State :=
  let s := (List.range (2 ^ 20)).foldl (fun s ch =>
    if (s.off o).arrData 0 (ch * 4 + 3) = 0 ∧ (s.off o).arrSyn 0 (ch * 4 + 3) = 0 then s
    else
      let bad := (s.off o).contextBad ch
      (s.arrWrite o 0 (ch * 4 + 3) 0).contextWritten o (ch * 4 + 3) bad) s
  s.clearAccumulators o

/-- A campaign is aborted (R632). -/
def State.abortCampaign (s : State) (o : OfficeId) (cause : Nat) : State :=
  let st := s.rd o F.EMT_CAL_STAT_STATE
  if st = 1 ∨ st = 3 then
    ((s.wr o F.EMT_CAL_STAT_STATE 0).wr o F.EMT_CAL_STAT_CAUSE cause).raise o 0x0D13 (le 1 cause)
  else s

/-- Whether items touch context word 1 or a timing table (R632). -/
def touchesTiming (items : List Item) : Bool :=
  items.any fun it => it.places.any fun a =>
    (decide (0x1000000 ≤ a) && decide (a < 0x1400000)) || (decide (0x0380000 ≤ a) && decide (a < 0x0390000)) ||
      (decide (0x2000000 ≤ a) && decide (a < 0x4000000) && decide (a / 8 % 4 = 1))

/-- Refreshes word `w` of an array (R681): poisoned words and the words rewritten are counted. -/
def State.refreshWord (s : State) (o : OfficeId) (a w : Nat) (acc : Nat × Nat × Option Nat) : State × (Nat × Nat × Option Nat) :=
  match (s.off o).arrClass a w with
  | .clean => (s, acc)
  | .correctable =>
    let p := (s.off o).place a w
    let data := (s.off o).arrRead a w
    ((s.arrTouch o a w).putWord o p.1 p.2 data 0, (acc.1 + 1, acc.2.1, acc.2.2))
  | .uncorrectable => (s.arrTouch o a w, (acc.1, acc.2.1 + 1, some (acc.2.2.getD w)))

/-- The words of a page of an array (R676, R709). -/
def pageRange (a page : Nat) : List Nat :=
  ((List.range (pageWords a)).map fun k => page * pageWords a + k).filter (wordExists a)

/-- Frees the tracker entries of a page (R680). -/
def State.freePage (s : State) (o : OfficeId) (a page : Nat) : State :=
  (List.range 64).foldl (fun s k =>
    if s.rd o F.ERR_RT_STAT_VALID k = 1 ∧ s.rd o F.ERR_RT_STAT_ARRAY k = a ∧
        s.rd o F.ERR_RT_ADDR_WORD k / pageWords a = page then s.freeTracker o k
    else s) s

/-- Ends a page command (R691). -/
def State.pageResult (s : State) (o : OfficeId) (result repaired poisoned : Nat) : State :=
  (((s.wr o F.ERR_PAGE_CMD_BUSY 0).wr o F.ERR_PAGE_RES_RESULT result).wr o F.ERR_PAGE_RES_REPAIRED repaired).wr o
    F.ERR_PAGE_RES_POISONED poisoned

/-- Refreshes a page (R681). -/
def State.refreshPage (s : State) (o : OfficeId) (a page : Nat) : State :=
  let r := (pageRange a page).foldl (fun (x : State × (Nat × Nat × Option Nat)) w => x.1.refreshWord o a w x.2) (s, (0, 0, none))
  let s := (r.1.freePage o a page).pageResult o 0 r.2.1 r.2.2.1
  let s := match r.2.2.2 with
    | some w => s.raise o 0x0F21 (le 1 a ++ le 4 w)
    | none => s
  s.raise o 0x0F22 (le 1 a ++ le 3 page ++ le 2 r.2.1 ++ le 2 r.2.2.1)

/-- Copies a page into a spare, word by word with correction; a poisoned word stays poisoned (R682). -/
def State.copyPage (s : State) (o : OfficeId) (a page spare : Nat) : State :=
  let s := (List.range 512).foldl (fun s k =>
    let w := page * 512 + k
    let c := (s.off o).arrClass a w
    let data := if c = .uncorrectable then (s.off o).arrData a w else (s.off o).arrRead a w
    (s.arrTouch o a w).putWord o 7 (spare * 512 + k) data (if c = .uncorrectable then 3 else 0)) s
  s.modOff o fun d =>
    { d with spareOf := Sparse.set 0 d.spareOf (if a = 0 then page else 2 ^ 20 + page) (spare + 1) }

/-- Shows the spares in use and the staging pages excluded (R691). -/
def State.refreshSpares (s : State) (o : OfficeId) : State :=
  (s.wr o F.ERR_SPARE_SPARES_USED (s.off o).spareOf.length).wr o F.ERR_SPARE_STAGE_RET
    ((s.off o).sto.retired.length + (s.off o).sto.leaving.length)

/-- An amendment has been applied: counted, and reported by the owner (R492, R512). -/
def State.amendmentApplied (s : State) (o : OfficeId) (seq amdId : Nat) : State :=
  let s := s.countUp o F.SEC_CNT_AMD_COUNT
  if s.owns o then s.raise o 0x0904 (le 4 seq ++ le 8 amdId) else s

/-- A delta has been applied: the campaign's own ends its APPLYING, one of another origin aborts a campaign (R631, R632). The
owner reports it (R638). -/
def State.deltaApplied (s : State) (o : OfficeId) (seq : Nat) (items : List Item) : State :=
  let mine := s.rd o F.EMT_CAL_STAT_STATE = 4 ∧ !items.any fun it => it.touches 0x1000000 0x1400000
  let s := if mine then s.wr o F.EMT_CAL_STAT_STATE 0 else s.abortCampaign o 3
  if s.owns o then s.raise o 0x0D12 (le 4 seq ++ le 1 0) else s

/-- The words of the arrays 0x0 to 0x3 that items write; elements of one word that follow each other are written together. -/
def writtenWords (items : List Item) : Nat :=
  let ws := (items.flatMap Item.places).filterMap fun a => (arrayAt a).filter fun p => p.1 ≤ 3
  (ws.foldl (fun (acc : Nat × Option (Nat × Nat)) p => if acc.2 = some p then acc else (acc.1 + 1, some p)) (0, none)).1

/-- The ticks that `n` words take at four per office core clock (R202). -/
def pauseTicks (n : Nat) : Nat := 2 * ((n + 3) / 4)

/-- Merging pauses for the time that the writes of `n` words take (R202). -/
def State.pauseMerge (s : State) (o : OfficeId) (n : Nat) : State :=
  s.modOff o fun d => { d with mrg := { d.mrg with pauseUntil := s.now + pauseTicks n } }

/-- Applies one job of the gap between two rounds (R202, R203), which pauses merging for the time of its writes; the pause of a clear is
the time until CONTEXT_CLEAR_DONE. Notice 0x0340 gives the whole microseconds of the pause (DESIGN CHOICE, log entry 90). -/
def State.applyJob (s : State) (o : OfficeId) : CtxJob → State
  | .items seq amdId delta items =>
    let s := (s.applyItems o false seq.toNat items).wr o F.SORT_CAL_EPOCH_EPOCH seq.toNat
    let n := writtenWords items
    let s := ((s.sendFrontEnds o).reloadProfiles o items).pauseMerge o n
    let s := if s.owns o then s.raise o 0x0340 (le 4 seq.toNat ++ le 4 (pauseTicks n / 1500)) else s
    if delta then s.deltaApplied o seq.toNat items
    else
      let s := if touchesTiming items then s.abortCampaign o 3 else s
      s.amendmentApplied o seq.toNat amdId.toNat
  | .clear first last => (s.clearHits o first last).wr o F.SORT_CTX_CLR_BUSY 0
  | .campaign => (s.clearCampaign o).pauseMerge o (2 ^ 20)
  | .refresh a page => (s.refreshPage o a page).pauseMerge o (pageWords a)
  | .retire a page spare =>
    let s := (((s.copyPage o a page spare).freePage o a page).refreshSpares o).pauseMerge o (pageWords a)
    if s.owns o ∧ s.flag o F.ERR_PAGE_CMD_BUSY then s.pageResult o 0 0 0 else s

/-- CONTEXT_CHANGE_APPLY (R202, R216): between the merges of two rounds, the first change that waits is applied. -/
def execContextChangeApply (o : OfficeId) (s : State) : Out :=
  .next (
    if (s.off o).inReset ∨ (s.off o).betweenRounds = false then s
    else
      match (s.off o).mrg.jobs with
      | [] => s
      | .clear f l :: js =>
        if js = [] then s
        else (s.modOff o fun d => { d with mrg := { d.mrg with jobs := js ++ [.clear f l] } })
      | j :: js => (s.modOff o fun d => { d with mrg := { d.mrg with jobs := js } }).applyJob o j)

/-- CONTEXT_CLEAR_START (R203, R228): refused while BUSY or with `FIRST` above `LAST`. -/
def execContextClearStart (o : OfficeId) (v : W32) (s : State) : Out :=
  .next (
    let addr := F.SORT_CTX_CLR_START.off
    let busy := s.flag o F.SORT_CTX_CLR_BUSY
    let first := F.SORT_CTX_CLR_FIRST.part v.toNat
    let last := s.rd o F.SORT_CTX_CLR_LAST_LAST
    let cause := if busy then some 0 else if last < first then some 1 else none
    if bitsOf v.toNat 31 1 = 0 then (s.hostWrite o addr v.toNat).1
    else if s.takesWrites o = false then s
    else
      let s := s.journal o addr v.toNat true
      if s.owns o = false then s
      else
        match cause with
        | some c => s.raise o 0x0304 (le 4 v.toNat ++ le 1 c)
        | none =>
          ((s.storeReg o addr v.toNat).wr o F.SORT_CTX_CLR_BUSY 1).modOff o fun d =>
            { d with mrg := { d.mrg with jobs := d.mrg.jobs ++ [.clear first last] } })

/-- CONTEXT_CLEAR_DONE (R203): between the merges of two rounds, the clear has been written; `BUSY` reads 0. -/
def execContextClearDone (o : OfficeId) (s : State) : Out :=
  .next (
    if (s.off o).inReset ∨ (s.off o).betweenRounds = false then s
    else
      match (s.off o).mrg.jobs.find? fun j => match j with
          | .clear _ _ => true
          | _ => false with
      | some j => (s.modOff o fun d => { d with mrg := { d.mrg with jobs := d.mrg.jobs.erase j } }).applyJob o j
      | none => s)

/-- SORT_MG_CNT_CLR (R225). -/
def execSortMgCntClr (o : OfficeId) (v : W32) (s : State) : Out :=
  .next (s.clearWrite o F.SORT_MG_CNT_CLR_RXDROP.off v.toNat 0
    [F.SORT_MG_CNT_NOCLOSE_COUNT, F.SORT_MG_CNT_CORRUPT_COUNT, F.SORT_MG_CNT_MASKED_COUNT, F.SORT_CTX_CNT_PDROP_COUNT,
     F.SORT_RT_CNT_UNDELIV_COUNT, F.SORT_MG_CNT_CONT_COUNT, F.SORT_MG_CNT_RXDROP_COUNT])

end Sys2Proof.Machine
end

