-- ==== Sys2Proof/Machine/Store.lean ====
section
/-! DEFINITION. The event store: map and writes, sacks, the index, the loss log (07 R267 to R294, R299 to R303,
R307, R308). The rows of 07 are in StoreRows. -/

namespace Sys2Proof.Machine

/-- Changes the store of an office. -/
def State.modSto (s : State) (o : OfficeId) (f : Store → Store) : State := s.modOff o fun d => { d with sto := f d.sto }

/-- The MODID of the module (R686). -/
def State.moduleId (s : State) (o : OfficeId) : Nat := s.rd o F.GLB_WHO_MODID

/-- States of `STO_STAT.STATE` (R314). -/
def storeOff : Nat := 0
def storeFormatting : Nat := 1
def storeIsOn : Nat := 2
def storeFailed : Nat := 3

/-- Whether the store is ON. -/
def State.storeOn (s : State) (o : OfficeId) : Bool := s.rd o F.STO_STAT_STATE = storeIsOn

/-- Bytes of a sack (R270). -/
def State.sackLen (s : State) (o : OfficeId) : Nat := 2 ^ s.rd o F.STO_CFG_SACK_LOG2

/-- A sack table entry. -/
def Store.sack (t : Store) (k : Nat) : Sack := Sparse.get {} t.sacks k

/-- Changes an entry. -/
def State.modSack (s : State) (o : OfficeId) (k : Nat) (f : Sack → Sack) : State :=
  s.modSto o fun t => { t with sacks := Sparse.update {} t.sacks k f }

/-! ### The map (R267, R270, R302) -/

/-- The base of data region `k`. -/
def State.rgnBase (s : State) (o : OfficeId) (k : Nat) : Nat :=
  s.rd o F.STO_RGN_BASE_LO_BASE_L k + s.rd o F.STO_RGN_BASE_HI_BASE_H k * 2 ^ 32

/-- Bytes of data region `k`. -/
def State.rgnLen (s : State) (o : OfficeId) (k : Nat) : Nat := s.rd o F.STO_RGN_SIZE_SIZE k * 2 ^ 20

/-- The base of index region `c`. -/
def State.idxBase (s : State) (o : OfficeId) (c : Nat) : Nat :=
  s.rd o F.STO_IDX_BASE_LO_BASE_L c + s.rd o F.STO_IDX_BASE_HI_BASE_H c * 2 ^ 32

/-- Bytes of index region `c`. -/
def State.idxLen (s : State) (o : OfficeId) (c : Nat) : Nat := s.rd o F.STO_IDX_SIZE_SIZE c * 4096

/-- The enabled data regions of a copy, ascending (R270). -/
def State.dataRegions (s : State) (o : OfficeId) (c : Nat) : List Nat :=
  (List.range 8).filter fun k => s.rd o F.STO_RGN_CTL_EN k = 1 && s.rd o F.STO_RGN_CTL_COPY k = c

/-- The copies in use. -/
def State.copies (s : State) (o : OfficeId) : List Nat :=
  (if s.flag o F.STO_STAT_COPY0_OK then [0] else []) ++ (if s.flag o F.STO_STAT_COPY1_OK then [1] else [])

/-- The region of a list that holds a store-space byte, and its bus address (R270). -/
def State.locateIn (s : State) (o : OfficeId) : List Nat → Nat → Option (Nat × Nat)
  | [], _ => none
  | k :: ks, off =>
    if off < s.rgnLen o k then some (k, s.rgnBase o k + off) else s.locateIn o ks (off - s.rgnLen o k)

/-- The region and bus address of a store-space byte in a copy. -/
def State.locate (s : State) (o : OfficeId) (c off : Nat) : Option (Nat × Nat) := s.locateIn o (s.dataRegions o c) off

/-- The region of a sack in a copy. -/
def State.regionOfSack (s : State) (o : OfficeId) (c k : Nat) : Option Nat :=
  (s.locate o c (k * s.sackLen o)).map (·.1)

/-- Whether a sack lies in a failed region of every copy in use. -/
def State.sackFailed (s : State) (o : OfficeId) (k : Nat) : Bool :=
  (s.copies o).all fun c => (s.regionOfSack o c k).any fun r => s.rd o F.STO_RGN_CTL_FAILED r = 1

/-! ### Writes (R267, R715) -/

/-- Whether a region takes the ordered path. -/
def State.isOrdered (s : State) (o : OfficeId) (region : Nat) : Bool :=
  if region < 8 then s.rd o F.STO_RGN_CTL_PATH region = 1 else s.rd o F.STO_IDX_CTL_PATH (region - 8) = 1

/-- Confirmation state of a region. -/
def Store.ioOf (t : Store) (region : Nat) : RegionIo := Sparse.get {} t.io region

/-- Writes issued to a region and not done. -/
def Store.pendOf (t : Store) (region : Nat) : List PendWrite := t.pend.filter fun w => w.region = region

/-- Issues a confirmation read, or notes it as due while one is outstanding (R267). -/
def State.confirm (s : State) (o : OfficeId) (region : Nat) : State :=
  let t := (s.off o).sto
  let r := t.ioOf region
  let set := fun (x : RegionIo) => s.modSto o fun t => { t with io := Sparse.set {} t.io region x }
  if s.isOrdered o region = false then s
  else if t.pendOf region = [] then set { r with due := false, since := 0 }
  else if r.cover.isSome then set { r with due := true, since := 0 }
  else
    let s := set { r with cover := some (t.pendOf region).length, due := false, since := 0, retried := false }
    if s.storeReady o then s.postRead o r.lastAddr 0 else s

/-- Issues a store write; it waits for the port where that is down (R297, R715). After 256 KiB a confirmation falls due, which reads
the last address written (R267). -/
def State.issueWrite (s : State) (o : OfficeId) (region addr : Nat) (bytes : List Byte) (round : Option Round) : State :=
  let s := s.modSto o fun t =>
    let r := t.ioOf region
    { t with
      pend := t.pend ++ [{ region := region, addr := addr, bytes := bytes, round := round, retried := false }]
      lastDoneAt := if t.pend = [] then s.now else t.lastDoneAt
      io := if s.isOrdered o region then
          Sparse.set {} t.io region { r with since := r.since + bytes.length, lastAddr := addr + bytes.length - 1 } else t.io }
  let s := if s.storeReady o then s.postWrite o addr bytes else s
  if 262144 ≤ ((s.off o).sto.ioOf region).since then s.confirm o region else s

/-- Issues the writes of a span: on the ordered path cut where 256 KiB have been written to the region (R267). -/
def State.storeWrite (s : State) (o : OfficeId) (region addr : Nat) (bytes : List Byte) (round : Option Round) : State :=
  let since := ((s.off o).sto.ioOf region).since
  if s.isOrdered o region = false ∨ since + bytes.length ≤ 262144 then s.issueWrite o region addr bytes round
  else
    (cutAligned 262144 (bytes.length / 262144 + 1) since bytes.length).foldl (fun s p =>
      s.issueWrite o region (addr + (p.1 - since)) ((bytes.drop (p.1 - since)).take p.2) round) s

/-- Writes bytes of a sack to every copy in use (R302). -/
def State.storeData (s : State) (o : OfficeId) (sack off : Nat) (bytes : List Byte) (round : Round) : State :=
  (s.copies o).foldl (fun s c =>
    match s.locate o c (sack * s.sackLen o + off) with
    | some p => s.storeWrite o p.1 p.2 bytes (some round)
    | none => s) s

/-- Confirms the regions of a sack after the last write of a run (R267). -/
def State.confirmSack (s : State) (o : OfficeId) (sack : Nat) : State :=
  (s.copies o).foldl (fun s c =>
    match s.regionOfSack o c sack with
    | some r => s.confirm o r
    | none => s) s

/-- Writes bytes of the index region of a copy; a confirmation follows on the ordered path (log entry 24). -/
def State.indexWriteTo (s : State) (o : OfficeId) (c off : Nat) (bytes : List Byte) : State :=
  (s.storeWrite o (8 + c) (s.idxBase o c + off) bytes none).confirm o (8 + c)

/-- Writes bytes of the index of every copy in use. -/
def State.indexWrite (s : State) (o : OfficeId) (off : Nat) (bytes : List Byte) : State :=
  (s.copies o).foldl (fun s c => s.indexWriteTo o c off bytes) s

/-- Sends every write not yet done again, and the confirmations that covered them (R715). -/
def State.resendStore (s : State) (o : OfficeId) : State :=
  let t := (s.off o).sto
  let s := t.pend.foldl (fun s w => s.postWrite o w.addr w.bytes) s
  (List.range 10).foldl (fun s r =>
    let s := s.modSto o fun t => { t with io := Sparse.update {} t.io r fun x => { x with cover := none, due := false } }
    if t.pendOf r = [] then s else s.confirm o r) s

/-! ### The index (R281 to R284) -/

/-- Bytes with their CRC-32C after them. -/
def withCrc (b : List Byte) : List Byte := b ++ le 4 (crc32c b).toNat

/-- A sack table entry as stored (R282). -/
def Sack.bytes (e : Sack) (module k : Nat) : List Byte :=
  let flags := b2n e.pinned + 2 * b2n e.spill + 4 * b2n e.loss + 8 * b2n e.single + 16 * b2n e.released
  withCrc (le 2 0x5AC1 ++ le 1 1 ++ le 1 e.state ++ le 1 module ++ le 1 flags ++ le 1 e.rshift ++ le 1 0 ++ le 4 k ++
    le 4 e.gen ++ le 6 e.first ++ le 2 0 ++ le 6 e.last ++ le 2 0 ++ le 4 e.next ++ le 4 e.head ++ le 4 e.used ++
    le 4 e.rounds ++ le 8 e.seq ++ le 4 0)

/-- A loss record as stored (R284). -/
def LossRec.bytes (l : LossRec) (module : Nat) : List Byte :=
  withCrc (le 2 0xD0A7 ++ le 1 1 ++ le 1 l.cause ++ le 1 module ++ le 1 l.district ++ le 1 (b2n l.all + 2 * b2n l.chain) ++
    le 1 0 ++ le 6 l.first.toNat ++ le 2 0 ++ le 4 l.rounds ++ le 4 l.sack ++ le 4 l.lseq)

/-- The index header of a copy (R281). -/
def State.indexHeader (s : State) (o : OfficeId) (c : Nat) : List Byte :=
  let t := (s.off o).sto
  withCrc (le 2 0x1DE5 ++ le 1 1 ++ le 1 (s.moduleId o) ++ le 1 (s.rd o F.STO_CFG_SACK_LOG2) ++
    le 1 (s.rd o F.STO_CFG_LOSS_LOG2) ++ le 1 c ++ le 1 0 ++ le 4 t.count ++ le 4 0 ++ t.formatted.bytes ++
    List.replicate 28 0)

/-- Writes the entry of a sack (R283). -/
def State.writeEntry (s : State) (o : OfficeId) (k : Nat) : State :=
  s.indexWrite o (4096 + 64 * k) (((s.off o).sto.sack k).bytes (s.moduleId o) k)

/-! ### What is present (R277, R288, R315, R316) -/

/-- The last round of a sack whose run is whole: one that spilled is whole while the `NEXT` sack holds the filling that
was opened next and can be read (R277). -/
def Store.lastWhole (t : Store) (e : Sack) : Option Nat :=
  let new := t.newest.getD 0
  let last := if roundLe e.last new then e.last else new
  let n := t.sack e.next
  let gone := decide (n.seq ≠ e.seq + 1) || n.entryFault || decide (n.state = 3)
  let cut := e.spill && gone && decide (last = e.last)
  if e.rounds = 0 ∨ t.newest.isNone ∨ roundLt last e.first then none
  else if cut then (if roundLt e.first last then some (roundBack last 1) else none)
  else some last

/-- The stored rounds that start in a sack. -/
def Store.present (t : Store) (e : Sack) : Option (Nat × Nat) :=
  if e.entryFault ∨ (e.state ≠ 1 ∧ e.state ≠ 2) then none else (t.lastWhole e).map fun l => (e.first, l)

/-- The oldest round stored. -/
def Store.oldest (t : Store) : Option Nat :=
  (t.sacks.foldl (fun (b : Option (Nat × Nat)) x =>
    match t.present x.2 with
    | some p =>
      match b with
      | some y => if x.2.seq < y.1 then some (x.2.seq, p.1) else b
      | none => some (x.2.seq, p.1)
    | none => b) none).map (·.2)

/-- The newest round stored. -/
def Store.newestPresent (t : Store) : Option Nat :=
  (t.sacks.foldl (fun (b : Option (Nat × Nat)) x =>
    match t.present x.2 with
    | some p =>
      match b with
      | some y => if y.1 < x.2.seq then some (x.2.seq, p.2) else b
      | none => some (x.2.seq, p.2)
    | none => b) none).map (·.2)

/-- The sack being written and the next byte in it: the sack that holds the tail of the last run, where that spilled (R271, R315). -/
def Store.place (t : Store) : Option (Nat × Nat) :=
  match t.ahead.head? with
  | some a => if a.head ≠ 0 then some (a.sack, 64 + a.head) else t.cur.map fun k => (k, t.off)
  | none => t.cur.map fun k => (k, t.off)

/-- Sets `STO_OLDEST`, `STO_NEWEST`, the write pointer and the sack counts (R315, R316). -/
def State.refreshStore (s : State) (o : OfficeId) : State :=
  let t := (s.off o).sto
  let old := t.oldest
  let new := t.newestPresent.getD 0
  let s := s.wrPair o F.STO_OLDEST_LO_ROUND_L F.STO_OLDEST_HI_ROUND_H (old.getD 0)
  let s := s.wrPair o F.STO_NEWEST_LO_ROUND_L F.STO_NEWEST_HI_ROUND_H new
  let s := match t.place with
    | some p => (s.wr o F.STO_WP_HI_SACK p.1).wr o F.STO_WP_LO_OFFSET p.2
    | none => s
  let s := s.wr o F.STO_SACKS_TOTAL_COUNT t.count
  let s := s.wr o F.STO_SACKS_PINNED_COUNT (t.sacks.filter fun e => e.2.pinned).length
  let dead := (List.range t.count).filter fun k =>
    let e := t.sack k
    decide (e.state = 3) || e.entryFault || s.sackFailed o k
  s.wr o F.STO_SACKS_FAULT_COUNT dead.length

/-- Bytes in staging (R295). -/
def Store.fill (t : Store) : Nat := t.staged.foldl (fun n x => n + x.item.bytes.length) 0

/-- Bytes staging has room for in all (R295, R682). -/
def Store.room (t : Store) : Nat := 64 * 2 ^ 20 - 65536 * t.retired.length

/-- Whether a span of staging touches a page. -/
def touchesPage (addr len page : Nat) : Bool := decide (addr < (page + 1) * 65536) && decide (page * 65536 < addr + len)

/-- Where `len` bytes go in staging: past every page that is out of use or leaves it (R682); `fuel` bounds the pages. -/
def Store.stageAt (t : Store) (len : Nat) : Nat → Nat → Nat
  | 0, a => a
  | fuel + 1, a =>
    match (t.retired ++ t.leaving).find? (touchesPage a len) with
    | some p => t.stageAt len fuel ((p + 1) * 65536 % (64 * 2 ^ 20))
    | none => a

/-- Pages that leave use do so when they hold no data (R682). -/
def Store.settleLeaving (t : Store) : Store :=
  let busy := fun p => t.staged.any fun x => touchesPage x.addr x.item.bytes.length p
  { t with retired := t.retired ++ t.leaving.filter (fun p => !busy p), leaving := t.leaving.filter busy }

/-- Sets `STO_STAGE` (R316). -/
def State.refreshFill (s : State) (o : OfficeId) : State :=
  let s := s.modSto o Store.settleLeaving
  let f := (s.off o).sto.fill / 65536
  (s.wr o F.STO_STAGE_FILL f).wr o F.STO_STAGE_PEAK (max f (s.rd o F.STO_STAGE_PEAK))

/-! ### Losses (R284 to R287) -/

/-- The notice of a loss record (R322, R673). -/
def State.lossNotice (s : State) (o : OfficeId) (l : LossRec) : State :=
  s.raise o 0x0502 (le 4 l.lseq ++ le 1 l.cause ++ le 1 (b2n l.all + 2 * b2n l.chain) ++ le 1 l.district ++
    le 6 l.first.toNat ++ le 4 l.rounds)

/-- The last of the loss buffer covers a new loss as well when the buffer is full (R286). -/
def LossRec.cover (l n : LossRec) : LossRec :=
  let first := if later l.first n.first then n.first else l.first
  let endOf := fun (x : LossRec) => (x.first - first).toNat + x.rounds
  let other := l.all || n.all || decide (l.district ≠ n.district)
  { l with
    cause := n.cause, all := other, district := if other then 0 else l.district, chain := l.chain || n.chain
    first := first, rounds := max (endOf l) (endOf n) }

/-- Records a loss: extends the last unwritten record, adds one, or changes the newest of a full buffer (R286). -/
def State.addLoss (s : State) (o : OfficeId) (cause district : Nat) (all chain : Bool) (first : Round) (rounds : Nat) : State :=
  let t := (s.off o).sto
  let n : LossRec := { cause := cause, district := district, all := all, chain := chain, first := first, rounds := rounds,
                       sack := s.rd o F.STO_WP_HI_SACK, lseq := t.lseq }
  let put := fun (l : LossRec) (b : List LossRec) (q : Nat) =>
    (s.modSto o fun t => { t with lossBuf := b ++ [l], lseq := q }).lossNotice o l
  match t.lossBuf.getLast? with
  | some l =>
    if l.cause = cause ∧ l.all = all ∧ l.district = district ∧ l.first + BitVec.ofNat 48 l.rounds = first then
      put { l with rounds := l.rounds + rounds, chain := l.chain || chain } t.lossBuf.dropLast t.lseq
    else if 256 ≤ t.lossBuf.length then put (l.cover n) t.lossBuf.dropLast t.lseq
    else put n t.lossBuf ((t.lseq + 1) % 2 ^ 32)
  | none => put n t.lossBuf ((t.lseq + 1) % 2 ^ 32)

/-- Appends the loss buffer to the log of every copy in use (R286). -/
def State.flushLosses (s : State) (o : OfficeId) : State :=
  let t := (s.off o).sto
  let m := 2 ^ s.rd o F.STO_CFG_LOSS_LOG2
  let base := 4096 + 64 * t.count
  if s.storeOn o = false ∨ s.owns o = false ∨ s.storeReady o = false then s
  else
    let r := t.lossBuf.foldl (fun (x : State × Nat) l =>
      (x.1.indexWrite o (base + 32 * (x.2 % m)) (l.bytes (s.moduleId o)), x.2 + 1)) (s, t.logTail)
    r.1.modSto o fun t => { t with lossBuf := [], logTail := r.2 }

/-! ### Dropped rounds (R293, R295, R300, R301) -/

/-- Marks at which the data mailbags close at the end of a round: `CLOSE` ROUND, or SLICE after the last round of a
slice (R456). -/
def State.roundMarks (s : State) (o : OfficeId) (r : Nat) : State :=
  let last := decide ((r + 1) % 2 ^ s.rd o F.SORT_RT_CTL_SLICE_SHIFT = 0)
  (s.off o).phs.foldl (fun s e =>
    let c := s.rd o F.PH_CFG_CLOSE e.1
    if c = 0 ∨ (c = 1 ∧ last) then s.queueMark o e.1 else s) s

/-- Drops a round whole: counted and recorded once; the next round decided is a resume point (R276, R295). -/
def State.dropRound (s : State) (o : OfficeId) (r : Round) (cause : Nat) : State :=
  let s := (s.countUp o F.STO_CNT_DROPRND_COUNT).addLoss o cause 0 true false r 1
  let s := s.modOff o fun d =>
    { d with
      cmp := { d.cmp with
        plans := d.cmp.plans.map fun p => if p.round = r then { p with dropped := true } else p
        queue := d.cmp.queue.filter fun x => x.round ≠ r
        coded := d.cmp.coded.filter fun x => x.round ≠ r }
      sto := { d.sto with
        staged := d.sto.staged.filter fun x => x.item.round ≠ r
        ahead := d.sto.ahead.map fun a => if a.opener = some r then { a with opener := none } else a
        resume := true } }
  (s.refreshFill o).roundMarks o r.toNat

/-- Whether an item of a round is in the engines. -/
def Compression.inEngines (c : Compression) (r : Round) : Bool :=
  c.engines.any fun e => e.2.any fun j => j.item.round = r

/-- Forgets dropped rounds of which nothing more comes. -/
def State.purgeDropped (s : State) (o : OfficeId) : State :=
  s.modOff o fun d =>
    let gone := fun (r : Round) => d.cmp.plans.any fun p => p.round = r && p.dropped
    { d with cmp := { d.cmp with
        queue := d.cmp.queue.filter fun x => !gone x.round
        coded := d.cmp.coded.filter fun x => !gone x.round
        plans := d.cmp.plans.filter fun p => !(p.dropped && p.endOrd.isSome && !d.cmp.inEngines p.round) } }

/-! ### Opening and closing sacks (R276 to R279, R283, R293, R294, R303) -/

/-- Closes a sack (R283). -/
def State.closeSack (s : State) (o : OfficeId) (k : Nat) : State :=
  (s.modSack o k fun e => { e with state := 2 }).writeEntry o k

/-- Closes the sack being written, when there is one. -/
def State.closeCurrent (s : State) (o : OfficeId) : State :=
  match (s.off o).sto.cur with
  | some k => (s.closeSack o k).modSto o fun t => { t with cur := none, headed := false }
  | none => s

/-- Whether a sack may be opened, pins apart (R277, R305). -/
def State.openable (s : State) (o : OfficeId) (k : Nat) : Bool :=
  let t := (s.off o).sto
  let e := t.sack k
  decide (e.state ≠ 3) && !e.entryFault && !s.sackFailed o k && decide (e.state ≠ 1) && decide (t.cur ≠ some k) &&
    !t.ahead.any fun a => a.sack = k

/-- The sacks from the one after the last opened, once round (R277). -/
def Store.openOrder (t : Store) : List Nat :=
  let first := match t.lastOpened with
    | some k => k + 1
    | none => 0
  (List.range t.count).map fun i => (first + i) % t.count

/-- Whether a sack is pinned as an opening finds it: an opening goes before the pin commands of its own tick (R291). -/
def Store.pinnedFor (t : Store) (now k : Nat) : Bool :=
  match t.pinsBefore with
  | some (at_, l) => if at_ = now then l.contains k else (t.sack k).pinned
  | none => (t.sack k).pinned

/-- The pinned sack with the lowest `SEQ` among those that may be opened (R293). -/
def State.oldestPin (s : State) (o : OfficeId) : Option Nat :=
  let t := (s.off o).sto
  (t.sacks.foldl (fun (b : Option (Nat × Nat)) x =>
    if t.pinnedFor s.now x.1 ∧ s.openable o x.1 then
      match b with
      | some y => if later (BitVec.ofNat 64 y.1) (BitVec.ofNat 64 x.2.seq) then some (x.2.seq, x.1) else b
      | none => some (x.2.seq, x.1)
    else b) none).map (·.2)

/-- Dropped copies that rejoin at an opening (R303). -/
def State.rejoinCopies (s : State) (o : OfficeId) : State :=
  [(OfficeId.A, 0, F.STO_STAT_COPY0_OK), (.B, 1, F.STO_STAT_COPY1_OK)].foldl (fun s x =>
    if (s.off o).sto.rejoin.get x.1 then
      let s := (s.modSto o fun t => { t with rejoin := t.rejoin.set x.1 false }).wr o x.2.2 1
      (s.indexWriteTo o x.2.1 0 (s.indexHeader o x.2.1)).raise o 0x0505 (le 1 x.2.1 ++ le 1 1)
    else s) s

/-- Opens sack `k` (R277, R302): the next `GEN` and `SEQ`, its entry OPEN. -/
def State.openAt (s : State) (o : OfficeId) (k : Nat) (released : Bool) (opener : Option Round) : State :=
  let s := s.rejoinCopies o
  let single := s.rd o F.STO_CTL_MIRROR = 1 && (s.copies o).length < 2
  let t := (s.off o).sto
  let s := s.modSack o k fun e =>
    { state := 1, released := released, single := single, rshift := s.svc.roundShift, gen := (e.gen + 1) % 2 ^ 32,
      next := 0xFFFFFFFF, seq := t.nextSeq }
  let s := s.modSto o fun t =>
    { t with nextSeq := t.nextSeq + 1, lastOpened := some k, ahead := t.ahead ++ [{ sack := k, opener := opener, head := 0 }] }
  (s.writeEntry o k).refreshStore o

/-- A round opens sack `k` after rounds were dropped: `ALLPINNED` and `DROPPING` clear, notice 0x050E (R294, R295). -/
def State.resumedAt (s : State) (o : OfficeId) (r : Round) (k : Nat) : State :=
  if s.flag o F.STO_STAT_ALLPINNED ∨ s.flag o F.STO_STAT_DROPPING then
    ((s.wr o F.STO_STAT_ALLPINNED 0).wr o F.STO_STAT_DROPPING 0).raise o 0x050E (le 6 r.toNat ++ le 4 k)
  else s

/-- A pin command of this tick has pinned a sack that an opening of this tick takes: the opening goes first, so the command is
clipped (R290, R291). -/
def State.clipPin (s : State) (o : OfficeId) : State :=
  (s.wr o F.STO_PIN_RESULT_STATUS 1).wr o F.STO_PIN_RESULT_SACKS (s.rd o F.STO_PIN_RESULT_SACKS - 1)

/-- Opens a sack for round `r`, or for its spill (R277, R293, R294): none when every sack is pinned. -/
def State.openSack (s : State) (o : OfficeId) (r : Round) (opener : Option Round) : State × Bool :=
  let t := (s.off o).sto
  let opened := fun (s : State) (k : Nat) => if opener.isSome then s.resumedAt o r k else s
  match t.openOrder.find? fun k => s.openable o k && !t.pinnedFor s.now k with
  | some k => (opened ((if (t.sack k).pinned then s.clipPin o else s).openAt o k false opener) k, true)
  | none =>
    let stuck := if s.flag o F.STO_STAT_ALLPINNED then s
      else (s.wr o F.STO_STAT_ALLPINNED 1).raise o 0x0506 (le 6 r.toNat)
    if s.flag o F.STO_CFG_AUTO_UNPIN then
      match s.oldestPin o with
      | some k =>
        let s := (s.countUp o F.STO_CNT_AUTOUNPIN_COUNT).raise o 0x0507 (le 4 k ++ le 8 (t.sack k).seq)
        (opened (s.openAt o k true opener) k, true)
      | none => (stuck, false)
    else (stuck, false)

/-- The upper bound of the bytes of a round not yet being written: its mark, its records, 15 bytes before each (R276). -/
def Office.roundBytes (d : Office) (r : Round) : Nat :=
  let c := d.cmp
  let q := c.queue.foldl (fun n x => if x.round = r then n + x.body.plainSize + 15 else n) 32
  let e := c.engines.foldl (fun n x =>
    match x.2 with
    | some j => if j.item.round = r then n + j.item.body.plainSize + 15 else n
    | none => n) q
  let k := c.coded.foldl (fun n x => if x.round = r then n + x.bytes.length + 15 else n) e
  d.sto.staged.foldl (fun n x => if x.item.round = r then n + x.item.bytes.length + 15 else n) k

/-- Free space of the sack the next run goes into, and the bytes that run over into the next, after the rounds of
`ps` (R276). -/
def State.spaceAfter (s : State) (o : OfficeId) : List RoundPlan → Nat → Nat → Nat × Nat
  | [], free, carry => (free, carry)
  | p :: ps, free, carry =>
    let start := if p.opens then (s.sackLen o - 64 - carry, 0) else (free, carry)
    let b := (s.off o).roundBytes p.round
    if b ≤ start.1 then s.spaceAfter o ps (start.1 - b) start.2
    else s.spaceAfter o ps 0 (start.2 + (b - start.1))

/-- The decision for one round: whether it opens a sack (R276 to R278, R293). A round for which no sack can be opened
is dropped. -/
def State.decideRound (s : State) (o : OfficeId) (r : Round) : State :=
  let d := s.off o
  let t := d.sto
  let before := d.cmp.plans.takeWhile (fun p => p.round ≠ r) |>.filter fun p => !p.dropped
  let free := if t.cur.isSome then s.sackLen o - t.off else 0
  let sp := s.spaceAfter o before free ((t.ahead.head?.map (·.head)).getD 0)
  let idle := t.ahead.any fun a => a.opener.isNone
  let opens := t.resume || idle || d.spans.any (fun x => decide (x.1 = r.toNat)) || decide (0 < sp.2) || (t.cur.isNone && t.ahead = []) ||
    decide (sp.1 < 32 + s.rd o F.STO_CFG_GUARD * 16384)
  let mark := fun (s : State) (b : Bool) => s.modOff o fun d =>
    { d with
      cmp := { d.cmp with
        plans := d.cmp.plans.map fun p => if p.round = r then { p with decided := true, opens := b } else p }
      sto := { d.sto with resume := if b then false else d.sto.resume } }
  if opens = false then mark s false
  else if idle then
    let k := ((t.ahead.find? fun a => a.opener.isNone).map (·.sack)).getD 0
    let s := s.modSto o fun t =>
      { t with ahead := t.ahead.map fun a => if a.sack = k then { a with opener := some r } else a }
    ((mark (s.resumedAt o r k) true).addKeyRound o r.toNat)
  else
    let q := s.openSack o r (some r)
    if q.2 then (mark q.1 true).addKeyRound o r.toNat
    else (mark q.1 false).dropRound o r 3

/-- Whether the office accepted a handover whose releasing office has not ceased: no sack is chosen yet (R545 step 7). -/
def Office.awaitsRelease (d : Office) : Bool := decide (d.twin.gainKind = 2) && !d.twin.mayWrite

/-- Whether a round waits for its decision until the releasing office has ceased: compression takes nothing of it before (R236). -/
def Office.undecided (d : Office) (r : Round) : Bool :=
  d.awaitsRelease && d.cmp.plans.any fun p => p.round = r && !p.decided && !p.dropped

/-- Decides every round up to `r` that has not been decided, in order (R276). While the store is not ON no sack opens,
and the rounds are dropped when their turn to be written comes; rounds that are being dropped for want of staging are
not decided (R295). -/
def State.decideUpTo (s : State) (o : OfficeId) (r : Round) : State :=
  if s.storeOn o = false ∨ (s.off o).awaitsRelease then s
  else
    (s.off o).cmp.plans.foldl (fun s p =>
      let held := (s.off o).sto.dropFrom.any (roundLe · p.round.toNat)
      if roundLe p.round.toNat r.toNat ∧ held = false ∧ ((s.off o).cmp.plans.any fun q => q.round = p.round && !q.decided && !q.dropped) then
        s.decideRound o p.round
      else s) s

/-! ### Rounds stored (R269, R310) -/

/-- The pointer mirrored after a round is stored (R310). -/
def State.mirrorPointer (s : State) (o : OfficeId) (w : Run) : State :=
  let t := (s.off o).sto
  let e := t.sack w.sack
  s.mirror o 2 ([w.sack, w.off, e.gen, e.seq, w.round, t.logTail, t.lseq].map (BitVec.ofNat 64))

/-- A round is stored (R269): its staging is freed, and the write pointer is mirrored where no later round has been stored. -/
def State.storeRun (s : State) (o : OfficeId) (w : Run) : State :=
  let newer := (s.off o).sto.newest.any (roundLt w.round)
  let s := s.modSto o fun t =>
    { t with writing := t.writing.filter fun x => x.round ≠ w.round, newest := if newer then t.newest else some w.round
             staged := t.staged.filter fun x => x.item.round.toNat ≠ w.round }
  let s := (s.refreshFill o).refreshStore o
  if newer then s else s.mirrorPointer o w

/-- Takes the rounds whose writes are all done as stored (R269). -/
def State.takeStored (s : State) (o : OfficeId) : State :=
  (s.off o).sto.writing.foldl (fun s w =>
    if (s.off o).sto.pend.any fun p => p.round = some (BitVec.ofNat 48 w.round) then s else s.storeRun o w) s

/-- Whether nothing is left to be stored. -/
def Office.drained (d : Office) : Bool :=
  d.cmp.plans = [] && d.sto.writing = [] && d.spans.all fun x => x.2.any fun r => roundLe r (d.nextKey / 256)

/-- Outside the data modes, once every staged round is stored or dropped, the open sacks close, that of a spilled tail with the rest
(R283, R309); the first round of the next data mode is a resume point. -/
def State.settleStore (s : State) (o : OfficeId) : State :=
  let t := (s.off o).sto
  if (s.mode o).isData = false ∧ (s.off o).drained ∧ (t.cur.isSome ∨ t.ahead ≠ []) then
    let s := t.ahead.foldl (fun s a => s.closeSack o a.sack) (s.closeCurrent o)
    (s.modSto o fun t => { t with ahead := [], resume := true }).refreshStore o
  else s

/-- Forgets dropped rounds, and closes the store where they were the last (R283). -/
def State.endDrops (s : State) (o : OfficeId) : State := (s.purgeDropped o).settleStore o

/-! ### Failures (R299 to R302) -/

/-- The running and queued orders are aborted when the store leaves ON (R355). -/
def State.abortOrders (s : State) (o : OfficeId) : State :=
  s.modOff o fun d =>
    { d with
      orders := d.orders.map fun x => { x with aborted := true }
      running := d.running.map fun e => (e.1, e.2.map fun x => { x with order := { x.order with aborted := true } }) }

/-- Whether the compression of a planned round has begun, and whether it has ended (R295). -/
def Office.planProgress (d : Office) (p : RoundPlan) : Bool × Bool :=
  let waiting := (d.cmp.queue.filter fun x => x.round = p.round).length
  let total := p.endOrd.getD d.cmp.nextOrd - p.firstOrd
  (p.decided || decide (waiting < total), p.endOrd.isSome && decide (waiting = 0) && !d.cmp.inEngines p.round)

/-- Takes an issued run that is dropped out of its sack, whose entry then covers the rounds before it (R300). -/
def State.unwriteRun (s : State) (o : OfficeId) (w : Run) : State :=
  let s := s.modSack o w.start fun e =>
    { e with last := if e.rounds ≤ 1 then e.first else roundBack w.round 1, rounds := e.rounds - 1, used := w.mark, spill := false,
             next := 0xFFFFFFFF }
  s.modSto o fun t =>
    { t with off := if t.cur = some w.start then w.mark else t.off
             ahead := t.ahead.map fun a => if a.sack = w.sack then { a with head := 0 } else a }

/-- Drops every round that is being written, in staging, or in compression (R300, R301); with `all`, also those whose
compression has not begun. -/
def State.dropAllRounds (s : State) (o : OfficeId) (cause : Nat) (all : Bool) : State :=
  let w := (s.off o).sto.writing
  let s := w.foldl (fun s x => s.dropRound o (BitVec.ofNat 48 x.round) cause) s
  let s := w.reverse.foldl (fun s x => s.unwriteRun o x) s
  let s := s.modSto o fun t => { t with writing := [] }
  (s.off o).cmp.plans.foldl (fun s p =>
    if p.dropped || !(all || ((s.off o).planProgress p).1) then s else s.dropRound o p.round cause) s

/-- The sack being written is lost with the rounds stored in it (R300). -/
def State.loseCurrent (s : State) (o : OfficeId) (cause : Nat) : State :=
  match (s.off o).sto.cur with
  | none => s
  | some k =>
    let t := (s.off o).sto
    let p := t.present (t.sack k)
    let s := s.modSto o fun t => { t with cur := none, headed := false, resume := true }
    match p with
    | some q => s.addLoss o cause 0 true false (BitVec.ofNat 48 q.1) ((q.2 + 2 ^ 48 - q.1) % 2 ^ 48 + 1)
    | none => s

/-- A copy is dropped from the mirror (R302). -/
def State.dropCopy (s : State) (o : OfficeId) (c : Nat) : State :=
  let s := s.wr o (if c = 0 then F.STO_STAT_COPY0_OK else F.STO_STAT_COPY1_OK) 0
  let mine := fun (r : Nat) => if r < 8 then s.rd o F.STO_RGN_CTL_COPY r = c else r = 8 + c
  let s := s.modSto o fun t =>
    { t with
      pend := t.pend.filter fun w => !mine w.region
      io := t.io.filter fun e => !mine e.1 }
  let open_ := (s.off o).sto.cur.toList ++ (s.off o).sto.ahead.map (·.sack)
  let s := open_.foldl (fun s k => s.modSack o k fun e => { e with single := true }) s
  let s := s.raise o 0x0505 (le 1 c ++ le 1 0)
  (s.takeStored o).settleStore o

/-- Data region `region` of copy `c`, the only one in use, fails: every sack of it is in FAULT, and the sack being
written is lost (R299, R300). -/
def State.faultSacks (s : State) (o : OfficeId) (c region cause : Nat) : State :=
  let inRegion := fun (k : Nat) => s.regionOfSack o c k = some region
  let dead := (List.range (s.off o).sto.count).filter inRegion
  let lost := (s.off o).sto.cur.any inRegion
  let s := s.modSto o fun t => { t with pend := t.pend.filter fun w => w.region ≠ region }
  let s := if lost then s.loseCurrent o cause else s
  let s := s.modSto o fun t => { t with ahead := t.ahead.filter fun a => !inRegion a.sack, resume := true }
  dead.foldl (fun s k => (s.modSack o k fun e => { e with state := 3 }).writeEntry o k) s

/-- The store is FAILED (R301): orders end, every round is dropped with cause 5. -/
def State.failStore (s : State) (o : OfficeId) : State :=
  let s := (s.wr o F.STO_STAT_STATE storeFailed).abortOrders o
  ((s.dropAllRounds o 5 true).modSto o fun t => { t with pend := [], io := [] }).refreshStore o

/-- A region fails (R299 to R302). -/
def State.failRegion (s : State) (o : OfficeId) (region addr : Nat) : State :=
  let data := decide (region < 8)
  let c := if data then s.rd o F.STO_RGN_CTL_COPY region else region - 8
  let bad := if data then s.rd o F.STO_RGN_CTL_FAILED region else s.rd o F.STO_IDX_CTL_FAILED (region - 8)
  if bad = 1 ∨ s.rd o F.STO_STAT_STATE = storeOff then s
  else
    let s := if data then
        (s.wr o F.STO_RGN_CTL_FAILED 1 region).wr o F.STO_STAT_RGN_FAIL (setBits (s.rd o F.STO_STAT_RGN_FAIL) region 1 1)
      else
        (s.wr o F.STO_IDX_CTL_FAILED 1 (region - 8)).wr o F.STO_STAT_IDX_FAIL
          (setBits (s.rd o F.STO_STAT_IDX_FAIL) (region - 8) 1 1)
    let s := (s.countUp o F.STO_CNT_WERR_COUNT).raise o 0x0504 (le 1 region ++ le 1 c ++ le 8 addr)
    if s.rd o F.STO_CTL_MIRROR = 1 ∧ (s.copies o).length = 2 then s.dropCopy o c
    else
      let left := data && (s.dataRegions o c).any fun k => s.rd o F.STO_RGN_CTL_FAILED k = 0
      let s := if data then s.faultSacks o c region (if left then 4 else 5) else s
      if left then (s.dropAllRounds o 4 false).refreshStore o else s.failStore o

/-! ### Enabling (R307, R308) -/

/-- Whether two spans meet. -/
def spansMeet (a b : Nat × Nat) : Bool := a.1 < b.1 + b.2 && b.1 < a.1 + a.2

/-- Whether any two spans of a list meet. -/
def anyMeet : List (Nat × Nat) → Bool
  | [] => false
  | a :: l => l.any (spansMeet a) || anyMeet l

/-- The first cause of R308 that refuses the map, with the `MIRROR` asked for. -/
def State.mapFault (s : State) (o : OfficeId) (mirror : Bool) : Option Nat :=
  let ks := (List.range 8).filter fun k => s.rd o F.STO_RGN_CTL_EN k = 1
  let cs := (List.range 2).filter fun c => s.rd o F.STO_IDX_CTL_EN c = 1
  let len := fun (c : Nat) => (s.dataRegions o c).foldl (fun n k => n + s.rgnLen o k) 0
  let sl := s.sackLen o
  let count := len 0 / sl
  let need := 4096 + 64 * count + 32 * 2 ^ s.rd o F.STO_CFG_LOSS_LOG2
  let spans := ks.map (fun k => (s.rgnBase o k, s.rgnLen o k)) ++ cs.map fun c => (s.idxBase o c, s.idxLen o c)
  let uio := ks.any (fun k => s.rd o F.STO_RGN_CTL_PATH k = 0) || cs.any (fun c => s.rd o F.STO_IDX_CTL_PATH c = 0)
  if s.mode o ≠ .standby then some 1
  else if s.dataRegions o 0 = [] then some 2
  else if ks.any (fun k => s.rgnBase o k % 2 ^ 21 ≠ 0) ∨ cs.any (fun c => s.idxBase o c % 4096 ≠ 0) then some 3
  else if ks.any (fun k => s.rgnLen o k = 0 || s.rgnLen o k % sl ≠ 0) then some 4
  else if anyMeet spans then some 5
  else if 2 ^ 42 < len 0 ∨ 2 ^ 42 < len 1 ∨ count < 4 ∨ (s.dataRegions o 1 ≠ [] ∧ len 1 / sl < 4) then some 6
  else if (if mirror then [0, 1] else [0]).any fun c => !cs.contains c || s.idxLen o c < need then some 7
  else if (if mirror then len 1 ≠ len 0 else s.dataRegions o 1 ≠ [] ∨ cs.contains 1) then some 8
  else if uio ∧ s.flag o F.PH_PORT_STAT_UIO_ACT = false then some 9
  else none

/-- The store as an enable finds it (R307, R315): losses of the buffer are kept and numbered from 0. -/
def Store.fresh (t : Store) (count : Nat) (pm : Postmark) : Store :=
  { count := count, formatted := pm, retired := t.retired, leaving := t.leaving, staged := t.staged, stageAddr := t.stageAddr
    lossBuf := t.lossBuf.zipIdx.map fun x => { x.1 with lseq := x.2 }, lseq := t.lossBuf.length }

/-- Writes the index regions at format: header, every entry FREE, loss log zero (R307). -/
def State.format (s : State) (o : OfficeId) : State :=
  let t := (s.off o).sto
  (s.copies o).foldl (fun s c =>
    let s := s.indexWriteTo o c 0 (s.indexHeader o c ++ List.replicate 4032 0)
    let s := (List.range t.count).foldl (fun s k => s.indexWriteTo o c (4096 + 64 * k) (({} : Sack).bytes (s.moduleId o) k)) s
    s.indexWriteTo o c (4096 + 64 * t.count) (List.replicate (32 * 2 ^ s.rd o F.STO_CFG_LOSS_LOG2) 0)) s

/-- An accepted enable (R307, R310): the owner formats; the relief office is ON at once and writes nothing. -/
def State.enableStore (s : State) (o : OfficeId) : State :=
  let len := (s.dataRegions o 0).foldl (fun n k => n + s.rgnLen o k) 0
  let s := s.modSto o fun t => t.fresh (len / s.sackLen o) s.postmarkNow
  let s := (s.wr o F.STO_WP_HI_SACK 0xFFFFFFFF).wr o F.STO_WP_LO_OFFSET 0
  let s := (s.wr o F.STO_STAT_COPY0_OK 1).wr o F.STO_STAT_COPY1_OK (s.rd o F.STO_CTL_MIRROR)
  if s.owns o then ((s.wr o F.STO_STAT_STATE storeFormatting).refreshStore o).format o
  else (s.wr o F.STO_STAT_STATE storeIsOn).refreshStore o

/-- An accepted disable (R299, R307): the content is abandoned, failed regions are no longer failed. -/
def State.disableStore (s : State) (o : OfficeId) : State :=
  let s := s.modSto o fun t => { t.fresh 0 t.formatted with lossBuf := t.lossBuf, lseq := t.lseq }
  let s := (List.range 8).foldl (fun s k => s.wr o F.STO_RGN_CTL_FAILED 0 k) s
  let s := (s.wr o F.STO_IDX_CTL_FAILED 0 0).wr o F.STO_IDX_CTL_FAILED 0 1
  let s := [F.STO_STAT_RGN_FAIL, F.STO_STAT_IDX_FAIL, F.STO_STAT_COPY0_OK, F.STO_STAT_COPY1_OK, F.STO_STAT_ALLPINNED,
            F.STO_STAT_DROPPING, F.STO_STAT_LIVE_HELD, F.STO_STAT_STALLED].foldl (fun s f => s.wr o f 0) s
  ((s.wr o F.STO_STAT_STATE storeOff).abortOrders o).refreshStore o

/-! ### Pins (R288 to R291) -/

/-- The sacks a range names: those that hold a run starting in it, and the `NEXT` of any that spills (R288). -/
def Store.pinSet (t : Store) (first last : Nat) : List Nat :=
  let hit := t.sacks.filter fun e => (t.present e.2).any fun p => roundLe first p.2 && roundLe p.1 last
  let ks := hit.map (·.1)
  ks ++ ((hit.filter fun e => e.2.spill && !ks.contains e.2.next).map fun e => e.2.next).eraseDups

/-- Whether part of a range lies outside the store (R290). -/
def Store.clipped (t : Store) (first last : Nat) : Bool :=
  match t.oldest with
  | some old => roundLt first old || roundLt (t.newestPresent.getD 0) last
  | none => true

/-- Sets or clears `PINNED` on sacks; answers how many entries changed (R283, R288). -/
def State.setPins (s : State) (o : OfficeId) (ks : List Nat) (on : Bool) : State × Nat :=
  ks.foldl (fun (x : State × Nat) k =>
    if (((x.1.off o).sto.sack k).pinned) = on then x
    else ((x.1.modSack o k fun e => { e with pinned := on }).writeEntry o k, x.2 + 1)) (s, 0)

end Sys2Proof.Machine
end

