-- ==== Sys2Proof/Machine/StoreRows.lean ====
section
/-! DEFINITION. The commands of the event store (07), but for its reads. -/

namespace Sys2Proof.Machine

/-! ### Staging (R295, R298) -/

/-- The item whose turn it is to enter staging: the earliest that has not (R239). -/
def Compression.nextOut (c : Compression) : Option Nat :=
  let q := c.queue.map (·.ord) ++ c.coded.map (·.ord) ++ c.engines.filterMap fun e => e.2.map fun j => j.item.ord
  q.min?

/-- An item of the queue that no engine codes: of a round at effort 0, or without letters (R237, R238), as a plain
record. -/
def State.passThrough (s : State) (o : OfficeId) (x : CmpItem) : Option CodedItem :=
  let effort := ((s.off o).cmp.plans.find? fun p => p.round = x.round).elim 0 (·.effort)
  if effort = 0 ∨ x.body.plainLen = 0 then
    some { ord := x.ord, round := x.round, body := x.body, compressed := false, bytes := x.body.plainRecord (s.moduleId o) }
  else none

/-- The item that would enter staging now. -/
def State.stageNext (s : State) (o : OfficeId) : Option CodedItem :=
  let c := (s.off o).cmp
  c.nextOut.bind fun k =>
    match c.coded.find? fun x => x.ord = k with
    | some x => some x
    | none => (c.queue.find? fun x => x.ord = k).bind (s.passThrough o)

/-- Delivers an item live from staging: queued at its pigeonhole, or undelivered while live deliveries are held (R215,
R218, R295, R350). A timed route takes the timed form (R213). -/
def State.deliverLive (s : State) (o : OfficeId) (x : CodedItem) : State :=
  let put := fun (p : Nat) (r : PhRecord) =>
    if s.flag o F.STO_STAT_LIVE_HELD then s.undelivered o p r else s.queueRecord o p { r with staged := some x.ord }
  match x.body with
  | .env e =>
    match e.route with
    | some t =>
      let b := if t.timed then e.record (s.moduleId o) .timed e.timedBody else x.bytes
      put t.ph { kind := 1, round := x.round, bytes := b, district := e.district, dlo := t.dlo }
    | none => s
  | .par p =>
    if p.parcelPh = 0 then s else put p.parcelPh { kind := 1, round := x.round, bytes := x.bytes, parcel := true }

/-- Live deliveries resume with the first envelope of a new round (R295). -/
def State.resumeLive (s : State) (o : OfficeId) (x : CodedItem) : State :=
  let first := (s.off o).cmp.plans.any fun p => p.round = x.round && p.firstOrd = x.ord
  if (s.off o).sto.liveArmed ∧ first then
    (s.wr o F.STO_STAT_LIVE_HELD 0).modSto o fun t => { t with liveArmed := false }
  else s

/-- Live and replay deliveries stop above 32 MiB (R295). -/
def State.holdLive (s : State) (o : OfficeId) : State :=
  let f := (s.off o).sto.fill
  if f ≤ 32 * 2 ^ 20 then s
  else
    let s := s.modSto o fun t => { t with replayHeld := true, liveArmed := false }
    if s.flag o F.STO_STAT_LIVE_HELD then s
    else ((s.wr o F.STO_STAT_LIVE_HELD 1).raise o 0x0501 (le 2 (f / 65536))).dropAllLive o

/-- Words from `lo` up to `hi` of array 0x4 or 0x6 that read with an error. -/
def Office.errWords (d : Office) (a lo hi : Nat) : List Nat :=
  d.syn.filterMap fun e =>
    let w := e.1 - arrKey a 0
    if arrKey a 0 ≤ e.1 ∧ e.1 < arrKey (a + 1) 0 ∧ lo ≤ w ∧ w < hi then some w else none

/-- A span of array 0x4 or 0x6 is written anew, each word in full, which clears what was wrong with it and frees its tracker entry (R679,
R680). What the words hold lies in the histories and the items of staging (log entry 46). -/
def State.rewriteWords (s : State) (o : OfficeId) (a lo hi : Nat) : State :=
  let s := ((s.off o).errWords a lo hi).foldl (fun s w => s.arrWrite o a w ((s.off o).arrData a w)) s
  (List.range 64).foldl (fun s k =>
    if s.rd o F.ERR_RT_STAT_VALID k = 1 ∧ s.rd o F.ERR_RT_STAT_ARRAY k = a ∧ lo ≤ s.rd o F.ERR_RT_ADDR_WORD k ∧
        s.rd o F.ERR_RT_ADDR_WORD k < hi then s.freeTracker o k
    else s) s

/-- Takes an item out of compression. -/
def State.takeOut (s : State) (o : OfficeId) (k : Nat) : State :=
  s.modOff o fun d =>
    { d with cmp := { d.cmp with
        queue := d.cmp.queue.filter fun x => x.ord ≠ k
        coded := d.cmp.coded.filter fun x => x.ord ≠ k } }

/-- Rounds are dropped from `r` on until a resume point (R295). -/
def State.startDropping (s : State) (o : OfficeId) (r : Round) : State :=
  ((s.modSto o fun t => { t with dropFrom := some (t.dropFrom.elim r.toNat fun k => if roundLe k r.toNat then k else r.toNat) }).wr o F.STO_STAT_DROPPING 1).dropRound
    o r 2

/-- STAGING_ENTRY (R239, R295): the next item in the order of R180 enters staging, or finds it too full. The items of
later rounds are let go until the resume point; those rounds are recorded when their compression has ended. -/
def execStagingEntry (o : OfficeId) (s : State) : Out :=
  .next (
    let s := s.endDrops o
    match s.stageNext o with
    | none => s
    | some x =>
      let s := s.decideUpTo o x.round
      let t := (s.off o).sto
      if (s.off o).undecided x.round then s
      else if (s.off o).cmp.plans.any fun p => p.round = x.round && p.dropped then s.endDrops o
      else if t.dropFrom.any (roundLe · x.round.toNat) then
        (s.takeOut o x.ord).countPair o F.CMP_OUT_LO_COUNT_L F.CMP_OUT_HI_COUNT_H (x.bytes.length - 64)
      else if t.room < t.fill + x.bytes.length then
        let s := s.countPair o F.CMP_OUT_LO_COUNT_L F.CMP_OUT_HI_COUNT_H (x.bytes.length - 64)
        (s.startDropping o x.round).endDrops o
      else
        let s := s.resumeLive o x
        let s := s.takeOut o x.ord
        let a := (s.off o).sto.stageAt x.bytes.length 1024 (s.off o).sto.stageAddr
        let s := (s.rewriteWords o 6 (a / 8) ((a + x.bytes.length + 7) / 8)).modSto o fun t =>
          { t with staged := t.staged ++ [{ item := x, addr := a }]
                   stageAddr := (a + (x.bytes.length + 7) / 8 * 8) % (64 * 2 ^ 20) }
        (((s.refreshFill o).deliverLive o x).holdLive o).countPair o F.CMP_OUT_LO_COUNT_L F.CMP_OUT_HI_COUNT_H
          (x.bytes.length - 64))

/-- At the fall below 16 MiB while dropping: rounds already begun are dropped, and the first not yet begun will be the
resume point (R295). -/
def State.dropBegun (s : State) (o : OfficeId) (from_ : Nat) : State :=
  (s.off o).cmp.plans.foldl (fun s p =>
    let g := (s.off o).planProgress p
    if p.dropped ∨ roundLt p.round.toNat from_ ∨ g.1 = false then s
    else s.dropRound o p.round (if g.2 then 2 else 7)) s

/-- STAGING_DRAINED (R295): the fill is below 16 MiB. -/
def execStagingDrained (o : OfficeId) (s : State) : Out :=
  .next (
    if 16 * 2 ^ 20 ≤ (s.off o).sto.fill then s
    else
      let held := s.flag o F.STO_STAT_LIVE_HELD
      let s := s.modSto o fun t => { t with replayHeld := false, liveArmed := t.liveArmed || held }
      match (s.off o).sto.dropFrom with
      | some k => ((s.dropBegun o k).modSto o fun t => { t with dropFrom := none, resume := true }).endDrops o
      | none => s)

/-! ### Writing a round (R271 to R274, R279) -/

/-- The next multiple of 16. -/
def pad16 (b : List Byte) : List Byte := b ++ List.replicate (roundUp 16 b.length - b.length) 0

/-- Reads an item back from staging; the Bool tells that it is readable (R298). -/
def State.readStaged (s : State) (o : OfficeId) (x : Staged) : State × Bool :=
  let ws := (s.off o).errWords 6 (x.addr / 8) ((x.addr + x.item.bytes.length + 7) / 8)
  let bad := ws.any fun w => (s.off o).arrClass 6 w = .uncorrectable
  (ws.foldl (fun s w => s.arrTouch o 6 w) s, !bad)

/-- Whether two items are envelopes of one district round. -/
def CodedItem.sameDistrict (x y : CodedItem) : Bool :=
  match x.body, y.body with
  | .env a, .env b => decide (x.round = y.round) && decide (a.district = b.district)
  | _, _ => false

/-- The loss of a record in staging (R287, R298, R351): a district round is declared lost once, whichever of its envelopes cannot be
read; `CHAIN` tells that they are compressed. -/
def State.loseStaged (s : State) (o : OfficeId) (x : Staged) : State :=
  let chain := x.item.compressed
  let known := (s.off o).sto.staged.any fun y => y.lost && y.item.sameDistrict x.item
  let s := s.modSto o fun t =>
    { t with staged := t.staged.map fun y => if y.item.ord = x.item.ord then { y with lost := true } else y }
  match x.item.body with
  | .env e =>
    if known then s
    else
      let s := (s.countUp o F.STO_CNT_DROPDIST_COUNT).addLoss o 1 e.district.toNat false chain x.item.round 1
      s.raise o 0x050D (le 1 e.district.toNat ++ le 6 x.item.round.toNat ++ le 1 (b2n chain))
  | .par p =>
    (s.countUp o F.TRG_CNT_PLOST_COUNT p.tile.val).raise o 0x0606 (le 1 p.tile.val ++ le 8 p.fireTick.toNat ++ le 1 2)

/-- Reads an item of staging once more, and loses it where it cannot be read; the Bool tells that it is readable. -/
def State.useStaged (s : State) (o : OfficeId) (x : Staged) : State × Bool :=
  if x.lost then (s, false)
  else
    let q := s.readStaged o x
    if q.2 then q else (q.1.loseStaged o x, false)

/-- Whether a coded item is an envelope. -/
def CodedItem.isEnv (x : CodedItem) : Bool :=
  match x.body with
  | .env _ => true
  | .par _ => false

/-- The readable records of a round in staging, in order, and whether a district of it was lost. -/
def State.readRound (s : State) (o : OfficeId) (r : Round) : State × List CodedItem × Bool :=
  let xs := (s.off o).sto.staged.filter fun x => x.item.round = r
  xs.foldl (fun (a : State × List CodedItem × Bool) x =>
    let q := a.1.useStaged o x
    if q.2 then (q.1, a.2.1 ++ [x.item], a.2.2) else (q.1, a.2.1, a.2.2 || x.item.isEnv)) (s, [], false)

/-- A round mark (R273). -/
def roundMark (opens key spill loss : Bool) (r : Round) (envs pars bytes spillBytes : Nat) : List Byte :=
  withCrc (le 2 0x3D5E ++ le 1 1 ++ le 1 (b2n opens + 2 * b2n key + 4 * b2n spill + 8 * b2n loss) ++ le 6 r.toNat ++
    le 2 envs ++ le 2 pars ++ le 2 0 ++ le 4 bytes ++ le 4 spillBytes ++ le 4 0)

/-- A sack header (R272). -/
def State.sackHeader (s : State) (o : OfficeId) (k : Nat) (r : Round) : List Byte :=
  let e := (s.off o).sto.sack k
  withCrc (le 2 0x5ACC ++ le 1 1 ++ le 1 (s.moduleId o) ++ le 4 k ++ le 4 e.gen ++ le 1 (s.rd o F.STO_CFG_SACK_LOG2) ++
    le 1 e.rshift ++ le 2 0 ++ le 8 e.seq ++ le 4 e.head ++ le 4 0 ++
    (s.postmarkAt (r.toNat * 2 ^ e.rshift)).1.bytes ++ le 6 r.toNat ++ le 6 0)

/-- Moves on to the sack that a round opens (R276, R278, R283). -/
def State.enterSack (s : State) (o : OfficeId) (r : Round) : State :=
  match (s.off o).sto.ahead with
  | [] => s
  | a :: rest =>
    let s := s.closeCurrent o
    let s := s.modSack o a.sack fun e => { e with first := r.toNat, last := r.toNat, head := a.head }
    s.modSto o fun t => { t with cur := some a.sack, off := 64 + a.head, headed := false, ahead := rest }

/-- Drops a round that has no sack to spill into (R279, R293). -/
def State.dropSpilled (s : State) (o : OfficeId) (r : Round) : State := (s.dropRound o r 3).endDrops o

/-- Issues the writes of a round's run into the sack being written, and its spill into the next (R271 to R274). -/
def State.issueRun (s : State) (o : OfficeId) (k : Nat) (p : RoundPlan) (items : List CodedItem) (loss : Bool) : State :=
  let r := p.round
  let off := (s.off o).sto.off
  let body := (items.map fun x => pad16 x.bytes).flatten
  let here := min body.length (s.sackLen o - off - 32)
  let spill := body.length - here
  let mark := roundMark p.opens p.keyRound (decide (spill ≠ 0)) loss r (items.filter CodedItem.isEnv).length
    (items.filter fun x => !x.isEnv).length here spill
  let had := ((s.off o).sto.sack k).loss
  let s := s.modSack o k fun e =>
    { e with last := r.toNat, rounds := e.rounds + 1, used := off + 32 + here, spill := decide (spill ≠ 0),
             loss := e.loss || loss }
  let s := if (s.off o).sto.headed then s
    else (s.storeData o k 0 (s.sackHeader o k r) r).modSto o fun t => { t with headed := true }
  let s := (s.storeData o k off (mark ++ body.take here) r).modSto o fun t => { t with off := off + 32 + here }
  let s := if loss && !had then s.writeEntry o k else s
  let s := s.confirmSack o k
  let next := ((s.off o).sto.ahead.head?.map (·.sack)).getD 0
  let s := if spill = 0 then s
    else
      let s := (s.countUp o F.STO_CNT_SPILL_COUNT).storeData o next 64 (body.drop here) r
      let s := s.modSack o k fun e => { e with next := next }
      (s.modSto o fun t => { t with ahead := t.ahead.map fun a => if a.sack = next then { a with head := spill } else a }).confirmSack
        o next
  let end_ : Run := if spill = 0 then { round := r.toNat, start := k, mark := off, sack := k, off := off + 32 + here }
    else { round := r.toNat, start := k, mark := off, sack := next, off := 64 + spill }
  (s.modOff o fun d =>
    { d with
      cmp := { d.cmp with plans := d.cmp.plans.filter fun q => q.round ≠ r }
      sto := { d.sto with writing := d.sto.writing ++ [end_] } }).roundMarks o r.toNat

/-- Bytes the records of a round take in its run. -/
def runLen (items : List CodedItem) : Nat := items.foldl (fun n x => n + roundUp 16 x.bytes.length) 0

/-- Writes round `p` (R271 to R279). -/
def State.writeRound (s : State) (o : OfficeId) (p : RoundPlan) : State :=
  let t := (s.off o).sto
  let start := if p.opens then 64 + (t.ahead.head?.map (·.head)).getD 0 else t.off
  let q := s.readRound o p.round
  let spills := decide (s.sackLen o < start + 32 + runLen q.2.1)
  let idle := if p.opens then t.ahead.drop 1 else t.ahead
  let a := if spills ∧ idle = [] then q.1.openSack o p.round none else (q.1, true)
  if a.2 = false then a.1.dropSpilled o p.round
  else
    let s := if p.opens then a.1.enterSack o p.round else a.1
    match (s.off o).sto.cur with
    | some k => (s.issueRun o k p q.2.1 q.2.2).refreshStore o
    | none => s.dropSpilled o p.round

/-- The first round that is not dropped, when all of it is in staging (R279). -/
def Office.readyRound (d : Office) : Option RoundPlan :=
  match d.cmp.plans.find? fun p => !p.dropped with
  | some p =>
    if p.endOrd.isSome ∧ d.cmp.inEngines p.round = false ∧ (d.cmp.queue.all fun x => x.round ≠ p.round) ∧
        (d.cmp.coded.all fun x => x.round ≠ p.round) then some p
    else none
  | none => none

/-- UIO regions with a write to send fail once the port has come back without UIO (R443). -/
def State.settleUio (s : State) (o : OfficeId) : State :=
  if (s.off o).sto.uioLost = false ∨ s.storeReady o = false then s
  else
    (List.range 10).foldl (fun s g =>
      match ((s.off o).sto.pendOf g).head? with
      | some w => if s.isOrdered o g then s else s.failRegion o g w.addr
      | none => s) s

/-- ROUND_WRITE_START (R274, R279): the next round whose envelopes and parcels are all in staging. -/
def execRoundWriteStart (o : OfficeId) (s : State) : Out :=
  .next (
    let s := s.endDrops o
    if s.owns o = false then s
    else
      match (s.off o).readyRound with
      | none => s
      | some p =>
        if s.storeOn o = false then
          if s.rd o F.STO_STAT_STATE = storeFormatting then s else (s.dropRound o p.round 5).endDrops o
        else if (s.off o).sto.dropFrom.any (roundLe · p.round.toNat) then (s.dropRound o p.round 2).endDrops o
        else
          let s := s.decideUpTo o p.round
          match (s.off o).readyRound with
          | some q => (if q.round = p.round ∧ q.decided then s.writeRound o q else s.endDrops o).settleUio o
          | none => s.endDrops o)

/-! ### Deliveries at the port (R32, R298, R453) -/

/-- The item of staging that a live delivery reads, while staging still holds it. -/
def Office.stagedOf (d : Office) (r : PhRecord) : Option Staged :=
  r.staged.bind fun k => d.sto.staged.find? fun x => x.item.ord = k

/-- RECORD_ADD (R32, R295, R453 to R459): the next record of the pigeonhole, when it can be taken and nothing goes before it. Store
writes, which go before deliveries, leave with the commands that make them ready. A live envelope whose staging reads uncorrectable is
dropped (R298). -/
def execRecordAdd (o : OfficeId) (ph : BitVec 12) (s : State) : Out :=
  .next (
    let p := ph.toNat
    match ((s.off o).ph p).next with
    | none => s
    | some r =>
      if s.heldBack o r ∨ s.noticeReady o ∨ s.recordBefore o r then s
      else
        let take := fun (s : State) => (s.modPh o p Ph.dropNext).passMarks o p 64
        let q := match (s.off o).stagedOf r with
          | some x => if s.canHold o p r then s.useStaged o x else (s, true)
          | none => (s, true)
        if q.2 = false then take q.1
        else
          let a := q.1.addRecord o p r 4
          if a.2 then
            let s := take a.1
            if r.order then s.countPair o F.COL_BYTES_LO_COUNT_L F.COL_BYTES_HI_COUNT_H r.bytes.length else s
          else a.1)

/-! ### Completions (R267, R296, R299) -/

/-- Removes the first `n` writes of a region. -/
def dropPend (region : Nat) : Nat → List PendWrite → List PendWrite
  | 0, l => l
  | _, [] => []
  | n + 1, w :: l => if w.region = region then dropPend region n l else w :: dropPend region (n + 1) l

/-- After a write is done: not stalled, and rounds may be stored (R269, R296). -/
def State.afterDone (s : State) (o : OfficeId) : State :=
  let s := (s.modSto o fun t => { t with lastDoneAt := s.now }).wr o F.STO_STAT_STALLED 0
  (s.takeStored o).settleStore o

/-- Removes the first write of a region at an address. -/
def donePend (region addr : Nat) (l : List PendWrite) : List PendWrite := l.eraseP fun w => w.region = region && w.addr = addr

/-- STORE_WRITE_DONE (R267, R269): a UIO completion ends the write at its address; a confirmation read ends those it covers, and the
confirmation that fell due meanwhile is issued. -/
def execStoreWriteDone (o : OfficeId) (done : StoreWriteRef) (s : State) : Out :=
  .next (
    let g := done.region.val
    let addr := done.addr
    let t := (s.off o).sto
    if s.storeReady o = false ∨ t.pendOf g = [] then s
    else if s.isOrdered o g then
      match (t.ioOf g).cover with
      | none => s
      | some n =>
        let due := (t.ioOf g).due
        let s := s.modSto o fun t =>
          { t with pend := dropPend g n t.pend
                   io := Sparse.update {} t.io g fun x => { x with cover := none, due := false } }
        let s := s.afterDone o
        if due then s.confirm o g else s
    else if (t.pendOf g).any fun w => w.addr = addr.toNat then
      (s.modSto o fun t => { t with pend := donePend g addr.toNat t.pend }).afterDone o
    else s)

/-- Marks the first write of a region at an address as retried. -/
def markRetried (region addr : Nat) : List PendWrite → List PendWrite
  | [] => []
  | w :: l => if w.region = region ∧ w.addr = addr then { w with retried := true } :: l else w :: markRetried region addr l

/-- STORE_WRITE_ERROR (R299): a failed write, or the writes of a failed confirmation with it, are sent once more; the
second failure fails the region. -/
def execStoreWriteError (o : OfficeId) (region : Fin 10) (addr : W64) (s : State) : Out :=
  .next (
    let g := region.val
    let t := (s.off o).sto
    if s.storeReady o = false then s
    else if s.isOrdered o g then
      let x := t.ioOf g
      let covered := (t.pendOf g).take (x.cover.getD 0)
      let last := (covered.getLast?.map fun w => w.addr + w.bytes.length - 1).getD x.lastAddr
      if x.cover.isNone then s
      else if x.retried then s.failRegion o g last
      else
        let s := s.modSto o fun t => { t with io := Sparse.update {} t.io g fun x => { x with retried := true } }
        (covered.foldl (fun s w => s.postWrite o w.addr w.bytes) s).postRead o last 0
    else
      match t.pend.find? fun w => w.region = g && w.addr = addr.toNat with
      | none => s
      | some w =>
        if w.retried then s.failRegion o g w.addr
        else (s.modSto o fun t => { t with pend := markRetried g addr.toNat t.pend }).postWrite o w.addr w.bytes)

/-- STORE_STALL (R296): writes are pending and none has been done for `STALL_US`. -/
def execStoreStall (o : OfficeId) (region : Byte) (s : State) : Out :=
  .next (
    let t := (s.off o).sto
    if t.pend = [] ∨ s.flag o F.STO_STAT_STALLED ∨ s.now < t.lastDoneAt + ticksOfUs (s.rd o F.STO_CFG_STALL_US) then s
    else
      let g := if t.pend.all fun w => w.region = region.toNat then region.toNat else 0xFF
      ((s.wr o F.STO_STAT_STALLED 1).countUp o F.STO_CNT_STALL_COUNT).raise o 0x0503 (le 1 g ++ le 4 t.pend.length))

/-- LOSS_RECORD_APPEND (R286). -/
def execLossRecordAppend (o : OfficeId) (s : State) : Out := .next (s.flushLosses o)

/-! ### `STO_CTL` (R303, R307, R313) -/

/-- A refused enable or disable (R307). -/
def State.refuseStore (s : State) (o : OfficeId) (cause : Nat) : State :=
  (s.wr o F.STO_STAT_REFUSE cause).raise o 0x050B (le 1 cause)

/-- REATTACH (R303): a dropped copy whose regions are no longer failed rejoins at the next sack opened. -/
def State.reattachCopies (s : State) (o : OfficeId) : State :=
  if s.owns o = false ∨ s.storeOn o = false ∨ s.rd o F.STO_CTL_MIRROR = 0 then s
  else
    [(OfficeId.A, 0), (.B, 1)].foldl (fun s x =>
      let sound := (s.dataRegions o x.2).all (fun k => s.rd o F.STO_RGN_CTL_FAILED k = 0) && s.rd o F.STO_IDX_CTL_FAILED x.2 = 0
      if (s.copies o).contains x.2 ∨ sound = false then s
      else s.modSto o fun t => { t with rejoin := t.rejoin.set x.1 true }) s

/-- A write of `STO_CTL` (R307, R313). -/
def State.writeStoCtl (s : State) (o : OfficeId) (v : Nat) : State :=
  if s.takesWrites o = false then s
  else
    let was := s.flag o F.STO_CTL_ENABLE
    let now := bitsOf v 31 1 = 1
    let s := s.journal o F.STO_CTL_ENABLE.off v true
    let s :=
      if was = false ∧ now then
        match s.mapFault o (decide (bitsOf v 30 1 = 1)) with
        | some c => s.refuseStore o c
        | none => ((s.wr o F.STO_CTL_ENABLE 1).wr o F.STO_CTL_MIRROR (bitsOf v 30 1)).enableStore o
      else if was ∧ ¬ now then
        if s.mode o = .standby then
          ((s.wr o F.STO_CTL_ENABLE 0).wr o F.STO_CTL_MIRROR (bitsOf v 30 1)).disableStore o
        else s.refuseStore o 1
      else if was = false then s.wr o F.STO_CTL_MIRROR (bitsOf v 30 1)
      else s
    (if bitsOf v 29 1 = 1 then s.reattachCopies o else s).mirrorChanges

/-- STORE_ENABLE (R307, R308, R310): a write of `STO_CTL`. -/
def execStoreEnable (o : OfficeId) (v : W32) (s : State) : Out := .next (s.writeStoCtl o v.toNat)

/-- STORE_DISABLE (R307): a write of `STO_CTL`. -/
def execStoreDisable (o : OfficeId) (v : W32) (s : State) : Out := .next (s.writeStoCtl o v.toNat)

/-- REATTACH (R303): a write of `STO_CTL`. -/
def execReattach (o : OfficeId) (v : W32) (s : State) : Out := .next (s.writeStoCtl o v.toNat)

/-- STORE_FORMAT_DONE (R307): every write of the format is done; the store is ON, and kept losses are written first. -/
def execStoreFormatDone (o : OfficeId) (s : State) : Out :=
  .next (
    if s.rd o F.STO_STAT_STATE = storeFormatting ∧ (s.off o).sto.pend = [] then
      (s.wr o F.STO_STAT_STATE storeIsOn).flushLosses o
    else s)

/-! ### Pins and repair (R288 to R291, R306, R319, R320) -/

/-- A write of `STO_PIN_CMD` (R288, R290, R319). The code of a refusal's cause in notice 0x050A is free (log entry 26). -/
def State.writePinCmd (s : State) (o : OfficeId) (v : Nat) : State :=
  let go := decide (bitsOf v 31 1 = 1)
  let r := s.hostWrite o F.STO_PIN_CMD_GO.off v (own := go)
  let s := r.1
  if r.2 = false ∨ go = false ∨ s.owns o = false then s
  else
    let first := BitVec.ofNat 48 (s.rdPair o F.STO_PIN_FIRST_LO_ROUND_L F.STO_PIN_FIRST_HI_ROUND_H)
    let last := BitVec.ofNat 48 (s.rdPair o F.STO_PIN_LAST_LO_ROUND_L F.STO_PIN_LAST_HI_ROUND_H)
    let op := F.STO_PIN_CMD_OP.part v
    if s.flag o F.STO_PIN_CMD_BUSY ∨ s.storeOn o = false ∨ later first last ∨ op = 3 then
      let c := s.draw 8
      ((c.2.wr o F.STO_PIN_RESULT_STATUS 2).wr o F.STO_PIN_RESULT_SACKS 0).raise o 0x050A (le 4 v ++ le 1 c.1)
    else
      let t := (s.off o).sto
      let ks := if op = 2 then (t.sacks.filter fun e => e.2.pinned).map (·.1) else t.pinSet first.toNat last.toNat
      let was := (t.sacks.filter fun e => t.pinnedFor s.now e.1).map (·.1)
      let q := (s.modSto o fun t => { t with pinsBefore := some (s.now, was) }).setPins o ks (op = 0)
      let st := if op ≠ 2 ∧ t.clipped first.toNat last.toNat then 1 else 0
      ((q.1.wr o F.STO_PIN_RESULT_STATUS st).wr o F.STO_PIN_RESULT_SACKS q.2).refreshStore o

/-- PIN (R288): a write of `STO_PIN_CMD`. -/
def execPin (o : OfficeId) (v : W32) (s : State) : Out := .next (s.writePinCmd o v.toNat)

/-- UNPIN (R288): a write of `STO_PIN_CMD`. -/
def execUnpin (o : OfficeId) (v : W32) (s : State) : Out := .next (s.writePinCmd o v.toNat)

/-- UNPIN_ALL (R288): a write of `STO_PIN_CMD`. -/
def execUnpinAll (o : OfficeId) (v : W32) (s : State) : Out := .next (s.writePinCmd o v.toNat)

/-- INDEX_REPAIR (R306, R320): the entry is rewritten as FREE at format; a sack that does not exist is refused as R5 refuses a value,
with or without `GO`, and so is the repair of an OPEN sack. -/
def execIndexRepair (o : OfficeId) (v : W32) (s : State) : Out :=
  .next (
    let k := bitsOf v.toNat 0 23
    let t := (s.off o).sto
    let go := decide (bitsOf v.toNat 31 1 = 1)
    let isOpen := decide ((t.sack k).state = 1) || decide (t.cur = some k) || t.ahead.any fun a => a.sack = k
    let bad := s.owns o && (decide (t.count ≤ k) || (go && isOpen))
    let r := s.hostWrite o F.STO_IDX_REPAIR_GO.off v.toNat bad
    if r.2 = false ∨ bad ∨ go = false ∨ s.owns o = false then r.1
    else ((r.1.modSack o k fun _ => {}).writeEntry o k).refreshStore o)

/-- STO_CNT_CLR (R318). -/
def execStoCntClr (o : OfficeId) (v : W32) (s : State) : Out :=
  .next (
    let s := s.clearWrite o F.STO_CNT_CLR_DROPRND.off v.toNat 0
      [F.STO_CNT_DROPRND_COUNT, F.STO_CNT_DROPDIST_COUNT, F.STO_CNT_SPILL_COUNT, F.STO_CNT_WERR_COUNT,
       F.STO_CNT_RPOIS_COUNT, F.STO_CNT_IDXERR_COUNT, F.STO_CNT_AUTOUNPIN_COUNT, F.STO_CNT_STALL_COUNT]
    if s.takesWrites o ∧ bitsOf v.toNat 8 1 = 1 then s.wr o F.STO_STAGE_PEAK (s.rd o F.STO_STAGE_FILL) else s)

/-- Whether a region's registers take a write (R321): while the store is disabled, or a data region that has failed. -/
def State.rgnTakes (s : State) (o : OfficeId) (addr : Nat) : Bool :=
  s.rd o F.STO_CTL_ENABLE = 0 || (addr < 0x0500180 && s.rd o F.STO_RGN_CTL_FAILED ((addr - 0x0500100) / 16) = 1)

end Sys2Proof.Machine
end

