-- ==== Sys2Proof/Machine/Compression.lean ====
section
/-! DEFINITION. The compression engines (06 R233 to R239, R250 to R259). -/

namespace Sys2Proof.Machine

/-- Changes compression. -/
def State.modCmp (s : State) (o : OfficeId) (f : Compression → Compression) : State :=
  s.modOff o fun d => { d with cmp := f d.cmp }

/-- The stream of an item (R232, R249). -/
def CmpBody.stream : CmpBody → Nat
  | .env e => e.district.toNat
  | .par p => 256 + p.tile.val

/-- Letters or sample words of an item. -/
def CmpBody.count : CmpBody → Nat
  | .env e => e.letters.length
  | .par p => p.samples.length

/-- The history of a stream. -/
def Compression.history (c : Compression) (k : Nat) : History := Sparse.get {} c.hist k

/-- Saves a history: its 64 words of array 0x4 are written in full (R233). The spec gives the history no layout in them: what they
hold lies in `Compression.hist` (log entry 97). -/
def State.setHistory (s : State) (o : OfficeId) (k : Nat) (h : History) : State :=
  (s.rewriteWords o 4 (k * 64) (k * 64 + 64)).modCmp o fun c => { c with hist := Sparse.set {} c.hist k h }

/-- The plan of a round. -/
def Compression.planOf (c : Compression) (r : Round) : Option RoundPlan := c.plans.find? fun p => p.round = r

/-- Whether an engine codes an item: at effort 1 or 2, with letters or samples (R237, R238). -/
def Compression.takes (c : Compression) (x : CmpItem) : Bool :=
  x.body.plainLen ≠ 0 && (c.planOf x.round).any fun p => p.effort ≠ 0

/-- The item that engine `e` takes: the earliest whose round has the engine enabled and whose stream has no item in coding and none that
waits before it (R238, R257). -/
def Compression.nextFor (c : Compression) (e : Nat) : Option CmpItem :=
  c.queue.find? fun x =>
    c.takes x && (c.planOf x.round).any (fun p => bitsOf p.engines e 1 = 1) &&
    !(c.engines.any fun j => j.2.any fun j => j.stream = x.body.stream) &&
    !(c.queue.any fun y => y.ord < x.ord && y.body.stream = x.body.stream && c.takes y)

/-- Whether a key round makes the next envelope of a stream a key envelope (R235). -/
def Compression.keyDue (c : Compression) (stream : Nat) (r : Round) : Bool :=
  let last := Sparse.get 0 c.seen stream
  c.keyRounds.any fun k => roundLe k r.toNat && (last = 0 || roundLt (last - 1) k)

/-- Reads a stream's history from array 0x4: an uncorrectable word gives the reset history, written whole (R255). -/
def State.loadHistory (s : State) (o : OfficeId) (stream : Nat) (r : Round) : State × History :=
  let ws := (List.range 64).map fun k => stream * 64 + k
  let bad := ws.any fun w => (s.off o).arrClass 4 w = .uncorrectable
  let h := (s.off o).cmp.history stream
  let s := ws.foldl (fun s w => s.arrTouch o 4 w) s
  if bad then
    let h := { h.key with keypend := true }
    (((s.setHistory o stream h).countUp o F.CMP_CNT_STPOIS_COUNT).raise o 0x0402 (le 2 stream ++ le 6 r.toNat), h)
  else (s, h)

/-- The static set `k` as the window holds it (R265), read under the array policy; none when it is uncorrectable
(R256). -/
def State.readStatic (s : State) (o : OfficeId) (k : Nat) : State × Option (List Nat) :=
  let addr := 0x0401000 + 64 * k
  let bad := (s.off o).windowBad addr 48
  let s := s.useWindow o addr 48
  if bad then (s, none)
  else (s, some (tableOfBytes ((s.off o).windowBytes addr 48)))

/-- The table an envelope is coded with (R250): its mode, its lengths, and the static set it is; none when the static set
needed cannot be read. A stream whose current table is a static set needs that set (R256). DESIGN CHOICE: at effort 2, a stream that has
no rebuilt table takes its current table in mode 0b10, and without one the static set in mode 0b00; R250 names the rebuilt table alone
(log entry 91). -/
def State.chooseTable (s : State) (o : OfficeId) (effort : Nat) (key : Bool) (h : History) :
    State × Option (TableMode × List Nat × Option Nat) :=
  let idx := s.rd o F.CMP_CTL_STATIC_IDX
  let viaStatic := fun (s : State) =>
    let q := s.readStatic o idx
    (q.1, q.2.map fun t => (TableMode.static idx, t, some idx))
  let viaCurrent := fun (s : State) =>
    match h.static with
    | none => (s, some (TableMode.current, h.table, none))
    | some k => let q := s.readStatic o k; (q.1, q.2.map fun _ => (TableMode.current, h.table, some k))
  if key then viaStatic s
  else if effort = 1 then
    let q := viaStatic s
    (q.1, q.2.map fun m => if h.static = some idx ∧ h.table = m.2.1 then (.current, m.2) else m)
  else if h.nextTable ≠ [] then (s, some (.inline, h.nextTable, none))
  else if h.table ≠ [] then viaCurrent s
  else viaStatic s

/-- The tokens of an item and the means after it. -/
def CmpBody.tokens (b : CmpBody) (h : History) : List Token × History :=
  match b with
  | .env e => envelopeTokens e.rshift h (e.letters.map (·.word))
  | .par p => sampleTokens h 0 0 0 0 p.samples

/-- The history after an item was coded (R233, R251): symbols counted, the table now current, and at effort 2 the table
rebuilt when 4,096 letters or samples have gone by. -/
def History.after (h : History) (effort : Nat) (ts : List Token) (n : Nat) (table : List Nat) (st : Option Nat) : History :=
  let counts := countTokens h.counts ts
  let h := { h with counts := counts, rebuild := h.rebuild + n, table := table, static := st, keypend := false }
  let h := if table = h.nextTable then { h with nextTable := [] } else h
  if effort = 2 ∧ 4096 ≤ h.rebuild then { h with rebuild := 0, nextTable := builtTable counts } else h

/-- COMPRESSION_ENGINE_TAKE (R238, R250, R252, R255): engine `engine` takes an item, loads its history and codes it. -/
def execCompressionEngineTake (o : OfficeId) (engine : Fin 16) (s : State) : Out :=
  .next (
    let s := s.endDrops o
    let e := engine.val
    if (Sparse.get none (s.off o).cmp.engines e).isSome ∨ bitsOf (s.off o).cmp.outEngines e 1 = 1 then s
    else
      match (s.off o).cmp.nextFor e with
      | none => s
      | some x =>
        let s := s.decideUpTo o x.round
        if (s.off o).cmp.queue.any (fun y => y.ord = x.ord) = false ∨ (s.off o).undecided x.round then s
        else
          let k := x.body.stream
          let effort := ((s.off o).cmp.planOf x.round).elim 0 (·.effort)
          let due := (s.off o).cmp.keyDue k x.round
          let q := s.loadHistory o k x.round
          let saved := if due then { q.2 with keypend := true } else q.2
          let key := saved.keypend
          let h := if key then saved.key else saved
          let t := q.1.chooseTable o effort key h
          let ts := x.body.tokens h
          let job : EngineJob :=
            match t.2 with
            | some m =>
              { item := x, stream := k, key := key, forcedPlain := false, saved := saved
                after := ts.2.after effort ts.1 x.body.count m.2.1 m.2.2, body := bodyBytes key m.1 m.2.1 ts.1 }
            | none =>
              { item := x, stream := k, key := key, forcedPlain := true, saved := saved, after := saved, body := [] }
          t.1.modCmp o fun c =>
            { c with
              queue := c.queue.filter fun y => y.ord ≠ x.ord
              engines := Sparse.set none c.engines e (some job)
              seen := Sparse.set 0 c.seen k (x.round.toNat + 1) })

/-- Saves the history after an item, and releases the item to staging, unless its round has been dropped meanwhile. -/
def State.release (s : State) (o : OfficeId) (j : EngineJob) (compressed : Bool) (h : History) : State :=
  let m := s.moduleId o
  let x := j.item
  let bytes := if compressed then x.body.record m true j.body else x.body.plainRecord m
  let gone := (s.off o).cmp.plans.any fun p => p.round = x.round && p.dropped
  (s.setHistory o j.stream h).modCmp o fun c =>
    if gone then c
    else { c with coded := c.coded ++ [{ ord := x.ord, round := x.round, body := x.body, compressed := compressed, bytes := bytes }] }

/-- The static sets of an office (R265). -/
def Office.statics (d : Office) (k : Nat) : List Nat := tableOfBytes (d.windowBytes (0x0401000 + 64 * k) 48)

/-- Whether the verifier passes a body: it decodes it from the saved history, checks R248, and finds the input again (R252). -/
def CmpBody.verifies (b : CmpBody) (statics : Nat → List Nat) (saved : History) (body : List Byte) : Bool :=
  match b with
  | .env e =>
    match decodeBody statics saved e.rshift e.round.toNat e.district.toNat e.letters.length body with
    | some q => decide (q.1 = e.letters.map (·.word))
    | none => false
  | .par p =>
    match decodeParcel statics saved p.samples.length body with
    | some q => decide (q.1 = p.samples)
    | none => false

/-- Engines in service of those `ENG_MASK` enables, against the escalation of R684. -/
def State.checkEngines (s : State) (o : OfficeId) : State :=
  let mask := s.rd o F.CMP_CTL_ENG_MASK
  let all := popcount 16 mask
  let act := popcount 16 (mask &&& (65535 - (s.off o).cmp.outEngines % 65536))
  if 2 * act < all then s.trip o F.TWN_HEALTH_ARITH 0 (all - act) (all - act) else s

/-- A verification failure (R254): the fourth of an engine within 1 s takes it out of service. -/
def State.verifyFailed (s : State) (o : OfficeId) (e : Nat) (j : EngineJob) : State :=
  let recent := s.now :: ((Sparse.get [] (s.off o).cmp.fails e).filter fun t => s.now - t < ticksOfUs 1000000)
  let out := decide (4 ≤ recent.length)
  let part := match j.item.body with
    | .env v => v.part
    | .par _ => 0
  let s := s.modCmp o fun c =>
    { c with fails := Sparse.set [] c.fails e (recent.take 4)
             outEngines := if out then setBits c.outEngines e 1 1 else c.outEngines }
  let s := (s.release o j false { j.saved with keypend := true }).countUp o F.CMP_CNT_VFAIL_COUNT
  let s := s.raise o 0x0401 (le 2 j.stream ++ le 6 j.item.round.toNat ++ le 1 part ++ le 1 e ++ le 1 (b2n out))
  let p := (s.off o).cmp.plans.getLast?.elim (s.effortNow o, s.enginesNow o) fun p => (p.effort, p.engines)
  (((s.refreshCmp o p.1 p.2).noteVFail o).checkEngines o)

/-- ENVELOPE_CODED (R252 to R254, R256): the engine and its verifier have finished. The verifier's own decoding decides; `differs` tells
that a fault of the engine or the verifier made a difference besides. -/
def execEnvelopeCoded (o : OfficeId) (engine : Fin 16) (differs : Bool) (s : State) : Out :=
  .next (
    let e := engine.val
    match Sparse.get none (s.off o).cmp.engines e with
    | none => s
    | some j =>
      let s := s.modCmp o fun c => { c with engines := Sparse.set none c.engines e none }
      let s :=
        if j.forcedPlain then s.release o j false j.saved
        else if differs || !j.item.body.verifies (s.off o).statics j.saved j.body then s.verifyFailed o e j
        else if j.item.body.plainLen ≤ j.body.length then
          (s.release o j false j.saved).countUp o F.CMP_CNT_PLAIN_COUNT
        else
          let s := (s.release o j true j.after).countUp o F.CMP_CNT_COMP_COUNT
          if j.key then s.countUp o F.CMP_CNT_KEY_COUNT else s
      s.endDrops o)

/-- CMP_CNT_CLR (R264). -/
def execCmpCntClr (o : OfficeId) (v : W32) (s : State) : Out :=
  .next (s.clearWrite o F.CMP_CNT_CLR_COMP.off v.toNat 0
    [F.CMP_CNT_COMP_COUNT, F.CMP_CNT_KEY_COUNT, F.CMP_CNT_PLAIN_COUNT, F.CMP_CNT_VFAIL_COUNT, F.CMP_CNT_STPOIS_COUNT] |>
    fun s' =>
      let z := fun (s : State) (b : Nat) (lo hi : Fld) =>
        if s.takesWrites o ∧ bitsOf v.toNat b 1 = 1 then s.clearPair o lo hi else s
      z (z s' 5 F.CMP_IN_LO_COUNT_L F.CMP_IN_HI_COUNT_H) 6 F.CMP_OUT_LO_COUNT_L F.CMP_OUT_HI_COUNT_H)

end Sys2Proof.Machine
end

