-- ==== Sys2Proof/Machine/Port.lean ====
section
/-! DEFINITION. The PCIe port of an office (11 R432 to R444, R469 to R472). -/

namespace Sys2Proof.Machine

/-- Sets `UIO_ACT` (R442). -/
def State.refreshUio (s : State) (o : OfficeId) : State :=
  s.wr o F.PH_PORT_STAT_UIO_ACT (b2n (s.flag o F.PH_PORT_STAT_L0 && s.flag o F.PH_PORT_STAT_FLIT &&
    s.flag o F.PH_PORT_STAT_UIO_CAP && s.flag o F.PH_PORT_CTL_UIO_EN))

/-- The port leaves L0 (R435, R437). -/
def State.leaveL0 (s : State) (o : OfficeId) : State :=
  let s := ((s.wr o F.PH_PORT_STAT_L0 0).refreshUio o).countUp o F.PH_CNT_LINKDOWN_COUNT
  (s.raise o 0x0801 (le 1 0)).setHealth o F.TWN_HEALTH_PORT true

/-- PORT_LEAVE_L0 (R435, R437). -/
def execPortLeaveL0 (o : OfficeId) (s : State) : Out :=
  .next (if (s.off o).inReset ∨ s.flag o F.PH_PORT_STAT_L0 = false then s else s.leaveL0 o)

/-- The enabled regions that name UIO, data regions first (R443). -/
def State.uioMask (s : State) (o : OfficeId) : Nat :=
  (List.range 8).foldl (fun m k =>
    if s.rd o F.STO_RGN_CTL_EN k = 1 ∧ s.rd o F.STO_RGN_CTL_PATH k = 0 then m + 2 ^ k else m) 0 +
  (List.range 2).foldl (fun m c =>
    if s.rd o F.STO_IDX_CTL_EN c = 1 ∧ s.rd o F.STO_IDX_CTL_PATH c = 0 then m + 2 ^ (8 + c) else m) 0

/-- What resumes when host memory can be reached again: store writes, then what they decide (R436, R715). -/
def State.hostBack (s : State) (o : OfficeId) (was : Bool) : State :=
  if was ∨ s.storeReady o = false then s else (s.resendStore o).settleUio o

/-- PORT_ENTER_L0 (R437, R443, R715). -/
def execPortEnterL0 (o : OfficeId) (flit uioCap : Bool) (rate width : BitVec 3) (s : State) : Out :=
  .next (
    if (s.off o).inReset ∨ s.flag o F.PH_PORT_STAT_L0 then s
    else
      let s := (s.wr o F.PH_PORT_STAT_L0 1).wr o F.PH_PORT_STAT_FLIT (b2n flit)
      let s := (s.wr o F.PH_PORT_STAT_UIO_CAP (b2n uioCap)).wr o F.PH_PORT_STAT_RATE rate.toNat
      let s := ((s.wr o F.PH_PORT_STAT_WIDTH width.toNat).refreshUio o).setHealth o F.TWN_HEALTH_PORT false
      let s := s.raise o 0x0802 (le 1 rate.toNat ++ le 1 width.toNat ++ le 1 (b2n flit) ++ le 1 (b2n uioCap))
      let s := if rate.toNat < 6 ∨ width.toNat < 4 then s.raise o 0x0803 (le 1 rate.toNat ++ le 1 width.toNat) else s
      let lost := s.storeOn o && !s.flag o F.PH_PORT_STAT_UIO_ACT && decide (s.uioMask o ≠ 0)
      let s := s.modSto o fun t => { t with uioLost := lost }
      let s := if lost then s.raise o 0x0807 (le 2 (s.uioMask o)) else s
      s.hostBack o false)

/-- FUNCTION_RESET (R436): configuration space, every pigeonhole and every doorbell are reset; the rest of the office is
kept. -/
def execFunctionReset (o : OfficeId) (cause : FnResetCause) (s : State) : Out :=
  .next (
    if (s.off o).inReset then s
    else
      let s := match cause with
        | .linkDown => if s.flag o F.PH_PORT_STAT_L0 then s.leaveL0 o else s
        | .hotReset => s.raise o 0x0801 (le 1 1)
        | .flr => s.raise o 0x0801 (le 1 2)
      let s := (s.resetPhs o).wr o F.PH_PORT_STAT_BME 0
      (s.modOff o fun d => { d with msixOn := false, d3hot := false, mps := 128, mrrs := 512, latch := Sparse.erase d.latch 0x0740044 }).refreshUio o)

/-- CONFIGURATION_REQUEST (R429, R434, R435, R462): Bus Master Enable, MSI-X enable, the power state, or the sizes of requests. Vectors
that are pending and not masked send their message when MSI-X is enabled. -/
def execConfigurationRequest (o : OfficeId) (r : CfgRequest) (s : State) : Out :=
  .next (
    let was := s.portReady o
    if (s.off o).inReset then s
    else
      match r with
      | .busMaster on => (s.wr o F.PH_PORT_STAT_BME (b2n on)).hostBack o was
      | .maxPayload code => s.modOff o fun d => { d with mps := 128 * 2 ^ code.val }
      | .maxReadRequest code => s.modOff o fun d => { d with mrrs := 128 * 2 ^ code.val }
      | .d3hot on => (s.modOff o fun d => { d with d3hot := on }).hostBack o was
      | .msixEnable on =>
        let s := s.modOff o fun d => { d with msixOn := on }
        if on = false then s
        else
          (List.range 2048).foldl (fun s v =>
            let w := s.rd o F.MSIX_PBA_P (v / 32)
            if bitsOf w (v % 32) 1 = 1 ∧ s.rd o F.MSIX_VCTRL_MASK v = 0 then
              (s.wr o F.MSIX_PBA_P (setBits w (v % 32) 1 0) (v / 32)).signal o v
            else s) s)

/-- PTM_DIALOG (R444, R471): a completed dialog writes its pair, the postmark of its tick, and an incremented count. -/
def execPtmDialog (o : OfficeId) (hostNs : W64) (tick : W64) (s : State) : Out :=
  .next (
    if s.flag o F.PH_PTM_CTL_EN = false ∨ s.flag o F.PH_PORT_STAT_L0 = false ∨ (s.off o).inReset ∨ (s.off o).d3hot then s
    else
      let p := (s.postmarkAt tick.toNat).1
      let s := s.wrPair o F.PH_PTM_TICK_LO_TICK_L F.PH_PTM_TICK_HI_TICK_H tick.toNat
      let s := s.wrPair o F.PH_PTM_HOST_LO_NS_L F.PH_PTM_HOST_HI_NS_H hostNs.toNat
      let s := s.wrPair o F.PH_PTM_PM_SEC_LO_SEC_L F.PH_PTM_PM_SEC_HI_SEC_H p.sec.toNat
      let s := (s.wr o F.PH_PTM_PM_SEC_HI_QUALITY p.quality.toNat).wr o F.PH_PTM_PM_NS_NS p.ns.toNat
      let s := (s.wr o F.PH_PTM_PM_FRAC_FRAC p.frac.toNat).wr o F.PH_PTM_STAT_VALID 1
      s.wr o F.PH_PTM_STAT_COUNT (s.rd o F.PH_PTM_STAT_COUNT + 1))

/-- PTM_TICK_READ (R6, R444): a read of `PH_PTM_TICK_LO`. -/
def execPtmTickRead (o : OfficeId) (s : State) : Out := .next (s.hostRead o 0x0740044)

/-- A BAR access that is counted and reported (R439, R441). -/
def State.accessError (s : State) (o : OfficeId) (addr cause : Nat) : State :=
  (s.countUp o F.PH_CNT_MMIOERR_COUNT).raise o 0x0808 (le 4 addr ++ le 1 cause)

/-- BAR_ACCESS_ERROR (R439): wrong size or alignment, completed with Completer Abort. -/
def execBarAccessError (o : OfficeId) (addr : BitVec 26) (s : State) : Out :=
  .next (if (s.off o).inReset ∨ (s.off o).d3hot then s else (s.emit (.completerAbort o)).accessError o addr.toNat 0)

/-- POISONED_WRITE_RX (R441): a write received with EP set is discarded. -/
def execPoisonedWriteRx (o : OfficeId) (addr : BitVec 26) (s : State) : Out :=
  .next (if (s.off o).inReset ∨ (s.off o).d3hot then s else (s.emit (.aerError o)).accessError o addr.toNat 1)

end Sys2Proof.Machine
end

