-- ==== Sys2Proof/Machine/RingSend.lean ====
section
/-! DEFINITION. Ring ports, the ring map, ring frames as sent, and broadcasts as originated and held (09 R390 to R408). -/

namespace Sys2Proof.Machine

/-! ### Ports and the map -/

/-- The states of a ring port (R418). -/
def rpTraining : Nat := 0
def rpUp : Nat := 1
def rpOpen : Nat := 2

/-- Changes the ring's state. -/
def State.modRing (s : State) (f : Ring → Ring) : State := s.modSvc fun d => { d with ring := f d.ring }

/-- A ring port. -/
def Ring.port (r : Ring) : RingPort → RPort
  | .E => r.e
  | .W => r.w

/-- Replaces a ring port. -/
def Ring.setPort (r : Ring) (p : RingPort) (x : RPort) : Ring :=
  match p with
  | .E => { r with e := x }
  | .W => { r with w := x }

/-- Changes a ring port. -/
def State.modRPort (s : State) (p : RingPort) (f : RPort → RPort) : State :=
  s.modRing fun r => r.setPort p (f (r.port p))

/-- The opposite port. -/
def otherPort : RingPort → RingPort
  | .E => .W
  | .W => .E

/-- 0 for the W port, 1 for the E port (R393). -/
def portCode : RingPort → Nat
  | .W => 0
  | .E => 1

/-- The register fields of a port: state, peer, entries bypassed, delay, offset and hops (R418). -/
def portStateFld : RingPort → Fld
  | .W => F.RING_STAT_W_STATE
  | .E => F.RING_STAT_E_STATE
def portPeerFld : RingPort → Fld
  | .W => F.RING_PEER_PEER_W
  | .E => F.RING_PEER_PEER_E
def portSkipFld : RingPort → Fld
  | .W => F.RING_PEER_SKIP_W
  | .E => F.RING_PEER_SKIP_E
def portDelayFld : RingPort → Fld
  | .W => F.RING_PDELAY_W_DELAY
  | .E => F.RING_PDELAY_E_DELAY
def portOfsFld : RingPort → Fld
  | .W => F.RING_OFS_W_OFS
  | .E => F.RING_OFS_E_OFS
def portHopsFld : RingPort → Fld
  | .W => F.RING_STAT_H_W
  | .E => F.RING_STAT_H_E

/-- Whether a port is UP: with the bypass closed no port carries a frame (R390, R391). -/
def State.portUp (s : State) (p : RingPort) : Bool := s.svc.ring.open_ && decide (s.srd (portStateFld p) = rpUp)

/-- The module number, by which the ring knows the module. -/
def State.modid (s : State) : Nat := s.moduleId s.speaker

/-- Whether the module is head, or hub (R416); without a module number it is neither (R28). -/
def State.isHead (s : State) : Bool := decide (s.modid ≠ 0) && s.srd F.RING_CFG_HEAD = 1
def State.isHub (s : State) : Bool := decide (s.modid ≠ 0) && s.srd F.RING_CFG_HUB = 1

/-- The low and the high word of ring map entry `i` (R417). -/
def State.mapLow (s : State) (i : Nat) : Nat := s.srd F.RING_MAP0_W0 i
def State.mapHigh (s : State) (i : Nat) : Nat := s.srd F.RING_MAP1_W1 i

/-- `MODID`, `ASYM_E` and `ASYM_BYP` of an entry, the latter two signed ps. -/
def State.mapId (s : State) (i : Nat) : Nat := bitsOf (s.mapLow i) 0 8
def State.asymE (s : State) (i : Nat) : Int := toInt 16 (bitsOf (s.mapLow i) 16 16)
def State.asymByp (s : State) (i : Nat) : Int := toInt 16 (bitsOf (s.mapHigh i) 0 16)

/-- The number of entries of the map. -/
def State.mapLen (s : State) : Nat := ((List.range 255).find? fun i => s.mapId i = 0).getD 255

/-- The entry of a module, if the map has it. -/
def State.mapIndex (s : State) (id : Nat) : Option Nat :=
  if id = 0 then none else (List.range s.mapLen).find? fun i => s.mapId i = id

/-- How many entries away a peer at a port is, eastward at E, westward at W (R397). -/
def State.peerDistance (s : State) (p : RingPort) (peer : Nat) : Option Nat :=
  match s.mapIndex s.modid, s.mapIndex peer with
  | some a, some b =>
    let n := s.mapLen
    let d := match p with
      | .E => (b + n - a) % n
      | .W => (a + n - b) % n
    some (if d = 0 then n else d)
  | _, _ => none

/-- The asymmetry of the link at a port, in ps (R397). -/
def State.asymmetry (s : State) (p : RingPort) : Int :=
  match s.mapIndex s.modid with
  | some a =>
    let n := s.mapLen
    let k := s.srd (portSkipFld p)
    let west := match p with
      | .E => a
      | .W => (a + n * 256 - (k + 1)) % n
    (List.range k).foldl (fun (acc : Int) j =>
      let i := (west + 1 + j) % n
      acc + s.asymByp i + s.asymE i) (s.asymE west)
  | none => 0

/-- Picoseconds in units of 2^-16 tick: 65,536 ÷ 666.667 (log entry 35). -/
def psToFine (ps : Int) : Int := roundDiv (ps * 65536 * 3) 2000

/-- The link delay at a port, eastbound or westbound, in 2^-16 tick (R397). -/
def State.linkDelay (s : State) (p : RingPort) (west : Bool) : Int :=
  let half := roundDiv (psToFine (s.asymmetry p)) 2
  (s.svc.ring.port p).delay + (if west then -half else half)

/-- The local wrap state: a port that is not UP (R402). -/
def State.locallyWrapped (s : State) : Bool := !(s.portUp .E && s.portUp .W)

/-! ### Frames -/

/-- Fields of a ring header (R392). -/
def rgType (h : W32) : Nat := bitsOf h.toNat 28 4
def rgOrigin (h : W32) : Nat := bitsOf h.toNat 20 8
def rgHops (h : W32) : Nat := bitsOf h.toNat 11 9
def rgWest (h : W32) : Bool := bitsOf h.toNat 10 1 = 1
def rgWrapped (h : W32) : Bool := bitsOf h.toNat 9 1 = 1
def rgLen (h : W32) : Nat := bitsOf h.toNat 0 5

/-- A ring header (R392). -/
def rgHeader (type origin hops : Nat) (west wrapped : Bool) (len : Nat) : W32 :=
  BitVec.ofNat 32 (type % 16 * 2 ^ 28 + origin % 256 * 2 ^ 20 + hops % 512 * 2 ^ 11 + b2n west * 1024 + b2n wrapped * 512 +
    len % 32)

/-- The CRC-16 of a ring frame (R392). -/
def ringCrc (hdr : W32) (words : List W32) : W16 := crc16 (le 4 hdr.toNat ++ leWords 4 (words.map (·.toNat)))

/-- Whether the receiver takes a frame (R393). -/
def ringGood (f : RingFrame) : Bool :=
  !f.charErr && f.crc = ringCrc f.hdr f.words && rgType f.hdr ≤ 4 && rgLen f.hdr ≤ 24 && f.words.length = rgLen f.hdr

/-- Ticks that a frame takes: a comma, the header, the payload and the CRC, at 5 ticks a character (R392). -/
def TxFrame.ticks (f : TxFrame) : Nat := 5 * (7 + 4 * f.words.length)

/-- Whether a frame is a SYNC frame, which goes before every other (R395). -/
def TxFrame.sync (f : TxFrame) : Bool := rgType f.hdr = 0

/-- The transmitter begins a frame. -/
def State.launch (s : State) (p : RingPort) (f : TxFrame) : State :=
  (s.modRPort p fun x => { x with sending := some (f, s.now + f.ticks) }).emit (.ring p f.hdr f.words)

/-- The transmitter is free: a SYNC frame that waits goes first, then a suspended frame goes on after K27.7, then the next (R395). -/
def State.txNext (s : State) (p : RingPort) : State :=
  let x := s.svc.ring.port p
  let s := s.modRPort p fun x => { x with sending := none }
  match x.waiting, x.parked with
  | f :: fs, none => (s.modRPort p fun x => { x with waiting := fs }).launch p f
  | f :: fs, some q =>
    if f.sync then (s.modRPort p fun x => { x with waiting := fs }).launch p f
    else (s.modRPort p fun x => { x with parked := none, sending := some (q.1, s.now + 5 + q.2) }).emit (.ringResume p)
  | [], some q => (s.modRPort p fun x => { x with parked := none, sending := some (q.1, s.now + 5 + q.2) }).emit (.ringResume p)
  | [], none => s

/-- The transmitter of a port at a tick: the frame it sends may have ended. -/
def State.pumpRing (s : State) (p : RingPort) : State :=
  if (s.svc.ring.port p).sending.any fun q => q.2 ≤ s.now then s.txNext p else s

/-- The place of a frame among those that wait: SYNC frames first, then forwarded frames, then those that the module originates (R395). -/
def TxFrame.rank (f : TxFrame) : Nat := if f.sync then 0 else if f.own then 2 else 1

/-- Hands a frame to the transmitter: it goes at once where nothing is being sent; a SYNC frame suspends any other frame, and the
receiver joins the two parts and checks the whole (R395). -/
def State.transmit (s : State) (p : RingPort) (f : TxFrame) : State :=
  let s := s.pumpRing p
  match (s.svc.ring.port p).sending with
  | none => s.launch p f
  | some q =>
    if f.sync && !q.1.sync && (s.svc.ring.port p).parked.isNone then
      (s.modRPort p fun x => { x with parked := some (q.1, q.2 - s.now) }).launch p f
    else
      s.modRPort p fun x =>
        { x with waiting := (x.waiting.takeWhile fun y => y.rank ≤ f.rank) ++ f :: x.waiting.dropWhile fun y => y.rank ≤ f.rank }

/-- Sends a frame by a port, turned back onto the other port where this one is not UP (R402). -/
def State.ringSend (s : State) (p : RingPort) (type origin hops : Nat) (west wrapped own : Bool) (words : List W32) : State :=
  if s.portUp p then s.transmit p { hdr := rgHeader type origin hops west wrapped words.length, words := words, own := own }
  else if s.portUp (otherPort p) then
    s.transmit (otherPort p) { hdr := rgHeader type origin hops (!west) true words.length, words := words, own := own }
  else s

/-- Sets the state of a port; a change of the local wrap state raises 0x0703 (R390, R402). A port that comes UP starts
its delay samples anew; one that leaves UP gives up the timing, and
the frames that wait there are turned back. -/
def State.setRPort (s : State) (p : RingPort) (st : Nat) : State :=
  let was := s.locallyWrapped
  let left := if st = rpUp then [] else (s.svc.ring.port p).waiting
  let s := (s.modRPort p fun x => { since := s.now, pdSeq := x.pdSeq }).swr (portStateFld p) st
  let s := left.foldl (fun s f =>
    s.ringSend p (rgType f.hdr) (rgOrigin f.hdr) (rgHops f.hdr) (rgWest f.hdr) (rgWrapped f.hdr) f.own f.words) s
  let s := if st = rpUp then s else s.modRing fun r =>
    { r with timed := r.timed && decide (s.srd F.RING_STAT_TPORT ≠ (portCode p)) }
  if s.locallyWrapped = was then s else s.raiseSvc 0x0703 (le 1 (b2n was))

/-- Sends a frame that this module originates: eastbound by E, westbound by W. -/
def State.originate (s : State) (p : RingPort) (type : Nat) (words : List W32) : State :=
  s.ringSend p type s.modid 0 (decide (p = .W)) false true words

/-- Passes a received frame on by the opposite port with one hop more, unless it is this module's own or would reach 511
hops (R394). -/
def State.forward (s : State) (p : RingPort) (f : RingFrame) (words : List W32) : State :=
  if rgOrigin f.hdr = s.modid ∨ 510 ≤ rgHops f.hdr then s
  else s.ringSend (otherPort p) (rgType f.hdr) (rgOrigin f.hdr) (rgHops f.hdr + 1) (rgWest f.hdr) (rgWrapped f.hdr) false words

/-- The bytes of a frame's payload. -/
def ringBytes (ws : List W32) : List Byte := leWords 4 (ws.map (·.toNat))

/-- Bytes as whole payload words, padded with zeros (R405). -/
def ringWords (bs : List Byte) : List W32 := (wordsOf 4 ((bs.length + 3) / 4) bs).map fun w => BitVec.ofNat 32 w

/-- A frame arrived: notes a wrapped ring (R402). -/
def State.noteWrapped (s : State) (f : RingFrame) : State :=
  if rgWrapped f.hdr then (s.modRing fun r => { r with wrapAt := s.now }).swr F.RING_STAT_WRAP 1 else s

/-- The number of the FIFO of a ring port. -/
def ringFifo : RingPort → Nat
  | .E => 0
  | .W => 1

/-- A received frame crosses the FIFO of its port, a word of 32 bits at a time; the Bool tells that all of it has come through (R21, R23,
R155 to R157). -/
def State.crossRing (s : State) (p : RingPort) (f : RingFrame) : State × Bool :=
  let ws := itemWords ((f.hdr.toNat :: f.words.map (·.toNat)) ++ [f.crc.toNat])
  let q := (Sparse.get {} s.svc.fifos (ringFifo p)).carry s.now ws
  (s.modSvc fun d => { d with fifos := Sparse.set {} d.fifos (ringFifo p) q.1 }, decide (q.2 = ws))

/-- A frame on a ring port: nothing where the port carries none; counted and discarded when bad, or when part of it was lost in the
FIFO (R23, R155, R157, R390, R393). -/
def State.ringRx (s : State) (p : RingPort) (type : Nat) (f : RingFrame) (act : State → State) : State :=
  if s.portUp p = false then s
  else
  let q := s.crossRing p f
  let s := q.1
  if ringGood f = false ∨ q.2 = false then s.countUp s.speaker F.RING_CNT_CRC_COUNT
  else if rgType f.hdr ≠ type then s
  else act (s.noteWrapped f)

/-! ### Broadcasts (R405 to R408) -/

/-- Operations that are scheduled (R406). -/
def opScheduled (op : Nat) : Bool := 1 ≤ op && op ≤ 5

/-- The payload of a broadcast (R405). -/
def Bcast.words (b : Bcast) : List W32 :=
  ringWords (le 2 b.seq ++ le 1 b.op ++ le 1 (b2n (opScheduled b.op)) ++ le 8 b.tick ++ b.arg)

/-- The pending transition in the owner's registers: its own, else the first MODE broadcast held (R662, R686, R687). -/
def State.showPending (s : State) (o : OfficeId) : State :=
  match (s.off o).pendMode, s.svc.ring.sched.find? fun b => b.op = 5 with
  | some p, _ =>
    ((s.wr o F.GLB_MODE_PEND_MODE p.target.code).wr o F.GLB_MODE_PEND_SCHED (b2n p.sched)).wrPair o F.GLB_MODE_TICK_LO_TICK_L
      F.GLB_MODE_TICK_HI_TICK_H p.atCount.toNat
  | none, some b =>
    ((s.wr o F.GLB_MODE_PEND_MODE (ofLe (b.arg.take 1) % 16)).wr o F.GLB_MODE_PEND_SCHED 1).wrPair o F.GLB_MODE_TICK_LO_TICK_L
      F.GLB_MODE_TICK_HI_TICK_H b.tick
  | none, none => (s.wr o F.GLB_MODE_PEND_MODE 0).wr o F.GLB_MODE_PEND_SCHED 0

/-- `RING_SM_STAT.PENDING`, and a MODE broadcast among what is held. -/
def State.refreshPending (s : State) : State :=
  let s := s.swr F.RING_SM_STAT_PENDING s.svc.ring.sched.length
  match s.owner with
  | some o => s.showPending o
  | none => s

/-- A stamp moment that the module misses (R407). -/
def State.missStamp (s : State) (b : Bcast) : State :=
  ((s.modRing fun r => { r with missed := true }).countUp s.speaker F.RING_CNT_LATESM_COUNT).raiseSvc 0x0706
    (le 1 b.origin ++ le 2 b.seq ++ le 1 b.op ++ le 8 b.tick)

/-- Acts on the first copy of a broadcast: a scheduled operation is held, or missed when it comes less than 64 ticks ahead
or as a 17th (R405, R407); TRIGGER and ORDER wait for their commands; a reserved `OP` is discarded (R406). -/
def State.actBcast (s : State) (b : Bcast) : State :=
  let s := s.modRing fun r => { r with seen := ((b.origin, b.seq) :: r.seen).take 64 }
  if opScheduled b.op then
    let ahead := (BitVec.ofNat 64 b.tick - s.svc.count).toNat
    if ahead < 64 ∨ 2 ^ 63 ≤ ahead ∨ 16 ≤ s.svc.ring.sched.length then s.missStamp b
    else (s.modRing fun r => { r with sched := r.sched ++ [b] }).refreshPending
  else if b.op = 6 ∨ b.op = 7 then s.modRing fun r => { r with arrived := r.arrived ++ [b] }
  else s

/-- The same, and what it changed is mirrored (R530). -/
def State.takeBcast (s : State) (b : Bcast) : State := (s.actBcast b).mirrorChanges

/-- Originates a broadcast on both ports (R405); `own` tells that the module acts on it itself (R406). -/
def State.broadcast (s : State) (op tick : Nat) (arg : List Byte) (own : Bool) : State :=
  let b : Bcast := { origin := s.modid, seq := s.svc.ring.seq, op := op, tick := tick, arg := arg }
  let s := s.modRing fun r => { r with seq := (r.seq + 1) % 65536 }
  let s := (s.originate .E 3 b.words).originate .W 3 b.words
  if own then s.takeBcast b else s.mirrorChanges

end Sys2Proof.Machine
end

