-- ==== Sys2Proof/Machine/TimeBase.lean ====
section
/-! DEFINITION. The time base: its start, the references of the head, the servo, and epochs (09 R373 to R389, R409 to
R415, R711). -/

namespace Sys2Proof.Machine

/-- States of the time base (R376). -/
def tbFree : Nat := 0
def tbAcquiring : Nat := 1
def tbLocked : Nat := 2
def tbHoldover : Nat := 3
def tbUnsynced : Nat := 4

/-- Changes the servo. -/
def State.modServo (s : State) (f : Servo → Servo) : State := s.modSvc fun d => { d with servo := f d.servo }

/-- Changes what is known from TODIN. -/
def State.modTod (s : State) (f : Tod → Tod) : State := s.modSvc fun d => { d with tod := f d.tod }

/-- The state of the time base. -/
def State.tbState (s : State) : Nat := s.srd F.TB_STAT_STATE

/-- The head's servo changes its state: notice 0x0708 (R387, R421). -/
def State.setServo (s : State) (st : Nat) : State :=
  let old := s.tbState
  if old = st then s else (s.swr F.TB_STAT_STATE st).raiseSvc 0x0708 (le 1 old ++ le 1 st)

/-! ### Error bounds (R376, R389) -/

/-- The quotient rounded up. -/
def ceilDiv (a b : Nat) : Nat := (a + b - 1) / b

/-- The square root rounded up. -/
def ceilSqrt (n : Nat) : Nat := if Nat.sqrt n * Nat.sqrt n = n then Nat.sqrt n else Nat.sqrt n + 1

/-- `ERR` of the head: 100 ns more for every second of HOLDOVER (R389, log entry 33). -/
def State.headErr (s : State) : Nat :=
  if s.tbState = tbAcquiring ∨ s.tbState = tbLocked then errOf s.svc.servo.bound
  else if s.tbState = tbHoldover then errOf (s.svc.servo.bound + ceilDiv ((s.now - s.svc.servo.holdAt) * 100000) 1500000000)
  else 255

/-- Whether a port gives a current offset: eight delay samples, UP, and a SYNC frame that came less than four intervals ago (R396,
R400, R401, log entry 37). -/
def State.portCurrent (s : State) (p : RingPort) : Bool :=
  s.portUp p && decide (8 ≤ (s.svc.ring.port p).samples) &&
    (s.svc.ring.port p).syncAt.any fun a => s.now < a + 4 * 65536

/-- Whether a path of the ring is usable: its port gives a current offset, or, where none does, it is UP (R389). -/
def State.pathUsable (s : State) (p : RingPort) : Bool :=
  s.portCurrent p || (!s.portCurrent (otherPort p) && s.portUp p)

/-- The ring bound in ps, rounded up; without any usable path, by the hops of the timing port (R389). -/
def State.ringBound (s : State) : Nat :=
  let w := s.srd F.RING_STAT_H_W
  let e := s.srd F.RING_STAT_H_E
  if s.pathUsable .W && s.pathUsable .E then ceilSqrt (ceilDiv (36 * w * e) (max 1 (w + e)))
  else ceilSqrt (36 * (if s.pathUsable .W || (!s.pathUsable .E && decide (s.srd F.RING_STAT_TPORT = 0)) then w else e))

/-- `ERR` of a module that is not head, over the head's (R389). -/
def State.memberErr (s : State) (head : Nat) : Nat := if head = 255 then 255 else errOf (boundOf head + s.ringBound)

/-- The head's quality word now (R376). -/
def State.headQuality (s : State) : W16 :=
  qualityWord s.tbState s.svc.tod.tod (s.srd F.TB_UTC_LEAP_ADD = 1) (s.srd F.TB_UTC_LEAP_SUB = 1) false s.headErr

/-- The head's quality word as a member passes it on: its own bound, RHOLD and UNSYNCED (R409). -/
def State.memberQuality (s : State) (q : W16) : W16 :=
  let st := if s.srd F.TB_STAT_UNSYNC = 1 then tbUnsynced else bitsOf q.toNat 13 3
  qualityWord st (bitsOf q.toNat 12 1 = 1) (bitsOf q.toNat 11 1 = 1) (bitsOf q.toNat 10 1 = 1) (s.srd F.TB_STAT_RHOLD = 1)
    (s.memberErr (bitsOf q.toNat 0 8))

/-- A quality word with another `ERR`. -/
def withErr (q : W16) (e : Nat) : W16 := BitVec.ofNat 16 (q.toNat / 256 * 256 + e % 256)

/-- `TB_STAT.ERR` of the head. -/
def State.refreshErr (s : State) : State := s.swr F.TB_STAT_ERR s.headErr

/-! ### Starting (R24, R379 to R381) -/

/-- A die that loads count zero counts rounds from zero. -/
def Tile.loadZero (d : Tile) : Tile := if d.inReset then d else { d with count := 0, reload := none, closedTo := 0 }

/-- An office that loads count zero. -/
def Office.loadZero (d : Office) : Office := if d.inReset then d else { d with count := 0, reload := none }

/-- The start pulse on every tick sync line: every die out of reset loads zero (R24, R710). -/
def State.startPulse (s : State) : State :=
  let s := s.emit (.syncPulse 0 true)
  let s := ((s.modTile 0 Tile.loadZero).modTile 1 Tile.loadZero).modTile 2 Tile.loadZero
  ((s.modTile 3 Tile.loadZero).modOff .A Office.loadZero).modOff .B Office.loadZero

/-- TIME_BASE_START (R24, R379): the start pulse of a start, in its tick. -/
def execTimeBaseStart (s : State) : Out :=
  .next (
    match s.svc.servo.due with
    | none => s
    | some (pm, st, t) =>
      if s.now < t then s else
      let s := s.modSvc fun d => { d with
        count := 0, epochs := [{ tick := 0, pm := pm, inc := nominalInc }], servo := { bound := d.servo.bound, edgeAt := d.servo.edgeAt } }
      let s := (((s.swr F.TB_STAT_STARTED 1).swr F.TB_STAT_SYNCED 0).swr F.TB_STAT_UNSYNC 0).swr F.TB_INC_INC nominalInc
      ((s.startPulse).setServo st).refreshErr)

/-- `TB_START_SEC`. -/
def State.startSec (s : State) : Nat := s.srd F.TB_START_SEC_LO_SEC_L + s.srd F.TB_START_SEC_HI_SEC_H * 2 ^ 32

/-- The TAI second now known from TODIN: the one before that of the next edge. -/
def Tod.known (t : Tod) : Nat := (t.next.getD 0) - 1

/-- Whether the PPSIN edge decides the start (R379). -/
def State.ppsReady (s : State) : Bool := s.srd F.TB_STAT_PPS_OK = 1 && s.srd F.TB_STAT_TOD_OK = 1

/-- TB_START (R379, R380): starts now, at an edge, or is refused with 0x0707. -/
def execTbStart (o : OfficeId) (v : W32) (s : State) : Out :=
  .next (
    let r := s.hostWrite o F.TB_CTL_START.off v.toNat
    let s := r.1
    if bitsOf v.toNat 31 1 = 0 ∨ (s.off o).inReset ∨ (s.off o).d3hot ∨ s.isHead = false then s
    else if r.2 = false ∨ s.owns o = false ∨ s.mode o ≠ .standby ∨
        (s.srd F.TB_STAT_TOD_OK = 1 ∧ s.startSec ≠ 0 ∧ s.startSec ≤ s.svc.tod.known) then s.raise o 0x0707 (le 1 1)
    else if s.ppsReady then s.modServo fun x => { x with armed := true }
    else
      let q := qualityWord tbFree false (s.srd F.TB_UTC_LEAP_ADD = 1) (s.srd F.TB_UTC_LEAP_SUB = 1) false 255
      let pm : Postmark := { sec := BitVec.ofNat 48 s.startSec, ns := 0, frac := 0, quality := q }
      (s.modTod fun t => { t with tod := false }).modServo fun x => { x with armed := false, due := some (pm, tbFree, s.now + 1) })

/-! ### The head's references (R383 to R386) -/

/-- REFIN_LOSS (R383). -/
def execRefinLoss (s : State) : Out :=
  .next (
    if s.isHead ∧ s.srd F.TB_REF_REF_EN = 1 ∧ s.srd F.TB_STAT_REFLOSS = 0 then
      ((s.swr F.TB_STAT_REFLOSS 1).swr F.TB_STAT_REFLOCK 0).raiseSvc 0x070B (le 1 0)
    else s)

/-- REFIN_RETURN (R383): the synthesiser locks, or locks again after a loss. -/
def execRefinReturn (s : State) : Out :=
  .next (
    if s.isHead = false ∨ s.srd F.TB_REF_REF_EN = 0 then s
    else if s.srd F.TB_STAT_REFLOSS = 1 then
      ((s.swr F.TB_STAT_REFLOSS 0).swr F.TB_STAT_REFLOCK 1).raiseSvc 0x070B (le 1 1)
    else s.swr F.TB_STAT_REFLOCK 1)

/-- Whether a TODIN message is valid (R385, R386). -/
def todValid (b : List Byte) (inWindow : Bool) : Bool :=
  let w := fun ofs n => ofLe ((b.drop ofs).take n)
  inWindow && b.length = 24 && w 0 2 = 0xD70A && w 2 1 = 1 && bitsOf (w 3 1) 0 1 = 1 && bitsOf (w 3 1) 3 5 = 0 &&
    bitsOf (w 12 2) 8 8 = 0 && w 20 2 = 0 && w 22 2 = (crc16 (b.take 22)).toNat

/-- The TAI second that the head expects of the next edge. -/
def State.expectedSec (s : State) : Nat := s.postmarkNow.sec.toNat + 1

/-- A valid message that disagrees with the running time base: the third in a row clears `TOD` and raises 0x070A (R386). -/
def State.todCompare (s : State) (sec : Nat) : State :=
  if s.srd F.TB_STAT_STARTED = 0 then s
  else if sec = s.expectedSec then s.modTod fun t => { t with wrong := 0 }
  else
    let s := (s.countUp s.speaker F.TB_CNT_TODERR_COUNT).modTod fun t => { t with wrong := t.wrong + 1 }
    if s.svc.tod.wrong = 3 then
      (s.modTod fun t => { t with tod := false }).raiseSvc 0x070A (le 6 s.expectedSec ++ le 6 sec)
    else s

/-- TOD_MESSAGE_RX (R385, R386). -/
def execTodMessageRx (bytes : List Byte) (inWindow : Bool) (s : State) : Out :=
  .next (
    if s.isHead = false then s
    else if todValid bytes inWindow = false then
      (s.countUp s.speaker F.TB_CNT_TODERR_COUNT).modTod fun t => { t with run := 0, seen := true }
    else
      let w := fun ofs n => ofLe ((bytes.drop ofs).take n)
      let sec := w 4 6
      let t := s.svc.tod
      let run := if t.run ≠ 0 ∧ t.lastSec.any (fun n => n + 1 = sec) then t.run + 1 else 1
      let s := s.modTod fun t =>
        { t with next := some sec, lastSec := some sec, run := run, seen := true, acc := w 12 1, corr := toInt 32 (w 16 4) }
      let s := if 2 ≤ run then s.swr F.TB_STAT_TOD_OK 1 else s
      let s := (s.swr F.TB_UTC_UTC_OFF (w 10 2)).swr F.TB_UTC_LEAP_ADD (bitsOf (w 3 1) 1 1)
      (s.swr F.TB_UTC_LEAP_SUB (bitsOf (w 3 1) 2 1)).todCompare sec)

/-! ### The servo (R384, R387, R388) -/

/-- Units of 2^-32 ns per ns. -/
def nsUnits : Nat := 2 ^ 32

/-- The bounds of INC (R378). -/
def incLo : Int := 0xAA7EF9DB
def incHi : Int := 0xAAD65B7B

/-- The postmark of a PPSIN edge `fine` bins after the present tick's boundary, in units of 2^-32 ns (log entry 34). -/
def State.edgeUnits (s : State) (fine : Nat) : Int :=
  let p := s.postmarkAt s.svc.count.toNat
  p.1.units + (fine * p.2 / 128 : Nat)

/-- The distance of a moment from the nearest whole second. -/
def offSecond (u : Int) : Int :=
  let r := u % secondUnits
  if 2 * r < secondUnits then r else r - secondUnits

/-- Whether the head accepts an edge (R384): within the window of a whole second, wider in HOLDOVER. Before the start the postmark is that
of R711 (log entry 38). -/
def State.acceptsEdge (s : State) (fine : Nat) : Bool :=
  let win := if s.tbState = tbHoldover then 100000000 else s.srd F.TB_PPS_WIN
  decide ((offSecond (s.edgeUnits fine)).natAbs ≤ win * nsUnits)

/-- The servo's update with a phase error (R388): the new integral, the new INC, and whether a limit held. -/
def servoUpdate (incI : Nat) (e : Int) (kp ki slew : Nat) : Nat × Nat × Bool :=
  let i0 : Int := incI - e / 2 ^ ki
  let i1 := clampI incLo incHi i0
  let n0 := i1 - e / 2 ^ kp
  let n1 := clampI incLo incHi (clampI (i1 - slew) (i1 + slew) n0)
  (i1.toNat, n1.toNat, decide (i0 ≠ i1) || decide (n0 ≠ n1))

/-- The servo takes an accepted edge (R387 to R389). -/
def State.servoEdge (s : State) (fine : Nat) : State :=
  let t := s.svc.tod
  if s.tbState = tbHoldover then
    let s := s.modServo fun x => { x with run := x.run + 1 }
    if 4 ≤ s.svc.servo.run then (s.modServo fun x => { x with run := 0 }).setServo tbLocked else s
  else
    let e := offSecond (s.edgeUnits fine) + (t.corr * 2 ^ 32) / 1000
    let u := servoUpdate s.svc.servo.incI e (s.srd F.TB_SERVO_KP_SHIFT) (s.srd F.TB_SERVO_KI_SHIFT) (s.srd F.TB_SERVO_SLEW)
    let ps := roundDiv (e * 1000) (2 ^ 32)
    let s := s.swr F.TB_PPS_ERR_E_PS (ofInt 32 (satI 32 ps))
    let was := s.svc.servo.clamped
    let s := s.modServo fun x =>
      { x with incI := u.1, incNext := some (u.2.1, (s.svc.count.toNat + 2 ^ 19) % 2 ^ 64), clamped := u.2.2
               bound := ceilDiv (e.natAbs * 1000) (2 ^ 32) + boundOf t.acc
               run := if e.natAbs < 100 * nsUnits then x.run + 1 else 0 }
    let s := if u.2.2 ∧ was = false then s.raiseSvc 0x0709 (le 4 u.2.1 ++ le 4 u.1) else s
    if s.tbState = tbAcquiring ∧ 16 ≤ s.svc.servo.run then (s.modServo fun x => { x with run := 0 }).setServo tbLocked
    else s

/-- The edge that starts the time base: tick 0 is the boundary at or after it (R379). -/
def State.startAtEdge (s : State) (fine sec : Nat) : State :=
  let bins := if fine = 0 then 0 else 128 - fine
  let base : Postmark := { sec := BitVec.ofNat 48 sec, ns := 0, frac := 0 }
  let s := (s.modTod fun t => { t with tod := true, wrong := 0 }).modServo fun x => { x with bound := boundOf s.svc.tod.acc }
  let q := qualityWord tbAcquiring true (s.srd F.TB_UTC_LEAP_ADD = 1) (s.srd F.TB_UTC_LEAP_SUB = 1) false
    (errOf s.svc.servo.bound)
  s.modServo fun x =>
    { x with armed := false, due := some ({ base.advance (bins * nominalInc / 128 : Nat) with quality := q }, tbAcquiring,
      if fine = 0 then s.now else s.now + 1) }

/-- PPSIN_EDGE (R379, R384, R387, R388): `fine` bins after the present tick's boundary. -/
def execPpsinEdge (fine : BitVec 7) (s : State) : Out :=
  .next (
    if s.isHead = false then s
    else
      if s.acceptsEdge fine.toNat = false then s.countUp s.speaker F.TB_CNT_PPSREJ_COUNT
      else
        let sec := s.svc.tod.next.getD 0
        let s := (s.swr F.TB_STAT_PPS_OK 1).modServo fun x => { x with edgeAt := some s.now }
        let s := s.modTod fun t => { t with next := t.next.map (· + 1), seen := false }
        if s.svc.servo.armed ∧ (s.startSec = 0 ∨ s.startSec = sec) then s.startAtEdge fine.toNat sec
        else if s.srd F.TB_STAT_STARTED = 1 then (s.servoEdge fine.toNat).refreshErr
        else s)

/-- Ends the window of R385, 900 ms after an accepted edge: a message that has not come counts (R386). -/
def State.missMessage (s : State) : State :=
  if s.isHead ∧ s.svc.tod.seen = false ∧ (s.svc.servo.edgeAt.any fun a => a + ticksOfUs 900000 ≤ s.now) then
    (s.modTod fun t => { t with seen := true }).countUp s.speaker F.TB_CNT_TODERR_COUNT
  else s

/-- SERVO_HOLDOVER (R387): no edge accepted for 2 s. -/
def execServoHoldover (s : State) : Out :=
  .next (
    if s.isHead ∧ (s.svc.servo.edgeAt.all fun a => a + ticksOfUs 2000000 ≤ s.now) then
      let s := s.swr F.TB_STAT_PPS_OK 0
      if s.tbState = tbLocked then
        ((s.modServo fun x => { x with holdAt := s.now, run := 0 }).setServo tbHoldover).refreshErr
      else s
    else s)

/-! ### Epochs (R374, R377, R409) -/

/-- `UTC_OFF` and leap flags as an EPOCH carries them. -/
def State.epochArg (s : State) (pm : Postmark) (inc : Nat) : List Byte :=
  pm.bytes ++ le 4 inc ++ le 2 (s.srd F.TB_UTC_UTC_OFF) ++ le 1 (s.srd F.TB_UTC_LEAP_ADD + 2 * s.srd F.TB_UTC_LEAP_SUB)

/-- INC from boundary `k` on, as the head's servo has decided it (R388). -/
def State.incAt (s : State) (k : Nat) : Nat :=
  match s.svc.servo.incNext with
  | some (i, t) => if tickLe t k then i else s.srd F.TB_INC_INC
  | none => s.srd F.TB_INC_INC

/-- The head sends the EPOCH of the next boundary; at least 2^18 ticks before it, and when INC is decided (R409, log
entry 32). -/
def State.sendEpoch (s : State) : State :=
  let k := (s.svc.count.toNat / 2 ^ 20 + 1) * 2 ^ 20 % 2 ^ 64
  let pm := { (s.postmarkAt k).1 with quality := s.headQuality }
  s.broadcast 1 k (s.epochArg pm (s.incAt k)) true

/-- SYNC_SEND (R398): with it, once an epoch, the EPOCH broadcast. -/
def execSyncSend (s : State) : Out :=
  .next (
    let c := s.svc.count.toNat
    if s.isHead ∧ s.srd F.TB_STAT_STARTED = 1 ∧ c % 65536 = 0 then
      let ws := ringWords (le 8 c ++ le 8 0 ++ le 4 (s.srd F.TB_INC_INC) ++ le 2 s.svc.ring.syncSeq ++ le 2 s.headQuality.toNat)
      let s := s.modRing fun r => { r with syncSeq := (r.syncSeq + 1) % 65536 }
      let s := (s.originate .E 0 ws).originate .W 0 ws
      if c % 2 ^ 20 = 2 ^ 19 + 2 ^ 16 then s.sendEpoch else s
    else s)

/-- The postmark that bytes spell (R375). -/
def postmarkOf (b : List Byte) : Postmark :=
  { sec := BitVec.ofNat 48 (ofLe (b.take 6)), ns := BitVec.ofNat 32 (ofLe ((b.drop 6).take 4))
    frac := BitVec.ofNat 32 (ofLe ((b.drop 10).take 4)), quality := BitVec.ofNat 16 (ofLe ((b.drop 14).take 2)) }

/-- Begins epoch `k` with a postmark and an increment. -/
def State.pushEpoch (s : State) (k : Nat) (pm : Postmark) (inc : Nat) : State :=
  let s := s.modSvc fun d => { d with epochs := ({ tick := k, pm := pm, inc := inc } :: d.epochs).take 64 }
  (s.swr F.TB_INC_INC inc).swr F.TB_STAT_ERR (bitsOf pm.quality.toNat 0 8)

/-- Takes the postmark of the EPOCH where it differs (R409). -/
def State.fixEpoch (s : State) (k : Nat) (mine theirs : Postmark) : State :=
  if mine.units = theirs.units then s
  else
    ((s.modRing fun r => { r with epochFixed := true }).countUp s.speaker F.TB_CNT_EPOCHFIX_COUNT).raiseSvc 0x070C
      (le 8 k ++ le 8 (ofInt 64 (satI 64 (theirs.units - mine.units))))

/-- An epoch begins under the EPOCH broadcast of it, or without one (R381, R409). -/
def State.beginEpoch (s : State) (k : Nat) : State :=
  let own := (s.postmarkAt k).1
  let held := s.svc.ring.sched.find? fun b => b.op = 1 ∧ b.tick = k
  let s := (s.modRing fun r => { r with sched := r.sched.filter fun b => !(b.op = 1 && tickLe b.tick k) }).refreshPending
  match held with
  | some b =>
    let pm := postmarkOf b.arg
    let s := s.fixEpoch k own pm
    let s := if s.isHead then s
      else
        let s := (s.swr F.TB_UTC_UTC_OFF (ofLe ((b.arg.drop 20).take 2))).swr F.TB_UTC_LEAP_ADD (bitsOf (ofLe ((b.arg.drop 22).take 1)) 0 1)
        let s := s.modRing fun r => { r with headErr := bitsOf pm.quality.toNat 0 8 }
        (s.swr F.TB_UTC_LEAP_SUB (bitsOf (ofLe ((b.arg.drop 22).take 1)) 1 1)).swr F.TB_STAT_STATE
          (bitsOf (s.memberQuality pm.quality).toNat 13 3)
    let q := if s.isHead then pm.quality else s.memberQuality pm.quality
    (s.pushEpoch k { pm with quality := q } (ofLe ((b.arg.drop 16).take 4))).swr F.TB_STAT_SYNCED 1
  | none =>
    let q := if s.isHead then s.headQuality else s.memberQuality (withErr own.quality s.svc.ring.headErr)
    s.pushEpoch k { own with quality := q } (if s.isHead then s.incAt k else s.srd F.TB_INC_INC)

/-- The start pulse of a module that has taken its count from the ring; every other die takes the ring's count at the
following round boundary (R381). -/
def State.memberStart (s : State) (k : Nat) : State :=
  let s := s.startPulse
  let s := [(0 : Fin 4), 1, 2, 3].foldl (fun s t => s.modTile t fun d => { d with reload := if d.inReset then none else some s.now }) s
  let s := (s.modOff .A fun d => { d with reload := if d.inReset then none else some s.now }).modOff .B fun d => { d with reload := if d.inReset then none else some s.now }
  let s := (s.modRing fun r => { r with startPending := false }).modSvc fun d => { d with epochs := [] }
  ((((s.swr F.TB_STAT_STARTED 1).swr F.TB_STAT_UNSYNC 0).swr F.TB_STAT_SYNCED 0).swr F.TB_INC_INC s.svc.ring.loadInc).beginEpoch k

/-- EPOCH_BOUNDARY (R374, R377, R381, R409). -/
def execEpochBoundary (s : State) : Out :=
  .next (
    let k := s.svc.count.toNat
    if k % 2 ^ 20 ≠ 0 then s
    else if s.svc.ring.startPending then s.memberStart k
    else if s.srd F.TB_STAT_STARTED = 0 ∨ (s.svc.epochs.head?.any fun e => e.tick = k) then s
    else s.beginEpoch k)

/-! ### Registers (R413, R415) -/

/-- TB_COUNT_READ (R413): latches the count and the postmark of the same tick. -/
def execTbCountRead (o : OfficeId) (s : State) : Out := .next (s.hostRead o 0x0100008)

/-- TB_CNT_CLR (R415). -/
def execTbCntClr (o : OfficeId) (v : W32) (s : State) : Out :=
  .next (s.clearWrite o F.TB_CNT_CLR_PPSREJ.off v.toNat 0
    [F.TB_CNT_PPSREJ_COUNT, F.TB_CNT_TODERR_COUNT, F.TB_CNT_EPOCHFIX_COUNT])

end Sys2Proof.Machine
end

