-- ==== Sys2Proof/Machine/SumStream.lean ====
section
/-! DEFINITION. The tile's side of the sum stream: samples, live frames, captures of the pre-trigger memory, and the type 3
command words (08 R323 to R338; 17 R647). -/

namespace Sys2Proof.Machine

/-! ### Samples (R323 to R327) -/

/-- A converter output after the trims, in units of 2^-14 code: `OFS` added, then converter 1 scaled (R324). -/
def trimmed (trim : W32) (tick raw : Nat) : Int :=
  if tick % 2 = 0 then (4 * raw + toInt 8 (bitsOf trim.toNat 8 8)) * 4096
  else (4 * raw + toInt 8 (bitsOf trim.toNat 16 8)) * (4096 + toInt 8 (bitsOf trim.toNat 24 8))

/-- The set in force at a tick (R327, R329). -/
def Tile.sumAt (d : Tile) (tick : Nat) : SumSet := if tick < d.sumSince then d.sumPrev else d.sumActive

/-- The filter's sum over the taps, in units of 2^-14 code; `conv` starts with the output of `tick` (R325). -/
def Tile.filterSum (d : Tile) (conv : List Nat) (tick : Nat) : Int :=
  let a := d.sumAt tick
  (List.range a.flen.toNat).foldl (fun (acc : Int) k =>
    acc + toInt 16 (Sparse.get 0 a.coef k) * trimmed (d.sumAt (tick - k)).trim (tick - k) (conv.getD k 0)) 0

/-- The filter's output before the clamp (R325). -/
def Tile.filterOut (d : Tile) (conv : List Nat) (tick : Nat) : Int :=
  let sh := (d.sumAt tick).fshift.toNat
  let r : Int := if sh = 0 then 0 else 2 ^ (sh - 1)
  (d.filterSum conv tick + r * 16384) / (16384 * 2 ^ sh)

/-- Flag bits of a sample word (R326). -/
def smpInv : Nat := 0x1000
def smpClip : Nat := 0x2000
def smpDec : Nat := 0x4000
def smpGap : Nat := 0x8000

/-- The value and the flag nibble of a sample word. -/
def smpVal (w : Nat) : Nat := w % 4096
def smpFlags (w : Nat) : Nat := w / 4096 % 16
def smpIsGap (w : Nat) : Bool := 8 ≤ smpFlags w

/-- The sample word of a tick (R325 to R327). -/
def Tile.sampleWord (d : Tile) (conv : List Nat) (tick : Nat) : Nat :=
  let y := d.filterOut conv tick
  let c := clampI 0 4095 y
  let clip := decide (y ≠ c) || (conv.take (d.sumAt tick).flen.toNat).any fun r => r = 0 || r = 4095
  let inv := d.inv.any fun w => decide (w.1 ≤ tick) && decide (tick < w.2)
  c.toNat + (if inv then smpInv else 0) + (if clip then smpClip else 0)

/-- The code of a decimation in a live frame (R332). -/
def decCode (dec : Nat) : Nat :=
  match dec with
  | 1 => 0
  | 2 => 1
  | 4 => 2
  | _ => 3

/-- The live sample of `dec` consecutive sample words (R331). -/
def liveWord (dec : Nat) (ws : List Nat) : Nat :=
  if dec = 1 then ws.headD 0
  else (ws.map smpVal).sum / dec + (ws.foldl (fun f w => f ||| smpFlags w) 0 ||| 4) * 4096

/-- Words `k` at a time. -/
def groupsOf {α : Type} (k : Nat) : Nat → List α → List (List α)
  | 0, _ => []
  | fuel + 1, l => if l = [] then [] else l.take k :: groupsOf k fuel (l.drop k)

/-! ### Sum frames (R332) -/

/-- Quarter ticks until a sum lane's queue drains. -/
def Tile.sumWait (d : Tile) (now : Nat) (o : OfficeId) (k : Nat) : Nat := Sparse.get 0 d.sumBusy (officeBit o * 3 + k) - 4 * now

/-- The UP sum lane with the fewest characters queued, the lowest on a tie. -/
def Tile.sumLaneFor (d : Tile) (now : Nat) (o : OfficeId) : Option Nat :=
  ((List.range 3).filter fun k => (d.upSum.get o).getLsbD k).foldl (fun best k =>
    match best with
    | none => some k
    | some b => if (d.sumWait now o k + 4) / 5 < (d.sumWait now o b + 4) / 5 then some k else some b) none

/-- Sends a sum frame to an office, of `chars` characters: five quarter ticks each. -/
def State.sendSum (s : State) (t : Fin 4) (dest : Vote) (hdr : W32) (ws : List Nat) : State :=
  let d := s.tile t
  match dest with
  | .none => s
  | .office o =>
    match d.sumLaneFor s.now o with
    | none => s
    | some k =>
      let free := 4 * s.now + d.sumWait s.now o k + 5 * (7 + 2 * ws.length)
      (s.modTile t fun d => { d with sumBusy := Sparse.set 0 d.sumBusy (officeBit o * 3 + k) free }).emit
        (.sumFrame t o k (frameBytes hdr (leWords 2 ws)))

/-- The office that live samples of a tick go to: those of rounds before the lane switch still to the lane owner before it (R20,
R521). -/
def State.liveDest (s : State) (t : Fin 4) (tick : Nat) : Vote :=
  let d := s.tile t
  if roundLt (tick / 2 ^ s.svc.roundShift) d.switchRound then d.prevOwner else d.laneOwner

/-- The live frame of the `64 × D` ticks that end with tick `n` (R331, R332). -/
def State.sendLive (s : State) (t : Fin 4) (n : Nat) : State :=
  let d := s.tile t
  let first := n + 1 - 64 * d.dec
  let ws := (List.range (64 * d.dec)).map fun k => Sparse.get 0 d.preTrig ((first + k) % 65536)
  s.sendSum t (s.liveDest t first) (BitVec.ofNat 32 (first / 64 % 2 ^ 22 * 64 + decCode d.dec * 16)) ((groupsOf d.dec 64 ws).map (liveWord d.dec))

/-- Whether the memory takes the sample of tick `n`: not beyond the last one before a freeze (R335). -/
def Tile.writes (d : Tile) (n : Nat) : Bool := d.capture.all fun c => !c.frozen && decide (n ≤ c.endTick)

/-- The memory takes the sample of tick `n`, 32 ticks before the present one (R323, R335). -/
def Tile.writeSample (d : Tile) (n : Nat) : Tile :=
  { d with preTrig := Sparse.set 0 d.preTrig (n % 65536) (d.sampleWord (d.conv.drop 32) n), written := min (d.written + 1) 65536
           inv := d.inv.filter fun x => decide (n < x.2) }

/-- A tick of the sum stream: the converters sample, the tile writes the sample of 32 ticks before, and sends the live
frame that it completes (R323, R331). In QUIET the converters are off (R647). -/
def State.sumTick (s : State) (t : Fin 4) : State :=
  let d := s.tile t
  if d.inReset || d.quiet then s
  else
    let m := d.count.toNat
    let raw := (Config.sumConverter t.val d.sumActive.mask d.sumActive.gain d.sumActive.trim m).toNat
    let s := s.modTile t fun d => { d with conv := (raw :: d.conv).take 64 }
    let n := m - 32
    if m < 32 ∨ d.writes n = false then s
    else
      let s := s.modTile t fun d => d.writeSample n
      if d.dec ≠ 0 ∧ d.decPending = false ∧ (n + 1) % (64 * d.dec) = 0 ∧ d.liveFrom + 64 * d.dec ≤ n + 1 then s.sendLive t n
      else s

/-- DECIMATION_CHANGE (R331): at a multiple of 256 ticks the tile takes the decimation of its UP set; the owner notes it. -/
def execDecimationChange (t : Fin 4) (s : State) : Out :=
  .next (
    let d := s.tile t
    if d.decPending = false ∨ d.inReset ∨ d.count.toNat % 256 ≠ 0 then s
    else
      let u := popcount 3 d.sumLanes.toNat
      let s := s.modTile t fun d => { d with dec := decOf u, decPending := false, liveFrom := d.count.toNat }
      match d.laneOwner with
      | .office o =>
        if s.owns o ∧ s.rd o F.TRG_STAT_DEC t.val ≠ decCode (decOf u) then
          (s.wr o F.TRG_STAT_DEC (decCode (decOf u)) t.val).raise o 0x0607 (le 1 t.val ++ le 1 u ++ le 1 (decOf u))
        else s
      | .none => s)

/-! ### Sum sets (R329, R330) -/

/-- A command word of the office that the vote names (R18). -/
def State.tileCommand (s : State) (t : Fin 4) (o : OfficeId) (f : Tile → Tile) : State :=
  if (s.tile t).vote = .office o ∧ (s.tile t).inReset = false then s.modTile t f else s

/-- A command word that the tile refuses: counted (R330). -/
def State.refuseCommand (s : State) (t : Fin 4) (o : OfficeId) : State :=
  if (s.tile t).vote = .office o ∧ (s.tile t).inReset = false then s.countUp o F.SORT_LN_CNT_BADHDR_COUNT t.val else s

/-- SUM_MASK_LOW (R330). -/
def execSumMaskLow (t : Fin 4) (o : OfficeId) (v : W32) (s : State) : Out :=
  .next (s.tileCommand t o fun d =>
    { d with sumShadow := { d.sumShadow with mask := BitVec.ofNat 64 (setBits d.sumShadow.mask.toNat 0 32 v.toNat) } })

/-- SUM_MASK_HIGH (R330). -/
def execSumMaskHigh (t : Fin 4) (o : OfficeId) (v : W32) (s : State) : Out :=
  .next (s.tileCommand t o fun d =>
    { d with sumShadow := { d.sumShadow with mask := BitVec.ofNat 64 (setBits d.sumShadow.mask.toNat 32 32 v.toNat) } })

/-- SUM_COEFFICIENTS (R330): an odd or too large `k` is a reserved value. -/
def execSumCoefficients (t : Fin 4) (o : OfficeId) (k : Byte) (c0 c1 : W16) (s : State) : Out :=
  .next (
    if k.toNat % 2 = 1 ∨ 30 < k.toNat then s.refuseCommand t o
    else s.tileCommand t o fun d =>
      { d with sumShadow := { d.sumShadow with
          coef := Sparse.set 0 (Sparse.set 0 d.sumShadow.coef k.toNat c0.toNat) (k.toNat + 1) c1.toNat } })

/-- SUM_FILTER_GAIN (R328, R330). -/
def execSumFilterGain (t : Fin 4) (o : OfficeId) (flen fshift gain : Byte) (s : State) : Out :=
  .next (
    if flen = 0 ∨ 32 < flen.toNat ∨ 15 < fshift.toNat ∨ 2 < gain.toNat then s.refuseCommand t o
    else s.tileCommand t o fun d =>
      { d with sumShadow := { d.sumShadow with flen := flen, fshift := fshift, gain := gain } })

/-- SUM_TRIM (R330). -/
def execSumTrim (t : Fin 4) (o : OfficeId) (v : W32) (s : State) : Out :=
  .next (s.tileCommand t o fun d => { d with sumShadow := { d.sumShadow with trim := v } })

/-- SUM_APPLY (R329). -/
def execSumApply (t : Fin 4) (o : OfficeId) (s : State) : Out :=
  .next (s.tileCommand t o fun d => { d with sumApply := true })

/-- The shadow set becomes active at a round boundary, with its settling windows (R327, R329). -/
def Tile.applySums (d : Tile) : Tile :=
  if d.sumApply = false then d
  else
    let a := d.sumActive
    let b := d.sumShadow
    let c := d.count.toNat
    let w1 := if a.mask ≠ b.mask ∨ a.gain ≠ b.gain then [(c, c + 64)] else []
    let w2 := if a.coef ≠ b.coef ∨ a.flen ≠ b.flen ∨ a.fshift ≠ b.fshift then [(c, c + b.flen.toNat + 4)] else []
    let w3 := if a.trim ≠ b.trim then [(c, c + 32)] else []
    { d with sumPrev := a, sumSince := c, sumActive := b, sumApply := false, inv := d.inv ++ w1 ++ w2 ++ w3 }

/-! ### Captures (R334 to R338) -/

/-- CAPTURE_COMMAND (R334, R335): starts a capture, or moves the end of one that has not frozen. -/
def execCaptureCommand (t : Fin 4) (o : OfficeId) (tag : Byte) (start lenm1 : W16) (block : Byte) (s : State) : Out :=
  .next (s.tileCommand t o fun d =>
    match d.capture with
    | some c =>
      if c.frozen = false ∧ c.tag = tag ∧ c.lenm1.toNat < lenm1.toNat then
        { d with capture := some { c with lenm1 := lenm1, endTick := c.startTick + lenm1.toNat - 65536 } }
      else d
    | none =>
      let w := d.count.toNat - 32
      let back := (w + 65536 - start.toNat) % 65536
      let first := w + 65536 - back
      let last := if back < lenm1.toNat + 1 then first + lenm1.toNat - 65536 else w
      let c : Capture :=
        { tag := tag, lenm1 := lenm1, block := block, startTick := first, endTick := last, frozen := false }
      { d with capture := some c })

/-- A requested sample, at its tick plus 65,536: GAP unless it is among the last samples written before the freeze (R337). -/
def Tile.captured (d : Tile) (c : Capture) (tick : Nat) : Nat :=
  if c.endTick + 65536 < tick + d.written ∧ tick ≤ c.endTick + 65536 then Sparse.get 0 d.preTrig (tick % 65536) else smpGap

/-- The least and the greatest word of a block, over its non-GAP samples, with the flags of all (R336, R337). -/
def blockWords (ws : List Nat) : List Nat :=
  let vals := (ws.filter fun w => !smpIsGap w).map smpVal
  let fl := ws.foldl (fun f w => f ||| smpFlags w) 0 * 4096
  [(vals.foldl min (vals.headD 0)) + fl, vals.foldl max 0 + fl]

/-- The words that a capture sends (R336). -/
def Tile.captureWords (d : Tile) (c : Capture) : List Nat :=
  let ws := (List.range (c.lenm1.toNat + 1)).map fun k => d.captured c (c.startTick + k)
  if c.block = 0 then ws else ((groupsOf (2 ^ c.block.toNat) 65536 ws).map blockWords).flatten

/-- Header of a read-out frame (R332). -/
def readoutHeader (tag fidx count : Nat) : W32 :=
  BitVec.ofNat 32 (2 ^ 28 + tag % 256 * 2 ^ 20 + fidx % 1024 * 1024 + count % 256)

/-- CAPTURE_FREEZE (R335, R336): END is written; the memory stops, and the read-out frames are queued. -/
def execCaptureFreeze (t : Fin 4) (s : State) : Out :=
  .next (
    let d := s.tile t
    match d.capture with
    | none => s
    | some c =>
      if c.frozen ∨ d.inReset ∨ d.count.toNat < c.endTick + 32 then s
      else
        let s := s.modTile t fun d => { d with capture := some { c with frozen := true } }
        let gs := groupsOf 64 1024 (d.captureWords c)
        (gs.zip (List.range gs.length)).foldl (fun s g => s.sendSum t d.laneOwner (readoutHeader c.tag.toNat g.2 g.1.length) g.1) s)

/-- CAPTURE_RESUME (R338): the last read-out frame has left the queue, and the tick is a multiple of 64 × D: the memory takes the sample
of this tick's turn. -/
def execCaptureResume (t : Fin 4) (s : State) : Out :=
  .next (
    let d := s.tile t
    if d.capture.any (fun c => c.frozen) ∧ (d.sumBusy.all fun e => e.2 ≤ 4 * s.now) ∧
        d.count.toNat % (64 * max 1 d.dec) = 0 then
      s.modTile t fun d =>
        let d := { d with capture := none, written := 0, liveFrom := d.count.toNat }
        if d.count.toNat < 32 then d else d.writeSample (d.count.toNat - 32)
    else s)

/-! ### Throttle commands (R647) -/

/-- THROTTLE_OVERRIDE (R647): replaces the overrides of a district, in force in the tick after (R50). -/
def execThrottleOverride (t : Fin 4) (o : OfficeId) (district bits : Byte) (s : State) : Out :=
  .next (
    if 63 < district.toNat ∨ 3 < bits.toNat then s.refuseCommand t o
    else s.orderTile o t (.throttle district.toNat bits.toNat))

/-- THROTTLE_CLEAR (R647). -/
def execThrottleClear (t : Fin 4) (o : OfficeId) (s : State) : Out :=
  .next (s.orderTile o t .throttleClear)

/-- Every DLL of a tile is off in QUIET, and every SAR (R52); on leaving it, those that are enabled acquire again (R88, R647). -/
def Tile.setQuiet (d : Tile) (now : Nat) (on : Bool) : Tile :=
  if d.quiet = on then d
  else if on then
    let cs := (d.clusters.map fun e => (e.1, { e.2 with dll := Dll.off })).filter fun e => e.2 ≠ {}
    ({ d with quiet := true, written := 0, clusters := cs }).settleSars now
  else
    (d.clusterCfg.filter fun e => cfgDllEn e.2).foldl
      (fun d e => d.modCluster e.1 fun k => { k with dll := .acquiring (now + 1) })
      { d with quiet := false, conv := [], liveFrom := (d.count.toNat + 96) }

/-- QUIET (R647); the DLLs that it powers down go from locked to unlocked (R91). -/
def execQuiet (t : Fin 4) (o : OfficeId) (enter : Bool) (s : State) : Out :=
  .next (if (s.tile t).vote = .office o ∧ (s.tile t).inReset = false then s.modTileDlls t fun d => d.setQuiet s.now enter else s)

/-- Commands of type 3 (R330, R647); any other `CMD` is reserved. -/
def type3Cmds : List Nat := [0x10, 0x11, 0x12, 0x13, 0x14, 0x15, 0x18, 0x20, 0x21, 0x22]

/-- TILE_COMMAND_REFUSED (R330): a word with a reserved `CMD`. -/
def execTileCommandRefused (t : Fin 4) (o : OfficeId) (word : W64) (s : State) : Out :=
  .next (if type3Cmds.contains (bitsOf word.toNat 0 8) then s else s.refuseCommand t o)

end Sys2Proof.Machine
end

