-- ==== Sys2Proof/Machine/Triggers.lean ====
section
/-! DEFINITION. The owner's side of the sum stream: live frames, sequencers, fires, parcels and reductions (08 R333,
R339 to R352, R363 to R367). -/

namespace Sys2Proof.Machine

/-! ### Programs (R346, R347) -/

/-- The BAR0 offset of a program. -/
def progAddr (t : Fin 4) (p : Nat) : Nat := 0x0610000 + 0x100 * (4 * t.val + p)

/-- A field of a program window. -/
def State.prog (s : State) (o : OfficeId) (t : Fin 4) (p ofs n : Nat) : Nat := ofLe ((s.off o).windowBytes (progAddr t p + ofs) n)

/-- Fields of a program. -/
def State.progBranch (s : State) (o : OfficeId) (t : Fin 4) (p st b : Nat) : Nat := s.prog o t p (4 * (4 * st + b)) 4
def State.progLevel (s : State) (o : OfficeId) (t : Fin 4) (p k : Nat) : Nat := s.prog o t p (128 + 4 * k) 4
def State.progClim (s : State) (o : OfficeId) (t : Fin 4) (p k : Nat) : Nat := s.prog o t p (144 + 2 * k) 2
def State.progTlen (s : State) (o : OfficeId) (t : Fin 4) (p k : Nat) : Nat := s.prog o t p (148 + 4 * k) 4 % 2 ^ 20
def State.progPre (s : State) (o : OfficeId) (t : Fin 4) (p : Nat) : Nat := s.prog o t p 156 2
def State.progPost (s : State) (o : OfficeId) (t : Fin 4) (p : Nat) : Nat := s.prog o t p 160 4
def State.progHoldoff (s : State) (o : OfficeId) (t : Fin 4) (p : Nat) : Nat := s.prog o t p 164 4 % 2 ^ 24
def State.progOpts (s : State) (o : OfficeId) (t : Fin 4) (p : Nat) : Nat := s.prog o t p 168 4

/-- The sequencer of a tile. -/
def State.seq (s : State) (o : OfficeId) (t : Fin 4) : Sequencer := (s.off o).seqs.get t

/-- Changes the sequencer of a tile. -/
def State.modSeq (s : State) (o : OfficeId) (t : Fin 4) (f : Sequencer → Sequencer) : State :=
  s.modOff o fun d => { d with seqs := d.seqs.set t (f (d.seqs.get t)) }

/-- The four tiles. -/
def allTiles : List (Fin 4) := [0, 1, 2, 3]

/-- U: the sum lanes of a tile that are UP at this office (R331). -/
def State.sumUp (s : State) (o : OfficeId) (t : Fin 4) : Nat :=
  ((List.range 3).filter fun k => (s.lane o t (.sum (Fin.ofNat 3 k))).state = .up).length

/-- D as the owner knows it: that of `TRG_STAT.DEC`, else that of its own UP set, 4 where there is no live stream (R331,
R333, log entry 39). -/
def State.decOf (s : State) (o : OfficeId) (t : Fin 4) : Nat :=
  match s.rd o F.TRG_STAT_DEC t.val with
  | 0 => 1
  | 1 => 2
  | 2 => 4
  | _ => if Machine.decOf (s.sumUp o t) = 0 then 4 else Machine.decOf (s.sumUp o t)

/-- L_eval (R333). -/
def State.lEval (s : State) (o : OfficeId) (t : Fin 4) : Nat := 320 + 64 * s.decOf o t

/-! ### Reductions (R352) -/

/-- The key of a reduction. -/
def redKey (t : Fin 4) (r : Nat) : Nat := t.val * 4 + r

/-- Whether a reduction runs. -/
def State.redRuns (s : State) (o : OfficeId) (t : Fin 4) (r : Nat) : Bool :=
  s.owns o && (s.mode o).isData && decide (bitsOf (s.rd o F.TRG_CTL_RED_EN t.val) r 1 = 1)

/-- Adds `n` ticks of one sample word to what a block has seen. -/
def RedBlock.add (b : RedBlock) (w n level : Nat) : RedBlock :=
  let v := smpVal w
  let fl := b.flags ||| (smpFlags w)
  if smpIsGap w then { b with n := b.n + n, flags := fl }
  else
    { n := b.n + n, sum := b.sum + n * v, min := some (match b.min with | some m => Nat.min m v | none => v)
      max := Nat.max b.max v, overs := b.overs + (if level ≤ v then n else 0), flags := fl }

/-- A reduction under the present `B`: where an amendment has changed it, the reduction goes on with the first whole block
of the new size (R352). -/
def State.alignRed (s : State) (o : OfficeId) (t : Fin 4) (r : Nat) : Reduction :=
  let b := s.rd o F.TRG_RED_CFG_B t.val r
  let x := Sparse.get {} (s.off o).reds (redKey t r)
  if x.next.isSome ∧ x.b = b then x
  else { x with next := some (((s.off o).count.toNat / 2 ^ b + 1) % 2 ^ (64 - b)), b := b, blocks := [] }

/-- Feeds a live frame to one reduction. -/
def State.feedRed (s : State) (o : OfficeId) (t : Fin 4) (f : LiveFrame) (r : Nat) : State :=
  if s.redRuns o t r = false then s
  else
    let b := s.rd o F.TRG_RED_CFG_B t.val r
    let level := s.rd o F.TRG_RED_CFG_LEVEL t.val r
    let x := s.alignRed o t r
    let blocks := (f.words.zip (List.range f.words.length)).foldl (fun m e =>
      let k := (f.first + e.2 * f.dec) / 2 ^ b
      if x.next.all fun n => tickLe (n * 2 ^ b) (k * 2 ^ b) then Sparse.update {} m k fun y => y.add e.1 f.dec level else m)
      x.blocks
    s.modOff o fun d => { d with reds := Sparse.set {} d.reds (redKey t r) { x with blocks := blocks } }

/-- Feeds a live frame to the reductions of its tile. -/
def State.feedReds (s : State) (o : OfficeId) (t : Fin 4) (f : LiveFrame) : State :=
  [0, 1, 2, 3].foldl (fun s r => s.feedRed o t f r) s

/-- The 16-byte record of a block; a tick of which nothing came is GAP (R333, R352). -/
def RedBlock.record (b : RedBlock) (k bLog : Nat) (t : Fin 4) (r : Nat) : List Byte :=
  le 4 k ++ le 4 b.sum ++ le 2 (b.min.getD 0) ++ le 2 b.max ++ le 2 (Nat.min b.overs 0xFFFF) ++
    le 1 (b.flags ||| (if b.n < 2 ^ bLog then 8 else 0)) ++ le 1 (t.val + 4 * r + 16 * (bLog - 6))

/-- A reduction record that its pigeonhole cannot take: counted, with 0x0609 at most once per second. -/
def State.dropRed (s : State) (o : OfficeId) (t : Fin 4) (r : Nat) : State :=
  let s := s.countUp o F.TRG_CNT_REDDROP_COUNT t.val
  let x := Sparse.get {} (s.off o).reds (redKey t r)
  let put := fun (s : State) (y : Reduction) => s.modOff o fun d => { d with reds := Sparse.set {} d.reds (redKey t r) y }
  if x.noticeAt.any fun a => s.now - a < ticksOfUs 1000000 then put s { x with drops := x.drops + 1 }
  else (put s { x with drops := 0, noticeAt := some s.now }).raise o 0x0609 (le 1 t.val ++ le 1 r ++ le 4 (x.drops + 1))

/-- REDUCTION_RECORD (R352): L_eval ticks after the last tick of the next block. -/
def execReductionRecord (o : OfficeId) (t : Fin 4) (r : Fin 4) (s : State) : Out :=
  .next (
    let x := if s.redRuns o t r.val then s.alignRed o t r.val else Sparse.get {} (s.off o).reds (redKey t r.val)
    let b := s.rd o F.TRG_RED_CFG_B t.val r.val
    match x.next with
    | none => s
    | some k =>
      if s.redRuns o t r.val = false ∨ tickLt (s.off o).count.toNat ((k + 1) * 2 ^ b - 1 + s.lEval o t) then s
      else
        let y := Sparse.get {} x.blocks k
        let x := { x with next := some ((k + 1) % 2 ^ (64 - b))
                          blocks := x.blocks.filter fun e => tickLt (k * 2 ^ b) (e.1 * 2 ^ b) }
        let s := s.modOff o fun d => { d with reds := Sparse.set {} d.reds (redKey t r.val) x }
        let ph := s.rd o F.TRG_RED_CFG_PH t.val r.val
        let rec_ : PhRecord := { kind := 2, round := s.roundOf (BitVec.ofNat 64 (k * 2 ^ b)), bytes := y.record k b t r.val }
        if s.canTake o ph rec_ then s.queueRecord o ph rec_ else s.dropRed o t r.val)

/-- Reductions that begin to run start with the first whole block; those that stop forget what they have (R352). -/
def State.syncReds (s : State) (o : OfficeId) (t : Fin 4) : State :=
  [0, 1, 2, 3].foldl (fun s r =>
    let x := Sparse.get {} (s.off o).reds (redKey t r)
    let put := fun (s : State) (y : Reduction) => s.modOff o fun d => { d with reds := Sparse.set {} d.reds (redKey t r) y }
    if s.redRuns o t r then put s (s.alignRed o t r) else put s { x with next := none, blocks := [] }) s

/-! ### The live stream (R332, R333) -/

/-- Changes what the owner has of a tile's live stream. -/
def State.modLive (s : State) (o : OfficeId) (t : Fin 4) (f : LiveRx → LiveRx) : State :=
  s.modOff o fun d => { d with live := d.live.set t (f (d.live.get t)) }

/-- The live frame that holds a tick, if it has come. -/
def State.frameOf (s : State) (o : OfficeId) (t : Fin 4) (n : Nat) : Option LiveFrame :=
  ((s.off o).live.get t).frames.find? fun f => f.first ≤ n && n < f.first + 64 * f.dec

/-- Accounts for the frame of tick `n` that has not come by its evaluation: counted once, its ticks GAP (R333). -/
def State.liveGap (s : State) (o : OfficeId) (t : Fin 4) (n : Nat) : State :=
  let first := n / (64 * s.decOf o t) * (64 * s.decOf o t)
  if s.sumUp o t = 0 ∨ (s.frameOf o t n).isSome ∨ ((s.off o).live.get t).missed.contains first then s
  else
    let s := (s.modLive o t fun x => { x with missed := (first :: x.missed).take 64 }).countUp o F.TRG_CNT_LIVEGAP_COUNT t.val
    s.feedReds o t { first := first, dec := s.decOf o t, words := List.replicate 64 smpGap }

/-- LIVE_FRAME_MISSING (R333): at L_eval after a tick whose frame has not come. -/
def execLiveFrameMissing (o : OfficeId) (t : Fin 4) (s : State) : Out :=
  .next (
    let c := (s.off o).count.toNat
    if s.owns o ∧ s.lEval o t ≤ c then s.liveGap o t (c - s.lEval o t) else s)

/-- The sample word of a tick as the sequencer sees it (R333, R340). -/
def State.sampleAt (s : State) (o : OfficeId) (t : Fin 4) (n : Nat) : Nat :=
  match s.frameOf o t n with
  | some f => f.words.getD ((n - f.first) / f.dec) smpGap
  | none => smpGap

/-! ### Parcels (R348 to R351) -/

/-- The tick of a capture's first sample, plus 65,536 (it may lie before tick 0). -/
def CapJob.start (j : CapJob) : Nat := j.parcel.fireTick.toNat + 65536 - j.parcel.preReq

/-- Words of a capture from its first to its last tick. -/
def CapJob.total (j : CapJob) : Nat :=
  let n := j.endTick + 65537 - j.start
  if j.parcel.block = 0 then n else 2 * ((n + 2 ^ j.parcel.block - 1) / 2 ^ j.parcel.block)

/-- Frames of a capture. -/
def CapJob.frameCount (j : CapJob) : Nat := (j.total + 63) / 64

/-- The words received, GAP for those of a frame that was lost. -/
def CapJob.words (j : CapJob) : List W16 :=
  ((List.range j.frameCount).map fun k =>
    let want := min 64 (j.total - 64 * k)
    let got := Sparse.get [] j.frames k
    if got.length = want then got else List.replicate want (BitVec.ofNat 16 smpGap)).flatten

/-- Leading samples, or blocks, that are all GAP (R348). -/
def leadingGap : List W16 → Nat
  | [] => 0
  | w :: ws => if smpIsGap w.toNat then leadingGap ws + 1 else 0

/-- Leading blocks of a summary whose samples are all GAP: no flag but GAP, with min and max 0 (R337, R348). A block that
holds a sample other than a GAP one has a flag of its own, or its value. -/
def leadingGapBlocks : List W16 → Nat
  | a :: b :: ws => if smpFlags a.toNat = 8 && smpVal a.toNat = 0 && smpVal b.toNat = 0 then leadingGapBlocks ws + 1 else 0
  | _ => 0

/-- The parcel of a capture that has ended, its round set (R348 to R350). -/
def CapJob.finish (j : CapJob) (round : Round) : Parcel :=
  let ws := j.words
  let p := j.parcel
  let lost := (List.range j.frameCount).any fun k => Sparse.get [] j.frames k = []
  if p.block = 0 then
    let k := min (leadingGap ws) p.preReq
    { p with samples := ws.drop k, pre := p.preReq - k, trunc := decide (k ≠ 0), lost := lost, round := round }
  else
    let k := min (leadingGapBlocks ws) (p.preReq / 2 ^ p.block)
    { p with samples := ws.drop (2 * k), pre := p.preReq - k * 2 ^ p.block, trunc := decide (k ≠ 0), lost := lost, round := round }

/-- A parcel is lost: counted, notice 0x0606 (R351). -/
def State.loseParcel (s : State) (o : OfficeId) (t : Fin 4) (fire : Nat) (cause : Nat) : State :=
  (s.countUp o F.TRG_CNT_PLOST_COUNT t.val).raise o 0x0606 (le 1 t.val ++ le 8 fire ++ le 1 cause)

/-- The end of a capture at the owner: its parcel, and the hold-off (R344, R348, log entry 40). -/
def State.finishCapture (s : State) (o : OfficeId) (t : Fin 4) (j : CapJob) : State :=
  let c := (s.off o).count
  let p := j.finish (s.roundOf c)
  let hold := s.progHoldoff o t p.prog
  let s := s.modSeq o t fun q => { q with job := none, capEnd := some c.toNat, holdEnd := c.toNat + hold }
  let s := (s.wr o F.TRG_STAT_CAPTURE 0 t.val).wr o F.TRG_STAT_HOLDOFF (b2n (hold ≠ 0)) t.val
  let s := if p.trunc then
      (s.countUp o F.TRG_CNT_TRUNC_COUNT t.val).raise o 0x0605 (le 1 t.val ++ le 8 p.fireTick.toNat ++ le 2 p.pre)
    else s
  if (s.off o).merges p.round.toNat then s.modOff o fun d => { d with parcels := d.parcels ++ [p] } else s

/-- The full first tick of a live frame: the nearest at or before the office's count (R332). -/
def State.fullTick (s : State) (o : OfficeId) (ftick : Nat) : Nat :=
  let c := (s.off o).count.toNat
  (c + 2 ^ 64 - (c + 2 ^ 28 - ftick * 64) % 2 ^ 28) % 2 ^ 64

/-- A live frame whose checks passed: held for evaluation unless its ticks have been taken as GAP; it also shows that a
capture of which frames were lost has ended (R332, R333, R338, log entry 40). -/
def State.takeLive (s : State) (o : OfficeId) (t : Fin 4) (f : LaneFrame) : State :=
  let dec := 2 ^ bitsOf f.hdr.toNat 4 2
  let x : LiveFrame :=
    { first := s.fullTick o (bitsOf f.hdr.toNat 6 22), dec := dec, words := wordsOf 2 64 f.payload }
  if ((s.off o).live.get t).missed.contains x.first then s
  else
    let s := (s.modLive o t fun l => { l with frames := (x :: l.frames).take 32 }).feedReds o t x
    match (s.seq o t).job with
    | some j =>
      if tickLt j.endTick x.first ∧ (j.frames ≠ [] ∨ tickLt (j.endTick + 2 ^ 17) x.first) then s.finishCapture o t j else s
    | none => s

/-- A read-out frame whose checks passed; the last one completes the parcel (R336, R348). -/
def State.takeReadout (s : State) (o : OfficeId) (t : Fin 4) (f : LaneFrame) : State :=
  match (s.seq o t).job with
  | none => s
  | some j =>
    if bitsOf f.hdr.toNat 20 8 ≠ j.tag then s
    else
      let k := bitsOf f.hdr.toNat 10 10
      let ws := (wordsOf 2 (bitsOf f.hdr.toNat 0 8) f.payload).map fun w => BitVec.ofNat 16 w
      let j := { j with frames := Sparse.set [] j.frames k ws }
      let s := s.modSeq o t fun q => { q with job := some j }
      if k + 1 = j.frameCount then s.finishCapture o t j else s

/-- A frame on a sum lane, by its type; only the owner takes samples (R140, R332). -/
def State.takeSumFrame (s : State) (o : OfficeId) (t : Fin 4) (f : LaneFrame) : State :=
  s.takeSum o t f fun s =>
    if frmType f.hdr ≤ 1 ∧ s.owns o = false then s.countUp o F.SORT_LN_CNT_BADHDR_COUNT t.val
    else
      match frmType f.hdr with
      | 0 => s.takeLive o t f
      | 1 => s.takeReadout o t f
      | _ => s

/-- SUM_LIVE_FRAME_RX (R332, R333). -/
def execSumLiveFrameRx (o : OfficeId) (t : Fin 4) (_lane : Fin 3) (f : LaneFrame) (s : State) : Out :=
  .next (s.takeSumFrame o t f)

/-- READOUT_FRAME_RX (R348). -/
def execReadoutFrameRx (o : OfficeId) (t : Fin 4) (_lane : Fin 3) (f : LaneFrame) (s : State) : Out :=
  .next (s.takeSumFrame o t f)

/-! ### Orders (R354, R358) -/

/-- Orders queued or running (R369): each merged tag is an order of its own. -/
def Office.orderCount (d : Office) : Nat :=
  (d.orders.map fun x => 1 + x.merged.length).sum +
    (d.running.map fun e => match e.2 with | some r => 1 + r.order.merged.length | none => 0).sum

/-- `COL_STAT.QUEUED`. -/
def State.refreshOrders (s : State) (o : OfficeId) : State := s.wr o F.COL_STAT_QUEUED ((s.off o).orderCount)

/-- Whether two windows overlap or adjoin (R358, R11). -/
def windowsTouch (a b : Order) : Bool :=
  !later a.firstTick (b.lastTick + 1) && !later b.firstTick (a.lastTick + 1)

/-- The later, and the earlier, of two ticks. -/
def laterOf (a b : W64) : W64 := if later a b then a else b
def earlierOf (a b : W64) : W64 := if later a b then b else a

/-- Whether two orders that have not started are merged (R358). -/
def ordersMerge (x y : Order) : Bool :=
  decide (y.ph = x.ph) && decide (y.opts = x.opts) && decide (y.districts = x.districts) && windowsTouch x y

/-- Two orders merged: the union of the windows and of the clip bits (R358). -/
def Order.merge (y x : Order) : Order :=
  { y with firstTick := earlierOf y.firstTick x.firstTick, lastTick := laterOf y.lastTick x.lastTick
           status := y.status ||| x.status ||| 16, merged := y.merged ++ x.tag :: x.merged }

/-- Puts an order into the queue, merging it with every one that it meets, in the place of the first (R358), with the
number of orders that are newly merged. -/
def mergeOrder (x : Order) (l : List Order) : List Order × Nat :=
  let hit := l.filter (ordersMerge x)
  match hit with
  | [] => (l ++ [x], 0)
  | y :: ys =>
    let before := l.takeWhile fun z => !ordersMerge x z
    let rest := (l.drop (before.length + 1)).filter fun z => !ordersMerge x z
    (before ++ (ys ++ [x]).foldl Order.merge y :: rest, 1 + (hit.filter fun z => z.merged = []).length)

/-- Queues an accepted order, with the clip of R356 at its acceptance: the part more than 2^`AHEAD_LOG2` rounds later
than `STO_NEWEST` is cut off. -/
def State.queueOrder (s : State) (o : OfficeId) (x : Order) : State :=
  let newest := match (s.off o).sto.newestPresent with
    | some n => n
    | none => roundBack (s.roundOf (s.off o).count).toNat 1
  let limit := (newest + 2 ^ s.rd o F.COL_CTL_AHEAD_LOG2 + 1) * 2 ^ s.svc.roundShift - 1
  let last := BitVec.ofNat 64 limit
  let x := if later x.lastTick last then { x with lastTick := last, status := x.status ||| 2 } else x
  let r := mergeOrder x (s.off o).orders
  let s := s.modOff o fun d => { d with orders := r.1 }
  (s.countBy o F.COL_CNT_MERGED_COUNT r.2).refreshOrders o

/-- Notice 0x0601 with a refused or dropped order (R354, R372). -/
def State.refuseOrder (s : State) (o : OfficeId) (tag result : Nat) : State :=
  (s.countUp o F.COL_CNT_REFUSED_COUNT).raise o 0x0601 (le 2 tag ++ le 1 result)

/-- The automatic order of a fire (R345, R353, R354). -/
def State.autoOrder (s : State) (o : OfficeId) (t : Fin 4) (p n pc : Nat) : State :=
  let opts := s.progOpts o t p
  let tag := 0x8000 + 0x1000 * t.val + pc % 4096
  let mask := (s.tile t).sumActive.mask.toNat
  let x : Order :=
    { opts := BitVec.ofNat 8 (bitsOf opts 12 2 + 24), tag := BitVec.ofNat 16 tag, ph := s.prog o t p 172 2
      firstTick := BitVec.ofNat 64 (n + 2 ^ 64 - s.prog o t p 176 4), lastTick := BitVec.ofNat 64 (n + s.prog o t p 180 4)
      districts := BitVec.ofNat 256 (if bitsOf opts 10 1 = 1 then 2 ^ 256 - 1 else mask * 2 ^ (64 * t.val))
      status := 0, merged := [] }
  if s.storeOn o = false then s.refuseOrder o tag 2
  else if 64 ≤ (s.off o).orderCount then s.refuseOrder o tag 7
  else s.queueOrder o x

/-! ### Sequencers (R339 to R345) -/

/-- Sends the capture command of a job (R334, R345). -/
def State.sendCapture (s : State) (o : OfficeId) (t : Fin 4) (j : CapJob) : State :=
  let start := j.start
  let w := cmdWord3 0x18 j.tag (start % 256) (start / 256 % 256) ((j.endTick + 65536 - start) % 65536 + j.parcel.block * 65536)
  s.emit (.downlink o t (dlHeader 3 0 1) [w])

/-- What an honoured fire asks for besides its capture: an automatic order and a ring trigger (R345). -/
def State.fireAlso (s : State) (o : OfficeId) (t : Fin 4) (p n pc : Nat) : State :=
  let opts := s.progOpts o t p
  let s := if bitsOf opts 8 1 = 1 then s.autoOrder o t p n pc else s
  if bitsOf opts 9 1 = 1 then s.broadcast 6 n (le 1 t.val) false else s

/-- The latch of an honoured fire (R345, R364, R365). -/
def State.latchFire (s : State) (o : OfficeId) (t : Fin 4) (n cause : Nat) : State :=
  (s.wrPair o F.TRG_LAST_FIRE_LO_TICK_L F.TRG_LAST_FIRE_HI_TICK_H n t.val).wr o F.TRG_STAT_CAUSE_LAST cause t.val

/-- An honoured fire at tick `n` (R345, R351): with no sum lane its parcel is lost. -/
def State.honour (s : State) (o : OfficeId) (t : Fin 4) (p n cause : Nat) (branch : Byte) : State :=
  let q := s.seq o t
  let s := (s.countUp o F.TRG_CNT_FIRE_COUNT t.val).latchFire o t n cause
  let hold := n + s.progHoldoff o t p
  let free := fun (s : State) =>
    (s.modSeq o t fun q => { q with holdEnd := hold }).wr o F.TRG_STAT_HOLDOFF (b2n (n ≠ hold)) t.val
  let s :=
    if bitsOf (s.progOpts o t p) 6 1 = 0 then free s
    else
      let s := s.modSeq o t fun q => { q with pcnum := q.pcnum + 1 }
      if s.sumUp o t = 0 then (free s).loseParcel o t n 0
      else
        let pm := s.postmarkAt n
        let block := bitsOf (s.progOpts o t p) 2 4
        let par : Parcel :=
          { tile := t, prog := p, branch := branch, fireTick := BitVec.ofNat 64 n, postmark := pm.1, samples := []
            pre := 0, preReq := s.progPre o t p, cause := BitVec.ofNat 16 cause, block := block
            profile := s.rd o F.TRG_STAT_PROFILE_ACT t.val, pcnum := q.pcnum, ext := 0, summary := decide (block ≠ 0)
            trunc := false, extended := false, lost := false, parcelPh := s.prog o t p 174 2, round := 0 }
        let j : CapJob := { parcel := par, endTick := n + s.progPost o t p - 1, tag := q.pcnum.toNat % 256 }
        ((s.modSeq o t fun q => { q with job := some j }).wr o F.TRG_STAT_CAPTURE 1 t.val).sendCapture o t j
  s.fireAlso o t p n q.pcnum.toNat

/-- An extension of the running capture by a fire at tick `n` (R344, R345). -/
def State.extend (s : State) (o : OfficeId) (t : Fin 4) (p n cause : Nat) (j : CapJob) : State :=
  let fire := j.parcel.fireTick.toNat
  let fin := min (fire + (n + 2 ^ 64 - fire) % 2 ^ 64 + s.progPost o t p - 1) (j.start - 1)
  let j := { j with endTick := max j.endTick fin,
                    parcel := { j.parcel with ext := min (j.parcel.ext + 1) 0xFFFF, extended := true } }
  let s := ((s.countUp o F.TRG_CNT_EXT_COUNT t.val).latchFire o t n cause).modSeq o t fun q => { q with job := some j }
  (s.sendCapture o t j).fireAlso o t p n j.parcel.pcnum.toNat

/-- FIRE (R344): a fire at tick `n` is honoured, extends, or is refused. -/
def State.fire (s : State) (o : OfficeId) (t : Fin 4) (p n cause : Nat) (branch : Byte) : State :=
  let q := s.seq o t
  let s := s.modSeq o t fun q => { q with fires := (n :: q.fires).take 8 }
  match q.job with
  | some j =>
    if bitsOf (s.progOpts o t p) 0 1 = 1 ∧ tickLe (n + s.lEval o t + 768) j.endTick then s.extend o t p n cause j
    else s.countUp o F.TRG_CNT_BUSY_COUNT t.val
  | none =>
    if q.capEnd.any fun e => tickLe n e then s.countUp o F.TRG_CNT_BUSY_COUNT t.val
    else if tickLt n q.holdEnd then
      let s := s.countUp o F.TRG_CNT_HOLD_COUNT t.val
      let r := (s.roundOf (BitVec.ofNat 64 n)).toNat + 1
      if bitsOf (s.progOpts o t p) 1 1 = 1 ∧ q.holdNote ≠ r then
        (s.modSeq o t fun q => { q with holdNote := r }).raise o 0x0604 (le 1 t.val ++ le 8 n)
      else s
    else s.honour o t p n cause branch

/-- One level comparator on a sample: whether it holds, and whether it is armed afterwards (R340). -/
def levelStep (lw w : Nat) (armed : Bool) : Bool × Bool :=
  let lvl := bitsOf lw 0 12
  let hys := bitsOf lw 12 8
  let below := bitsOf lw 20 1 = 1
  let v := smpVal w
  if smpIsGap w ∨ smpFlags w % 2 = 1 then (false, armed)
  else
    let beyond := if below then decide (v ≤ lvl) else decide (lvl ≤ v)
    let back := if below then decide (lvl + hys ≤ v) else decide (v + hys ≤ lvl)
    if bitsOf lw 21 1 = 0 then (beyond, armed)
    else if beyond then (armed, false)
    else (false, armed || back)

/-- The sources of tick `n` (R339), and the comparators armed after it. -/
def State.sources (s : State) (o : OfficeId) (t : Fin 4) (p n : Nat) : Nat × List Nat :=
  let q := s.seq o t
  let w := s.sampleAt o t n
  let lv := (List.range 4).map fun k => levelStep (s.progLevel o t p k) w (q.armed.contains k)
  let lbits := (List.range 4).foldl (fun acc k => acc + b2n ((lv.getD k (false, false)).1) * 2 ^ k) 0
  let armed := (List.range 4).filter fun k => (lv.getD k (false, false)).2
  let cbit := fun (k c : Nat) => let l := s.progClim o t p k; b2n (l ≠ 0 && l ≤ c) * 2 ^ (4 + k)
  let xt := allTiles.any fun u => u ≠ t && (s.seq o u).fires.contains ((n + 2 ^ 64 - 1) % 2 ^ 64)
  let timers := b2n (q.t0 = some n) * 64 ||| b2n (q.t1 = some n) * 128 ||| q.raised
  (lbits + cbit 0 q.c0 + cbit 1 q.c1 + timers % 4096 + b2n xt * 4096 + b2n ((s.off o).flashTicks.contains n) * 8192, armed)

/-- Whether a branch holds (R341). -/
def branchHolds (b src : Nat) : Bool :=
  let c := bitsOf b 16 16
  if bitsOf b 15 1 = 1 then src &&& c = c else (src &&& c) ≠ 0

/-- A branch's actions on counters and timers at tick `n` (R342). -/
def Sequencer.act (q : Sequencer) (b n l0 l1 : Nat) : Sequencer :=
  let bit := fun k => bitsOf b k 1 = 1
  let c0 := if bit 8 then 0 else q.c0
  let c1 := if bit 8 then 0 else q.c1
  { q with
    c0 := if bit 10 then min (c0 + 1) 0xFFFF else c0
    c1 := if bit 9 then min (c1 + 1) 0xFFFF else c1
    t0 := if bit 7 ∧ l0 ≠ 0 then some ((n + l0) % 2 ^ 64) else if q.t0 = some n then none else q.t0
    t1 := if bit 6 ∧ l1 ≠ 0 then some ((n + l1) % 2 ^ 64) else if q.t1 = some n then none else q.t1
    state := bitsOf b 12 3 }

/-- One tick of a running sequencer (R341). -/
def State.seqTick (s : State) (o : OfficeId) (t : Fin 4) (p n : Nat) : State :=
  let r := s.sources o t p n
  let src := r.1
  let st := (s.seq o t).state
  let bs := (List.range 4).map fun b => s.progBranch o t p st b
  let s := s.modSeq o t fun q => { q with armed := r.2, raised := 0, tick := (n + 1) % 2 ^ 64 }
  match (List.range 4).find? fun k => branchHolds (bs.getD k 0) src with
  | none =>
    s.modSeq o t fun q => { q with t0 := if q.t0 = some n then none else q.t0, t1 := if q.t1 = some n then none else q.t1 }
  | some k =>
    let b := bs.getD k 0
    let s := s.modSeq o t fun q => q.act b n (s.progTlen o t p 0) (s.progTlen o t p 1)
    let s := s.wr o F.TRG_STAT_STATE (bitsOf b 12 3) t.val
    let conds := bs.foldl (fun acc b => acc ||| bitsOf b 16 16) 0
    if bitsOf b 11 1 = 1 then s.fire o t p n (src &&& conds) (BitVec.ofNat 8 (st + 16 * k)) else s

/-- A sequencer starts: state 0, counters and timers at zero, no tick evaluated twice (R343); it reads its program. -/
def State.startSeq (s : State) (o : OfficeId) (t : Fin 4) : State :=
  let c := (s.off o).count.toNat
  let first := (c + 1 + 2 ^ 64 - s.lEval o t) % 2 ^ 64
  let s := s.useWindow o (progAddr t (s.rd o F.TRG_STAT_PROG_ACT t.val)) 256
  let s := s.modSeq o t fun q =>
    { q with running := true, state := 0, c0 := 0, c1 := 0, t0 := none, t1 := none, armed := [], raised := 0
             tick := if tickLe first q.tick ∧ tickLe q.tick c then q.tick else first }
  s.wr o F.TRG_STAT_STATE 0 t.val

/-- Starts or stops the sequencer of a tile as R343 says, and its reductions. -/
def State.syncSeq (s : State) (o : OfficeId) (t : Fin 4) : State :=
  let run := s.owns o && (s.mode o).isData && s.flag o F.TRG_CTL_ARM t.val
  let s := s.syncReds o t
  if run = (s.seq o t).running then s
  else if run then s.startSeq o t
  else s.modSeq o t fun q => { q with running := false }

/-- Starts and stops what runs in data modes only. -/
def State.syncSeqs (s : State) (o : OfficeId) : State := allTiles.foldl (fun s t => s.syncSeq o t) s

/-- SEQUENCER_STEP (R333, R339 to R345): the next tick, once its sample is due. A program whose window reads
uncorrectable does not run: notice 0x0F21 for each such word (R678). -/
def execSequencerStep (o : OfficeId) (t : Fin 4) (s : State) : Out :=
  .next (
    let s := s.syncSeq o t
    let q := s.seq o t
    let n := q.tick
    if q.running = false ∨ tickLt (s.off o).count.toNat (n + s.lEval o t) then s
    else
      let p := s.rd o F.TRG_STAT_PROG_ACT t.val
      let s := s.liveGap o t n
      if (s.off o).windowBad (progAddr t p) 256 then
        (s.modSeq o t fun q => { q with tick := (n + 1) % 2 ^ 64 }).noticeWindow o (progAddr t p) 256
      else s.seqTick o t p n)

/-- SEQUENCER_TIMER_EXPIRY (R339, R342): a timer that reaches 0 in the tick evaluated next raises its source. -/
def execSequencerTimerExpiry (o : OfficeId) (t : Fin 4) (timer : Bool) (s : State) : Out :=
  .next (
    let q := s.seq o t
    let x := if timer then q.t1 else q.t0
    if q.running ∧ x.any (fun e => tickLe e q.tick) then
      s.modSeq o t fun q =>
        if timer then { q with t1 := none, raised := q.raised ||| 128 } else { q with t0 := none, raised := q.raised ||| 64 }
    else s)

/-- HOLDOFF_EXPIRY (R344): `TRG_STAT.HOLDOFF` falls. -/
def execHoldoffExpiry (o : OfficeId) (t : Fin 4) (s : State) : Out :=
  .next (
    if s.flag o F.TRG_STAT_HOLDOFF t.val ∧ tickLe (s.seq o t).holdEnd (s.off o).count.toNat then s.wr o F.TRG_STAT_HOLDOFF 0 t.val
    else s)

/-- Raises a source in a sequencer (R339). -/
def State.raiseSource (s : State) (o : OfficeId) (t : Fin 4) (bit : Nat) : State :=
  s.modSeq o t fun q => if q.running then { q with raised := q.raised ||| 2 ^ bit } else q

/-- Raises a source in all four sequencers. -/
def State.raiseSources (s : State) (o : OfficeId) (bit : Nat) : State := allTiles.foldl (fun s t => s.raiseSource o t bit) s

/-- A write of `TRG_CTL` (R329, R339, R343, R363): a new profile is loaded; the sequencer and the reductions start or
stop; a strobe raises the HOST source. -/
def State.writeTrgCtl (s : State) (o : OfficeId) (t : Fin 4) (v : Nat) : State :=
  let old := s.rd o F.TRG_CTL_PROFILE t.val
  let r := s.hostWrite o (F.TRG_CTL_ARM.addr t.val 0) v
  if r.2 = false ∨ r.1.owns o = false then r.1
  else
    let s := r.1
    let p := s.rd o F.TRG_CTL_PROFILE t.val
    let s := if p = old then s else s.loadProfile o t p
    let s := s.syncSeq o t
    (if bitsOf v 30 1 = 1 then s.raiseSource o t 11 else s).mirrorChanges

/-- STROBE (R339, R363). -/
def execStrobe (o : OfficeId) (t : Fin 4) (v : W32) (s : State) : Out := .next (s.writeTrgCtl o t v.toNat)

/-- TRG_CNT_CLR (R366, R367). -/
def execTrgCntClr (o : OfficeId) (t : Fin 4) (v : W32) (s : State) : Out :=
  .next (s.clearWrite o (F.TRG_CNT_CLR_FIRE.addr t.val 0) v.toNat t.val
    [F.TRG_CNT_FIRE_COUNT, F.TRG_CNT_HOLD_COUNT, F.TRG_CNT_BUSY_COUNT, F.TRG_CNT_EXT_COUNT, F.TRG_CNT_TRUNC_COUNT,
     F.TRG_CNT_PLOST_COUNT, F.TRG_CNT_LIVEGAP_COUNT, F.TRG_CNT_REDDROP_COUNT])

/-- At a round boundary a new `PROG` or `PROFILE` takes effect, and restarts the sequencer (R343, R363). -/
def State.boundaryProgram (s : State) (o : OfficeId) (t : Fin 4) : State :=
  let p := s.rd o F.TRG_CTL_PROG t.val
  let f := s.rd o F.TRG_CTL_PROFILE t.val
  if p = s.rd o F.TRG_STAT_PROG_ACT t.val ∧ f = s.rd o F.TRG_STAT_PROFILE_ACT t.val then s
  else
    let s := (s.wr o F.TRG_STAT_PROG_ACT p t.val).wr o F.TRG_STAT_PROFILE_ACT f t.val
    if (s.seq o t).running then s.startSeq o t else s

/-- A capture that runs at a change of owner is lost (R343, R351). -/
def State.loseCaptures (s : State) (o : OfficeId) : State :=
  allTiles.foldl (fun s t =>
    match (s.seq o t).job with
    | some j =>
      let s := (s.modSeq o t fun q => { q with job := none }).wr o F.TRG_STAT_CAPTURE 0 t.val
      s.loseParcel o t j.parcel.fireTick.toNat 1
    | none => s) s

end Sys2Proof.Machine
end

