-- ==== Sys2Proof/Machine/Collection.lean ====
section
/-! DEFINITION. Collection orders: submission, the window, extraction, re-encoding and receipts (08 R353 to R362, R369 to
R371; 07 R292, R304, R305). -/

namespace Sys2Proof.Machine

/-! ### Submission (R353, R354) -/

/-- The 64 bytes of an order as fields. -/
def orderOf (b : List Byte) : Order :=
  let w := fun ofs n => ofLe ((b.drop ofs).take n)
  { opts := BitVec.ofNat 8 (w 3 1), tag := BitVec.ofNat 16 (w 4 2), ph := w 6 2, firstTick := BitVec.ofNat 64 (w 8 8)
    lastTick := BitVec.ofNat 64 (w 16 8), districts := BitVec.ofNat 256 (w 24 32), status := 0, merged := [] }

/-- Whether `SYNC`, `VERSION` and every reserved field and value of an order are right; bit 15 of `TAG` and a pigeonhole
above 4,095 count as reserved (R353). -/
def orderWellMade (b : List Byte) : Bool :=
  let w := fun ofs n => ofLe ((b.drop ofs).take n)
  w 0 2 = 0xC011 && w 2 1 = 1 && bitsOf (w 3 1) 0 2 ≠ 3 && bitsOf (w 3 1) 6 2 = 0 && w 4 2 < 0x8000 && w 6 2 < 4096 &&
    w 56 8 = 0

/-- The first cause that refuses an order (R354); 0 for none. -/
def State.orderFault (s : State) (o : OfficeId) (b : List Byte) (fromHost : Bool) : Nat :=
  let x := orderOf b
  if s.owns o = false ∨ (s.off o).twin.release.isSome then 1
  else if s.storeOn o = false then 2
  else if orderWellMade b = false then 3
  else if x.ph < 2 then 4
  else if bitsOf x.opts.toNat 3 2 = 0 ∨ later x.firstTick x.lastTick then 5
  else if fromHost ∧ bitsOf x.opts.toNat 5 1 = 1 ∧ s.isHub = false then 6
  else if 64 ≤ (s.off o).orderCount then 7
  else 0

/-- The bytes of the `COL_ORDER` window. -/
def State.orderWindow (s : State) (o : OfficeId) : List Byte :=
  leWords 4 ((List.range 16).map fun k => s.rd o F.COL_ORDER_W k)

/-- COLLECTION_ORDER_SUBMIT (R354): queued, sent over the ring, or refused. -/
def execCollectionOrderSubmit (o : OfficeId) (v : W32) (s : State) : Out :=
  .next (s.hostAction o F.COL_SUBMIT_GO.off v.toNat 31 fun s =>
    let b := s.orderWindow o
    let x := orderOf b
    let r := s.orderFault o b true
    let s := (s.wr o F.COL_STAT_RESULT r).wr o F.COL_STAT_TAG x.tag.toNat
    if r ≠ 0 then s.refuseOrder o x.tag.toNat r
    else if bitsOf x.opts.toNat 5 1 = 1 then s.broadcast 7 0 b true
    else s.queueOrder o x)

/-- ORDER (R354, R406): an ORDER broadcast, queued against the module's own store. -/
def execOrder (s : State) : Out :=
  .next (
    match s.svc.ring.arrived, s.owner with
    | b :: bs, some o =>
      if b.op ≠ 7 then s
      else
        let s := s.modRing fun r => { r with arrived := bs }
        let x := orderOf b.arg
        match s.orderFault o b.arg false with
        | 0 => s.queueOrder o x
        | r => s.refuseOrder o x.tag.toNat r
    | _, _ => s)

/-- TRIGGER (R339, R406): a TRIGGER broadcast raises the RING source. -/
def execTrigger (s : State) : Out :=
  .next (
    match s.svc.ring.arrived, s.owner with
    | b :: bs, some o => if b.op ≠ 6 then s else (s.modRing fun r => { r with arrived := bs }).raiseSources o 10
    | _, _ => s)

/-! ### Beginning an order (R356, R357, R359) -/

/-- Whether rounds `a` to `b` of `2^rs` ticks meet a window of ticks (R11, R356). -/
def roundsMeet (rs a b first last : Nat) : Bool := roundLe (first / 2 ^ rs) b && roundLe a (last / 2 ^ rs)

/-- The first tick of round `r` of `2^rs` ticks, at or after the round of tick `from_`; and that of a round before it (R15). -/
def startTick (rs r from_ : Nat) : Nat :=
  (from_ / 2 ^ rs + (r + 2 ^ 48 - from_ / 2 ^ rs % 2 ^ 48) % 2 ^ 48) * 2 ^ rs % 2 ^ 64
def startTickBefore (rs r from_ : Nat) : Nat :=
  (2 ^ 64 + from_ / 2 ^ rs * 2 ^ rs - (from_ / 2 ^ rs % 2 ^ 48 + 2 ^ 48 - r) % 2 ^ 48 * 2 ^ rs % 2 ^ 64) % 2 ^ 64

/-- Of the sacks that hold stored rounds, the one that `before` puts first, with its first and last round. -/
def Store.extreme (t : Store) (before : Sack → Sack → Bool) : Option (Sack × Nat × Nat) :=
  t.sacks.foldl (fun b x =>
    match t.present x.2, b with
    | some p, some y => if before x.2 y.1 then some (x.2, p) else b
    | some p, none => some (x.2, p)
    | none, _ => b) none

/-- The sacks whose rounds lie in a window. -/
def Store.meeting (t : Store) (first last : Nat) : Sparse Sack :=
  t.sacks.filter fun e => (t.present e.2).any fun p => roundsMeet e.2.rshift p.1 p.2 first last

/-- The sacks that an order pins: those of its rounds and the `NEXT` of any that spills (R288, R357). -/
def Store.orderPins (t : Store) (first last : Nat) : List Nat :=
  let hit := t.meeting first last
  hit.map (·.1) ++ (hit.filter fun e => e.2.spill).map fun e => e.2.next

/-- The sacks whose rounds lie in a window, with the sack that still holds the tail of a run of theirs, in writing order
(R277). -/
def Store.hits (t : Store) (first last : Nat) : List Nat :=
  let hit := t.meeting first last
  let tails := hit.filter fun e => e.2.spill && decide ((t.sack e.2.next).seq = e.2.seq + 1)
  let ks := hit.map (·.1) ++ tails.map fun e => e.2.next
  ks.eraseDups.mergeSort fun a b => decide ((t.sack a).seq ≤ (t.sack b).seq)

/-- Whether every round of an order's window is stored, or the data modes have been left and every staged round is
stored, so that it waits for none (R309, R356). -/
def State.orderReady (s : State) (o : OfficeId) (x : Order) : Bool :=
  let r := x.lastTick.toNat / 2 ^ s.svc.roundShift
  x.aborted || (!(s.mode o).isData && (s.off o).drained) ||
    ((s.off o).sto.newest.any (roundLe r) && (s.off o).sto.writing.all fun w => roundLt r w.round)

/-- Modes in which the owner serves orders (R356). -/
def Mode.serves : Mode → Bool
  | .standby | .calibration | .streaming | .selective | .held => true
  | _ => false

/-- The window of an order as it begins: clipped to what is stored (R356). -/
def State.clipOrder (s : State) (o : OfficeId) (x : Order) : Order :=
  let t := (s.off o).sto
  match t.extreme fun a b => decide (a.seq < b.seq), t.extreme fun a b => decide (b.seq < a.seq) with
  | some (a, f, _), some (b, _, l) =>
    let x := if roundLt (x.firstTick.toNat / 2 ^ a.rshift) f then
        { x with firstTick := BitVec.ofNat 64 (startTick a.rshift f x.firstTick.toNat), status := x.status ||| 1 }
      else x
    if roundLt l (x.lastTick.toNat / 2 ^ b.rshift) then
      { x with lastTick := BitVec.ofNat 64 (startTickBefore b.rshift l x.lastTick.toNat + 2 ^ b.rshift - 1), status := x.status ||| 2 }
    else x
  | _, _ => { x with status := x.status ||| 2 }

/-- Reads a sack for an order, from its copy (R304, log entry 41). -/
def State.readSack (s : State) (o : OfficeId) (k copy : Nat) : State :=
  match s.locate o copy (k * s.sackLen o) with
  | some p => s.postRead o p.2 ((s.off o).sto.sack k).used
  | none => s

/-- The copy an extraction reads first. -/
def State.firstCopy (s : State) (o : OfficeId) : Nat := (s.copies o).headD 0

/-- COLLECTION_ORDER_START (R356, R357, R359): the order at the head of the queue takes a free slot, pins its rounds, and
reads the sacks it locates. -/
def execCollectionOrderStart (o : OfficeId) (s : State) : Out :=
  .next (
    match (s.off o).orders, (List.range 4).find? fun k => (Sparse.get none (s.off o).running k).isNone with
    | x :: xs, some slot =>
      if s.owns o = false ∨ (s.mode o).serves = false ∨ (s.off o).sto.replayHeld ∨ s.orderReady o x = false then s
      else
        let x := if x.aborted then x else s.clipOrder o x
        let t := (s.off o).sto
        let none_ := x.aborted || (t.extreme fun _ _ => false).isNone || later x.firstTick x.lastTick
        let ks := if none_ then [] else t.hits x.firstTick.toNat x.lastTick.toNat
        let pins := if none_ then [] else t.orderPins x.firstTick.toNat x.lastTick.toNat
        let s := if bitsOf x.opts.toNat 2 1 = 1 then ((s.setPins o pins true).1).refreshStore o else s
        let run : RunningOrder := { order := x, gens := ks.foldl (fun m k => Sparse.set 0 m k ((t.sack k).gen + 1)) [], todo := ks }
        let s := s.modOff o fun d => { d with orders := xs, running := Sparse.set none d.running slot (some run) }
        ks.foldl (fun s k => s.readSack o k (s.firstCopy o)) s
    | _, _ => s)

/-! ### Stored records -/

/-- A stored envelope: its header fields, coding, and body. -/
structure StoredEnv where
  env : Envelope
  module : Nat
  compressed : Bool
  count : Nat
  body : List Byte

/-- The header of an envelope record, without its letters (R186); none when a CRC or a length is wrong (R362). -/
def parseEnvelope (b : List Byte) : Option StoredEnv :=
  let w := fun ofs n => ofLe ((b.drop ofs).take n)
  let body := b.drop 64
  if b.length < 64 ∨ w 0 2 ≠ 0xE5A7 ∨ w 60 4 ≠ (crc32c (b.take 60)).toNat ∨ body.length < w 52 4 then none
  else
    let body := body.take (w 52 4)
    if w 56 4 ≠ (crc32c body).toNat then none
    else
      let e : Envelope :=
        { district := BitVec.ofNat 8 (w 5 1), part := w 6 1, sub := w 7 1, round := BitVec.ofNat 48 (w 8 6), rshift := w 14 1
          more := decide (bitsOf (w 3 1) 2 1 = 1), status := BitVec.ofNat 16 (w 18 2), lateIn := w 20 2, dropped := w 24 4
          calEpoch := BitVec.ofNat 32 (w 28 4), postmark := postmarkOf ((b.drop 32).take 16), inc := BitVec.ofNat 32 (w 48 4)
          letters := [], route := none }
      some { env := e, module := w 4 1, compressed := decide (bitsOf (w 3 1) 0 2 = 1), count := w 16 2, body := body }

/-- Whether a compressed body is a key body (R240). -/
def bodyIsKey (body : List Byte) : Bool := bitsOf (ofLe (body.take 1)) 2 1 = 1

/-- The letters of a stored envelope and its stream's history after it; none where the body is not valid (R248, R362). -/
def StoredEnv.decode (x : StoredEnv) (statics : Nat → List Nat) (h : History) : Option (List (BitVec 80) × History) :=
  if x.compressed then decodeBody statics h x.env.rshift x.env.round.toNat x.env.district.toNat x.count x.body
  else if x.body.length = 10 * x.count then some ((wordsOf 10 x.count x.body).map fun n => BitVec.ofNat 80 n, h)
  else none

/-! ### Delivery (R355, R360, R361) -/

/-- Changes a running order. -/
def State.modRun (s : State) (o : OfficeId) (slot : Nat) (f : RunningOrder → RunningOrder) : State :=
  s.modOff o fun d =>
    let v := Sparse.set none d.running slot ((Sparse.get none d.running slot).map f)
    { d with running := v }

/-- Delivers a record of an order to its pigeonhole (R359); its bytes count when the pigeonhole takes it (R370). -/
def State.deliverOrder (s : State) (o : OfficeId) (x : Order) (round : Round) (bytes : List Byte) : State :=
  s.queueRecord o x.ph { kind := 1, round := round, bytes := bytes, order := true, tag := x.tag }

/-- Something of an order is unreadable: `PARTIAL` (R362). -/
def State.markPartial (s : State) (o : OfficeId) (slot : Nat) : State :=
  s.modRun o slot fun r => { r with order := { r.order with status := r.order.status ||| 8 } }

/-- Skips a record of a stream, with `PARTIAL` and notice 0x0603 once per sack and stream; `rest` skips the stream up to its next key
envelope too, as a compressed record does (R362). -/
def State.skipStream (s : State) (o : OfficeId) (slot : Nat) (sack stream : Nat) (rest : Bool) : State :=
  match Sparse.get none (s.off o).running slot with
  | none => s
  | some r =>
    let key := sack * 1024 + stream
    let s := (s.markPartial o slot).modRun o slot fun r =>
      { r with skip := if rest && !r.skip.contains stream then stream :: r.skip else r.skip
               noted := if r.noted.contains key then r.noted else key :: r.noted }
    if r.noted.contains key then s else s.raise o 0x0603 (le 2 r.order.tag.toNat ++ le 4 sack ++ le 2 stream)

/-- The runs up to the next valid mark are unreadable (R304): which streams had records there is not known, so every stream waits for
its next key envelope (log entry 41). -/
def State.skipRuns (s : State) (o : OfficeId) (slot : Nat) : State :=
  (s.markPartial o slot).modRun o slot fun r => { r with skip := List.range 260 }

/-- Whether round `r` of `2^rs` ticks meets an order's window (R356). -/
def Order.meets (x : Order) (rs r : Nat) : Bool := roundsMeet rs r r x.firstTick.toNat x.lastTick.toNat

/-- Whether a tick lies in an order's window (R11). -/
def Order.holds (x : Order) (n : Nat) : Bool := tickLe x.firstTick.toNat n && tickLe n x.lastTick.toNat

/-- The first tick of a stored round near an order's window. -/
def Order.startOf (x : Order) (rs r : Nat) : Nat :=
  if roundLe (x.firstTick.toNat / 2 ^ rs) r then startTick rs r x.firstTick.toNat else startTickBefore rs r x.firstTick.toNat

/-- The tick within the round of a stored letter (R107, R189). -/
def storedTick (e : Envelope) (w : BitVec 80) : Nat :=
  if e.rshift ≤ 16 then letterCoarse w % 2 ^ e.rshift else letterCoarse w + e.sub % 2 ^ (e.rshift - 16) * 65536

/-- A stored letter in timed form, by the tables and contexts in force (R361); the stored letter does not hold its
interpolator, which is a free value. None where the checks of R111 or R112 discard it. -/
def State.timedLetter (s : State) (o : OfficeId) (e : Envelope) (w : BitVec 80) : Option EnvLetter × State :=
  let ch := letterChannel w
  let q := storedTick e w
  let db := ch / 4096
  let t := tileOfChannel ch
  let w1 := (s.off o).arrRead 0 (ch * 4 + 1)
  let s := s.arrUse o 0 (ch * 4 + 1)
  let u := s.draw 1
  let slope := s.flag o F.SORT_FE_CTL_SLOPE t.val && decide (bitsOf e.status.toNat 6 1 = 1)
  let inp : CorrIn :=
    { q := q, word := w, interp := t.val * 32768 + clusterOf (cellOfChannel ch) * 2 + u.1, walk := db * 2 + letterGain w
      ocell := toInt 20 (bitsOf w1 0 20), slope := slope, word1 := w1 }
  let c := u.2.correct o ch e.round.toNat inp
  (c.1.map fun tm => { word := w, t := (tm + 4) / 8, q := chargeOf w w1 }, c.2)

/-- Letters in timed form. -/
def State.timedLetters (s : State) (o : OfficeId) (e : Envelope) : List (BitVec 80) → List EnvLetter × State
  | [] => ([], s)
  | w :: ws =>
    let a := s.timedLetter o e w
    let b := a.2.timedLetters o e ws
    ((match a.1 with | some l => l :: b.1 | none => b.1), b.2)

/-- Delivers the decoded envelope that an order holds back; `more` tells that further envelopes of its district round follow (R189,
R361). -/
def State.flushHeld (s : State) (o : OfficeId) (slot : Nat) (more : Bool) : State :=
  match Sparse.get none (s.off o).running slot with
  | none => s
  | some r =>
    match r.held with
    | none => s
    | some h =>
      let e := { h.env with more := more }
      let s := s.modRun o slot fun r => { r with held := none }
      s.deliverOrder o r.order e.round
        (if bitsOf r.order.opts.toNat 0 2 = 1 then e.record h.module .plain e.plainBody else e.record h.module .timed e.timedBody)

/-- Whether an envelope carries loss bits (R187, R361). -/
def Envelope.hasLoss (e : Envelope) : Bool := bitsOf e.status.toNat 0 6 ≠ 0 || bitsOf e.status.toNat 8 1 ≠ 0

/-- Delivers a decoded envelope as plain or timed (R361): held back until the next one shows whether its district round goes on. An
envelope without letters in the window goes only with loss bits; those stand in the last envelope of a district round (R188). -/
def State.deliverDecoded (s : State) (o : OfficeId) (slot : Nat) (r : RunningOrder) (v : StoredEnv) (ws : List (BitVec 80)) : State :=
  let x := r.order
  let start := x.startOf v.env.rshift v.env.round.toNat
  let ws := ws.filter fun w => x.holds (start + storedTick v.env w)
  let same := r.held.any fun h => h.env.round = v.env.round && h.env.district = v.env.district
  if ws = [] ∧ v.env.hasLoss = false then if same then s else s.flushHeld o slot false
  else
    let s := s.flushHeld o slot same
    let q := if bitsOf x.opts.toNat 0 2 = 1 then
        ({ v.env with letters := ws.map fun w => { word := w, t := 0, q := 0 } }, s)
      else
        let t := s.timedLetters o v.env ws
        ({ v.env with letters := t.1, calEpoch := BitVec.ofNat 32 (t.2.rd o F.SORT_CAL_EPOCH_EPOCH) }, t.2)
    q.2.modRun o slot fun r => { r with held := some { env := q.1, module := v.module } }

/-- Codes an envelope again as compression at effort 1 would, from a key envelope on (R360). A body no shorter than
plain, or without a readable table, is delivered plain with the history as it was (R253, R256); one that fails verification, plain with
`KEYPEND` (R252, R254). -/
def State.recode (s : State) (o : OfficeId) (slot : Nat) (x : Order) (v : StoredEnv) (ws : List (BitVec 80)) (stream : Nat)
    (saved : History) : State :=
  let e := { v.env with letters := ws.map fun w => { word := w, t := 0, q := 0 } }
  let key := saved.keypend
  let h := if key then saved.key else saved
  let t := s.chooseTable o 1 key h
  let ts := (CmpBody.env e).tokens h
  let plain := e.record v.module .plain e.plainBody
  let keep := fun (s : State) (h : History) => s.modRun o slot fun r =>
    { r with enc := Sparse.set none r.enc stream (some h) }
  match t.2 with
  | none => (keep t.1 saved).deliverOrder o x e.round plain
  | some m =>
    let body := bodyBytes key m.1 m.2.1 ts.1
    if !(CmpBody.env e).verifies (t.1.off o).statics saved body then
      (keep t.1 { saved with keypend := true }).deliverOrder o x e.round plain
    else if 10 * ws.length ≤ body.length then (keep t.1 saved).deliverOrder o x e.round plain
    else (keep t.1 (ts.2.after 1 ts.1 ws.length m.2.1 m.2.2)).deliverOrder o x e.round (e.record v.module .compressed body)

/-- Whether a round is a key round: by `KEY_LOG2`, or as the first of its sack (R235, R360). -/
def State.keyRound (s : State) (o : OfficeId) (sack r : Nat) : Bool :=
  let k := s.rd o F.CMP_CTL_KEY_LOG2
  (decide (k ≠ 0) && decide (r % 2 ^ k = 0)) || decide (((s.off o).sto.sack sack).first = r)

/-- Delivers an envelope of a compressed order: as stored, or coded again until the stream's next key envelope (R360). -/
def State.deliverCompressed (s : State) (o : OfficeId) (slot sack : Nat) (x : Order) (v : StoredEnv) (ws : List (BitVec 80))
    (bytes : List Byte) : State :=
  let stream := v.env.district.toNat
  let key := v.compressed && bodyIsKey v.body
  match Sparse.get none (s.off o).running slot with
  | none => s
  | some r =>
    let started := (Sparse.get none r.enc stream).isSome
    if r.through.contains stream ∨ key ∨ (started = false ∧ (v.compressed = false ∨ s.keyRound o sack v.env.round.toNat)) then
      (s.modRun o slot fun r => { r with through := if r.through.contains stream then r.through else stream :: r.through }).deliverOrder
        o x v.env.round bytes
    else if v.count = 0 then s.deliverOrder o x v.env.round bytes
    else s.recode o slot x v ws stream ((Sparse.get none r.enc stream).getD {})

/-- Letters that an extraction unit decodes and codes again for an envelope: none where it passes through, or lies outside what has to be
decoded (R426, R427). -/
def RunningOrder.work (r : RunningOrder) (v : StoredEnv) : Nat :=
  let x := r.order
  let stream := v.env.district.toNat
  let inside := x.meets v.env.rshift v.env.round.toNat
  if bitsOf x.opts.toNat 0 2 ≠ 0 then if inside then v.count else 0
  else if r.through.contains stream ∨ (inside ∧ v.compressed ∧ bodyIsKey v.body) then 0
  else if inside ∧ (Sparse.get none r.enc stream).isSome then 2 * v.count
  else v.count

/-- Gives a stream to an extraction unit for `n` letters, one a tick; none while the unit of the stream, or all sixteen, are busy
(R426; log entry 95). -/
def State.takeUnit (s : State) (o : OfficeId) (slot stream n : Nat) : Option State :=
  let busy := (s.off o).units.filter fun u => s.now < u.2.2
  if n = 0 then some s
  else if 16 ≤ busy.length ∨ busy.any (fun u => u.1 = slot && u.2.1 = stream) then none
  else some (s.modOff o fun d => { d with units := busy ++ [(slot, stream, s.now + n)] })

/-- An envelope read for an order (R359 to R362); nothing happens yet while no extraction unit is free (R426). -/
def State.takeEnvelope (s : State) (o : OfficeId) (slot sack : Nat) (r : RunningOrder) (v : StoredEnv) (bytes : List Byte) : State :=
  let stream := v.env.district.toNat
  let key := v.compressed && bodyIsKey v.body
  let x := r.order
  let wanted := x.meets v.env.rshift v.env.round.toNat
  let place : RecPos := { round := v.env.round.toNat, rank := stream * 4096 + v.env.sub % 16 * 256 + v.env.part % 256 }
  let s' := s.modRun o slot fun r => { r with last := some place }
  if bitsOf x.opts.toNat 3 1 = 0 ∨ x.districts.getLsbD stream = false ∨
      (wanted = false ∧ roundLt (x.lastTick.toNat / 2 ^ v.env.rshift) v.env.round.toNat) then s'
  else if r.skip.contains stream && v.compressed && !key then
    if wanted then s'.skipStream o slot sack stream true else s'
  else
    match s'.takeUnit o slot stream (r.work v) with
    | none => s
    | some s =>
      let s := if v.compressed then s.modRun o slot fun r => { r with skip := r.skip.filter fun k => k ≠ stream } else s
      match v.decode (s.off o).statics (Sparse.get {} r.dec stream) with
      | none => s.skipStream o slot sack stream v.compressed
      | some d =>
        let s := s.modRun o slot fun r => { r with dec := Sparse.set {} r.dec stream d.2 }
        if wanted = false then s
        else if bitsOf x.opts.toNat 0 2 = 0 then s.deliverCompressed o slot sack x v d.1 bytes
        else s.deliverDecoded o slot r v d.1

/-- A parcel read for an order: delivered in the coding it was stored in, after the envelopes of its round (R359, R361, R362). -/
def State.takeParcel (s : State) (o : OfficeId) (slot sack : Nat) (round : Round) (r : RunningOrder) (b : List Byte) : State :=
  let w := fun ofs n => ofLe ((b.drop ofs).take n)
  let tile := w 5 1
  let x := r.order
  let body := (b.drop 64).take (w 48 4)
  let stream := 256 + tile
  let packed := decide (bitsOf (w 3 1) 0 2 = 1)
  let key := packed && bodyIsKey body
  let mine := (List.range 64).any fun d => x.districts.getLsbD (tile * 64 + d)
  let wanted := x.holds (w 8 8)
  let s := (s.flushHeld o slot false).modRun o slot fun r =>
    { r with last := some { round := round.toNat, rank := 2 ^ 20 + tile, tick := w 8 8 } }
  if bitsOf x.opts.toNat 4 1 = 0 ∨ mine = false then s
  else if w 60 4 ≠ (crc32c (b.take 60)).toNat ∨ w 56 4 ≠ (crc32c body).toNat then s.skipStream o slot sack stream packed
  else if r.skip.contains stream && packed && !key then
    if wanted then s.skipStream o slot sack stream true else s
  else
    let deliver := fun (s : State) => if wanted then s.deliverOrder o x round b else s
    if packed = false then deliver s
    else
      let s := s.modRun o slot fun r => { r with skip := r.skip.filter fun k => k ≠ stream }
      match decodeParcel (s.off o).statics (Sparse.get {} r.dec stream) (w 32 4) body with
      | none => s.skipStream o slot sack stream true
      | some q => deliver (s.modRun o slot fun r => { r with dec := Sparse.set {} r.dec stream q.2 })

/-- Whether a record comes after another in the order of R359. -/
def RecPos.after (b a : RecPos) : Bool :=
  roundLt a.round b.round ||
    (decide (a.round = b.round) && (decide (a.rank < b.rank) || (decide (a.rank = b.rank) && tickLt a.tick b.tick)))

/-- The place of a record of the run of `round` (R180, R350, R359). -/
def placeOf (round : Round) (b : List Byte) : RecPos :=
  let w := fun ofs n => ofLe ((b.drop ofs).take n)
  if w 0 2 = 0x9A5C then { round := round.toNat, rank := 2 ^ 20 + w 5 1, tick := w 8 8 }
  else { round := round.toNat, rank := w 5 1 * 4096 + w 7 1 % 16 * 256 + w 6 1 % 256 }

/-- A record read for an order: one that the order has passed is not taken again (R359). A record whose envelope cannot be parsed counts as
compressed unless its header, where it is whole, says plain (R362). -/
def State.takeRecord (s : State) (o : OfficeId) (slot sack : Nat) (round : Round) (r : RunningOrder) (b : List Byte) : State :=
  let w := fun ofs n => ofLe ((b.drop ofs).take n)
  if r.last.any fun l => !(placeOf round b).after l then s
  else if w 0 2 = 0x9A5C then s.takeParcel o slot sack round r b
  else
    match parseEnvelope b with
    | some v => s.takeEnvelope o slot sack r v b
    | none =>
      if bitsOf r.order.opts.toNat 3 1 = 0 ∨ r.order.districts.getLsbD (w 5 1) = false then s
      else s.skipStream o slot sack (w 5 1) !(w 60 4 = (crc32c (b.take 60)).toNat && bitsOf (w 3 1) 0 2 = 0)

/-! ### Reads that fail (R292, R304, R305) -/

/-- Whether an order takes records of a stream (R353, R359). -/
def Order.takesStream (x : Order) (stream : Nat) : Bool :=
  if stream < 256 then decide (bitsOf x.opts.toNat 3 1 = 1) && x.districts.getLsbD stream
  else decide (bitsOf x.opts.toNat 4 1 = 1) && (List.range 64).any fun d => x.districts.getLsbD ((stream - 256) * 64 + d)

/-- An unreadable record: skipped where the order takes its stream (R362). -/
def State.skipSelected (s : State) (o : OfficeId) (slot sack stream : Nat) (packed : Bool) : State :=
  match Sparse.get none (s.off o).running slot with
  | some r => if r.order.takesStream stream then s.skipStream o slot sack stream packed else s
  | none => s

/-- An order is done with a sack; with the last of them, what it held back goes out (R359). -/
def State.leaveSack (s : State) (o : OfficeId) (slot sack : Nat) : State :=
  let s := s.modRun o slot fun r => { r with gens := Sparse.erase r.gens sack, todo := r.todo.filter fun k => k ≠ sack }
  if (Sparse.get none (s.off o).running slot).any fun r => r.todo = [] then s.flushHeld o slot false else s

/-- A read whose data is unreadable on every copy: counted, 0x0509 once per sack and `GEN`; what it was decides the rest
(R304, R305). The offset of the notice is a free value. -/
def State.unreadable (s : State) (o : OfficeId) (slot sack : Nat) (f : ReadFinding) : State :=
  let e := (s.off o).sto.sack sack
  let s := s.countUp o F.STO_CNT_RPOIS_COUNT
  let s := if e.badNoted then s
    else
      let q := s.draw 32
      (q.2.modSack o sack fun e => { e with badNoted := true }).raise o 0x0509 (le 4 sack ++ le 4 e.gen ++ le 4 q.1)
  match f with
  | .good _ => s
  | .badHeader => s
  | .badRecord _ stream packed => s.skipSelected o slot sack stream.toNat packed
  | .badMark _ => s.skipRuns o slot
  | .badEntry => s
  | .sackEnd => s

/-- An entry in fault: its sack is absent (R305). -/
def State.entryInFault (s : State) (o : OfficeId) (slot sack : Nat) : State :=
  let e := (s.off o).sto.sack sack
  let s := s.leaveSack o slot sack
  if e.entryFault then s
  else
    (((s.modSack o sack fun e => { e with entryFault := true }).countUp o F.STO_CNT_IDXERR_COUNT).raise o 0x0508
      (le 4 sack ++ le 1 (s.firstCopy o))).refreshStore o

/-- A read that ended badly is tried once more on the same copy, then on the other copy of a mirrored sack (R304). -/
def State.retryRead (s : State) (o : OfficeId) (slot sack tries : Nat) (f : ReadFinding) : State :=
  let other := (s.copies o).filter fun c => c ≠ s.firstCopy o
  let s := s.modRun o slot fun r => { r with tries := r.tries + 1 }
  if tries = 0 then s.readSack o sack (s.firstCopy o)
  else
    match tries, other with
    | 1, c :: _ =>
      if ((s.off o).sto.sack sack).single then (s.modRun o slot fun r => { r with tries := 0 }).unreadable o slot sack f
      else s.readSack o sack c
    | _, _ => (s.modRun o slot fun r => { r with tries := 0 }).unreadable o slot sack f

/-- STORE_READ_COMPLETE (R292, R304, R305, R359 to R362): a read of an extraction has returned one record, the end of the sack, or the
finding that something is unreadable. The sacks are taken one after the other, oldest first. What comes from a sack that has been reopened
is discarded. -/
def execStoreReadComplete (o : OfficeId) (slot : Fin 4) (sack : W32) (gen : W32) (c : Completion) (f : ReadFinding)
    (rec_ : List Byte) (s : State) : Out :=
  .next (
    let k := sack.toNat
    match Sparse.get none (s.off o).running slot.val with
    | none => s
    | some r =>
      let located := Sparse.get 0 r.gens k
      if r.todo.head? ≠ some k ∨ r.order.aborted then s
      else if ((s.off o).sto.sack k).gen + 1 ≠ located ∨ gen.toNat + 1 ≠ located then
        (s.modRun o slot.val fun r => { r with order := { r.order with status := r.order.status ||| 4 } }).leaveSack o slot.val k
      else if f = .badEntry then s.entryInFault o slot.val k
      else if c ≠ .ok then s.retryRead o slot.val k r.tries f
      else
        let s := s.modRun o slot.val fun r => { r with tries := 0 }
        match f with
        | .badRecord _ stream packed => s.skipSelected o slot.val k stream.toNat packed
        | .badMark _ => s.skipRuns o slot.val
        | .badHeader => s
        | .badEntry => s
        | .sackEnd => s.leaveSack o slot.val k
        | .good round => s.takeRecord o slot.val k round r rec_)

/-! ### The end of an order (R355, R370) -/

/-- The receipt of one order: `CODE` 2 when it was aborted, and `MERGED` (R355, R460). -/
def State.orderReceipt (s : State) (o : OfficeId) (x : Order) (tag : W16) : State :=
  let w := (if x.aborted then 0x2000 else 0) + x.status.toNat % 32
  let s := s.writeReceipt o x.ph { kind := 2, last := false, order := false, status := w, dseq := 0, cookie := 0,
                                   offset := 0, len := 0, tag := tag.toNat }
  let s := s.countUp o F.COL_CNT_DONE_COUNT
  let s := if w % 8 = 0 then s
    else (s.countUp o F.COL_CNT_CLIPPED_COUNT).raise o 0x0602 (le 2 tag.toNat ++ le 2 w)
  if bitsOf w 3 1 = 1 then s.countUp o F.COL_CNT_PARTIAL_COUNT else s

/-- COLLECTION_ORDER_COMPLETE (R355, R359): every sack read and its records delivered, the order's mailbag closes and its receipts follow, one
for each order merged into it. -/
def execCollectionOrderComplete (o : OfficeId) (slot : Fin 4) (s : State) : Out :=
  .next (
    match Sparse.get none (s.off o).running slot.val with
    | none => s
    | some r =>
      let x := r.order
      let mine := fun (y : PhRecord) => y.order && decide (y.tag = x.tag)
      let q := (s.off o).ph x.ph
      let tags := x.tag :: x.merged
      if s.portReady o = false ∨ s.mayDeliver o x.ph = false ∨ s.phState o x.ph = phDisabled ∨ s.phState o x.ph = phStalled ∨
          s.receiptRoom o x.ph < tags.length + 1 ∨
          (x.aborted = false ∧ (r.todo ≠ [] ∨ q.queue.any mine ∨ (s.off o).units.any fun u => u.1 = slot.val && s.now < u.2.2)) then s
      else
        let s := s.modPh o x.ph fun q => { q with queue := q.queue.filter fun y => !mine y }
        let s := if q.bag.any fun b => b.order && decide (b.tag = x.tag) then s.closeBag o x.ph else s
        let s := tags.foldl (fun s t => s.orderReceipt o x t) s
        (s.modOff o fun d =>
          { d with running := Sparse.set none d.running slot.val none, units := d.units.filter fun u => u.1 ≠ slot.val }).refreshOrders o)

/-- COL_CNT_CLR (R371). -/
def execColCntClr (o : OfficeId) (v : W32) (s : State) : Out :=
  .next (
    let r := s.hostWrite o F.COL_CNT_CLR_DONE.off v.toNat
    if r.2 then
      let s := r.1.clearBits o v.toNat 0 0
        [F.COL_CNT_DONE_COUNT, F.COL_CNT_CLIPPED_COUNT, F.COL_CNT_PARTIAL_COUNT, F.COL_CNT_MERGED_COUNT,
         F.COL_CNT_REFUSED_COUNT]
      if bitsOf v.toNat 5 1 = 1 then s.clearPair o F.COL_BYTES_LO_COUNT_L F.COL_BYTES_HI_COUNT_H else s
    else r.1)

end Sys2Proof.Machine
end

