-- ==== Sys2Proof/Machine/Hash.lean ====
section
/-! DEFINITION. SHA3-512, the digest of every measurement (12 R474, R480, R489, R495), as FIPS 202 gives it (log entry 4). -/

namespace Sys2Proof.Machine

/-- A lane rotated left. -/
def rotLane (x n : Nat) : Nat := (x * 2 ^ n ||| x / 2 ^ (64 - n)) % 2 ^ 64

/-- The rotation of lane `x + 5 * y`. -/
def laneTurns : List Nat :=
  [0, 1, 62, 28, 27, 36, 44, 6, 55, 20, 3, 10, 43, 25, 39, 41, 45, 15, 21, 8, 18, 2, 61, 56, 14]

/-- The constants of the 24 rounds. -/
def roundConstants : List Nat :=
  [0x0000000000000001, 0x0000000000008082, 0x800000000000808A, 0x8000000080008000, 0x000000000000808B, 0x0000000080000001,
   0x8000000080008081, 0x8000000000008009, 0x000000000000008A, 0x0000000000000088, 0x0000000080008009, 0x000000008000000A] ++
  [0x000000008000808B, 0x800000000000008B, 0x8000000000008089, 0x8000000000008003, 0x8000000000008002, 0x8000000000000080,
   0x000000000000800A, 0x800000008000000A, 0x8000000080008081, 0x8000000000008080, 0x0000000080000001, 0x8000000080008008]

/-- The step theta of the permutation. -/
def laneTheta (a : List Nat) : List Nat :=
  let c := (List.range 5).map fun x => (List.range 5).foldl (fun s y => s ^^^ a.getD (x + 5 * y) 0) 0
  let d := (List.range 5).map fun x => c.getD ((x + 4) % 5) 0 ^^^ rotLane (c.getD ((x + 1) % 5) 0) 1
  (List.range 25).map fun i => a.getD i 0 ^^^ d.getD (i % 5) 0

/-- The steps rho and pi. -/
def laneRhoPi (a : List Nat) : List Nat :=
  (List.range 25).map fun i =>
    let j := (i % 5 + 3 * (i / 5)) % 5 + 5 * (i % 5)
    rotLane (a.getD j 0) (laneTurns.getD j 0)

/-- The step chi. -/
def laneChi (b : List Nat) : List Nat :=
  (List.range 25).map fun i =>
    let y := i / 5 * 5
    b.getD i 0 ^^^ ((2 ^ 64 - 1 - b.getD (y + (i + 1) % 5) 0) &&& b.getD (y + (i + 2) % 5) 0)

/-- A round with its constant. -/
def laneRound (a : List Nat) (rc : Nat) : List Nat :=
  match laneChi (laneRhoPi (laneTheta a)) with
  | x :: xs => (x ^^^ rc) :: xs
  | [] => []

/-- The permutation of 25 lanes. -/
def permuteLanes (a : List Nat) : List Nat := roundConstants.foldl laneRound a

/-- Absorbs blocks of 72 bytes; `fuel` bounds them. -/
def absorbBlocks : Nat → List Nat → List Byte → List Nat
  | 0, a, _ => a
  | fuel + 1, a, bs =>
    if bs = [] then a
    else
      let w := wordsOf 8 9 (bs.take 72)
      absorbBlocks fuel (permuteLanes ((List.range 25).map fun i => a.getD i 0 ^^^ w.getD i 0)) (bs.drop 72)

/-- A message padded to whole blocks. -/
def padBlocks (m : List Byte) : List Byte :=
  let k := 72 - m.length % 72
  if k = 1 then m ++ [0x86] else m ++ [0x06] ++ List.replicate (k - 2) 0 ++ [0x80]

/-- SHA3-512; byte 0 of the digest is the least significant. -/
def sha3_512 (m : List Byte) : BitVec 512 :=
  let b := padBlocks m
  let a := absorbBlocks (b.length / 72) (List.replicate 25 0) b
  BitVec.ofNat 512 ((List.range 8).foldl (fun s i => s + a.getD i 0 * 2 ^ (64 * i)) 0)

end Sys2Proof.Machine
end

