-- ==== Sys2Proof/Machine/Validation.lean ====
section
/-! DEFINITION. Well-formed items (12 R481, R482), validation (R483, and the rules of every chapter on its fields), and
what an amendment may write (R491). -/

namespace Sys2Proof.Machine

/-! ### Well-formed items (R482) -/

/-- Whether `v` lies in a range. -/
def within (v lo hi : Nat) : Bool := decide (lo ≤ v) && decide (v ≤ hi)

/-- The reserved bits of byte `k` of a window of array 0x5 at `addr` (R265, R328, R346, R347, R628, R654, R670). -/
def lockedWindowByte (addr : Nat) : Nat :=
  if addr < 0x0001400 then if within (addr % 64) 24 59 then 0xFF else 0
  else if addr < 0x0401400 then if within (addr % 64) 52 63 then 0xFF else 0
  else if addr < 0x0611000 then
    let k := addr % 256
    if k < 128 then if k % 4 = 0 then 0x3F else 0
    else if k < 144 then if k % 4 = 3 then 0xFF else if k % 4 = 2 then 0xC0 else 0
    else if within k 148 155 then if k % 4 = 3 then 0xFF else if k % 4 = 2 then 0xF0 else 0
    else if k = 158 ∨ k = 159 ∨ k = 167 ∨ k = 170 ∨ k = 171 then 0xFF
    else if k = 168 then 0x80
    else if k = 169 then 0xC8
    else if within k 184 251 then 0xFF
    else 0
  else if addr < 0x0620800 then
    let k := addr % 128
    if k = 10 then 0xFC else if within k 11 15 || within k 80 123 then 0xFF else 0
  else if addr < 0x0A0B000 then
    let k := addr % 16
    if k = 2 then 0xFE else if k = 3 ∨ k = 14 ∨ k = 15 then 0xFF else 0
  else if addr < 0x0B18000 then
    let k := addr % 64
    if within k 12 15 then 0xFF else if 16 ≤ k ∧ (k % 8 = 2 ∨ k % 8 = 3) then 0xFF else 0
  else if addr % 8 = 6 ∨ addr % 8 = 7 then 0xFF
  else 0

/-- The bits of a 64-bit word of arrays 0x0 to 0x3 that no item may set (R64, R65, R92, R195 to R198, R213). -/
def lockedWord (a w : Nat) : Nat :=
  if a = 0 then
    if w % 4 = 0 then 0xFFFFFFF210F8FF00 else if w % 4 = 1 then 0xFFF00000 else 0xFFFFFFFFFFFFFFFF
  else if a = 3 then if w < 32 then 0xF0F0F0F0F0F0F0F0 else 0x1000100010001000
  else 0

/-- The bits of the byte at `addr` that an item may not set; none where nothing there can be written (R482). -/
def lockedByte (image : Bool) (addr : Nat) : Option Nat :=
  match arrayAt addr with
  | some (5, _) => some (lockedWindowByte addr)
  | some (a, w) => some (bitsOf (lockedWord a w) (8 * (addr % 8)) 8)
  | none =>
    let fs := (fieldsAt (addr - addr % 4)).filter fun e => e.1.itemWritable image
    if fs.isEmpty then none
    else some (255 - bitsOf (fs.foldl (fun m e => m ||| (2 ^ e.1.w - 1) * 2 ^ e.1.lo) 0) (8 * (addr % 4)) 8)

/-- Field windows of more than one register: an element of 8 bytes may lie there. -/
def inWindow (addr : Nat) : Bool :=
  (arrayAt addr).isSome || within addr 0x0210000 0x02107F7 || within addr 0x0A04400 0x0A045FF ||
    within addr 0x0A06880 0x0A06FFF || within addr 0x0A07000 0x0A073FF || within addr 0x0A03400 0x0A035FF ||
    within addr 0x0A03600 0x0A037FF

/-- Whether an element may be written where it lies (R482). -/
def elementOk (image : Bool) (esize : Nat) (e : Nat × Nat) : Bool :=
  decide (e.1 % esize = 0) && (decide (esize ≤ 4) || inWindow e.1) &&
    (List.range esize).all fun k =>
      match lockedByte image (e.1 + k) with
      | none => false
      | some m => decide (bitsOf e.2 (8 * k) 8 &&& m = 0)

/-- Whether an item is a fuse item. -/
def Item.isFuse (it : Item) : Bool := it.kind = 0x10 || it.kind = 0x11 || it.kind = 0x12

/-- Whether an item is well formed (R481, R482); `alone` for the sole item of an amendment. -/
def Item.wellFormed (it : Item) (image alone : Bool) : Bool :=
  if it.isFuse then
    !image && alone &&
      (if it.kind = 0x12 then decide (it.target = 0) else decide (it.target < 4)) &&
      (if it.kind = 0x10 then true else decide (it.esize = 0 ∧ it.stride = 0 ∧ it.count2 = 0 ∧ it.stride2 = 0))
  else
    (it.kind = 1 || it.kind = 2) && (it.esize = 1 || it.esize = 2 || it.esize = 4 || it.esize = 8) && decide (1 ≤ it.count) &&
      it.elements.all (elementOk image it.esize)

/-! ### Validation of what items leave (R483) -/

/-- Bytes of a window of an office. -/
def Office.bytesAt (d : Office) (addr ofs n : Nat) : Nat := ofLe (d.windowBytes (addr + ofs) n)

/-- A static set is valid and its CRC matches (R242, R265). -/
def Office.staticOk (d : Office) (k : Nat) : Bool :=
  let a := 0x0401000 + 64 * k
  let b := d.windowBytes a 48
  validTable (tableOfBytes b) && decide (d.bytesAt a 45 3 = 0) && decide (d.bytesAt a 48 4 = (crc32c b).toNat)

/-- A sequencer program (R346). -/
def Office.programOk (d : Office) (a : Nat) : Bool :=
  let w := d.bytesAt a
  let opts := w 168 4
  decide (w 156 2 ≤ 32768) && decide (1 ≤ w 160 4) && decide (w 156 2 + w 160 4 ≤ 65536) && decide (bitsOf opts 2 4 ≤ 10) &&
    decide (bitsOf opts 12 2 ≠ 3) && decide (w 172 2 < 4096) && decide (w 174 2 < 4096) && decide (w 172 2 ≠ 1) &&
    decide (w 174 2 ≠ 1) && (decide (bitsOf opts 8 1 = 0) || decide (w 172 2 ≠ 0)) &&
    decide (w 252 4 = (crc32c (d.windowBytes a 252)).toNat)

/-- A sum profile (R328). -/
def Office.profileOk (d : Office) (a : Nat) : Bool :=
  let w := d.bytesAt a
  within (w 8 1) 1 32 && decide (w 9 1 ≤ 15) && decide (w 10 1 < 3) && decide (w 124 4 = (crc32c (d.windowBytes a 124)).toNat)

/-- Whether `start + k * step` lies in 0 to 1,023 for every point. -/
def codesOk (start step n : Nat) : Bool :=
  let last : Int := (start : Int) + toInt 16 step * ((n : Int) - 1)
  within n 1 1024 && decide (start < 1024) && decide (0 ≤ last) && decide (last < 1024)

/-- A calibration sequence (R670); an empty slot has no values to check (log entry 51). -/
def Office.calSeqOk (d : Office) (a : Nat) : Bool :=
  let w := d.bytesAt a
  decide (w 60 4 = (crc32c (d.windowBytes a 60)).toNat) &&
    (decide (w 0 1 = 0) ||
      (decide (w 0 1 ≤ 3) && decide (w 1 1 < 128) && decide (1 ≤ w 2 2) && within (w 4 4) 4200 (2 ^ 24 - 1) &&
        codesOk (w 8 2) (w 10 2) (w 12 2) && codesOk (w 14 2) (w 16 2) (w 18 2) &&
        decide (w 21 1 &&& (255 - w 20 1) = 0) && decide (w 23 1 &&& (255 - w 22 1) = 0)))

/-- A path table slot (R628). -/
def Office.pathOk (d : Office) (own a : Nat) : Bool :=
  let m := d.bytesAt a 0 1
  if a % 32 < 16 then decide (m = 0) else decide (m ≠ 0) && decide (m ≠ own)

/-- The links of a thermal node: node and conductance (R654). -/
def Office.nodeLinks (d : Office) (i : Nat) : List (Nat × Nat) :=
  ((List.range 6).map fun k =>
    (d.bytesAt (0x0B10000 + 64 * i) (16 + 8 * k) 2, d.bytesAt (0x0B10000 + 64 * i) (20 + 8 * k) 4)).filter (fun l => l.1 ≠ 0xFFFF)

/-- A thermal node (R654). -/
def Office.nodeOk (d : Office) (i : Nat) : Bool :=
  decide (d.bytesAt (0x0B10000 + 64 * i) 0 4 ≠ 0) &&
    (d.nodeLinks i).all fun l => decide (l.1 ≤ 267) && (d.nodeLinks l.1).contains (i, l.2)

/-- A context word 0 (R37, R65, R92, R195). -/
def Office.contextOk (d : Office) (w : Nat) : Bool :=
  let x := d.arrRead 0 w
  let cl := bitsOf x 16 16
  decide (bitsOf cl 0 2 ≠ 3) && decide (bitsOf cl 8 2 ≠ 3) && decide (bitsOf cl 10 2 ≠ 3) &&
    (decide (cellInCluster (w / 4 % 262144) = 0) || decide (cl = 0))

/-- The entries of arrays 0x1 and 0x2 (R106), and of the route table (R213), that a byte range of a word covers. -/
def Office.entryOk (d : Office) (a w k : Nat) : Bool :=
  let e := bitsOf (d.arrRead a w) (16 * k) 16
  if a = 3 then w < 32 || decide (bitsOf e 15 1 = 0) || decide (2 ≤ bitsOf e 0 12) else entryErr e = some 0

/-- A row of pattern `p` + 1 (R619). -/
def State.patternOk (s : State) (o : OfficeId) (p r : Nat) : Bool :=
  decide (s.rd o F.EMT_PAT_ICODE p r ≤ 245) && decide (2 ≤ s.rd o F.EMT_PAT1_WIDTH p r)

/-- A second-order section (R571): |a2| < 1 and |a1| < 1 + a2, in Q2.30. -/
def State.sectionOk (s : State) (o : OfficeId) (k i : Nat) : Bool :=
  let a1 := toInt 32 (s.rd o F.LOOP_BQ_A1_A1 k i)
  let a2 := toInt 32 (s.rd o F.LOOP_BQ_A2_A2 k i)
  decide (-2 ^ 30 < a2 ∧ a2 < 2 ^ 30 ∧ -(2 ^ 30 + a2) < a1 ∧ a1 < 2 ^ 30 + a2)

/-- A conversion table of environment points: its ratios strictly rise (R612). -/
def State.envTableOk (s : State) (o : OfficeId) (t : Nat) : Bool :=
  (List.range 31).all fun k => decide (s.rd o F.ENV_TAB_RATIO_RATIO t k < s.rd o F.ENV_TAB_RATIO_RATIO t (k + 1))

/-- The rule on the place at which an element was written, as the whole image or amendment leaves it (R483). -/
def State.placeOk (s : State) (o : OfficeId) (image : Bool) (esize addr : Nat) : Bool :=
  let d := s.off o
  match arrayAt addr with
  | some (0, w) => w % 4 ≠ 0 || d.contextOk w
  | some (5, _) =>
    if addr < 0x0001400 then d.calSeqOk (addr - addr % 64)
    else if addr < 0x0401400 then d.staticOk ((addr - 0x0401000) / 64)
    else if addr < 0x0611000 then d.programOk (addr - addr % 256)
    else if addr < 0x0620800 then d.profileOk (addr - addr % 128)
    else if addr < 0x0A0B000 then d.pathOk (s.rd o F.GLB_WHO_MODID) (addr - addr % 16)
    else if addr < 0x0B18000 then d.nodeOk ((addr - 0x0B10000) / 64)
    else decide (d.bytesAt (addr - addr % 8) 0 2 ≤ 267)
  | some (a, w) => (List.range 4).all fun k => addr % 8 + esize ≤ 2 * k || 2 * k + 2 ≤ addr % 8 || d.entryOk a w k
  | none =>
    let base := addr - addr % 4
    ((fieldsAt base).all fun e => !e.1.itemWritable image || !e.1.isBad (s.rd o e.1 e.2.1 e.2.2)) &&
      (!within base 0x0A06880 0x0A06FFF || s.patternOk o ((base - 0x0A06880) / 128) ((base - 0x0A06880) % 128 / 8)) &&
      (!within base 0x0A04400 0x0A045FF || s.envTableOk o ((base - 0x0A04400) / 256)) &&
      (!(within base 0x0A04100 0x0A041BF && base % 16 = 0) || decide (s.rd o F.ENV_PT_CFG_R0 ((base - 0x0A04100) / 16) ≠ 0)) &&
      (!(within base 0x0A00000 0x0A003FF && within (base % 512) 0x40 0xDF) ||
        s.sectionOk o ((base - 0x0A00000) / 512) ((base % 512 - 0x40) / 20))

/-- The longest flash of a source of patterns, in ticks (R618, R621): the front buffer may hold any 16 rows. -/
def State.longestFlash (s : State) (o : OfficeId) (p : Nat) : Nat :=
  let pre := s.rd o F.EMT_CFG_PRE_TICKS
  if p = 0 then 16 * (pre + 2048)
  else ((List.range 16).map fun r =>
    if s.rd o F.EMT_PAT_COLS (p - 1) r = 0 then 0 else pre + s.rd o F.EMT_PAT1_WIDTH (p - 1) r + 1).sum

/-- The `PERIOD` of a sequence is not shorter than its longest flash. -/
def State.sequenceOk (s : State) (o : OfficeId) (k : Nat) : Bool :=
  decide (s.longestFlash o (s.rd o F.EMT_SEQ_PATTERN_PATTERN k) ≤ s.rd o F.EMT_SEQ_PERIOD_PERIOD k)

/-- The ring map (R417). -/
def State.ringMapOk (s : State) (o : OfficeId) : Bool :=
  let ws := (List.range 255).map fun i => s.rd o F.RING_MAP0_W0 i
  let ids := ws.map fun w => bitsOf w 0 8
  let n := (ids.findIdx? (· = 0)).getD 255
  let used := ids.take n
  used.Nodup && (ids.drop n).all (· = 0) && ((ws.drop n).all (· = 0)) &&
    ((List.range 255).all fun i => i < n || decide (s.rd o F.RING_MAP1_W1 i = 0)) &&
    decide (((ws.take n).filter fun w => bitsOf w 8 1 = 1).length = 1) &&
    decide (((ws.take n).filter fun w => bitsOf w 9 1 = 1).length = 1) && used.contains (s.rd o F.GLB_WHO_MODID)

/-- The rules between fields that hold of every state left (R128, R175, R260, R275, R312, R383, R572, R581, R583, R585,
R598, R604, R613, R653). -/
def State.crossOk (s : State) (o : OfficeId) : Bool :=
  let rs := s.rd o F.SORT_CTL_ROUND_SHIFT
  let sack := 2 ^ s.rd o F.STO_CFG_SACK_LOG2
  within (s.rd o F.SORT_CLOSE_CLOSE_DLY) 256 (2 ^ (rs + 1) - 1) &&
    decide (s.rd o F.SORT_MG_LATEWIN_LATE_WIN ≤ s.rd o F.SORT_MG_DEADLINE_DEADLINE) &&
    decide (s.rd o F.SORT_MG_DEADLINE_DEADLINE ≤ 2 ^ rs) &&
    (decide (s.rd o F.CMP_CTL_EFFORT = 0) ||
      (decide (s.rd o F.CMP_CTL_ENG_MASK ≠ 0) && (s.off o).staticOk (s.rd o F.CMP_CTL_STATIC_IDX))) &&
    decide (40 * 2 ^ rs + 262144 ≤ sack) && decide (s.rd o F.STO_CFG_GUARD * 16384 < sack) &&
    decide (10 * s.rd o F.TB_REF_REF_N ≤ 1500 * s.rd o F.TB_REF_REF_M) &&
    decide (1500 * s.rd o F.TB_REF_REF_M ≤ 250 * s.rd o F.TB_REF_REF_N) &&
    ((List.range 2).all fun k =>
      decide (s.rd o F.LOOP_OUTLIM_OUT_MIN k ≤ s.rd o F.LOOP_OUTLIM_OUT_MAX k) &&
        decide (s.rd o F.LOOP_LIMIT_V_MAX k * 4096 ≤ s.rd o F.LOOP_OUTLIM_OUT_MAX k * s.rd o F.LOOP_SCALE_REG_GAIN k) &&
        decide (50 ≤ s.rd o F.LOOP_REP_FMIN_FMIN k) &&
        decide (s.rd o F.LOOP_REP_FMIN_FMIN k ≤ s.rd o F.LOOP_REP_FMAX_FMAX k) &&
        decide (s.rd o F.LOOP_REP_FMAX_FMAX k ≤ 1000000) &&
        within (s.rd o F.AUX_F_CFG_FUPD k) 10 500 && within (s.rd o F.AUX_F_CFG_FGATE k) 10 60000) &&
    ((List.range 4).all fun g =>
      decide (s.rd o F.BIAS_GCFG_MODE g ≠ 3) &&
        (let v := toInt 16 (s.rd o F.BIAS_GCFG_G_SET g); decide (-5000 ≤ v ∧ v ≤ 5000))) &&
    ((List.range 12).all fun i =>
      decide (s.rd o F.ENV_PT_CFG_PAIR_EN i = 0) ||
        (let j := s.rd o F.ENV_PT_CFG_PAIR i
         decide (j ≠ i) && decide (s.rd o F.ENV_PT_CFG_PAIR_EN j = 1) && decide (s.rd o F.ENV_PT_CFG_PAIR j = i))) &&
    decide (s.rd o F.SL_LO_LO ≠ s.rd o F.SL_HI_HI) &&
    decide (s.rd o F.THM_CFG_T_THR < s.rd o F.THM_CFG_T_STOP) &&
    ((List.range 64).all fun k => decide (s.rd o F.EMT_SEQ_REPEAT_REPEAT k = 0) || s.sequenceOk o k)

/-- The state that items would leave, for validation only: nothing is sent, and the service die takes every write. -/
def State.trial (s : State) (o : OfficeId) (image : Bool) (items : List Item) : State :=
  let s := (s.wr .A F.TWN_STAT_ROLE 2).wr .B F.TWN_STAT_ROLE 2
  items.foldl (fun s it => it.elements.foldl (fun s e => s.itemElement o image 0 it.esize e) s) s

/-- Whether an item passes validation in the state that all items leave (R483). -/
def State.itemOk (s : State) (o : OfficeId) (image : Bool) (it : Item) : Bool :=
  it.places.all fun a =>
    s.placeOk o image it.esize a &&
      (!within a 0x0A07000 0x0A073FF || s.sequenceOk o ((a - 0x0A07000) / 16)) &&
      (!within a 0x0210000 0x02107F7 || s.ringMapOk o)

/-- The first item that validation rejects; with none, whether the rules between fields hold (R483). `ok` is no failure. -/
inductive Verdict | ok | item (k : Nat) | cross
  deriving DecidableEq, Repr

/-- Validation of items against the state that all of them leave (R483). -/
def State.validate (s : State) (o : OfficeId) (image : Bool) (items : List Item) : Verdict :=
  let t := s.trial o image items
  match items.findIdx? fun it => !it.isFuse && !t.itemOk o image it with
  | some k => .item k
  | none => if t.crossOk o then .ok else .cross

/-! ### What an amendment may write (R491) -/

/-- The rows of R491's table. -/
inductive Target | gap | standby | store | load | loop (k : Nat) | service | none
  deriving DecidableEq, Repr

/-- The registers that change under R202. -/
def gapRegisters : List Nat :=
  [0x0300040, 0x0300044, 0x0300060, 0x0400000, 0x0608048, 0x0100040, 0x0100048, 0x0200004]

/-- The row of R491's table that names an address. -/
def targetOf (addr : Nat) : Target :=
  let base := addr - addr % 4
  match arrayAt addr with
  | some (5, _) =>
    if addr < 0x0001400 then .none else if addr < 0x0620800 then .gap else .service
  | some _ => .gap
  | none =>
    if gapRegisters.contains base then .gap
    else if within base 0x0300100 0x03001FF then .gap
    else if within base 0x0600000 0x06001FF then .gap
    else if [0x0300000, 0x0300500, 0x0300010, 0x0300014].contains base then .standby
    else if base = 0x0500000 then .store
    else if base = 0x0100044 ∨ base = 0x0200000 ∨ within base 0x0210000 0x02107F7 then .load
    else if within base 0x0A00000 0x0A003FF ∧ within (base % 512) 0x34 0xF7 then .loop ((base - 0x0A00000) / 512)
    else if within base 0x0A00000 0x0BFFFFF then .service
    else .none

/-- States of a bias loop (R582). -/
def loopOff : Nat := 0
def loopManual : Nat := 1
def loopAuto : Nat := 2
def loopHeld : Nat := 3

/-- Whether the condition of a row holds (R491, R571). -/
def State.targetAllowed (s : State) (o : OfficeId) (persist : Bool) : Target → Bool
  | .gap | .service => true
  | .standby => s.mode o = .standby
  | .store => s.rd o F.STO_CTL_ENABLE = 0
  | .load => persist
  | .loop k => s.srd F.LOOP_STAT_STATE k ≠ loopAuto
  | .none => false

/-- Whether an amendment may write an item's places. -/
def State.itemAllowed (s : State) (o : OfficeId) (persist : Bool) (it : Item) : Bool :=
  it.isFuse || it.places.all fun a => s.targetAllowed o persist (targetOf a)

/-- Whether an item changes something under R202. -/
def Item.isGap (it : Item) : Bool := it.places.any fun a => targetOf a = .gap

/-- Whether an item waits for the next Loading. -/
def Item.isLoad (it : Item) : Bool := it.places.any fun a => targetOf a = .load

/-- The loops whose coefficients items write. -/
def loopsOf (items : List Item) : List Nat :=
  [0, 1].filter fun k => items.any fun it => !it.isFuse && it.places.any fun a => targetOf a = .loop k

end Sys2Proof.Machine
end

