-- ==== Sys2Proof/Machine/Book.lean ====
section
/-! DEFINITION. Measurements and signatures, the register book, and the verification of an image (12 R473 to R484,
R494 to R498). -/

namespace Sys2Proof.Machine

/-- `n` bytes of `b` from `ofs` on, as a number (R3). -/
def fieldAt (b : List Byte) (ofs n : Nat) : Nat := ofLe ((b.drop ofs).take n)

/-- The bytes of a context string. -/
def asciiBytes (x : String) : List Byte := x.toList.map fun c => BitVec.ofNat 8 c.toNat

/-- SHA3-512 of bytes as a number whose little-endian bytes are the digest. -/
def digestOf (b : List Byte) : Nat := (sha3_512 b).toNat

/-! ### Fuses and keys (R473 to R475) -/

/-- A key slot by its number. -/
def Fuses.slot (f : Fuses) (k : Nat) : KeySlot := f.slots.get ⟨k % 4, Nat.mod_lt _ (by decide)⟩

/-- Replaces a key slot. -/
def Fuses.setSlot (f : Fuses) (k : Nat) (x : KeySlot) : Fuses :=
  { f with slots := f.slots.set ⟨k % 4, Nat.mod_lt _ (by decide)⟩ x }

/-- Whether a slot can verify a signature (R474). -/
def KeySlot.usable (x : KeySlot) : Bool := x.prog && !x.revoked

/-- Programmed bits from bit 0 up to the first unprogrammed one (R473). -/
def thermometer : Nat → Nat → Nat
  | 0, _ => 0
  | n + 1, v => if v % 2 = 1 then thermometer n (v / 2) + 1 else 0

/-- The fused security version (R473). -/
def Fuses.version (f : Fuses) : Nat := thermometer 64 f.svn.toNat

/-- Whether a signature by slot `k` can be checked, the key matches, and the signature holds: the first failing of three
causes, 0 for none (R474). -/
def Fuses.signatureFault (f : Fuses) (k : Nat) (key ctx msg sig : List Byte) : Nat :=
  if 3 < k ∨ (f.slot k).usable = false then 1
  else if sha3_512 key ≠ (f.slot k).digest then 2
  else if Config.mldsaVerify key ctx msg sig = false then 3
  else 0

/-- Shows the fuses in `SEC_STAT` of an office (R509). -/
def State.refreshFuses (s : State) (o : OfficeId) : State :=
  let f := s.svc.fuses
  let mask := fun (g : KeySlot → Bool) => (List.range 4).foldl (fun m k => m + b2n (g (f.slot k)) * 2 ^ k) 0
  ((s.wr o F.SEC_STAT_FUSED_SVN f.version).wr o F.SEC_STAT_KEY_PROG (mask (·.prog))).wr o F.SEC_STAT_KEY_REVOKED
    (mask (·.revoked))

/-! ### Measurements of the running image (R480, R512) -/

/-- The 64 bytes that an array of 16 registers shows. -/
def State.measBytes (s : State) (o : OfficeId) (f : Fld) : List Byte :=
  (List.range 16).flatMap fun k => le 4 (s.rd o f k)

/-- Sets an array of 16 registers to 64 bytes. -/
def State.setMeas (s : State) (o : OfficeId) (f : Fld) (b : List Byte) : State :=
  (List.range 16).foldl (fun s k => s.wr o f (fieldAt b (4 * k) 4) k) s

/-- The running image measurement. -/
def State.imageMeas (s : State) (o : OfficeId) : List Byte := s.measBytes o F.SEC_MEAS_IMAGE_W

/-! ### The book (R494 to R498) -/

/-- The entries in force of an office. -/
def State.book (s : State) (o : OfficeId) : List (List Byte) :=
  (s.off o).nvm.entries.take (s.rd o F.SEC_BOOK_USE_ENTRIES)

/-- The `CHAIN` of the last entry, or of the volume before (R496). -/
def State.bookChain (s : State) (o : OfficeId) : List Byte :=
  match (s.book o).getLast? with
  | some e => (e.drop 176).take 64
  | none => le 64 (s.off o).nvm.prevChain.toNat

/-- The `SEQ` of the next entry. -/
def State.nextSeq (s : State) (o : OfficeId) : Nat :=
  match (s.book o).getLast? with
  | some e => (fieldAt e 4 4 + 1) % 2 ^ 32
  | none => (s.off o).nvm.firstSeq

/-- The `CHAIN` that an entry must have after another: `MIRRORED` counts as 0 in it, so that both offices hold one chain
(R494, R496; log entry 52). -/
def chainAfter (prev e : List Byte) : List Byte :=
  let flags := (e.getD 10 0) &&& 0xFD
  le 64 (digestOf (prev ++ e.take 10 ++ [flags] ++ (e.drop 11).take 165))

/-- Shows the book in its registers (R510). -/
def State.refreshBook (s : State) (o : OfficeId) (n : Nat) : State :=
  let s := s.wr o F.SEC_BOOK_USE_ENTRIES n
  let s := s.wr o F.SEC_BOOK_USE_HEAP (((s.off o).nvm.heapUse + 65535) / 65536)
  let s := s.wr o F.SEC_BOOK_VOL_VOLUME (s.off o).nvm.volume
  match (s.book o).getLast? with
  | some e => s.wr o F.SEC_BOOK_SEQ_SEQ (fieldAt e 4 4)
  | none => s

/-- Bytes of the body heap (R487). -/
def heapBytes : Nat := 495 * 65536

/-- Whether `n` entries and a body still fit (R490 cause 0x12, R498). -/
def State.bookRoom (s : State) (o : OfficeId) (n body : Nat) : Bool :=
  decide (s.rd o F.SEC_BOOK_USE_ENTRIES + n ≤ 4096) && decide ((s.off o).nvm.heapUse + body ≤ heapBytes)

/-- An entry to record (R495). -/
structure NewEntry where
  kind : Nat
  flags : Nat := 0
  keySlot : Nat := 0xFF
  source : Nat := 0
  inline_ : List Byte := []
  body : List Byte := []
  meas : List Byte := []
  deriving DecidableEq, Repr

/-- Appends 256 bytes, with their body, to the book of an office (R495), and warns once in a volume (R498). -/
def State.storeEntry (s : State) (o : OfficeId) (e body : List Byte) : State :=
  let n := s.rd o F.SEC_BOOK_USE_ENTRIES
  let ofs := fieldAt e 40 4
  let s := s.modOff o fun d =>
    let v := d.nvm
    let v := { v with entries := v.entries.take n ++ [e] }
    { d with nvm := if body = [] then v else
        { v with heap := Sparse.set [] v.heap (ofs / 256) body, heapUse := max v.heapUse (ofs + (body.length + 255) / 256 * 256) } }
  let s := s.refreshBook o (n + 1)
  if (s.off o).lb.full90 = false ∧ (3687 ≤ n + 1 ∨ heapBytes * 9 ≤ (s.off o).nvm.heapUse * 10) then
    (s.modOff o fun d => { d with lb := { d.lb with full90 := true } }).raise o 0x090B
      (le 2 (n + 1) ++ le 2 (s.rd o F.SEC_BOOK_USE_HEAP))
  else s

/-- The 256 bytes of an entry that the office would record now (R494). -/
def State.entryBytes (s : State) (o : OfficeId) (x : NewEntry) : List Byte :=
  let ofs := if x.body = [] then 0xFFFFFFFF else (s.off o).nvm.heapUse
  let head := le 2 0xB00C ++ [1, BitVec.ofNat 8 x.kind] ++ le 4 (s.nextSeq o) ++ le 2 (s.off o).nvm.volume ++ le 2 x.flags ++
    [BitVec.ofNat 8 x.keySlot, BitVec.ofNat 8 (s.rd o F.GLB_WHO_OFFICE)] ++ le 2 0 ++
    ((s.postmarkAt (s.off o).count.toNat).1).bytes ++ le 8 x.source ++ le 4 ofs ++ le 4 x.body.length ++
    (x.inline_ ++ List.replicate (64 - x.inline_.length) 0) ++
    (if x.body = [] then x.meas ++ List.replicate (64 - x.meas.length) 0 else le 64 (digestOf x.body))
  let b := head ++ chainAfter (s.bookChain o) head ++ List.replicate 12 0
  b ++ le 4 (crc32c b).toNat

/-- Records an entry (R494, R495). -/
def State.recordEntry (s : State) (o : OfficeId) (x : NewEntry) : State := s.storeEntry o (s.entryBytes o x) x.body

/-- A write of an entry that fails leaves a damaged entry behind the book (R496). -/
def State.damageEntry (s : State) (o : OfficeId) : State :=
  let p := s.draw 2048
  let n := s.rd o F.SEC_BOOK_USE_ENTRIES
  p.2.modOff o fun d => { d with nvm := { d.nvm with entries := d.nvm.entries.take n ++ [le 256 p.1] } }

/-- Whether an entry continues the book (R496). -/
def entryGood (volume seq : Nat) (prev e : List Byte) : Bool :=
  decide (fieldAt e 0 2 = 0xB00C) && decide (fieldAt e 252 4 = (crc32c (e.take 252)).toNat) && decide (fieldAt e 8 2 = volume) &&
    decide (fieldAt e 4 4 = seq % 2 ^ 32) && decide ((e.drop 176).take 64 = chainAfter prev e)

/-- The number of entries that form the book (R496). -/
def bookPrefix (volume : Nat) : Nat → List Byte → List (List Byte) → Nat
  | _, _, [] => 0
  | seq, prev, e :: es =>
    if entryGood volume seq prev e then bookPrefix volume (seq + 1) ((e.drop 176).take 64) es + 1 else 0

/-- Kinds of entries (R495). -/
def bkImage : Nat := 0x01
def bkActivate : Nat := 0x02
def bkConfirm : Nat := 0x03
def bkBootTry : Nat := 0x04
def bkVolume : Nat := 0x05
def bkAmendment : Nat := 0x10
def bkDelta : Nat := 0x11
def bkRetire : Nat := 0x20
def bkFuse : Nat := 0x30

/-- The kind of an entry. -/
def entryKind (e : List Byte) : Nat := fieldAt e 3 1

/-- The body of an entry; none where it has none. -/
def Office.entryBody (d : Office) (e : List Byte) : List Byte :=
  if fieldAt e 40 4 = 0xFFFFFFFF then [] else (Sparse.get [] d.nvm.heap (fieldAt e 40 4 / 256)).take (fieldAt e 44 4)

/-- What the book says of activation (R485): the slot of the latest ACTIVATE, whether it is a trial without a CONFIRM
after it, and the BOOT_TRY entries for the slot since. -/
def activation (es : List (List Byte)) : Nat × Bool × Nat :=
  es.foldl (fun a e =>
    let slot := fieldAt e 48 1
    if entryKind e = bkActivate then (slot, decide (fieldAt e 49 1 = 1), 0)
    else if entryKind e = bkConfirm then (a.1, false, a.2.2)
    else if entryKind e = bkBootTry ∧ slot = a.1 then (a.1, a.2.1, a.2.2 + 1)
    else a) (0, false, 0)

/-! ### Images (R477 to R480, R484) -/

/-- An image slot by its number. -/
def Nvm.slot (v : Nvm) (k : Nat) : ImageSlot := if k = 0 then v.slot0 else v.slot1

/-- Replaces an image slot. -/
def Nvm.setSlot (v : Nvm) (k : Nat) (x : ImageSlot) : Nvm := if k = 0 then { v with slot0 := x } else { v with slot1 := x }

/-- Changes an office's NVM. -/
def State.modNvm (s : State) (o : OfficeId) (f : Nvm → Nvm) : State := s.modOff o fun d => { d with nvm := f d.nvm }

/-- A part of a slot: bytes beyond what was written read as erased. -/
def ImageSlot.part (x : ImageSlot) (ofs n : Nat) : List Byte :=
  let b := (x.data.drop ofs).take n
  b ++ List.replicate (n - b.length) 0xFF

/-- A number of the image header (R478). -/
def ImageSlot.hdr (x : ImageSlot) (ofs n : Nat) : Nat := ofLe (x.part ofs n)

/-- The image measurement (R480). -/
def ImageSlot.meas (x : ImageSlot) : List Byte := le 64 (digestOf (x.part 0 256))

/-- The personal directory (R479): `SERIAL`, `OFF`, `LEN` and `DIGEST` of each entry. -/
def ImageSlot.directory (x : ImageSlot) : List (Nat × Nat × Nat × Nat) :=
  (List.range (x.hdr 44 2)).map fun k =>
    let a := x.hdr 40 4 + 80 * k
    (x.hdr a 8, x.hdr (a + 8) 4, x.hdr (a + 12) 4, x.hdr (a + 16) 64)

/-- Whether no two spans of offset and length overlap. -/
def apart : List (Nat × Nat) → Bool
  | [] => true
  | a :: as => as.all (fun b => decide (a.1 + a.2 ≤ b.1) || decide (b.1 + b.2 ≤ a.1) || decide (a.2 = 0) || decide (b.2 = 0)) && apart as

/-- Whether numbers strictly rise. -/
def rising : List Nat → Bool
  | a :: b :: r => decide (a < b) && rising (b :: r)
  | _ => true

/-- Header and layout (R477 to R479; cause 0x2). -/
def ImageSlot.layoutOk (x : ImageSlot) : Bool :=
  let len := x.hdr 8 4
  let zero := fun ofs n => decide (x.hdr ofs n = 0)
  decide (x.hdr 0 4 = 0xA07E51A1) && decide (x.hdr 4 2 = 1) && decide (x.hdr 6 2 < 2) && decide (x.hdr 24 4 = 0x1024) &&
    decide (len ≤ 2 ^ 24) && decide (len % 8 = 0) && decide (7480 ≤ len) && decide (x.hdr 12 1 ≤ 64) && zero 14 2 && zero 28 4 &&
    zero 46 2 && zero 176 80 && zero 7475 5 && decide (7480 ≤ x.hdr 32 4) && decide (x.hdr 44 2 ≤ 1024) &&
    (let parts := (x.hdr 32 4, x.hdr 36 4) :: (x.hdr 40 4, 80 * x.hdr 44 2) :: x.directory.map fun e => (e.2.1, e.2.2.1)
     parts.all (fun p => decide (p.1 % 8 = 0) && decide (p.2 % 8 = 0) && decide (p.1 + p.2 ≤ len)) && apart ((0, 7480) :: parts)) &&
    rising (x.directory.map (·.1))

/-- The module's serial number. -/
def State.serial (s : State) (o : OfficeId) : Nat := s.rdPair o F.SEC_SERIAL_LO_SERIAL_L F.SEC_SERIAL_HI_SERIAL_H

/-- The items of an image for this module, common ones first (R482); none where a section is cut short. -/
def ImageSlot.items (x : ImageSlot) (serial : Nat) : Option (List Item) :=
  match x.directory.find? (·.1 = serial) with
  | none => none
  | some e =>
    match parseItems (x.hdr 36 4 / 24 + 1) (x.part (x.hdr 32 4) (x.hdr 36 4)),
        parseItems (e.2.2.1 / 24 + 1) (x.part e.2.1 e.2.2.1) with
    | some a, some b => some (a ++ b)
    | _, _ => none

/-- Registers that tell who the office is, which no reset changes. -/
def identityKeys : List Nat :=
  [F.GLB_WHO_OFFICE, F.GLB_WHO_MODID, F.SEC_SERIAL_LO_SERIAL_L, F.SEC_SERIAL_HI_SERIAL_H].map fun f => f.key 0 0

/-- The office with its registers and arrays as reset leaves them, on which a whole image is validated (R483). -/
def State.blank (s : State) (o : OfficeId) : State :=
  (s.modOff o fun d =>
    { d with regs := d.regs.filter fun e => identityKeys.contains e.1, arr := [], syn := [], spareOf := [], noticed := [] }).modSvc
    fun d => { d with regs := [] }

/-- Verifies an image slot (R484): the cause, 0 for none. -/
def State.verifySlot (s : State) (o : OfficeId) (x : ImageSlot) (readFails : Bool) : Nat :=
  let fu := s.svc.fuses
  let serial := s.serial o
  let key := fu.signatureFault (x.hdr 13 1) (x.part 256 2592) (asciiBytes "UX1024-IMG") (x.part 0 256) (x.part 2848 4627)
  if readFails then 0xD
  else if x.hdr 0 4 = 0xFFFFFFFF then 0x1
  else if x.layoutOk = false then 0x2
  else if key ≠ 0 then 2 + key
  else if x.hdr 12 1 < fu.version then 0x6
  else if digestOf (x.part (x.hdr 32 4) (x.hdr 36 4)) ≠ x.hdr 48 64 then 0x7
  else if digestOf (x.part (x.hdr 40 4) (80 * x.hdr 44 2)) ≠ x.hdr 112 64 then 0x8
  else
    match x.directory.find? (·.1 = serial) with
    | none => 0x9
    | some e =>
      if digestOf (x.part e.2.1 e.2.2.1) ≠ e.2.2.2 then 0xA
      else
        match x.items serial with
        | none => 0xB
        | some its =>
          if its.all (fun it => it.wellFormed true false) = false then 0xB
          else if (s.blank o).validate o true its = .ok then 0
          else 0xC

end Sys2Proof.Machine
end

