-- ==== Sys2Proof/Machine/Letterbox.lean ====
section
/-! DEFINITION. The letterbox: requests, jobs, amendments, uploads, activation, and attestation (12 R475, R476, R488 to
R493, R500 to R513). REBOOT resets the module and stands with the resets. -/

namespace Sys2Proof.Machine

/-- Changes the letterbox of an office. -/
def State.modLb (s : State) (o : OfficeId) (f : Letterbox → Letterbox) : State := s.modOff o fun d => { d with lb := f d.lb }

/-- Changes a bias loop. -/
def State.modLoop (s : State) (k : Nat) (f : BiasLoop → BiasLoop) : State :=
  s.modSvc fun d => if k = 0 then { d with loops := { d.loops with a := f d.loops.a } } else { d with loops := { d.loops with b := f d.loops.b } }

/-- Sends a response (R501), its payload padded to whole DW. -/
def State.respond (s : State) (o : OfficeId) (op : Nat) (tag : W16) (status detail : Nat) (payload : List Byte) : State :=
  s.emit (.letterbox o ([BitVec.ofNat 8 (op + 0x80), BitVec.ofNat 8 status] ++ le 2 tag.toNat ++ le 4 payload.length ++ le 4 detail ++
    le 4 0 ++ payload ++ List.replicate ((4 - payload.length % 4) % 4) 0))

/-- Response 0x04, counted (R501, R512). -/
def State.badRequest (s : State) (o : OfficeId) (op : Nat) (tag : W16) : State :=
  (s.respond o op tag 0x04 0 []).countUp o F.SEC_CNT_LBERR_COUNT

/-- Refused with a cause that the spec does not name: a free value. -/
def State.refuseFree (s : State) (o : OfficeId) (op : Nat) (tag : W16) : State :=
  let p := s.draw 32
  p.2.respond o op tag 0x03 p.1 []

/-- Requests answered while a job is pending (R502). -/
def answeredInJob : List Nat := [0x01, 0x02, 0x04, 0x20, 0x21]

/-- A request: nothing while DOE Error stands (R500); 0x02 while a job is pending or in Loading (R501, R502); 0x05 where it
is not permitted (R503). -/
def State.request (s : State) (o : OfficeId) (op : Nat) (tag : W16) (permitted : Bool) (act : State → State) : State :=
  if (s.off o).inReset ∨ (s.off o).lb.doeError then s
  else if ((s.off o).lb.job.isSome ∧ !answeredInJob.contains op) ∨ (s.mode o = .loading ∧ op ≠ 0x04) then s.respond o op tag 0x02 0 []
  else if permitted = false then s.respond o op tag 0x05 (s.mode o).code []
  else act s

/-- Starts a job (R502, R511). -/
def State.startJob (s : State) (o : OfficeId) (op : Nat) (tag : W16) (w : JobWork) : State :=
  let s := s.modLb o fun l => { l with job := some { work := w } }
  let s := ((s.wr o F.SEC_JOB_STATE 1).wr o F.SEC_JOB_OP op).wr o F.SEC_JOB_CAUSE 0
  (s.wr o F.SEC_JOB_PROGRESS 0).respond o op tag 0x01 0 []

/-- Ends a job: done with a `SEQ`, or refused with a cause (R501, R502, R511). -/
def State.endJob (s : State) (o : OfficeId) (refused : Bool) (detail : Nat) : State :=
  let s := s.modLb o fun l => { l with job := none, outcome := some (if refused then 0x03 else 0x00, detail) }
  let s := (s.modLoop 0 fun l => { l with cfgBusy := false }).modLoop 1 fun l => { l with cfgBusy := false }
  if refused then (s.wr o F.SEC_JOB_STATE 4).wr o F.SEC_JOB_CAUSE detail
  else (s.wr o F.SEC_JOB_STATE 3).wr o F.SEC_JOB_PROGRESS 100

/-- Whether the NVM window is open (R488). -/
def State.nvmOpen (s : State) (o : OfficeId) : Bool := s.flag o F.SEC_STAT_NVM_WIN

/-- A job that needs the closed NVM window waits; 0x0911 names an operation whose code the spec does not give (R488). -/
def State.waitWindow (s : State) (o : OfficeId) (j : LbJob) : State :=
  if j.waiting.isSome then s
  else
    let p := s.draw 8
    let s := p.2.modLb o fun l => { l with job := some { j with waiting := some s.now } }
    (s.wr o F.SEC_JOB_STATE 2).raise o 0x0911 [BitVec.ofNat 8 p.1, 0]

/-! ### What an amendment does (R491 to R493) -/

/-- Clamps set-point and manual value of a loop to a lowered `V_MAX` (R568). -/
def State.clampLoop (s : State) (k : Nat) : State :=
  let m := s.srd F.LOOP_LIMIT_V_MAX k
  [F.LOOP_SETPOINT_MV, F.LOOP_MAN_V_MV].foldl (fun s f =>
    if m < s.srd f k then (s.swr f m k).raiseSvc 0x0B05 (le 1 k ++ le 4 (s.srd f k) ++ le 4 m) else s) s

/-- Settings of an auxiliary input whose change empties the meter's edges (R604). -/
def State.auxSetting (s : State) (o : OfficeId) (x : Nat) : List Nat :=
  [s.rd o F.AUX_CFG_EN x, s.rd o F.AUX_CFG_SLOPE x, s.rd o F.AUX_DLY_DLY x, s.rd o F.AUX_DEAD_DEAD x]

/-- Applies items that wait for no gap (R491). -/
def State.applyNow (s : State) (o : OfficeId) (seq : Nat) (items : List Item) : State :=
  if items = [] then s
  else
    let a := s.auxSetting o 0
    let b := s.auxSetting o 1
    let s := ((s.applyItems o false seq items).rewriteSlot o items).sendFrontEnds o
    let s := ((s.clampLoop 0).clampLoop 1).swr F.TB_STAT_HEAD (s.srd F.RING_CFG_HEAD)
    s.modOff o fun d => { d with aux := { d.aux with edges :=
      ⟨if a = s.auxSetting o 0 then d.aux.edges.a else [], if b = s.auxSetting o 1 then d.aux.edges.b else []⟩ } }

/-- Applies an amendment or a delta: what R491 applies at once, the rest in the gap between two merges (R202), `PERSIST`-only
targets at the next Loading. -/
def State.applyAmendment (s : State) (o : OfficeId) (seq amdId : Nat) (delta : Bool) (items : List Item) : State :=
  let gap := items.filter fun it => !it.isFuse && it.isGap
  let s := s.applyNow o seq (items.filter fun it => !it.isFuse && !it.isGap && !it.isLoad)
  if gap = [] then (if delta then s else s.amendmentApplied o seq amdId)
  else s.modOff o fun d =>
    { d with mrg := { d.mrg with jobs := d.mrg.jobs ++ [.items (BitVec.ofNat 32 seq) (BitVec.ofNat 64 amdId) delta gap] } }

/-- Keeps the items of an entry without a body, for a later resynchronisation (R532, R536). -/
def State.keepItems (s : State) (o : OfficeId) (e items : List Byte) : State :=
  if items = [] ∨ fieldAt e 40 4 ≠ 0xFFFFFFFF then s
  else s.modOff o fun d => { d with twin := { d.twin with volItems := Sparse.set [] d.twin.volItems (fieldAt e 4 4) items } }

/-- What follows an entry in its mirror item: its body, or its items where it has none (R532; log entry 56). -/
def Office.mirroredPart (d : Office) (e : List Byte) : List Byte :=
  if fieldAt e 40 4 = 0xFFFFFFFF then Sparse.get [] d.twin.volItems (fieldAt e 4 4) else d.entryBody e

/-- The owner mirrors a recorded entry with the items that it applies (R493, R532). -/
def State.mirrorEntry (s : State) (o : OfficeId) (e items : List Byte) : State :=
  let s := s.keepItems o e items
  s.mirror o 1 (padWords (e ++ (s.off o).mirroredPart e))

/-! ### Checks of an amendment (R490) -/

/-- The items of an amendment; none where they are cut short. -/
def amendItems (b : List Byte) : Option (List Item) := parseItems (b.length / 24 + 1) (b.drop 7384)

/-- The running image's `SVN`, `BASE_IMAGE` and fuse checks need whether a fuse item is there. -/
def hasFuse (its : Option (List Item)) : Bool := (its.getD []).any Item.isFuse

/-- Whether `AMD_ID` appears in the book of this volume (R490 cause 0x0B). -/
def State.knownAmendment (s : State) (o : OfficeId) (id : Nat) : Bool :=
  (s.book o).any fun e => decide (entryKind e = bkAmendment ∧ fieldAt e 32 8 = id)

/-- Checks 0x01 to 0x0B of R490; 0 where all hold. -/
def State.amendHeaderFault (s : State) (o : OfficeId) (b : List Byte) : Nat :=
  let f := fieldAt b
  let its := amendItems b
  let base := (b.drop 32).take 64
  let sig := s.svc.fuses.signatureFault (f 8 1) ((b.drop 160).take 2592) (asciiBytes "UX1024-AMD") (b.take 160) ((b.drop 2752).take 4627)
  let checks : List (Nat × Bool) :=
    [(0x01, decide (65512 < f 4 4) || decide (f 4 4 ≠ b.length)),
     (0x02, !s.owns o || (s.off o).twin.release.isSome || (match s.mode o with | .dormant | .loading | .fallback => true | _ => false)),
     (0x03, decide (f 0 2 ≠ 0xA3D1) || decide (f 2 1 ≠ 1) || decide (2 ≤ f 3 1) || decide (b.length % 8 ≠ 0) ||
        decide (b.length < 7384) || decide (f 12 4 ≠ 0) || decide (f 7379 5 ≠ 0) || decide (f 10 2 = 0) ||
        its.any (fun l => l.length ≠ f 10 2)),
     (0x04, decide (f 24 8 ≠ 0) && decide (f 24 8 ≠ s.serial o)),
     (0x05, decide (base ≠ s.imageMeas o) && !(decide (base = List.replicate 64 0) && hasFuse its)),
     (0x06, decide (f 9 1 < s.svc.fuses.version)), (0x07, decide (sig = 1)), (0x08, decide (sig = 2)), (0x09, decide (sig = 3)),
     (0x0A, decide (digestOf (b.drop 7384) ≠ f 96 64)), (0x0B, s.knownAmendment o (f 16 8))]
  match checks.find? (·.2) with
  | some c => c.1
  | none => 0

/-- Checks 0x01 to 0x0E of R490: the cause and the item at fault; cause 0 where all hold. -/
def State.amendFault (s : State) (o : OfficeId) (b : List Byte) : Nat × Option Nat :=
  let h := s.amendHeaderFault o b
  if h ≠ 0 then (h, none)
  else
    match amendItems b with
    | none => (0x0C, none)
    | some its =>
      let persist := fieldAt b 3 1 % 2 = 1
      match its.findIdx? (fun it => !it.wellFormed false (its.length = 1)) with
      | some k => (0x0C, some k)
      | none =>
        match s.validate o false (its.filter fun it => !it.isFuse) with
        | .item k => (0x0D, some k)
        | .cross => (0x0D, none)
        | .ok =>
          match its.findIdx? (fun it => !s.itemAllowed o persist it) with
          | some k => (0x0E, some k)
          | none => (0, none)

/-- An amendment is refused: counted, and reported with the item at fault, a free value where no item is (R490, R513). -/
def State.amendRefused (s : State) (o : OfficeId) (cause : Nat) (item : Option Nat) : State :=
  let s := s.countUp o F.SEC_CNT_REFUSED_COUNT
  let p := match item with
    | some k => (k, s)
    | none => s.draw 16
  p.2.raise o 0x0905 (le 1 cause ++ le 2 p.1)

/-- AMEND (R490, R502, R503). -/
def execAmend (o : OfficeId) (tag : W16) (body : List Byte) (s : State) : Out :=
  .next (s.request o 0x03 tag true fun s =>
    let c := s.amendFault o body
    if c.1 ≠ 0 then (s.respond o 0x03 tag 0x03 c.1 []).amendRefused o c.1 c.2
    else
      let ks := loopsOf ((amendItems body).getD [])
      (ks.foldl (fun s k => s.modLoop k fun l => { l with cfgBusy := true }) s).startJob o 0x03 tag (.amend body))

/-! ### Fuses (R475, R476) -/

/-- Whether a fuse rule forbids an item (R475). -/
def State.fuseForbidden (s : State) (o : OfficeId) (it : Item) : Bool :=
  let f := s.svc.fuses
  let x := f.slot it.target
  let below := fun (v : Option Nat) => v.any fun n => decide (n < it.count)
  if it.kind = 0x10 then x.prog || x.revoked || decide (x.digest &&& BitVec.ofNat 512 (ofLe it.data) ≠ x.digest)
  else if it.kind = 0x11 then
    x.revoked || !(List.range 4).any fun k => k ≠ it.target && (f.slot k).usable
  else
    decide (it.count ≤ f.version) || decide (s.rd o F.SEC_STAT_IMAGE_SVN < it.count) ||
      below (s.otherSvn .A) || below (s.otherSvn .B)

/-- Whether the fuse window is open (R476): node 264 of the owner's thermal model from 0 to +70 °C, and VIN at least 9 V. -/
def State.fuseOpen (s : State) (o : OfficeId) : Bool :=
  let t := toInt 16 (s.rd o F.THM_NODE_T 264)
  s.flag o F.THM_NODE_VALID 264 && decide (0 ≤ t) && decide (t ≤ 7000) && decide (9000 ≤ s.srd F.PWR_STAT_VIN_MV)

/-- Fuses after an item has been programmed; a programming that was stopped leaves some of the item's bits programmed. -/
def State.burn (s : State) (it : Item) (stopped : Bool) : State :=
  let p := s.draw 512
  let m := BitVec.ofNat 512 (if stopped then p.1 else 2 ^ 512 - 1)
  let s := if stopped then p.2 else s
  let f := s.svc.fuses
  let x := f.slot it.target
  let new : Fuses :=
    if it.kind = 0x10 then
      f.setSlot it.target { x with digest := x.digest ||| (BitVec.ofNat 512 (ofLe it.data) &&& m), prog := x.prog || !stopped }
    else if it.kind = 0x11 then f.setSlot it.target { x with revoked := x.revoked || m.getLsbD 0 }
    else { f with svn := f.svn ||| (BitVec.ofNat 64 (2 ^ it.count - 1) &&& m.setWidth 64) }
  ((s.modSvc fun d => { d with fuses := new }).refreshFuses .A).refreshFuses .B

/-! ### The end of a job (R502) -/

/-- Records an accepted amendment and applies it (R492, R493, R495). -/
def State.recordAmendment (s : State) (o : OfficeId) (b : List Byte) (its : List Item) : State :=
  let persist := fieldAt b 3 1 % 2 = 1
  let x : NewEntry :=
    { kind := bkAmendment, flags := b2n persist, keySlot := fieldAt b 8 1, source := fieldAt b 16 8, inline_ := (b.drop 32).take 64,
      body := if persist then b else [], meas := s.imageMeas o }
  let e := s.entryBytes o x
  let seq := fieldAt e 4 4
  let s := (s.storeEntry o e x.body).mirrorEntry o e (b.drop 7384)
  let s := match its.find? Item.isFuse with
    | some it =>
      let y := s.entryBytes o { kind := bkFuse, source := fieldAt b 16 8, inline_ := it.bytes.take 24, meas := s.imageMeas o }
      ((s.storeEntry o y []).mirrorEntry o y []).raise o 0x0909 (le 1 it.kind ++ le 1 (if it.kind = 0x12 then it.count else it.target))
    | none => s
  (s.applyAmendment o seq (fieldAt b 16 8) false its).endJob o false seq

/-- Ends an AMEND job with a refusal. -/
def State.refuseAmend (s : State) (o : OfficeId) (cause : Nat) : State := (s.endJob o true cause).amendRefused o cause none

/-- The end of an AMEND job (R475, R476, R490 causes 0x0E to 0x14, R492). The conditions of R491 are checked again, as the mode may have
changed while the job was pending (R220; log entry 94). -/
def State.endAmend (s : State) (o : OfficeId) (j : LbJob) (b : List Byte) (nvmOk : Bool) (fuseBreak : Option Bool) : State :=
  let its := (amendItems b).getD []
  let fuse := its.find? Item.isFuse
  let persist := decide (fieldAt b 3 1 % 2 = 1)
  let body := if persist then b.length else 0
  if s.owns o = false then s.refuseAmend o 0x14
  else if its.any fun it => !s.itemAllowed o persist it then s.refuseAmend o 0x0E
  else if fuse.any (s.fuseForbidden o) then s.refuseAmend o 0x0F
  else if fuse.isSome ∧ s.fuseOpen o = false then s.refuseAmend o 0x10
  else if s.nvmOpen o = false then s.waitWindow o j
  else if s.bookRoom o (if fuse.isSome then 2 else 1) body = false then s.refuseAmend o 0x12
  else
    match fuse, fuseBreak with
    | some it, some vin =>
      ((s.burn it true).refuseAmend o 0x10).raise o 0x090A (le 1 it.kind ++ le 1 it.target ++ le 1 (b2n vin))
    | f, _ =>
      let s := match f with
        | some it => s.burn it false
        | none => s
      if nvmOk = false then (s.damageEntry o).refuseAmend o 0x13 else s.recordAmendment o b its

/-- The end of an UPLOAD_END job (R505): the failure leaves `SEQ` of 0x0906 free. -/
def State.endUpload (s : State) (o : OfficeId) (j : LbJob) (nvmOk : Bool) : State :=
  match (s.off o).lb.upload with
  | none => s.endJob o true 0
  | some u =>
    let x := (s.off o).nvm.slot u.slot
    let v := s.verifySlot o x false
    let cause := if v ≠ 0 then v else if x.meas ≠ le 64 u.meas.toNat then 0x2 else 0
    let fail := fun (s : State) (c : Nat) =>
      let p := (s.modLb o fun l => { l with upload := none }).draw 32
      (p.2.endJob o true c).raise o 0x0906 (le 1 u.slot ++ le 1 c ++ le 4 p.1)
    if cause ≠ 0 then fail s cause
    else if s.nvmOpen o = false then s.waitWindow o j
    else if s.bookRoom o 1 0 = false then fail s 0x12
    else if nvmOk = false then fail (s.damageEntry o) 0x13
    else
      let seq := s.nextSeq o
      let y : NewEntry :=
        { kind := bkImage, source := x.hdr 16 8, meas := x.meas, inline_ := le 1 u.slot ++ le 1 (x.hdr 12 1) ++ le 1 (x.hdr 13 1) }
      let s := s.recordEntry o y
      let s := s.modNvm o fun n => n.setSlot u.slot { x with entry := true, svn := some (x.hdr 12 1) }
      ((s.modLb o fun l => { l with upload := none }).endJob o false seq).raise o 0x0906 (le 1 u.slot ++ le 1 0 ++ le 4 seq)

/-- Records an ACTIVATE entry (R495, R506). -/
def State.recordActivate (s : State) (o : OfficeId) (slot : Nat) (trial : Bool) : State :=
  s.recordEntry o { kind := bkActivate, inline_ := le 1 slot ++ le 1 (b2n trial), meas := ((s.off o).nvm.slot slot).meas }

/-- ACTIVATE takes effect in the book (R506, R513). -/
def State.activate (s : State) (o : OfficeId) (slot : Nat) (trial : Bool) : State :=
  (s.recordActivate o slot trial).raise o 0x0907 (le 1 slot ++ le 1 (b2n trial) ++ le 4 (s.nextSeq o))

/-- CONFIRM takes effect (R506). -/
def State.confirmTrial (s : State) (o : OfficeId) : State :=
  let slot := s.rd o F.SEC_STAT_RUN_SLOT
  (s.recordEntry o { kind := bkConfirm, inline_ := le 1 slot, meas := s.imageMeas o }).wr o F.SEC_STAT_TRIAL 0

/-- The end of a job that records one entry. -/
def State.endRecord (s : State) (o : OfficeId) (j : LbJob) (nvmOk : Bool) (act : State → State) : State :=
  if s.nvmOpen o = false then s.waitWindow o j
  else if s.bookRoom o 1 0 = false then s.endJob o true 0x12
  else if nvmOk = false then (s.damageEntry o).endJob o true 0x13
  else (act s).endJob o false (s.nextSeq o)

/-- LETTERBOX_JOB_END (R502): `nvmOk` tells whether the NVM took the write, `fuseBreak` whether fuse programming was
stopped, by temperature or by VIN (R476). -/
def execLetterboxJobEnd (o : OfficeId) (nvmOk : Bool) (fuseBreak : Option Bool) (s : State) : Out :=
  .next (
    if (s.off o).inReset then s
    else
      match (s.off o).lb.job with
      | none => s
      | some j =>
        match j.work with
        | .amend b => s.endAmend o j b nvmOk fuseBreak
        | .uploadBegin slot len meas =>
          if s.nvmOpen o = false then s.waitWindow o j
          else
            let s := s.modNvm o fun n => n.setSlot slot {}
            if nvmOk = false then s.endJob o true 0x13
            else (s.modLb o fun l => { l with upload := some { slot := slot, len := len, meas := meas } }).endJob o false 0
        | .uploadEnd => s.endUpload o j nvmOk
        | .activate slot trial => s.endRecord o j nvmOk fun s => s.activate o slot trial
        | .confirm => s.endRecord o j nvmOk fun s => s.confirmTrial o)

/-! ### DOE (R500) -/

/-- LETTERBOX_OVERSIZE (R500). -/
def execLetterboxOversize (o : OfficeId) (bytes : W32) (s : State) : Out :=
  .next (if (s.off o).inReset ∨ bytes.toNat ≤ 65536 then s else s.modLb o fun l => { l with doeError := true })

/-- DOE_ABORT (R500, R502): it stops no job. -/
def execDoeAbort (o : OfficeId) (s : State) : Out :=
  .next (if (s.off o).inReset then s else s.modLb o fun l => { l with doeError := false })

/-- DOE_DISCOVERY (R500): the Discovery protocol and the vendor's data object type 0x01. The layout of the answer is that of
PCI Express DOE Discovery (PRESUMED; log entry 54): Vendor ID, type, next index. -/
def execDoeDiscovery (o : OfficeId) (index : Byte) (s : State) : Out :=
  .next (
    if (s.off o).inReset ∨ (s.off o).lb.doeError then s
    else s.emit (.letterbox o (
      if index = 0 then le 2 0x0001 ++ [0, 1]
      else if index = 1 then le 2 Config.vendorId.toNat ++ [1, 0]
      else le 2 0xFFFF ++ [0, 0])))

/-- LETTERBOX_BAD_REQUEST (R501, R512). -/
def execLetterboxBadRequest (o : OfficeId) (tag : W16) (op : Byte) (s : State) : Out :=
  .next (if (s.off o).inReset ∨ (s.off o).lb.doeError then s else s.badRequest o op.toNat tag)

/-- POLL (R502): the outcome of the last job, 0x01 while it runs; with no job ever, a free answer. -/
def execPoll (o : OfficeId) (tag : W16) (s : State) : Out :=
  .next (s.request o 0x04 tag true fun s =>
    if (s.off o).lb.job.isSome then s.respond o 0x04 tag 0x01 0 []
    else
      match (s.off o).lb.outcome with
      | some x => s.respond o 0x04 tag x.1 x.2 []
      | none =>
        let p := s.draw 8
        let q := p.2.draw 32
        q.2.respond o 0x04 tag p.1 q.1 [])

/-! ### Attestation (R507, R508) -/

/-- Whether an office is in Fallback. -/
def State.inFallback (s : State) (o : OfficeId) : Bool := s.mode o = .fallback

/-- Bytes 0 to 319 of an attestation report (R508). -/
def State.report (s : State) (o : OfficeId) (nonce : List Byte) : List Byte :=
  let fb := s.inFallback o
  let zero := List.replicate 64 0
  let role := match s.role o with
    | .owner => 0
    | .relief => 1
    | .neither => 2
  le 2 0xA77E ++ [1, BitVec.ofNat 8 (s.rd o F.GLB_WHO_OFFICE), BitVec.ofNat 8 (s.mode o).code, BitVec.ofNat 8 role,
      BitVec.ofNat 8 (s.rd o F.GLB_WHO_MODID),
      BitVec.ofNat 8 (b2n fb + 2 * s.rd o F.SEC_STAT_TRIAL + 4 * s.rd o F.SEC_STAT_BOOK_DEGRADED)] ++
    le 8 (s.serial o) ++ nonce ++ (s.postmarkAt (s.off o).count.toNat).1.bytes ++
    (if fb then zero else s.imageMeas o) ++ (if fb then zero else s.measBytes o F.SEC_MEAS_PERSONAL_W) ++
    le 8 (s.rdPair o F.SEC_BUILD_LO_BUILD_L F.SEC_BUILD_HI_BUILD_H) ++
    [if s.rd o F.SEC_STAT_RUN_SLOT = 3 then 0xFF else BitVec.ofNat 8 (s.rd o F.SEC_STAT_RUN_SLOT),
      BitVec.ofNat 8 (s.rd o F.SEC_STAT_IMAGE_SVN), BitVec.ofNat 8 s.svc.fuses.version,
      BitVec.ofNat 8 (s.rd o F.SEC_STAT_KEY_PROG + 16 * s.rd o F.SEC_STAT_KEY_REVOKED), BitVec.ofNat 8 (s.rd o F.SEC_STAT_SIGNER),
      0, 0, 0] ++
    le 2 (s.off o).nvm.volume ++ le 2 0 ++ le 4 (s.rd o F.SEC_BOOK_SEQ_SEQ) ++ s.bookChain o ++
    le 4 (s.rd o F.SORT_CAL_EPOCH_EPOCH) ++ le 4 0

/-- INFO (R503). -/
def execInfo (o : OfficeId) (tag : W16) (s : State) : Out :=
  .next (s.request o 0x01 tag true fun s =>
    s.respond o 0x01 tag 0x00 0 (s.report o (List.replicate 64 0) ++ Config.attestKey (officeBit o)))

/-- ATTEST (R508): the report, signed with the context string "UX1024-ATT". -/
def execAttest (o : OfficeId) (tag : W16) (nonce : BitVec 512) (s : State) : Out :=
  .next (s.request o 0x02 tag true fun s =>
    let r := s.report o (le 64 nonce.toNat)
    { s.respond o 0x02 tag 0x00 0 (r ++ Config.mldsaSign (officeBit o) (asciiBytes "UX1024-ATT") r s.free) with free := s.free + 1 })

/-! ### Uploading and activating (R503 to R506) -/

/-- Standby, Held or Fallback (R503). -/
def Mode.uploads : Mode → Bool
  | .standby | .held | .fallback => true
  | _ => false

/-- UPLOAD_BEGIN (R504). -/
def execUploadBegin (o : OfficeId) (tag : W16) (slot : Byte) (len : W32) (measurement : BitVec 512) (s : State) : Out :=
  .next (s.request o 0x10 tag (s.mode o).uploads fun s =>
    if 1 < slot.toNat then s.badRequest o 0x10 tag
    else if slot.toNat = s.rd o F.SEC_STAT_RUN_SLOT ∨ 2 ^ 24 < len.toNat ∨ len.toNat % 8 ≠ 0 ∨ (s.off o).lb.upload.isSome then
      s.respond o 0x10 tag 0x03 0x01 []
    else
      let s := s.modNvm o fun n => n.setSlot slot.toNat { n.slot slot.toNat with entry := false }
      s.startJob o 0x10 tag (.uploadBegin slot.toNat len.toNat measurement))

/-- UPLOAD_DATA (R504). -/
def execUploadData (o : OfficeId) (tag : W16) (offset : W32) (data : List Byte) (s : State) : Out :=
  .next (s.request o 0x11 tag (s.mode o).uploads fun s =>
    match (s.off o).lb.upload with
    | none => s.respond o 0x11 tag 0x03 0x02 []
    | some u =>
      if offset.toNat ≠ u.offset ∨ u.len < u.offset + data.length then s.respond o 0x11 tag 0x03 0x02 []
      else if s.nvmOpen o = false then s.respond o 0x11 tag 0x03 0x11 []
      else
        let s := s.modNvm o fun n => n.setSlot u.slot { n.slot u.slot with data := (n.slot u.slot).data ++ data }
        (s.modLb o fun l => { l with upload := some { u with offset := u.offset + data.length } }).respond o 0x11 tag 0x00 0 [])

/-- UPLOAD_END (R505); without an upload it is refused with a cause the spec does not name. -/
def execUploadEnd (o : OfficeId) (tag : W16) (s : State) : Out :=
  .next (s.request o 0x12 tag (s.mode o).uploads fun s =>
    if (s.off o).lb.upload.isNone then s.refuseFree o 0x12 tag else s.startJob o 0x12 tag .uploadEnd)

/-- A request that records one entry: at once, or by a job while the NVM window is closed (R488). -/
def State.recordRequest (s : State) (o : OfficeId) (op : Nat) (tag : W16) (w : JobWork) (act : State → State) : State :=
  if s.nvmOpen o = false then (s.startJob o op tag w).waitWindow o { work := w }
  else if s.bookRoom o 1 0 = false then s.refuseFree o op tag
  else (act s).respond o op tag 0x00 (s.nextSeq o) []

/-- ACTIVATE (R506). -/
def execActivate (o : OfficeId) (tag : W16) (slot trial : Byte) (s : State) : Out :=
  .next (s.request o 0x13 tag true fun s =>
    if 1 < slot.toNat ∨ 1 < trial.toNat then s.badRequest o 0x13 tag
    else if slot.toNat ≠ s.rd o F.SEC_STAT_RUN_SLOT ∧ ((s.off o).nvm.slot slot.toNat).entry = false then s.refuseFree o 0x13 tag
    else s.recordRequest o 0x13 tag (.activate slot.toNat (trial = 1)) fun s => s.activate o slot.toNat (trial = 1))

/-- CONFIRM (R506): refused with cause 0x01 where no trial runs. -/
def execConfirm (o : OfficeId) (tag : W16) (s : State) : Out :=
  .next (s.request o 0x14 tag (decide (4 ≤ (s.mode o).code)) fun s =>
    if s.flag o F.SEC_STAT_TRIAL = false then s.respond o 0x14 tag 0x03 0x01 []
    else s.recordRequest o 0x14 tag .confirm fun s => s.confirmTrial o)

/-! ### Reading the book (R503) -/

/-- BOOK_READ. -/
def execBookRead (o : OfficeId) (tag : W16) (seq : W32) (count : W16) (s : State) : Out :=
  .next (s.request o 0x20 tag true fun s =>
    if count = 0 ∨ 255 < count.toNat then s.badRequest o 0x20 tag
    else
      let es := ((s.book o).filter fun e => decide (seq.toNat ≤ fieldAt e 4 4)).take count.toNat
      s.respond o 0x20 tag 0x00 es.length (es.flatMap id))

/-- BOOK_BODY: a part of an entry's body; what lies beyond it, or an entry that is not there, is refused with a cause the
spec does not name, and a part that fits no object is a wrong length. -/
def execBookBody (o : OfficeId) (tag : W16) (seq : W32) (offset len : W32) (s : State) : Out :=
  .next (s.request o 0x21 tag true fun s =>
    if 65512 < len.toNat then s.badRequest o 0x21 tag
    else
      match (s.book o).find? fun e => fieldAt e 4 4 = seq.toNat with
      | none => s.refuseFree o 0x21 tag
      | some e =>
        let b := (s.off o).entryBody e
        if b.length < offset.toNat + len.toNat then s.refuseFree o 0x21 tag
        else s.respond o 0x21 tag 0x00 0 ((b.drop offset.toNat).take len.toNat))

/-- SEC_CNT_CLR (R512). -/
def execSecCntClr (o : OfficeId) (v : W32) (s : State) : Out :=
  .next (s.clearWrite o F.SEC_CNT_CLR_AMD.off v.toNat 0
    [F.SEC_CNT_AMD_COUNT, F.SEC_CNT_REFUSED_COUNT, F.SEC_CNT_LBERR_COUNT])

end Sys2Proof.Machine
end

