-- ==== Sys2Proof/Machine/Ring.lean ====
section
/-! DEFINITION. The ring: SYNC frames, peer delays, ports, broadcasts, stamp moments and barriers (09 R381 to R411, R416
to R421). -/

namespace Sys2Proof.Machine

/-! ### Following the head (R381, R382, R398 to R404) -/

/-- 2^-16 tick to 2^-10 tick, rounded. -/
def fineToOfs (x : Int) : Int := roundDiv x 64

/-- The module's offset through a port, in 2^-10 tick: its count at the arrival less the head's (R399). -/
def State.syncOffset (s : State) (p : RingPort) (f : RingFrame) (fine : Nat) : Int :=
  let b := ringBytes f.words
  let own : Int := (s.svc.count.toNat : Int) * 65536 + fine * 512
  let head : Int := (ofLe (b.take 8) : Int) * 65536 + toInt 64 (ofLe ((b.drop 8).take 8)) + s.linkDelay p (rgWest f.hdr)
  fineToOfs (own - head)

/-- The part of an offset within half a tick: its distance from a whole number of ticks. -/
def phasePart (ofs : Int) : Int := (ofs + 512) % 1024 - 512

/-- The combined offset (R400). -/
def State.combinedOfs (s : State) : Int :=
  let w := s.svc.ring.w
  let e := s.svc.ring.e
  if s.portCurrent .W && s.portCurrent .E then roundDiv (e.hops * w.ofs + w.hops * e.ofs) (max 1 (w.hops + e.hops))
  else if s.portCurrent .W then w.ofs
  else e.ofs

/-- The offset a port gives by a SYNC frame: for each `ORIGIN_TICK` the one with the fewest hops counts, and the frame
that has just arrived has made one hop more than its header says (R399, log entry 42). -/
def State.takeOffset (s : State) (p : RingPort) (f : RingFrame) (ofs : Int) : State :=
  let tick := ofLe ((ringBytes f.words).take 8)
  let hops := rgHops f.hdr + 1
  let x := s.svc.ring.port p
  if x.syncTick = some tick ∧ x.hops ≤ hops then s
  else
    let s := s.modRPort p fun x => { x with ofs := ofs, syncTick := some tick, hops := hops, syncAt := some s.now }
    (s.swr (portHopsFld p) hops).swr (portOfsFld p) (ofInt 32 (satI 32 ofs))

/-- The timing port (R401): chosen anew when none is held or the one held gives no current offset. -/
def State.chooseTiming (s : State) : State :=
  let held := s.svc.ring.timed && s.portCurrent (if s.srd F.RING_STAT_TPORT = 0 then .W else .E)
  if held then s
  else
    let pick : Option RingPort :=
      if s.portCurrent .W ∧ (s.portCurrent .E = false ∨ s.svc.ring.w.hops ≤ s.svc.ring.e.hops) then some .W
      else if s.portCurrent .E then some .E
      else none
    match pick with
    | some p => (s.modRing fun r => { r with timed := true }).swr F.RING_STAT_TPORT (portCode p)
    | none => s.modRing fun r => { r with timed := false }

/-- Whether a port is the timing port. -/
def State.isTiming (s : State) (p : RingPort) : Bool := s.svc.ring.timed && decide (s.srd F.RING_STAT_TPORT = portCode p)

/-- Offsets that disagree: notice 0x0705, at most once per second (R400). -/
def State.checkDisagree (s : State) : State :=
  let w := s.svc.ring.w.ofs
  let e := s.svc.ring.e.ofs
  let far := s.portCurrent .W && s.portCurrent .E && decide (s.srd F.RING_CFG2_DISAGREE_LIM * 3072 < (w - e).natAbs * 2000)
  if far ∧ (s.svc.ring.disagreeAt.all fun a => a + ticksOfUs 1000000 ≤ s.now) then
    (s.modRing fun r => { r with disagreeAt := some s.now }).raiseSvc 0x0705 (le 4 (ofInt 32 (satI 32 w)) ++ le 4 (ofInt 32 (satI 32 e)))
  else s

/-- The service die moves its tick phase by a quarter of an offset, at most 64 steps (R400). -/
def State.movePhase (s : State) (ofs : Int) : State :=
  let d := clampI (-64) 64 (roundDiv (-ofs) 4)
  s.swr F.TB_PHASE_STEPS (ofInt 16 (toInt 16 (s.srd F.TB_PHASE_STEPS) + d))

/-- Whether the module takes the ring's count (R381, R382): its mode is Loading or Standby. -/
def State.mayLoad (s : State) : Bool :=
  match s.mode s.speaker with
  | .loading | .standby => true
  | _ => false

/-- The count that a SYNC frame gives is loaded; the start pulse follows at the next multiple of 2^20 ticks, and INC changes with it
(R374, R381). -/
def State.loadCount (s : State) (f : RingFrame) (ofs : Int) : State :=
  let c := BitVec.ofInt 64 ((s.svc.count.toNat : Int) - (ofs - phasePart ofs) / 1024)
  let inc := ofLe (((ringBytes f.words).drop 16).take 4)
  (s.modSvc fun d => { d with count := c }).modRing fun r =>
    { r with loaded := true, phaseOk := false, startPending := true, loadInc := inc, w := { r.w with syncTick := none, syncAt := none }
             e := { r.e with syncTick := none, syncAt := none } }

/-- One step of R381 on a SYNC frame of the timing port: the phase of the combined offset is driven within a quarter of a tick, and the
next frame loads the count. -/
def State.approach (s : State) (f : RingFrame) (ofs : Int) : State :=
  if s.svc.ring.phaseOk then s.loadCount f ofs
  else
    let ph := phasePart s.combinedOfs
    (s.movePhase ph).modRing fun r => { r with phaseOk := decide (ph.natAbs ≤ 256) }

/-- The module takes the ring's count again (R381, R382). -/
def State.loadAgain (s : State) : State := s.modRing fun r => { r with loaded := false, phaseOk := false, startPending := false }

/-- A count that differs by half a tick or more (R382). -/
def State.countDiffers (s : State) (ofs : Int) : State :=
  if s.mayLoad then s.loadAgain
  else if s.srd F.TB_STAT_UNSYNC = 1 then s
  else ((s.swr F.TB_STAT_UNSYNC 1).swr F.TB_STAT_STATE tbUnsynced).raiseSvc 0x070D (le 4 (ofInt 32 (satI 32 ofs)))

/-- The head's quality word as SYNC brings it (R376, R389). -/
def State.takeQuality (s : State) (f : RingFrame) : State :=
  let head := ofLe (((ringBytes f.words).drop 22).take 2)
  let q := s.memberQuality (BitVec.ofNat 16 head)
  let s := s.modRing fun r => { r with headErr := head % 256 }
  (s.swr F.TB_STAT_STATE (bitsOf q.toNat 13 3)).swr F.TB_STAT_ERR (bitsOf q.toNat 0 8)

/-- Leaves ring holdover (R404). -/
def State.leaveRhold (s : State) : State :=
  let s := s.modRing fun r => { r with syncAt := some s.now }
  if s.srd F.TB_STAT_RHOLD = 1 then (s.swr F.TB_STAT_RHOLD 0).raiseSvc 0x070E (le 1 1) else s

/-- What a module that is not head does with a SYNC frame (R381, R382, R399 to R401, R404). -/
def State.followSync (s : State) (p : RingPort) (f : RingFrame) (fine : Nat) : State :=
  let ofs := s.syncOffset p f fine
  let s := (((s.leaveRhold).takeOffset p f ofs).chooseTiming).checkDisagree
  let s := s.swr F.RING_OFS_OFS (ofInt 32 (satI 32 s.combinedOfs))
  if s.svc.ring.loaded = false then (if s.isTiming p ∧ s.mayLoad then s.approach f ofs else s)
  else if s.srd F.TB_STAT_UNSYNC = 1 then (if s.mayLoad then s.loadAgain else s)
  else if 512 ≤ ofs.natAbs then s.countDiffers ofs
  else if s.isTiming p then (s.movePhase s.combinedOfs).takeQuality f
  else s

/-- SYNC_FRAME_RX (R381, R382, R394, R399 to R402, R404): the frame goes on with the link delay and the residence added to
`CORR`, and a module that is not head follows it. `fine` is the arrival within its tick, `residence` the ticks from that
tick's boundary to the departure. A port carries timing only after eight delay samples (R396). -/
def execSyncFrameRx (p : RingPort) (f : RingFrame) (fine : BitVec 7) (residence : BitVec 6) (s : State) : Out :=
  .next (s.ringRx p 0 f fun s =>
    if rgOrigin f.hdr = s.modid ∨ (s.svc.ring.port p).samples < 8 then s
    else
      let b := ringBytes f.words
      let add : Int := s.linkDelay p (rgWest f.hdr) + ((residence.toNat : Int) * 65536 - fine.toNat * 512)
      let corr := ofInt 64 (toInt 64 (ofLe ((b.drop 8).take 8)) + add)
      let s := s.forward p f (ringWords (b.take 8 ++ le 8 corr ++ b.drop 16))
      if s.isHead then s else s.followSync p f fine.toNat)

/-- RING_HOLDOVER (R404): no SYNC frame on either port for 2^20 ticks. -/
def execRingHoldover (s : State) : Out :=
  .next (
    if s.isHead = false ∧ s.svc.ring.open_ ∧ s.srd F.TB_STAT_RHOLD = 0 ∧ s.svc.ring.syncAt.getD 0 + 2 ^ 20 ≤ s.now then
      (s.swr F.TB_STAT_RHOLD 1).raiseSvc 0x070E (le 1 0)
    else s)

/-! ### Peer delay and ports (R390, R396, R397, R420) -/

/-- A frame on one port only (R396). -/
def State.peerSend (s : State) (p : RingPort) (type : Nat) (bs : List Byte) : State :=
  s.transmit p { hdr := rgHeader type s.modid 0 (decide (p = .W)) false ((bs.length + 3) / 4), words := ringWords bs, own := true }

/-- PDREQ_SEND (R396): it waits while the port sends another frame, so that T1 is its departure. -/
def execPdreqSend (p : RingPort) (s : State) : Out :=
  .next (
    let x := s.svc.ring.port p
    if s.portUp p = false ∨ (x.sending.any fun q => s.now < q.2) ∨ (x.pdAt.any fun a => s.now < a + 2 ^ 18) then s
    else
      let seq := (x.pdSeq + 1) % 65536
      let s := s.modRPort p fun x => { x with pdSeq := seq, t1 := some (s.svc.count.toNat * 128 % 2 ^ 64), pdAt := some s.now }
      s.peerSend p 1 (le 2 seq ++ le 1 s.modid ++ le 1 (portCode p)))

/-- PDREQ_RX (R396): answered on the same cable with the stamps of arrival and departure. -/
def execPdreqRx (p : RingPort) (f : RingFrame) (t2 t3 : W64) (s : State) : Out :=
  .next (s.ringRx p 1 f fun s =>
    s.peerSend p 2 ((ringBytes f.words).take 2 ++ le 1 s.modid ++ le 1 (portCode p) ++ le 4 0 ++ le 8 t2.toNat ++ le 8 t3.toNat))

/-- Whether a peer may stand at a port: in the map, with at most three entries bypassed (R397). -/
def State.peerOk (s : State) (p : RingPort) (peer : Nat) : Bool := (s.peerDistance p peer).any (· ≤ 4)

/-- A port becomes OPEN because of its peer (R397, R421, log entry 43). -/
def State.peerRejected (s : State) (p : RingPort) (peer : Nat) : State :=
  let r := s.draw 8
  let s := (r.2.setRPort p rpOpen).swr (portPeerFld p) peer
  match s.peerDistance p peer with
  | some d => (s.raiseSvc 0x0701 (le 1 (portCode p) ++ le 1 r.1)).raiseSvc 0x0704 (le 1 (portCode p) ++ le 1 (d - 1))
  | none => (s.raiseSvc 0x0701 (le 1 (portCode p) ++ le 1 1)).raiseSvc 0x0704 (le 1 (portCode p) ++ le 1 r.1)

/-- A delay sample of a port, in 2^-16 tick (R396). -/
def State.delaySample (s : State) (p : RingPort) (d : Int) : State :=
  let x := s.svc.ring.port p
  if x.samples < 8 then
    s.modRPort p fun x =>
      { x with samples := x.samples + 1, sum := x.sum + d, delay := if x.samples = 7 then roundDiv (x.sum + d) 8 else 0 }
  else if 196608 < (d - x.delay).natAbs * 20 then s.countUp s.speaker F.RING_CNT_PDREJ_COUNT
  else s.modRPort p fun x => { x with delay := x.delay + roundDiv (d - x.delay) 64 }

/-- PDRESP_RX (R396, R397). -/
def execPdrespRx (p : RingPort) (f : RingFrame) (t4 : W64) (s : State) : Out :=
  .next (s.ringRx p 2 f fun s =>
    let b := ringBytes f.words
    let w := fun ofs n => ofLe ((b.drop ofs).take n)
    let x := s.svc.ring.port p
    match x.t1 with
    | none => s
    | some t1 =>
      if w 0 2 ≠ x.pdSeq then s
      else if s.peerOk p (w 2 1) = false then s.peerRejected p (w 2 1)
      else
        let trip := toInt 64 (ofInt 64 ((t4.toNat : Int) - t1))
        let there := toInt 64 (ofInt 64 ((w 16 8 : Int) - w 8 8))
        let s := (s.modRPort p fun x => { x with t1 := none }).delaySample p ((trip - there) * 256)
        s.swr (portDelayFld p) (ofInt 24 (fineToOfs (s.svc.ring.port p).delay)))

/-- RING_PORT_TRAINING_PASS (R390, R397): 16 commas and a valid frame from the peer. -/
def execRingPortTrainingPass (p : RingPort) (peer : Byte) (s : State) : Out :=
  .next (
    if s.svc.ring.open_ = false ∨ s.srd (portStateFld p) ≠ rpTraining then s
    else if s.peerOk p peer.toNat = false then s.peerRejected p peer.toNat
    else
      let s := (s.swr (portPeerFld p) peer.toNat).swr (portSkipFld p) ((s.peerDistance p peer.toNat).getD 1 - 1)
      (s.setRPort p rpUp).raiseSvc 0x0702 (le 1 (portCode p) ++ le 1 peer.toNat))

/-- RING_PORT_OPEN (R390, R397): no comma lock within 10 ms, or a peer that may not stand there. -/
def execRingPortOpen (p : RingPort) (peer : Option Byte) (s : State) : Out :=
  .next (
    if s.svc.ring.open_ = false then s
    else
      match peer with
      | none =>
        if s.srd (portStateFld p) = rpTraining ∧ (s.svc.ring.port p).since + ticksOfUs 10000 ≤ s.now then
          (s.setRPort p rpOpen).raiseSvc 0x0701 (le 1 (portCode p) ++ le 1 0)
        else s
      | some x => if s.srd (portStateFld p) = rpOpen ∨ s.peerOk p x.toNat then s else s.peerRejected p x.toNat)

/-- RING_PORT_ERRORS (R390): alignment lost, or four code errors within 256 characters. -/
def execRingPortErrors (p : RingPort) (s : State) : Out :=
  .next (if s.portUp p then s.setRPort p rpTraining else s)

/-- RING_PORT_RETRY (R390): an OPEN port trains again once per second. -/
def execRingPortRetry (p : RingPort) (s : State) : Out :=
  .next (
    if s.svc.ring.open_ ∧ s.srd (portStateFld p) = rpOpen ∧ (s.svc.ring.port p).since + ticksOfUs 1000000 ≤ s.now then
      s.setRPort p rpTraining
    else s)

/-- A write of `RING_CTL`: clears, and ports put into TRAINING (R420). -/
def State.ringCtl (s : State) (o : OfficeId) (v : Nat) : State :=
  let r := s.hostWrite o F.RING_CTL_CRC.off v
  if r.2 = false then r.1
  else
    let s := r.1.clearBits o v 0 0 [F.RING_CNT_CRC_COUNT, F.RING_CNT_LATESM_COUNT, F.RING_CNT_PDREJ_COUNT]
    let s := if bitsOf v 31 1 = 1 ∧ s.svc.ring.open_ then s.setRPort .E rpTraining else s
    if bitsOf v 30 1 = 1 ∧ s.svc.ring.open_ then s.setRPort .W rpTraining else s

/-- RETRAIN_E (R390, R420). -/
def execRetrainE (o : OfficeId) (v : W32) (s : State) : Out := .next (s.ringCtl o v.toNat)

/-- RETRAIN_W (R390, R420). -/
def execRetrainW (o : OfficeId) (v : W32) (s : State) : Out := .next (s.ringCtl o v.toNat)

/-- RING_CNT_CLR (R420). -/
def execRingCntClr (o : OfficeId) (v : W32) (s : State) : Out := .next (s.ringCtl o v.toNat)

/-- WRAP_EXPIRY (R402): no frame with `WRAPPED` for 2^20 ticks. -/
def execWrapExpiry (s : State) : Out :=
  .next (if s.srd F.RING_STAT_WRAP = 1 ∧ s.svc.ring.wrapAt + 2 ^ 20 ≤ s.now then s.swr F.RING_STAT_WRAP 0 else s)

/-! ### Broadcasts (R405 to R407) -/

/-- BCAST_RX (R394, R405 to R407). -/
def execBcastRx (p : RingPort) (f : RingFrame) (s : State) : Out :=
  .next (s.ringRx p 3 f fun s =>
    let s := s.forward p f f.words
    let b := ringBytes f.words
    let w := fun ofs n => ofLe ((b.drop ofs).take n)
    if rgOrigin f.hdr = s.modid ∨ b.length < 12 ∨ s.svc.ring.seen.contains (rgOrigin f.hdr, w 0 2) then s
    else s.takeBcast { origin := rgOrigin f.hdr, seq := w 0 2, op := w 2 1, tick := w 4 8, arg := b.drop 12 })

/-- Whether one scheduled operation comes before another: by `TICK` and `SEQ`, and a mode change first in its tick (R407,
R662). -/
def Bcast.before (a b : Bcast) : Bool :=
  tickLt a.tick b.tick ||
    (decide (a.tick = b.tick) && ((decide (a.op = 5) && decide (b.op ≠ 5)) ||
      (decide (a.op = 5) = decide (b.op = 5) && later (BitVec.ofNat 16 b.seq) (BitVec.ofNat 16 a.seq))))

/-- The scheduled operation whose turn has come: EPOCH apart, the first by `TICK` and `SEQ` of those whose tick has been
reached (R407). -/
def State.dueOp (s : State) : Option Bcast :=
  (s.svc.ring.sched.filter fun b => b.op ≠ 1 ∧ (s.svc.count - BitVec.ofNat 64 b.tick).toNat < 2 ^ 63).foldl
    (fun best b => match best with
      | some x => if b.before x then some b else some x
      | none => some b) none

/-- Whether a transition that the host requested takes effect before an operation, and has not yet (R662). One whose Held
exit has begun does not count. -/
def State.transitionFirst (s : State) (b : Bcast) : Bool :=
  s.owner.any fun o => (s.off o).loadedAt.isNone && (s.off o).pendMode.any fun p =>
    tickLt p.atCount.toNat b.tick || (decide (p.atCount.toNat = b.tick) && decide (b.op ≠ 5))

/-- Carries out the due operation when it is of kind `op`; it is no longer held. -/
def State.runDue (s : State) (op : Nat) (act : State → Bcast → State) : State :=
  match s.dueOp with
  | some b =>
    if b.op ≠ op ∨ s.transitionFirst b then s
    else (act ((s.modRing fun r => { r with sched := r.sched.erase b }).refreshPending) b).mirrorChanges
  | none => s

/-- The elements of a register field: BAR0 offset and indices. -/
def Fld.elements (f : Fld) : List (Nat × Nat × Nat) :=
  (List.range (max 1 f.n2)).flatMap fun j => (List.range (max 1 f.n)).map fun i => (f.addr i j, i, j)

/-- The entries of a snapshot: BAR0 offset and value of every counter and every half of a pair (R410). -/
def State.snapshotEntries (s : State) (o : OfficeId) : List (Nat × Nat) :=
  ((counterFields ++ counterPairs).flatMap fun f =>
    f.elements.map fun e => (e.1, s.rd o f e.2.1 e.2.2)).mergeSort fun a b => decide (a.1 ≤ b.1)

/-- The bytes of a snapshot record (R410). -/
def State.snapshotRecord (s : State) (o : OfficeId) (b : Bcast) : List Byte :=
  let es := s.snapshotEntries o
  let body := es.flatMap fun e => le 4 e.1 ++ le 4 e.2
  let head := le 2 0x5A90 ++ le 1 1 ++ le 1 s.modid ++ le 2 b.seq ++ le 2 es.length ++ le 8 b.tick ++
    (s.postmarkAt b.tick).1.bytes ++ le 4 (crc32c body).toNat ++ List.replicate 24 0
  head ++ le 4 (crc32c head).toNat ++ body

/-- SNAPSHOT (R410): the owner latches its counters and the postmark of `TICK`; a pigeonhole below 2 stands for the
dead-letter office. -/
def execSnapshot (s : State) : Out :=
  .next (s.runDue 2 fun s b =>
    match s.owner with
    | none => s
    | some o =>
      let ph := ofLe (b.arg.take 2) % 4096
      s.queueRecord o (if ph < 2 then 0 else ph)
        { kind := 3, round := s.roundOf (BitVec.ofNat 64 b.tick), bytes := s.snapshotRecord o b, at_ := s.now })

/-- Clears every counter that a clear register clears; the tiles' own clear at the next round boundary (R76, R410). -/
def State.clearAllCounters (s : State) (o : OfficeId) : State :=
  let tile := [F.SORT_FE_CNT_PBUSY_COUNT, F.SORT_FE_CNT_QFULL_COUNT, F.SORT_FE_CNT_TOTSAT_COUNT,
    F.SORT_FE_CNT_INJSKIP_COUNT, F.SORT_FE_CNT_SEU_COUNT, F.SORT_TE_CNT_COLEAD_COUNT, F.SORT_TE_CNT_COTRAIL_COUNT,
    F.SORT_TE_CNT_ORPHAN_COUNT, F.SORT_TE_CNT_UNLOCK_COUNT]
  let s := ((counterFields ++ counterPairs).filter fun f => !tile.contains f).foldl
    (fun s f => f.elements.foldl (fun s e => if s.rd o f e.2.1 e.2.2 = 0 then s else s.clearCounter o f e.2.1 e.2.2) s) s
  allTiles.foldl (fun s t => s.modTile t fun d => { d with clrFe := 31, clrTe := 15 }) s

/-- RESET (R410): clears counters and restarts sequencers, as its argument says. -/
def execReset (s : State) : Out :=
  .next (s.runDue 3 fun s b =>
    match s.owner with
    | none => s
    | some o =>
      let a := ofLe (b.arg.take 1)
      let s := if bitsOf a 0 1 = 1 then s.clearAllCounters o else s
      if bitsOf a 1 1 = 1 then
        allTiles.foldl (fun s t => if (s.seq o t).running then s.startSeq o t else s) s
      else s)

/-! ### Stamp-moment requests (R408, R419) -/

/-- `RESULT` of a request: 0, or the first ground on which it is refused (R408, R419, log entry 44). -/
def State.smFault (s : State) (o : OfficeId) (op arg tick : Nat) : Nat :=
  let ahead := (BitVec.ofNat 64 tick - s.svc.count).toNat
  let hops := if s.srd F.RING_STAT_WRAP = 0 then s.srd F.RING_CFG_N_MAP / 2 else s.srd F.RING_CFG_N_MAP - 1
  let argOk := match op with
    | 2 => arg < 4096
    | 3 => arg < 4
    | 4 => arg < 65536
    | 5 => decide (4 ≤ arg) && decide (arg ≤ 7) && decide (tick % 2 ^ 20 = 0)
    | _ => false
  if s.owns o = false then 1
  else if s.isHub = false then 2
  else if s.srd F.TB_STAT_SYNCED = 0 then 3
  else if argOk = false then 6
  else if 16 ≤ s.svc.ring.sched.length then 7
  else if 2 ^ 32 ≤ ahead then 5
  else if ahead < hops * s.srd F.RING_CFG_HOP_TICKS + s.srd F.RING_CFG2_LEAD_MARGIN then 4
  else 0

/-- A write of `RING_SM_CMD` (R408, R419): an accepted request is broadcast and held by the hub itself; a refused one
raises 0x0707 with its `RESULT`. -/
def State.smCommand (s : State) (o : OfficeId) (v : Nat) : State :=
  let r := s.hostWrite o F.RING_SM_CMD_GO.off v (own := bitsOf v 31 1 = 1)
  let s := r.1
  if s.takesWrites o = false ∨ bitsOf v 31 1 = 0 then s
  else
    let op := bitsOf v 0 8
    let arg := s.srd F.RING_SM_ARG_ARG
    let tick := s.srd F.RING_SM_TICK_LO_TICK_L + s.srd F.RING_SM_TICK_HI_TICK_H * 2 ^ 32
    let f := s.smFault o op arg tick
    let s := s.swr F.RING_SM_STAT_RESULT f
    if f ≠ 0 then s.raise o 0x0707 (le 1 f)
    else (s.swr F.RING_SM_STAT_SEQ s.svc.ring.seq).broadcast op tick (le 4 arg) true

/-- SM_REQUEST_SNAPSHOT (R408, R419). -/
def execSmRequestSnapshot (o : OfficeId) (v : W32) (s : State) : Out := .next (s.smCommand o v.toNat)

/-- SM_REQUEST_RESET (R408, R419). -/
def execSmRequestReset (o : OfficeId) (v : W32) (s : State) : Out := .next (s.smCommand o v.toNat)

/-- SM_REQUEST_FLASH (R408, R419). -/
def execSmRequestFlash (o : OfficeId) (v : W32) (s : State) : Out := .next (s.smCommand o v.toNat)

/-- SM_REQUEST_MODE (R408, R419). -/
def execSmRequestMode (o : OfficeId) (v : W32) (s : State) : Out := .next (s.smCommand o v.toNat)

/-! ### Barriers (R411, R419) -/

/-- The barrier status word of the module (R411). -/
def State.barrierStatus (s : State) : Nat :=
  let o := s.speaker
  s.srd F.TB_STAT_SYNCED + 2 * b2n (s.mode o).isData + 4 * b2n s.svc.ring.missed + 8 * b2n s.svc.ring.epochFixed +
    16 * b2n (s.storeOn o) + 32 * b2n (decide (s.tbState = tbHoldover) || decide (s.srd F.TB_STAT_RHOLD = 1)) +
    64 * b2n s.locallyWrapped

/-- The payload of a barrier (R411). -/
def barrierWords (bid count all any : Nat) : List W32 :=
  ringWords (le 2 bid ++ le 1 count ++ le 1 0 ++ le 2 all ++ le 2 any ++ le 4 0)

/-- What happened since the last barrier has been told. -/
def State.barrierTold (s : State) (bid : Nat) : State :=
  s.modRing fun r => { r with missed := false, epochFixed := false, lastBid := some bid }

/-- BARRIER_START (R411, R419): one barrier at a time. -/
def execBarrierStart (o : OfficeId) (v : W32) (s : State) : Out :=
  .next (
    let s := (s.hostWrite o F.RING_BAR_CMD_GO.off v.toNat).1
    if s.takesWrites o = false ∨ bitsOf v.toNat 31 1 = 0 then s
    else if s.owns o = false then s.swr F.RING_SM_STAT_RESULT 1
    else if s.isHub = false then s.swr F.RING_SM_STAT_RESULT 2
    else if s.srd F.RING_BAR_STAT_BUSY = 1 then s
    else
      let bid := (s.svc.ring.bid + 1) % 65536
      let st := s.barrierStatus
      let s := (s.barrierTold bid).modRing fun r => { r with bid := bid, barAt := s.now }
      ((s.swr F.RING_BAR_STAT_BUSY 1).originate .E 4 (barrierWords bid 1 st st)).mirrorChanges)

/-- BARRIER_RX (R394, R402, R411): a module adds itself once; at the hub the barrier completes when it comes eastbound, or
when it can go no further west (log entry 36). -/
def execBarrierRx (p : RingPort) (f : RingFrame) (s : State) : Out :=
  .next (s.ringRx p 4 f fun s =>
    let b := ringBytes f.words
    let w := fun ofs n => ofLe ((b.drop ofs).take n)
    if rgOrigin f.hdr = s.modid then
      if s.srd F.RING_BAR_STAT_BUSY = 0 ∨ w 0 2 ≠ s.svc.ring.bid then s
      else if rgWest f.hdr ∧ s.portUp .W then
        s.ringSend .W 4 (rgOrigin f.hdr) (rgHops f.hdr + 1) true (rgWrapped f.hdr) false f.words
      else
        let s := ((s.swr F.RING_BAR_STAT_BUSY 0).setEvent s.speaker F.RING_BAR_STAT_DONE).swr F.RING_BAR_STAT_TIMEOUT 0
        ((s.swr F.RING_BAR_STAT_COUNT (w 2 1)).swr F.RING_BAR_RES_AND (w 4 2)).swr F.RING_BAR_RES_OR (w 6 2)
    else if s.svc.ring.lastBid = some (w 0 2) then s.forward p f f.words
    else
      let st := s.barrierStatus
      (s.barrierTold (w 0 2)).forward p f (barrierWords (w 0 2) (w 2 1 + 1) (w 4 2 &&& st) (w 6 2 ||| st)))

/-- BARRIER_TIMEOUT (R411): a barrier not returned within 2^20 ticks. -/
def execBarrierTimeout (s : State) : Out :=
  .next (
    if s.srd F.RING_BAR_STAT_BUSY = 1 ∧ s.svc.ring.barAt + 2 ^ 20 ≤ s.now then
      ((s.swr F.RING_BAR_STAT_BUSY 0).setEvent s.speaker F.RING_BAR_STAT_DONE).swr F.RING_BAR_STAT_TIMEOUT 1
    else s)

end Sys2Proof.Machine
end

