-- ==== Sys2Proof/Machine/Twin.lean ====
section
/-! DEFINITION. The twin offices: heartbeats, the tile vote, ownership, eligibility (13 R514 to R529, R535, R538 to R543).
The mirror's receiver and handovers follow in Handover. -/

namespace Sys2Proof.Machine

/-! ### What an office knows (R515, R522, R527, R535) -/

/-- Whether an office is the senior one (R515). -/
def State.isSenior (s : State) (o : OfficeId) : Bool := s.rd o F.TWN_CFG_SENIOR = officeBit o

/-- Whether the last link heartbeat is younger than 30 µs. -/
def State.linkFresh (s : State) (o : OfficeId) : Bool := (s.off o).twin.hbAt.any fun a => decide (s.now - a < 45000)

/-- A bit of the last heartbeat word of the other office (R518). -/
def State.peerBit (s : State) (o : OfficeId) (k : Nat) : Bool := (s.off o).twin.hbWord.getLsbD k

/-- The newest liveness word of a tile, of the last 30 µs (R522). -/
def State.freshWord (s : State) (o : OfficeId) (t : Fin 4) : Option Nat :=
  match (s.off o).liveness.get t with
  | some p => if s.now - p.1 < 45000 then some p.2.toNat else none
  | none => none

/-- The vote an office counts for a tile, as `OWNER` of R144: by its liveness word, else for itself when the tile's status
frame came at the last round boundary; none when the tile is not heard (R522). -/
def State.heardVote (s : State) (o : OfficeId) (t : Fin 4) : Option Nat :=
  match s.freshWord o t with
  | some w => some (bitsOf w 0 2)
  | none =>
    if ((s.off o).statusAt.get t).any fun a => decide (s.now - a ≤ 2 ^ s.svc.roundShift + 1500) then some (officeBit o) else none

/-- Votes an office counts for the office with code `c`. -/
def State.votesFor (s : State) (o : OfficeId) (c : Nat) : Nat := (allTiles.filter fun t => s.heardVote o t = some c).length

/-- The mask of tiles heard. -/
def State.heardMask (s : State) (o : OfficeId) : Nat :=
  allTiles.foldl (fun m t => m + b2n (s.heardVote o t).isSome * 2 ^ t.val) 0

/-- Whether a tile that the office hears reports the other office as a live owner (R535). -/
def State.peerLiveAtTiles (s : State) (o : OfficeId) : Bool :=
  allTiles.any fun t => (s.freshWord o t).any fun w => bitsOf w 3 1 = 1 && bitsOf w 0 2 = officeBit (otherOffice o)

/-- Whether every tile that the office hears reports the other office as not live (R540). -/
def State.peerDeadAtTiles (s : State) (o : OfficeId) : Bool :=
  allTiles.all fun t => (s.freshWord o t).all fun w => decide (30 ≤ bitsOf w (if o = .A then 16 else 24) 8)

/-- Whether the other office owns, as this one knows it: its last heartbeat said so, and the link or a tile still tells that
it lives. -/
def State.peerOwns (s : State) (o : OfficeId) : Bool := s.peerBit o 4 && (s.linkFresh o || s.peerLiveAtTiles o)

/-! ### Heartbeats (R517, R518) -/

/-- Whether an office sends heartbeats: its image is applied, or it is in Fallback. -/
def State.beats (s : State) (o : OfficeId) : Bool := !(s.off o).inReset && ((s.off o).imageApplied || s.inFallback o)

/-- The heartbeat word of an office (R518). -/
def State.heartbeat (s : State) (o : OfficeId) : W64 :=
  let w := (s.off o).twin
  let live := !s.inFallback o
  let h := match w.release, w.accept with
    | some r, _ => r.round
    | none, some n => n
    | none, none => 0
  BitVec.ofNat 64 (officeBit o + 2 * b2n (live && s.healthy o) + 4 * b2n (live && s.flag o F.TWN_STAT_ELIGIBLE) + 8 * b2n (s.isSenior o) +
    16 * b2n (live && s.owns o) + 32 * b2n w.release.isSome + 64 * b2n w.accept.isSome + 128 * b2n w.requestUntil.isSome +
    s.reachMask o * 2 ^ 8 + s.rd o F.TWN_STAT_VOTES_SELF % 8 * 2 ^ 12 + s.rd o F.TWN_TERM_TERM * 2 ^ 16 + h % 2 ^ 32 * 2 ^ 32)

/-- Sends a heartbeat on the link and on every downlink (R517). -/
def State.sendHeartbeat (s : State) (o : OfficeId) : State :=
  if s.beats o = false then s
  else
    let w := s.heartbeat o
    let s := s.modTwin o fun x => { x with sentWord := some w }
    allTiles.foldl (fun s t => s.emit (.downlink o t (dlHeader 1 0 1) [w])) (s.emit (.link o (linkHeader 0 false 1) [w]))

/-- Sends one at once when `FLAGS` or `HROUND` has changed (R517). -/
def State.noteFlags (s : State) (o : OfficeId) : State :=
  let key := fun (w : W64) => (w.toNat % 256, w.toNat / 2 ^ 32)
  if (s.off o).twin.sentWord.map key = some (key (s.heartbeat o)) then s else s.sendHeartbeat o

/-! ### Eligibility (R528, R529, R534) -/

/-- Whether the mirrored state is current (R534): nothing was left to fetch, no item has stayed unacknowledged for 100 µs, and
the last stored round's pointer is held. Once the owner has gone, the last finding stands. -/
def State.mirrorCurrent (s : State) (o : OfficeId) : Bool :=
  let p := otherOffice o
  if s.owns p then
    decide ((s.off o).twin.missing = 0) && decide (s.role o = .relief) &&
      ((s.off p).unacked.all fun i => decide (s.now - i.firstAt ≤ 150000)) &&
      decide ((s.off o).twin.pointer.map (·.round) = (s.off p).sto.newest)
  else s.flag o F.TWN_STAT_CURRENT

/-- The start condition (R529). -/
def State.startMet (s : State) (o : OfficeId) : Bool :=
  let w := (s.off o).twin
  s.isSenior o || s.owns o || w.seniorOwned || w.graceOver

/-- Whether `ELIGIBLE` may be set (R528). -/
def State.mayBeEligible (s : State) (o : OfficeId) : Bool :=
  s.healthy o &&
    (s.owns o ||
      (!s.inFallback o && (s.off o).imageApplied && !s.flag o F.TWN_HEALTH_IMAGE && !s.flag o F.TWN_HEALTH_BOOK &&
        !s.flag o F.TWN_STAT_STALE && (decide (s.role o ≠ .relief) || s.flag o F.TWN_STAT_CURRENT) &&
        (!s.peerOwns o || (s.linkFresh o && s.flag o F.TWN_STAT_CURRENT)) && s.startMet o))

/-- Brings `TWN_STAT` up to date; a change of `ELIGIBLE` raises 0x0A08 (R528, R551, R556). -/
def State.refreshTwin (s : State) (o : OfficeId) : State :=
  if s.beats o = false then s
  else
    let s := (s.wr o F.TWN_STAT_HEALTHY (b2n (s.healthy o))).wr o F.TWN_STAT_CURRENT (b2n (s.mirrorCurrent o))
    let e := s.mayBeEligible o
    let s := if e = s.flag o F.TWN_STAT_ELIGIBLE then s
      else
        let s := (s.wr o F.TWN_STAT_ELIGIBLE (b2n e)).modTwin o fun w => { w with eligSince := if e then some s.now else none }
        s.raise o 0x0A08 (le 1 (b2n e) ++ le 1 (s.rd o F.TWN_STAT_STALE))
    s.noteFlags o

/-- HEARTBEAT_SEND (R517). -/
def execHeartbeatSend (o : OfficeId) (s : State) : Out := .next ((s.refreshTwin o).sendHeartbeat o)

/-! ### The tile vote (R519 to R521) -/

/-- An office as a tile sees it. -/
def Tile.liveEligible (d : Tile) (now : Nat) (o : OfficeId) : Bool :=
  (d.heard.get o).live now && (d.heard.get o).flags.getLsbD 2

/-- The senior office, by the heartbeats heard (R518, R520). -/
def Tile.seniorOf (d : Tile) : OfficeId := if d.heard.b.flags.getLsbD 3 then .B else .A

/-- Whether the round that `HROUND` names has begun (R520). -/
def Tile.hroundBegun (d : Tile) (rs : Nat) (h : W32) : Bool :=
  decide ((BitVec.ofNat 32 (d.count.toNat / 2 ^ rs) - h).toNat < 2 ^ 31)

/-- Whether `x` releases to `y` a round that has begun, and `y` accepts it. -/
def Tile.handsOver (d : Tile) (now rs : Nat) (x y : OfficeId) : Bool :=
  (d.heard.get x).flags.getLsbD 5 && d.hroundBegun rs (d.heard.get x).hround && (d.heard.get y).live now &&
    (d.heard.get y).flags.getLsbD 6 && decide ((d.heard.get y).hround = (d.heard.get x).hround)

/-- The table of R520. While two offices hand over a round that has begun, its last row does not take the vote back to the
releasing one (log entry 55). -/
def Tile.newVote (d : Tile) (now rs : Nat) : Vote :=
  match d.vote with
  | .none =>
    let a := d.seniorOf
    if d.liveEligible now a then .office a
    else if d.liveEligible now (otherOffice a) then .office (otherOffice a)
    else .none
  | .office x =>
    let y := otherOffice x
    if (d.heard.get x).live now = false then (if d.liveEligible now y then .office y else .none)
    else if d.handsOver now rs x y then .office y
    else if (d.heard.get x).flags.getLsbD 4 = false ∧ (d.heard.get y).live now ∧ (d.heard.get y).flags.getLsbD 4 ∧
        d.handsOver now rs y x = false then .office y
    else d.vote

/-- Applies the table; after a change the new office gets idle frames and the other none until the lane switch (R521). -/
def State.revote (s : State) (t : Fin 4) : State :=
  if (s.tile t).inReset then s else s.modTile t fun d => { d with vote := d.newVote s.now s.svc.roundShift }

/-- DL_HEARTBEAT_RX (R519, R520, R712): a heartbeat counts with a good CRC and the `OFFICE` bit of its downlink; each frame
trains a downlink. -/
def execDlHeartbeatRx (t : Fin 4) (o : OfficeId) (f : DlFrame) (s : State) : Out :=
  .next (
    let s := s.modTile t fun d => d.trainDownlink o (dlGood f)
    if (s.tile t).inReset ∨ dlGood f = false ∨ dlType f.hdr ≠ 1 then s
    else
      match f.words with
      | [w] =>
        if w.getLsbD 0 ≠ decide (o = .B) then s
        else
          (s.modTile t fun d =>
            { d with heard := d.heard.set o { at_ := some s.now, flags := w.extractLsb' 0 8, hround := w.extractLsb' 32 32 } }).revote t
      | _ => s)

/-- HEARTBEAT_AGE_EXPIRY (R520): an office's age at a tile has reached 30 µs. -/
def execHeartbeatAgeExpiry (t : Fin 4) (o : OfficeId) (s : State) : Out :=
  .next (if ((s.tile t).heard.get o).at_.any (fun a => s.now - a < 45000) then s else s.revote t)

/-! ### The store of a new owner (R311, R539, R542) -/

/-- A sack as a new owner finds it in the index: the one of the mirrored pointer closes at it, what was opened after it is no
part of the store, and the one before it that spilled into it is closed as it stands (R311). -/
def Sack.taken (e : Sack) (p : PointerItem) (k : Nat) : Sack :=
  if k = p.sack then
    { e with
      state := 2, last := if e.rounds = 0 then e.last else p.round, used := p.off
      rounds := e.rounds - (e.last + 2 ^ 48 - p.round) % 2 ^ 48, next := 0xFFFFFFFF, spill := false }
  else if later (BitVec.ofNat 64 e.seq) (BitVec.ofNat 64 p.seq) then { gen := e.gen }
  else if e.state = 1 then { e with state := 2 }
  else e

/-- The sacks that are OPEN: their entries are written as CLOSED when the store is taken over. -/
def Store.openSacks (t : Store) : List Nat := (t.sacks.filter fun e => e.2.state = 1).map (·.1)

/-- The store that a new owner goes on with: what the old owner stored up to the mirrored pointer, or its own (R311). -/
def State.inheritStore (s : State) (o : OfficeId) : State :=
  let old := (s.off (otherOffice o)).sto
  match (s.off o).twin.pointer with
  | some p =>
    s.modSto o fun t =>
      { t with
        sacks := (old.sacks.map fun e => (e.1, e.2.taken p e.1)).filter fun e => e.2 ≠ {}
        nextSeq := old.nextSeq, lastOpened := some p.sack, newest := some p.round, formatted := old.formatted
        lossBuf := t.lossBuf.zipIdx.map fun x => { x.1 with lseq := p.lseq + x.2 }
        lseq := p.lseq + t.lossBuf.length, logTail := p.logTail, cur := none, ahead := [], headed := false, resume := true }
  | none =>
    s.modSto o fun t =>
      { t with sacks := t.sacks.map fun e => (e.1, if e.2.state = 1 then { e.2 with state := 2 } else e.2)
               cur := none, ahead := [], headed := false, resume := true }

/-- Rounds that a new owner finds lost: after the last stored one, up to the first it merges (R542, R543). -/
def State.lostRounds (s : State) (o : OfficeId) (first : Nat) : Nat :=
  match (s.off o).sto.newest with
  | some n => if roundLe first (n + 1) then 0 else (first + 2 ^ 48 - (n + 1)) % 2 ^ 48
  | none => 0

/-- Steps 1 and 2 of R311: the sacks are closed, and in the data modes lost rounds are recorded and counted; their record names
the last sack written, the pointer's (R284). Answers how many were lost. -/
def State.prepareStore (s : State) (o : OfficeId) (first : Nat) : State × Nat :=
  if s.storeOn o = false then (s, 0)
  else
    let was := match (s.off o).twin.pointer with
      | some p => p.sack :: ((s.off (otherOffice o)).sto.openSacks.filter fun k => k ≠ p.sack)
      | none => (s.off o).sto.openSacks
    let s := s.inheritStore o
    let lost := if (s.mode o).isData then s.lostRounds o first else 0
    let s := was.foldl (fun s k => if ((s.off o).sto.sack k).state = 2 then s.writeEntry o k else s) s
    let s := match (s.off o).twin.pointer with
      | some p => (s.wr o F.STO_WP_HI_SACK p.sack).wr o F.STO_WP_LO_OFFSET p.off
      | none => s
    let s := if lost = 0 then s
      else (s.addLoss o 6 0 true false (BitVec.ofNat 48 (roundBack first lost)) lost).countBy o F.TWN_CNT_ROUNDSLOST_COUNT lost
    (((s.modTwin o fun w => { w with pointer := none }).flushLosses o).refreshStore o, lost)

/-- The office that gained ownership may write and deliver (R540); after a handover it takes over the store now (R545). -/
def State.allowWrites (s : State) (o : OfficeId) : State :=
  if (s.off o).twin.mayWrite ∨ s.owns o = false then s
  else
    let s := if (s.off o).twin.gainKind = 2 then (s.prepareStore o (((s.off o).spans.head?.map (·.1)).getD 0)).1 else s
    (s.modTwin o fun w => { w with mayWrite := true }).hostBack o false

/-- The office merges no round from `n` on. -/
def Office.endSpans (d : Office) (n : Nat) : Office :=
  { d with spans := (d.spans.filter fun x => roundLt x.1 n).map fun x => (x.1, some (match x.2 with
      | some b => if roundLt b n then b else n
      | none => n)) }

/-! ### Gaining and ceasing (R516, R523, R525, R539) -/

/-- The first whole round that the lanes of a tile take to an office the tile votes for: that of the lane switch, or the next
one where the lanes have switched before this round (R521). -/
def State.laneRound (s : State) (o : OfficeId) (t : Fin 4) : Nat :=
  let d := s.tile t
  let now := (s.roundOf d.count).toNat
  if d.laneOwner = .office o ∧ roundLe now d.switchRound then d.switchRound else nextRound now

/-- The first round whose frames reach a new owner: the next lane switch of a tile that votes for it (R521, R539). -/
def State.firstRound (s : State) (o : OfficeId) : Nat :=
  match (s.off o).twin.accept with
  | some n => n
  | none =>
    let rs := (allTiles.filter fun t => (s.tile t).vote = .office o).map (s.laneRound o)
    match rs with
    | [] => nextRound (s.roundOf (s.off o).count).toNat
    | r :: rest => rest.foldl (fun m r => if roundLt r m then r else m) r

/-- Settings that the last run state item carries to the new owner (R530, R548): `TRG_CTL` of each tile, `RATE_CAP` and the
calibration sequence. -/
def State.takeRunState (s : State) (o : OfficeId) : State :=
  match (s.off o).twin.run with
  | _ :: t0 :: t1 :: t2 :: t3 :: cap :: _ :: seq :: _ =>
    let s := [t0, t1, t2, t3].zipIdx.foldl (fun s x =>
      [F.TRG_CTL_ARM, F.TRG_CTL_PROG, F.TRG_CTL_PROFILE, F.TRG_CTL_RED_EN].foldl (fun s f => s.wr o f (f.part x.1) x.2) s) s
    (s.wr o F.COL_CTL_RATE_CAP cap).wr o F.GLB_CALSEQ_SEQ seq
  | _ => s

/-- What a new owner loads into the tiles while still in Loading (R329, R668). -/
def State.loadTiles (s : State) (o : OfficeId) : State :=
  let s := allTiles.foldl (fun s t =>
    if s.reaches o t then ((s.loadTile o t).loadProfile o t (s.rd o F.TRG_CTL_PROFILE t.val)) else s) (s.sendFrontEnds o)
  s.modOff o fun d => { d with loadedAt := some s.now }

/-- Every stream's next envelope is a key envelope (R235). -/
def State.keyEveryStream (s : State) (o : OfficeId) : State :=
  s.modCmp o fun c => { c with hist := c.hist.map fun e => (e.1, { e.2 with keypend := true }) }

/-- The first mailbag of a pigeonhole carries `GAP` when its mirrored live position is earlier than the round before the first
merged one (R539). -/
def State.markGaps (s : State) (o : OfficeId) (first : Nat) : State :=
  (s.off o).twin.positions.foldl (fun s e => if e.2 % 2 ^ 49 = 0 ∨ roundLt (e.2 % 2 ^ 49) first then s.modPh o e.1 fun x => { x with gap := true } else s) s

/-- An office gains ownership (R516, R539). -/
def State.gainOwnership (s : State) (o : OfficeId) : State :=
  let w := (s.off o).twin
  let handed := s.linkFresh o && w.accept.any fun n => tickLe (n * 2 ^ s.svc.roundShift) (s.off o).count.toNat
  let kind := if handed then 2 else if s.role o = .relief then 1 else 0
  let s := s.modTwin o fun w => { w with accept := if handed then w.accept else none }
  let own := BitVec.ofNat 16 (s.rd o F.TWN_TERM_TERM)
  let peer := BitVec.ofNat 16 (s.rd o F.TWN_TERM_PEER_TERM)
  let s := s.wr o F.TWN_TERM_TERM ((if later peer own then peer else own).toNat + 1)
  let s := (s.modOff o fun d => { d with cal := {}, flashTicks := [], thm := {} }).wr o F.EMT_CAL_STAT_STATE 0
  let first := s.firstRound o
  let data := (s.mode o).isData
  let s := ((s.wr o F.TWN_STAT_ROLE 0).countUp o F.TWN_CNT_GAIN_COUNT).modTwin o fun w =>
    { w with mayWrite := false, gainAt := s.now, gainKind := kind, noOwnerSince := none, noOwnerNoted := false,
             sentTime := [], sentRun := [], sentPositions := [], missing := 0, dualTerm := none, peerEligSince := none, reachSince := none }
  let s := s.modOff o fun d =>
    { d with mseq := 0, unacked := [], orders := [], running := [], nextKey := first * 256
             spans := if data then [(first, none)] else []
             modeFrom := if data then [(first, s.mode o)] else [] }
  let s := (s.refreshTwin o).raise o 0x0A01 (le 2 (s.rd o F.TWN_TERM_TERM) ++ le 1 (s.rd o F.TWN_STAT_VOTES_SELF) ++ le 1 kind)
  let s := allTiles.foldl (fun s t => s.sendLaneStatus o t) s
  let s := if kind = 0 then s else s.takeRunState o
  let s := ((if s.mode o = .loading then s.loadTiles o else s).followLevel o).refreshPending
  let s := (((s.keyEveryStream o).refreshOrders o).syncSeqs o).markGaps o first
  let s := allTiles.foldl (fun s t => s.wr o F.TRG_STAT_DEC (decCode (Machine.decOf (s.sumUp o t))) t.val) s
  let s := if data then s.wrPair o F.TWN_FIRST_ROUND_LO_ROUND_L F.TWN_FIRST_ROUND_HI_ROUND_H first else s
  if kind = 1 then
    let last := match (s.off o).twin.pointer with
      | some p => p.round
      | none => (s.off o).sto.newest.getD 0
    let p := s.prepareStore o first
    p.1.raise o 0x0A03 (le 6 last ++ le 6 first ++ le 4 p.2)
  else if kind = 0 then (s.prepareStore o first).1
  else s

/-- Returns every buffer of the data pigeonholes (R525 step 2, R460). -/
def State.returnBuffers (s : State) (o : OfficeId) : State :=
  (s.off o).phs.foldl (fun s e =>
    if e.1 < 2 then s
    else
      let s := s.modPh o e.1 fun x => { x with bag := none, queue := [] }
      ((s.off o).ph e.1).held.foldl (fun s _ => s.returnBuffer o e.1 0x12) s) s

/-- An office ceases ownership (R525). -/
def State.ceaseOwnership (s : State) (o : OfficeId) (cause : Nat) : State :=
  let s := ((s.abortCampaign o 1).loseCaptures o)
  let s := if s.flag o F.THM_STAT_VALID then (s.wr o F.THM_STAT_VALID 0).raise o 0x0E0B (le 1 0) else s
  let s := s.wr o F.TWN_STAT_ROLE 2
  let s := s.modOff o fun d =>
    { d with
      rounds := [], roundAcc := [], parcels := [], seqs := Quad.all {}, live := Quad.all {}, reds := []
      spans := [], modeFrom := [], pendMode := none, calRun := none, toHeld := none, quietAt := none, loadedAt := none, pageWait := none
      mrg := { jobs := d.mrg.jobs.filter fun j => match j with
        | .items _ _ _ _ => true
        | _ => false }
      cmp := { d.cmp with queue := [], engines := [], coded := [], plans := [] }
      sto := { d.sto with staged := [], writing := [], pend := [], io := [], dropFrom := none, liveArmed := false, replayHeld := false,
                          cur := none, headed := false, ahead := [] } }
  let s := (s.returnBuffers o).refreshFill o
  let s := [F.STO_STAT_DROPPING, F.STO_STAT_LIVE_HELD, F.STO_STAT_STALLED, F.SORT_CTX_CLR_BUSY, F.SORT_CD_STAT_BUSY, F.EMT_CAL_STAT_STATE, F.GLB_CALSEQ_RUN, F.GLB_MODE_PEND_MODE,
    F.GLB_MODE_PEND_SCHED, F.ERR_PAGE_CMD_BUSY, F.TWN_STAT_HANDOVER].foldl (fun s f => s.wr o f 0) s
  let s := (s.modOff o fun d => { d with orders := [], running := [], units := [], unacked := [] }).refreshOrders o
  let s := (s.refreshUnacked o).modTwin o fun w =>
    { w with mayWrite := false, release := none, accept := none, missing := 0, pointer := none, peerEligSince := none, reachSince := none }
  (s.refreshTwin o).raise o 0x0A02 (le 2 (s.rd o F.TWN_TERM_TERM) ++ le 1 cause)

/-- Whether R523 lets an office hold ownership. -/
def State.mayOwn (s : State) (o : OfficeId) : Bool :=
  let v := s.votesFor o (officeBit o)
  s.beats o && !s.inFallback o && s.healthy o && (decide (3 ≤ v) || (decide (v = 2) && s.isSenior o))

/-- Whether the office hands over a round that has begun: it owns the rounds before it whatever the tiles vote (R545). -/
def State.handsOver (s : State) (o : OfficeId) : Bool :=
  (s.off o).twin.release.any fun r => r.accepted && tickLe (r.round * 2 ^ s.svc.roundShift) (s.off o).count.toNat

/-- Shows votes and tiles in `TWN_STAT` and `TWN_TILES` (R551, R553). -/
def State.refreshVotes (s : State) (o : OfficeId) : State :=
  let byte := fun (t : Fin 4) => match s.heardVote o t with
    | some v => v + 4
    | none => 2
  let s := (s.wr o F.TWN_STAT_VOTES_SELF (s.votesFor o (officeBit o))).wr o F.TWN_STAT_VOTES_PEER (s.votesFor o (officeBit (otherOffice o)))
  let s := ((s.wr o F.TWN_STAT_HEARD (s.heardMask o)).wr o F.TWN_TILES_TILE0 (byte 0)).wr o F.TWN_TILES_TILE1 (byte 1)
  ((s.wr o F.TWN_TILES_TILE2 (byte 2)).wr o F.TWN_TILES_TILE3 (byte 3)).wr o F.TWN_STAT_LINK_UP (b2n (s.linkFresh o))

/-- Notes since when the office finds no owner (R543). -/
def State.noteOwner (s : State) (o : OfficeId) : State :=
  let known := s.owns o || s.peerOwns o
  s.modTwin o fun w =>
    { w with noOwnerSince := if known then none else some (w.noOwnerSince.getD s.now), noOwnerNoted := w.noOwnerNoted && !known }

/-- OWNERSHIP_EVALUATION (R523, R525, R540). -/
def execOwnershipEvaluation (o : OfficeId) (s : State) : Out :=
  .next (
    if s.beats o = false then s
    else
      let s := (s.latchCauses.refreshVotes o).refreshTwin o
      let s :=
        if s.owns o then
          if s.mayOwn o then s
          else if s.healthy o = false then s.ceaseOwnership o 2
          else if s.handsOver o then s
          else s.ceaseOwnership o 0
        else if s.mayOwn o then s.gainOwnership o
        else s
      let s := if s.linkFresh o = false ∧ s.peerDeadAtTiles o then s.allowWrites o else s
      (s.noteOwner o).mirrorChanges)

/-- START_GRACE_EXPIRY (R529). -/
def execStartGraceExpiry (o : OfficeId) (s : State) : Out :=
  .next (
    let w := (s.off o).twin
    let due := w.appliedAt.any fun a => decide (a + s.rd o F.TWN_CFG_START_GRACE * ticksOfUs 100000 ≤ s.now)
    if s.beats o = false ∨ s.isSenior o ∨ due = false ∨ w.seniorElig then s
    else (s.modTwin o fun w => { w with graceOver := true }).refreshTwin o)

end Sys2Proof.Machine
end

