-- ==== Sys2Proof/Machine/Handover.lean ====
section
/-! DEFINITION. The inter-office link's receiver, resynchronisation, handovers and self-tests (13 R524, R526, R531 to R537,
R544 to R547, R550). -/

namespace Sys2Proof.Machine

/-! ### Frames of the link (R531) -/

/-- Fields of a link frame. -/
def linkType (f : LinkFrame) : Nat := bitsOf f.hdr.toNat 28 4
def linkMore (f : LinkFrame) : Bool := f.hdr.getLsbD 27
def linkLen (f : LinkFrame) : Nat := bitsOf f.hdr.toNat 12 12

/-- Kinds of mirror items (R532). -/
def mirrorKinds : List Nat := [1, 2, 3, 4, 5]

/-- Whether a mirror frame's first word holds no reserved value (R532). -/
def mirrorHeadOk : List W64 → Bool
  | w :: _ => mirrorKinds.contains (bitsOf w.toNat 32 8) && decide (bitsOf w.toNat 40 24 = 0)
  | [] => false

/-- Whether a link frame is taken: CRC, length and reserved values (R531). -/
def linkGood (f : LinkFrame) : Bool :=
  !f.charErr && decide (f.crc = crc32c (le 4 f.hdr.toNat ++ leWords 8 (f.words.map (·.toNat)))) && decide (f.words.length = linkLen f) &&
    decide (bitsOf f.hdr.toNat 24 3 = 0) && decide (bitsOf f.hdr.toNat 0 12 = 0) && decide (linkType f ≤ 3) &&
    (if linkType f = 1 then decide (2 ≤ linkLen f) && mirrorHeadOk f.words else decide (linkLen f = 1) && !linkMore f)

/-- Takes a link frame of a type with `act`. A frame in fault is discarded and counted; it spoils the mirror item under way
(R531, R533). -/
def State.takeLink (s : State) (o : OfficeId) (type : Nat) (f : LinkFrame) (act : W64 → State) : State :=
  if (s.off o).inReset then s
  else if linkGood f = false then
    (s.modOff o fun d => { d with linkCrc := if d.linkCrc = 0xFFFFFFFF then d.linkCrc else d.linkCrc + 1 }).modTwin o fun w =>
      { w with rxBroken := w.rxBroken || decide (linkType f = 1) || decide (w.rxWords ≠ []) }
  else if linkType f ≠ type then s
  else act (f.words.headD 0)

/-! ### Requests for resynchronisation (R532, R536) -/

/-- Sends a resynchronisation request: everything is missing until the answer has come. -/
def State.requestResync (s : State) (o : OfficeId) : State :=
  let seq := (s.nextSeq o + 2 ^ 32 - 1) % 2 ^ 32
  let s := s.modTwin o fun w => { w with rxNext := 0, rxWords := [], rxBroken := false, missing := 15 }
  s.emit (.link o (linkHeader 3 false 1) [BitVec.ofNat 64 (seq + (s.off o).nvm.volume % 2 ^ 16 * 2 ^ 32)])

/-! ### Handovers (R544, R545) -/

/-- Starts a handover of the owner at its tick P: to the first round that starts at least 32,768 ticks later (R545). -/
def State.startHandover (s : State) (o : OfficeId) : State :=
  let p := (s.off o).count.toNat
  let n := (p + 32768 + 2 ^ s.svc.roundShift - 1) / 2 ^ s.svc.roundShift
  let s := s.modTwin o fun w => { w with release := some { round := n, started := p } }
  (s.wr o F.TWN_STAT_HANDOVER 1).noteFlags o

/-- Whether the other office is relief and eligible, as the owner knows it (R544). -/
def State.peerCanTake (s : State) (o : OfficeId) : Bool := s.linkFresh o && s.peerBit o 2 && !s.peerBit o 4

/-- A handover that is asked for: started, or refused with notice 0x0A05 (R544). -/
def State.askHandover (s : State) (o : OfficeId) : State :=
  if (s.off o).twin.release.isSome then s.raise o 0x0A05 [2]
  else if s.peerCanTake o then s.startHandover o
  else s.raise o 0x0A05 [0]

/-- The round whose low 32 bits a heartbeat names, nearest to the present one. -/
def State.roundNamed (s : State) (o : OfficeId) (h : Nat) : Nat :=
  let cur := (s.roundOf (s.off o).count).toNat
  (cur + 2 ^ 48 + (BitVec.ofNat 32 h - BitVec.ofNat 32 cur).toInt).toNat % 2 ^ 48

/-- The owner no longer merges from a round on that it hands over (R545). -/
def State.stopMergeAt (s : State) (o : OfficeId) (n : Nat) : State :=
  s.modOff o fun d => d.endSpans n

/-- The handover flags of a heartbeat: the owner notes `ACCEPT`, the relief answers `RELEASE` (R545). -/
def State.takeHandoverFlags (s : State) (o : OfficeId) (w : W64) : State :=
  let h := bitsOf w.toNat 32 32
  if s.owns o then
    let s := s.modTwin o fun x =>
      { x with release := x.release.map fun r => if r.accepted && s.handsOver o then r
                 else { r with accepted := w.getLsbD 6 && decide (r.round % 2 ^ 32 = h) }
               accept := if w.getLsbD 5 then x.accept else none }
    if (s.off o).twin.release.isNone ∧ (s.off o).twin.accept.isNone then s.wr o F.TWN_STAT_HANDOVER 0 else s
  else if w.getLsbD 5 = false then (s.modTwin o fun x => { x with accept := none }).wr o F.TWN_STAT_HANDOVER 0
  else if s.role o = .relief ∧ s.flag o F.TWN_STAT_ELIGIBLE then
    (s.modTwin o fun x => { x with accept := some (s.roundNamed o h) }).wr o F.TWN_STAT_HANDOVER 1
  else s

/-! ### Link heartbeats (R524, R526, R535, R536, R540) -/

/-- Whether two owners are the two ends of one handover (R524). -/
def State.inHandover (s : State) (o : OfficeId) (w : W64) : Bool :=
  let h := bitsOf w.toNat 32 32
  let x := (s.off o).twin
  (x.release.any (fun r => decide (r.round % 2 ^ 32 = h)) && w.getLsbD 6) || (x.accept.any (fun n => decide (n % 2 ^ 32 = h)) && w.getLsbD 5)

/-- Two offices claim ownership (R524). -/
def State.dualClaim (s : State) (o : OfficeId) (w : W64) : State :=
  let own := BitVec.ofNat 16 (s.rd o F.TWN_TERM_TERM)
  let peer : W16 := w.extractLsb' 16 16
  if s.owns o = false ∨ w.getLsbD 4 = false ∨ s.inHandover o w then s
  else if later peer own ∨ (own = peer ∧ s.isSenior o = false) then s.ceaseOwnership o 1
  else if (s.off o).twin.dualTerm = some peer.toNat then s
  else
    ((s.modTwin o fun x => { x with dualTerm := some peer.toNat }).countUp o F.TWN_CNT_GAIN_COUNT).raise o 0x0A0D
      (le 2 own.toNat ++ le 2 peer.toNat)

/-- What an owner starts by itself on a heartbeat: a request of the relief, or a second of better reach (R544). -/
def State.heartbeatHandover (s : State) (o : OfficeId) (w : W64) (asked : Bool) : State :=
  if s.owns o = false then s
  else
    let more := decide (popcount 4 (s.reachMask o) < popcount 4 (bitsOf w.toNat 8 4))
    let s := s.modTwin o fun x =>
      { x with reachSince := if more then some (x.reachSince.getD s.now) else none
               peerEligSince := if w.getLsbD 1 && w.getLsbD 2 then some (x.peerEligSince.getD s.now) else none }
    if asked then s.askHandover o
    else if (s.off o).twin.reachSince.any (fun a => decide (a + ticksOfUs 1000000 ≤ s.now)) ∧ s.peerCanTake o ∧
        (s.off o).twin.release.isNone then s.startHandover o
    else s

/-- LINK_HEARTBEAT_RX (R517, R524, R526, R529, R536, R540, R544, R545). -/
def execLinkHeartbeatRx (o : OfficeId) (f : LinkFrame) (s : State) : Out :=
  .next (s.takeLink o 0 f fun w =>
    let old := (s.off o).twin
    let asked := w.getLsbD 7 && !old.hbWord.getLsbD 7
    let s := s.modTwin o fun x =>
      { x with hbWord := w, hbAt := some s.now
               seniorElig := x.seniorElig || (!s.isSenior o && w.getLsbD 2)
               seniorOwned := x.seniorOwned || (!s.isSenior o && w.getLsbD 4) }
    let s := ((s.wr o F.TWN_STAT_LINK_UP 1).wr o F.TWN_TERM_PEER_TERM (bitsOf w.toNat 16 16)).setHealth o F.TWN_HEALTH_LINK false
    if s.beats o = false then s
    else
      let s := (s.dualClaim o w).takeHandoverFlags o w
      let s := s.heartbeatHandover o w asked
      let s := if w.getLsbD 4 then s else s.allowWrites o
      let wants := !s.owns o && w.getLsbD 4 && !s.inFallback o && decide ((s.off o).twin.missing = 0) &&
        (s.flag o F.TWN_STAT_STALE || decide (s.role o = .neither))
      let s := if wants then s.requestResync o else s
      (s.refreshTwin o).noteOwner o)

/-- LINK_HEARTBEAT_TIMEOUT (R526, R535): no link heartbeat has arrived for 30 µs. -/
def execLinkHeartbeatTimeout (o : OfficeId) (s : State) : Out :=
  .next (
    if s.beats o = false ∨ s.linkFresh o ∨ s.flag o F.TWN_HEALTH_LINK then s
    else
      let relief := decide (s.role o = .relief)
      let alive := s.peerLiveAtTiles o
      let s := (s.setHealth o F.TWN_HEALTH_LINK true).wr o F.TWN_STAT_LINK_UP 0
      let s := s.modTwin o fun x =>
        { x with peerEligSince := none, reachSince := none, missing := if s.owns o then x.missing else 0, rxWords := [] }
      let s := if relief && alive then
          ((s.wr o F.TWN_STAT_STALE 1).countUp o F.TWN_CNT_LINKLOSS_COUNT).raise o 0x0A06
            (le 1 (s.rd o F.TWN_STAT_ROLE) ++ le 1 (b2n alive))
        else s
      s.refreshTwin o)

/-! ### The mirror's receiver (R533, R534, R536, R537) -/

/-- Retires a page of an office as a RETIRE entry says, in the gap between two merges where that matters (R682, R497). -/
def State.applyRetirement (s : State) (o : OfficeId) (array page spare : Nat) : State :=
  if array = 6 then ((s.modSto o fun t => { t with leaving := t.leaving ++ [page] }).refreshFill o).refreshSpares o
  else s.modOff o fun d => { d with mrg := { d.mrg with jobs := d.mrg.jobs ++ [.retire array page spare] } }

/-- Applies what a book entry of the owner says, with its body or items (R491, R493, R682). -/
def State.applyMirrored (s : State) (o : OfficeId) (e part : List Byte) : State :=
  let seq := fieldAt e 4 4
  let kind := entryKind e
  let body := fieldAt e 40 4 ≠ 0xFFFFFFFF
  if kind = bkAmendment then
    let b := if body then part.drop 7384 else part
    s.applyAmendment o seq (fieldAt e 32 8) false ((parseItems (b.length / 24 + 1) b).getD [])
  else if kind = bkDelta then s.applyAmendment o seq 0 true ((parseItems (part.length / 24 + 1) part).getD [])
  else if kind = bkRetire ∧ fieldAt e 49 1 = officeBit o then s.applyRetirement o (fieldAt e 48 1) (fieldAt e 52 4) (fieldAt e 56 2)
  else if kind = bkFuse then s.refreshFuses o
  else s

/-- An entry as the relief stores it: `MIRRORED` set, its CRC made again (R494, R533). -/
def mirroredEntry (e : List Byte) : List Byte :=
  let b := e.take 10 ++ [(e.getD 10 0) ||| 2] ++ (e.drop 11).take 241
  b ++ le 4 (crc32c b).toNat

/-- A book that conflicts with the owner's (R526, R537). -/
def State.bookConflict (s : State) (o : OfficeId) (seq : Nat) : State :=
  if s.flag o F.TWN_HEALTH_BOOK then s else (s.setHealth o F.TWN_HEALTH_BOOK true).raise o 0x0A0B (le 1 1 ++ le 4 seq)

/-- Takes a book entry item (R533): one held already is compared, the next one recorded and applied, a later one means that
entries are missing. -/
def State.takeEntry (s : State) (o : OfficeId) (b : List Byte) : State :=
  let e := b.take 256
  let seq := fieldAt e 4 4
  let part := if fieldAt e 40 4 = 0xFFFFFFFF then b.drop 256 else (b.drop 256).take (fieldAt e 44 4)
  match (s.book o).find? fun x => fieldAt x 4 4 = seq with
  | some x => if (x.drop 176).take 64 = (e.drop 176).take 64 then s else s.bookConflict o seq
  | none =>
    if seq ≠ s.nextSeq o ∨ s.bookRoom o 1 0 = false then s.requestResync o
    else
      let m := mirroredEntry e
      let s := s.storeEntry o m (if fieldAt e 40 4 = 0xFFFFFFFF then [] else part)
      (s.keepItems o m part).applyMirrored o m part

/-- Compares image and book with the other office's at the end of a resynchronisation (R537; log entry 57). -/
def State.compareOffices (s : State) (o : OfficeId) : State :=
  let p := otherOffice o
  let differ := decide (s.imageMeas o ≠ s.imageMeas p) || decide (s.measBytes o F.SEC_MEAS_PERSONAL_W ≠ s.measBytes p F.SEC_MEAS_PERSONAL_W)
  let s := if differ ∧ s.flag o F.TWN_HEALTH_IMAGE = false then
      (s.setHealth o F.TWN_HEALTH_IMAGE true).raise o 0x0A0B (le 1 0 ++ le 4 (s.rd o F.SEC_BOOK_SEQ_SEQ))
    else s.setHealth o F.TWN_HEALTH_IMAGE differ
  let ahead := later (BitVec.ofNat 32 (s.nextSeq o)) (BitVec.ofNat 32 (s.nextSeq p))
  let chain := fun (x : List Byte) => (x.drop 176).take 64
  let clash := (s.book o).find? fun x => (s.book p).any fun y => decide (fieldAt x 4 4 = fieldAt y 4 4) && decide (chain x ≠ chain y)
  match clash with
  | some x => s.bookConflict o (fieldAt x 4 4)
  | none =>
    if ahead then s.bookConflict o (s.rd o F.SEC_BOOK_SEQ_SEQ)
    else if s.nextSeq o = s.nextSeq p then s.setHealth o F.TWN_HEALTH_BOOK false
    else s

/-- The end of a resynchronisation (R536, R537): the office is a relief that is not stale, in the mode of the owner. -/
def State.resyncDone (s : State) (o : OfficeId) : State :=
  let s := (s.compareOffices o).wr o F.TWN_STAT_STALE 0
  let s := if s.role o = .neither then s.wr o F.TWN_STAT_ROLE 1 else s
  let s := match (s.off o).twin.run.head?.bind Mode.ofCode with
    | some m => s.setMode o m
    | none => s
  (s.raise o 0x0A07 (le 4 (s.rd o F.SEC_BOOK_SEQ_SEQ))).refreshTwin o

/-- The delivery positions of an item. -/
def positionsOf : List Nat → Sparse Nat → Sparse Nat
  | ph :: round :: rprod :: rest, m => positionsOf rest (Sparse.set 0 m ph (round + rprod * 2 ^ 49))
  | _, m => m

/-- Applies a complete item (R533). -/
def State.takeItem (s : State) (o : OfficeId) (kind : Nat) (ws : List W64) : State :=
  let ns := ws.map (·.toNat)
  let got := fun (s : State) (bit : Nat) =>
    s.modTwin o fun x => { x with missing := if bitsOf x.missing bit 1 = 1 then x.missing - 2 ^ bit else x.missing }
  let was := (s.off o).twin.missing
  let s : State :=
    match kind, ns with
    | 1, _ => s.takeEntry o (leWords 8 ns)
    | 2, sack :: off :: gen :: seq :: round :: tail :: lseq :: _ =>
      let p : PointerItem := { sack := sack, off := off, gen := gen, seq := seq, round := round, logTail := tail, lseq := lseq }
      got (s.modTwin o fun x => { x with pointer := if sack = 0xFFFFFFFF then none else some p }) 3
    | 3, _ => got (s.modTwin o fun x => { x with positions := positionsOf ns x.positions }) 2
    | 4, _ => got s 0
    | 5, _ =>
      let s := got (s.modTwin o fun x => { x with run := ns }) 1
      match Mode.ofCode (ns.headD 0) with
      | some m => if s.role o = Role.relief then s.setMode o m else s
      | none => s
    | _, _ => s
  if was ≠ 0 ∧ (s.off o).twin.missing = 0 then s.resyncDone o else s.refreshTwin o

/-- MIRROR_ITEM_RX (R532, R533): items in the order of `MSEQ`; a gap asks for a resynchronisation. -/
def execMirrorItemRx (o : OfficeId) (f : LinkFrame) (s : State) : Out :=
  .next (s.takeLink o 1 f fun w =>
    let m := bitsOf w.toNat 0 32
    let x := (s.off o).twin
    let ack := fun (s : State) =>
      s.emit (.link o (linkHeader 2 false 1) [BitVec.ofNat 64 (((s.off o).twin.rxNext + 2 ^ 32 - 1) % 2 ^ 32)])
    if s.owns o ∨ s.beats o = false then s
    else if later (BitVec.ofNat 32 m) (BitVec.ofNat 32 x.rxNext) then
      if x.missing = 15 ∧ x.rxNext = 0 then s else s.requestResync o
    else if m ≠ x.rxNext then (if linkMore f then s else ack s)
    else if linkMore f then s.modTwin o fun x => { x with rxWords := x.rxWords ++ f.words.drop 1 }
    else if x.rxBroken then s.modTwin o fun x => { x with rxWords := [], rxBroken := false }
    else
      let s := s.modTwin o fun x => { x with rxWords := [], rxNext := (m + 1) % 2 ^ 32 }
      let s := s.takeItem o (bitsOf w.toNat 32 8) (x.rxWords ++ f.words.drop 1)
      if (s.off o).twin.rxNext = 0 then s else ack s)

/-! ### The owner's side (R534, R536) -/

/-- MIRROR_ACK_RX (R532, R534): items up to the one acknowledged are no longer kept. -/
def execMirrorAckRx (o : OfficeId) (f : LinkFrame) (s : State) : Out :=
  .next (s.takeLink o 2 f fun w =>
    let m : W32 := w.extractLsb' 0 32
    if s.owns o = false then s
    else (s.modOff o fun d => { d with unacked := d.unacked.filter fun i => later (BitVec.ofNat 32 i.mseq) m }).refreshUnacked o)

/-- MIRROR_RETRANSMIT (R534): from the oldest item unacknowledged for 100 µs, items are sent again. -/
def execMirrorRetransmit (o : OfficeId) (s : State) : Out :=
  .next (
    match (s.off o).unacked with
    | i :: _ =>
      if (s.off o).inReset ∨ s.now < i.sentAt + 150000 then s
      else
        let s := s.modOff o fun d => { d with unacked := d.unacked.map fun i => { i with sentAt := s.now } }
        (s.off o).unacked.foldl (fun s i => s.sendItem o i) s
    | [] => s)

/-- The live delivery positions of enabled pigeonholes as items carry them: number, the round plus one, `PH_RPROD` (R530). -/
def State.livePositions (s : State) (o : OfficeId) : Sparse Nat :=
  (s.off o).phs.filterMap fun e =>
    if s.phState o e.1 = phDisabled then none else some (e.1, e.2.liveRound + s.rd o F.PH_RPROD_INDEX e.1 * 2 ^ 49)

/-- The words of a delivery positions item. -/
def positionWords (m : Sparse Nat) : List W64 :=
  m.flatMap fun e => [BitVec.ofNat 64 e.1, BitVec.ofNat 64 (e.2 % 2 ^ 49), BitVec.ofNat 64 (e.2 / 2 ^ 49)]

/-- At a round boundary the positions that changed are mirrored (R530). -/
def State.mirrorPositions (s : State) (o : OfficeId) : State :=
  let p := s.livePositions o
  let new := p.filter fun e => !(s.off o).twin.sentPositions.contains e
  if s.owns o = false ∨ new = [] then s
  else (s.modTwin o fun x => { x with sentPositions := p }).mirror o 3 (positionWords new)

/-- The newest pointer of the owner (R310); sack 0xFFFF_FFFF tells that no round is stored. -/
def State.pointerWords (s : State) (o : OfficeId) : List W64 :=
  let t := (s.off o).sto
  match t.newest, t.lastOpened with
  | some r, some _ =>
    let k := s.rd o F.STO_WP_HI_SACK
    let e := t.sack k
    [k, s.rd o F.STO_WP_LO_OFFSET, e.gen, e.seq, r, t.logTail, t.lseq].map (BitVec.ofNat 64)
  | _, _ => [0xFFFFFFFF, 0, 0, 0, 0, t.logTail, t.lseq].map (BitVec.ofNat 64)

/-- RESYNC_REQUEST_RX (R536): entries after the relief's `SEQ`, then time items, run state, positions, and the pointer. -/
def execResyncRequestRx (o : OfficeId) (f : LinkFrame) (s : State) : Out :=
  .next (s.takeLink o 3 f fun w =>
    let seq : W32 := w.extractLsb' 0 32
    if s.owns o = false then s
    else
      let s := s.modOff o fun d => { d with mseq := 0, unacked := [] }
      let s := (s.book o).foldl (fun s e =>
        if later (BitVec.ofNat 32 (fieldAt e 4 4)) seq then s.sendMirror o 1 (padWords (e ++ (s.off o).mirroredPart e)) else s) s
      let s := s.modTwin o fun x => { x with sentTime := s.timeItems, sentRun := s.runState o, sentPositions := s.livePositions o }
      let s := (s.sendMirror o 4 s.timeItems).sendMirror o 5 (s.runState o)
      let p := positionWords (s.livePositions o)
      (s.sendMirror o 3 (if p = [] then [0] else p)).sendMirror o 2 (s.pointerWords o))

/-! ### Commands of the host and timers (R544 to R546, R550) -/

/-- A write of `TWN_CTL` (R550): `HANDOVER`, `CLEAR_HEALTH` and `RESYNC` act, each where its bit is 1. -/
def State.writeTwnCtl (s : State) (o : OfficeId) (v : Nat) : State :=
  let r := s.hostWrite o F.TWN_CTL_HANDOVER.off v
  let s := r.1
  if r.2 = false then s
  else
    let s :=
      if bitsOf v 31 1 = 0 then s
      else if s.owns o then s.askHandover o
      else if s.role o = .relief then (s.modTwin o fun x => { x with requestUntil := some (s.now + ticksOfUs 1000) }).noteFlags o
      else s
    let s :=
      if bitsOf v 30 1 = 1 ∧ bitsOf (s.healthWord o) 1 3 ≠ 0 then s.modTwin o fun x => { x with clearing := true, passed := 0 } else s
    if bitsOf v 29 1 = 1 ∧ s.role o = .relief then s.requestResync o else s

/-- HANDOVER (R544): a write of `TWN_CTL`. -/
def execHandover (o : OfficeId) (v : W32) (s : State) : Out := .next (s.writeTwnCtl o v.toNat)

/-- CLEAR_HEALTH (R526): a write of `TWN_CTL`. -/
def execClearHealth (o : OfficeId) (v : W32) (s : State) : Out := .next (s.writeTwnCtl o v.toNat)

/-- RESYNC (R536): a write of `TWN_CTL`. -/
def execResync (o : OfficeId) (v : W32) (s : State) : Out := .next (s.writeTwnCtl o v.toNat)

/-- HANDOVER_REQUEST_END (R544): `REQUEST` ends 1 ms after it was set. -/
def execHandoverRequestEnd (o : OfficeId) (s : State) : Out :=
  .next (
    if (s.off o).twin.requestUntil.any fun a => decide (a ≤ s.now) then
      (s.modTwin o fun x => { x with requestUntil := none }).noteFlags o
    else s)

/-- FAILBACK_TIMER (R544): a junior owner hands over to a senior relief that has been healthy and eligible for `FAILBACK_S`. -/
def execFailbackTimer (o : OfficeId) (s : State) : Out :=
  .next (
    let due := (s.off o).twin.peerEligSince.any fun a => decide (a + s.rd o F.TWN_CFG_FAILBACK_S * ticksOfUs 1000000 ≤ s.now)
    if s.owns o ∧ s.flag o F.TWN_CFG_AUTO_FAILBACK ∧ s.isSenior o = false ∧ due ∧ s.peerCanTake o ∧ (s.off o).twin.release.isNone then
      s.startHandover o
    else s)

/-- HANDOVER_ACCEPT_TIMEOUT (R545 step 3): without `ACCEPT` 8,192 ticks before round n, the handover is cancelled. -/
def execHandoverAcceptTimeout (o : OfficeId) (s : State) : Out :=
  .next (
    match (s.off o).twin.release with
    | some r =>
      if r.accepted ∨ (s.off o).count.toNat + 8192 < r.round * 2 ^ s.svc.roundShift then s
      else
        let s := (s.modTwin o fun x => { x with release := none }).wr o F.TWN_STAT_HANDOVER 0
        (s.noteFlags o).raise o 0x0A05 [1]
    | none => s)

/-- The owner stops merging once it has handed over (R545 step 4). -/
def State.settleHandover (s : State) (o : OfficeId) : State :=
  match (s.off o).twin.release with
  | some r => if s.handsOver o then s.stopMergeAt o r.round else s
  | none => s

/-- Rounds before n that a releasing office has not stored (R546). -/
def State.unstored (s : State) (o : OfficeId) (n : Nat) : Nat :=
  if s.storeOn o = false ∨ (s.mode o).isData = false then 0 else n - ((s.off o).sto.newest.map (· + 1)).getD n

/-- The releasing office ceases at the end of a handover (R545 step 6, R546). -/
def State.endHandover (s : State) (o : OfficeId) (n lost : Nat) : State :=
  ((s.ceaseOwnership o 3).countUp o F.TWN_CNT_HANDOVER_COUNT).raise o 0x0A04 (le 4 n ++ le 4 lost)

/-- HANDOVER_RELEASE_COMPLETE (R545 step 6): the last round is stored and its pointer item acknowledged. -/
def execHandoverReleaseComplete (o : OfficeId) (s : State) : Out :=
  .next (
    match (s.off o).twin.release with
    | some r =>
      if s.handsOver o = false then s
      else
        let s := s.settleHandover o
        let d := s.off o
        if ((s.mode o).isData ∧ d.drained = false) ∨ d.unacked.any (fun i => decide (i.kind = 2)) then s
        else
          let s := (s.closeCurrent o).refreshStore o
          let s := (s.off o).phs.foldl (fun s e => if 2 ≤ e.1 then s.closeBag o e.1 else s) s
          s.endHandover o r.round 0
    | none => s)

/-- HANDOVER_TIMEOUT (R546): `HANDOVER_TMO` after the start of round n the releasing office ceases in any case. -/
def execHandoverTimeout (o : OfficeId) (s : State) : Out :=
  .next (
    match (s.off o).twin.release with
    | some r =>
      let due := r.round * 2 ^ s.svc.roundShift + s.rd o F.TWN_CFG_HANDOVER_TMO * ticksOfUs 10000
      if s.handsOver o = false ∨ (s.off o).count.toNat < due then s
      else s.endHandover o r.round (s.unstored o r.round)
    | none => s)

/-! ### Self-tests (R526, R547) -/

/-- A self-test has failed: the engine of notice 0x0A0A is free except for test 3. -/
def State.selfTestFails (s : State) (o : OfficeId) (id : Nat) (engine : Option Nat) : State :=
  let s := ((s.setHealth o F.TWN_HEALTH_SELFTEST true).countUp o F.TWN_CNT_STFAIL_COUNT).wr o F.TWN_SELFTEST_LAST_FAIL id
  let s := s.modTwin o fun x => { x with passed := 0 }
  let p := match engine with
    | some e => (e, s)
    | none => s.draw 8
  p.2.raise o 0x0A0A (le 1 id ++ le 1 p.1)

/-- A complete passing cycle: counted, and faults that wait for one are cleared (R526, R554). -/
def State.selfTestCycle (s : State) (o : OfficeId) : State :=
  let s := s.wr o F.TWN_SELFTEST_CYCLES (min 0xFFFF (s.rd o F.TWN_SELFTEST_CYCLES + 1))
  let s := s.modTwin o fun x => { x with passed := 0 }
  if (s.off o).twin.clearing then
    let s := s.modTwin o fun x => { x with clearing := false }
    [F.TWN_HEALTH_ARITH, F.TWN_HEALTH_SELFTEST, F.TWN_HEALTH_ARRAY].foldl (fun s f => s.setHealth o f false) s
  else s

/-- The tests of a round on an office that does not own: bits 0 to 2 of `fail` tell which of tests 1 to 3 fail; test 3 takes an
engine every 64 rounds; 1,024 rounds make a cycle (R547). -/
def State.roundSelfTests (s : State) (o : OfficeId) (fail : Nat) : State :=
  if s.beats o = false ∨ s.owns o then
    (s.wr o F.TWN_SELFTEST_RUNNING 0).modTwin o fun x => { x with passed := 0 }
  else
    let r := (s.off o).count.toNat / 2 ^ s.svc.roundShift
    let s := s.wr o F.TWN_SELFTEST_RUNNING 1
    let run3 := decide (r % 64 = 0)
    if bitsOf fail 0 1 = 1 then s.selfTestFails o 1 none
    else if bitsOf fail 1 1 = 1 then s.selfTestFails o 2 none
    else if run3 ∧ bitsOf fail 2 1 = 1 then s.selfTestFails o 3 (some (r / 64 % 16))
    else
      let s := s.modTwin o fun x => { x with passed := x.passed + 1 }
      if 1024 ≤ (s.off o).twin.passed then s.selfTestCycle o else s

/-- SIGNATURE_SELF_TEST (R547): test 4 of an office that does not own, every 3,600 s. -/
def execSignatureSelfTest (o : OfficeId) (pass : Bool) (s : State) : Out :=
  .next (if s.beats o = false ∨ s.owns o ∨ pass then s else (s.selfTestFails o 4 none).refreshTwin o)

/-- TWN_CNT_CLR (R555). -/
def execTwnCntClr (o : OfficeId) (v : W32) (s : State) : Out :=
  .next (s.clearWrite o F.TWN_CNT_CLR_GAIN.off v.toNat 0
    [F.TWN_CNT_GAIN_COUNT, F.TWN_CNT_HANDOVER_COUNT, F.TWN_CNT_ROUNDSLOST_COUNT, F.TWN_CNT_LINKLOSS_COUNT, F.TWN_CNT_STFAIL_COUNT])

end Sys2Proof.Machine
end

