-- ==== Sys2Proof/Machine/Bias.lean ====
section
/-! DEFINITION. The sensor bias loops, their electrometers, and the guards (14). -/

namespace Sys2Proof.Machine

/-! ### Values (R559, R566) -/

/-- A bias loop by its number. -/
def State.loop (s : State) (k : Nat) : BiasLoop := if k = 0 then s.svc.loops.a else s.svc.loops.b

/-- Millivolts in units of 2^-20 V, and back. -/
def mvTo20 (mv : Int) : Int := roundDiv (mv * 2 ^ 20) 1000
def mvOf20 (v : Int) : Int := roundDiv (v * 1000) (2 ^ 20)

/-- The bias voltage that a monitor code tells, in 2^-20 V (R559). -/
def State.biasOfMon (s : State) (k code : Nat) : Int := roundDiv (code * s.srd F.LOOP_SCALE_MON_GAIN k * 32) 125

/-- The DAC code of a bias voltage, before it is clamped (R559). -/
def State.rawCode (s : State) (k : Nat) (u : Int) : Int := roundDiv (u * 125) (32 * s.srd F.LOOP_SCALE_REG_GAIN k)

/-- The DAC code of a bias voltage (R559). -/
def State.dacCode (s : State) (k : Nat) (u : Int) : Nat :=
  (clampI (s.srd F.LOOP_OUTLIM_OUT_MIN k) (s.srd F.LOOP_OUTLIM_OUT_MAX k) (s.rawCode k u)).toNat

/-- The bias voltage that a DAC code gives. -/
def State.biasOfDac (s : State) (k code : Nat) : Int := roundDiv (code * 32 * s.srd F.LOOP_SCALE_REG_GAIN k) 125

/-- The ramp output in 2^-20 V (R566). -/
def BiasLoop.r20 (l : BiasLoop) : Int := roundDiv l.r (2 ^ 16)

/-- The state of a loop (R582). -/
def State.loopState (s : State) (k : Nat) : Nat := s.srd F.LOOP_STAT_STATE k

/-- Moves a loop to a state, with notice 0x0B01 (R586). -/
def State.setLoopState (s : State) (k new : Nat) : State :=
  let old := s.loopState k
  if old = new then s else (s.swr F.LOOP_STAT_STATE new k).raiseSvc 0x0B01 (le 1 k ++ le 1 old ++ le 1 new)

/-! ### Stops and moves between states (R562 to R567, R570) -/

/-- A stop ends, or a request ends it. -/
def State.endStop (s : State) (k : Nat) : State :=
  (s.swr F.LOOP_STAT_STOPPING 0 k).modLoop k fun l => { l with zeroSince := none, trip := false }

/-- Starts a stop (R564): the output of a held loop ramps from the value it holds, and HELD becomes MANUAL for the purpose. -/
def State.startStop (s : State) (k : Nat) (trip : Bool) : State :=
  if s.loopState k = loopOff then s
  else
    let s := if s.loopState k = loopHeld then (s.modLoop k fun l => { l with r := l.u * 2 ^ 16 }).setLoopState k loopManual else s
    (s.swr F.LOOP_STAT_STOPPING 1 k).modLoop k fun l => { l with trip := l.trip || trip }

/-- The loop enters OFF: regulator disabled, code 0 (R562, R564). -/
def State.loopOffNow (s : State) (k : Nat) : State :=
  let s := (s.endStop k).setLoopState k loopOff
  (s.swr F.LOOP_OUT_DAC_CODE 0 k).modLoop k fun l =>
    { l with r := 0, u := 0, uI := 0, sects := [], stale := 0, frozen := 0, lastCode := none, noted := 0 }

/-- The loop enters HELD with a cause: it holds the code in force; a stop under way goes on in MANUAL (R564, R575). -/
def State.holdLoop (s : State) (k cause : Nat) : State :=
  let stopping := s.flag .A F.LOOP_STAT_STOPPING k
  let s := ((s.setLoopState k loopHeld).swr F.LOOP_STAT_CAUSE cause k).countUp .A F.LOOP_CNT_HOLD_COUNT k
  if stopping then s.startStop k (s.loop k).trip else s

/-- A request for MANUAL (R567). -/
def State.enterManual (s : State) (k : Nat) : State :=
  let was := s.loopState k
  let s := s.endStop k
  if was = loopManual then s
  else if was = loopOff then (s.modLoop k fun l => { l with r := 0 }).setLoopState k loopManual
  else
    let s := s.swr F.LOOP_MAN_V_MV (clampI 0 (2 ^ 20 - 1) (mvOf20 (s.loop k).u)).toNat k
    (s.modLoop k fun l => { l with r := l.u * 2 ^ 16 }).setLoopState k loopManual

/-- A request for AUTO (R567, R570). -/
def State.enterAuto (s : State) (k : Nat) : State :=
  let was := s.loopState k
  let s := s.endStop k
  if was = loopAuto then s
  else (s.modLoop k fun l => { l with r := l.y * 2 ^ 16, sects := [], entered := true }).setLoopState k loopAuto

/-- Conditions of the feedback supervision that are present: stale, frozen, regulator fault (R574, R575). -/
def State.feedback (s : State) (k : Nat) : Bool × Bool × Bool :=
  let l := s.loop k
  (decide (s.srd F.LOOP_CHECK_STALE_N k ≤ l.stale), decide (s.srd F.LOOP_CHECK_FROZEN_N k ≤ l.frozen), s.flag .A F.LOOP_STAT_REGFLT k)

/-- The refusal of a request, 0 for none (R563, R580, R582). -/
def State.loopRefusal (s : State) (k req : Nat) : Nat :=
  let f := s.feedback k
  if req = 0 then 0
  else if s.flag .A F.LOOP_STAT_LOCK k then 1
  else if req = 1 then 0
  else if f.1 || f.2.1 then 2
  else if f.2.2 then 4
  else if (s.loop k).cfgBusy then 3
  else 0

/-! ### Writes of the host (R560, R561, R565, R568) -/

/-- Whether loop commands of an office are accepted: the owner's, and in a handover those of the accepting office (R565). -/
def State.loopSender (s : State) (o : OfficeId) : Bool :=
  s.owns o && !((s.off o).twin.release.isSome && s.owns (otherOffice o))

/-- A host write that waits for a sample period: nothing is stored before it. -/
def State.loopWrite (s : State) (o : OfficeId) (addr v k kind : Nat) (kept : Option Fld) : State :=
  if s.takesWrites o ∧ s.owns o ∧ s.loopSender o = false then s.journal o addr v false
  else
    let old := match kept with
      | some f => s.srd f k
      | none => 0
    let r := s.hostWrite o addr v
    let s := match kept with
      | some f => r.1.swr f old k
      | none => r.1
    if r.2 then s.modLoop k fun l => { l with writes := l.writes ++ [{ kind := kind, value := v, at_ := s.now }] } else s

/-- LOOP_REQUEST_OFF (R564): a write of `LOOP_CMD`. -/
def execLoopRequestOff (o : OfficeId) (k : Fin 2) (v : W32) (s : State) : Out :=
  .next (s.loopWrite o (F.LOOP_CMD_GO.addr k.val 0) v.toNat k.val 0 none)

/-- LOOP_REQUEST_MANUAL (R567): a write of `LOOP_CMD`. -/
def execLoopRequestManual (o : OfficeId) (k : Fin 2) (v : W32) (s : State) : Out :=
  .next (s.loopWrite o (F.LOOP_CMD_GO.addr k.val 0) v.toNat k.val 0 none)

/-- LOOP_REQUEST_AUTO (R563): a write of `LOOP_CMD`. -/
def execLoopRequestAuto (o : OfficeId) (k : Fin 2) (v : W32) (s : State) : Out :=
  .next (s.loopWrite o (F.LOOP_CMD_GO.addr k.val 0) v.toNat k.val 0 none)

/-- ACK (R580): a write of `LOOP_CMD`. -/
def execAck (o : OfficeId) (k : Fin 2) (v : W32) (s : State) : Out :=
  .next (s.loopWrite o (F.LOOP_CMD_GO.addr k.val 0) v.toNat k.val 0 none)

/-- LOOP_SETPOINT_WRITE (R560, R568). -/
def execLoopSetpointWrite (o : OfficeId) (k : Fin 2) (v : W32) (s : State) : Out :=
  .next (s.loopWrite o (F.LOOP_SETPOINT_MV.addr k.val 0) v.toNat k.val 1 (some F.LOOP_SETPOINT_MV))

/-- LOOP_MAN_V_WRITE (R560, R568). -/
def execLoopManVWrite (o : OfficeId) (k : Fin 2) (v : W32) (s : State) : Out :=
  .next (s.loopWrite o (F.LOOP_MAN_V_MV.addr k.val 0) v.toNat k.val 2 (some F.LOOP_MAN_V_MV))

/-- A value write takes effect, or is refused above `V_MAX` and, unless zero, under `LOCK` (R568, R580). -/
def State.loopValue (s : State) (k : Nat) (f : Fld) (v : Nat) : State :=
  let m := s.srd F.LOOP_LIMIT_V_MAX k
  let x := v % 2 ^ 20
  if m < x ∨ (s.flag .A F.LOOP_STAT_LOCK k ∧ x ≠ 0) then s.raiseSvc 0x0B05 (le 1 k ++ le 4 x ++ le 4 m) else s.swr f x k

/-- A write of `LOOP_CMD` takes effect: `ACK`, then the request (R562 to R564, R580). -/
def State.loopCommand (s : State) (k v : Nat) : State :=
  let s := if bitsOf v 30 1 = 1 then s.swr F.LOOP_STAT_LOCK 0 k else s
  let req := bitsOf v 0 2
  if bitsOf v 31 1 = 0 then s
  else
    let c := s.loopRefusal k req
    if c ≠ 0 then (s.swr F.LOOP_STAT_REFUSE c k).raiseSvc 0x0B06 (le 1 k ++ le 1 req ++ le 1 c)
    else if req = 0 then s.startStop k false
    else if req = 1 then s.enterManual k
    else s.enterAuto k

/-- The writes that take effect in this period: received at least 1,500 ticks before it, the last of each register (R560,
R561). -/
def State.applyLoopWrites (s : State) (k : Nat) : State :=
  let due := fun (w : BiasWrite) => decide (w.at_ + 1500 ≤ s.now)
  let ws := (s.loop k).writes.filter due
  let last := ws.zipIdx.filter fun x => !(ws.drop (x.2 + 1)).any fun y => y.kind = x.1.kind
  let s := s.modLoop k fun l => { l with writes := l.writes.filter fun w => !due w }
  last.foldl (fun s x =>
    match x.1.kind with
    | 0 => s.loopCommand k x.1.value
    | 1 => s.loopValue k F.LOOP_SETPOINT_MV x.1.value
    | _ => s.loopValue k F.LOOP_MAN_V_MV x.1.value) s

/-! ### A sample period (R560) -/

/-- Electrometer: the difference since the sample before, unless a reset lies between; above 1.600 V the switch closes; a
sample at the end of the range marks the gate (R576). -/
def State.sampleElectrometer (s : State) (k : Nat) (x : LoopSample) : State :=
  let l := s.loop k
  let mv := x.elecMv.toNat
  let d := match l.elecLast with
    | some p => if l.elecReset then none else some ((mv : Int) - p)
    | none => none
  let s := s.modLoop k fun l =>
    { l with elecLast := some mv, elecReset := decide (1600 < mv), overrun := l.overrun || x.elecOver
             dSum := l.dSum + d.getD 0, dNum := l.dNum + b2n d.isSome, dSkip := l.dSkip + b2n d.isNone }
  if x.elecOver = false then s
  else
    let s := s.swr F.BIAS_ESTAT_OVR 1 k
    if l.overNoted then s
    else (s.modLoop k fun l => { l with overNoted := true }).raiseSvc 0x0B0B (le 1 k ++ le 1 (s.srd F.BIAS_ESTAT_RANGE_ACT k))

/-- Step 1: monitor and electrometer are sampled (R560). -/
def State.sampleLoop (s : State) (k : Nat) (x : LoopSample) : State :=
  let y := if x.monValid then s.biasOfMon k x.mon.toNat else (s.loop k).y
  let s := if x.monValid then s.swr F.LOOP_OUT_MON_CODE x.mon.toNat k else s
  let s := (s.swr F.LOOP_Y_MV (ofInt 32 (mvOf20 y)) k).swr F.LOOP_STAT_REGFLT (b2n x.fltLow) k
  let s := s.modLoop k fun l =>
    { l with y := y, ySum := l.ySum + y, yNum := l.yNum + 1
             lastValidY := if x.monValid && x.mon ≠ 0 && x.mon ≠ 0xFFFF then y else l.lastValidY }
  s.sampleElectrometer k x

/-- The notice of a feedback condition (R586). -/
def State.feedbackNotice (s : State) (k cause : Nat) : State :=
  match cause with
  | 1 => s.raiseSvc 0x0B02 (le 1 k ++ le 4 (ofInt 32 (mvOf20 (s.loop k).lastValidY)))
  | 2 => s.raiseSvc 0x0B03 (le 1 k ++ le 2 (s.srd F.LOOP_OUT_MON_CODE k))
  | _ => s.raiseSvc 0x0B04 (le 1 k ++ le 1 (s.loopState k))

/-- Step 2: feedback supervision of a loop that is not OFF (R574, R575; log entry 60). In AUTO a condition holds the loop; in
MANUAL and HELD it is reported once. -/
def State.superviseLoop (s : State) (k : Nat) (x : LoopSample) : State :=
  if s.loopState k = loopOff then s
  else
    let bad := !x.monValid || x.mon = 0 || x.mon = 0xFFFF
    let s := s.modLoop k fun l =>
      { l with stale := if bad then l.stale + 1 else 0
               frozen := if x.monValid = false then 0 else if l.lastCode = some x.mon.toNat then l.frozen + 1 else 1
               lastCode := if x.monValid then some x.mon.toNat else none }
    let f := s.feedback k
    let present := (if f.1 then [1] else []) ++ (if f.2.1 then [2] else []) ++ (if f.2.2 then [3] else [])
    let new := present.filter fun c => bitsOf (s.loop k).noted (c - 1) 1 = 0
    let s := s.modLoop k fun l => { l with noted := present.foldl (fun m c => m + 2 ^ (c - 1)) 0 }
    let s := if s.loopState k = loopAuto then
        match present with
        | c :: _ => s.holdLoop k c
        | [] => s
      else
        match new with
        | c :: _ => s.swr F.LOOP_STAT_CAUSE c k
        | [] => s
    new.foldl (fun s c => s.feedbackNotice k c) s

/-- Step 4: the ramp limiter (R566, R567). -/
def State.rampLoop (s : State) (k : Nat) : State :=
  let st := s.loopState k
  if st ≠ loopManual ∧ st ≠ loopAuto then s
  else
    let stopping := s.flag .A F.LOOP_STAT_STOPPING k
    let mv := if stopping then 0 else if st = loopAuto then s.srd F.LOOP_SETPOINT_MV k else s.srd F.LOOP_MAN_V_MV k
    let target := roundDiv (mv * 2 ^ 36) 1000
    let rate := if (s.loop k).trip then s.srd F.LOOP_RAMP_RAMP_TRIP k else s.srd F.LOOP_RAMP_RAMP k
    let delta : Int := rate * 2 ^ 37 / 1000000
    let s := s.modLoop k fun l =>
      let r := if (target - l.r).natAbs ≤ delta.natAbs then target else if l.r < target then l.r + delta else l.r - delta
      { l with r := r, zeroSince := if stopping && r = 0 then some (l.zeroSince.getD s.now) else none }
    s.swr F.LOOP_R_MV (ofInt 32 (roundDiv ((s.loop k).r * 1000) (2 ^ 36))) k

/-- A sum of products in Q2.30, rounded and saturated to 40 bits; the Bool tells a saturation (R569). -/
def q30 (sum : Int) : Int × Bool :=
  let v := (sum + 2 ^ 29) / 2 ^ 30
  (satI 40 v, decide (satI 40 v ≠ v))

/-- A coefficient (R569). -/
def State.coef (s : State) (f : Fld) (k : Nat) (j : Nat := 0) : Int := toInt 32 (s.srd f k j)

/-- The cascade of sections from `j` on: its output, the new states, and saturations (R569). -/
def State.cascade (s : State) (k : Nat) : Nat → Nat → List BqState → Int → Int × List BqState × Nat
  | 0, _, _, x => (x, [], 0)
  | n + 1, j, st, x =>
    let b := st.headD {}
    let v := q30 (s.coef F.LOOP_BQ_B0_B0 k j * x + s.coef F.LOOP_BQ_B1_B1 k j * b.x1 + s.coef F.LOOP_BQ_B2_B2 k j * b.x2 -
      s.coef F.LOOP_BQ_A1_A1 k j * b.v1 - s.coef F.LOOP_BQ_A2_A2 k j * b.v2)
    let rest := s.cascade k n (j + 1) (st.drop 1) v.1
    (rest.1, { x1 := x, x2 := b.x1, v1 := v.1, v2 := b.v1 } :: rest.2.1, rest.2.2 + b2n v.2)

/-! ### The repetitive controller (R572, R573) -/

/-- Clears the repetitive controller: its output moves to the integral, the table is zero (R573). -/
def State.clearRep (s : State) (k cause : Nat) : State :=
  let s := s.modLoop k fun l => { l with uI := satI 48 (l.uI + l.repOut), repOut := 0 }
  let s := (List.range 1024).foldl (fun s j => s.swr F.LOOP_REP_TAB_V 0 k j) s
  ((s.swr F.LOOP_REP_STAT_ACTIVE 0 k).swr F.LOOP_REP_STAT_CAUSE cause k).raiseSvc 0x0B0C (le 1 k ++ le 1 cause)

/-- Why the repetitive controller may not be active, 0 when it may (R573, R584). -/
def State.repBar (s : State) (k : Nat) : Nat :=
  let l := s.loop k
  if s.loopState k ≠ loopAuto ∨ s.flag .A F.LOOP_REP_CFG_REP_EN k = false then 5
  else
    match l.freq with
    | none => 1
    | some f =>
      if f < s.srd F.LOOP_REP_FMIN_FMIN k * 1000 ∨ s.srd F.LOOP_REP_FMAX_FMAX k * 1000 < f then 2
      else if l.freqAt.all (fun a => decide (a + ticksOfUs 1000000 < s.now)) then 4
      else 0

/-- Sets `ACTIVE`, and clears the controller when a condition ends (R573). -/
def State.checkRep (s : State) (k : Nat) : State :=
  let c := s.repBar k
  if c = 0 then s.swr F.LOOP_REP_STAT_ACTIVE 1 k
  else if s.flag .A F.LOOP_REP_STAT_ACTIVE k then s.clearRep k c
  else s

/-- A word of the table. -/
def State.repEntry (s : State) (k j : Nat) : Int := toInt 32 (s.srd F.LOOP_REP_TAB_V k (j % 1024))

/-- The output of the repetitive controller (R572). -/
def State.repOutput (s : State) (k : Nat) : Int :=
  if s.flag .A F.LOOP_REP_STAT_ACTIVE k then s.repEntry k ((s.loop k).phi / 2 ^ 22 + s.srd F.LOOP_REP_CFG_LEAD k) else 0

/-- Learns from the filtered error and advances the phase (R572). -/
def State.learnRep (s : State) (k : Nat) (ef : Int) : State :=
  if s.flag .A F.LOOP_REP_STAT_ACTIVE k = false then s
  else
    let j := (s.loop k).phi / 2 ^ 22
    let lim := min (mvTo20 (s.srd F.LOOP_REP_LIM_REP_LIM k)) (2 ^ 31 - 1)
    let p := (s.coef F.LOOP_REP_QF_QF k * s.repEntry k j + s.coef F.LOOP_REP_KR_KR k * ef + 2 ^ 29) / 2 ^ 30
    let s := s.swr F.LOOP_REP_TAB_V (ofInt 32 (clampI (-lim) lim p)) k j
    s.modLoop k fun l => { l with phiAt := l.phi, phi := (l.phi + s.srd F.LOOP_REP_DPHI_DPHI k) % 2 ^ 32 }

/-! ### The controller (R569, R570) -/

/-- Step 5 in AUTO (R569, R570). -/
def State.runController (s : State) (k : Nat) : State :=
  let l := s.loop k
  let r := l.r20
  let c := s.cascade k (min 8 (s.srd F.LOOP_NSEC_NSEC k)) 0 l.sects (r - l.y)
  let ef := c.1
  let rep := s.repOutput k
  let kp := q30 (s.coef F.LOOP_KP_KP k * ef)
  let ki := q30 (s.coef F.LOOP_KI_KI k * ef)
  let uI := if l.entered then satI 48 (s.biasOfDac k (s.srd F.LOOP_OUT_DAC_CODE k) - (r + kp.1 + rep)) else l.uI
  let sum := r + kp.1 + uI + rep
  let u := satI 40 sum
  let raw := s.rawCode k u
  let lo : Int := s.srd F.LOOP_OUTLIM_OUT_MIN k
  let hi : Int := s.srd F.LOOP_OUTLIM_OUT_MAX k
  let away := (decide (hi < raw) && decide (ki.1 < 0)) || (decide (raw < lo) && decide (0 < ki.1))
  let new := if (decide (lo ≤ raw) && decide (raw ≤ hi)) || away then satI 48 (uI + ki.1) else uI
  let s := s.modLoop k fun l => { l with sects := c.2.1, entered := false, u := u, uI := new, repOut := rep }
  let s := s.countBy .A F.LOOP_CNT_SAT_COUNT (c.2.2 + b2n kp.2 + b2n ki.2 + b2n (decide (u ≠ sum))) k
  (s.swr F.LOOP_OUT_DAC_CODE (s.dacCode k u) k).learnRep k ef

/-- Step 5 and 6: the output of a loop by its state (R560, R562, R570). -/
def State.driveLoop (s : State) (k : Nat) : State :=
  let st := s.loopState k
  if st = loopAuto then s.runController k
  else if st = loopManual then
    let s := s.modLoop k fun l => { l with u := l.r20 }
    s.swr F.LOOP_OUT_DAC_CODE (s.dacCode k (s.loop k).u) k
  else s

/-- A stop in AUTO ends when the ramp output is 0 and y is below `V_OFF` (R564). -/
def State.settleStop (s : State) (k : Nat) : State :=
  if s.flag .A F.LOOP_STAT_STOPPING k ∧ s.loopState k = loopAuto ∧ (s.loop k).r = 0 ∧ (s.loop k).y < mvTo20 (s.srd F.LOOP_CHECK_V_OFF k) then
    s.loopOffNow k
  else s

/-- One loop's period, after the sampling of both (R560). -/
def State.periodOf (s : State) (k : Nat) (x : LoopSample) : State :=
  ((((s.superviseLoop k x).applyLoopWrites k).rampLoop k).checkRep k).driveLoop k |>.settleStop k

/-- The output of a guard in mV (R581). -/
def State.guardOut (s : State) (g : Nat) : Int :=
  let set := toInt 16 (s.srd F.BIAS_GCFG_G_SET g)
  match s.srd F.BIAS_GCFG_MODE g with
  | 0 => 0
  | 1 => set
  | _ => clampI (-5000) 5000 (set + roundDiv (s.coef F.BIAS_GK_GK g * (s.loop (s.srd F.BIAS_GCFG_LOOP g)).y * 1000) (2 ^ 50))

/-- Updates a guard; `limited` tells that its driver limits the current (R581). -/
def State.driveGuard (s : State) (g : Nat) (limited : Bool) : State :=
  let was := s.flag .A F.BIAS_GSTAT_OVC g
  let s := (s.swr F.BIAS_GSTAT_G_OUT (ofInt 16 (s.guardOut g)) g).swr F.BIAS_GSTAT_OVC (b2n limited) g
  if limited && !was then s.raiseSvc 0x0B0D (le 1 g) else s

/-- BIAS_SAMPLE_PERIOD (R560): one sample period of both loops and of the guards; BIASk_CTRL shows its value at once. -/
def execBiasSamplePeriod (l0 l1 : LoopSample) (guardOver : BitVec 4) (s : State) : Out :=
  .next (
    if s.svc.inReset ∨ s.svc.count.toNat % 30000 ≠ 0 then s
    else
      let s := (s.latchCauses.sampleLoop 0 l0).sampleLoop 1 l1
      let s := ((s.periodOf 0 l0).periodOf 1 l1).latchCauses
      (List.range 4).foldl (fun s g => s.driveGuard g (guardOver.getLsbD g)) s)

/-- LOOP_STOP_TIMER (R564): in MANUAL the loop enters OFF 1 s after the ramp output has reached 0. -/
def execLoopStopTimer (k : Fin 2) (s : State) : Out :=
  .next (
    let due := (s.loop k.val).zeroSince.any fun a => decide (a + ticksOfUs 1000000 ≤ s.now)
    if s.flag .A F.LOOP_STAT_STOPPING k.val ∧ s.loopState k.val = loopManual ∧ due then s.loopOffNow k.val else s)

/-! ### Electrometers and leakage plausibility (R576 to R580) -/

/-- The feedback capacitor in pF and the full-scale current in pA of a range (R576). -/
def rangeCap : Nat → Int
  | 0 => 10
  | 1 => 1000
  | _ => 100000
def rangeFull : Nat → Int
  | 0 => 187500
  | 1 => 18750000
  | _ => 1875000000

/-- The current of a gate in pA (R576): the slope of the differences, with the resets' charge taken from it. Where every
difference spans a reset the spec states no result. -/
def State.gateCurrent (s : State) (k : Nat) : Int × State :=
  let l := s.loop k
  let r := s.srd F.BIAS_ESTAT_RANGE_ACT k
  if l.overrun then (rangeFull r, s)
  else if l.dNum = 0 then
    let p := s.draw 32
    (toInt 32 p.1, p.2)
  else (roundDiv (50 * rangeCap r * l.dSum) l.dNum, s)

/-- Linear interpolation between entries of a table at `a / d`, clamped at its ends (R578). -/
def interpolate (tab : Nat → Nat) (last : Nat) (a : Int) (d : Nat) : Rat :=
  let j := (a / d).toNat
  let rem := (a % d).toNat
  if a < 0 then tab 0
  else if last ≤ j then tab last
  else ((tab j * (d - rem) + tab (j + 1) * rem : Nat) : Rat) / d

/-- A rational rounded to the nearest integer, halves up (R714). -/
def roundRat (q : Rat) : Int := (q + 1 / 2).floor

/-- The mean temperature of the valid points of `ENV_MASK`, in 0.01 °C (R578, R597). -/
def State.biasTemp (s : State) (k : Nat) : Option Int :=
  let ps := (List.range 12).filter fun i => bitsOf (s.srd F.BIAS_PL_ENV_ENV_MASK k) i 1 = 1 && s.srd F.ENV_PT_TEMP_VALID i = 1
  if ps = [] then none else some (roundDiv (ps.foldl (fun n i => n + toInt 16 (s.srd F.ENV_PT_TEMP_T i)) 0) ps.length)

/-- `gtab` at the mean of y; with `V_MAX` 0 all its entries stand at one voltage, and the value is free (R578). -/
def State.gtabAt (s : State) (k : Nat) (v : Rat) : Rat × State :=
  let m := s.srd F.LOOP_LIMIT_V_MAX k
  if m = 0 then
    let p := s.draw 32
    ((p.1 : Rat), p.2)
  else
    let x := v * 16000 / ((m : Rat) * 2 ^ 20)
    (interpolate (fun j => s.srd F.BIAS_GTAB_G k j) 16 x.num x.den, s)

/-- What a check has found (R578): 0 PASS, 1 HIGH, 2 LOW, 3 SKIPPED, with `Iexp` in pA. -/
def State.leakage (s : State) (k : Nat) (imeas : Int) (ranging : Bool) : (Nat × Int) × State :=
  let l := s.loop k
  match s.biasTemp k with
  | none => ((3, s.srd F.BIAS_IEXP_IEXP k), s)
  | some t =>
    let f := interpolate (fun j => s.srd F.BIAS_FTAB_F k j) 63 (t + 4000) 250
    let g := s.gtabAt k ((l.ySum : Rat) / l.yNum)
    let iexp := min (roundRat ((s.srd F.BIAS_IREF_IREF k : Rat) * f * g.1 / 2 ^ 32)) (2 ^ 32 - 1)
    let icap := roundDiv (s.srd F.BIAS_PL_ENV_C_SENS k * (l.r - l.rStart) * 50000) (l.yNum * 2 ^ 36)
    let ileak := imeas - icap
    let res :=
      if ranging ∨ iexp < s.srd F.BIAS_IFLOOR_IFLOOR k then 3
      else if s.srd F.BIAS_PL_CFG_HI_RATIO k * iexp < 16 * ileak then 1
      else if 64 * ileak < s.srd F.BIAS_PL_CFG_LO_RATIO k * iexp then 2
      else 0
    ((res, iexp), g.2)

/-- A failing run has reached `PL_N` (R579). -/
def State.leakageFails (s : State) (k res : Nat) (imeas iexp : Int) : State :=
  let s := (s.modLoop k fun l => { l with plausRun := true }).countUp .A F.LOOP_CNT_PLFAIL_COUNT k
  let s := s.raiseSvc (if res = 1 then 0x0B07 else 0x0B08)
    (le 1 k ++ le 4 (ofInt 32 imeas) ++ le 4 iexp.toNat ++ le 2 (s.srd F.BIAS_TEMP_T k))
  match s.srd F.BIAS_PL_CFG_PL_ACT k with
  | 1 => if s.loopState k = loopAuto then s.holdLoop k 4 else s
  | 2 => s.startStop k false
  | _ => s

/-- The leakage check of a gate, in every state but OFF (R578, R579). -/
def State.checkLeakage (s : State) (k : Nat) (imeas : Int) (ranging : Bool) : State :=
  if s.loopState k = loopOff then s
  else
    let t := s.biasTemp k
    let s := (s.swr F.BIAS_TEMP_VALID (b2n t.isSome) k).swr F.BIAS_TEMP_T (ofInt 16 (t.getD (toInt 16 (s.srd F.BIAS_TEMP_T k)))) k
    let s := if t.isSome then s.modLoop k fun l => { l with skipNoted := false }
      else if (s.loop k).skipNoted then s
      else (s.modLoop k fun l => { l with skipNoted := true }).raiseSvc 0x0B0A (le 1 k)
    let x := s.leakage k imeas ranging
    let res := x.1.1
    let run := s.srd F.BIAS_PL_STAT_RUN k
    let new := if res = 1 ∨ res = 2 then min 15 (run + 1) else 0
    let s := ((x.2.swr F.BIAS_IEXP_IEXP x.1.2.toNat k).swr F.BIAS_PL_STAT_RESULT res k).swr F.BIAS_PL_STAT_RUN new k
    let s := if res = 0 then s.modLoop k fun l => { l with plausRun := false } else s
    let n := s.srd F.BIAS_PL_CFG_PL_N k
    if run < n ∧ n ≤ new then s.leakageFails k res imeas x.1.2 else s

/-- A trip (R580). -/
def State.tripLoop (s : State) (k : Nat) (imeas : Int) : State :=
  ((s.startStop k true).swr F.LOOP_STAT_LOCK 1 k).raiseSvc 0x0B09 (le 1 k ++ le 4 (ofInt 32 imeas))

/-- The range after a gate (R577). -/
def State.nextRange (s : State) (k : Nat) (imeas : Int) : Nat :=
  let r := s.srd F.BIAS_ESTAT_RANGE_ACT k
  if s.flag .A F.BIAS_ECFG_FIX k then min 2 (s.srd F.BIAS_ECFG_RANGE k)
  else if rangeFull r * 4 < imeas * 5 ∧ r < 2 then r + 1
  else if 0 < r ∧ imeas * 2 < rangeFull (r - 1) then r - 1
  else r

/-- A new gate begins. -/
def BiasLoop.newGate (l : BiasLoop) (discard : Bool) : BiasLoop :=
  { l with dSum := 0, dNum := 0, dSkip := 0, ySum := 0, yNum := 0, rStart := l.r, overrun := false, overNoted := l.overNoted && l.overrun
           discard := discard, elecLast := if discard then none else l.elecLast, elecReset := l.elecReset && !discard }

/-- ELECTROMETER_GATE_END (R576 to R580): after `GATE` periods the current is formed, the range changed, the leakage
checked and the trip judged; the gate after a change of range is discarded. -/
def execElectrometerGateEnd (k : Fin 2) (s : State) : Out :=
  .next (
    let k := k.val
    let l := s.loop k
    if s.svc.inReset ∨ l.yNum < s.srd F.BIAS_ECFG_GATE k then s
    else
      let c := s.latchCauses.gateCurrent k
      let i := if l.discard then toInt 32 (s.srd F.BIAS_I_IMEAS k) else c.1
      let s := (c.2.swr F.BIAS_I_IMEAS (ofInt 32 i) k).swr F.BIAS_ESTAT_OVR (b2n l.overrun) k
      let s := s.checkLeakage k i l.discard
      let trip := s.srd F.BIAS_ITRIP_ITRIP k
      let s := if l.discard = false ∧ trip ≠ 0 ∧ (trip : Int) < i then s.tripLoop k i else s
      let r := if l.discard then s.srd F.BIAS_ESTAT_RANGE_ACT k else s.nextRange k i
      let moved := decide (r ≠ s.srd F.BIAS_ESTAT_RANGE_ACT k)
      ((s.swr F.BIAS_ESTAT_RANGE_ACT r k).swr F.BIAS_ESTAT_RANGING (b2n moved) k).modLoop k fun l => l.newGate moved)

/-- LOOP_CNT_CLR (R584). -/
def execLoopCntClr (o : OfficeId) (k : Fin 2) (v : W32) (s : State) : Out :=
  .next (s.clearWrite o (F.LOOP_CNT_CLR_HOLD.addr k.val 0) v.toNat k.val
    [F.LOOP_CNT_HOLD_COUNT, F.LOOP_CNT_SAT_COUNT, F.LOOP_CNT_PLFAIL_COUNT])

end Sys2Proof.Machine
end

