-- ==== Sys2Proof/Machine/Environment.lean ====
section
/-! DEFINITION. The housekeeping converter, environment points, auxiliary timing inputs, and the status current loop (15). -/

namespace Sys2Proof.Machine

/-- Changes the housekeeping converter. -/
def State.modEnv (s : State) (f : EnvScan → EnvScan) : State := s.modSvc fun d => { d with env := f d.env }

/-! ### The converter (R587 to R592) -/

/-- Samples summed in a phase of a point (R592). -/
def State.phaseLen (s : State) : Nat := 2 ^ s.srd F.ENV_CFG_F_LOG2

/-- Begins the visit of a channel: a point after both changes, another channel after the change of the multiplexer (R589). -/
def State.visit (s : State) (chan : Nat) : State :=
  let skip := if chan < 12 then 1 + s.srd F.ENV_CFG_N_SETTLE else 1
  s.modEnv fun e =>
    { e with chan := chan, reverse := false, skip := skip, num := 0, sum := 0, fwd := 0, ovr := false, open_ := false, restarts := 0 }

/-- The next enabled point from `i` on, or channel 12 (R590). -/
def State.nextPoint (s : State) (i : Nat) : Nat := ((List.range 12).find? fun j => decide (i ≤ j) && s.pointOn j).getD 12

/-- Whether the cycle of a point has all its samples (R592). -/
def State.cycleDone (s : State) : Bool :=
  let e := s.svc.env
  decide (e.chan < 12) && e.reverse && decide (s.phaseLen ≤ e.num)

/-- What channels 12 to 20 measure of the supply, by the sum of 16 samples (R588, R640, R652): VIN and the rails. -/
def State.supplySample (s : State) (chan : Nat) (sum : Int) : State :=
  if chan = 12 then
    let mv := (sum * 2).toNat
    let s := s.swr F.PWR_STAT_VIN_MV mv
    if s.srd F.PWR_CFG_VIN_LOW * 100 ≤ mv then s.swr F.PWR_STAT_VIN_LOW 0 else s
  else if 13 ≤ chan ∧ chan ≤ 20 then
    s.swr F.PWR_RAIL_MV (roundDiv (sum * if chan = 20 then 4 else 1) 16).toNat (chan - 13)
  else s

/-- A summed sample: the forward phase ends with a scheduled swap, a fixed channel with its result (R590, R592, R612). -/
def State.sumSample (s : State) (code : Int) : State :=
  let s := s.modEnv fun e =>
    { e with num := e.num + 1, sum := e.sum + code, ovr := e.ovr || decide (code = -2048) || decide (code = 2047) }
  let e := s.svc.env
  if e.chan < 12 then
    if e.reverse = false ∧ s.phaseLen ≤ e.num then
      let settle := s.srd F.ENV_CFG_N_SETTLE
      s.modEnv fun e => { e with reverse := true, fwd := e.sum, sum := 0, num := 0, skip := settle }
    else s
  else if e.num < 16 then s
  else
    let s := (s.swr F.ENV_HK_VALUE (ofInt 16 e.sum) e.chan).swr F.ENV_HK_VALID 1 e.chan
    let s := s.supplySample e.chan e.sum
    s.visit (e.chan + 1)

/-- HOUSEKEEPING_SAMPLE (R587 to R590, R596): one sample. `compliance` tells that the excitation source has reached its
compliance. A complete cycle, or a complete scan, waits for its end. -/
def execHousekeepingSample (code : BitVec 12) (compliance : Bool) (s : State) : Out :=
  .next (
    let e := s.svc.env
    if s.svc.inReset ∨ s.svc.count.toNat % 15360 ≠ 0 ∨ s.cycleDone ∨ 32 ≤ e.chan then s
    else
      let s := s.modEnv fun e => { e with open_ := e.open_ || compliance }
      if e.skip ≠ 0 then s.modEnv fun e => { e with skip := e.skip - 1 } else s.sumSample code.toInt)

/-! ### Results of a point (R593 to R597) -/

/-- Twice the excitation current in µA (R592, R593). -/
def twiceIexc : Nat → Nat
  | 0 => 2000
  | 1 => 500
  | _ => 125

/-- The temperature of a ratio by a table, and whether it lies outside (R595). -/
def State.tableTemp (s : State) (t ratio : Nat) : Int × Bool :=
  let r := fun (k : Nat) => s.srd F.ENV_TAB_RATIO_RATIO t k
  let v := fun (k : Nat) => toInt 32 (s.srd F.ENV_TAB_TEMP_T t k)
  if ratio < r 0 then (v 0, true)
  else if r 31 < ratio then (v 31, true)
  else
    match (List.range 31).find? fun k => decide (r k ≤ ratio) && decide (ratio ≤ r (k + 1)) with
    | some k => (v k + roundDiv ((v (k + 1) - v k) * (ratio - r k)) (r (k + 1) - r k), false)
    | none => (v 31, true)

/-- Flags of `ENV_PT_TEMP`, highest first (R596, R611). -/
def flagOpen : Nat := 7
def flagShort : Nat := 6
def flagOvr : Nat := 5
def flagOffset : Nat := 4
def flagRange : Nat := 3
def flagRestarted : Nat := 2
def flagDisagree : Nat := 1
def flagStale : Nat := 0

/-- Changes what is known of a point. -/
def State.modPoint (s : State) (i : Nat) (f : EnvPoint → EnvPoint) : State :=
  s.modEnv fun e => { e with points := Sparse.update {} e.points i f }

/-- Whether a point is valid but for a disagreement (R597, R598). -/
def State.otherwiseValid (s : State) (i : Nat) : Bool :=
  let f := s.srd F.ENV_PT_TEMP_FLAGS i
  let bad := [flagOpen, flagShort, flagOvr, flagRange, flagStale].any fun b => bitsOf f b 1 = 1
  s.pointOn i && (Sparse.get {} s.svc.env.points i).had && !bad

/-- Sets `VALID` of a point; a change of an enabled point raises 0x0C01 (R597). -/
def State.refreshPoint (s : State) (i : Nat) : State :=
  let new := s.otherwiseValid i && !(Sparse.get {} s.svc.env.points i).disagree
  if new = s.pointValid i then s
  else
    let s := s.swr F.ENV_PT_TEMP_VALID (b2n new) i
    if s.pointOn i then s.raiseSvc 0x0C01 (le 1 i ++ le 1 (s.srd F.ENV_PT_TEMP_FLAGS i) ++ le 1 (b2n new)) else s

/-- Sets one flag of a point. -/
def State.setPointFlag (s : State) (i b : Nat) (on : Bool) : State :=
  s.swr F.ENV_PT_TEMP_FLAGS (setBits (s.srd F.ENV_PT_TEMP_FLAGS i) b 1 (b2n on)) i

/-- Forms the results of a point's cycle (R593, R595, R596). -/
def State.pointResult (s : State) (i : Nat) : State :=
  let e := s.svc.env
  let n := s.phaseLen
  let lsb : Int := if s.srd F.ENV_PT_CFG_GAIN i = 1 then 125 else 1000
  let r := roundDiv ((e.fwd - e.sum) * lsb * 1000) (n * twiceIexc (s.srd F.ENV_PT_CFG_IEXC i))
  let ofs := roundDiv ((e.fwd + e.sum) * lsb) (2 * n)
  let r0 := s.srd F.ENV_PT_CFG_R0 i * 100
  let ratio := (clampI 0 (2 ^ 32 - 1) (roundDiv (r * 2 ^ 24) r0)).toNat
  let t := s.tableTemp (s.srd F.ENV_PT_CFG_TABLE i) ratio
  let p := Sparse.get {} e.points i
  let flags := ([(flagOpen, e.open_), (flagShort, decide (8 * r < r0)), (flagOvr, e.ovr), (flagOffset, decide (2000 < ofs.natAbs)),
    (flagRange, t.2), (flagRestarted, decide (e.restarts ≠ 0)), (flagDisagree, p.disagree)]).foldl (fun m x => m + b2n x.2 * 2 ^ x.1) 0
  let s := ((s.swr F.ENV_PT_RES_R (ofInt 32 r) i).swr F.ENV_PT_TEMP_FLAGS flags i).swr F.ENV_PT_TEMP_T (ofInt 16 (satI 16 t.1)) i
  let s := (s.swr F.ENV_PT_OFS_OFS (ofInt 16 (satI 16 ofs)) i).swr F.ENV_PT_OFS_SCAN (s.srd F.ENV_HK_STAT_SCAN) i
  (s.modPoint i fun p => { p with fresh := true, had := true }).refreshPoint i

/-- POINT_CYCLE_END (R593 to R597): the results are formed, unless the reference or ground check has failed (R591; log entry
61), and the next channel is visited. -/
def execPointCycleEnd (s : State) : Out :=
  .next (
    if s.svc.inReset ∨ s.cycleDone = false then s
    else
      let e := s.svc.env
      let s := s.latchCauses
      let mean := ofInt 16 (satI 16 (roundDiv (e.fwd * 16) s.phaseLen))
      let s := (s.swr F.ENV_HK_VALUE mean e.chan).swr F.ENV_HK_VALID 1 e.chan
      let ok := s.srd F.ENV_HK_STAT_REF_OK = 1 ∧ s.srd F.ENV_HK_STAT_GND_OK = 1
      let s := if ok then s.pointResult e.chan else s
      s.latchCauses.visit (s.nextPoint (e.chan + 1)))

/-- SWAP (R594): an unscheduled swap restarts the cycle of a point that runs; after the third the point is given up for the
scan. -/
def execSwap (o : OfficeId) (v : W32) (s : State) : Out :=
  .next (s.hostAction o F.ENV_CTL_SWAP.off v.toNat 31 fun s =>
    let e := s.svc.env
    let settle := s.srd F.ENV_CFG_N_SETTLE
    let begun := decide (e.chan < 12) && !s.cycleDone && (e.reverse || decide (e.restarts ≠ 0) || decide (e.skip < 1 + settle))
    if begun = false then s
    else
      let s := s.countUp .A F.ENV_CNT_RESTART_COUNT
      if 2 ≤ e.restarts then
        let s := (s.countUp .A F.ENV_CNT_ABANDON_COUNT).raiseSvc 0x0C03 (le 1 e.chan ++ le 2 (s.srd F.ENV_HK_STAT_SCAN))
        s.visit (s.nextPoint (e.chan + 1))
      else
        s.modEnv fun e =>
          { e with reverse := false, skip := settle, num := 0, sum := 0, fwd := 0, ovr := false, open_ := false
                   restarts := e.restarts + 1 })

/-! ### The end of a scan (R590, R591, R598, R609) -/

/-- The value of a channel as a signed number in 1/16 code. -/
def State.hkValue (s : State) (c : Nat) : Int := toInt 16 (s.srd F.ENV_HK_VALUE c)

/-- Checks reference and ground (R591). -/
def State.checkReference (s : State) : State :=
  let ref := decide ((200 * (s.hkValue 26 - 16384)).natAbs ≤ 16384)
  let gnd := decide ((s.hkValue 27).natAbs ≤ 32)
  let s := (s.swr F.ENV_HK_STAT_REF_OK (b2n ref)).swr F.ENV_HK_STAT_GND_OK (b2n gnd)
  let noted := s.svc.env.checkNoted
  let s := s.modEnv fun e => { e with checkNoted := !(ref && gnd) }
  if (ref && gnd) || noted then s else s.raiseSvc 0x0C04 (le 2 (s.srd F.ENV_HK_VALUE 26) ++ le 2 (s.srd F.ENV_HK_VALUE 27))

/-- The temperature of a point. -/
def State.pointTemp (s : State) (i : Nat) : Int := toInt 16 (s.srd F.ENV_PT_TEMP_T i)

/-- Sets or clears `DISAGREE` of two points. -/
def State.setDisagree (s : State) (i j : Nat) (on : Bool) : State :=
  [i, j].foldl (fun s p => (s.modPoint p fun x => { x with disagree := on, out := 0, within := 0 }).setPointFlag p flagDisagree on) s

/-- Compares the points of a pair (R598). -/
def State.comparePair (s : State) (i j : Nat) : State :=
  let fresh := fun (p : Nat) => (Sparse.get {} s.svc.env.points p).fresh && s.otherwiseValid p
  if fresh i = false ∨ fresh j = false then s
  else
    let apart := decide (s.srd F.ENV_PAIR_TOL_TOL < (s.pointTemp i - s.pointTemp j).natAbs)
    let s := s.modPoint i fun x =>
      if apart then { x with out := x.out + 1, within := 0 } else { x with within := x.within + 1, out := 0 }
    let x := Sparse.get {} s.svc.env.points i
    let n := s.srd F.ENV_CFG_PAIR_N
    if x.disagree = false ∧ n ≤ x.out then
      ((s.setDisagree i j true).countUp .A F.ENV_CNT_DISAGREE_COUNT).raiseSvc 0x0C02
        (le 1 i ++ le 1 j ++ le 2 (s.srd F.ENV_PT_TEMP_T i) ++ le 2 (s.srd F.ENV_PT_TEMP_T j))
    else if x.disagree ∧ n ≤ x.within then s.setDisagree i j false
    else s

/-- Compares every pair, once. -/
def State.comparePairs (s : State) : State :=
  (List.range 12).foldl (fun s i =>
    let j := s.srd F.ENV_PT_CFG_PAIR i
    if s.srd F.ENV_PT_CFG_PAIR_EN i = 1 ∧ i < j ∧ s.srd F.ENV_PT_CFG_PAIR_EN j = 1 ∧ s.srd F.ENV_PT_CFG_PAIR j = i then s.comparePair i j
    else s) s

/-- Compares the status loop's current and terminal voltage with what they should be (R609). -/
def State.checkStatusLoop (s : State) : State :=
  let set := s.srd F.SL_STAT_UA_SET
  let sensed := roundDiv (s.hkValue 30 * 20) 16
  let volts := s.hkValue 31 * 2
  let off := decide (100 < (sensed - set).natAbs)
  let run := if off then s.svc.env.slRun + 1 else 0
  let err := decide (2 ≤ run)
  let low := decide (volts < 7500) && decide (3500 ≤ set)
  let new := (err && !s.flag .A F.SL_STAT_SL_ERR) || (low && !s.flag .A F.SL_STAT_COMPLIANCE)
  let s := s.modEnv fun e => { e with slRun := run }
  let s := (s.swr F.SL_STAT_SL_ERR (b2n err)).swr F.SL_STAT_COMPLIANCE (b2n low)
  if new then s.raiseSvc 0x0C08 (le 2 set ++ le 2 (ofInt 16 sensed) ++ le 2 (ofInt 16 volts)) else s

/-- The age of results at the start of scan `n`: a result older than the scan before is stale (R596, R597). -/
def State.agePoints (s : State) (n : Nat) : State :=
  (List.range 12).foldl (fun s i =>
    let stale := (Sparse.get {} s.svc.env.points i).had && decide (1 < (n + 65536 - s.srd F.ENV_PT_OFS_SCAN i) % 65536)
    let s := if s.pointOn i then s else s.modPoint i fun p => { p with had := false }
    (if stale then s.setPointFlag i flagStale true else s).refreshPoint i) s

/-- SCAN_END (R590, R591, R598, R609). -/
def execScanEnd (s : State) : Out :=
  .next (
    if s.svc.inReset ∨ s.svc.env.chan < 32 then s
    else
      let s := s.latchCauses
      let s := ((s.checkReference).comparePairs).checkStatusLoop
      let n := (s.srd F.ENV_HK_STAT_SCAN + 1) % 65536
      let s := (s.swr F.ENV_HK_STAT_SCAN n).agePoints n
      let s := (List.range 12).foldl (fun s i => s.modPoint i fun p => { p with fresh := false }) s
      s.latchCauses.visit (s.nextPoint 0))

/-- ENV_CNT_CLR (R610). -/
def execEnvCntClr (o : OfficeId) (v : W32) (s : State) : Out :=
  .next (s.clearWrite o F.ENV_CNT_CLR_RESTART.off v.toNat 0
    [F.ENV_CNT_RESTART_COUNT, F.ENV_CNT_ABANDON_COUNT, F.ENV_CNT_DISAGREE_COUNT])

/-! ### Auxiliary timing inputs (R599 to R602) -/

/-- Changes the auxiliary inputs of an office. -/
def State.modAux (s : State) (o : OfficeId) (f : Aux → Aux) : State := s.modOff o fun d => { d with aux := f d.aux }

/-- The corrected stamp (R599). -/
def State.auxStamp (s : State) (o : OfficeId) (x tick fine : Nat) : AuxStamp :=
  let raw : Int := tick * 8192 + 64 * fine + 32
  { raw := raw, t := raw - toInt 32 (s.rd o F.AUX_DLY_DLY x), tick := tick }

/-- Whether `DEAD` ticks have passed since the edge kept under a key. -/
def State.deadPassed (s : State) (o : OfficeId) (x : Nat) (last : Sparse Nat) (key tick : Nat) : Bool :=
  match Sparse.get 0 last key with
  | 0 => true
  | n + 1 => decide (n + s.rd o F.AUX_DEAD_DEAD x ≤ tick)

/-- An accepted edge pulls the phase of the repetitive controllers that follow its input (R572). -/
def State.edgeToLoops (s : State) (x tick : Nat) : State :=
  (List.range 2).foldl (fun s k =>
    if s.srd F.LOOP_REP_CFG_SRC k ≠ x ∨ s.srd F.LOOP_REP_STAT_ACTIVE k = 0 then s
    else
      s.modLoop k fun l =>
        let at_ := if tick < s.svc.count.toNat / 30000 * 30000 then l.phiAt else l.phi
        { l with phi := ofInt 32 ((l.phi : Int) - roundDiv (toInt 32 at_) 16) }) s

/-- An edge of the meter's slope (R600). -/
def State.meterEdge (s : State) (o : OfficeId) (x : Nat) (e : AuxStamp) : State :=
  if s.deadPassed o x (s.off o).aux.last x e.tick = false then s.countUp o F.AUX_CNT_DEAD_COUNT x
  else
    let s := s.modAux o fun a =>
      let l := fun (es : List (Nat × Int)) => ((e.tick, e.t) :: es).take 1024
      { a with last := Sparse.set 0 a.last x (e.tick + 1)
               edges := if x = 0 then { a.edges with a := l a.edges.a } else { a.edges with b := l a.edges.b } }
    let s := (s.countUp o F.AUX_CNT_EDGE_COUNT x).wrPair o F.AUX_LAST_LO_T_L F.AUX_LAST_HI_T_H (ofInt 64 e.t) x
    if s.owns o then (s.raiseSources o (8 + x)).edgeToLoops x e.tick else s

/-- A result of the interval unit enters its FIFO (R602). -/
def State.pushInterval (s : State) (o : OfficeId) (d : Nat) (sub : Bool) : State :=
  let a := (s.off o).aux
  if a.fifo.length < 64 then
    (s.modAux o fun a => { a with fifo := a.fifo ++ [(d, sub)] }).wr o F.AUX_IVL_STAT_FILL (a.fifo.length + 1)
  else
    let s := (s.modAux o fun a => { a with lost := a.lost + 1 }).countUp o F.AUX_CNT_OVF_COUNT
    if a.lostAt.any fun t => decide (s.now < t + ticksOfUs 1000000) then s
    else (s.modAux o fun a => { a with lost := 0, lostAt := some s.now }).raise o 0x0C06 (le 4 (a.lost + 1))

/-- Drops a pending start that is too old at a tick (R601). -/
def State.dropOldStart (s : State) (o : OfficeId) (tick : Nat) : State :=
  let m := s.rd o F.AUX_IVL_MAX_MAX
  match (s.off o).aux.ivlStart with
  | some st =>
    if m ≠ 0 ∧ st.tick + m < tick then (s.modAux o fun a => { a with ivlStart := none }).countUp o F.AUX_CNT_TIMEOUT_COUNT else s
  | none => s

/-- A stop edge (R601). -/
def State.stopEdge (s : State) (o : OfficeId) (e : AuxStamp) (periods : Bool) : State :=
  match (s.off o).aux.ivlStart with
  | none => if periods then s else s.countUp o F.AUX_CNT_NOSTART_COUNT
  | some st =>
    let d := e.t - st.t
    let s := s.modAux o fun a => { a with ivlStart := none }
    if d < 0 then s.countUp o F.AUX_CNT_ORDER_COUNT
    else if d < 64 then s.pushInterval o 0 true
    else s.pushInterval o d.toNat false

/-- A start edge (R601). -/
def State.startEdge (s : State) (o : OfficeId) (e : AuxStamp) : State :=
  let s := if (s.off o).aux.ivlStart.isSome then s.countUp o F.AUX_CNT_REPLACED_COUNT else s
  s.modAux o fun a => { a with ivlStart := some e }

/-- Whether start and stop name the same input and slope: the unit measures periods (R601). -/
def State.ivlPeriods (s : State) (o : OfficeId) : Bool :=
  decide (s.rd o F.AUX_IVL_CFG_START_IN = s.rd o F.AUX_IVL_CFG_STOP_IN) &&
    decide (s.rd o F.AUX_IVL_CFG_START_SLOPE = s.rd o F.AUX_IVL_CFG_STOP_SLOPE)

/-- Takes the edges that have waited the window of 16 ticks, in the order of their raw stamps (R601). -/
def State.settleInterval (s : State) (o : OfficeId) : State :=
  let c := (s.off o).count.toNat
  let due := fun (w : Bool × AuxStamp) => decide (w.2.tick + 16 ≤ c)
  let ws := (s.off o).aux.ivlWait
  let s := s.modAux o fun a => { a with ivlWait := a.ivlWait.filter fun w => !due w }
  (ws.filter due).foldl (fun s w =>
    let s := s.dropOldStart o w.2.tick
    if s.ivlPeriods o then (s.stopEdge o w.2 true).startEdge o w.2
    else if w.1 then s.startEdge o w.2
    else s.stopEdge o w.2 false) s

/-- Puts an edge among those that wait, by raw stamp. -/
def placeEdge (w : Bool × AuxStamp) : List (Bool × AuxStamp) → List (Bool × AuxStamp)
  | [] => [w]
  | x :: xs => if w.2.raw < x.2.raw then w :: x :: xs else x :: placeEdge w xs

/-- An edge of the interval unit: a start, a stop, or, for periods, both (R601). -/
def State.intervalEdge (s : State) (o : OfficeId) (x : Nat) (falling : Bool) (e : AuxStamp) : State :=
  let k := x * 2 + b2n falling
  let start := decide (s.rd o F.AUX_IVL_CFG_START_IN = x) && decide (s.rd o F.AUX_IVL_CFG_START_SLOPE = b2n falling)
  let stop := decide (s.rd o F.AUX_IVL_CFG_STOP_IN = x) && decide (s.rd o F.AUX_IVL_CFG_STOP_SLOPE = b2n falling)
  if s.flag o F.AUX_IVL_CFG_EN = false ∨ (start || stop) = false ∨ s.deadPassed o x (s.off o).aux.ivlLast k e.tick = false then s
  else s.modAux o fun a =>
    { a with ivlLast := Sparse.set 0 a.ivlLast k (e.tick + 1), ivlWait := placeEdge (start, e) a.ivlWait }

/-- AUX_EDGE (R599 to R601): an edge of AUXT_A, or of AUXT_B where `x`, as an office stamps it. -/
def execAuxEdge (o : OfficeId) (x falling : Bool) (tick : W64) (fine : BitVec 7) (s : State) : Out :=
  .next (
    let x := b2n x
    if (s.off o).inReset ∨ s.flag o F.AUX_CFG_EN x = false then s
    else
      let e := s.auxStamp o x tick.toNat fine.toNat
      let s := if s.rd o F.AUX_CFG_SLOPE x = b2n falling then s.meterEdge o x e else s
      (s.intervalEdge o x falling e).settleInterval o)

/-- INTERVAL_START_TIMEOUT (R601): a pending start older than `IVL_MAX` is dropped. -/
def execIntervalStartTimeout (o : OfficeId) (s : State) : Out :=
  .next (if (s.off o).inReset then s else let s := s.settleInterval o; s.dropOldStart o (s.off o).count.toNat)

/-- INTERVAL_READ (R602): a host read of `AUX_IVL_LO` moves the oldest result into the latch. -/
def State.readInterval (s : State) (o : OfficeId) : State :=
  let a := F.AUX_IVL_LO_D_L.off
  if (s.off o).inReset ∨ (s.off o).d3hot ∨ s.answersRead o a = false then s.hostRead o a
  else
    let s := s.settleInterval o
    let r := (s.off o).aux.fifo.head?
    let s := s.modAux o fun a => { a with fifo := a.fifo.drop 1 }
    let s := s.wr o F.AUX_IVL_STAT_FILL (s.off o).aux.fifo.length
    let d := (r.map (·.1)).getD 0
    let s := (s.wr o F.AUX_IVL_LO_D_L d).wr o F.AUX_IVL_HI_D_H (d / 2 ^ 32)
    let s := (s.wr o F.AUX_IVL_HI_VALID (b2n r.isSome)).wr o F.AUX_IVL_HI_SUB_BIN (b2n (r.any (·.2)))
    s.hostRead o a

/-- INTERVAL_READ (R602). -/
def execIntervalRead (o : OfficeId) (s : State) : Out := .next (s.readInterval o)

/-- AUX_CNT_CLR (R614). -/
def execAuxCntClr (o : OfficeId) (x : Bool) (v : W32) (s : State) : Out :=
  .next (s.clearWrite o (F.AUX_CNT_CLR_EDGE.addr (b2n x) 0) v.toNat (b2n x) [F.AUX_CNT_EDGE_COUNT, F.AUX_CNT_DEAD_COUNT])

/-- AUX_IVL_CLR (R615). -/
def execAuxIvlClr (o : OfficeId) (v : W32) (s : State) : Out :=
  .next (s.clearWrite o F.AUX_IVL_CLR_CNT.off v.toNat 0
    [F.AUX_CNT_ORDER_COUNT, F.AUX_CNT_NOSTART_COUNT, F.AUX_CNT_REPLACED_COUNT, F.AUX_CNT_TIMEOUT_COUNT, F.AUX_CNT_OVF_COUNT])

/-! ### Frequency by regression (R603) -/

/-- Sums of a fit over stamps in order: number, Σi, Σi², Σt, Σi·t. -/
def fitSums : List Int → Nat → Int × Int × Int × Int → Int × Int × Int × Int
  | [], _, a => a
  | t :: ts, i, (si, sii, st, sit) => fitSums ts (i + 1) (si + i, sii + i * i, st + t, sit + i * t)

/-- Whether every interval lies within ±`F_JIT` × 0.1 % of the mean interval `span / n`. -/
def jitterOk (jit : Nat) (n : Nat) (span : Int) : List Int → Bool
  | a :: b :: r => decide (((b - a) * n - span).natAbs * 1000 ≤ jit * span.natAbs) && jitterOk jit n span (b :: r)
  | _ => true

/-- A meter's result at stamp `now` (R603): f in µHz, or the cause of its failure. -/
def meterResult (jit : Nat) (now : Int) (ts : List Int) : Nat ⊕ Nat :=
  let n := ts.length
  let first := ts.headD 0
  let last := ts.getLastD 0
  let span := last - first
  if n < 3 then .inr 1
  else if jitterOk jit (n - 1) span ts = false then .inr 2
  else if 2 * span < (now - last) * ((n : Int) - 1) then .inr 3
  else
    let f := fitSums ts 0 (0, 0, 0, 0)
    let num := n * f.2.2.2 - f.1 * f.2.2.1
    let den := n * f.2.1 - f.1 * f.1
    .inl (roundDiv (12288000000000000000 * den) num.toNat).toNat

/-- FREQUENCY_UPDATE (R603): every `FUPD` ms. -/
def execFrequencyUpdate (o : OfficeId) (x : Bool) (s : State) : Out :=
  .next (
    let k := b2n x
    let a := (s.off o).aux
    let at_ := if x then a.updAt.b else a.updAt.a
    if (s.off o).inReset ∨ s.now < at_ + s.rd o F.AUX_F_CFG_FUPD k * ticksOfUs 1000 then s
    else
      let s := s.modAux o fun a => { a with updAt := if x then { a.updAt with b := s.now } else { a.updAt with a := s.now } }
      let c := (s.off o).count.toNat
      let gate := s.rd o F.AUX_F_CFG_FGATE k * ticksOfUs 1000
      let ts := ((if x then a.edges.b else a.edges.a).filter fun e => decide (c ≤ e.1 + gate)).map (·.2) |>.reverse
      let res := if s.flag o F.AUX_CFG_EN k then meterResult (s.rd o F.AUX_F_CFG_F_JIT k) (c * 8192) ts else .inr 4
      let was := s.flag o F.AUX_F_STAT_VALID k
      let s := s.wr o F.AUX_F_STAT_EDGES (if s.flag o F.AUX_CFG_EN k then ts.length else 0) k
      match res with
      | .inl f => ((s.wrPair o F.AUX_FREQ_LO_F_L F.AUX_FREQ_HI_F_H f k).wr o F.AUX_F_STAT_VALID 1 k).wr o F.AUX_F_STAT_CAUSE 0 k
      | .inr cause =>
        let s := (s.wr o F.AUX_F_STAT_VALID 0 k).wr o F.AUX_F_STAT_CAUSE cause k
        if was then s.raise o 0x0C05 (le 1 k ++ le 1 cause) else s)

/-- A new meter result reaches a loop (R572, R573). -/
def State.newFrequency (s : State) (k : Nat) (f : Option Nat) : State :=
  let l := s.loop k
  let step := match l.freq, f with
    | some p, some q => decide (s.srd F.LOOP_REP_CFG_F_TOL k * p < ((q : Int) - p).natAbs * 1000)
    | _, _ => false
  let s := if step && s.flag .A F.LOOP_REP_STAT_ACTIVE k then s.clearRep k 3 else s
  match f with
  | some q =>
    (s.modLoop k fun l => { l with freq := some q, freqAt := some s.now }).swr F.LOOP_REP_DPHI_DPHI
      (roundDiv (q * 2 ^ 32) 50000000000).toNat k
  | none => s.modLoop k fun l => { l with freq := none }

/-- FREQUENCY_HANDOFF (R572, R573, R603): the owner sends the meter's result to the service die. -/
def execFrequencyHandoff (o : OfficeId) (x : Bool) (s : State) : Out :=
  .next (
    let i := b2n x
    if s.owns o = false ∨ s.svc.inReset then s
    else
      let f := if s.flag o F.AUX_F_STAT_VALID i then some (s.rdPair o F.AUX_FREQ_LO_F_L F.AUX_FREQ_HI_F_H i) else none
      (List.range 2).foldl (fun s k => if s.srd F.LOOP_REP_CFG_SRC k = i then s.newFrequency k f else s) s)

/-! ### The status current loop (R605 to R608) -/

/-- Changes the status loop. -/
def State.modSl (s : State) (f : StatusLoop → StatusLoop) : State := s.modSvc fun d => { d with sl := f d.sl }

/-- The value of the source, in its units (R605, R613). -/
def State.slSource (s : State) : Int :=
  let c := s.srd F.SL_CFG_SRC
  if 1 ≤ c ∧ c ≤ 12 then s.pointTemp (c - 1)
  else if c = 13 ∨ c = 14 then toInt 32 (s.srd F.LOOP_Y_MV (c - 13))
  else if c = 15 ∨ c = 16 then toInt 32 (s.srd F.BIAS_I_IMEAS (c - 15))
  else
    match s.owner with
    | some o => toInt 16 (s.rd o F.THM_STAT_T_MAX)
    | none => 0

/-- The current of the measurement signal in µA (R605). -/
def State.slValue (s : State) : Nat :=
  if s.srd F.SL_CFG_SRC = 0 then 4000
  else
    let lo := toInt 32 (s.srd F.SL_LO_LO)
    let hi := toInt 32 (s.srd F.SL_HI_HI)
    let v := s.slSource
    let n := if lo < hi then 16000 * (v - lo) else 16000 * (lo - v)
    (clampI 3800 20500 (4000 + roundDiv n (hi - lo).natAbs)).toNat

/-- The modes in which a force holds (R608). -/
def State.forceAllowed (s : State) : Bool := decide (s.moduleMode = .standby) || decide (s.moduleMode = .held)

/-- Ends a force that its mode or its time no longer allows (R608). -/
def State.endForce (s : State) : State :=
  if s.forceAllowed ∧ s.svc.sl.forceUntil.all (fun t => decide (s.now < t)) then s
  else (s.swr F.SL_FORCE_EN 0).modSl fun l => { l with forceUntil := none }

/-- Whether the fault level holds at this evaluation: a masked cause is active or was, or one was within `FHOLD` (R605, R606). -/
def State.faultLevel (s : State) (causes : Nat) : Bool × Option Nat :=
  let masked := causes &&& s.srd F.SL_MASK_MASK
  let since := s.svc.sl.clearSince.getD s.now
  if masked ≠ 0 then (true, none)
  else if s.srd F.SL_STAT_LEVEL = 1 ∧ s.now < since + s.srd F.SL_CFG_FHOLD * ticksOfUs 100000 then (true, some since)
  else (false, some since)

/-- STATUS_LOOP_UPDATE (R605, R606): every 1 ms. -/
def execStatusLoopUpdate (s : State) : Out :=
  .next (
    if s.svc.inReset then s
    else
      let s := s.endForce
      let now := s.causesNow
      let start := !s.svc.sl.configured || decide (s.moduleMode = .dormant) || decide (s.moduleMode = .fallback)
      let f := s.faultLevel (now ||| s.svc.sl.latched)
      let was := s.srd F.SL_STAT_LEVEL
      let s := (s.swr F.SL_STAT_CAUSES now).modSl fun l => { l with latched := 0, clearSince := f.2 }
      let s := if start then (s.swr F.SL_STAT_LEVEL 3).swr F.SL_STAT_UA_SET 3500
        else if f.1 then (s.swr F.SL_STAT_LEVEL 1).swr F.SL_STAT_UA_SET (if s.srd F.SL_CFG_FAIL_DIR = 1 then 21500 else 3500)
        else if s.srd F.SL_FORCE_EN = 1 then (s.swr F.SL_STAT_LEVEL 2).swr F.SL_STAT_UA_SET (s.srd F.SL_FORCE_UA)
        else (s.swr F.SL_STAT_LEVEL 0).swr F.SL_STAT_UA_SET s.slValue
      let level := s.srd F.SL_STAT_LEVEL
      if level = 1 ∧ was ≠ 1 then s.raiseSvc 0x0C07 (le 2 now ++ le 1 0)
      else if was = 1 ∧ level ≠ 1 then s.raiseSvc 0x0C07 (le 2 now ++ le 1 1)
      else s)

/-- A write of `SL_FORCE` (R608): in Standby and Held only; a current out of range leaves `UA` (R5). -/
def State.writeForce (s : State) (o : OfficeId) (v : Nat) : State :=
  let addr := F.SL_FORCE_EN.off
  if s.takesWrites o ∧ s.owns o ∧ s.forceAllowed = false then s.journal o addr v false
  else
    let old := s.srd F.SL_FORCE_UA
    let ua := bitsOf v 0 15
    let bad := decide (ua < 3500) || decide (21500 < ua)
    let r := s.hostWrite o addr v
    if r.2 = false then r.1
    else
      let s := if bad then (r.1.swr F.SL_FORCE_UA old).refuse5 o addr v else r.1
      s.modSl fun l => { l with forceUntil := if bitsOf v 31 1 = 1 then some (s.now + ticksOfUs 60000000) else none }

/-- SL_FORCE_WRITE (R608). -/
def execSlForceWrite (o : OfficeId) (v : W32) (s : State) : Out := .next (s.writeForce o v.toNat)

/-- SL_FORCE_EXPIRY (R608): 60 s after its write a force ends. -/
def execSlForceExpiry (s : State) : Out :=
  .next (if s.svc.sl.forceUntil.any fun t => decide (t ≤ s.now) then s.endForce else s)

end Sys2Proof.Machine
end

