-- ==== Sys2Proof/Machine/Emitters.lean ====
section
/-! DEFINITION. The matrix driver of the calibration emitters (16 R617 to R627). -/

namespace Sys2Proof.Machine

/-- Changes the emitter driver. -/
def State.modEmt (s : State) (f : Emitter → Emitter) : State := s.modSvc fun d => { d with emt := f d.emt }

/-- Modes in which the driver executes flashes (R623). -/
def Mode.flashes : Mode → Bool
  | .standby | .calibration | .streaming | .selective => true
  | _ => false

/-! ### The end of a flash (R622, R625 to R627) -/

/-- Sets the state of an emitter in `EMT_STATE` (R636). -/
def State.setEmitter (s : State) (e v : Nat) : State :=
  s.swr F.EMT_STATE_E (setBits (s.srd F.EMT_STATE_E (e / 16)) (2 * (e % 16)) 2 v) (e / 16)

/-- A verification pulse of an emitter (R627): `seen` tells whether it carried the current. -/
def State.verifyPulse (s : State) (e : Nat) (seen : Bool) : State :=
  let isOpen := decide (s.emitterState e = 2)
  let n := if seen = isOpen then Sparse.get 0 s.svc.emt.verRun e + 1 else 0
  let s := s.modEmt fun m =>
    { m with verAt := Sparse.set 0 m.verAt e (s.now + 1), verRun := Sparse.set 0 m.verRun e (if 2 ≤ n then 0 else n) }
  if isOpen then if 2 ≤ n then s.setEmitter e 1 else s
  else if seen then s.setEmitter e 1
  else if 2 ≤ n then (s.setEmitter e 2).raiseSvc 0x0D01 (le 1 (e / 16) ++ le 1 (e % 16))
  else s

/-- What the pulse of a slot leaves when the flash ends at tick `upto`: a row that stayed at its limit for 8 ticks is
excluded, else a pulse that reached its 60th tick verifies its emitters (R626, R627). -/
def State.endSlot (s : State) (f : Flash) (upto : Nat) (x : FlashSlot × Nat) : State :=
  let row := x.1.row.toNat
  let ran := min x.2 (upto - x.1.start.toNat)
  if bitsOf f.overCurrent.toNat row 1 = 1 ∧ 8 ≤ ran then
    (s.swr F.EMT_STAT_ROW_OVC (s.srd F.EMT_STAT_ROW_OVC ||| 2 ^ row)).raiseSvc 0x0D06 (le 1 row)
  else if 60 ≤ ran then
    ((List.range 16).filter fun c => bitsOf x.1.cols.toNat c 1 = 1).foldl (fun s c =>
      s.verifyPulse (row * 16 + c) (!f.noCurrent.contains (BitVec.ofNat 8 (row * 16 + c)))) s
  else s

/-- The flash under way ends at `upto`: its pulses have their effects, and its report goes to the owner (R623). -/
def State.endFlash (s : State) (upto : Nat) (cut suppressed : Bool) : State :=
  match s.svc.emt.flash with
  | none => s
  | some f =>
    let s := if f.report.suppressed then s else (f.report.slots.zip f.widths).foldl (fun s x => s.endSlot f upto x) s
    (s.modEmt fun m => { m with flash := none }).emit
      (.flashReport { f.report with cut := cut, suppressed := f.report.suppressed || suppressed })

/-- Every flash is SUPPRESSED from now on, and one under way ends (R625, R640). -/
def State.suppressNow (s : State) : State :=
  match s.svc.emt.flash with
  | some f =>
    if f.report.suppressed then s
    else (s.endFlash s.svc.count.toNat true true).countUp .A F.EMT_CNT_SUPPR_COUNT
  | none => s

/-- Exchanges the two frame buffers (R620). -/
def State.swapBuffers (s : State) : State :=
  [(F.EMT_FRONT_ICODE, F.EMT_BACK_ICODE), (F.EMT_FRONT_COLS, F.EMT_BACK_COLS), (F.EMT_FRONT1_WIDTH, F.EMT_BACK1_WIDTH)].foldl
    (fun s p => (List.range 16).foldl (fun s r =>
      let a := s.srd p.1 r
      let b := s.srd p.2 r
      (s.swr p.1 b r).swr p.2 a r) s) s

/-- Shows the running sequence (R635). -/
def State.setRun (s : State) (r : Option FlashRun) : State :=
  let s := (s.modEmt fun m => { m with run := r }).swr F.EMT_STAT_RUN (b2n r.isSome)
  match r with
  | some x => s.swr F.EMT_STAT_SEQ_ACT x.seq
  | none => s

/-- Flashes that a sequence makes: `REPEAT`, or one for a FLASH_SYNC edge (R621). -/
def State.runLength (s : State) (r : FlashRun) : Nat := if r.source = 1 then 1 else s.srd F.EMT_SEQ_REPEAT_REPEAT r.seq

/-- What the passing of ticks does to the driver: a flash ends, then its sequence after the last one, and buffers that wait
are exchanged in a later tick in which no flash runs (R618, R620, R621). -/
def State.settleEmitter (s : State) : State :=
  let s := match s.svc.emt.flash with
    | some f => if f.ends ≤ s.svc.count.toNat then s.endFlash f.ends false false else s
    | none => s
  let s := match s.svc.emt.run with
    | some r => if s.svc.emt.flash.isNone ∧ s.runLength r ≤ r.num then s.setRun none else s
    | none => s
  match s.svc.emt.swap with
  | some t =>
    if s.svc.emt.flash.isNone ∧ t < s.now then (s.swapBuffers).modEmt fun m => { m with swap := none } else s
  | none => s

/-! ### Derating and shutdown (R624, R625) -/

/-- A flash that does not run is counted and reported (R623). -/
def State.missFlash (s : State) (seq tick : Nat) : State :=
  (s.countUp .A F.EMT_CNT_MISS_COUNT).raiseSvc 0x0D07 (le 2 seq ++ le 8 tick)

/-- Follows T_d: pulsing stops when it reaches `T_SHUT` (R625). -/
def State.checkShut (s : State) : State :=
  let td := s.emitterTd
  let s := s.swr F.EMT_TD_TD (ofInt 16 td)
  if s.srd F.EMT_STAT_SHUT = 0 ∧ (s.srd F.EMT_CFG_T_SHUT * 100 : Nat) ≤ td then
    ((s.suppressNow).swr F.EMT_STAT_SHUT 1).raiseSvc 0x0D03 (le 2 (ofInt 16 td) ++ le 1 0)
  else s

/-- At a flash start pulsing resumes once T_d has fallen below `T_SHUT` - 5 K (R625). -/
def State.resumePulsing (s : State) : State :=
  let td := s.emitterTd
  if s.srd F.EMT_STAT_SHUT = 1 ∧ td < ((s.srd F.EMT_CFG_T_SHUT : Int) - 5) * 100 then
    (s.swr F.EMT_STAT_SHUT 0).raiseSvc 0x0D03 (le 2 (ofInt 16 td) ++ le 1 1)
  else s

/-- f of R624 as a fraction over 6,000, with the cap of throttle level 1 (R647). -/
def State.derating (s : State) : Nat :=
  let td := s.emitterTd
  let f := if td ≤ 7000 then 6000 else if td ≤ 10000 then (13000 - td).toNat else 3000
  if 1 ≤ s.srd F.THM_STAT_LEVEL then min f 3000 else f

/-- The current code after derating by `f` / 6,000: floor((max(10, f * I) - 10) / 2) (R619, R624). -/
def deratedCode (f icode : Nat) : Nat := (f * (10 + 2 * icode) - 10 * 6000) / 12000

/-- Whether flashes are suppressed: shutdown, VEMIT off, or throttle level 2 (R625, R640, R647). -/
def State.suppresses (s : State) : Bool :=
  s.srd F.EMT_STAT_SHUT = 1 || s.srd F.PWR_STAT_EMT_OFF = 1 || decide (2 ≤ s.srd F.THM_STAT_LEVEL)

/-! ### A flash (R617 to R621) -/

/-- A row word of pattern `p`, 0 for the front buffer: current code, columns, and pulse ticks (R619). -/
def State.rowWord (s : State) (p r : Nat) : Nat × Nat × Nat :=
  if p = 0 then (s.srd F.EMT_FRONT_ICODE r, s.srd F.EMT_FRONT_COLS r, s.srd F.EMT_FRONT1_WIDTH r + 1)
  else (s.srd F.EMT_PAT_ICODE (p - 1) r, s.srd F.EMT_PAT_COLS (p - 1) r, s.srd F.EMT_PAT1_WIDTH (p - 1) r + 1)

/-- The slots of a flash from tick `t` on, in ascending rows: row, columns, derated code, start and length of the pulse
(R618); rows excluded under R626 have none. -/
def State.flashSlots (s : State) (p f : Nat) : Nat → List Nat → List (FlashSlot × Nat)
  | _, [] => []
  | t, r :: rs =>
    let w := s.rowWord p r
    if w.2.1 = 0 ∨ bitsOf (s.srd F.EMT_STAT_ROW_OVC) r 1 = 1 then s.flashSlots p f t rs
    else
      let e := t + s.srd F.EMT_CFG_PRE_TICKS
      ({ row := BitVec.ofNat 4 r, start := BitVec.ofNat 64 e, code := BitVec.ofNat 8 (deratedCode f w.1),
         cols := BitVec.ofNat 16 w.2.1 }, w.2.2) :: s.flashSlots p f (e + w.2.2) rs

/-- The end of a flash's last pulse. -/
def slotsEnd (f0 : Nat) (xs : List (FlashSlot × Nat)) : Nat :=
  match xs.getLast? with
  | some x => x.1.start.toNat + x.2
  | none => f0

/-- A flash of the running sequence at tick `f0` (R618, R624, R625). The FLASH source is true there (R339). -/
def State.fireFlash (s : State) (r : FlashRun) (f0 : Nat) (noCurrent : List Byte) (overCurrent : W16) : State :=
  let s := (s.endFlash f0 true false).checkShut.resumePulsing
  let f := s.derating
  let off := s.suppresses
  let xs := s.flashSlots (s.srd F.EMT_SEQ_PATTERN_PATTERN r.seq) f f0
    (List.range 16)
  let s := (s.swr F.EMT_STAT_F (f * 128 / 6000)).swr F.EMT_LAST_F0_LO_TICK_L f0
  let s := s.swr F.EMT_LAST_F0_HI_TICK_H (f0 / 2 ^ 32)
  let s := if off then s.countUp .A F.EMT_CNT_SUPPR_COUNT
    else xs.foldl (fun s x => s.emit (.emitterPulse x.1.row.toNat x.1.cols.toNat x.1.code.toNat x.1.start.toNat x.2)) s
  let s := match s.owner with
    | some o => s.modOff o fun d => { d with flashTicks := (f0 :: d.flashTicks).take 64 }
    | none => s
  let rep : FlashReport :=
    { f0 := BitVec.ofNat 64 f0, seq := BitVec.ofNat 6 r.seq, num := BitVec.ofNat 16 r.num, slots := xs.map (·.1), cut := false,
      suppressed := off }
  s.modEmt fun m => { m with flash := some { report := rep, widths := xs.map (·.2), ends := slotsEnd f0 xs,
                                             noCurrent := noCurrent, overCurrent := overCurrent } }

/-- FLASH_START (R618, R621 to R627): the next flash of the running sequence, once its tick has come. `noCurrent` lists the
emitters that carry less than half the row current, `overCurrent` the rows that stay at their limit for 8 ticks. -/
def execFlashStart (noCurrent : List Byte) (overCurrent : W16) (s : State) : Out :=
  .next (
    let s := s.settleEmitter
    match s.svc.emt.run with
    | none => s
    | some r =>
      let f0 := r.f0 + r.num * s.srd F.EMT_SEQ_PERIOD_PERIOD r.seq
      if s.svc.inReset ∨ s.svc.count.toNat < f0 ∨ s.runLength r ≤ r.num then s
      else
        let s := s.setRun (some { r with num := r.num + 1 })
        (if s.moduleMode.flashes then s.fireFlash r f0 noCurrent overCurrent else s.missFlash r.seq f0).settleEmitter)

/-! ### Starts (R621 to R623) -/

/-- A host or FLASH_SYNC start that finds a sequence running is refused (R622). -/
def State.busyFlash (s : State) (source seq : Nat) : State :=
  (s.countUp .A F.EMT_CNT_BUSY_COUNT).raiseSvc 0x0D05 (le 1 source ++ le 1 seq)

/-- `EMT_CTL.GO` (R621 to R623). -/
def State.startSequence (s : State) (seq : Nat) : State :=
  if s.svc.emt.run.isSome then s.busyFlash 0 seq
  else if s.moduleMode.flashes = false ∨ s.srd F.EMT_SEQ_REPEAT_REPEAT seq = 0 then s.missFlash seq s.svc.count.toNat
  else s.setRun (some { seq := seq, f0 := (s.svc.count.toNat + 3000 + 1023) / 1024 * 1024, source := 0 })

/-- A write of `EMT_CTL`: starts a sequence, exchanges the buffers, clears `ROW_OVC` (R620, R621, R626). -/
def State.writeEmtCtl (s : State) (o : OfficeId) (v : Nat) : State :=
  let r := (s.settleEmitter).hostWrite o F.EMT_CTL_GO.off v
  let s := r.1
  if r.2 = false then s
  else
    let s := if bitsOf v 29 1 = 1 then s.swr F.EMT_STAT_ROW_OVC 0 else s
    let s := if bitsOf v 30 1 = 1 then s.modEmt fun m => { m with swap := some s.now } else s
    if bitsOf v 31 1 = 1 then s.startSequence (bitsOf v 0 6) else s

/-- GO (R621). -/
def execGo (o : OfficeId) (v : W32) (s : State) : Out := .next (s.writeEmtCtl o v.toNat)

/-- BUFFER_SWAP (R620). -/
def execBufferSwap (o : OfficeId) (v : W32) (s : State) : Out := .next (s.writeEmtCtl o v.toNat)

/-- ROW_CLR (R626). -/
def execRowClr (o : OfficeId) (v : W32) (s : State) : Out := .next (s.writeEmtCtl o v.toNat)

/-- FLASH_SYNC_EDGE (R621 to R623): the synchroniser output rises in this tick. -/
def execFlashSyncEdge (s : State) : Out :=
  .next (
    let s := s.settleEmitter
    let seq := s.srd F.EMT_CFG_SYNC_SEQ
    if s.svc.inReset ∨ s.srd F.EMT_CFG_SYNC_EN = 0 then s
    else if s.svc.emt.run.isSome then s.busyFlash 1 seq
    else if s.moduleMode.flashes = false then s.missFlash seq s.svc.count.toNat
    else s.setRun (some { seq := seq, f0 := s.svc.count.toNat + 2, source := 1 }))

/-- FLASH (R406, R622, R623): at S the named sequence starts; a sequence still running ends, and its pulse in progress is
cut. -/
def execFlash (s : State) : Out :=
  .next (s.settleEmitter.runDue 4 fun s b =>
    let seq := ofLe (b.arg.take 2)
    if 63 < seq ∨ s.srd F.EMT_SEQ_REPEAT_REPEAT seq = 0 ∨ s.moduleMode.flashes = false then s.missFlash seq b.tick
    else (s.endFlash b.tick true false).setRun (some { seq := seq, f0 := b.tick, source := 2 }))

/-- VER_AGE_EXPIRY (R627): `VER_AGE` seconds without a verification pulse. -/
def execVerAgeExpiry (emitter : Byte) (s : State) : Out :=
  .next (
    let e := emitter.toNat
    let age := s.srd F.EMT_VER_VER_AGE
    let at_ := Sparse.get 0 s.svc.emt.verAt e
    if s.svc.inReset ∨ age = 0 ∨ at_ = 0 ∨ s.now < at_ - 1 + ticksOfUs (age * 1000000) ∨ s.emitterState e = 0 then s
    else
      let s := (s.setEmitter e 0).modEmt fun m => { m with verRun := Sparse.set 0 m.verRun e 0 }
      if s.svc.emt.verNoted.contains e then s
      else (s.modEmt fun m => { m with verNoted := e :: m.verNoted }).raiseSvc 0x0D02 (le 1 (e / 16) ++ le 1 (e % 16)))

/-- EMT_CNT_CLR (R636). -/
def execEmtCntClr (o : OfficeId) (v : W32) (s : State) : Out :=
  .next (s.clearWrite o F.EMT_CNT_CLR_BUSY.off v.toNat 0
    [F.EMT_CNT_BUSY_COUNT, F.EMT_CNT_MISS_COUNT, F.EMT_CNT_SUPPR_COUNT])

/-- FLASH_REPORT_RX (R623, R629): the owner keeps the reports of the latest 64 flashes. -/
def execFlashReportRx (o : OfficeId) (r : FlashReport) (s : State) : Out :=
  .next (
    if (s.off o).inReset ∨ s.owns o = false then s
    else s.modOff o fun d =>
      { d with cal := { d.cal with reports := (r :: d.cal.reports.filter fun x => x.f0 ≠ r.f0).take 64 } })

end Sys2Proof.Machine
end

