-- ==== Sys2Proof/Machine/Retirement.lean ====
section
/-! DEFINITION. Page commands: refresh and retirement (18 R681, R682, R691, R709). -/

namespace Sys2Proof.Machine

/-- Whether a page of an array exists (R676, R709). -/
def pageExists (a page : Nat) : Bool :=
  if a = 5 then decide (pageRange 5 page ≠ []) else decide (page * pageWords a < arrayWords a)

/-- Ends a page command with a refusal (R691). -/
def State.refusePage (s : State) (o : OfficeId) (v res : Nat) : State :=
  (s.wr o F.ERR_PAGE_RES_RESULT res).raise o 0x0F24 (le 4 v ++ le 1 res)

/-- The office that `OFFICE` of a command names. -/
def pageTarget (v : Nat) : OfficeId := if bitsOf v 27 1 = 1 then .B else .A

/-- The spares of an office that hold a page, have been retired, or are named by an entry of the volume (R682). -/
def State.sparesTaken (s : State) (o x : OfficeId) : List Nat :=
  ((s.off x).spareOf.flatMap fun e => if 2 ^ 20 ≤ e.1 then [e.1 - 2 ^ 20, e.2 - 1] else [e.2 - 1]) ++
    ((s.book o).filter fun e => decide (entryKind e = bkRetire) && decide (fieldAt e 49 1 = officeBit x)).map fun e => fieldAt e 56 2

/-- The spare that a retirement takes: the lowest free one that is not the page itself. -/
def State.freeSpare (s : State) (o x : OfficeId) (a page : Nat) : Option Nat :=
  (List.range 64).find? fun k => !(s.sparesTaken o x).contains k && !(decide (a = 7) && decide (page = k))

/-- Whether a page is retired already. -/
def Office.pageRetired (d : Office) (a page : Nat) : Bool :=
  if a = 6 then d.sto.retired.contains page || d.sto.leaving.contains page
  else decide (Sparse.get 0 d.spareOf (if a = 0 then page else 2 ^ 20 + page) ≠ 0)

/-- `RESULT` of a retirement before it is recorded, 0 where nothing refuses it (R691). -/
def State.retireFault (s : State) (o : OfficeId) (v : Nat) : Nat :=
  let a := bitsOf v 20 4
  let page := bitsOf v 0 20
  let x := pageTarget v
  if s.owns o = false then 6
  else if a ≠ 0 ∧ a ≠ 6 ∧ a ≠ 7 then 1
  else if (s.off x).pageRetired a page then 3
  else if a = 6 then (if 16 ≤ (s.off x).sto.retired.length + (s.off x).sto.leaving.length then 2 else 0)
  else if (s.freeSpare o x a page).isNone then 2
  else 0

/-- A retirement of a page of the owner itself is applied; the command ends with it (R682). -/
def State.retireOwn (s : State) (o : OfficeId) (a page spare : Nat) : State :=
  let s := s.applyRetirement o a page spare
  if a = 6 then s.pageResult o 0 0 0 else s

/-- The owner records a RETIRE entry, mirrors it, and applies what is its own (R682). -/
def State.recordRetire (s : State) (o : OfficeId) (v : Nat) : State :=
  let a := bitsOf v 20 4
  let page := bitsOf v 0 20
  let x := pageTarget v
  let spare := if a = 6 then 0xFFFF else (s.freeSpare o x a page).getD 0
  let seq := s.nextSeq o
  let e := s.entryBytes o { kind := bkRetire, inline_ := le 1 a ++ le 1 (officeBit x) ++ le 2 0 ++ le 4 page ++ le 2 spare }
  let s := ((s.storeEntry o e []).mirrorEntry o e []).raise o 0x0F23 (le 1 a ++ le 1 (officeBit x) ++ le 3 page ++ le 2 spare ++ le 4 seq)
  if x = o then s.retireOwn o a page spare else s.pageResult o 0 0 0

/-- The entry cannot be recorded: a page of the owner itself is retired until reset, one of the relief not at all (R682). -/
def State.retireUnrecorded (s : State) (o : OfficeId) (v : Nat) : State :=
  let a := bitsOf v 20 4
  let page := bitsOf v 0 20
  let x := pageTarget v
  if x = o then
    (s.raise o 0x0F25 (le 1 a ++ le 3 page)).retireOwn o a page (if a = 6 then 0xFFFF else (s.freeSpare o x a page).getD 0)
  else (s.pageResult o 0 0 0).refusePage o v 7

/-- Records, or finds that the book is full (R498). -/
def State.runRetire (s : State) (o : OfficeId) (v : Nat) : State :=
  if s.bookRoom o 1 0 then s.recordRetire o v else s.retireUnrecorded o v

/-- A retirement starts; while the NVM window is closed it waits (R488). -/
def State.startRetire (s : State) (o : OfficeId) (v : Nat) : State :=
  let s := s.wr o F.ERR_PAGE_CMD_BUSY 1
  if s.nvmOpen o then s.runRetire o v
  else
    let p := s.draw 8
    (p.2.raise o 0x0911 [BitVec.ofNat 8 p.1, 0]).modOff o fun d => { d with pageWait := some (v, s.now) }

/-- The NVM window opens: a retirement that waits is recorded (R488). -/
def State.resumeRetire (s : State) (o : OfficeId) : State :=
  match (s.off o).pageWait with
  | some w => (s.modOff o fun d => { d with pageWait := none }).runRetire o w.1
  | none => s

/-- A retirement that has waited for 60 s cannot be recorded (R488, R682). -/
def State.expireRetire (s : State) (o : OfficeId) : State :=
  match (s.off o).pageWait with
  | some w =>
    if s.now < w.2 + ticksOfUs 60000000 then s
    else
      let p := s.draw 8
      ((p.2.raise o 0x0911 [BitVec.ofNat 8 p.1, 1]).modOff o fun d => { d with pageWait := none }).retireUnrecorded o w.1
  | none => s

/-- A refresh: of arrays 0x0 to 0x3 between the merges of two rounds, of the others at once (R681). -/
def State.startRefresh (s : State) (o : OfficeId) (v : Nat) : State :=
  let a := bitsOf v 20 4
  let page := bitsOf v 0 20
  if a ≤ 3 then
    (s.wr o F.ERR_PAGE_CMD_BUSY 1).modOff o fun d => { d with mrg := { d.mrg with jobs := d.mrg.jobs ++ [.refresh a page] } }
  else s.refreshPage o a page

/-- A write of `ERR_PAGE_CMD` (R681, R682, R691). -/
def State.writePageCmd (s : State) (o : OfficeId) (v : Nat) : State :=
  s.hostAction o F.ERR_PAGE_CMD_GO.off v 31 fun s =>
    if s.flag o F.ERR_PAGE_CMD_BUSY then s.refusePage o v 5
    else if pageExists (bitsOf v 20 4) (bitsOf v 0 20) = false then s.refusePage o v 4
    else if bitsOf v 28 2 = 0 then s.startRefresh o v
    else
      let f := s.retireFault o v
      if f ≠ 0 then s.refusePage o v f else s.startRetire o v

/-- REFRESH (R681). -/
def execRefresh (o : OfficeId) (v : W32) (s : State) : Out := .next (s.writePageCmd o v.toNat)

/-- RETIRE (R682). -/
def execRetire (o : OfficeId) (v : W32) (s : State) : Out := .next (s.writePageCmd o v.toNat)

end Sys2Proof.Machine
end

