-- ==== Sys2Proof/Machine/Calibration.lean ====
section
/-! DEFINITION. The calibration service (16 R629 to R634), the end of a code-density pass (03 R115), and the NVM window of an
office (12 R488). -/

namespace Sys2Proof.Machine

/-- Changes the calibration service. -/
def State.modCal (s : State) (o : OfficeId) (f : CalSvc → CalSvc) : State := s.modOff o fun d => { d with cal := f d.cal }

/-! ### Evaluation (R633) -/

/-- District bytes whose primary path slot is enabled. -/
def Office.litDistricts (d : Office) : List Nat :=
  (List.range 256).filter fun db => let p := d.pathSlot db 0; p.en && decide (p.modid = 0)

/-- A cell's candidate: ΔO where the cell accepts (R633). A word 3 that reads uncorrectable has none. -/
def State.cellStep (s : State) (o : OfficeId) (ch : Nat) : Option Int :=
  let w := ch * 4 + 3
  if (s.off o).arrClass 0 w = .uncorrectable then none
  else
    let x := (s.off o).arrRead 0 w
    let n := bitsOf x 30 10
    let step := roundDiv (8 * toInt 30 (bitsOf x 0 30)) n
    if s.rd o F.EMT_CAL_LIM_MIN_N ≤ n ∧ step.natAbs ≤ s.rd o F.EMT_CAL_LIM_MAX_STEP then some step else none

/-- Reads one cell's accumulators: the steps accepted so far and their number (R633). -/
def State.takeCell (o : OfficeId) (x : State × Sparse Int × Nat) (ch : Nat) : State × Sparse Int × Nat :=
  let s := x.1.arrTouch o 0 (ch * 4 + 3)
  match s.cellStep o ch with
  | some d => (s, Sparse.set 0 x.2.1 ch d, x.2.2 + 1)
  | none => (s, x.2)

/-- The module offset: ΔM where it is accepted, else 0 (R633). -/
def State.moduleStep (s : State) (o : OfficeId) : Int :=
  let n := s.rd o F.EMT_CAL_XN_XN
  let dm := roundDiv (s.rd o F.EMT_CAL_CFG_XGAIN * toInt 32 (s.rd o F.EMT_CAL_XSUM_XSUM)) n
  if s.srd F.TB_STAT_HEAD = 0 ∧ s.rd o F.EMT_CAL_XMIN_MIN_XN ≤ n ∧ dm.natAbs ≤ s.rd o F.EMT_CAL_LIM_MAX_STEP then dm else 0

/-- The new values of a walk table (R633): by table * 64 + bin, the new value plus 2^13. A value outside an entry's 13 bits is a
free value. -/
def State.takeWalk (o : OfficeId) (x : State × Sparse Int) (table : Nat) : State × Sparse Int :=
  let c := (x.1.off o).cal
  let n := fun k => Sparse.get 0 c.walkN (table * 64 + k)
  let sm := fun k => Sparse.get 0 c.walkS (table * 64 + k)
  let bins := List.range 64
  let mean := roundDiv (bins.map sm).sum (bins.map n).sum
  (bins.filter fun k => x.1.rd o F.EMT_CAL_LIM_MIN_N ≤ n k).foldl (fun x k =>
    let s := x.1.arrUse o 2 (entryWord 64 table k)
    let v := entryVal ((s.off o).entry 2 64 table k) + roundDiv (sm k) (n k) - mean
    if satI 13 v = v then (s, Sparse.set 0 x.2 (table * 64 + k) (v + 8192))
    else
      let p := s.draw 13
      (p.2, Sparse.set 0 x.2 (table * 64 + k) (toInt 13 p.1 + 8192))) x

/-! ### Deltas (R634) -/

/-- The DATA item over the low word of context word 1 of the changed cells, from the first to the last of them: none where no
cell changes. `steps` are the accepted ΔO, `dm` is ΔM. A sum outside 20 bits is a free value. -/
def State.cellItem (s : State) (o : OfficeId) (steps : Sparse Int) (dm : Int) : State × List Item :=
  let first := if dm ≠ 0 then some 0 else steps.head?.map (·.1)
  let last := if dm ≠ 0 then 2 ^ 20 - 1 else (steps.getLast?.map (·.1)).getD 0
  match first with
  | none => (s, [])
  | some f =>
    let r := (List.range (last + 1 - f)).foldl (fun (x : State × List Byte) i =>
      let ch := f + i
      let w := bitsOf ((x.1.off o).arrRead 0 (ch * 4 + 1)) 0 32
      let v := toInt 20 w + Sparse.get 0 steps ch + dm
      let p := if satI 20 v = v then (ofInt 20 v, x.1) else x.1.draw 20
      (p.2, (le 4 (setBits w 0 20 p.1)).reverse ++ x.2)) (s, [])
    (r.1, [{ kind := 2, esize := 4, target := 0x2000000 + 32 * f + 8, count := last + 1 - f, stride := 32, count2 := 0, stride2 := 0,
             data := r.2.reverse }])

/-- The DATA item of a walk table with its new values and their `RES` (R106, R634). -/
def State.walkItem (s : State) (o : OfficeId) (walk : Sparse Int) (table : Nat) : Item :=
  { kind := 2, esize := 2, target := 0x0380000 + 128 * table, count := 64, stride := 2, count2 := 0, stride2 := 0
    data := (List.range 64).flatMap fun k =>
      let v := Sparse.get 0 walk (table * 64 + k)
      le 2 (if v = 0 then (s.off o).entry 2 64 table k else makeEntry (v - 8192)) }

/-- What a campaign's delta writes (R633, R634). -/
def State.campaignItems (s : State) (o : OfficeId) : State × List Item :=
  let c := (s.off o).cal
  let r := s.cellItem o c.offsets (toInt 32 (s.rd o F.EMT_CAL_DM_DM))
  (r.1, r.2 ++ ((List.range 512).filter fun t => c.walk.any fun e => e.1 / 64 = t).map (r.1.walkItem o c.walk))

/-- A delta that needs the closed NVM window waits (R488). -/
def State.waitDelta (s : State) (o : OfficeId) : State :=
  if (s.off o).cal.waitSince.isSome then s
  else
    let p := s.draw 8
    (p.2.modCal o fun c => { c with waitSince := some s.now }).raise o 0x0911 [BitVec.ofNat 8 p.1, 0]

/-- Records a delta, mirrors it and applies it (R634, R495). -/
def State.recordDelta (s : State) (o : OfficeId) (items : List Item) : State :=
  let persist := s.flag o F.EMT_CAL_CFG_PERSIST
  let b := items.flatMap Item.bytes
  let seq := s.nextSeq o
  let e := s.entryBytes o { kind := bkDelta, flags := b2n persist, inline_ := s.imageMeas o, body := if persist then b else [] }
  let s := ((s.storeEntry o e (if persist then b else [])).mirrorEntry o e b).modCal o fun c => { c with waitSince := none }
  if items = [] then (s.wr o F.SORT_CAL_EPOCH_EPOCH seq).deltaApplied o seq []
  else s.applyAmendment o seq 0 true items

/-- Whether the book has room for a delta (R498). -/
def State.deltaRoom (s : State) (o : OfficeId) (items : List Item) : Bool :=
  s.bookRoom o 1 (if s.flag o F.EMT_CAL_CFG_PERSIST then (items.flatMap Item.bytes).length else 0)

/-- A delta that cannot be recorded is given up; the spec names no cause for 0x0D12. -/
def State.dropDelta (s : State) (o : OfficeId) : State :=
  let p := (s.modCal o fun c => { c with waitSince := none }).draw 8
  p.2.raise o 0x0D12 (le 4 0 ++ le 1 p.1)

/-- APPLYING (R634): the delta is recorded once the NVM window is open. -/
def State.applyCampaign (s : State) (o : OfficeId) : State :=
  if s.nvmOpen o = false then s.waitDelta o
  else
    let r := s.campaignItems o
    if s.deltaRoom o r.2 then r.1.recordDelta o r.2 else (s.wr o F.EMT_CAL_STAT_STATE 0).dropDelta o

/-- Candidates of a code-density pass are applied in a delta of their own while the service is IDLE (R634). -/
def State.settleDelta (s : State) (o : OfficeId) : State :=
  let items := (s.off o).cal.waiting
  if items = [] ∨ s.owns o = false ∨ s.rd o F.EMT_CAL_STAT_STATE ≠ 0 then s
  else if s.nvmOpen o = false then s.waitDelta o
  else
    let s := s.modCal o fun c => { c with waiting := [] }
    if s.deltaRoom o items then s.recordDelta o items else s.dropDelta o

/-! ### Campaigns (R631 to R634) -/

/-- START: the campaign runs in Calibration, Streaming and Selective; the accumulators are cleared, word 3 under R202. -/
def State.startCampaign (s : State) (o : OfficeId) : State :=
  if s.rd o F.EMT_CAL_STAT_STATE ≠ 0 ∨ (s.mode o).isData = false then s
  else
    let s := (s.wr o F.EMT_CAL_STAT_STATE 1).clearAccumulators o
    let s := s.modOff o fun d => { d with mrg := { d.mrg with jobs := d.mrg.jobs ++ [.campaign] } }
    s.raise o 0x0D10 (le 1 (s.rd o F.EMT_CAL_CTL_MODE) ++ le 4 (s.rd o F.EMT_CAL_CAMP_CAMP_FLASHES))

/-- READY to APPLYING (R631). -/
def State.beginApply (s : State) (o : OfficeId) : State :=
  if s.rd o F.EMT_CAL_STAT_STATE = 3 then (s.wr o F.EMT_CAL_STAT_STATE 4).applyCampaign o else s

/-- A write of `EMT_CAL_CTL` (R631): every bit acts in the state it names. -/
def State.writeCalCtl (s : State) (o : OfficeId) (v : Nat) : State :=
  let r := s.hostWrite o F.EMT_CAL_CTL_START.off v
  let s := r.1
  if r.2 = false ∨ s.owns o = false then s
  else
    let s := if bitsOf v 31 1 = 1 then s.startCampaign o else s
    let s := if bitsOf v 30 1 = 1 ∧ s.rd o F.EMT_CAL_STAT_STATE = 1 then s.wr o F.EMT_CAL_STAT_STATE 2 else s
    let s := if bitsOf v 29 1 = 1 then s.beginApply o else s
    if bitsOf v 28 1 = 1 ∧ s.rd o F.EMT_CAL_STAT_STATE = 3 then (s.wr o F.EMT_CAL_STAT_STATE 0).settleDelta o else s

/-- START (R631). -/
def execStart (o : OfficeId) (v : W32) (s : State) : Out := .next (s.writeCalCtl o v.toNat)

/-- STOP (R631). -/
def execStop (o : OfficeId) (v : W32) (s : State) : Out := .next (s.writeCalCtl o v.toNat)

/-- APPLY (R634). -/
def execApply (o : OfficeId) (v : W32) (s : State) : Out := .next (s.writeCalCtl o v.toNat)

/-- DISCARD (R631). -/
def execDiscard (o : OfficeId) (v : W32) (s : State) : Out := .next (s.writeCalCtl o v.toNat)

/-- EVALUATION_DONE (R633): the candidates are formed; too few cells reject the campaign whole. -/
def execEvaluationDone (o : OfficeId) (s : State) : Out :=
  .next (
    if (s.off o).inReset ∨ s.owns o = false ∨ s.rd o F.EMT_CAL_STAT_STATE ≠ 2 then s
    else
      let lit := (s.off o).litDistricts
      let r := lit.foldl (fun x db => (List.range 4096).foldl (fun x k => State.takeCell o x (db * 4096 + k)) x) (s, [], 0)
      let total := lit.length * 4096
      let s := (r.1.wr o F.EMT_CAL_RES_ACCEPT r.2.2).wr o F.EMT_CAL_RES2_REJECT (total - r.2.2)
      let dm := s.moduleStep o
      let s := s.wr o F.EMT_CAL_DM_DM (ofInt 32 dm)
      if r.2.2 * 256 < s.rd o F.EMT_CAL_CFG_MIN_CELLS * total then
        (((s.wr o F.EMT_CAL_STAT_STATE 0).wr o F.EMT_CAL_STAT_CAUSE 0x10).raise o 0x0D12 (le 4 0 ++ le 1 0x10)).settleDelta o
      else
        let w := if s.rd o F.EMT_CAL_CTL_MODE = 1 then (List.range 512).foldl (State.takeWalk o) (s, []) else (s, [])
        let s := (w.1.modCal o fun c => { c with offsets := r.2.1, walk := w.2 }).wr o F.EMT_CAL_STAT_STATE 3
        let s := s.raise o 0x0D11 (le 3 r.2.2 ++ le 3 (total - r.2.2) ++ le 4 (ofInt 32 dm))
        if s.flag o F.EMT_CAL_CFG_AUTO_APPLY then s.beginApply o else s)

/-! ### The end of a code-density pass (R115, R634) -/

/-- The candidate table of an interpolator (R115). -/
def CodeDensity.table (c : CodeDensity) (i : Nat) : List Int :=
  (List.range 16).map fun k =>
    if k = 0 then 0
    else roundDiv ((8192 * Sparse.get 0 c.c (i * 16 + k) : Nat) - (512 * k * Sparse.get 0 c.m i : Nat)) (Sparse.get 0 c.m i)

/-- Checks the candidate of interpolator `i` entry by entry: the items so far and the entries rejected (R634). An entry that
13 bits do not hold fails as well. -/
def State.checkTable (s : State) (o : OfficeId) (x : List Item × Nat) (i : Nat) : List Item × Nat :=
  let t := (s.off o).cd.table i
  let bad := (t.zipIdx.filter fun e =>
    decide (s.rd o F.EMT_CAL_LIM_MAX_STEP < (e.1 - entryVal ((s.off o).entry 1 16 i e.2)).natAbs) || decide (satI 13 e.1 ≠ e.1)).length
  if bad = 0 then
    ({ kind := 2, esize := 8, target := 0x1000000 + 32 * i, count := 4, stride := 8, count2 := 0, stride2 := 0,
       data := t.flatMap fun v => le 2 (makeEntry v) } :: x.1, x.2)
  else (x.1, x.2 + bad)

/-- CODE_DENSITY_PASS_END (R115, R124): every interpolator has N edges, or the timeout has passed (a limit of 0 is none); the candidates go to the
calibration service. DESIGN CHOICE: a pass follows later writes of `LOG2N` and `SRC`; the spec says only that `FIRST` is latched (log
entry 93). -/
def execCodeDensityPassEnd (o : OfficeId) (s : State) : Out :=
  .next (
    let c := (s.off o).cd
    let n := 2 ^ (12 + s.rd o F.SORT_CD_CTL_LOG2N)
    let rounds := (s.roundOf (s.off o).count - c.startRound).toNat
    let got := c.reached n
    if (s.off o).inReset ∨ s.owns o = false ∨ s.flag o F.SORT_CD_STAT_BUSY = false ∨
        (got < 8192 ∧ (s.rd o F.SORT_CD_TIMEOUT_LIMIT = 0 ∨ rounds < s.rd o F.SORT_CD_TIMEOUT_LIMIT)) then s
    else
      let is := ((List.range 8192).map (c.first + ·)).filter fun i => n ≤ Sparse.get 0 c.m i
      let s := is.foldl (fun s i => ([0, 1, 2, 3] : List Nat).foldl (fun s k => s.arrUse o 1 (4 * i + k)) s) s
      let r := is.foldl (s.checkTable o) ([], 0)
      let s := (s.wr o F.EMT_CAL_RES2_REJECT r.2).modCal o fun m => { m with waiting := m.waiting ++ r.1.reverse }
      let s := ((s.wr o F.SORT_CD_STAT_SHORT (8192 - got)).setEvent o F.SORT_CD_STAT_DONE).wr o F.SORT_CD_STAT_BUSY 0
      let s := s.modOff o fun d => { d with calRun := d.calRun.map fun c => { c with passEnded := c.running } }
      (s.raise o 0x0122 (le 3 c.first ++ le 2 (8192 - got) ++ le 4 rounds)).settleDelta o)

/-! ### The NVM window (R488) -/

/-- NVM_WINDOW_WAIT_EXPIRY (R488): what has waited for 60 s is abandoned, a job, a calibration delta, or both. -/
def State.expireJob (s : State) (o : OfficeId) : State :=
  match (s.off o).lb.job with
  | some { work := w, waiting := some t } =>
    if s.now < t + ticksOfUs 60000000 then s
    else
      let p := s.draw 8
      let s := p.2.raise o 0x0911 [BitVec.ofNat 8 p.1, 1]
      match w with
      | .amend _ => s.refuseAmend o 0x11
      | .uploadEnd =>
        match (s.off o).lb.upload with
        | some u =>
          let p := (s.modLb o fun l => { l with upload := none }).draw 32
          (p.2.endJob o true 0x11).raise o 0x0906 (le 1 u.slot ++ le 1 0x11 ++ le 4 p.1)
        | none => s.endJob o true 0x11
      | _ => s.endJob o true 0x11
  | _ => s

/-- A calibration delta that has waited for 60 s is abandoned. -/
def State.expireDelta (s : State) (o : OfficeId) : State :=
  match (s.off o).cal.waitSince with
  | some t =>
    if s.now < t + ticksOfUs 60000000 then s
    else
      let p := s.draw 8
      let s := p.2.raise o 0x0911 [BitVec.ofNat 8 p.1, 1]
      let s := if s.rd o F.EMT_CAL_STAT_STATE = 4 then s.wr o F.EMT_CAL_STAT_STATE 0 else s.modCal o fun c => { c with waiting := [] }
      s.modCal o fun c => { c with waitSince := none }
  | none => s

/-- NVM_WINDOW_WAIT_EXPIRY. -/
def execNvmWindowWaitExpiry (o : OfficeId) (s : State) : Out :=
  .next (if (s.off o).inReset then s else ((s.expireJob o).expireDelta o).expireRetire o)

/-- NVM_WINDOW_OPEN (R488): the window of the office opens, and what waits runs on. -/
def execNvmWindowOpen (o : OfficeId) (s : State) : Out :=
  .next (
    if (s.off o).inReset then s
    else
      let s := s.wr o F.SEC_STAT_NVM_WIN 1
      let s := match (s.off o).lb.job with
        | some { work := w, waiting := some _ } =>
          (s.modLb o fun l => { l with job := some { work := w } }).wr o F.SEC_JOB_STATE 1
        | _ => s
      let s := s.resumeRetire o
      if (s.off o).cal.waitSince.isSome ∧ s.owns o then
        if s.rd o F.EMT_CAL_STAT_STATE = 4 then s.applyCampaign o else s.settleDelta o
      else s)

end Sys2Proof.Machine
end

