-- ==== Sys2Proof/Machine/Reset.lean ====
section
/-! DEFINITION. Dies in reset, their release, and Loading (01 R710; 12 R484 to R486, R496 to R498; 18 R657, R658, R667). -/

namespace Sys2Proof.Machine

/-! ### Dies in reset -/

/-- Registers that say who an office is, as it has them. -/
def Office.identity (d : Office) : Sparse Nat := d.regs.filter fun e => identityKeys.contains e.1

/-- Whether an office is Dormant or in Fallback, so that it takes no part in running the module. -/
def State.isIdle (s : State) (o : OfficeId) : Bool := decide (s.mode o = .dormant) || decide (s.mode o = .fallback)

/-- The bypass closes when the module is in Dormant or Fallback: neither office is in another mode (R391). -/
def State.checkBypass (s : State) : State :=
  if s.isIdle .A && s.isIdle .B then s.modRing fun r => { r with open_ := false } else s

/-- An office in reset: Dormant, its count zero; its NVM stays (R658, R710). -/
def State.resetOffice (s : State) (o : OfficeId) : State :=
  ((s.modOff o fun d => { inReset := true, nvm := d.nvm, regs := d.identity }).setMode o .dormant).checkBypass

/-- A tile in reset. -/
def State.resetTile (s : State) (t : Fin 4) : State := s.modTile t fun _ => { inReset := true }

/-- Fields that the service die keeps through RESET_N (R640, R652, R653). -/
def keptService : List Nat :=
  [F.THM_TRIP_TRIPPED, F.THM_TRIP_DIODE, F.PWR_STAT_CLK_SYNC, F.PWR_STAT_VIN_MV, F.PWR_STAT_VIN_LOW].map fun f => f.key 0 0

/-- The service die after a reset of its own: its registers, the time base, the ring ports, the loops at code 0 and the emitters
are as after power-up; fuses and supply are kept, and its count runs from zero (R558, R710; log entry 62). -/
def State.resetService (s : State) : State :=
  s.modSvc fun d =>
    { fuses := d.fuses, pwr := d.pwr, regs := d.regs.filter fun e => keptService.contains e.1 }

/-- RESET_N holds the offices and the tiles in reset, and resets the service die (R642, R658). -/
def State.resetModule (s : State) : State :=
  (allTiles.foldl (fun s t => s.resetTile t) ((s.resetOffice .A).resetOffice .B)).resetService

/-- Changes the supply. -/
def State.modPwr (s : State) (f : Power → Power) : State := s.modSvc fun d => { d with pwr := f d.pwr }

/-- Whether rail `r` is good. -/
def Power.good (p : Power) (r : Nat) : Bool := bitsOf p.on r 1 = 1

/-- Whether both rails of an office are good. -/
def Power.officeOn (p : Power) (o : OfficeId) : Bool := p.good (3 + 2 * officeBit o) && p.good (4 + 2 * officeBit o)

/-- Whether every tile rail is good. -/
def Power.tilesOn (p : Power) : Bool := p.good 0 && p.good 1 && p.good 2

/-! ### The book at Loading (R496 to R498) -/

/-- Reads the book from index 0 up; 0x090C when its end is not an erased entry (R496). -/
def State.readBook (s : State) (o : OfficeId) : State :=
  let v := (s.off o).nvm
  let n := bookPrefix v.volume v.firstSeq (le 64 v.prevChain.toNat) v.entries
  let s := s.refreshBook o n
  if n < v.entries.length then s.raise o 0x090C (le 2 n ++ le 4 (s.nextSeq o)) else s

/-- The measurement of the VOLUME entry that opens the volume, if one does (R495, R498). -/
def State.volumeMeas (s : State) (o : OfficeId) : Option (List Byte) :=
  match (s.book o).head? with
  | some e => if entryKind e = bkVolume then some ((e.drop 48).take 64) else none
  | none => none

/-- Opens a new volume (R498): RETIRE entries in force are copied. -/
def State.openVolume (s : State) (o : OfficeId) : State :=
  let keep := (s.book o).filter fun e => entryKind e = bkRetire
  let seq := s.nextSeq o
  let chain := s.bookChain o
  let s := s.modNvm o fun n =>
    { n with volume := (n.volume + 1) % 65536, firstSeq := seq, prevChain := BitVec.ofNat 512 (ofLe chain), entries := [], heap := []
             heapUse := 0 }
  let s := (s.refreshBook o 0).modLb o fun l => { l with full90 := false }
  let s := s.recordEntry o { kind := bkVolume, inline_ := s.imageMeas o }
  let s := keep.foldl (fun s e => s.recordEntry o { kind := bkRetire, inline_ := (e.drop 48).take 64 }) s
  s.raise o 0x090E (le 2 (s.off o).nvm.volume ++ le 4 seq)

/-- Opens a new volume where the running image asks for one; a closed window keeps the old one (R498). -/
def State.checkVolume (s : State) (o : OfficeId) (x : ImageSlot) (canRecord : Bool) : State :=
  if x.hdr 6 2 % 2 = 0 ∨ s.volumeMeas o = some (s.imageMeas o) then s
  else if canRecord then s.openVolume o
  else
    let p := s.draw 8
    p.2.raise o 0x0911 [BitVec.ofNat 8 p.1, 0]

/-- Applies an entry's items in Loading; `SORT_CAL_EPOCH` follows what R202 applies (R216, R497). -/
def State.reapplyItems (s : State) (o : OfficeId) (seq : Nat) (items : List Item) : State :=
  let its := items.filter fun it => !it.isFuse
  let s := s.applyItems o false seq its
  if its.any Item.isGap then s.wr o F.SORT_CAL_EPOCH_EPOCH seq else s

/-- Re-applies one entry (R497). The Bool tells that a body's digest has failed. -/
def State.reapply (o : OfficeId) (x : State × Bool) (e : List Byte) : State × Bool :=
  let s := x.1
  let kind := entryKind e
  let seq := fieldAt e 4 4
  if kind = bkRetire then
    if fieldAt e 49 1 = officeBit o then
      let page := fieldAt e 52 4
      if fieldAt e 48 1 = 6 then ((s.modSto o fun t => { t with retired := t.retired ++ [page] }).refreshSpares o, x.2)
      else ((s.copyPage o (fieldAt e 48 1) page (fieldAt e 56 2)).refreshSpares o, x.2)
    else x
  else if (kind = bkAmendment ∨ kind = bkDelta) ∧ fieldAt e 10 1 % 2 = 1 ∧ (e.drop 48).take 64 = s.imageMeas o ∧ x.2 = false then
    let b := (s.off o).entryBody e
    if le 64 (digestOf b) ≠ (e.drop 112).take 64 then
      ((s.wr o F.SEC_STAT_BOOK_DEGRADED 1).raise o 0x090D (le 4 seq), true)
    else if kind = bkAmendment then (s.reapplyItems o seq ((amendItems b).getD []), false)
    else (s.reapplyItems o seq ((parseItems (b.length / 24 + 1) b).getD []), false)
  else x

/-! ### The boot slot (R484 to R486) -/

/-- Records the cause for which a slot failed (R484, R513). -/
def State.slotFailed (s : State) (o : OfficeId) (slot cause : Nat) : State :=
  (s.wr o (if slot = 0 then F.SEC_BOOT_CAUSE0 else F.SEC_BOOT_CAUSE1) cause).raise o 0x0902 (le 1 slot ++ le 1 cause)

/-- Runs the image of a slot: its items, the volume, the book (R484, R497, R498). Contexts are cleared first (R199). -/
def State.runImage (s : State) (o : OfficeId) (slot : Nat) (canRecord : Bool) : State :=
  let x := (s.off o).nvm.slot slot
  let personal := match x.directory.find? (·.1 = s.serial o) with
    | some e => e.2.2.2
    | none => 0
  let s := (s.setMeas o F.SEC_MEAS_IMAGE_W x.meas).setMeas o F.SEC_MEAS_PERSONAL_W (le 64 personal)
  let s := ((s.wr o F.SEC_STAT_RUN_SLOT slot).wr o F.SEC_STAT_IMAGE_SVN (x.hdr 12 1)).wr o F.SEC_STAT_SIGNER (x.hdr 13 1)
  let s := s.wrPair o F.SEC_BUILD_LO_BUILD_L F.SEC_BUILD_HI_BUILD_H (x.hdr 16 8)
  let s := s.modNvm o fun n => n.setSlot slot { x with svn := some (x.hdr 12 1) }
  let s := s.applyItems o true 0 ((x.items (s.serial o)).getD [])
  let s := s.checkVolume o x canRecord
  let s := ((s.book o).foldl (State.reapply o) (s, false)).1
  let s := s.modOff o fun d => { d with imageApplied := true, twin := { d.twin with appliedAt := some s.now } }
  let s := s.wr o F.TWN_STAT_HEALTHY (b2n (s.healthy o))
  let s := if s.owns (otherOffice o) then s else s.swr F.TB_STAT_HEAD (s.srd F.RING_CFG_HEAD)
  s.raise o 0x0901 (le 1 slot ++ le 8 (x.hdr 16 8) ++ x.meas.take 8)

/-- The slot that the book selects, with what that records: a BOOT_TRY of a trial that is not confirmed, three of which, or a
closed window, abandon the trial (R485). -/
def State.selectSlot (s : State) (o : OfficeId) (canRecord : Bool) : State × Nat :=
  let a := activation (s.book o)
  if a.2.1 = false then (s, a.1)
  else if 3 ≤ a.2.2 ∨ canRecord = false ∨ s.bookRoom o 1 0 = false then (s, 1 - a.1)
  else (s.recordEntry o { kind := bkBootTry, inline_ := le 1 a.1, meas := ((s.off o).nvm.slot a.1).meas }, a.1)

/-- Runs slot `slot`; a trial in another slot is abandoned (R485, R506). -/
def State.runSlot (s : State) (o : OfficeId) (slot : Nat) (canRecord : Bool) : State :=
  let a := activation (s.book o)
  if a.2.1 = false then s.runImage o slot canRecord
  else if slot = a.1 then (s.wr o F.SEC_STAT_TRIAL 1).runImage o slot canRecord
  else
    let s := if canRecord ∧ s.bookRoom o 1 0 then s.recordActivate o slot false else s
    (s.raise o 0x0908 (le 1 a.1)).runImage o slot canRecord

/-- Loading (R485, R486, R496, R657): `fail` tells the slots whose reading fails. Whether the NVM can be written now is free,
because no thermal model is valid yet (log entry 63). -/
def State.load (s : State) (o : OfficeId) (fail : Nat → Bool) : State :=
  let s := (s.readBook o).refreshFuses o
  let p := s.draw 1
  let can := decide (p.1 = 1)
  let r := p.2.selectSlot o can
  let s := r.1
  let c1 := s.verifySlot o ((s.off o).nvm.slot r.2) (fail r.2)
  if c1 = 0 then s.runSlot o r.2 can
  else
    let s := s.slotFailed o r.2 c1
    let other := 1 - r.2
    let c2 := s.verifySlot o ((s.off o).nvm.slot other) (fail other)
    if c2 = 0 then s.runSlot o other can
    else
      let s := ((s.slotFailed o other c2).setMode o .fallback).checkBypass
      s.raise o 0x0903 (le 1 (s.rd o F.SEC_BOOT_CAUSE0) ++ le 1 (s.rd o F.SEC_BOOT_CAUSE1))

/-! ### Leaving reset (R710) -/

/-- An office leaves reset and enters Loading (R657). -/
def State.releaseOffice (s : State) (o : OfficeId) : State :=
  s.modOff o fun d => { nvm := d.nvm, regs := d.identity, leftResetAt := s.now, escAt := s.now }

/-- Every die whose rails are good leaves reset in the tick of a start pulse (R710); offices load; the notice of a trip follows
(R650). -/
def State.leaveReset (s : State) (fail : BitVec 4) : State :=
  let p := s.svc.pwr
  let s := s.modSvc fun d => { d with count := 0 }
  let s := if p.tilesOn then allTiles.foldl (fun s t => s.modTile t fun d => { d with inReset := false, leftResetAt := s.now }) s
    else s
  let s := [OfficeId.A, .B].foldl (fun s o => if p.officeOn o then s.releaseOffice o else s) s
  let s := s.startPulse
  let s := [OfficeId.A, .B].foldl (fun s o =>
    if p.officeOn o then s.load o fun slot => fail.getLsbD (officeBit o * 2 + slot) else s) s
  if p.tripDue then
    (s.raiseSvc 0x0E06 (le 1 (s.srd F.THM_TRIP_DIODE))).modPwr fun p => { p with tripDue := false }
  else s

/-- RESET_N_RELEASE (R710). While RESET_N is low: once every rail is good, the dies leave reset. At the state after reset, in
which both offices are in Loading, it performs Loading (log entry 64). -/
def execResetNRelease (nvmFail : BitVec 4) (s : State) : Out :=
  .next (
    if s.svc.pwr.resetHeld then
      let s := s.modPwr fun p => { p with resetHeld := false }
      if s.svc.pwr.started ∧ s.svc.pwr.next = none ∧ s.svc.pwr.tripped = false then s.leaveReset nvmFail else s
    else
      [OfficeId.A, .B].foldl (fun s o =>
        if (s.off o).inReset = false ∧ s.mode o = .loading ∧ (s.off o).imageApplied = false then
          s.load o fun slot => nvmFail.getLsbD (officeBit o * 2 + slot)
        else s) s)

end Sys2Proof.Machine
end

