-- ==== Sys2Proof/Machine/Thermal.lean ====
section
/-! DEFINITION. The thermal model, the throttle levels, and the orderly stop (17 R643 to R649). -/

namespace Sys2Proof.Machine

/-- Changes an office's thermal model. -/
def State.modThm (s : State) (o : OfficeId) (f : Thermal → Thermal) : State := s.modOff o fun d => { d with thm := f d.thm }

/-! ### Nodes and sensors (R643, R654) -/

/-- A parameter of a node: `n` bytes from `ofs` on. -/
def Office.nodeParam (d : Office) (i ofs n : Nat) : Nat := d.bytesAt (0x0B10000 + 64 * i) ofs n

/-- The node of a sensor, its observer gain, and its offset in 0.01 K. -/
def Office.sensorNode (d : Office) (j : Nat) : Nat := d.bytesAt (0x0B18000 + 8 * j) 0 2
def Office.sensorGain (d : Office) (j : Nat) : Rat := (d.bytesAt (0x0B18000 + 8 * j) 2 2 : Nat) / 65536
def Office.sensorOfs (d : Office) (j : Nat) : Int := toInt 16 (d.bytesAt (0x0B18000 + 8 * j) 4 2)

/-- The temperature of a node, in °C. -/
def Thermal.temp (m : Thermal) (i : Nat) : Rat := Sparse.get 0 m.temps i

/-- Whether a sensor is admitted (R645). -/
def Thermal.admits (m : Thermal) (j : Nat) : Bool := !m.excluded.contains j

/-- A reading in °C. -/
def celsius (v : Int) : Rat := (v : Rat) / 100

/-- The reading of sensor `j` among the operands of an update, in 0.01 °C. -/
def reading (rs : List W16) (j : Nat) : Int := toInt 16 (rs.getD j 0).toNat

/-- The sensors. -/
def allSensors : List Nat := List.range 42

/-- The coolant temperature (R643). -/
def State.coolant (s : State) : Rat :=
  let k := s.rd s.speaker F.THM_CFG2_COOL_PT
  celsius (if s.rd s.speaker F.THM_CFG2_COOL_EN = 1 ∧ s.pointValid k then toInt 16 (s.srd F.ENV_PT_TEMP_T k)
    else toInt 16 (s.rd s.speaker F.THM_CFG2_T_COOL))

/-- The power of a rail in µW (R643, R652). -/
def State.railPower (s : State) (r : Nat) : Nat := s.srd F.PWR_RAIL_MV r * s.srd F.PWR_RAIL_MA r

/-- The power into a node in µW (R643): letters count as in the last merged round, scaled to 100 µs. -/
def State.nodePower (s : State) (o : OfficeId) (i : Nat) : Rat :=
  let pstat : Rat := ((s.off o).nodeParam i 8 4 : Nat)
  if i < 256 then
    let letters : Rat := (Sparse.get 0 (s.off o).districtLetters i * 150000 : Nat) / (2 ^ s.svc.roundShift : Nat)
    pstat + (s.rd o F.THM_ELETTER_E_LETTER : Nat) * letters / 100
  else if i < 260 then ((s.railPower 3 + s.railPower 4 : Nat) : Rat) / 4
  else if i < 264 then ((s.railPower 5 + s.railPower 6 : Nat) : Rat) / 4
  else if i = 264 then ((s.railPower 8 + s.railPower 7 : Nat) : Rat)
  else pstat

/-- The step of one node over 100 µs, from the temperatures as the steps of lower nodes left them (R643; log entry 65). -/
def State.stepNode (s : State) (o : OfficeId) (tc : Rat) (m : Sparse Rat) (i : Nat) : Sparse Rat :=
  let d := s.off o
  let t := Sparse.get 0 m i
  let links := (d.nodeLinks i).foldl (fun q l => q + (l.2 : Rat) * (t - Sparse.get 0 m l.1)) 0
  let q := s.nodePower o i - (d.nodeParam i 4 4 : Nat) * (t - tc) - links
  Sparse.set 0 m i (t + q / 10000 / (d.nodeParam i 0 4 : Nat))

/-- The observer correction by one admitted sensor (R643). -/
def Office.observe (d : Office) (rs : List W16) (m : Sparse Rat) (j : Nat) : Sparse Rat :=
  if d.thm.admits j = false then m
  else
    let i := d.sensorNode j
    let t := Sparse.get 0 m i
    Sparse.set 0 m i (t + d.sensorGain j * (celsius (reading rs j + d.sensorOfs j) - t))

/-- The estimate of a node, and whether it is marked `EST` (R643). -/
def Office.estimate (d : Office) (i : Nat) : Rat × Bool :=
  let mapped := allSensors.filter fun j => d.sensorNode j = i
  if mapped = [] ∨ mapped.any d.thm.admits then (d.thm.temp i, false)
  else ((d.nodeLinks i).foldl (fun t l => max t (d.thm.temp l.1)) (d.thm.temp i) + 5, true)

/-- The highest estimate and its node, the first one on a tie. -/
def Office.hottest (d : Office) : Rat × Nat :=
  (List.range 268).foldl (fun b i => let e := (d.estimate i).1; if i = 0 ∨ b.1 < e then (e, i) else b) (0, 0)

/-- A temperature as a register shows it, in 0.01 °C (R653). -/
def centi (t : Rat) : Nat := ofInt 16 (satI 16 (roundRat (t * 100)))

/-! ### Throttle levels (R646, R647) -/

/-- Whether a district is hot (R647). -/
def State.hotDistrict (s : State) (o : OfficeId) (i : Nat) : Bool :=
  decide (((s.rd o F.THM_CFG_T_THR - s.rd o F.THM_CFG_HYS : Nat) : Rat) ≤ ((s.off o).estimate i).1)

/-- The throttle commands to a tile: every override cleared, then the hot districts' set (R647). -/
def throttleWords (t : Fin 4) (level : Nat) (hot : List Nat) : List W64 :=
  cmdWord3 0x21 0 0 0 0 ::
    (if level < 5 then [] else (hot.filter fun i => i / 64 = t.val).map fun i =>
      cmdWord3 0x20 (i % 64) (if level = 6 then 3 else 1) 0 0)

/-- The owner keeps the overrides it has sent to a tile; its read-back expects them (R67). -/
def Office.noteThrottle (d : Office) (t : Fin 4) (level : Nat) (hot : List Nat) : Office :=
  let mine := if level < 5 then [] else hot.filter fun i => i / 64 = t.val
  let others := d.thrSent.filter fun e => e.1 / 64 ≠ t.val
  { d with thrSent := mine.foldl (fun m i => Sparse.set 0 m i (if level = 6 then 3 else 1)) others }

/-- Recomputes the hot set, and sends the commands while overrides stand or are due (R647). -/
def State.sendHot (s : State) (o : OfficeId) (old : Nat) : State :=
  let level := s.srd F.THM_STAT_LEVEL
  let hot := (List.range 256).filter (s.hotDistrict o)
  let s := (List.range 8).foldl (fun s k =>
    s.wr o F.THM_HOT_D ((hot.filter fun i => i / 32 = k).foldl (fun m i => m + 2 ^ (i % 32)) 0) k) s
  let s := s.modThm o fun m => { m with hotAt := s.now }
  if level < 5 ∧ old < 5 then s
  else allTiles.foldl (fun s t =>
    if s.reaches o t then (s.sendType3 o t 5 (throttleWords t level hot)).modOff o fun d => d.noteThrottle t level hot else s) s

/-- The level becomes `new` (R646, R647): counted when it rises, reported, and its actions taken. -/
def State.setLevel (s : State) (o : OfficeId) (new : Nat) : State :=
  let old := s.srd F.THM_STAT_LEVEL
  if new = old then s
  else
    let s := s.latchCauses
    let s := (s.swr F.THM_STAT_LEVEL new).modPwr fun p => { p with levelAt := some s.now }
    let s := if old < new then s.countUp o F.THM_CNT_STEPUP_COUNT else s
    let s := s.raise o 0x0E01 (le 1 old ++ le 1 new ++ le 2 (s.rd o F.THM_STAT_T_MAX) ++ le 2 (s.rd o F.THM_STAT_NODE))
    ((s.followLevel o).sendHot o old).latchCauses

/-- `DWELL` in ticks. -/
def State.dwell (s : State) (o : OfficeId) : Nat := ticksOfUs (s.rd o F.THM_CFG_DWELL * 10000)

/-- Evaluates the level (R646): `t` is T_max. While the model is not valid the level does not fall (R644). -/
def State.evalLevel (s : State) (o : OfficeId) (t : Rat) (valid : Bool) : State :=
  let level := s.srd F.THM_STAT_LEVEL
  let thr : Rat := (s.rd o F.THM_CFG_T_THR : Nat)
  let cap := s.srd F.PWR_STAT_PCAP = 1
  let ready := match s.svc.pwr.levelAt with
    | some at_ => decide (at_ + s.dwell o ≤ s.now)
    | none => true
  if ready = false then s
  else if (thr ≤ t ∨ cap) ∧ level < 6 then s.setLevel o (level + 1)
  else if valid ∧ t < thr - (s.rd o F.THM_CFG_HYS : Nat) ∧ !cap ∧ s.srd F.THM_STAT_HOLD = 0 ∧ 0 < level then s.setLevel o (level - 1)
  else s

/-! ### The orderly stop (R649) -/

/-- The next round boundary of an office. -/
def State.nextBoundary (s : State) (o : OfficeId) : Nat :=
  ((s.off o).count.toNat / 2 ^ s.svc.roundShift + 1) * 2 ^ s.svc.roundShift % 2 ^ 64

/-- Sends QUIET to every tile the office reaches, or leaves it (R647, R666). -/
def State.sendQuiet (s : State) (o : OfficeId) (enter : Bool) : State :=
  allTiles.foldl (fun s t =>
    if s.reaches o t then
      (s.sendType3 o t 1 [cmdWord3 0x22 (b2n enter) 0 0 0]).modOff o fun d =>
        { d with quietSent := (if enter then [t.val] else []) ++ d.quietSent.filter fun k => k ≠ t.val }
    else s) s

/-- Asks for Held at the next round boundary, with cause 1 thermal, 2 supply, 3 no owner (R664). In Held, a thermal or supply
cause replaces `HELD_CAUSE`, and cancels an exit that waits (R662). -/
def State.askHeld (s : State) (o : OfficeId) (cause : Nat) : State :=
  if s.mode o = .held then
    if cause = 3 then s
    else
      let s := s.wr o F.GLB_MODE_HELD_CAUSE cause
      let s := if (s.off o).loadedAt.isSome then s.sendQuiet o true else s
      (s.modOff o fun d => { d with pendMode := none, loadedAt := none }).refreshPending
  else s.modOff o fun d =>
    { d with toHeld := match d.toHeld with
      | some x => if cause = 3 then some x else some (cause, x.2)
      | none => some (cause, s.nextBoundary o) }

/-- An orderly stop by the owner: `cause` 0 thermal, 1 supply. -/
def State.orderlyStop (s : State) (o : OfficeId) (cause : Nat) : State :=
  let s := (s.setLevel o 6).askHeld o (cause + 1)
  let s := (s.wr o F.THM_STAT_STOPPED 1).countUp o F.THM_CNT_STOP_COUNT
  let s := s.raise o 0x0E05 (le 1 cause ++ le 2 (s.rd o F.THM_STAT_T_MAX) ++ le 2 (s.rd o F.THM_STAT_NODE))
  ((s.startStop 0 false).startStop 1 false).latchCauses

/-! ### Sensors (R645) -/

/-- Sets or clears `HOLD`; a change raises 0x0E04 (R648, R655). -/
def State.setHold (s : State) (o : OfficeId) (on : Bool) : State :=
  if s.srd F.THM_STAT_HOLD = b2n on then s
  else (s.swr F.THM_STAT_HOLD (b2n on)).raise o 0x0E04 (le 1 (b2n !on) ++ le 1 (s.srd F.THM_STAT_LEVEL))

/-- A sensor is excluded: cause 1 range, 2 tolerance. -/
def State.excludeSensor (s : State) (o : OfficeId) (j cause : Nat) (v : Int) : State :=
  let s := s.modThm o fun m => { m with excluded := j :: m.excluded, sensors := Sparse.set {} m.sensors j {} }
  let s := (s.wr o F.THM_SENS_CAUSE cause j).countUp o F.THM_CNT_SENSFAIL_COUNT
  let s := s.raise o 0x0E02 (le 1 j ++ le 1 cause ++ le 2 (ofInt 16 v))
  if s.srd F.THM_STAT_LEVEL = 0 then s else s.setHold o true

/-- Judges a sensor against its node's value before the correction (R645). -/
def State.judgeSensor (s : State) (o : OfficeId) (rs : List W16) (j : Nat) : State :=
  let m := (s.off o).thm
  let v := reading rs j
  let range := decide (v < -5500) || decide (15000 < v)
  let diff := celsius v - m.temp ((s.off o).sensorNode j)
  let tol : Rat := (s.rd o F.THM_CFG2_SENS_TOL : Nat)
  let off := decide (tol < diff) || decide (diff < -tol)
  let x := Sparse.get {} m.sensors j
  if m.admits j then
    if range then s.excludeSensor o j 1 v
    else if off ∧ 10 ≤ x.bad + 1 then s.excludeSensor o j 2 v
    else s.modThm o fun m => { m with sensors := Sparse.set {} m.sensors j { x with bad := if off then x.bad + 1 else 0 } }
  else
    match x.good with
    | none => s
    | some n =>
      if range || off then s.modThm o fun m => { m with sensors := Sparse.set {} m.sensors j { x with good := some 0 } }
      else if n + 1 < 100 then s.modThm o fun m => { m with sensors := Sparse.set {} m.sensors j { x with good := some (n + 1) } }
      else
        let s := s.modThm o fun m => { m with excluded := m.excluded.erase j, sensors := Sparse.set {} m.sensors j {} }
        (s.wr o F.THM_SENS_CAUSE 0 j).raise o 0x0E03 (le 1 j)

/-- Shows the sensors (R653, R69). -/
def State.showSensors (s : State) (o : OfficeId) (rs : List W16) : State :=
  let m := (s.off o).thm
  let mask := fun lo n => ((List.range n).filter fun j => !m.admits (lo + j)).foldl (fun x j => x + 2 ^ j) 0
  let s := allSensors.foldl (fun s j =>
    (s.wr o F.THM_SENS_T (ofInt 16 (reading rs j)) j).wr o F.THM_SENS_ADMIT (b2n (m.admits j)) j) s
  let s := allTiles.foldl (fun s t => s.modTile t fun d =>
    { d with sensors := (List.range 8).foldl (fun m k => Sparse.set 0 m k (ofInt 16 (reading rs (t.val * 8 + k)))) [] }) s
  (s.wr o F.THM_EXCL_LO_MASK (mask 0 32)).wr o F.THM_EXCL_HI_MASK (mask 32 10)

/-! ### An update (R643, R644, R648) -/

/-- The temperatures at the gain (R644): a node with an admitted sensor takes its reading, another one the mean of its linked
nodes that have one; a node that has none of these takes a free value. -/
def State.initTemps (s : State) (o : OfficeId) (rs : List W16) : State :=
  let d := s.off o
  let byNode := fun i => allSensors.find? fun j => d.sensorNode j = i && d.thm.admits j
  let own := (List.range 268).foldl (fun m i => match byNode i with
    | some j => Sparse.set 0 m i (celsius (reading rs j))
    | none => m) ([] : Sparse Rat)
  let r := (List.range 268).foldl (fun (x : State × Sparse Rat) i =>
    if (byNode i).isSome then x
    else
      let ls := (d.nodeLinks i).filter fun l => (byNode l.1).isSome
      if ls = [] then
        let p := x.1.draw 16
        (p.2, Sparse.set 0 x.2 i (celsius (toInt 16 p.1)))
      else (x.1, Sparse.set 0 x.2 i ((ls.map fun l => Sparse.get 0 own l.1).foldl (· + ·) 0 / (ls.length : Nat)))) (s, own)
  r.1.modThm o fun m => { m with temps := r.2 }

/-- Reads the windows of the model (R677); a word that reads uncorrectable raises 0x0F21. -/
def State.touchModel (s : State) (o : OfficeId) : State :=
  (((List.range 2144).map fun k => 0x0B10000 + 8 * k) ++ ((List.range 42).map fun k => 0x0B18000 + 8 * k)).foldl (fun s a =>
    match (s.off o).arrClass 5 (a / 8) with
    | .clean => s
    | .correctable => s.arrTouch o 5 (a / 8)
    | .uncorrectable => (s.arrTouch o 5 (a / 8)).raiseOnceFor o 5 (a / 8) 0x0F21 (le 1 5 ++ le 4 (a / 8))) s

/-- The currents of the rails as they are now: free values. -/
def State.sampleRails (s : State) : State :=
  (List.range 9).foldl (fun s r => let p := s.draw 16; p.2.swr F.PWR_RAIL_MA p.1 r) s

/-- T_max and the hottest node (R643, R644): while the model is not valid, the highest admitted reading plus 5 K, free where no
sensor is admitted. -/
def State.tMax (s : State) (o : OfficeId) (rs : List W16) (valid : Bool) : (Rat × Nat) × State :=
  let d := s.off o
  if valid then (d.hottest, s)
  else
    let js := allSensors.filter d.thm.admits
    match js with
    | [] =>
      let p := s.draw 16
      ((celsius (toInt 16 p.1), 0), p.2)
    | j :: rest =>
      let top := rest.foldl (fun b k => if reading rs b < reading rs k then k else b) j
      ((celsius (reading rs top) + 5, d.sensorNode top), s)

/-- Shows nodes, T_max and validity, and what follows from the nodes' temperatures: the NVM and fuse windows and the emitters'
shutdown (R476, R488, R625, R653). -/
def State.showModel (s : State) (o : OfficeId) (valid : Bool) (t : Rat × Nat) : State :=
  let s := (List.range 268).foldl (fun s i =>
    let e := (s.off o).estimate i
    ((s.wr o F.THM_NODE_VALID (b2n valid) i).wr o F.THM_NODE_EST (b2n e.2) i).wr o F.THM_NODE_T (centi e.1) i) s
  let s := (s.wr o F.THM_STAT_T_MAX (centi t.1)).wr o F.THM_STAT_NODE t.2
  let s := if s.flag o F.THM_STAT_VALID = valid then s
    else (s.wr o F.THM_STAT_VALID (b2n valid)).raise o 0x0E0B (le 1 (b2n valid))
  let inside := fun i lo hi => valid && decide (lo ≤ toInt 16 (s.rd o F.THM_NODE_T i)) && decide (toInt 16 (s.rd o F.THM_NODE_T i) ≤ hi)
  let s := [OfficeId.A, .B].foldl (fun s x =>
    (s.wr x F.SEC_STAT_NVM_WIN (b2n (inside (265 + officeBit x) (-2000) 8500))).wr x F.SEC_STAT_FUSE_WIN (b2n (s.fuseOpen o))) s
  s.checkShut

/-- THERMAL_MODEL_UPDATE (R643 to R649): `readings` are the 42 sensors, in 0.01 °C. -/
def execThermalModelUpdate (o : OfficeId) (readings : List W16) (s : State) : Out :=
  .next (
    let m := (s.off o).thm
    if (s.off o).inReset ∨ s.owns o = false ∨ (m.updates ≠ 0 ∧ s.now < m.lastAt + 150000) then s
    else
      let s := (s.sampleRails).touchModel o
      let s := if m.updates = 0 then s.initTemps o readings else s
      let tc := s.coolant
      let temps := (List.range 268).foldl (s.stepNode o tc) (s.off o).thm.temps
      let s := s.modThm o fun m => { m with temps := temps, updates := m.updates + 1, lastAt := s.now, ack := false }
      let before := m.excluded
      let s := allSensors.foldl (fun s j => s.judgeSensor o readings j) s
      let fresh := (s.off o).thm.excluded.any fun j => !before.contains j
      let s := if m.ack ∧ !fresh then s.setHold o false else s
      let s := s.modThm o fun m => { m with temps := allSensors.foldl ((s.off o).observe readings) m.temps }
      let valid := decide (10 ≤ (s.off o).thm.updates)
      let x := s.tMax o readings valid
      let s := (x.2.showSensors o readings).showModel o valid x.1
      let stop := valid && decide (((s.rd o F.THM_CFG_T_STOP : Nat) : Rat) ≤ x.1.1)
      let run := if stop then (s.off o).thm.stopRun + 1 else 0
      let s := s.modThm o fun m => { m with stopRun := run }
      let s := if 3 ≤ run ∧ s.flag o F.THM_STAT_STOPPED = false then s.orderlyStop o 0 else s.evalLevel o x.1.1 valid
      let level := s.srd F.THM_STAT_LEVEL
      (if 5 ≤ level ∧ (s.off o).thm.hotAt + s.dwell o ≤ s.now then s.sendHot o level else s).latchCauses)

/-! ### Commands of `THM_CTL` (R645, R648) -/

/-- A write of `THM_CTL`: `ACK` takes effect in the next update; `READMIT` lets an excluded sensor be tested. -/
def State.writeThmCtl (s : State) (o : OfficeId) (v : Nat) : State :=
  let r := s.hostWrite o F.THM_CTL_ACK.off v
  let s := r.1
  if r.2 = false ∨ s.owns o = false then s
  else
    let s := if bitsOf v 31 1 = 1 then s.modThm o fun m => { m with ack := true } else s
    let j := bitsOf v 0 6
    if bitsOf v 30 1 = 1 ∧ (s.off o).thm.admits j = false then
      s.modThm o fun m => { m with sensors := Sparse.set {} m.sensors j { good := some 0 } }
    else s

/-- THERMAL_ACK (R648). -/
def execThermalAck (o : OfficeId) (v : W32) (s : State) : Out := .next (s.writeThmCtl o v.toNat)

/-- READMIT (R645). -/
def execReadmit (o : OfficeId) (v : W32) (s : State) : Out := .next (s.writeThmCtl o v.toNat)

/-- THM_CNT_CLR (R653). -/
def execThmCntClr (o : OfficeId) (v : W32) (s : State) : Out :=
  .next (s.clearWrite o F.THM_CNT_CLR_STEPUP.off v.toNat 0
    [F.THM_CNT_STEPUP_COUNT, F.THM_CNT_SENSFAIL_COUNT, F.THM_CNT_STOP_COUNT])

end Sys2Proof.Machine
end

