-- ==== Sys2Proof/Machine/Power.lean ====
section
/-! DEFINITION. The supply, the rails and their sequence, the analogue trip, and the assertion of RESET_N (17 R639 to R642, R650;
18 R658). -/

namespace Sys2Proof.Machine

/-! ### The power-up sequence (R642) -/

/-- The rails of a step: 0 VSVC, 1 the synthesiser, 2 the office cores, 3 the offices' I/O, 4 to 6 the tiles, 7 VEMIT. -/
def stepRails : Nat → List Nat
  | 0 => [8]
  | 2 => [3, 5]
  | 3 => [4, 6]
  | 4 => [1]
  | 5 => [2]
  | 6 => [0]
  | 7 => [7]
  | _ => []

/-- `PWR_STAT.OFFA` or `OFFB` (R652). -/
def offField : OfficeId → Fld
  | .A => F.PWR_STAT_OFFA
  | .B => F.PWR_STAT_OFFB

/-- The office of a rail. -/
def railOffice (r : Nat) : OfficeId := if r < 5 then .A else .B

/-- Whether the sequence brings up a rail: not one that a fault keeps off (R640). -/
def State.railWanted (s : State) (r : Nat) : Bool :=
  if r < 3 then !s.svc.pwr.tileFault
  else if r < 7 then s.srd (offField (railOffice r)) = 0
  else if r = 7 then s.srd F.PWR_STAT_EMT_OFF = 0
  else true

/-- Whether a step is done: its rails are good, and the synthesiser has locked and no diode is hot at step 1 (R642, R650). -/
def State.stepDone (s : State) (k : Nat) : Bool :=
  if k = 1 then s.svc.pwr.locked && !s.svc.pwr.waiting
  else (stepRails k).all fun r => !s.railWanted r || s.svc.pwr.good r

/-- Goes on in the sequence over the steps that are done; after the last one the dies leave reset, unless RESET_N is low. `fuel`
bounds the steps. -/
def State.advance (s : State) : Nat → State
  | 0 => s
  | fuel + 1 =>
    match s.svc.pwr.next with
    | none => s
    | some k =>
      if s.stepDone k = false then s
      else if k < 7 then (s.modPwr fun p => { p with next := some (k + 1) }).advance fuel
      else
        let s := s.modPwr fun p => { p with next := none }
        if s.svc.pwr.resetHeld then s else s.leaveReset 0

/-- Marks a rail good. -/
def State.railUp (s : State) (r : Nat) : State :=
  let s := s.modPwr fun p => { p with on := p.on ||| 2 ^ r }
  if r = 8 then s.modSvc fun d => { d with inReset := false, count := 0 }
  else s.swr F.PWR_STAT_RAIL_FLT (s.srd F.PWR_STAT_RAIL_FLT &&& (255 - 2 ^ r))

/-- The restart of one office's rails goes on; after its I/O rail the office leaves reset into Loading, and takes the tick count
at the next round boundary (R25, R640). -/
def State.officeRail (s : State) (o : OfficeId) (r : Nat) : State :=
  let io := 4 + 2 * officeBit o
  let s := s.railUp r
  if r ≠ io then s.modPwr fun p => { p with officeStep := p.officeStep.set o (some 1) }
  else
    let s := (s.modPwr fun p => { p with officeStep := p.officeStep.set o none }).swr (offField o) 0
    if s.svc.pwr.resetHeld then s
    else ((s.releaseOffice o).modOff o fun d => { d with reload := some s.now }).load o fun _ => false

/-- RAIL_GOOD (R640, R642): a rail that is being started is within ±5 %. -/
def execRailGood (rail : Fin 9) (s : State) : Out :=
  .next (
    let r := rail.val
    let p := s.svc.pwr
    if p.good r then s
    else
      match p.next with
      | some k => if (stepRails k).contains r ∧ s.railWanted r then (s.railUp r).advance 9 else s
      | none =>
        if 3 ≤ r ∧ r ≤ 6 ∧ p.officeStep.get (railOffice r) = some ((r + 1) % 2) then s.officeRail (railOffice r) r else s)

/-- SYNTHESISER_LOCK (R641): the converter moves to tick ÷ 512. -/
def execSynthesiserLock (s : State) : Out :=
  .next (
    if s.svc.pwr.good 8 = false ∨ s.svc.pwr.locked then s
    else (((s.modPwr fun p => { p with locked := true }).swr F.PWR_STAT_CLK_SYNC 1).raiseSvc 0x0E0A (le 1 1)).advance 9)

/-! ### VIN (R639) -/

/-- The module is as though unpowered: every die loses its state but for fuses and NVM; what the outside holds stays. -/
def State.powerOff (s : State) (started ovr : Bool) : State :=
  s.resetModule.modSvc fun d =>
    { d with
      inReset := true
      regs := []
      pwr := { started := started, ovr := ovr, on := 0, waiting := d.pwr.waiting || d.pwr.tripped, resetHeld := d.pwr.resetHeld } }

/-- VIN_RISE (R639, R642): VIN rises through 5.7 V. -/
def execVinRise (mv : W16) (s : State) : Out :=
  .next (
    if s.svc.pwr.started ∨ mv.toNat ≤ 5700 ∨ 42000 < mv.toNat then s
    else ((s.modPwr fun p => { p with started := true, next := some 0 }).swr F.PWR_STAT_VIN_MV mv.toNat).advance 9)

/-- VIN_LOW (R639): VIN has been below `VIN_LOW` for 1 ms; an orderly stop, once while the bit is set. -/
def execVinLow (mv : W16) (s : State) : Out :=
  .next (
    if s.svc.inReset ∨ s.srd F.PWR_CFG_VIN_LOW * 100 ≤ mv.toNat then s
    else
      let s := s.swr F.PWR_STAT_VIN_MV mv.toNat
      if s.srd F.PWR_STAT_VIN_LOW = 1 then s
      else
        let s := ((s.swr F.PWR_STAT_VIN_LOW 1).countUp .A F.PWR_CNT_VINLOW_COUNT).raiseSvc 0x0E08 (le 2 mv.toNat ++ le 1 0)
        match s.owner with
        | some o => s.orderlyStop o 1
        | none => s)

/-- BROWNOUT (R639): VIN falls below 5.4 V. -/
def execBrownout (mv : W16) (s : State) : Out :=
  .next (if s.svc.pwr.started = false ∨ 5400 ≤ mv.toNat then s else s.powerOff false false)

/-- VIN_OVER_VOLTAGE (R639): above 42.0 V the converter stops and every rail goes off. -/
def execVinOverVoltage (mv : W16) (s : State) : Out :=
  .next (
    if s.svc.pwr.started = false ∨ s.svc.pwr.ovr ∨ mv.toNat ≤ 42000 then s
    else (s.raiseSvc 0x0E08 (le 2 mv.toNat ++ le 1 1)).powerOff true true)

/-- VIN_RECOVERY (R639): below 40.5 V the sequence restarts. -/
def execVinRecovery (mv : W16) (s : State) : Out :=
  .next (
    if s.svc.pwr.ovr = false ∨ 40500 ≤ mv.toNat then s
    else ((s.modPwr fun p => { p with ovr := false, next := some 0 }).swr F.PWR_STAT_VIN_MV mv.toNat).advance 9)

/-- POWER_CAP_DEMAND (R639): the input power, in 10 mW, over 10 ms: a demand while it is above `P_CAP`. -/
def execPowerCapDemand (p : W16) (s : State) : Out :=
  .next (
    if s.svc.inReset then s
    else
      let s := s.swr F.PWR_PIN_P_IN p.toNat
      let above := decide (s.srd F.PWR_CFG_P_CAP * 100 < p.toNat)
      if s.srd F.PWR_STAT_PCAP = b2n above then s
      else
        let s := s.swr F.PWR_STAT_PCAP (b2n above)
        if above then s.raiseSvc 0x0E09 (le 2 p.toNat) else s)

/-! ### Rail faults (R640) -/

/-- VEMIT is off: every flash is SUPPRESSED. -/
def State.emitterOff (s : State) : State := (s.suppressNow).swr F.PWR_STAT_EMT_OFF 1

/-- Switches rails off. -/
def State.railsOff (s : State) (mask : Nat) : State := s.modPwr fun p => { p with on := p.on &&& (511 - mask) }

/-- The tile rails and VEMIT go off, and the module stops with cause supply. -/
def State.tileRailFault (s : State) : State :=
  let s := ((s.railsOff 0x87).modPwr fun p => { p with tileFault := true }).emitterOff
  let s := allTiles.foldl (fun s t => s.resetTile t) s
  match s.owner with
  | some o => s.orderlyStop o 1
  | none => s

/-- Both rails of an office go off; a second fault within 10 s latches them. -/
def State.officeRailFault (s : State) (o : OfficeId) : State :=
  let again := (s.svc.pwr.faultAt.get o).any fun t => decide (s.now ≤ t + ticksOfUs 10000000)
  let s := (s.railsOff (3 * 2 ^ (3 + 2 * officeBit o))).modPwr fun p =>
    { p with faultAt := p.faultAt.set o (some s.now), officeStep := p.officeStep.set o none }
  (s.swr (offField o) (if again then 2 else 1)).resetOffice o

/-- RAIL_FAULT (R640): a rail that is good, or that is being started, is in fault. -/
def execRailFault (rail : Fin 9) (cause : BitVec 2) (s : State) : Out :=
  .next (
    let r := rail.val
    let p := s.svc.pwr
    let starting := (p.next.any fun k => (stepRails k).contains r && s.railWanted r) ||
      (decide (3 ≤ r) && decide (r ≤ 6) && decide (p.officeStep.get (railOffice r) = some ((r + 1) % 2)))
    if (p.good r = false ∧ starting = false) ∨ 2 < cause.toNat then s
    else
      let s := (s.countUp .A F.PWR_CNT_RAILFLT_COUNT).raiseSvc 0x0E07 (le 1 r ++ le 1 cause.toNat)
      let s := if r = 8 then s else s.swr F.PWR_STAT_RAIL_FLT (s.srd F.PWR_STAT_RAIL_FLT ||| 2 ^ r)
      let s := if r < 3 then s.tileRailFault
        else if r < 7 then s.officeRailFault (railOffice r)
        else if r = 7 then (s.railsOff 0x80).emitterOff
        else s.powerOff false false
      s.advance 9)

/-- A write of `PWR_CTL`: the rails of an office that is off start again, unless they are latched (R640). -/
def State.writePwrCtl (s : State) (o : OfficeId) (v : Nat) : State :=
  let r := s.hostWrite o F.PWR_CTL_OFFICE_ON_A.off v
  if r.2 = false then r.1
  else [(OfficeId.A, 31), (.B, 30)].foldl (fun s x =>
    if bitsOf v x.2 1 = 1 ∧ s.srd (offField x.1) = 1 ∧ s.svc.pwr.officeStep.get x.1 = none then
      s.modPwr fun p => { p with officeStep := p.officeStep.set x.1 (some 0) }
    else s) r.1

/-- OFFICE_ON_A (R640). -/
def execOfficeOnA (o : OfficeId) (v : W32) (s : State) : Out := .next (s.writePwrCtl o v.toNat)

/-- OFFICE_ON_B (R640). -/
def execOfficeOnB (o : OfficeId) (v : W32) (s : State) : Out := .next (s.writePwrCtl o v.toNat)

/-- PWR_CNT_CLR (R652). -/
def execPwrCntClr (o : OfficeId) (v : W32) (s : State) : Out :=
  .next (s.clearWrite o F.PWR_CNT_CLR_RAILFLT.off v.toNat 0 [F.PWR_CNT_RAILFLT_COUNT, F.PWR_CNT_VINLOW_COUNT])

/-! ### The analogue trip and RESET_N (R650, R658) -/

/-- ANALOGUE_TRIP (R650): every rail but VSVC goes off, the loops are disabled, and the trip is latched. -/
def execAnalogueTrip (diodes : BitVec 7) (s : State) : Out :=
  .next (
    if diodes = 0 ∨ s.svc.pwr.good 8 = false then s
    else
      let s := ((s.emitterOff).swr F.PWR_STAT_EMT_OFF 0).setRun none
      let s := (s.swr F.THM_TRIP_TRIPPED 1).swr F.THM_TRIP_DIODE (s.srd F.THM_TRIP_DIODE ||| diodes.toNat)
      let s := (s.loopOffNow 0).loopOffNow 1
      let s := allTiles.foldl (fun s t => s.resetTile t) ((s.resetOffice .A).resetOffice .B)
      (s.modRing fun r => { r with open_ := false }).modPwr fun p =>
        { p with on := 0x100, next := none, officeStep := ⟨none, none⟩, tripped := true, tripDue := true, waiting := true })

/-- TRIP_WAIT_END (R650): every diode reads below 110 °C; a sequence that waits at step 2 of R642 goes on. -/
def execTripWaitEnd (s : State) : Out :=
  .next (
    if s.svc.pwr.waiting = false ∨ s.svc.pwr.tripped then s
    else (s.modPwr fun p => { p with waiting := false }).advance 9)

/-- RESET_N low, or a REBOOT (R650, R658): the dies are in reset; faults and a trip that kept rails off are released, and those rails
start again. -/
def State.assertReset (s : State) : State :=
  let s := s.resetModule.modPwr fun p =>
    { p with resetHeld := true, tripped := false, tileFault := false, faultAt := ⟨none, none⟩, officeStep := ⟨none, none⟩, levelAt := none }
  let p := s.svc.pwr
  if p.started = false ∨ p.ovr ∨ p.on = 0x1FF ∨ p.next.isSome then s
  else (s.modPwr fun p => { p with next := some 0 }).advance 9

/-- RESET_N_ASSERT (R658). -/
def execResetNAssert (s : State) : Out := .next s.assertReset

/-- REBOOT (R503): permitted in Standby, Held and Fallback, on the owner or on either office while none owns; the module is reset
after the response. -/
def execReboot (o : OfficeId) (tag : W16) (s : State) : Out :=
  .next (
    let ok := (s.mode o).uploads && (s.owns o || s.owner.isNone)
    let busy := (s.off o).inReset ∨ (s.off o).lb.doeError ∨ (s.off o).lb.job.isSome ∨ s.mode o = .loading
    let s := s.request o 0x30 tag ok fun s => s.respond o 0x30 tag 0x00 0 []
    if ok ∧ ¬busy then s.assertReset else s)

end Sys2Proof.Machine
end

