-- ==== Sys2Proof/Machine/Sequences.lean ====
section
/-! DEFINITION. Calibration sequences and the injection strobe (02 R59, R60, R73; 18 R670, R671). -/

namespace Sys2Proof.Machine

/-- A parameter of calibration sequence `k`: `n` bytes from `ofs` on (R670). -/
def Office.seqParam (d : Office) (k ofs n : Nat) : Nat := d.bytesAt (sequenceAddr k) ofs n

/-- `KIND`, `PULSES`, `PERIOD`, and the strobes that a tile gets in kinds 0x01 and 0x02 (R670, R671). -/
def Office.seqKind (d : Office) (k : Nat) : Nat := d.seqParam k 0 1
def Office.seqPulses (d : Office) (k : Nat) : Nat := d.seqParam k 2 2
def Office.seqPeriod (d : Office) (k : Nat) : Nat := d.seqParam k 4 4
def Office.seqStrobes (d : Office) (k : Nat) : Nat := d.seqPulses k * d.seqParam k 12 2 * d.seqParam k 18 2

/-- A code of a point: start and signed step, in ten bits. -/
def pointCode (start step n : Nat) : BitVec 10 := BitVec.ofInt 10 (start + toInt 16 step * n)

/-- The order that drives a tile to point `p`: thresholds in the outer loop, injection in the inner one (R671). -/
def Office.pointOrder (d : Office) (k p : Nat) : TileOrder :=
  let n := d.seqParam k 12 2
  .point (pointCode (d.seqParam k 8 2) (d.seqParam k 10 2) (p % n)) (pointCode (d.seqParam k 14 2) (d.seqParam k 16 2) (p / n))

/-- The order that sets `INJ_SEL` in the cells of `SELECT`; in a dither sequence interpolator 0 is the first forced off (R671). -/
def Office.selectOrder (d : Office) (k : Nat) : TileOrder :=
  .sequence (some (BitVec.ofNat 32 (d.seqParam k 20 4))) (if d.seqKind k = 3 then some false else none)

/-- A sequence starts at its round boundary (R671). An empty slot, or one that reads uncorrectable, starts nothing. -/
def State.beginSequence (s : State) (o : OfficeId) (c : CalRun) : State :=
  let d := s.off o
  let bad := d.windowBad (sequenceAddr c.slot) 64
  let s := s.useWindow o (sequenceAddr c.slot) 64
  if bad ∨ d.seqKind c.slot = 0 then s.modOff o fun d => { d with calRun := none }
  else
    let s := (s.modOff o fun d => { d with calRun := some { c with running := true } }).wr o F.GLB_CALSEQ_RUN 1
    allTiles.foldl (fun s t => (s.orderNow o t (d.selectOrder c.slot)).orderNow o t (d.pointOrder c.slot 0)) s

/-- What a round boundary does to a sequence of the owner: one that waits starts (R671). What a boundary changes in the tiles
during a sequence, and after it, is theirs (`Tile.boundaryOrders`). -/
def State.boundarySequence (s : State) (o : OfficeId) (r : Nat) : State :=
  match (s.off o).calRun with
  | none => s
  | some c => if c.running = false ∧ roundLe c.fromRound r then s.beginSequence o c else s

/-- CALIBRATION_SEQUENCE_GO (R671): starts the owner's sequence `SEQ` at the next round boundary; outside Calibration it is
refused for each tile (R59). While one runs, `GO` is ignored. -/
def execCalibrationSequenceGo (o : OfficeId) (v : W32) (s : State) : Out :=
  .next ((s.hostAction o F.GLB_CALSEQ_GO.off v.toNat 31 fun s =>
    let k := s.rd o F.GLB_CALSEQ_SEQ
    if s.mode o ≠ .calibration then allTiles.foldl (fun s t => s.raise o 0x0110 (le 1 t.val ++ le 1 k)) s
    else if s.owns o = false ∨ s.flag o F.GLB_CALSEQ_RUN then s
    else s.modOff o fun d =>
      { d with calRun := some { slot := k, fromRound := nextRound (s.roundOf d.count).toNat } }).mirrorChanges)

/-- Whether a running sequence has come to its end: its last strobe, or the end of its code-density pass (R671). -/
def State.sequenceOver (s : State) (o : OfficeId) (c : CalRun) : Bool :=
  if (s.off o).seqKind c.slot = 3 then c.passEnded
  else allTiles.all fun t => (s.tile t).inReset || decide ((s.off o).seqStrobes c.slot ≤ c.fired.get t)

/-- CALIBRATION_SEQUENCE_END (R671). Leaving Calibration, and a rewrite of the slot, end a sequence where they happen. -/
def execCalibrationSequenceEnd (o : OfficeId) (s : State) : Out :=
  .next (
    match (s.off o).calRun with
    | some c => if c.running && s.sequenceOver o c then s.endSequence o else s
    | none => s)

/-- A strobe in the calibration state: each selected cell that is not armed is skipped and counted (R60). -/
def State.strobeTile (s : State) (t : Fin 4) : State :=
  s.modTile t fun d => d.countBy t F.SORT_FE_CNT_INJSKIP_COUNT d.injSkipped

/-- A strobe of a running threshold or charge scan: the next point follows `PULSES` strobes, `PERIOD` ticks apart (R671). -/
def State.strobeSequence (s : State) (o : OfficeId) (t : Fin 4) (c : CalRun) : State :=
  let d := s.off o
  let n := c.fired.get t
  let due := startTickBefore s.svc.roundShift c.fromRound d.count.toNat + n * d.seqPeriod c.slot
  if d.seqStrobes c.slot ≤ n ∨ tickLt d.count.toNat due then s
  else
    let s := (s.strobeTile t).modOff o fun d => { d with calRun := some { c with fired := c.fired.set t (n + 1) } }
    if (n + 1) % d.seqPulses c.slot = 0 ∧ n + 1 < d.seqStrobes c.slot then s.orderTile o t (d.pointOrder c.slot ((n + 1) / d.seqPulses c.slot)) else s

/-- INJECTION_STROBE (R59, R60, R671): in the calibration state the strobe injects, and moves a running scan on; outside it, the
owner raises 0x0110 with the sequence. The charge itself comes back as edges. DESIGN CHOICE: while no office owns, nothing raises
the notice, since R77 names no raiser then (log entry 92). -/
def execInjectionStrobe (t : Fin 4) (s : State) : Out :=
  .next (
    match s.owner with
    | none => if (s.tile t).calib then s.strobeTile t else s
    | some o =>
      if (s.tile t).calib = false then s.raise o 0x0110 (le 1 t.val ++ le 1 (s.rd o F.GLB_CALSEQ_SEQ))
      else
        match (s.off o).calRun with
        | some c => if c.running ∧ (s.off o).seqKind c.slot ≠ 3 then s.strobeSequence o t c else s.strobeTile t
        | none => s.strobeTile t)

end Sys2Proof.Machine
end

