-- ==== Sys2Proof/Machine/Modes.lean ====
section
/-! DEFINITION. Operating modes: requests, transitions, Held, the entry to Standby, and the case without an owner
(18 R656 to R668; 13 R543; 05 R173, R220). -/

namespace Sys2Proof.Machine

/-! ### What a transition does (R663) -/

/-- The mode in which rounds from `r` on are taken (R173). -/
def State.takeFrom (s : State) (o : OfficeId) (r : Nat) (m : Mode) : State :=
  s.modOff o fun d => { d with modeFrom := ((r, m) :: d.modeFrom.filter fun e => roundLt e.1 r).take 64 }

/-- Whether every round that an office was to merge has been handed over. -/
def Office.mergedAll (d : Office) : Bool := d.spans.all fun x => x.2.any fun b => roundLe b (d.nextKey / 256)

/-- What a tile holds of rounds under another `ROUND_SHIFT` goes. -/
def Tile.newRounds (d : Tile) (r : Nat) : Tile :=
  { d with buckets := [], late := [], queue := d.queue.filter fun f => decide (f.kind = .status), lanes := [], closedTo := r
           switchRound := r }

/-- What an office holds of rounds under another `ROUND_SHIFT` goes. -/
def Office.newRounds (d : Office) : Office :=
  { d with rounds := [], roundAcc := [], spans := [], mrg := { d.mrg with units := [], held := [] }
           cmp := { d.cmp with seen := [], keyRounds := []
                               plans := d.cmp.plans.map fun p => { p with endOrd := some (p.endOrd.getD d.cmp.nextOrd) } }
           seqs := ⟨{ d.seqs.t0 with holdNote := 0 }, { d.seqs.t1 with holdNote := 0 }, { d.seqs.t2 with holdNote := 0 },
             { d.seqs.t3 with holdNote := 0 }⟩ }

/-- The owner's `ROUND_SHIFT` takes effect on every die at tick `te` (R220). -/
def State.applyShift (s : State) (o : OfficeId) (te : Nat) : State :=
  let n := s.rd o F.SORT_CTL_ROUND_SHIFT
  if n = s.svc.roundShift then s
  else
    let s := s.modSvc fun d => { d with roundShift := n }
    let s := allTiles.foldl (fun s t => s.modTile t fun d => d.newRounds (te / 2 ^ n % 2 ^ 48)) s
    (s.modOff .A Office.newRounds).modOff .B Office.newRounds

/-- A data mode is entered from Standby: the round that starts at `te` is the first merged, and opens a new sack (R663). -/
def State.startData (s : State) (o : OfficeId) (m : Mode) (te : Nat) : State :=
  let s := s.applyShift o te
  let r := te / 2 ^ s.svc.roundShift % 2 ^ 48
  let s := s.modOff o fun d =>
    if d.mergedAll then
      { d with spans := [(r, none)], nextKey := r * 256, sto := { d.sto with resume := true }, mrg := { d.mrg with lastBegun := none } }
    else { d with spans := d.spans ++ [(r, none)], mrg := { d.mrg with lastBegun := none } }
  s.takeFrom o r m

/-- The data modes are left: rounds from `r` on are not merged, a RUNNING campaign is aborted, open mailbags close (R173, R456,
R632, R663). -/
def State.stopData (s : State) (o : OfficeId) (r : Nat) : State :=
  let s := s.modOff o fun d =>
    { d.endSpans r with mrg := { d.mrg with lastBegun := none } }
  let s := if s.rd o F.EMT_CAL_STAT_STATE = 1 then s.abortCampaign o 2 else s
  (s.takeFrom o r .standby).closeBags o fun _ _ _ => true

/-- The tiles whose vote names the office enter or leave their calibration state (R18); leaving it ends a sequence (R59, R671). -/
def State.setCalib (s : State) (o : OfficeId) (on : Bool) : State :=
  let s := if on then s else s.endSequence o
  allTiles.foldl (fun s t => if s.heeds t o then s.modTile t fun d => { d with calib := on } else s) s

/-- Raises a notice 0x0810 that is due. -/
def State.raiseModeNote (s : State) (o : OfficeId) : State :=
  match (s.off o).modeNote with
  | some n => (s.modOff o fun d => { d with modeNote := none }).raise o 0x0810 (le 1 n.1 ++ le 1 n.2.1 ++ le 1 n.2.2.1 ++ le 8 n.2.2.2)
  | none => s

/-- The same, once the tick after the transition has come (R663). -/
def State.settleModeNote (s : State) (o : OfficeId) : State :=
  if (s.off o).modeNote.any fun n => tickLt n.2.2.2 (s.off o).count.toNat then s.raiseModeNote o else s

/-- An office moves to a mode with effect from tick `te` (R658, R663). -/
def State.enterMode (s : State) (o : OfficeId) (m : Mode) (te : Nat) : State :=
  let old := s.mode o
  let r := te / 2 ^ s.svc.roundShift % 2 ^ 48
  let s := s.latchCauses
  let s := if old = .standby ∧ m.isData then s.startData o m te
    else if old.isData ∧ m.isData then s.takeFrom o r m
    else if old.isData then s.stopData o r
    else s
  let s := if decide (old = .calibration) = decide (m = .calibration) then s else s.setCalib o (decide (m = .calibration))
  let s := (s.setMode o m).modOff o fun d => { d with pendMode := none }
  let s := (s.wrPair o F.GLB_MODE_TICK_LO_TICK_L F.GLB_MODE_TICK_HI_TICK_H te).showPending o
  let s := (s.raiseModeNote o).modOff o fun d => { d with modeNote := some (old.code, m.code, s.rd o F.GLB_MODE_HELD_CAUSE, te) }
  ((((s.syncSeqs o).settleStore o).endForce).latchCauses).mirrorChanges

/-! ### Requests (R660 to R662, R665) -/

/-- The moves of R658 that a request may ask for. -/
def moveAllowed (cur m : Mode) : Bool :=
  match cur with
  | .standby => m.isData
  | .calibration | .streaming | .selective => decide (m ≠ cur) && (m.isData || decide (m = .standby))
  | .held => decide (m = .standby)
  | _ => false

/-- Whether the time base runs (R661 check 0x6). -/
def State.timeRuns (s : State) : Bool :=
  decide (s.srd F.TB_STAT_UNSYNC = 0) &&
    decide (s.srd (if s.srd F.TB_STAT_HEAD = 1 then F.TB_STAT_STARTED else F.TB_STAT_SYNCED) = 1)

/-- Whether a tile meets `GLB_CFG` (R661 check 0x7). -/
def State.tileReady (s : State) (o : OfficeId) (t : Fin 4) : Bool :=
  s.reaches o t && decide (s.rd o F.SORT_TE_STAT_UNLOCKED t.val ≤ s.rd o F.GLB_CFG_UNLOCK_MAX)

/-- Whether a loop is in AUTO with r equal to its set-point (R661 check 0x8). -/
def State.loopReady (s : State) (k : Nat) : Bool :=
  decide (s.loopState k = loopAuto) && decide ((s.loop k).r = mvTo20 (s.srd F.LOOP_SETPOINT_MV k) * 2 ^ 16)

/-- Checks 0x4 to 0x9 (R661). -/
def State.dataFault (s : State) (o : OfficeId) : Nat :=
  if s.moduleId o = 0 then 4
  else if s.storeOn o = false then 5
  else if s.timeRuns = false then 6
  else if allTiles.any (fun t => bitsOf (s.rd o F.GLB_CFG_TILE_REQ) t.val 1 = 1 && !s.tileReady o t) then 7
  else if [0, 1].any (fun k => bitsOf (s.rd o F.GLB_CFG_BIAS_REQ) k 1 = 1 && !s.loopReady k) then 8
  else if s.flag o F.ERR_CBT_CTL_EN then 9
  else 0

/-- Whether T_max or `HOLD` bars the way out of Held (R649). -/
def State.tooHot (s : State) (o : OfficeId) : Bool :=
  decide ((s.rd o F.THM_CFG_T_THR * 100 : Nat) ≤ toInt 16 (s.rd o F.THM_STAT_T_MAX)) || decide (s.srd F.THM_STAT_HOLD = 1)

/-- Whether a supply cause persists (R665). -/
def State.supplyBad (s : State) : Bool :=
  decide (s.srd F.PWR_STAT_VIN_MV < s.srd F.PWR_CFG_VIN_LOW * 100) || s.svc.pwr.tileFault

/-- Checks 0xA and 0xB (R649, R661, R665). -/
def State.heldFault (s : State) (o : OfficeId) : Nat :=
  let c := s.rd o F.GLB_MODE_HELD_CAUSE
  if (c = 1 ∨ c = 2) ∧ s.tooHot o then 10
  else if c = 2 ∧ s.supplyBad then 11
  else 0

/-- Whether a transition is pending to a request of the host, or to a MODE broadcast, which a pending request of the host does
not stop (R662). -/
def State.transitionPends (s : State) (o : OfficeId) (ring : Bool) : Bool :=
  let d := s.off o
  (d.pendMode.isSome && (!ring || d.loadedAt.isSome)) || (!ring && s.svc.ring.sched.any fun b => decide (b.op = 5))

/-- `REFUSE` of a request for mode code `code`: the first check that fails, or 0 (R661). -/
def State.modeFault (s : State) (o : OfficeId) (code : Nat) (ring : Bool) : Nat :=
  let cur := s.mode o
  match Mode.ofCode code with
  | some m =>
    if s.owns o = false then 1
    else if moveAllowed cur m = false then 2
    else if s.transitionPends o ring then 3
    else if cur = .standby then s.dataFault o
    else if cur = .held then s.heldFault o
    else 0
  | none => if s.owns o = false then 1 else 2

/-- A request is refused (R661, R693): `source` 0 host, 1 ring. -/
def State.refuseMode (s : State) (o : OfficeId) (code fault source : Nat) : State :=
  (s.wr o F.GLB_MODE_REFUSE fault).raise o 0x0812 (le 1 code ++ le 1 fault ++ le 1 source)

/-- The least multiple of `m` that is at least `n`. -/
def nextMultiple (m n : Nat) : Nat := (n + m - 1) / m * m

/-- The effective tick of a request accepted now (R658). -/
def State.effectiveTick (s : State) (o : OfficeId) : Nat :=
  let c := (s.off o).count.toNat
  if s.mode o = .standby then nextMultiple (2 ^ 20) (c + 2 ^ 18) else nextMultiple (2 ^ s.svc.roundShift) (c + 8192)

/-- The host asks for a mode (R660, R661). -/
def State.requestMode (s : State) (o : OfficeId) (code : Nat) : State :=
  let f := s.modeFault o code false
  if f ≠ 0 then s.refuseMode o code f 0
  else
    match Mode.ofCode code with
    | some m =>
      let p : PendingMode := { target := m, atCount := BitVec.ofNat 64 (s.effectiveTick o), sched := false }
      (s.modOff o fun d => { d with pendMode := some p }).showPending o
    | none => s

/-- MODE_REQUEST (R660, R661). -/
def execModeRequest (o : OfficeId) (v : W32) (s : State) : Out :=
  .next (s.hostAction o F.GLB_MODE_REQ_GO.off v.toNat 31 fun s => s.requestMode o (bitsOf v.toNat 0 4))

/-- The exit from Held begins: QUIET is left, and Standby follows once the clusters have locked (R666). -/
def State.startExit (s : State) (o : OfficeId) (te : Nat) (sched : Bool) : State :=
  let p : PendingMode := { target := .standby, atCount := BitVec.ofNat 64 te, sched := sched }
  ((s.sendQuiet o false).modOff o fun d => { d with pendMode := some p, loadedAt := some s.now, quietAt := none }).showPending o

/-- A transition to mode `m` takes effect at tick `te`. -/
def State.transition (s : State) (o : OfficeId) (m : Mode) (te : Nat) (sched : Bool) : State :=
  if s.mode o = .held then s.startExit o te sched else s.enterMode o m te

/-- MODE_TRANSITION (R658, R663): the pending transition takes effect at its tick. -/
def execModeTransition (o : OfficeId) (s : State) : Out :=
  .next (
    match (s.off o).pendMode with
    | some p =>
      if s.owns o = false ∨ (s.off o).loadedAt.isSome ∨ tickLt (s.off o).count.toNat p.atCount.toNat then s
      else s.transition o p.target p.atCount.toNat p.sched
    | none => s)

/-- MODE (R407, R658, R661, R662): at S the owner checks the broadcast; an accepted one cancels a pending request of the host. -/
def execMode (s : State) : Out :=
  .next (s.runDue 5 fun s b =>
    match s.owner with
    | none => s
    | some o =>
      let code := ofLe (b.arg.take 1) % 16
      let f := s.modeFault o code true
      if f ≠ 0 then s.refuseMode o code f 1
      else
        match Mode.ofCode code with
        | some m => (s.modOff o fun d => { d with pendMode := none }).transition o m b.tick true
        | none => s)

/-! ### Held (R664 to R666) -/

/-- Sends QUIET once its tick has come (R666). -/
def State.settleQuiet (s : State) (o : OfficeId) : State :=
  if (s.off o).quietAt.any fun c => tickLe c (s.off o).count.toNat then
    (s.modOff o fun d => { d with quietAt := none }).sendQuiet o true
  else s

/-- HELD_ENTRY (R658, R662, R664, R666): at the first round boundary after the cause; every pending transition is cancelled. The
owner sends QUIET at the closing tick of the last merged round. -/
def execHeldEntry (o : OfficeId) (s : State) : Out :=
  .next (
    match (s.off o).toHeld with
    | none => s
    | some x =>
      let old := s.mode o
      let may := decide (old = .standby) || old.isData
      if may = false ∨ tickLt (s.off o).count.toNat x.2 then s
      else
        let s := (s.modOff o fun d => { d with toHeld := none, pendMode := none }).wr o F.GLB_MODE_HELD_CAUSE x.1
        let quiet := if old.isData then s.closingTick o (roundBack (x.2 / 2 ^ s.svc.roundShift) 1) else x.2
        let s := s.enterMode o .held x.2
        if s.owns o then (s.modOff o fun d => { d with quietAt := some quiet }).settleQuiet o else s)

/-- NO_OWNER_TIMEOUT (R543, R664): an office finds no owner for 150,000 ticks: notice 0x0A0C once, and Held where it has ended
Loading. -/
def execNoOwnerTimeout (o : OfficeId) (s : State) : Out :=
  .next (
    let w := (s.off o).twin
    if (s.off o).inReset ∨ w.noOwnerNoted ∨ (w.noOwnerSince.all fun t => decide (s.now < t + 150000)) then s
    else
      let s := s.modTwin o fun w => { w with noOwnerNoted := true }
      let s := s.raise o 0x0A0C (le 1 (s.votesFor o 0) ++ le 1 (s.votesFor o 1) ++ le 1 (s.heardMask o))
      if s.mode o = .standby ∨ (s.mode o).isData then s.askHeld o 3 else s)

/-! ### Standby (R659, R666, R668) -/

/-- The tiles that an office reaches and that have not reported `UNLOCKED` ≤ `UNLOCK_MAX` since tick `t0` of the model (R668). -/
def State.unlockedTiles (s : State) (o : OfficeId) (t0 : Nat) : List (Fin 4) :=
  allTiles.filter fun t => s.reaches o t && !(s.tileReady o t && ((s.off o).statusAt.get t).any fun a => decide (t0 ≤ a))

/-- What the first entry to Standby after reset opens: the ring bypass, but for MODID 0, and the status loop (R28, R605, R659). -/
def State.openModule (s : State) (o : OfficeId) : State :=
  let s := s.modSl fun l => { l with configured := true }
  if s.moduleId o = 0 ∨ s.svc.ring.open_ then s
  else s.modRing fun r => { r with open_ := true, w := { r.w with since := s.now }, e := { r.e with since := s.now } }

/-- The owner enters Standby from Loading, which fixes `GLB_BOOT`, or from Held (R666, R668). -/
def State.enterStandby (s : State) (o : OfficeId) (bad : List (Fin 4)) : State :=
  let worst := allTiles.foldl (fun m t => if s.reaches o t then max m (s.rd o F.SORT_TE_STAT_UNLOCKED t.val) else m) 0
  let s := if bad = [] then s
    else s.raise o 0x0813 (le 1 (bad.foldl (fun m t => m + 2 ^ t.val) 0) ++ le 2 worst)
  let s := if s.mode o = .loading then s.wr o F.GLB_BOOT_MS (min 65535 ((s.now - (s.off o).leftResetAt) / ticksOfUs 1000))
    else s.wr o F.THM_STAT_STOPPED 0
  let s := s.modOff o fun d => { d with loadedAt := none }
  (s.openModule o).enterMode o .standby (s.off o).count.toNat

/-- STANDBY_ENTRY (R666, R668): once every tile has locked, or 100 ms after the last word was sent. -/
def execStandbyEntry (s : State) : Out :=
  .next (
    match s.owner with
    | none => s
    | some o =>
      match (s.off o).loadedAt with
      | none => s
      | some t0 =>
        let bad := s.unlockedTiles o t0
        if (s.mode o ≠ .loading ∧ s.mode o ≠ .held) ∨ (bad ≠ [] ∧ s.now < t0 + ticksOfUs 100000) then s
        else s.enterStandby o bad)

end Sys2Proof.Machine
end

