-- ==== Sys2Proof/Machine/Errors.lean ====
section
/-! DEFINITION. Check-bit test mode, escalation windows, error counters, and host reads of arrays (18 R677 to R690). -/

namespace Sys2Proof.Machine

/-! ### Check-bit test mode (R683, R692) -/

/-- The notice of check-bit test mode: 0 entered, 1 left, 2 refused. -/
def State.cbtNotice (s : State) (o : OfficeId) (k : Nat) : State := s.raise o 0x0F26 (le 1 k)

/-- Whether DATA may write a word: of a spare page that is not used, or of staging. -/
def State.cbtTarget (s : State) (o : OfficeId) (a w : Nat) : Bool :=
  decide (a = 6) || (decide (a = 7) && !(s.sparesTaken o o).contains (w / 512))

/-- The check byte a word of data should have. -/
def checkByte (data : Nat) : Nat := (Config.checkOf data).toNat

/-- DATA: data and check byte as the registers hold them. -/
def State.cbtWrite (s : State) (o : OfficeId) (a w : Nat) : State :=
  if s.cbtTarget o a w then
    let data := s.rdPair o F.ERR_CBT_DATA_LO_DATA_L F.ERR_CBT_DATA_HI_DATA_H
    s.putWord o a w data (s.rd o F.ERR_CBT_CHECK_CHECK ^^^ checkByte data)
  else s.cbtNotice o 2

/-- CHECK: the check byte only. -/
def State.cbtSetCheck (s : State) (o : OfficeId) (a w : Nat) : State :=
  let p := (s.off o).place a w
  let data := (s.off o).arrData a w
  s.putWord o p.1 p.2 data (s.rd o F.ERR_CBT_CHECK_CHECK ^^^ checkByte data)

/-- The code of a class (R692). -/
def EccClass.code : EccClass → Nat
  | .clean => 0
  | .correctable => 1
  | .uncorrectable => 2

/-- READ: raw data, check byte and class; what stands in stream histories and staging is a free value, as no register or window
shows its layout. -/
def State.cbtFetch (s : State) (o : OfficeId) (a w : Nat) : State :=
  let syn := (s.off o).arrSyn a w
  let cls := (s.off o).arrClass a w
  let mapped := decide (a ≠ 4 ∧ a ≠ 6) || decide ((s.off o).arrData a w ≠ 0)
  let x := if mapped then ((s.off o).arrData a w, s) else s.draw 64
  let s := x.2.wrPair o F.ERR_CBT_DATA_LO_DATA_L F.ERR_CBT_DATA_HI_DATA_H x.1
  (s.wr o F.ERR_CBT_CHECK_CHECK (syn ^^^ checkByte x.1)).wr o F.ERR_CBT_CHECK_CLASS cls.code

/-- One operation of check-bit test mode on the word that `ERR_CBT_ADDR` names. -/
def State.cbtOperate (s : State) (o : OfficeId) : State :=
  let a := s.rd o F.ERR_CBT_CTL_ARRAY
  let w := s.rd o F.ERR_CBT_ADDR_WORD
  if s.flag o F.ERR_CBT_CTL_EN = false ∨ wordExists a w = false then s.cbtNotice o 2
  else
    match s.rd o F.ERR_CBT_CTL_OP with
    | 0 => s.cbtWrite o a w
    | 1 => s.cbtSetCheck o a w
    | _ => s.cbtFetch o a w

/-- A write of `ERR_CBT_CTL` (R683): one that sets `EN` is refused outside Standby. -/
def State.writeCbtCtl (s : State) (o : OfficeId) (v : Nat) : State :=
  let addr := F.ERR_CBT_CTL_EN.off
  if s.takesWrites o ∧ bitsOf v 31 1 = 1 ∧ s.mode o ≠ .standby then (s.journal o addr v false).cbtNotice o 2
  else
    let was := s.flag o F.ERR_CBT_CTL_EN
    let r := s.hostWrite o addr v
    if r.2 = false then r.1
    else
      let s := r.1
      let on := s.flag o F.ERR_CBT_CTL_EN
      let s := if on = was then s else s.cbtNotice o (b2n was)
      if bitsOf v 30 1 = 1 then s.cbtOperate o else s

/-- CBT_ENABLE (R683). -/
def execCbtEnable (o : OfficeId) (v : W32) (s : State) : Out := .next (s.writeCbtCtl o v.toNat)

/-- CBT_DATA (R683). -/
def execCbtData (o : OfficeId) (v : W32) (s : State) : Out := .next (s.writeCbtCtl o v.toNat)

/-- CBT_CHECK (R683). -/
def execCbtCheck (o : OfficeId) (v : W32) (s : State) : Out := .next (s.writeCbtCtl o v.toNat)

/-- CBT_READ (R683). -/
def execCbtRead (o : OfficeId) (v : W32) (s : State) : Out := .next (s.writeCbtCtl o v.toNat)

/-! ### Escalation windows and counters (R684, R685, R689) -/

/-- The length of an escalation window in ticks. -/
def State.escWindow (s : State) (o : OfficeId) : Nat := s.rd o F.ERR_ESC_CFG2_ESC_MS * ticksOfUs 1000

/-- ESCALATION_WINDOW_END (R684, R685): the events of the window are forgotten, and the next window begins; engines out of service
are judged again. -/
def execEscalationWindowEnd (o : OfficeId) (s : State) : Out :=
  .next (
    let d := s.off o
    if d.inReset ∨ s.now < d.escAt + s.escWindow o then s
    else
      (s.modOff o fun d =>
        { d with escAt := d.escAt + s.escWindow o, ueWindow := [], resDrops := 0, resRetries := 0, vFails := 0 }).checkEngines o)

/-- ERR_CNT_CLR (R689). -/
def execErrCntClr (o : OfficeId) (v : W32) (s : State) : Out :=
  .next (
    let r := s.hostWrite o F.ERR_CNT_CLR_CE.off v.toNat
    if r.2 = false then r.1
    else
      let s := if v.getLsbD 0 then (List.range 8).foldl (fun s a => s.clearCounter o F.ERR_CNT_CE_COUNT a) r.1 else r.1
      let s := if v.getLsbD 1 then (List.range 8).foldl (fun s a => s.clearCounter o F.ERR_CNT_UE_COUNT a) s else s
      let s := if v.getLsbD 2 then s.clearCounter o F.ERR_CNT_RTEVICT_COUNT else s
      if v.getLsbD 3 then s.clearCounter o F.ERR_CNT_PWREF_COUNT else s)

/-- ARRAY_HOST_READ (R201, R441, R677, R678): a host read of an array word. -/
def execArrayHostRead (o : OfficeId) (addr : BitVec 26) (s : State) : Out :=
  .next (if (arrayAt addr.toNat).isSome ∧ addr.toNat % 4 = 0 then s.hostRead o addr.toNat else s)

end Sys2Proof.Machine
end

