-- ==== Sys2Proof/Machine/RoundBoundary.lean ====
section
/-! DEFINITION. The round boundary: the check word, and what tiles and offices do once a round (01 R20, R25, R26; 02 R67,
R69, R76; 04 R146, R150, R164, R169; 13 R521, R526, R547). -/

namespace Sys2Proof.Machine

/-! ### The check word (R25, R26) -/

/-- Whether the dies' counts are about to be loaded from the ring, so that no difference is an error (R381). -/
def State.fromRing (s : State) : Bool := s.svc.ring.startPending

/-- The owner's part of a tick mismatch of die `die` (R26): notice 0x07F0 with the two round numbers, the die's and the service
die's. -/
def State.noteMismatch (s : State) (die own r : Nat) : State :=
  match s.owner with
  | some o => s.raise o 0x07F0 (le 1 die ++ le 6 own ++ le 6 r)
  | none => s

/-- The owner discards a tile's letters of the round that begins, up to the reload at the next boundary (R26). -/
def State.discardRound (s : State) (t : Fin 4) (r : Nat) : State :=
  match s.owner with
  | some o => s.modOff o fun d => { d with tickBad := ((t.val, r) :: d.tickBad).take 64, tickLost := d.tickLost + 1 }
  | none => s

/-- A tile compares the check word, or loads the count after a mismatch (R25, R26). -/
def State.checkTile (s : State) (t : Fin 4) (r : Nat) : State :=
  let d := s.tile t
  if d.inReset then s
  else
    match d.reload with
    | some a =>
      if a < s.now then s.modTile t fun d => { d with count := s.svc.count, reload := none, closedTo := if roundLt r d.closedTo then r else d.closedTo } else s
    | none =>
      let own := d.count.toNat / 2 ^ s.svc.roundShift
      if own % 65536 = r % 65536 then s
      else
        let s := s.modTile t fun d => { d with reload := some s.now }
        if s.fromRing then s else (s.discardRound t r).noteMismatch t.val own r

/-- An office compares the check word, or loads the count after a mismatch (R25, R26, R526). -/
def State.checkOffice (s : State) (o : OfficeId) (r : Nat) : State :=
  let d := s.off o
  if d.inReset then s
  else
    match d.reload with
    | some a => if a < s.now then s.modOff o fun d => { d with count := s.svc.count, reload := none } else s
    | none =>
      let own := d.count.toNat / 2 ^ s.svc.roundShift
      if own % 65536 = r % 65536 then s.setHealth o F.TWN_HEALTH_TICK false
      else
        let s := s.modOff o fun d => { d with reload := some s.now }
        if s.fromRing then s else (s.noteMismatch (4 + officeBit o) own r).setHealth o F.TWN_HEALTH_TICK true

/-! ### What a tile does (R69, R76, R146, R150, R329, R521) -/

/-- The lane switch (R20, R521): the lanes follow the office that the vote names. The round of the last switch is kept within the
reach of comparisons (R11). -/
def Tile.switchLanes (d : Tile) (r : Nat) : Tile :=
  let d := if roundLe (d.switchRound + 2048) r then { d with switchRound := roundBack r 2048 } else d
  match d.vote with
  | .none => d
  | .office o =>
    if d.laneOwner = .office o then d else { d with laneOwner := .office o, prevOwner := d.laneOwner, switchRound := r }

/-- The lanes have switched to the owner: it has the decimation that the tile has (R364). -/
def State.showDec (s : State) (t : Fin 4) (before : Vote) : State :=
  match (s.tile t).laneOwner with
  | .office o =>
    if (s.tile t).laneOwner ≠ before ∧ s.owns o then s.wr o F.TRG_STAT_DEC (decCode (s.tile t).dec) t.val else s
  | .none => s

/-- Lanes that the owner has reported UP join (R150). -/
def Tile.joinLanes (d : Tile) (now : Nat) : Tile :=
  ({ d with upLetter := d.addLetter, upSum := d.addSum }.dispatch now 32).noteDec

/-- Clears one counter: it keeps the events of this tick (R14), and 0x0101 may be raised for it again (R78). -/
def Tile.clearCounter (d : Tile) (t : Fin 4) (f : Fld) : Tile :=
  let k := f.key t.val 0
  { d with cnt := regSet d.cnt f t.val 0 (min (Sparse.get 0 d.fresh k) (2 ^ f.w - 1)), fullNoted := d.fullNoted.erase k }

/-- Counters of a list whose bit is set are cleared; bit 0 belongs to the first. -/
def Tile.clearCounters (d : Tile) (t : Fin 4) (v : Nat) : Nat → List Fld → Tile
  | _, [] => d
  | k, f :: fs => (if bitsOf v k 1 = 1 then d.clearCounter t f else d).clearCounters t v (k + 1) fs

/-- Clears that were passed on since the last boundary (R76, R120). -/
def Tile.applyClears (d : Tile) (t : Fin 4) : Tile :=
  let d := d.clearCounters t d.clrFe.toNat 0
    [F.SORT_FE_CNT_PBUSY_COUNT, F.SORT_FE_CNT_QFULL_COUNT, F.SORT_FE_CNT_TOTSAT_COUNT, F.SORT_FE_CNT_INJSKIP_COUNT,
     F.SORT_FE_CNT_SEU_COUNT]
  let d := d.clearCounters t d.clrTe.toNat 0
    [F.SORT_TE_CNT_COLEAD_COUNT, F.SORT_TE_CNT_COTRAIL_COUNT, F.SORT_TE_CNT_ORPHAN_COUNT, F.SORT_TE_CNT_UNLOCK_COUNT]
  { d with clrFe := 0, clrTe := 0 }

/-- Clusters with `DLL_EN` whose DLL is not locked (R119); `DLL_EN` resets to 0. -/
def Tile.unlocked (d : Tile) : Nat :=
  (d.clusterCfg.filter fun e =>
    cfgDllEn e.2 && (match (d.cluster e.1).dll with
      | .locked _ => false
      | _ => true)).length

/-- Interpolators that `IPCFG` disables (R119). -/
def Tile.ipOff (d : Tile) : Nat :=
  (d.clusterCfg.map fun e => b2n (cfgIpOff e.2 false) + b2n (cfgIpOff e.2 true)).sum

/-- A register image (R145). -/
def regImage (group ofs v : Nat) : Nat := 1 + group * 2 ^ 8 + ofs * 2 ^ 16 + v % 2 ^ 32 * 2 ^ 32

/-- The 16 words of a tile's status frame (R146). -/
def Tile.statusWords (d : Tile) (t : Fin 4) : List Nat :=
  let cnt := fun (g : Nat) => (tileCounters.filter fun e => e.1 = g).map fun e => regImage g e.2.1 (regGet d.cnt e.2.2 t.val 0)
  let temp := fun k => regImage 0 (0x28 + 4 * k) (Sparse.get 0 d.sensors (2 * k) + Sparse.get 0 d.sensors (2 * k + 1) * 65536)
  let dl := match d.laneOwner with
    | .office o => (d.dl.get o).state.code
    | .none => 0
  cnt 0 ++ [regImage 0 0x0C (d.gthrAct.toNat + b2n d.calib * 2 ^ 12 + d.injAct.toNat * 2 ^ 16)] ++ (List.range 4).map temp ++
    cnt 1 ++ [regImage 1 0x10 (min d.unlocked 16384 + d.ipOff * 2 ^ 16), 4 + dl * 256]

/-- A tile at a round boundary. -/
def State.tileBoundary (s : State) (t : Fin 4) (r : Nat) : State :=
  if (s.tile t).inReset then s
  else
    let s := s.revote t
    let before := (s.tile t).laneOwner
    (s.modTile t fun d =>
      let d := ((((d.applySums.switchLanes r).joinLanes s.now).applyClears t).boundaryOrders s.now)
      d.queueFrame s.now
        { kind := .status, round := 0, district := 0, fnum := 0, letters := [], words := d.statusWords t }).showDec t before

/-! ### What the owner does -/

/-- The words the owner reads back from a tile in a round (R67): four cells, and in every fourth round a cluster; a cell whose
context is poisoned is left alone (R206). -/
def Office.readBackCommands (d : Office) (t : Fin 4) (r : Nat) : List W64 :=
  let k := r % 65536
  ((List.range 4).filter fun i => !d.contextBad (t.val * 262144 + 4 * k + i)).map (fun i => cmdFor 2 (4 * k + i) 0) ++
    (if k % 4 = 0 then [cmdFor 3 (k / 4) 0] else [])

/-- The owner's work on one tile: read-back, the lane status, the peak of the letter memory, the program (R67, R164, R169,
R363). -/
def State.ownerTile (s : State) (o : OfficeId) (r : Nat) (t : Fin 4) : State :=
  let s := s.boundaryProgram o t
  let s := if (s.tile t).inReset then s else s.wr o F.SORT_LN_PEAK_ENTRIES (s.tile t).memPeak t.val
  let s := if s.reaches o t then s.sendConfig o t ((s.off o).readBackCommands t r) else s
  s.sendLaneStatus o t

/-- The owner at a round boundary. -/
def State.ownerBoundary (s : State) (o : OfficeId) (r : Nat) : State :=
  let s := allTiles.foldl (fun s t => s.ownerTile o r t) s
  ((((s.syncSeqs o).boundaryCloses o (roundBack r 1)).mirrorPositions o).settleHandover o).settleDelta o

/-- ROUND_BOUNDARY (R25): the service die's count has reached the start of a round; once for each. `stFail` tells which of the
self-tests 1 to 3 of R547 fail on an office that does not own. -/
def execRoundBoundary (stFail : BitVec 3) (s : State) : Out :=
  .next (
    let c := s.svc.count.toNat
    if s.svc.inReset ∨ c % 2 ^ s.svc.roundShift ≠ 0 ∨ s.svc.boundaryAt = some (s.now, c) then s
    else
      let r := c / 2 ^ s.svc.roundShift
      let s := (s.modSvc fun d => { d with boundaryAt := some (s.now, c) }).emit (.syncPulse (BitVec.ofNat 16 r) false)
      let s := allTiles.foldl (fun s t => s.checkTile t r) s
      let s := (s.checkOffice .A r).checkOffice .B r
      let s := allTiles.foldl (fun s t => s.tileBoundary t r) s
      let s := match s.owner with
        | some o => s.boundarySequence o r
        | none => s
      let s := match s.owner with
        | some o => s.ownerBoundary o r
        | none => s
      let s := (s.roundSelfTests .A stFail.toNat).roundSelfTests .B stFail.toNat
      ((s.refreshTwin .A).refreshTwin .B).mirrorChanges)

end Sys2Proof.Machine
end

