-- ==== Sys2Proof/Machine/Registers.lean ====
section
/-! DEFINITION. Host accesses to the registers of BAR0, by address (00 R3 to R10; 11 R438 to R441), and the test port
(19 R701). A write to a register whose action has a row of its own does what that row does. -/

namespace Sys2Proof.Machine

/-! ### Reads -/

/-- Fields of `TWN_STAT`, `TWN_MIRROR` and `TWN_TIMER` that show a running value (R551, R554). -/
def State.freshenTwin (s : State) (o : OfficeId) (addr : Nat) : State :=
  let w := (s.off o).twin
  if addr = F.TWN_STAT_PEER_AGE.off then
    s.wr o F.TWN_STAT_PEER_AGE (match w.hbAt with
      | some a => min ((s.now - a) / 1500) 255
      | none => 255)
  else if addr = F.TWN_MIRROR_BOOK_LAG.off then
    let behind := match (s.book o).getLast? with
      | some e => (s.book (otherOffice o)).filter fun x => later (BitVec.ofNat 32 (fieldAt x 4 4)) (BitVec.ofNat 32 (fieldAt e 4 4))
      | none => s.book (otherOffice o)
    s.wr o F.TWN_MIRROR_BOOK_LAG (if s.role o = .relief ∧ s.owns (otherOffice o) then min behind.length 0xFFFF else 0)
  else if addr = F.TWN_TIMER_ELIG_S.off then
    s.wr o F.TWN_TIMER_ELIG_S (match w.eligSince with
      | some a => min ((s.now - a) / ticksOfUs 1000000) 0xFFFF
      | none => 0)
  else s

/-- A 4-byte host read of BAR0. -/
def State.readRegister (s : State) (o : OfficeId) (addr : Nat) : State :=
  if addr = F.AUX_IVL_LO_D_L.off then s.readInterval o else (s.freshenTwin o addr).hostRead o addr

/-- LOW_REGISTER_READ (R6): the read of any register; that of a low register latches its pair. -/
def execLowRegisterRead (o : OfficeId) (addr : BitVec 26) (s : State) : Out :=
  .next (if addr.toNat % 4 = 0 then s.readRegister o addr.toNat else s)

/-! ### Writes -/

/-- The state a command of this model answers. -/
def outState (s : State) : Out → State
  | .next t => t
  | .fault _ => s
  | .refused _ => s

/-- The element of a register array that a field lies in at `addr`. -/
def Fld.hit (f : Fld) (addr : Nat) : Option Nat := (f.locate addr).map (·.1)

/-- A tile number. -/
def tileOf (n : Nat) : Fin 4 := ⟨n % 4, Nat.mod_lt _ (by decide)⟩

/-- A write of the clear registers of tile groups and pigeonholes, where `addr` is one. -/
def State.arrayClears (s : State) (o : OfficeId) (addr : Nat) (v : W32) : Option Out :=
  match F.SORT_FE_CNT_CLR_PBUSY.hit addr, F.SORT_TE_CNT_CLR_COLEAD.hit addr, F.SORT_LN_CNT_CLR_CRC.hit addr,
    F.TRG_CNT_CLR_FIRE.hit addr, F.PH_CNT_CLR_MAILBAG.hit addr, F.LOOP_CNT_CLR_HOLD.hit addr, F.AUX_CNT_CLR_EDGE.hit addr with
  | some t, _, _, _, _, _, _ => some (execSortFeCntClr o (tileOf t) v s)
  | _, some t, _, _, _, _, _ => some (execSortTeCntClr o (tileOf t) v s)
  | _, _, some t, _, _, _, _ => some (execSortLnCntClr o (tileOf t) v s)
  | _, _, _, some t, _, _, _ => some (execTrgCntClr o (tileOf t) v s)
  | _, _, _, _, some p, _, _ => some (execPhCntClr o (BitVec.ofNat 12 p) v s)
  | _, _, _, _, _, some k, _ => some (execLoopCntClr o (if k = 0 then 0 else 1) v s)
  | _, _, _, _, _, _, some x => some (execAuxCntClr o (decide (x = 1)) v s)
  | _, _, _, _, _, _, _ => none

/-- A write of the other clear registers, where `addr` is one. -/
def State.plainClears (s : State) (o : OfficeId) (addr : Nat) (v : W32) : Option Out :=
  if addr = F.SORT_RES_CNT_CLR_RETRY.off then some (execSortResCntClr o v s)
  else if addr = F.SORT_MG_CNT_CLR_RXDROP.off then some (execSortMgCntClr o v s)
  else if addr = F.CMP_CNT_CLR_COMP.off then some (execCmpCntClr o v s)
  else if addr = F.STO_CNT_CLR_DROPRND.off then some (execStoCntClr o v s)
  else if addr = F.COL_CNT_CLR_DONE.off then some (execColCntClr o v s)
  else if addr = F.TB_CNT_CLR_PPSREJ.off then some (execTbCntClr o v s)
  else if addr = F.PH_GCNT_CLR_MMIOERR.off then some (execPhGcntClr o v s)
  else if addr = F.SEC_CNT_CLR_AMD.off then some (execSecCntClr o v s)
  else if addr = F.TWN_CNT_CLR_GAIN.off then some (execTwnCntClr o v s)
  else if addr = F.AUX_IVL_CLR_CNT.off then some (execAuxIvlClr o v s)
  else if addr = F.ENV_CNT_CLR_RESTART.off then some (execEnvCntClr o v s)
  else if addr = F.EMT_CNT_CLR_BUSY.off then some (execEmtCntClr o v s)
  else if addr = F.PWR_CNT_CLR_RAILFLT.off then some (execPwrCntClr o v s)
  else if addr = F.THM_CNT_CLR_STEPUP.off then some (execThmCntClr o v s)
  else if addr = F.ERR_CNT_CLR_CE.off then some (execErrCntClr o v s)
  else none

/-- A write of a command register of the sorting, storing and collecting blocks or of the ring, where `addr` is one. -/
def State.dataCommands (s : State) (o : OfficeId) (addr : Nat) (v : W32) : Option Out :=
  if addr = F.SORT_LN_CMD_RETRAIN.off then some (execRetrain o v s)
  else if addr = F.SORT_RES_CTL_INJ.off then some (execResidueErrorInject o v s)
  else if addr = F.SORT_CD_CTL_START.off then some (execCodeDensityStart o v s)
  else if addr = F.SORT_CTX_CLR_START.off then some (execContextClearStart o v s)
  else if addr = F.STO_CTL_ENABLE.off then some (.next (s.writeStoCtl o v.toNat))
  else if addr = F.STO_PIN_CMD_GO.off then some (.next (s.writePinCmd o v.toNat))
  else if addr = F.STO_IDX_REPAIR_GO.off then some (execIndexRepair o v s)
  else if addr = F.COL_SUBMIT_GO.off then some (execCollectionOrderSubmit o v s)
  else if addr = F.TB_CTL_START.off then some (execTbStart o v s)
  else if addr = F.RING_CTL_CRC.off then some (.next (s.ringCtl o v.toNat))
  else if addr = F.RING_SM_CMD_GO.off then some (.next (s.smCommand o v.toNat))
  else if addr = F.RING_BAR_CMD_GO.off then some (execBarrierStart o v s)
  else match F.TRG_CTL_ARM.hit addr with
    | some t => some (.next (s.writeTrgCtl o (tileOf t) v.toNat))
    | none => none

/-- A write of a command register of the module's other blocks, where `addr` is one. -/
def State.moduleCommands (s : State) (o : OfficeId) (addr : Nat) (v : W32) : Option Out :=
  if addr = F.GLB_MODE_REQ_GO.off then some (execModeRequest o v s)
  else if addr = F.GLB_CALSEQ_GO.off then some (execCalibrationSequenceGo o v s)
  else if addr = F.TWN_CTL_HANDOVER.off then some (.next (s.writeTwnCtl o v.toNat))
  else if addr = F.ENV_CTL_SWAP.off then some (execSwap o v s)
  else if addr = F.SL_FORCE_EN.off then some (.next (s.writeForce o v.toNat))
  else if addr = F.EMT_CTL_GO.off then some (.next (s.writeEmtCtl o v.toNat))
  else if addr = F.EMT_CAL_CTL_START.off then some (.next (s.writeCalCtl o v.toNat))
  else if addr = F.PWR_CTL_OFFICE_ON_A.off then some (.next (s.writePwrCtl o v.toNat))
  else if addr = F.THM_CTL_ACK.off then some (.next (s.writeThmCtl o v.toNat))
  else if addr = F.ERR_PAGE_CMD_GO.off then some (.next (s.writePageCmd o v.toNat))
  else if addr = F.ERR_CBT_CTL_EN.off then some (.next (s.writeCbtCtl o v.toNat))
  else match F.LOOP_CMD_GO.hit addr, F.LOOP_SETPOINT_MV.hit addr, F.LOOP_MAN_V_MV.hit addr with
    | some k, _, _ => some (.next (s.loopWrite o addr v.toNat k 0 none))
    | _, some k, _ => some (.next (s.loopWrite o addr v.toNat k 1 (some F.LOOP_SETPOINT_MV)))
    | _, _, some k => some (.next (s.loopWrite o addr v.toNat k 2 (some F.LOOP_MAN_V_MV)))
    | _, _, _ => none

/-- A write of a pigeonhole's ring registers or of `PH_CFG`, where `addr` is one: while `EN` is 1, base addresses and the other
fields keep their values, and the write is journalled (R451). -/
def State.pigeonholeWrites (s : State) (o : OfficeId) (addr : Nat) (v : W32) : Option Out :=
  match F.PH_CFG_EN.hit addr with
  | some p =>
    some (if bitsOf v.toNat 31 1 = 1 then execPigeonholeEnable o (BitVec.ofNat 12 p) v s
      else execPigeonholeDisable o (BitVec.ofNat 12 p) v s)
  | none =>
    match [F.PH_DR_BASE_LO_BASE_L, F.PH_DR_BASE_HI_BASE_H, F.PH_RR_BASE_LO_BASE_L, F.PH_RR_BASE_HI_BASE_H].findSome?
        (fun f => f.hit addr) with
    | some p =>
      if s.takesWrites o ∧ s.rd o F.PH_CFG_EN p = 1 then some (.next (s.journal o addr v.toNat true)) else none
    | none => none

/-- A write of a store region's registers (R321): not accepted while the store is enabled, but for a failed data region. -/
def State.regionWrites (s : State) (o : OfficeId) (addr : Nat) (v : W32) : Option Out :=
  if 0x0500100 ≤ addr ∧ addr < 0x0500220 ∧ !(fieldsAt addr).isEmpty ∧ s.takesWrites o ∧ s.rgnTakes o addr = false then
    some (.next (s.journal o addr v.toNat true))
  else none

/-- A write of the `COL_ORDER` window, or of a vector's mask, where `addr` is one. -/
def State.windowWrites (s : State) (o : OfficeId) (addr : Nat) (v : W32) : Option Out :=
  match F.COL_ORDER_W.hit addr, F.MSIX_VCTRL_MASK.hit addr with
  | some k, _ => some (.next (if s.takesWrites o then s.wr o F.COL_ORDER_W v.toNat k else s))
  | _, some n => if bitsOf v.toNat 0 1 = 0 then some (execMsixUnmask o (BitVec.ofNat 11 n) s) else none
  | _, _ => none

/-- A write of a region's `CTL` clears its `FAILED` (R303, R321). -/
def State.clearFailed (s : State) (o : OfficeId) (addr : Nat) : State :=
  match F.STO_RGN_CTL_EN.hit addr, F.STO_IDX_CTL_EN.hit addr with
  | some k, _ => (s.wr o F.STO_RGN_CTL_FAILED 0 k).wr o F.STO_STAT_RGN_FAIL (setBits (s.rd o F.STO_STAT_RGN_FAIL) k 1 0)
  | _, some c => (s.wr o F.STO_IDX_CTL_FAILED 0 c).wr o F.STO_STAT_IDX_FAIL (setBits (s.rd o F.STO_STAT_IDX_FAIL) c 1 0)
  | _, _ => s

/-- What an ordinary write brings with it: a region no longer failed, UIO on the port (R435), and the run state that the owner
mirrors (R532). -/
def State.afterWrite (s : State) (o : OfficeId) (addr : Nat) : State :=
  (if addr = F.PH_PORT_CTL_UIO_EN.off then s.refreshUio o else s.clearFailed o addr).mirrorChanges

/-- A 4-byte host write of BAR0 (R7 to R9): the action of its register where it has one, else the fields the host may write. -/
def State.writeRegister (s : State) (o : OfficeId) (addr : Nat) (v : W32) : State :=
  match [s.arrayClears o addr v, s.plainClears o addr v, s.dataCommands o addr v, s.moduleCommands o addr v,
      s.pigeonholeWrites o addr v, s.regionWrites o addr v, s.windowWrites o addr v].findSome? id with
  | some r => outState s r
  | none =>
    let r := s.hostWrite o addr v.toNat
    if r.2 then r.1.afterWrite o addr else r.1

/-- REGISTER_WRITE (R9). -/
def execRegisterWrite (o : OfficeId) (addr : BitVec 26) (v : W32) (s : State) : Out :=
  .next (if addr.toNat % 4 = 0 then s.writeRegister o addr.toNat v else s)

/-- HIGH_REGISTER_WRITE (R7): the high half of a writable pair, which commits both halves. -/
def execHighRegisterWrite (o : OfficeId) (addr : BitVec 26) (v : W32) (s : State) : Out :=
  .next (if 4 ≤ addr.toNat ∧ isWriteLow (addr.toNat - 4) then s.writeRegister o addr.toNat v else s)

/-! ### The test port (R701) -/

/-- The IDCODE: stepping, 0x1024, the manufacturer code, and 1. -/
def State.idcode (s : State) : Nat :=
  s.rd .A F.GLB_ID_STEP % 16 * 2 ^ 28 + 0x1024 * 2 ^ 12 + Config.manufacturerCode.toNat * 2 + 1

/-- TEST_PORT_INSTRUCTION (R701): what the port then shifts out. The boundary register's length and order are free. -/
def execTestPortInstruction (ir : JtagIr) (s : State) : Out :=
  .next (
    let ir := if ir = .extest ∧ s.svc.pwr.resetHeld = false then .bypass else ir
    let s := s.modSvc fun d => { d with jtag := ir }
    match ir with
    | .bypass => s.emit (.testPort 0 1)
    | .idcode => s.emit (.testPort s.idcode 32)
    | _ =>
      let len := s.draw 16
      let bits := len.2.draw len.1
      bits.2.emit (.testPort bits.1 len.1))

end Sys2Proof.Machine
end

