-- ==== Sys2Proof/Machine/Dispatch.lean ====
section
/-! DEFINITION. The effect of a command: one arm per row of the table, each a direct call of its meaning. -/

namespace Sys2Proof.Machine

/-- The effect of a command on everything but the queue. -/
def exec (i : Instr) (s : State) : Host.Outcome State Fault Refusal :=
  match i with
  | .registerWrite o addr v => Sys2Proof.Machine.execRegisterWrite o addr v s
  | .lowRegisterRead o addr => Sys2Proof.Machine.execLowRegisterRead o addr s
  | .highRegisterWrite o addr v => Sys2Proof.Machine.execHighRegisterWrite o addr v s
  | .barAccessError o addr => Sys2Proof.Machine.execBarAccessError o addr s
  | .poisonedWriteRx o addr => Sys2Proof.Machine.execPoisonedWriteRx o addr s
  | .resetNAssert => Sys2Proof.Machine.execResetNAssert s
  | .resetNRelease nvmFail => Sys2Proof.Machine.execResetNRelease nvmFail s
  | .standbyEntry => Sys2Proof.Machine.execStandbyEntry s
  | .timeBaseStart => Sys2Proof.Machine.execTimeBaseStart s
  | .roundBoundary stFail => Sys2Proof.Machine.execRoundBoundary stFail s
  | .leadingEdge t cell fine => Sys2Proof.Machine.execLeadingEdge t cell fine s
  | .trailingEdge t cell fine => Sys2Proof.Machine.execTrailingEdge t cell fine s
  | .gainSwitch t cell => Sys2Proof.Machine.execGainSwitch t cell s
  | .totSaturation t cell => Sys2Proof.Machine.execTotSaturation t cell s
  | .resetSwitchOpen t cell => Sys2Proof.Machine.execResetSwitchOpen t cell s
  | .cellRearm t cell above fine => Sys2Proof.Machine.execCellRearm t cell above fine s
  | .sarSamplingEnd t cluster => Sys2Proof.Machine.execSarSamplingEnd t cluster s
  | .sarConversionEnd t cluster raw => Sys2Proof.Machine.execSarConversionEnd t cluster raw s
  | .letterComplete t cell => Sys2Proof.Machine.execLetterComplete t cell s
  | .lateFrameTimeout t district round => Sys2Proof.Machine.execLateFrameTimeout t district round s
  | .interpolatorRelease t cluster ip => Sys2Proof.Machine.execInterpolatorRelease t cluster ip s
  | .blankingEnd t cell => Sys2Proof.Machine.execBlankingEnd t cell s
  | .injectionStrobe t => Sys2Proof.Machine.execInjectionStrobe t s
  | .latchMajorityCorrection t isCluster place u0 u1 u2 => Sys2Proof.Machine.execLatchMajorityCorrection t isCluster place u0 u1 u2 s
  | .dllLock t cluster => Sys2Proof.Machine.execDllLock t cluster s
  | .dllLossOfLock t cluster => Sys2Proof.Machine.execDllLossOfLock t cluster s
  | .dllLockTimeout t cluster => Sys2Proof.Machine.execDllLockTimeout t cluster s
  | .bucketClose t round => Sys2Proof.Machine.execBucketClose t round s
  | .laneFrameSent t o lane badEntries => Sys2Proof.Machine.execLaneFrameSent t o lane badEntries s
  | .idleFrameSend t => Sys2Proof.Machine.execIdleFrameSend t s
  | .dataFrameRx o t lane f => Sys2Proof.Machine.execDataFrameRx o t lane f s
  | .lateFrameRx o t lane f => Sys2Proof.Machine.execLateFrameRx o t lane f s
  | .closeFrameRx o t lane f => Sys2Proof.Machine.execCloseFrameRx o t lane f s
  | .idleFrameRx o t lane f => Sys2Proof.Machine.execIdleFrameRx o t lane f s
  | .statusFrameRx o t lane f => Sys2Proof.Machine.execStatusFrameRx o t lane f s
  | .readbackReplyRx o t word => Sys2Proof.Machine.execReadbackReplyRx o t word s
  | .elasticBufferOverflow o t lane => Sys2Proof.Machine.execElasticBufferOverflow o t lane s
  | .laneTrainingPass o t lane => Sys2Proof.Machine.execLaneTrainingPass o t lane s
  | .laneTrainingAttemptTimeout o t lane => Sys2Proof.Machine.execLaneTrainingAttemptTimeout o t lane s
  | .laneCodeErrors o t lane alignment => Sys2Proof.Machine.execLaneCodeErrors o t lane alignment s
  | .fifoFlush f writing => Sys2Proof.Machine.execFifoFlush f writing s
  | .dlConfigFrameRx t o f => Sys2Proof.Machine.execDlConfigFrameRx t o f s
  | .writeCellWord t cmd => Sys2Proof.Machine.execWriteCellWord t cmd s
  | .writeClusterWord t cmd => Sys2Proof.Machine.execWriteClusterWord t cmd s
  | .readCellWord t cmd => Sys2Proof.Machine.execReadCellWord t cmd s
  | .readClusterWord t cmd => Sys2Proof.Machine.execReadClusterWord t cmd s
  | .configWriteComplete t => Sys2Proof.Machine.execConfigWriteComplete t s
  | .dlLaneStatusRx t o f => Sys2Proof.Machine.execDlLaneStatusRx t o f s
  | .downlinkNakRx o t seq => Sys2Proof.Machine.execDownlinkNakRx o t seq s
  | .sumMaskLow t o v => Sys2Proof.Machine.execSumMaskLow t o v s
  | .sumMaskHigh t o v => Sys2Proof.Machine.execSumMaskHigh t o v s
  | .sumCoefficients t o k c0 c1 => Sys2Proof.Machine.execSumCoefficients t o k c0 c1 s
  | .sumFilterGain t o flen fshift gain => Sys2Proof.Machine.execSumFilterGain t o flen fshift gain s
  | .sumTrim t o v => Sys2Proof.Machine.execSumTrim t o v s
  | .sumApply t o => Sys2Proof.Machine.execSumApply t o s
  | .captureCommand t o tag start lenm1 block => Sys2Proof.Machine.execCaptureCommand t o tag start lenm1 block s
  | .throttleOverride t o district bits => Sys2Proof.Machine.execThrottleOverride t o district bits s
  | .throttleClear t o => Sys2Proof.Machine.execThrottleClear t o s
  | .quiet t o enter => Sys2Proof.Machine.execQuiet t o enter s
  | .tileCommandRefused t o word => Sys2Proof.Machine.execTileCommandRefused t o word s
  | .sortFeCntClr o t v => Sys2Proof.Machine.execSortFeCntClr o t v s
  | .sortTeCntClr o t v => Sys2Proof.Machine.execSortTeCntClr o t v s
  | .sortResCntClr o v => Sys2Proof.Machine.execSortResCntClr o v s
  | .sortLnCntClr o t v => Sys2Proof.Machine.execSortLnCntClr o t v s
  | .retrain o v => Sys2Proof.Machine.execRetrain o v s
  | .residueErrorInject o v => Sys2Proof.Machine.execResidueErrorInject o v s
  | .codeDensityStart o v => Sys2Proof.Machine.execCodeDensityStart o v s
  | .codeDensityPassEnd o => Sys2Proof.Machine.execCodeDensityPassEnd o s
  | .lateWindowExpiry o round => Sys2Proof.Machine.execLateWindowExpiry o round s
  | .mergeDeadlineExpiry o round => Sys2Proof.Machine.execMergeDeadlineExpiry o round s
  | .mergeStart o badEntries => Sys2Proof.Machine.execMergeStart o badEntries s
  | .mergeComplete o unit => Sys2Proof.Machine.execMergeComplete o unit s
  | .envelopeUndeliverable o ph => Sys2Proof.Machine.execEnvelopeUndeliverable o ph s
  | .hotSweepVisit o => Sys2Proof.Machine.execHotSweepVisit o s
  | .contextChangeApply o => Sys2Proof.Machine.execContextChangeApply o s
  | .contextClearStart o v => Sys2Proof.Machine.execContextClearStart o v s
  | .contextClearDone o => Sys2Proof.Machine.execContextClearDone o s
  | .sortMgCntClr o v => Sys2Proof.Machine.execSortMgCntClr o v s
  | .compressionEngineTake o engine => Sys2Proof.Machine.execCompressionEngineTake o engine s
  | .envelopeCoded o engine differs => Sys2Proof.Machine.execEnvelopeCoded o engine differs s
  | .cmpCntClr o v => Sys2Proof.Machine.execCmpCntClr o v s
  | .stagingEntry o => Sys2Proof.Machine.execStagingEntry o s
  | .stagingDrained o => Sys2Proof.Machine.execStagingDrained o s
  | .roundWriteStart o => Sys2Proof.Machine.execRoundWriteStart o s
  | .storeWriteDone o done => Sys2Proof.Machine.execStoreWriteDone o done s
  | .storeWriteError o region addr => Sys2Proof.Machine.execStoreWriteError o region addr s
  | .storeStall o region => Sys2Proof.Machine.execStoreStall o region s
  | .lossRecordAppend o => Sys2Proof.Machine.execLossRecordAppend o s
  | .storeReadComplete o slot sack gen c f rec => Sys2Proof.Machine.execStoreReadComplete o slot sack gen c f rec s
  | .storeEnable o v => Sys2Proof.Machine.execStoreEnable o v s
  | .storeDisable o v => Sys2Proof.Machine.execStoreDisable o v s
  | .storeFormatDone o => Sys2Proof.Machine.execStoreFormatDone o s
  | .reattach o v => Sys2Proof.Machine.execReattach o v s
  | .pin o v => Sys2Proof.Machine.execPin o v s
  | .unpin o v => Sys2Proof.Machine.execUnpin o v s
  | .unpinAll o v => Sys2Proof.Machine.execUnpinAll o v s
  | .indexRepair o v => Sys2Proof.Machine.execIndexRepair o v s
  | .stoCntClr o v => Sys2Proof.Machine.execStoCntClr o v s
  | .sumLiveFrameRx o t lane f => Sys2Proof.Machine.execSumLiveFrameRx o t lane f s
  | .liveFrameMissing o t => Sys2Proof.Machine.execLiveFrameMissing o t s
  | .decimationChange t => Sys2Proof.Machine.execDecimationChange t s
  | .sequencerStep o t => Sys2Proof.Machine.execSequencerStep o t s
  | .sequencerTimerExpiry o t timer => Sys2Proof.Machine.execSequencerTimerExpiry o t timer s
  | .holdoffExpiry o t => Sys2Proof.Machine.execHoldoffExpiry o t s
  | .captureFreeze t => Sys2Proof.Machine.execCaptureFreeze t s
  | .captureResume t => Sys2Proof.Machine.execCaptureResume t s
  | .readoutFrameRx o t lane f => Sys2Proof.Machine.execReadoutFrameRx o t lane f s
  | .reductionRecord o t r => Sys2Proof.Machine.execReductionRecord o t r s
  | .strobe o t v => Sys2Proof.Machine.execStrobe o t v s
  | .trgCntClr o t v => Sys2Proof.Machine.execTrgCntClr o t v s
  | .collectionOrderSubmit o v => Sys2Proof.Machine.execCollectionOrderSubmit o v s
  | .collectionOrderStart o => Sys2Proof.Machine.execCollectionOrderStart o s
  | .collectionOrderComplete o slot => Sys2Proof.Machine.execCollectionOrderComplete o slot s
  | .colCntClr o v => Sys2Proof.Machine.execColCntClr o v s
  | .tbStart o v => Sys2Proof.Machine.execTbStart o v s
  | .ppsinEdge fine => Sys2Proof.Machine.execPpsinEdge fine s
  | .servoHoldover => Sys2Proof.Machine.execServoHoldover s
  | .todMessageRx bytes inWindow => Sys2Proof.Machine.execTodMessageRx bytes inWindow s
  | .refinLoss => Sys2Proof.Machine.execRefinLoss s
  | .refinReturn => Sys2Proof.Machine.execRefinReturn s
  | .epochBoundary => Sys2Proof.Machine.execEpochBoundary s
  | .syncSend => Sys2Proof.Machine.execSyncSend s
  | .syncFrameRx p f fine residence => Sys2Proof.Machine.execSyncFrameRx p f fine residence s
  | .ringHoldover => Sys2Proof.Machine.execRingHoldover s
  | .pdreqSend p => Sys2Proof.Machine.execPdreqSend p s
  | .pdreqRx p f t2 t3 => Sys2Proof.Machine.execPdreqRx p f t2 t3 s
  | .pdrespRx p f t4 => Sys2Proof.Machine.execPdrespRx p f t4 s
  | .ringPortTrainingPass p peer => Sys2Proof.Machine.execRingPortTrainingPass p peer s
  | .ringPortOpen p peer => Sys2Proof.Machine.execRingPortOpen p peer s
  | .ringPortErrors p => Sys2Proof.Machine.execRingPortErrors p s
  | .ringPortRetry p => Sys2Proof.Machine.execRingPortRetry p s
  | .retrainE o v => Sys2Proof.Machine.execRetrainE o v s
  | .retrainW o v => Sys2Proof.Machine.execRetrainW o v s
  | .ringCntClr o v => Sys2Proof.Machine.execRingCntClr o v s
  | .bcastRx p f => Sys2Proof.Machine.execBcastRx p f s
  | .snapshot => Sys2Proof.Machine.execSnapshot s
  | .reset => Sys2Proof.Machine.execReset s
  | .flash => Sys2Proof.Machine.execFlash s
  | .mode => Sys2Proof.Machine.execMode s
  | .trigger => Sys2Proof.Machine.execTrigger s
  | .order => Sys2Proof.Machine.execOrder s
  | .smRequestSnapshot o v => Sys2Proof.Machine.execSmRequestSnapshot o v s
  | .smRequestReset o v => Sys2Proof.Machine.execSmRequestReset o v s
  | .smRequestFlash o v => Sys2Proof.Machine.execSmRequestFlash o v s
  | .smRequestMode o v => Sys2Proof.Machine.execSmRequestMode o v s
  | .barrierStart o v => Sys2Proof.Machine.execBarrierStart o v s
  | .barrierRx p f => Sys2Proof.Machine.execBarrierRx p f s
  | .barrierTimeout => Sys2Proof.Machine.execBarrierTimeout s
  | .tbCountRead o => Sys2Proof.Machine.execTbCountRead o s
  | .tbCntClr o v => Sys2Proof.Machine.execTbCntClr o v s
  | .portLeaveL0 o => Sys2Proof.Machine.execPortLeaveL0 o s
  | .portEnterL0 o flit uioCap rate width => Sys2Proof.Machine.execPortEnterL0 o flit uioCap rate width s
  | .functionReset o cause => Sys2Proof.Machine.execFunctionReset o cause s
  | .ptmDialog o hostNs tick => Sys2Proof.Machine.execPtmDialog o hostNs tick s
  | .ptmTickRead o => Sys2Proof.Machine.execPtmTickRead o s
  | .pigeonholeEnable o ph v => Sys2Proof.Machine.execPigeonholeEnable o ph v s
  | .pigeonholeDisable o ph v => Sys2Proof.Machine.execPigeonholeDisable o ph v s
  | .dprod o ph v => Sys2Proof.Machine.execDprod o ph v s
  | .rcons o ph v => Sys2Proof.Machine.execRcons o ph v s
  | .resume o ph v => Sys2Proof.Machine.execResume o ph v s
  | .flush o ph v => Sys2Proof.Machine.execFlush o ph v s
  | .descriptorFetch o ph => Sys2Proof.Machine.execDescriptorFetch o ph s
  | .descriptorFetchComplete o ph c desc => Sys2Proof.Machine.execDescriptorFetchComplete o ph c desc s
  | .recordAdd o ph => Sys2Proof.Machine.execRecordAdd o ph s
  | .mailbagIdleClose o ph => Sys2Proof.Machine.execMailbagIdleClose o ph s
  | .irqCoalesceTimeout o ph => Sys2Proof.Machine.execIrqCoalesceTimeout o ph s
  | .msixUnmask o vector => Sys2Proof.Machine.execMsixUnmask o vector s
  | .noticeDeliver o => Sys2Proof.Machine.execNoticeDeliver o s
  | .snapshotRecordExpiry o => Sys2Proof.Machine.execSnapshotRecordExpiry o s
  | .phCntClr o ph v => Sys2Proof.Machine.execPhCntClr o ph v s
  | .phGcntClr o v => Sys2Proof.Machine.execPhGcntClr o v s
  | .letterboxOversize o bytes => Sys2Proof.Machine.execLetterboxOversize o bytes s
  | .doeAbort o => Sys2Proof.Machine.execDoeAbort o s
  | .info o tag => Sys2Proof.Machine.execInfo o tag s
  | .attest o tag nonce => Sys2Proof.Machine.execAttest o tag nonce s
  | .amend o tag body => Sys2Proof.Machine.execAmend o tag body s
  | .poll o tag => Sys2Proof.Machine.execPoll o tag s
  | .uploadBegin o tag slot len measurement => Sys2Proof.Machine.execUploadBegin o tag slot len measurement s
  | .uploadData o tag offset data => Sys2Proof.Machine.execUploadData o tag offset data s
  | .uploadEnd o tag => Sys2Proof.Machine.execUploadEnd o tag s
  | .activate o tag slot trial => Sys2Proof.Machine.execActivate o tag slot trial s
  | .confirm o tag => Sys2Proof.Machine.execConfirm o tag s
  | .bookRead o tag seq count => Sys2Proof.Machine.execBookRead o tag seq count s
  | .bookBody o tag seq offset len => Sys2Proof.Machine.execBookBody o tag seq offset len s
  | .reboot o tag => Sys2Proof.Machine.execReboot o tag s
  | .letterboxJobEnd o nvmOk fuseBreak => Sys2Proof.Machine.execLetterboxJobEnd o nvmOk fuseBreak s
  | .nvmWindowWaitExpiry o => Sys2Proof.Machine.execNvmWindowWaitExpiry o s
  | .nvmWindowOpen o => Sys2Proof.Machine.execNvmWindowOpen o s
  | .secCntClr o v => Sys2Proof.Machine.execSecCntClr o v s
  | .heartbeatSend o => Sys2Proof.Machine.execHeartbeatSend o s
  | .dlHeartbeatRx t o f => Sys2Proof.Machine.execDlHeartbeatRx t o f s
  | .heartbeatAgeExpiry t o => Sys2Proof.Machine.execHeartbeatAgeExpiry t o s
  | .linkHeartbeatRx o f => Sys2Proof.Machine.execLinkHeartbeatRx o f s
  | .linkHeartbeatTimeout o => Sys2Proof.Machine.execLinkHeartbeatTimeout o s
  | .ownershipEvaluation o => Sys2Proof.Machine.execOwnershipEvaluation o s
  | .startGraceExpiry o => Sys2Proof.Machine.execStartGraceExpiry o s
  | .mirrorItemRx o f => Sys2Proof.Machine.execMirrorItemRx o f s
  | .mirrorAckRx o f => Sys2Proof.Machine.execMirrorAckRx o f s
  | .mirrorRetransmit o => Sys2Proof.Machine.execMirrorRetransmit o s
  | .resyncRequestRx o f => Sys2Proof.Machine.execResyncRequestRx o f s
  | .resync o v => Sys2Proof.Machine.execResync o v s
  | .noOwnerTimeout o => Sys2Proof.Machine.execNoOwnerTimeout o s
  | .handover o v => Sys2Proof.Machine.execHandover o v s
  | .failbackTimer o => Sys2Proof.Machine.execFailbackTimer o s
  | .handoverAcceptTimeout o => Sys2Proof.Machine.execHandoverAcceptTimeout o s
  | .handoverReleaseComplete o => Sys2Proof.Machine.execHandoverReleaseComplete o s
  | .handoverTimeout o => Sys2Proof.Machine.execHandoverTimeout o s
  | .clearHealth o v => Sys2Proof.Machine.execClearHealth o v s
  | .signatureSelfTest o pass => Sys2Proof.Machine.execSignatureSelfTest o pass s
  | .twnCntClr o v => Sys2Proof.Machine.execTwnCntClr o v s
  | .biasSamplePeriod l0 l1 guardOver => Sys2Proof.Machine.execBiasSamplePeriod l0 l1 guardOver s
  | .electrometerGateEnd k => Sys2Proof.Machine.execElectrometerGateEnd k s
  | .loopRequestOff o k v => Sys2Proof.Machine.execLoopRequestOff o k v s
  | .loopRequestManual o k v => Sys2Proof.Machine.execLoopRequestManual o k v s
  | .loopRequestAuto o k v => Sys2Proof.Machine.execLoopRequestAuto o k v s
  | .ack o k v => Sys2Proof.Machine.execAck o k v s
  | .loopStopTimer k => Sys2Proof.Machine.execLoopStopTimer k s
  | .loopSetpointWrite o k v => Sys2Proof.Machine.execLoopSetpointWrite o k v s
  | .loopManVWrite o k v => Sys2Proof.Machine.execLoopManVWrite o k v s
  | .frequencyHandoff o x => Sys2Proof.Machine.execFrequencyHandoff o x s
  | .loopCntClr o k v => Sys2Proof.Machine.execLoopCntClr o k v s
  | .housekeepingSample code compliance => Sys2Proof.Machine.execHousekeepingSample code compliance s
  | .pointCycleEnd => Sys2Proof.Machine.execPointCycleEnd s
  | .scanEnd => Sys2Proof.Machine.execScanEnd s
  | .swap o v => Sys2Proof.Machine.execSwap o v s
  | .auxEdge o x falling tick fine => Sys2Proof.Machine.execAuxEdge o x falling tick fine s
  | .intervalStartTimeout o => Sys2Proof.Machine.execIntervalStartTimeout o s
  | .intervalRead o => Sys2Proof.Machine.execIntervalRead o s
  | .frequencyUpdate o x => Sys2Proof.Machine.execFrequencyUpdate o x s
  | .auxCntClr o x v => Sys2Proof.Machine.execAuxCntClr o x v s
  | .auxIvlClr o v => Sys2Proof.Machine.execAuxIvlClr o v s
  | .envCntClr o v => Sys2Proof.Machine.execEnvCntClr o v s
  | .statusLoopUpdate => Sys2Proof.Machine.execStatusLoopUpdate s
  | .slForceWrite o v => Sys2Proof.Machine.execSlForceWrite o v s
  | .slForceExpiry => Sys2Proof.Machine.execSlForceExpiry s
  | .go o v => Sys2Proof.Machine.execGo o v s
  | .flashSyncEdge => Sys2Proof.Machine.execFlashSyncEdge s
  | .flashStart noCurrent overCurrent => Sys2Proof.Machine.execFlashStart noCurrent overCurrent s
  | .verAgeExpiry emitter => Sys2Proof.Machine.execVerAgeExpiry emitter s
  | .bufferSwap o v => Sys2Proof.Machine.execBufferSwap o v s
  | .rowClr o v => Sys2Proof.Machine.execRowClr o v s
  | .flashReportRx o r => Sys2Proof.Machine.execFlashReportRx o r s
  | .start o v => Sys2Proof.Machine.execStart o v s
  | .stop o v => Sys2Proof.Machine.execStop o v s
  | .evaluationDone o => Sys2Proof.Machine.execEvaluationDone o s
  | .apply o v => Sys2Proof.Machine.execApply o v s
  | .discard o v => Sys2Proof.Machine.execDiscard o v s
  | .emtCntClr o v => Sys2Proof.Machine.execEmtCntClr o v s
  | .vinRise mv => Sys2Proof.Machine.execVinRise mv s
  | .railGood rail => Sys2Proof.Machine.execRailGood rail s
  | .synthesiserLock => Sys2Proof.Machine.execSynthesiserLock s
  | .vinLow mv => Sys2Proof.Machine.execVinLow mv s
  | .brownout mv => Sys2Proof.Machine.execBrownout mv s
  | .vinOverVoltage mv => Sys2Proof.Machine.execVinOverVoltage mv s
  | .vinRecovery mv => Sys2Proof.Machine.execVinRecovery mv s
  | .powerCapDemand p => Sys2Proof.Machine.execPowerCapDemand p s
  | .railFault rail cause => Sys2Proof.Machine.execRailFault rail cause s
  | .officeOnA o v => Sys2Proof.Machine.execOfficeOnA o v s
  | .officeOnB o v => Sys2Proof.Machine.execOfficeOnB o v s
  | .thermalModelUpdate o readings => Sys2Proof.Machine.execThermalModelUpdate o readings s
  | .thermalAck o v => Sys2Proof.Machine.execThermalAck o v s
  | .readmit o v => Sys2Proof.Machine.execReadmit o v s
  | .analogueTrip diodes => Sys2Proof.Machine.execAnalogueTrip diodes s
  | .pwrCntClr o v => Sys2Proof.Machine.execPwrCntClr o v s
  | .thmCntClr o v => Sys2Proof.Machine.execThmCntClr o v s
  | .modeRequest o v => Sys2Proof.Machine.execModeRequest o v s
  | .modeTransition o => Sys2Proof.Machine.execModeTransition o s
  | .heldEntry o => Sys2Proof.Machine.execHeldEntry o s
  | .calibrationSequenceGo o v => Sys2Proof.Machine.execCalibrationSequenceGo o v s
  | .calibrationSequenceEnd o => Sys2Proof.Machine.execCalibrationSequenceEnd o s
  | .refresh o v => Sys2Proof.Machine.execRefresh o v s
  | .retire o v => Sys2Proof.Machine.execRetire o v s
  | .cbtEnable o v => Sys2Proof.Machine.execCbtEnable o v s
  | .cbtData o v => Sys2Proof.Machine.execCbtData o v s
  | .cbtCheck o v => Sys2Proof.Machine.execCbtCheck o v s
  | .cbtRead o v => Sys2Proof.Machine.execCbtRead o v s
  | .escalationWindowEnd o => Sys2Proof.Machine.execEscalationWindowEnd o s
  | .errCntClr o v => Sys2Proof.Machine.execErrCntClr o v s
  | .configurationRequest o r => Sys2Proof.Machine.execConfigurationRequest o r s
  | .arrayHostRead o addr => Sys2Proof.Machine.execArrayHostRead o addr s
  | .doeDiscovery o index => Sys2Proof.Machine.execDoeDiscovery o index s
  | .letterboxBadRequest o tag op => Sys2Proof.Machine.execLetterboxBadRequest o tag op s
  | .tripWaitEnd => Sys2Proof.Machine.execTripWaitEnd s
  | .handoverRequestEnd o => Sys2Proof.Machine.execHandoverRequestEnd o s
  | .wrapExpiry => Sys2Proof.Machine.execWrapExpiry s
  | .testPortInstruction ir => Sys2Proof.Machine.execTestPortInstruction ir s

end Sys2Proof.Machine
end

