-- ==== Sys2Proof/Machine/Tick.lean ====
section
/-! DEFINITION. The passing of one tick: what the model does on an empty queue (log entry 1). -/

namespace Sys2Proof.Machine

/-- The next tick for a tile. A die in reset holds zero (R710). -/
def Tile.nextTick (d : Tile) : Tile :=
  if d.inReset then d else { d with count := d.count + 1, fresh := [], seuNow := [] }

/-- The next tick for an office. -/
def Office.nextTick (d : Office) : Office := if d.inReset then d else { d with count := d.count + 1, fresh := [] }

/-- The next tick for the service die. -/
def ServiceDie.nextTick (d : ServiceDie) : ServiceDie :=
  if d.inReset then d else { d with count := d.count + 1, fresh := [] }

/-- Every die's count advances (R24, R710). -/
def State.nextTick (s : State) : State :=
  { s with now := s.now + 1, svc := s.svc.nextTick
           tiles := ⟨s.tiles.t0.nextTick, s.tiles.t1.nextTick, s.tiles.t2.nextTick, s.tiles.t3.nextTick⟩
           offices := ⟨s.offices.a.nextTick, s.offices.b.nextTick⟩ }

/-- Orders of the tick before come into force at the tiles (R44, R50). -/
def State.applyAllOrders (s : State) : State :=
  allTiles.foldl (fun s t => if (s.tile t).inReset ∨ (s.tile t).orders = [] then s else s.modTile t fun d => d.applyOrders s.now) s

/-- A downlink at a tick: configuration frames that wait go when it is free (R163, R165); while it is not UP, the office fills its gaps
with heartbeat frames of 13 characters (R712; log entry 96). -/
def State.downlinkTick (s : State) (o : OfficeId) (t : Fin 4) : State :=
  if (s.off o).inReset then s
  else
    let s := s.pumpConfig o t
    if s.rd o F.SORT_LN_STAT_DL t.val = 1 ∨ s.now < Sparse.get 0 (s.off o).cfgFree t.val then s
    else
      (s.modOff o fun d => { d with cfgFree := Sparse.set 0 d.cfgFree t.val (s.now + 65) }).emit
        (.downlink o t (dlHeader 1 0 1) [s.heartbeat o])

/-- The downlinks of an office at a tick. -/
def State.downlinksTick (s : State) (o : OfficeId) : State := allTiles.foldl (fun s t => s.downlinkTick o t) s

/-- One tick: the counts, the orders that come into force (R44), the sum stream of each tile (R323, R331), what downlinks and ring
ports send next (R163, R395, R712), the end of a flash (R618), edges of the interval units that have waited (R601), a message of TODIN
that is missing (R386), notices and QUIET that are due (R663, R666). -/
def State.tick (s : State) : State :=
  let s := allTiles.foldl (fun s t => s.sumTick t) s.nextTick.applyAllOrders
  let s := (s.downlinksTick .A).downlinksTick .B
  let s := ((s.pumpRing .W).pumpRing .E).missMessage
  let s := (s.settleEmitter.settleInterval .A).settleInterval .B
  (((s.settleModeNote .A).settleModeNote .B).settleQuiet .A).settleQuiet .B

end Sys2Proof.Machine
end

