-- ==== Sys2Proof/Certificates/Slice0/Obligations.lean ====
section
/-! DEFINITION. The statements for the provers. A statement about a command concludes that it answers a next state and says
what that state holds and what it leaves. -/

namespace Sys2Proof.Machine

/-- The command completes, and the next state satisfies `P`. -/
def gives (c : Instr) (s : State) (P : State → Prop) : Prop := ∃ t, exec c s = .next t ∧ P t

/-- The command completes and changes nothing but tile `t`, which then satisfies `P`. -/
def onlyTile (c : Instr) (s : State) (t : Fin 4) (P : Tile → Prop) : Prop :=
  ∃ e, exec c s = .next (s.modTile t fun _ => e) ∧ P e

/-- The queue, the model's clock, the tiles and everything sent are as before. -/
def inside (s u : State) : Prop := u.pending = s.pending ∧ u.now = s.now ∧ u.tiles = s.tiles ∧ u.out = s.out

/-- The queue, the model's clock and the fuses are as before. -/
def kept (s u : State) : Prop := u.pending = s.pending ∧ u.now = s.now ∧ u.svc.fuses = s.svc.fuses

/-- Beside what was sent, nothing outside office `o` differs. -/
def onlyOff (s u : State) (o : OfficeId) : Prop :=
  u.pending = s.pending ∧ u.now = s.now ∧ u.tiles = s.tiles ∧ u.svc = s.svc ∧
    u.off (otherOffice o) = s.off (otherOffice o)

/-- The registers that keep account of notices (R463, R674). -/
def noticeKeys : List Nat :=
  [F.ERR_LOG_HEAD_NSEQ.key 0 0, F.PH_NOTICE_STAT_HELD.key 0 0, F.PH_CNT_NOTICELOST_COUNT.key 0 0]

/-- Every register of office `o` but those listed and the account of notices is as before. -/
def regsKept (s u : State) (o : OfficeId) (l : List Nat) : Prop :=
  ∀ k, k ∉ l → k ∉ noticeKeys → Sparse.get 0 (u.off o).regs k = Sparse.get 0 (s.off o).regs k

/-- Office `o`, unless in reset, has raised a notice, which is the newest of its log (R674). -/
def raised (s u : State) (o : OfficeId) (code : Nat) (payload : List Byte) : Prop :=
  (s.off o).inReset = false →
    ∃ n, (u.off o).log.head? = some n ∧ n.code = BitVec.ofNat 16 code ∧ n.payload = payload.take 18 ∧ n.tick = (s.off o).count

/-- The office takes a host write of `v` to the register at `addr`: it takes writes at all (R434, R486, R667), owns where
the register is the service die's (R9), and no field is given a reserved value (R5). -/
def writable (s : State) (o : OfficeId) (addr v : Nat) : Prop :=
  s.takesWrites o = true ∧ (isServiceReg addr = true → s.owns o = true) ∧
    ∀ e ∈ fieldsAt addr, e.1.hostWritable = true → e.1.isBad (e.1.part v) = false

/-- Every cell but one, and every configuration word, is as before. -/
def otherCells (d e : Tile) (c : Nat) : Prop :=
  (∀ x, x ≠ c → e.cell x = d.cell x) ∧ e.cellCfg = d.cellCfg ∧ e.clusterCfg = d.clusterCfg

/-- Every cell but one is as before in all but its peak hold, and every configuration word is as before. -/
def otherTiming (d e : Tile) (c : Nat) : Prop :=
  (∀ x, x ≠ c → e.cell x = { d.cell x with peakHeld := (e.cell x).peakHeld }) ∧ e.cellCfg = d.cellCfg ∧ e.clusterCfg = d.clusterCfg

/-- No edge that the cluster's arbiter has placed is less than 4 bins from an edge of the cell in this tick. -/
def alone (s : State) (t : Fin 4) (c : BitVec 18) (fine : BitVec 7) : Prop :=
  ((s.tile t).cluster (clusterOf c.toNat)).window (s.now * 128 + fine.toNat) = []

/-- Of the tile, one cell alone differs. -/
def cellOnly (d e : Tile) (c : Nat) : Prop := e = { d with cells := e.cells } ∧ ∀ x, x ≠ c → e.cell x = d.cell x

/-- Of the tile, the events of one cluster alone differ. -/
def clusterOnly (d e : Tile) (c : Nat) : Prop := e = { d with clusters := e.clusters } ∧ ∀ x, x ≠ c → e.cluster x = d.cluster x

/-- A frame waits in the tile's queue or is on one of its lanes. -/
def holdsFrame (e : Tile) (f : TileFrame) : Prop :=
  f ∈ e.queue ∨ ∃ k, (Sparse.get {} e.lanes k).sending = some f ∨ (Sparse.get {} e.lanes k).committed = some f

/-- Beside the registers, the notices and what was sent, office `o` keeps everything but its pigeonholes, and of those every one but `p`. -/
def onlyPh (s u : State) (o : OfficeId) (p : Nat) : Prop :=
  onlyOff s u o ∧ (∀ q, q ≠ p → (u.off o).ph q = (s.off o).ph q) ∧ (u.off o).arr = (s.off o).arr ∧ (u.off o).sto = (s.off o).sto

/-- The writes to host memory that bytes for an address are sent as, newest first (R429): pieces of at most `Max_Payload_Size` that end
at its multiples, but for the last. -/
def writesOf (s : State) (o : OfficeId) (addr : Nat) (bytes : List Byte) : List Emission :=
  ((cutAligned (s.off o).mps (bytes.length / (s.off o).mps + 1) addr bytes.length).map fun p =>
    Emission.hostWrite o p.1 ((bytes.drop (p.1 - addr)).take p.2)).reverse

/-- The read requests that a read of host memory is sent as, newest first (R429). -/
def readsOf (s : State) (o : OfficeId) (addr len : Nat) : List Emission :=
  ((cutAligned (s.off o).mrrs (len / (s.off o).mrrs + 1) addr len).map fun p => Emission.hostRead o p.1 p.2).reverse

/-- The mailbag `b` of pigeonhole `p` has been closed in the buffer `f` (R456 to R458): its header and a receipt have been
written, the mailbag counts, and none is open. -/
def bagClosed (s u : State) (o : OfficeId) (p : Nat) (b : Mailbag) (f : Buffer) : Prop :=
  ((u.off o).ph p).bag = none ∧ u.rd o F.PH_RPROD_INDEX p = (s.rd o F.PH_RPROD_INDEX p + 1) % 2 ^ 32 ∧
    u.rd o F.PH_CNT_MAILBAG_COUNT p = min (s.rd o F.PH_CNT_MAILBAG_COUNT p + 1) 0xFFFFFFFF ∧
    (∀ e ∈ writesOf s o (f.addr + b.offset) (b.header p ((s.off o).ph p).gap), e ∈ u.out) ∧
    (∃ c : Receipt, c.kind = 1 ∧ c.len = b.size ∧ c.offset = b.offset ∧ c.cookie = f.cookie ∧ c.dseq = f.seq ∧
      ∀ e ∈ writesOf s o (s.rd o F.PH_RR_BASE_LO_BASE_L p + s.rd o F.PH_RR_BASE_HI_BASE_H p * 2 ^ 32 +
        32 * (s.rd o F.PH_RPROD_INDEX p % 2 ^ s.rd o F.PH_CFG_RR_LOG2 p))
        (c.bytes p (s.rd o F.PH_RPROD_INDEX p) (s.rd o F.PH_CFG_RR_LOG2 p)), e ∈ u.out) ∧ onlyPh s u o p

end Sys2Proof.Machine

open Sys2Proof Sys2Proof.Machine


namespace Sys2Proof.Machine

/-- Every fuse bit that is programmed in `f` is programmed in `g` (R473). -/
def fusesWithin (f g : Fuses) : Prop :=
  f.svn &&& g.svn = f.svn ∧ ∀ k, (f.slot k).digest &&& (g.slot k).digest = (f.slot k).digest ∧
    ((f.slot k).prog = true → (g.slot k).prog = true) ∧ ((f.slot k).revoked = true → (g.slot k).revoked = true)

end Sys2Proof.Machine

/-- For every command c and state s, a step of s with c at the front of its queue is c on s with the queue's rest; on an empty
queue one tick passes, which is the model's choice (log entry 1): the model's clock and the count of every die out of reset advance by
one (R1, R24). -/
def Obligations.StepRunsFront : Prop :=
  (∀ (s : State) (c : Instr) (rest : List Instr), step { s with pending := c :: rest } = exec c { s with pending := rest }) ∧
  (∀ s : State, s.pending = [] → ∃ u, step s = .next u ∧ u.now = s.now + 1 ∧ u.pending = [] ∧
    u.svc.count = (if s.svc.inReset then s.svc.count else s.svc.count + 1) ∧
    (∀ t, (u.tile t).count = if (s.tile t).inReset then (s.tile t).count else (s.tile t).count + 1) ∧
    ∀ o, (u.off o).count = if (s.off o).inReset then (s.off o).count else (s.off o).count + 1)

/-- From every state a step answers a next state: no command faults or is refused by the model. Its queue is the rest of the queue,
and the model's clock advances by one on an empty queue and stays otherwise. -/
def Obligations.EveryStepCompletes : Prop :=
  ∀ s : State, ∃ t, step s = .next t ∧ t.pending = s.pending.tail ∧ t.now = s.now + (if s.pending = [] then 1 else 0)

/-- For every set f of fuse bits and every state in which all of them are programmed: if a step answers a next state, all of them are
programmed there, whatever the step is: a fuse programming that is stopped, a reset, a loss of the supply (R473, R475, R476). -/
def Obligations.StepsKeepProgrammedFuses : Prop :=
  ∀ (f : Fuses) (s t : State), fusesWithin f s.svc.fuses → step s = .next t → fusesWithin f t.svc.fuses

/-- At reset the fuses are as delivered (R474): key slot 0 is programmed, the others are blank, no slot is revoked, and the security
version is 0 (that slot 0's digest is 0 is the model's choice, log entry 64); no command waits, no time has passed and nothing has been
sent; both offices are neither owner nor relief, healthy of no fault, and in Loading; the status loop shows 3.5 mA. -/
def Obligations.WhatResetLeaves : Prop :=
  (∀ k, k < 4 → (State.reset.svc.fuses.slot k).prog = decide (k = 0) ∧ (State.reset.svc.fuses.slot k).revoked = false ∧
      (State.reset.svc.fuses.slot k).digest = 0) ∧ State.reset.svc.fuses.version = 0 ∧ State.reset.pending = [] ∧ State.reset.now = 0 ∧
    State.reset.out = [] ∧ (∀ o, State.reset.role o = .neither ∧ State.reset.mode o = .loading ∧ State.reset.healthWord o = 0 ∧
      State.reset.rd o F.GLB_WHO_OFFICE = officeBit o) ∧ State.reset.srd F.SL_STAT_LEVEL = 3 ∧ State.reset.srd F.SL_STAT_UA_SET = 3500 ∧
    ∀ t, (State.reset.tile t).vote = .none ∧ (State.reset.tile t).count = 0

/-- For values a and b of a field of w bits and d = (a − b) mod 2^w: a is later than b exactly when 0 < d < 2^(w−1); they are equal
exactly when d = 0; in every other case, d = 2^(w−1) among them, a is not later than b (R11). -/
def Obligations.LaterModuloTheField : Prop :=
  ∀ (w : Nat) (a b : BitVec w),
    let d := (a.toNat + 2 ^ w - b.toNat) % 2 ^ w
    (later a b = true ↔ 0 < d ∧ d < 2 ^ (w - 1)) ∧ (a = b ↔ d = 0) ∧ (d = 2 ^ (w - 1) → later a b = false)

/-- AUX_EDGE (R599): an edge of an enabled input, of the slope that its meter follows, that comes after the dead time of the last one is
kept with the stamp tick × 8,192 + 64 × fine + 32 less the signed `AUX_DLY` of its input, whatever else the edge does. -/
def Obligations.CorrectedAuxStamp : Prop :=
  ∀ (s : State) (o : OfficeId) (x falling : Bool) (tick : W64) (fine : BitVec 7),
    let a := (s.off o).aux
    let i := b2n x
    let dly : Nat := s.rd o F.AUX_DLY_DLY i % 2 ^ 32
    let signed : Int := if dly < 2 ^ 31 then (dly : Int) else (dly : Int) - 4294967296
    let t : Int := (tick.toNat : Int) * 8192 + 64 * (fine.toNat : Int) + 32 - signed
    (s.off o).inReset = false → s.rd o F.AUX_CFG_EN i ≠ 0 → s.rd o F.AUX_CFG_SLOPE i = b2n falling →
    (∀ n, Sparse.get 0 a.last i = n + 1 → n + s.rd o F.AUX_DEAD_DEAD i ≤ tick.toNat) →
    gives (.auxEdge o x falling tick fine) s fun u =>
      (if x then (u.off o).aux.edges.b else (u.off o).aux.edges.a).head? = some (tick.toNat, t) ∧
        ((u.rd o F.AUX_LAST_LO_T_L i + u.rd o F.AUX_LAST_HI_T_H i * 2 ^ 32 : Nat) : Int) = t % (2 ^ 64 : Int)

/-- LEADING_EDGE (R54, R87, R94, R95, R96, R101): an accepted edge starts a pulse stamped with the tick and, where an interpolator
is free, its fine code, else 0; in a tile that times the return crossing the reset switch closes at once. An edge not accepted
changes nothing. No other tile changes, and where no edge of the cluster is less than 4 bins away no other cell does (with the return
crossing, but for its peak hold). Two edges of one cluster less than 4 bins apart get the same stamps whichever comes first. -/
def Obligations.LeadingEdgeStartsPulse : Prop :=
  ∀ (s : State) (t : Fin 4) (c : BitVec 18) (fine : BitVec 7),
    ((s.tile t).accepts s.now c = true → (s.tile t).slopeOn = false →
      onlyTile (.leadingEdge t c fine) s t fun e =>
        (∃ p, (e.cell c.toNat).phase = .pulse p ∧ p.lead = (s.tile t).count ∧ p.leadAt = s.now ∧
          (alone s t c fine → p.coarseOnly = ((s.tile t).allocate s.now (clusterOf c.toNat)).isNone) ∧
          p.fine = (if p.coarseOnly then 0 else fine) ∧ p.calib = (s.tile t).calib ∧ p.switched = false) ∧
        (alone s t c fine → otherCells (s.tile t) e c.toNat ∧ e.completing = (s.tile t).completing)) ∧
    ((s.tile t).accepts s.now c = true → (s.tile t).slopeOn = true →
      onlyTile (.leadingEdge t c fine) s t fun e =>
        (e.cell c.toNat).phase = .resetClosed ((if fine = 0 then s.now else s.now + 1) + (s.tile t).rstTicks.toNat) ∧
          (alone s t c fine → otherTiming (s.tile t) e c.toNat)) ∧
    (∀ (c' : BitVec 18) (fine' : BitVec 7) (u v u' v' : State),
      c ≠ c' → clusterOf c.toNat = clusterOf c'.toNat → (s.tile t).accepts s.now c = true → (s.tile t).accepts s.now c' = true →
      (s.tile t).slopeOn = false → alone s t c fine → alone s t c' fine' → fine.toNat < fine'.toNat + 4 → fine'.toNat < fine.toNat + 4 →
      exec (.leadingEdge t c fine) s = .next u → exec (.leadingEdge t c' fine') u = .next u' →
      exec (.leadingEdge t c' fine') s = .next v → exec (.leadingEdge t c fine) v = .next v' →
      ((u'.tile t).cell c.toNat).phase = ((v'.tile t).cell c.toNat).phase ∧
        ((u'.tile t).cell c'.toNat).phase = ((v'.tile t).cell c'.toNat).phase) ∧
    ((s.tile t).accepts s.now c = false → exec (.leadingEdge t c fine) s = .next s)

/-- TRAILING_EDGE and TOT_SATURATION (R45, R56, R99): the end of a pulse closes its cell's reset switch for `RST_TICKS`, from
the tick boundary at or after the edge, or at the 1,024th tick, and in that tick an idle SAR starts to convert; an orphan edge is counted, closes it too, and makes no letter.
A trailing edge on a cell that neither pulses nor accepts an edge changes nothing, nor does a saturation before its time. -/
def Obligations.PulseEndClosesReset : Prop :=
  ∀ (s : State) (t : Fin 4) (c : BitVec 18) (fine : BitVec 7) (p : Pulse),
    (((s.tile t).cell c.toNat).phase = .pulse p → s.now < p.leadAt + 1024 →
      (onlyTile (.trailingEdge t c fine) s t fun e =>
        (e.cell c.toNat).phase = .resetClosed ((if fine = 0 then s.now else s.now + 1) + (s.tile t).rstTicks.toNat) ∧
          (alone s t c fine → otherTiming (s.tile t) e c.toNat ∧
            (cfgPeakEn ((s.tile t).cellWord c.toNat) = true → (s.tile t).sarOn (clusterOf c.toNat) = true → p.noPeak = false →
              ((s.tile t).cluster (clusterOf c.toNat)).conv = none →
              ∃ l : Letter, l.lead = p.lead ∧ l.fine = p.fine ∧ (e.cluster (clusterOf c.toNat)).conv =
                let b := if fine = 0 then s.now else s.now + 1
                some { cell := c, letter := l, raisedAt := b, startAt := b, sampled := false }))) ∧
      exec (.totSaturation t c) s = .next s) ∧
    (((s.tile t).cell c.toNat).phase = .pulse p → p.leadAt + 1024 ≤ s.now →
      onlyTile (.totSaturation t c) s t fun e =>
        (e.cell c.toNat).phase = .resetClosed (s.now + (s.tile t).rstTicks.toNat) ∧ otherTiming (s.tile t) e c.toNat) ∧
    ((s.tile t).accepts s.now c = true → (s.tile t).slopeOn = false →
      onlyTile (.trailingEdge t c fine) s t fun e =>
        regGet e.cnt F.SORT_TE_CNT_ORPHAN_COUNT t.val 0 =
            min (regGet (s.tile t).cnt F.SORT_TE_CNT_ORPHAN_COUNT t.val 0 + 1) 0xFFFFFFFF ∧
          (e.cell c.toNat).phase = .resetClosed ((if fine = 0 then s.now else s.now + 1) + (s.tile t).rstTicks.toNat) ∧
          e.completing = (s.tile t).completing ∧ otherCells (s.tile t) e c.toNat) ∧
    ((∀ q, ((s.tile t).cell c.toNat).phase ≠ .pulse q) → (s.tile t).accepts s.now c = false →
      exec (.trailingEdge t c fine) s = .next s)

/-- GAIN_SWITCH, RESET_SWITCH_OPEN, CELL_REARM and BLANKING_END (R36, R38, R40, R44, R50, R100): a pulse in AUTO switches to low
gain; the reset switch opens and 12 ticks of recovery follow; the cell re-arms, and above threshold a hit starts at once; the
end of blanking starts none. Each changes that cell alone, but
for a new hit that comes less than 4 bins from another edge of the cluster. -/
def Obligations.CellTimingPath : Prop :=
  ∀ (s : State) (t : Fin 4) (c : BitVec 18) (fine : BitVec 7) (p : Pulse) (u : Nat),
    (((s.tile t).cell c.toNat).phase = .pulse p →
      ((s.tile t).cellGmode c.toNat = 0 →
        onlyTile (.gainSwitch t c) s t fun e =>
          (e.cell c.toNat).phase = .pulse { p with gainLow := true, switched := true } ∧ cellOnly (s.tile t) e c.toNat) ∧
      ((s.tile t).cellGmode c.toNat ≠ 0 → exec (.gainSwitch t c) s = .next s)) ∧
    (((s.tile t).cell c.toNat).phase = .resetClosed u → u ≤ s.now →
      onlyTile (.resetSwitchOpen t c) s t fun e =>
        (e.cell c.toNat).phase = .recovering (u + 12) ∧ (e.cell c.toNat).keepMode = none ∧ cellOnly (s.tile t) e c.toNat) ∧
    (((s.tile t).cell c.toNat).phase = .recovering u → u ≤ s.now →
      (onlyTile (.cellRearm t c false fine) s t fun e => (e.cell c.toNat).phase = .idle ∧ cellOnly (s.tile t) e c.toNat) ∧
      ((s.tile t).inReset = false → (s.tile t).quiet = false → cfgDiscEn ((s.tile t).cellWord c.toNat) = true →
        (s.tile t).blanked s.now c.toNat = false → (s.tile t).slopeOn = false →
        onlyTile (.cellRearm t c true fine) s t fun e =>
          (∃ q, (e.cell c.toNat).phase = .pulse q ∧ q.lead = (s.tile t).count ∧ q.leadAt = s.now) ∧
            (alone s t c fine → otherCells (s.tile t) e c.toNat))) ∧
    ((s.tile t).blankUntil = none → ((s.tile t).cell c.toNat).blankUntil = some u → u ≤ s.now →
      onlyTile (.blankingEnd t c) s t fun e =>
        (e.cell c.toNat).blankUntil = none ∧ (e.cell c.toNat).phase = ((s.tile t).cell c.toNat).phase ∧
          cellOnly (s.tile t) e c.toNat)

/-- SAR_SAMPLING_END, SAR_CONVERSION_END and INTERPOLATOR_RELEASE (R45, R46, R49, R57, R87): a conversion releases the peak hold
after 192 ticks and ends after 1,536, when its letter, with an amplitude of 1 or more, waits 8 ticks for completion and a
waiting request starts; an interpolator is free from the third tick boundary after its edge. -/
def Obligations.ConversionsAndInterpolators : Prop :=
  ∀ (s : State) (t : Fin 4) (cl : BitVec 14) (raw : BitVec 12) (v : Conversion) (u : Nat),
    (((s.tile t).cluster cl.toNat).conv = some v → v.sampled = false → v.startAt + 192 ≤ s.now →
      onlyTile (.sarSamplingEnd t cl) s t fun e =>
        (e.cell v.cell.toNat).peakHeld = false ∧ (e.cluster cl.toNat).conv = some { v with sampled := true } ∧
          (e.cell v.cell.toNat).phase = ((s.tile t).cell v.cell.toNat).phase ∧ otherCells (s.tile t) e v.cell.toNat) ∧
    (((s.tile t).cluster cl.toNat).conv = some v → v.startAt + 1536 ≤ s.now →
      onlyTile (.sarConversionEnd t cl raw) s t fun e =>
        (∃ l : Letter, e.completing = (s.tile t).completing ++ [(v.cell, s.now + 8, l)] ∧ l.amp ≠ 0 ∧
          (raw ≠ 0 → l.amp = raw) ∧ l.channel = v.letter.channel ∧ l.tot = v.letter.tot ∧ l.lead = v.letter.lead ∧
          l.fine = v.letter.fine) ∧
        (e.cluster cl.toNat).conv = (((s.tile t).cluster cl.toNat).waiting.head?.map fun r =>
          { cell := r.cell, letter := r.letter, raisedAt := r.raisedAt, startAt := s.now, sampled := false }) ∧
        (e.cluster cl.toNat).waiting = ((s.tile t).cluster cl.toNat).waiting.tail ∧ otherCells (s.tile t) e v.cell.toNat) ∧
    (((s.tile t).cluster cl.toNat).conv = some v → s.now < v.startAt + 192 →
      exec (.sarSamplingEnd t cl) s = .next s ∧ exec (.sarConversionEnd t cl raw) s = .next s) ∧
    (((s.tile t).cluster cl.toNat).ip0 = .busy u → u ≤ s.now →
      onlyTile (.interpolatorRelease t cl false) s t fun e =>
        (e.cluster cl.toNat).ip0 = .free u ∧ clusterOnly (s.tile t) e cl.toNat) ∧
    (((s.tile t).cluster cl.toNat).ip1 = .busy u → u ≤ s.now →
      onlyTile (.interpolatorRelease t cl true) s t fun e =>
        (e.cluster cl.toNat).ip1 = .free u ∧ clusterOnly (s.tile t) e cl.toNat)

/-- LATCH_MAJORITY_CORRECTION (R66, R162): where no bit is upset in more than one of its three latches, every configuration word
stands as it was and each upset counts once in `SEU_COUNT`; nothing else changes. In the tick in which a write of the place took
effect, nothing counts. -/
def Obligations.LatchesOutvoteSingleUpsets : Prop :=
  ∀ (s : State) (t : Fin 4) (isCluster : Bool) (place : BitVec 18) (u0 u1 u2 : W16),
    let p := if isCluster then place.toNat % 16384 else place.toNat
    let fresh : Prop := (s.tile t).lastWriteAt = s.now ∧
      ((s.tile t).lastWrite.any fun c => cmdIsCluster c = isCluster && (cmdPlaces c).contains p) = true
    (¬ fresh → u0 &&& u1 = 0 → u0 &&& u2 = 0 → u1 &&& u2 = 0 →
      onlyTile (.latchMajorityCorrection t isCluster place u0 u1 u2) s t fun e =>
        (∀ x, e.cellWord x = (s.tile t).cellWord x) ∧ (∀ x, e.clusterWord x = (s.tile t).clusterWord x) ∧
          regGet e.cnt F.SORT_FE_CNT_SEU_COUNT t.val 0 =
            min (regGet (s.tile t).cnt F.SORT_FE_CNT_SEU_COUNT t.val 0 + popcount 16 (u0 ||| u1 ||| u2).toNat) 0xFFFFFFFF ∧
          e = { s.tile t with cnt := e.cnt, fresh := e.fresh, seuNow := e.seuNow }) ∧
    (fresh → exec (.latchMajorityCorrection t isCluster place u0 u1 u2) s = .next s)

/-- DLL_LOCK, DLL_LOSS_OF_LOCK and DLL_LOCK_TIMEOUT (R88 to R91, R114): a DLL locks after 1,024 ticks of acquisition at the
earliest; a loss counts and acquisition starts again at once, and no cell changes but by edges of the very tick, which become
coarse-only (R90); 30,000 ticks without lock make the owner raise 0x0121 with the tile, the cluster and `DLL_START`, once
until the DLL has locked. RESIDUE_ERROR_INJECT and CODE_DENSITY_START (R113, R114, R117, R122): the owner arms one wrong
residue prediction in the step written; a start shows `BUSY` and begins a pass at the first interpolator written, with empty
counts, in the present round; while a pass runs a start is refused with 0x0123 and cause 1, and the pass goes on; that this
cause has the number 1 is the model's choice (log entry 82), for the spec numbers none. -/
def Obligations.DllsAndCorrectionPath : Prop :=
  (∀ (s : State) (t : Fin 4) (cl : BitVec 14) (a : Nat) (o : OfficeId),
    (((s.tile t).cluster cl.toNat).dll = .acquiring a → a + 1024 ≤ s.now →
      gives (.dllLock t cl) s fun u =>
        ((u.tile t).cluster cl.toNat).dll = .locked s.now ∧ clusterOnly (s.tile t) (u.tile t) cl.toNat ∧
          (∀ x, x ≠ t → u.tile x = s.tile x) ∧ u.svc = s.svc ∧
          ∀ x, (u.off x).dllNoted = (s.off x).dllNoted.erase (dllKey t cl.toNat) ∧ (u.off x).regs = (s.off x).regs) ∧
    (((s.tile t).cluster cl.toNat).dll = .acquiring a → s.now < a + 1024 → exec (.dllLock t cl) s = .next s) ∧
    (((s.tile t).cluster cl.toNat).dll = .locked a →
      gives (.dllLossOfLock t cl) s fun u =>
        ((u.tile t).cluster cl.toNat).dll = .acquiring s.now ∧
          ((((s.tile t).cluster cl.toNat).tickEdges.all fun e => decide (e.tick ≠ s.now)) = true →
            (u.tile t).cells = (s.tile t).cells) ∧
          regGet (u.tile t).cnt F.SORT_TE_CNT_UNLOCK_COUNT t.val 0 =
            min (regGet (s.tile t).cnt F.SORT_TE_CNT_UNLOCK_COUNT t.val 0 + 1) 0xFFFFFFFF ∧
          (∀ x, x ≠ t → u.tile x = s.tile x) ∧ u.svc = s.svc ∧ ∀ x, s.owner ≠ some x → u.off x = s.off x) ∧
    (((s.tile t).cluster cl.toNat).dll = .acquiring a → s.owner = some o →
      (a + 30000 ≤ s.now → (s.off o).dllNoted.contains (dllKey t cl.toNat) = false →
        gives (.dllLockTimeout t cl) s fun u =>
          raised s u o 0x0121 (le 1 t.val ++ le 2 cl.toNat ++ le 1 (cfgDllStart ((s.tile t).clusterWord cl.toNat))) ∧
            (u.off o).dllNoted.contains (dllKey t cl.toNat) = true ∧ onlyOff s u o ∧ regsKept s u o []) ∧
      ((s.off o).dllNoted.contains (dllKey t cl.toNat) = true → exec (.dllLockTimeout t cl) s = .next s))) ∧
  (∀ (s : State) (o : OfficeId) (v : W32), s.takesWrites o = true → s.owns o = true →
    (writable s o F.SORT_RES_CTL_INJ.off v.toNat → v.getLsbD 8 = true →
      gives (.residueErrorInject o v) s fun u =>
        (u.off o).resInj = some (v.toNat % 8) ∧ u.rd o F.SORT_RES_CTL_INJ_STEP = v.toNat % 8 ∧ onlyOff s u o ∧
          regsKept s u o [F.SORT_RES_CTL_INJ_STEP.key 0 0]) ∧
    (v.getLsbD 31 = true → s.rd o F.SORT_CD_STAT_BUSY = 0 → v.toNat / 2 ^ 20 % 4 = 0 → v.toNat % 8192 = 0 →
      gives (.codeDensityStart o v) s fun u =>
        u.rd o F.SORT_CD_STAT_BUSY = 1 ∧ (u.off o).cd.first = v.toNat % 2 ^ 17 ∧ (u.off o).cd.m = [] ∧ (u.off o).cd.c = [] ∧
          (u.off o).cd.startRound = s.roundOf (s.off o).count ∧ onlyOff s u o) ∧
    (v.getLsbD 31 = true → s.rd o F.SORT_CD_STAT_BUSY = 1 →
      gives (.codeDensityStart o v) s fun u =>
        raised s u o 0x0123 (le 4 v.toNat ++ [1]) ∧ (u.off o).cd = (s.off o).cd ∧ u.rd o F.SORT_CD_STAT_BUSY = 1 ∧ onlyOff s u o))

/-- LETTER_COMPLETE (R57, R126, R129, R130, R133): a due letter goes into the bucket of its round and district while that is
open, as the last of it, and the 24th letter ships the bucket; after the close it is kept as a late letter with its flag; in an
overflowed bucket or a full letter memory it is dropped and counted. Other buckets stay. A letter that is not due changes nothing. -/
def Obligations.CompletedLettersAreFiled : Prop :=
  ∀ (s : State) (t : Fin 4) (c : BitVec 18) (n : Nat) (l : Letter),
    let d := s.tile t
    let round := l.lead.toNat / 2 ^ s.svc.roundShift
    let k := bucketKey round (cellDistrict (l.channel.toNat % 262144))
    let b : Bucket := Sparse.get {} d.buckets k
    let w : LateBucket := Sparse.get {} d.late k
    ((d.completing.find? fun e => e.1 = c && decide (e.2.1 ≤ s.now)) = some (c, n, l) →
      (onlyTile (.letterComplete t c) s t fun e =>
        e.completing = d.completing.erase (c, n, l) ∧ e.cells = d.cells ∧ e.cnt = d.cnt ∧
          (∀ x, x ≠ k → Sparse.get {} e.buckets x = Sparse.get {} d.buckets x) ∧
          ((b.overflowed = true ∨ 65536 ≤ d.memUsed) →
            Sparse.get {} e.buckets k = { b with overflowed := true, dropped := b.dropped + 1 } ∧ e.queue = d.queue ∧
              e.late = d.late) ∧
          (b.overflowed = false → d.memUsed < 65536 → d.openFor s.svc.roundShift round = true → b.letters.length + 1 < 24 →
            Sparse.get {} e.buckets k = { b with letters := b.letters ++ [l] } ∧ e.queue = d.queue ∧ e.late = d.late) ∧
          (b.overflowed = false → d.memUsed < 65536 → d.openFor s.svc.roundShift round = true → 24 ≤ b.letters.length + 1 →
            Sparse.get {} e.buckets k = { b with letters := [], made := b.made + 1 } ∧ e.late = d.late ∧
              ∃ f, holdsFrame e f ∧ f.kind = .data ∧ f.round = round ∧ f.letters = b.letters ++ [l]) ∧
          (b.overflowed = false → d.memUsed < 65536 → d.openFor s.svc.roundShift round = false → w.letters.length + 1 < 24 →
            Sparse.get {} e.late k =
              { letters := w.letters ++ [{ l with flags := l.flags ||| BitVec.ofNat 7 flagLate }],
                firstAt := if w.letters = [] then s.now else w.firstAt } ∧ e.buckets = d.buckets ∧ e.queue = d.queue))) ∧
    ((d.completing.find? fun e => e.1 = c && decide (e.2.1 ≤ s.now)) = none → exec (.letterComplete t c) s = .next s)

/-- BUCKET_CLOSE and LATE_FRAME_TIMEOUT (R127, R129, R130): at the closing tick every bucket of the round is emptied, and later
letters of it are late (rounds and ticks are compared as R11 says); a late frame goes 64 ticks after its first letter was filed. Before their time neither changes anything. -/
def Obligations.BucketsCloseAndLateFramesGo : Prop :=
  ∀ (s : State) (t : Fin 4) (r : Round) (x : BitVec 6),
    let d := s.tile t
    let w : LateBucket := Sparse.get {} d.late (bucketKey r.toNat x.toNat)
    (d.inReset = false → roundLe d.closedTo r.toNat = true →
      tickLe ((r.toNat + 1) * 2 ^ s.svc.roundShift - 1 + d.closeDly) d.count.toNat = true →
      onlyTile (.bucketClose t r) s t fun e =>
        e.closedTo = (r.toNat + 1) % 2 ^ 48 ∧ e.late = d.late ∧ e.cells = d.cells ∧ e.cnt = d.cnt ∧
          ∀ k, k < 64 → (Sparse.get {} e.buckets (bucketKey r.toNat k) : Bucket).letters = []) ∧
    (tickLt d.count.toNat ((r.toNat + 1) * 2 ^ s.svc.roundShift - 1 + d.closeDly) = true → exec (.bucketClose t r) s = .next s) ∧
    (w.letters ≠ [] → w.firstAt + 64 ≤ s.now →
      onlyTile (.lateFrameTimeout t x r) s t fun e =>
        (Sparse.get {} e.late (bucketKey r.toNat x.toNat) : LateBucket).letters = [] ∧ e.buckets = d.buckets ∧
          ∃ f, holdsFrame e f ∧ f.kind = .late ∧ f.letters = w.letters) ∧
    ((w.letters = [] ∨ s.now < w.firstAt + 64) → exec (.lateFrameTimeout t x r) s = .next s)

/-- LANE_FRAME_SENT and IDLE_FRAME_SEND (R134, R136, R142, R143, R147, R149): a frame whose characters have all left is sent with
the letters whose entry read good, the bucket of a data frame accounts for them and for the others, and the committed frame
starts; a frame all of whose letters were bad is not sent. Idle frames go out on every lane that has nothing else to carry, to
both offices, and change nothing else. -/
def Obligations.FramesLeaveTheTile : Prop :=
  ∀ (s : State) (t : Fin 4) (o : OfficeId) (k : Fin 8) (bad : BitVec 24) (f : TileFrame),
    let d := s.tile t
    let l : LaneTx := Sparse.get {} d.lanes (laneKey o k.val)
    let good := goodLetters bad 0 f.letters
    let b : Bucket := Sparse.get {} d.buckets (bucketKey f.round f.district)
    (l.sending = some f → f.chars * 5 ≤ (s.now - l.startAt) * 4 →
      gives (.laneFrameSent t o k bad) s fun u =>
        u.svc = s.svc ∧ u.offices = s.offices ∧ (∀ x, x ≠ t → u.tile x = s.tile x) ∧
          u.out = (if f.letters ≠ [] ∧ good = [] then s.out else
            .tileFrame t o k.val (d.frameOut s.svc.roundShift f good) :: s.out) ∧
          (f.kind = .data → (Sparse.get {} (u.tile t).buckets (bucketKey f.round f.district) : Bucket) =
            { b with frames := b.frames + (if good = [] then 0 else 1), shipped := b.shipped + good.length,
                     eccDrop := b.eccDrop + (f.letters.length - good.length) }) ∧
          (∀ g, l.committed = some g →
            (Sparse.get {} (u.tile t).lanes (laneKey o k.val) : LaneTx).sending = some g ∧
              (Sparse.get {} (u.tile t).lanes (laneKey o k.val) : LaneTx).startAt = s.now)) ∧
    (l.sending = some f → (s.now - l.startAt) * 4 < f.chars * 5 → exec (.laneFrameSent t o k bad) s = .next s) ∧
    (d.inReset = false →
      ∃ xs, exec (.idleFrameSend t) s = .next { s with out := xs ++ s.out } ∧
        ∀ x (n : Nat), n < 8 → (.tileFrame t x n (d.idleFrame s.now x) ∈ xs ↔
          d.idlesOn x n = true ∧ (Sparse.get {} (s.off x).lanes (t.val * 12 + n) : Lane).state ≠ .retired))

/-- DL_CONFIG_FRAME_RX and DL_LANE_STATUS_RX (R18, R150, R158, R160, R164): a whole frame of the voted office with the expected
`SEQ` is taken, its refused commands are counted at the owner and dropped; a frame out of sequence leaves the command queue, and so
does any frame of the other office; each frame trains its downlink (R151, R712). Lane status words take lanes out of the UP set at once
and add lanes later. -/
def Obligations.ConfigFramesInSequence : Prop :=
  ∀ (s : State) (t : Fin 4) (o : OfficeId) (f : DlFrame) (w : W64) (ws : List W64),
    let d := s.tile t
    (d.vote = .office o → d.inReset = false → dlGood f = true → dlType f.hdr = 0 → 1 ≤ dlCount f.hdr → dlCount f.hdr ≤ 16 →
      (dlSeq f.hdr = d.expectSeq.toNat →
        gives (.dlConfigFrameRx t o f) s fun u =>
          u.tile t = { d.trainDownlink o true with expectSeq := d.expectSeq + 1, cfgQueue := d.cfgQueue ++ f.words.filter fun c => !cmdRefused c } ∧
            (f.words.filter cmdRefused ≠ [] → u.rd o F.SORT_LN_CNT_BADHDR_COUNT t.val =
              min (s.rd o F.SORT_LN_CNT_BADHDR_COUNT t.val + (f.words.filter cmdRefused).length) 0xFFFFFFFF) ∧
            (f.words.filter cmdRefused = [] → u.offices = s.offices) ∧
            u.out = s.out ∧ u.svc = s.svc ∧ ∀ x, x ≠ t → u.tile x = s.tile x) ∧
      (dlSeq f.hdr ≠ d.expectSeq.toNat →
        onlyTile (.dlConfigFrameRx t o f) s t fun e =>
          e.expectSeq = d.expectSeq ∧ e.cfgQueue = d.cfgQueue ∧ e.nakAt.isSome = true)) ∧
    (d.vote ≠ .office o →
      onlyTile (.dlConfigFrameRx t o f) s t (fun e => e = d.trainDownlink o (dlGood f)) ∧
        onlyTile (.dlLaneStatusRx t o f) s t fun e => e = d.trainDownlink o (dlGood f)) ∧
    (d.vote = .office o → d.inReset = false → dlGood f = true → dlType f.hdr = 2 → f.words = w :: ws →
      onlyTile (.dlLaneStatusRx t o f) s t fun e =>
        e.upLetter.get o = d.upLetter.get o &&& w.extractLsb' 0 8 ∧ e.addLetter.get o = w.extractLsb' 0 8 ∧
          e.upSum.get o = d.upSum.get o &&& w.extractLsb' 8 3 ∧ e.addSum.get o = w.extractLsb' 8 3 ∧
          e.upLetter.get (otherOffice o) = d.upLetter.get (otherOffice o) ∧ e.cfgQueue = d.cfgQueue ∧ e.cells = d.cells)

/-- WRITE_CELL_WORD, WRITE_CLUSTER_WORD, READ_CELL_WORD, READ_CLUSTER_WORD and CONFIG_WRITE_COMPLETE (R68, R145, R159 to R161):
the command at the head runs when the write engine is free; a write takes one tick for each addressed row and then puts its word
into every addressed place and no other; a read answers with the word as it stands, runtime states of the tile included (R67). A command that is not at the head, or that
finds the engine busy, does nothing. -/
def Obligations.ConfigurationCommandsRun : Prop :=
  ∀ (s : State) (t : Fin 4) (cmd : W64) (e0 : EngineWrite),
    let d := s.tile t
    let next := fun (e : Tile) => e = { d with cfgQueue := d.cfgQueue.tail, engine := some { cmd := cmd, doneAt := s.now + cmdTicks cmd } }
    let reply := fun (e : Tile) (w : Nat) (k : Bool) => e.cfgQueue = d.cfgQueue.tail ∧ e.engine = none ∧ e.cellCfg = d.cellCfg ∧
      e.clusterCfg = d.clusterCfg ∧ ∃ f, holdsFrame e f ∧ f.kind = .status ∧ f.words = [readBackWord (cmdReadPlace cmd) w k]
    (d.cfgQueue.head? = some cmd → d.engine = none →
      (cmdOp cmd = 0 → onlyTile (.writeCellWord t cmd) s t next) ∧
      (cmdOp cmd = 1 → onlyTile (.writeClusterWord t cmd) s t next) ∧
      (cmdOp cmd = 2 → onlyTile (.readCellWord t cmd) s t fun e => reply e (d.shownWord false (cmdReadPlace cmd)) false) ∧
      (cmdOp cmd = 3 → onlyTile (.readClusterWord t cmd) s t fun e => reply e (d.shownWord true (cmdReadPlace cmd)) true)) ∧
    (d.cfgQueue.head? ≠ some cmd ∨ d.engine ≠ none →
      exec (.writeCellWord t cmd) s = .next s ∧ exec (.writeClusterWord t cmd) s = .next s ∧
        exec (.readCellWord t cmd) s = .next s ∧ exec (.readClusterWord t cmd) s = .next s) ∧
    (d.engine = some e0 → e0.doneAt ≤ s.now →
      gives (.configWriteComplete t) s fun u =>
        let e := u.tile t
        u.pending = s.pending ∧ (∀ x, x ≠ t → u.tile x = s.tile x) ∧
          e.engine = none ∧ e.lastWrite = some e0.cmd ∧ e.cfgQueue = d.cfgQueue ∧
          (cmdIsCluster e0.cmd = false → u.offices = s.offices ∧ e.clusterCfg = d.clusterCfg ∧
            ∀ p, e.cellWord p = if p ∈ cmdPlaces e0.cmd then cmdWord e0.cmd else d.cellWord p) ∧
          (cmdIsCluster e0.cmd = true → e.cellCfg = d.cellCfg ∧
            ∀ p, e.clusterWord p = if p ∈ cmdPlaces e0.cmd then cmdWord e0.cmd else d.clusterWord p)) ∧
    (d.engine = some e0 → s.now < e0.doneAt → exec (.configWriteComplete t) s = .next s)

/-- LANE_TRAINING_PASS, LANE_TRAINING_ATTEMPT_TIMEOUT, LANE_CODE_ERRORS, ELASTIC_BUFFER_OVERFLOW and RETRAIN (R22, R151, R152,
R171, R712): a lane in TRAINING reaches UP with 256 training frames in a row, and not before; code errors and an overflow
start their count again; 2.5 ms of an attempt without UP is a failed attempt and the fourth retires the lane; code errors, an
overflow or a command take a lane out of UP, and the eighth move within a second retires it; a command trains a retired lane
again. A lane that is not UP does not leave UP, and one that does not train does not reach it. FIFO_FLUSH (R155 to R157,
R393): no word is left, both pointers are zero, the writer sees full and the reader empty until the synchronisers settle, so
that a write is refused and a read gives the blank item; a writer in mid-item drops the rest of its item, and an item of a
ring port that the flush cuts counts as a bad frame; other FIFOs stay. -/
def Obligations.LaneStatesAndFifoFlush : Prop :=
  (∀ (s : State) (o : OfficeId) (t : Fin 4) (lane : LaneRef) (a : Bool) (v : W32),
    let l := s.lane o t lane
    let recent := (l.moves.filter fun m => s.now - m < ticksOfUs 1000000).length
    let down := fun (u : State) => u.pending = s.pending ∧ u.now = s.now ∧
      (recent < 7 → (u.lane o t lane).state = .training ∧ (u.lane o t lane).since = s.now ∧ (u.lane o t lane).attempts = 0) ∧
      (7 ≤ recent → (u.lane o t lane).state = .retired)
    let tried := max l.since (s.laneReset o t lane)
    let again := fun (u : State) => u.lane o t lane = { l with good := 0 } ∧ u.out = s.out ∧ u.svc = s.svc
    (l.state = .training →
      (256 ≤ l.good → gives (.laneTrainingPass o t lane) s fun u => (u.lane o t lane).state = .up ∧ (u.lane o t lane).attempts = 0) ∧
      (l.good < 256 → exec (.laneTrainingPass o t lane) s = .next s) ∧
      (tried + ticksOfUs 2500 ≤ s.now → l.attempts < 3 →
        gives (.laneTrainingAttemptTimeout o t lane) s fun u =>
          u.lane o t lane = { l with since := s.now, attempts := l.attempts + 1, good := 0 } ∧ u.out = s.out ∧ u.svc = s.svc) ∧
      (tried + ticksOfUs 2500 ≤ s.now → 3 ≤ l.attempts →
        gives (.laneTrainingAttemptTimeout o t lane) s fun u => (u.lane o t lane).state = .retired) ∧
      gives (.laneCodeErrors o t lane a) s again ∧ gives (.elasticBufferOverflow o t lane) s again) ∧
    (l.state = .up →
      gives (.laneCodeErrors o t lane a) s down ∧ gives (.elasticBufferOverflow o t lane) s down ∧
        exec (.laneTrainingPass o t lane) s = .next s ∧ exec (.laneTrainingAttemptTimeout o t lane) s = .next s) ∧
    (writable s o F.SORT_LN_CMD_RETRAIN.off v.toNat → v.getLsbD 31 = true → laneOfNum (v.toNat % 16) = some lane →
      v.toNat / 16 % 4 = t.val →
      (l.state = .up → gives (.retrain o v) s down) ∧
      (l.state = .retired → gives (.retrain o v) s fun u =>
        (u.lane o t lane).state = .training ∧ (u.lane o t lane).since = s.now ∧ (u.lane o t lane).attempts = 0) ∧
      (l.state = .training → gives (.retrain o v) s fun u => u.lane o t lane = l))) ∧
  (∀ (s : State) (p : RingPort) (o : OfficeId) (writing : Bool),
    let k := match p with
      | .E => 0
      | .W => 1
    let ref := match p with
      | .E => FifoRef.ringRxE
      | .W => FifoRef.ringRxW
    let old : Fifo := Sparse.get {} s.svc.fifos k
    let flushed := fun (y : Fifo) => y.words = [] ∧ y.rptr = 0 ∧ y.wptr = 0 ∧ y.skipping = writing ∧ y.full s.now = true ∧
      y.empty s.now = true ∧ y.read s.now = (y, false, {}) ∧
      ∀ w : FifoWord, w.first = true → (y.write s.now w).words = [] ∧ (y.write s.now w).refused = y.refused + 1
    (gives (.fifoFlush ref writing) s fun u =>
      flushed (Sparse.get {} u.svc.fifos k) ∧ (∀ j, j ≠ k → Sparse.get {} u.svc.fifos j = (Sparse.get {} s.svc.fifos j : Fifo)) ∧
        u.tiles = s.tiles ∧ u.out = s.out ∧
        ((writing = true ∨ old.inItem = true) → u.srd F.RING_CNT_CRC_COUNT = min (s.srd F.RING_CNT_CRC_COUNT + 1) 0xFFFFFFFF) ∧
        (writing = false → old.inItem = false → u.offices = s.offices ∧ u.svc.regs = s.svc.regs)) ∧
    (gives (.fifoFlush (.pcieRx o) writing) s fun u => flushed (u.off o).pcieRx ∧ onlyOff s u o ∧ regsKept s u o [] ∧ u.out = s.out) ∧
    (gives (.fifoFlush (.pcieTx o) writing) s fun u => flushed (u.off o).pcieTx ∧ onlyOff s u o ∧ regsKept s u o [] ∧ u.out = s.out))

/-- DATA_FRAME_RX, LATE_FRAME_RX, CLOSE_FRAME_RX, STATUS_FRAME_RX and IDLE_FRAME_RX (R139, R140, R332, R712): a frame that fails a check
is discarded: the counter of the first check that fails goes up by one, and beyond that, the notice of a full counter and the count of
training frames of its lane nothing changes, whatever the frame says. A good idle frame of a sum lane counts for its training alone. -/
def Obligations.BadFramesCountOnceAndLeaveNothing : Prop :=
  ∀ (s : State) (o : OfficeId) (t : Fin 4) (k : Fin 8) (j : Fin 3) (f : LaneFrame) (c : Fld),
    let counted := fun (u : State) =>
      u.rd o c t.val = min (s.rd o c t.val + 1) 0xFFFFFFFF ∧ onlyOff s u o ∧ regsKept s u o [c.key t.val 0] ∧ u.out = s.out ∧
        (u.off o).rounds = (s.off o).rounds ∧ (u.off o).liveness = (s.off o).liveness ∧ (u.off o).statusAt = (s.off o).statusAt
    (s.off o).inReset = false →
    (s.frameFault o f = some c →
      gives (.dataFrameRx o t k f) s counted ∧ gives (.lateFrameRx o t k f) s counted ∧ gives (.closeFrameRx o t k f) s counted ∧
        gives (.statusFrameRx o t k f) s counted ∧ gives (.idleFrameRx o t (.letter k) f) s counted) ∧
    (sumFault f = some c → gives (.idleFrameRx o t (.sum j) f) s counted) ∧
    (sumFault f = none → (s.lane o t (.sum j)).state ≠ .training → exec (.idleFrameRx o t (.sum j) f) s = .next s) ∧
    (sumFault f = none → (s.lane o t (.sum j)).state = .training → frmType f.hdr = 2 →
      gives (.idleFrameRx o t (.sum j) f) s fun u =>
        u.lane o t (.sum j) = { s.lane o t (.sum j) with good := (s.lane o t (.sum j)).good + 1 } ∧ onlyOff s u o ∧ regsKept s u o [] ∧
          u.out = s.out) ∧
    (f.charErr = true → s.frameFault o f = some F.SORT_LN_CNT_CRC_COUNT ∧ sumFault f = some F.SORT_LN_CNT_CRC_COUNT)

/-- DATA_FRAME_RX and LATE_FRAME_RX (R31, R131, R173, R177 to R179): the owner counts the frame for its district round and keeps its
letters in the order sent; from the first that finds the receive buffer full on they are counted as dropped instead, and an empty
buffer keeps them all. Late letters count as late, or as dropped when the merge of their district round has begun, and those change
no round. That the letters of a plain data frame that comes after the merge has begun are dropped and counted in the same way is the
model's choice (log entry 86). -/
def Obligations.ReceivedLettersAreKeptOrCounted : Prop :=
  ∀ (s : State) (o : OfficeId) (t : Fin 4) (k : Fin 8) (f : LaneFrame) (r : Nat),
    let x := roundKey r (districtByte t (frmDistrict f.hdr))
    let e := (s.off o).round x
    let kept := fun (u : State) (late : Bool) => ∃ n ≤ frmCount f.hdr,
      ((u.off o).round x).letters = e.letters ++ (frameLetters f late).take n ∧
        ((u.off o).round x).rxDropped + n = e.rxDropped + frmCount f.hdr ∧ ((s.off o).rounds = [] → (s.off o).mrg.units = [] → n = frmCount f.hdr) ∧
        ((u.off o).round x).close = e.close ∧ ∀ y, y ≠ x → (u.off o).round y = (s.off o).round y
    (s.off o).inReset = false → s.frameFault o f = none → s.fullRound o (frmRound f.hdr) = some r →
    (s.off o).merges r = true → (s.off o).tickBad.contains (t.val, r) = false →
    ((s.off o).begun x = false → frmType f.hdr = 0 →
      gives (.dataFrameRx o t k f) s fun u =>
        kept u false ∧ ((u.off o).round x).frames = e.frames + 1 ∧ onlyOff s u o ∧ u.out = s.out) ∧
    ((s.off o).begun x = false → frmType f.hdr = 1 →
      gives (.lateFrameRx o t k f) s fun u =>
        kept u true ∧ ((u.off o).round x).frames = e.frames ∧ onlyOff s u o ∧ u.out = s.out ∧
          u.rd o F.SORT_LN_CNT_LATE_COUNT t.val =
            min (s.rd o F.SORT_LN_CNT_LATE_COUNT t.val + (((u.off o).round x).letters.length - e.letters.length)) 0xFFFFFFFF) ∧
    ((s.off o).begun x = true → frmType f.hdr = 0 →
      gives (.dataFrameRx o t k f) s fun u =>
        (∀ y, ((u.off o).round y).letters = ((s.off o).round y).letters) ∧ onlyOff s u o ∧ u.out = s.out ∧
          u.rd o F.SORT_LN_CNT_LATEDROP_COUNT t.val =
            min (s.rd o F.SORT_LN_CNT_LATEDROP_COUNT t.val + frmCount f.hdr) 0xFFFFFFFF) ∧
    ((s.off o).begun x = true → frmType f.hdr = 1 → 0 < frmCount f.hdr →
      gives (.lateFrameRx o t k f) s fun u =>
        (u.off o).rounds = (s.off o).rounds ∧ onlyOff s u o ∧ u.out = s.out ∧
          u.rd o F.SORT_LN_CNT_LATEDROP_COUNT t.val =
            min (s.rd o F.SORT_LN_CNT_LATEDROP_COUNT t.val + frmCount f.hdr) 0xFFFFFFFF)

/-- CLOSE_FRAME_RX, IDLE_FRAME_RX and STATUS_FRAME_RX (R69, R135, R143 to R145, R174, R522): the close record of a district round
is kept as sent and the frames it counts beyond those received are lost frames, which count, as its dropped letters do; one that comes
after its round was made ready without it counts all the same and does not change the readiness; an idle frame leaves its liveness word
with its arrival and the downlink state; a status word refreshes the owner's copy of a counter. -/
def Obligations.CloseIdleAndStatusFrames : Prop :=
  ∀ (s : State) (o : OfficeId) (t : Fin 4) (k : Fin 8) (f : LaneFrame) (r : Nat),
    let x := roundKey r (districtByte t (frmDistrict f.hdr))
    let e := (s.off o).round x
    let frames := ofLe ((f.payload.drop 3).take 3)
    let w := ofLe (f.payload.take 8)
    let ovf := ofLe ((f.payload.drop 6).take 4)
    (s.off o).inReset = false → s.frameFault o f = none →
    (frmType f.hdr = 2 → s.fullRound o (frmRound f.hdr) = some r → s.owns o = true → (s.off o).merges r = true →
      (s.off o).begun x = false → e.close = none → e.noClose = false →
      gives (.closeFrameRx o t k f) s fun u =>
        ((u.off o).round x).close = some ⟨ofLe (f.payload.take 3), frames, ofLe ((f.payload.drop 6).take 4), ofLe ((f.payload.drop 10).take 2)⟩ ∧
        ((u.off o).round x).letters = e.letters ∧ ((u.off o).round x).lostFrames = decide (e.frames < frames) ∧
        (e.frames < frames → u.rd o F.SORT_LN_CNT_LOSTFRM_COUNT t.val =
          min (s.rd o F.SORT_LN_CNT_LOSTFRM_COUNT t.val + (frames - e.frames)) 0xFFFFFFFF) ∧
        (∀ y, y ≠ x → (u.off o).round y = (s.off o).round y) ∧ onlyOff s u o ∧ u.out = s.out) ∧
    (frmType f.hdr = 2 → s.fullRound o (frmRound f.hdr) = some r → s.owns o = true → (s.off o).merges r = true → e.close = none →
      e.noClose = true → gives (.closeFrameRx o t k f) s fun u =>
        (e.frames < frames → u.rd o F.SORT_LN_CNT_LOSTFRM_COUNT t.val =
          min (s.rd o F.SORT_LN_CNT_LOSTFRM_COUNT t.val + (frames - e.frames)) 0xFFFFFFFF) ∧
        (0 < ovf → u.rd o F.SORT_LN_CNT_OVFDROP_COUNT t.val =
          min (s.rd o F.SORT_LN_CNT_OVFDROP_COUNT t.val + ovf) 0xFFFFFFFF) ∧
        (keyLt x (s.off o).nextKey = false → ((u.off o).round x).letters = e.letters ∧ ((u.off o).round x).readyAt = e.readyAt) ∧
        (∀ y, y ≠ x → (u.off o).round y = (s.off o).round y) ∧ onlyOff s u o ∧ u.out = s.out) ∧
    (frmType f.hdr = 2 → s.owns o = false → exec (.closeFrameRx o t k f) s = .next s) ∧
    (frmType f.hdr = 3 →
      gives (.idleFrameRx o t (.letter k) f) s fun u =>
        (u.off o).liveness.get t = some (s.now, BitVec.ofNat 32 (ofLe f.payload)) ∧
          u.rd o F.SORT_LN_STAT_DL t.val = ofLe f.payload / 2 ^ 8 % 4 ∧ (u.off o).rounds = (s.off o).rounds ∧
          ((s.lane o t (.letter k)).state = .training →
            (u.lane o t (.letter k)).good = (s.lane o t (.letter k)).good + 1) ∧
          (∀ x, x ≠ t → (u.off o).liveness.get x = (s.off o).liveness.get x) ∧ onlyOff s u o ∧ u.out = s.out) ∧
    (frmType f.hdr = 4 → frmCount f.hdr = 1 → w % 256 = 1 →
      ∀ g, (tileCounters.find? fun e => e.1 = w / 2 ^ 8 % 256 && e.2.1 = w / 2 ^ 16 % 256) = some g →
      gives (.statusFrameRx o t k f) s fun u =>
        u.rd o g.2.2 t.val = w / 2 ^ 32 % 2 ^ 32 ∧ (u.off o).statusAt.get t = some s.now ∧ u.out = s.out ∧
          (w / 2 ^ 32 % 2 ^ 32 ≠ 0xFFFFFFFF → onlyOff s u o) ∧
          regsKept s u o [g.2.2.key t.val 0])

/-- READBACK_REPLY_RX and DOWNLINK_NAK_RX (R67, R145, R158, R163, R165): a cell word that is neither the owner's copy nor that copy with
a runtime state raises 0x0102 and is written again, in a frame of its own where the downlink is free, else behind what waits for it; one
that agrees does nothing; a NAK counts, and the frames kept from the named one on go out again, or 0x0206 and every word of the
tile where it is kept no longer. An office that does not own does nothing. -/
def Obligations.ConfigurationBusAtTheOwner : Prop :=
  ∀ (s : State) (o : OfficeId) (t : Fin 4) (w : W64) (q : Byte),
    let c := w.toNat / 2 ^ 8 % 2 ^ 18
    let got := w.toNat / 2 ^ 32 % 2 ^ 16
    let want := (s.off o).expectedCell t c
    let next := Sparse.get 0 (s.off o).dlSeq t.val
    let ws : List W64 := Sparse.get [] (s.off o).dlKept (t.val * 256 + q.toNat)
    let waits : List W64 := Sparse.get [] (s.off o).cfgTx t.val
    let busy := s.now < Sparse.get 0 (s.off o).cfgFree t.val
    let base := 0x0620000 + 0x80 * (4 * t.val + s.rd o F.TRG_CTL_PROFILE t.val)
    (s.owns o = true → w.getLsbD 26 = false → (s.off o).contextBad (channelOf t c) = false →
      ((s.expectedWords o t false c want).contains got = false → gives (.readbackReplyRx o t w) s fun u =>
        raised s u o 0x0102 (le 1 t.val ++ le 2 (clusterOf c) ++ le 1 (cellInCluster c) ++ le 2 got ++ le 2 want) ∧
          onlyOff s u o ∧ regsKept s u o [] ∧
          (¬ busy → waits = [] → Sparse.get 0 (s.off o).cfgResend t.val = 0 →
            u.out = .downlink o t (dlHeader 0 next 1) [cmdFor 0 c want] :: s.out) ∧
          (busy → u.out = s.out ∧ Sparse.get [] (u.off o).cfgTx t.val = waits ++ [cmdFor 0 c want])) ∧
      (got = want → exec (.readbackReplyRx o t w) s = .next s)) ∧
    (s.owns o = true →
      ((ws ≠ [] → q.toNat ≠ next → gives (.downlinkNakRx o t q) s fun u =>
        u.rd o F.SORT_LN_CNT_DLNAK_COUNT t.val = min (s.rd o F.SORT_LN_CNT_DLNAK_COUNT t.val + 1) 0xFFFFFFFF ∧ onlyOff s u o ∧
          (¬ busy → u.out = .downlink o t (dlHeader 0 q.toNat ws.length) ws :: s.out) ∧
          (busy → u.out = s.out ∧ Sparse.get 0 (u.off o).cfgResend t.val = q.toNat + 1)) ∧
      (q.toNat = next → gives (.downlinkNakRx o t q) s fun u => u.out = s.out ∧ onlyOff s u o ∧
        u.rd o F.SORT_LN_CNT_DLNAK_COUNT t.val = min (s.rd o F.SORT_LN_CNT_DLNAK_COUNT t.val + 1) 0xFFFFFFFF) ∧
      (ws = [] → q.toNat ≠ next →
        (∀ k p, k < 16 → arrayAt (base + 8 * k) = some p → (s.off o).arrClass p.1 p.2 = .clean) →
        gives (.downlinkNakRx o t q) s fun u =>
          raised s u o 0x0206 (le 1 t.val ++ le 1 q.toNat) ∧ onlyOff s u o ∧
            262144 ≤ (Sparse.get [] (u.off o).cfgTx t.val : List W64).length))) ∧
    (s.owns o = false → exec (.readbackReplyRx o t w) s = .next s ∧ exec (.downlinkNakRx o t q) s = .next s)

/-- LATE_WINDOW_EXPIRY and MERGE_DEADLINE_EXPIRY (R173, R174): when the late window of a merged round has passed, every
district round whose close frame has come is ready; at the deadline every other one is given up as well, without a close, and
each counts. Before their ticks, and at an office that does not own, nothing changes. MERGE_START and MERGE_COMPLETE (R176,
R179, R180, R202): the lowest free unit takes the district round that became ready first, for two ticks a letter, and it is
taken once, and none during a merge pause (R202); when its turn has come its envelopes go to compression in order, else they
wait for it. With no free unit or none ready nothing starts, and nothing completes before its time. -/
def Obligations.MergeWindowsAndUnits : Prop :=
  (∀ (s : State) (o : OfficeId) (r : Round),
    let d := s.off o
    let row := fun (x : Office) (db : Nat) => x.round (roundKey r.toNat db)
    let waits := fun db => (row d db).readyAt.isNone && !d.begun (roundKey r.toNat db)
    let missing := (List.range 256).filter fun db => waits db && (row d db).close.isNone
    (s.owns o = true → d.merges r.toNat = true →
      tickLe (s.closingTick o r.toNat + s.rd o F.SORT_MG_LATEWIN_LATE_WIN) d.count.toNat = true →
      gives (.lateWindowExpiry o r) s fun u =>
        (∀ db, db < 256 → row (u.off o) db =
          if waits db && (row d db).close.isSome then { row d db with readyAt := some s.now, noClose := false } else row d db) ∧
        (u.off o).regs = d.regs ∧ (u.off o).log = d.log ∧ onlyOff s u o ∧ u.out = s.out) ∧
    (s.owns o = true → d.merges r.toNat = true →
      tickLe (s.closingTick o r.toNat + s.rd o F.SORT_MG_DEADLINE_DEADLINE) d.count.toNat = true →
      gives (.mergeDeadlineExpiry o r) s fun u =>
        (∀ db, db < 256 → row (u.off o) db =
          if db ∈ missing then { row d db with readyAt := some s.now, noClose := true } else row d db) ∧
        (missing ≠ [] → u.rd o F.SORT_MG_CNT_NOCLOSE_COUNT =
          min (s.rd o F.SORT_MG_CNT_NOCLOSE_COUNT + missing.length) 0xFFFFFFFF) ∧ onlyOff s u o ∧ u.out = s.out) ∧
    ((s.owns o = false ∨ d.merges r.toNat = false) →
      exec (.lateWindowExpiry o r) s = .next s ∧ exec (.mergeDeadlineExpiry o r) s = .next s) ∧
    (tickLt d.count.toNat (s.closingTick o r.toNat + s.rd o F.SORT_MG_LATEWIN_LATE_WIN) = true →
      exec (.lateWindowExpiry o r) s = .next s) ∧
    (tickLt d.count.toNat (s.closingTick o r.toNat + s.rd o F.SORT_MG_DEADLINE_DEADLINE) = true →
      exec (.mergeDeadlineExpiry o r) s = .next s)) ∧
  (∀ (s : State) (o : OfficeId) (bad : List Nat) (n : Fin 8) (u0 k : Nat) (m : MergeUnit) (x : Nat),
    let d := s.off o
    (s.owns o = true → d.inReset = false → d.mrg.pauseUntil ≤ s.now → d.freeUnit = some u0 → d.nextReady = some k →
      gives (.mergeStart o bad) s fun u =>
        (∃ j, Sparse.get none (u.off o).mrg.units u0 = some j ∧ j.key = k ∧ j.startAt = s.now ∧
          ((d.round k).fresh d.count = 0 → j.letters = (d.round k).letters.length)) ∧
        ((u.off o).round k).begun = true ∧ ((u.off o).round k).letters = [] ∧
        (∀ y, y ≠ k → (u.off o).round y = d.round y) ∧ onlyOff s u o) ∧
    ((s.owns o = false ∨ s.now < d.mrg.pauseUntil ∨ d.freeUnit = none ∨ d.nextReady = none) → exec (.mergeStart o bad) s = .next s) ∧
    (Sparse.get none d.mrg.units n.val = some m → s.now < m.startAt + 2 * m.letters →
      exec (.mergeComplete o n) s = .next s) ∧
    (Sparse.get none d.mrg.units n.val = none → exec (.mergeComplete o n) s = .next s) ∧
    (Sparse.get none d.mrg.units n.val = some m → m.startAt + 2 * m.letters ≤ s.now →
      (m.key ≠ d.nextKey → Sparse.get none d.mrg.held d.nextKey = none →
        gives (.mergeComplete o n) s fun u =>
          Sparse.get none (u.off o).mrg.units n.val = none ∧ Sparse.get none (u.off o).mrg.held m.key = some m.envs ∧
            (u.off o).nextKey = d.nextKey ∧ (u.off o).cmp = d.cmp ∧ onlyOff s u o ∧ u.out = s.out) ∧
      (m.key = d.nextKey → d.mrg.held = [] → m.key % 256 ≠ 255 → d.spans = [(x, none)] →
        gives (.mergeComplete o n) s fun u =>
          Sparse.get none (u.off o).mrg.units n.val = none ∧ (u.off o).nextKey = (m.key + 1) % 2 ^ 56 ∧ (u.off o).mrg.held = [] ∧
            (u.off o).cmp.queue.map (·.body) = d.cmp.queue.map (·.body) ++ m.envs.map (fun e => CmpBody.env e) ∧
            (u.off o).cmp.nextOrd = d.cmp.nextOrd + m.envs.length ∧ onlyOff s u o ∧ u.out = s.out)))

/-- HOT_SWEEP_VISIT (R209 to R211): the owner's sweep goes to the next channel; where the stored window is the one before the
current one, was hot, and the cell is not masked, its strikes go up by one and its count restarts, and at the limit the cell
is masked, counted and noticed unless bit `NOHOT` of its context, read free of error, forbids it. A stored window that is the
current one stays. CONTEXT_CLEAR_START, CONTEXT_CLEAR_DONE and CONTEXT_CHANGE_APPLY (R202, R203, R216, R228, R631): a start
queues the clear and shows `BUSY`; one while `BUSY` or with `FIRST` above `LAST` is refused by 0x0304 and queues nothing;
while a round is half merged nothing is applied; between two rounds the first change that waits is applied and leaves the
queue, a change of settings sets `SORT_CAL_EPOCH` and pauses merging for the time of its writes at four words in two ticks,
and a clear leaves word 2 of each of its channels at the current window alone and `BUSY` at 0. -/
def Obligations.HotSweepAndContextChanges : Prop :=
  (∀ (s : State) (o : OfficeId),
    let d := s.off o
    let ch := d.mrg.sweep
    let w := s.currentWindow o
    let x := d.arrData 0 (ch * 4 + 2)
    let k := min 15 (bitsOf x 4 4 + 1)
    let win := bitsOf x 8 12
    let masks : Prop := s.rd o F.SORT_HOT_STRIKE_LIM ≤ k ∧ bitsOf (d.arrRead 0 (ch * 4)) 35 1 = 0
    (s.owns o = true → d.inReset = false → d.arrSyn 0 (ch * 4 + 2) = 0 →
      (bitsOf x 0 4 = w % 16 →
        gives (.hotSweepVisit o) s fun u =>
          (u.off o).mrg.sweep = (ch + 1) % 2 ^ 20 ∧ (u.off o).arr = d.arr ∧ (u.off o).am = d.am ∧ (u.off o).regs = d.regs ∧
            onlyOff s u o ∧ u.out = s.out) ∧
      (bitsOf x 0 4 = (w + 15) % 16 → s.rd o F.SORT_HOT_HOT_LIM ≠ 0 → s.rd o F.SORT_HOT_HOT_LIM ≤ win → Sparse.get 0 d.am ch = 0 →
        d.arrSyn 0 (ch * 4) = 0 →
        gives (.hotSweepVisit o) s fun u =>
          let y := (u.off o).arrData 0 (ch * 4 + 2)
          (u.off o).mrg.sweep = (ch + 1) % 2 ^ 20 ∧ bitsOf y 0 4 = w % 16 ∧ bitsOf y 4 4 = k ∧ bitsOf y 8 12 = 0 ∧
            (masks → Sparse.get 0 (u.off o).am ch = 1 ∧ raised s u o 0x0320 (le 3 ch ++ le 2 win) ∧
              u.rd o F.SORT_HOT_STAT_AUTOMASKED = (s.rd o F.SORT_HOT_STAT_AUTOMASKED + 1) % 2 ^ 21) ∧
            (¬ masks → (u.off o).am = d.am ∧ (u.off o).log = d.log) ∧ onlyOff s u o)) ∧
    (s.owns o = false → exec (.hotSweepVisit o) s = .next s)) ∧
  (∀ (s : State) (o : OfficeId) (v : W32) (f l : Nat) (js : List CtxJob) (seq : W32) (id : W64) (delta : Bool) (items : List Item),
    let d := s.off o
    let first := v.toNat % 2 ^ 20
    let last := s.rd o F.SORT_CTX_CLR_LAST_LAST
    (s.takesWrites o = true → s.owns o = true → v.getLsbD 31 = true →
      (s.rd o F.SORT_CTX_CLR_BUSY = 0 → first ≤ last →
        gives (.contextClearStart o v) s fun u =>
          (u.off o).mrg.jobs = d.mrg.jobs ++ [.clear first last] ∧ u.rd o F.SORT_CTX_CLR_BUSY = 1 ∧
            u.rd o F.SORT_CTX_CLR_FIRST = first ∧ u.rd o F.SORT_CTX_CLR_LAST_LAST = last ∧ onlyOff s u o ∧ u.out = s.out) ∧
      (s.rd o F.SORT_CTX_CLR_BUSY = 0 → last < first →
        gives (.contextClearStart o v) s fun u =>
          raised s u o 0x0304 (le 4 v.toNat ++ [1]) ∧ (u.off o).mrg = d.mrg ∧ onlyOff s u o ∧ regsKept s u o []) ∧
      (s.rd o F.SORT_CTX_CLR_BUSY = 1 →
        gives (.contextClearStart o v) s fun u =>
          raised s u o 0x0304 (le 4 v.toNat ++ [0]) ∧ (u.off o).mrg = d.mrg ∧ onlyOff s u o ∧ regsKept s u o [])) ∧
    (d.betweenRounds = false → exec (.contextClearDone o) s = .next s ∧ exec (.contextChangeApply o) s = .next s) ∧
    (d.inReset = false → d.betweenRounds = true →
      (d.mrg.jobs = [.clear f l] → d.spareOf = [] →
        gives (.contextClearDone o) s fun u =>
          (u.off o).mrg.jobs = [] ∧ u.rd o F.SORT_CTX_CLR_BUSY = 0 ∧
            ∀ ch, f ≤ ch → ch ≤ l → (u.off o).arrData 0 (ch * 4 + 2) = s.currentWindow o % 16) ∧
      (d.mrg.jobs = .campaign :: js →
        gives (.contextChangeApply o) s fun u =>
          (u.off o).mrg.jobs = js ∧ u.rd o F.EMT_CAL_STAT_FLASHES = 0 ∧ u.rd o F.EMT_CAL_XN_XN = 0 ∧
            u.rd o F.EMT_CAL_XSUM_XSUM = 0 ∧ (u.off o).cal.walkN = [] ∧ (u.off o).cal.offsets = []) ∧
      (d.mrg.jobs = .items seq id delta items :: js →
        gives (.contextChangeApply o) s fun u => (u.off o).mrg.jobs = js ∧ u.rd o F.SORT_CAL_EPOCH_EPOCH = seq.toNat ∧
          (u.off o).mrg.pauseUntil = s.now + 2 * ((writtenWords items + 3) / 4))))

/-- PIGEONHOLE_ENABLE and PIGEONHOLE_DISABLE (R445, R450 to R452): an enable of a disabled pigeonhole whose rings pass the checks
leaves it STARVED with indices 0 and no buffer; one that fails a check raises 0x0805 with the cause, `EN` reads 0 and it stays
disabled; a disable without an open mailbag and held buffers is complete at once, and with a buffer held and no free receipt slot
it waits. Other pigeonholes stay. -/
def Obligations.PigeonholesEnableAndDisable : Prop :=
  ∀ (s : State) (o : OfficeId) (ph : BitVec 12) (v : W32) (c : Nat) (f : Buffer) (fs : List Buffer),
    let p := ph.toNat
    let x := (s.off o).ph p
    let fault := (s.hostWrite o (F.PH_CFG_EN.addr p 0) v.toNat).1.enableFault o p
    s.takesWrites o = true →
    (v.getLsbD 31 = true → s.rd o F.PH_CFG_EN p = 0 → s.phState o p = phDisabled →
      (fault = none → gives (.pigeonholeEnable o ph v) s fun u =>
        u.phState o p = phStarved ∧ u.rd o F.PH_DCONS_INDEX p = 0 ∧ u.rd o F.PH_RPROD_INDEX p = 0 ∧
          ((u.off o).ph p).held = [] ∧ ((u.off o).ph p).bag = none ∧ ((u.off o).ph p).fetching = false ∧
          ((u.off o).ph p).dprod = 0 ∧ ((u.off o).ph p).rcons = 0 ∧ onlyPh s u o p ∧ u.out = s.out) ∧
      (fault = some c → gives (.pigeonholeEnable o ph v) s fun u =>
        raised s u o 0x0805 (le 2 p ++ le 1 c) ∧ u.rd o F.PH_CFG_EN p = 0 ∧ (u.off o).phs = (s.off o).phs ∧
          u.phState o p = phDisabled ∧ onlyOff s u o ∧ u.out = s.out)) ∧
    (s.phState o p ≠ phDisabled → x.bag = none → x.held = [] →
      gives (.pigeonholeDisable o ph v) s fun u =>
        u.phState o p = phDisabled ∧ u.rd o F.PH_CFG_EN p = 0 ∧ ((u.off o).ph p).disabling = false ∧ onlyPh s u o p ∧
          u.out = s.out) ∧
    (s.phState o p ≠ phDisabled → x.held = f :: fs → s.receiptRoom o p = 0 →
      gives (.pigeonholeDisable o ph v) s fun u =>
        u.phState o p = s.phState o p ∧ u.rd o F.PH_CFG_EN p = 0 ∧ ((u.off o).ph p).disabling = true ∧
          ((u.off o).ph p).held = x.held ∧ onlyPh s u o p ∧ u.out = s.out)

/-- DPROD, RCONS, RESUME and FLUSH (R446, R449, R456, R464): an index within its ring is taken, one outside stalls the pigeonhole
with cause 8 or 9 and notice 0x0804; RESUME takes a stalled pigeonhole on by the buffers it holds; FLUSH closes the open mailbag.
The doorbells of a disabled pigeonhole do nothing. -/
def Obligations.DoorbellsMoveIndices : Prop :=
  ∀ (s : State) (o : OfficeId) (ph : BitVec 12) (v : W32) (b : Mailbag) (f : Buffer) (fs : List Buffer),
    let p := ph.toNat
    let x := (s.off o).ph p
    let dcons := s.rd o F.PH_DCONS_INDEX p
    let stalled := fun (u : State) (cause : Nat) => u.phState o p = phStalled ∧ u.rd o F.PH_STAT_CAUSE p = cause ∧
      raised s u o 0x0804 (le 2 p ++ le 4 dcons ++ le 1 cause) ∧ (u.off o).phs = (s.off o).phs ∧ onlyOff s u o ∧ u.out = s.out
    (s.doorbell o p = false → exec (.dprod o ph v) s = .next s ∧ exec (.rcons o ph v) s = .next s ∧
      exec (.resume o ph v) s = .next s ∧ exec (.flush o ph v) s = .next s) ∧
    (s.doorbell o p = true → s.phState o p ≠ phStalled →
      ((v - BitVec.ofNat 32 dcons).toNat ≤ 2 ^ s.rd o F.PH_CFG_DR_LOG2 p →
        gives (.dprod o ph v) s fun u => ((u.off o).ph p).dprod = v ∧ u.phState o p = s.phState o p ∧ onlyPh s u o p ∧ u.out = s.out) ∧
      (2 ^ s.rd o F.PH_CFG_DR_LOG2 p < (v - BitVec.ofNat 32 dcons).toNat → gives (.dprod o ph v) s fun u => stalled u 8) ∧
      (later v (BitVec.ofNat 32 (s.rd o F.PH_RPROD_INDEX p)) = true → gives (.rcons o ph v) s fun u => stalled u 9) ∧
      (later v (BitVec.ofNat 32 (s.rd o F.PH_RPROD_INDEX p)) = false → x.disabling = false →
        gives (.rcons o ph v) s fun u => ((u.off o).ph p).rcons = v ∧ u.phState o p = s.phState o p ∧ onlyPh s u o p ∧ u.out = s.out)) ∧
    (s.doorbell o p = true → v.toNat % 4 = 1 → s.phState o p = phStalled → s.rd o F.PH_STAT_CAUSE p < 8 →
      gives (.resume o ph v) s fun u =>
        u.phState o p = (if x.held = [] then phStarved else phReady) ∧ u.offices = (s.setPhState o p (u.phState o p)).offices ∧
          onlyOff s u o ∧ u.out = s.out) ∧
    (s.doorbell o p = true → v.toNat % 4 = 2 → x.bag = some b → x.held = f :: fs → s.portReady o = true → 1 ≤ s.receiptRoom o p →
      gives (.flush o ph v) s fun u => bagClosed s u o p b f)

/-- DESCRIPTOR_FETCH and DESCRIPTOR_FETCH_COMPLETE (R448, R450): the office fetches the next posted descriptor while it holds fewer
than two buffers; a good one is held, the index goes on and the pigeonhole is READY; a bad one stalls it with the first cause that
holds, and its index stays. -/
def Obligations.DescriptorsFetched : Prop :=
  ∀ (s : State) (o : OfficeId) (ph : BitVec 12) (c : Completion) (desc : BitVec 256) (cause : Nat),
    let p := ph.toNat
    let x := (s.off o).ph p
    let d := s.rd o F.PH_DCONS_INDEX p
    let may := s.portReady o && (s.phState o p = phStarved || s.phState o p = phReady) && !x.fetching && !x.disabling &&
      x.held.length < 2 && d ≠ x.dprod.toNat
    (may = true → gives (.descriptorFetch o ph) s fun u =>
      ((u.off o).ph p).fetching = true ∧ u.rd o F.PH_DCONS_INDEX p = d ∧ onlyPh s u o p ∧
        u.out = readsOf s o (s.rd o F.PH_DR_BASE_LO_BASE_L p + s.rd o F.PH_DR_BASE_HI_BASE_H p * 2 ^ 32 +
          32 * (d % 2 ^ s.rd o F.PH_CFG_DR_LOG2 p)) 32 ++ s.out) ∧
    (may = false → exec (.descriptorFetch o ph) s = .next s) ∧
    (x.fetching = false → exec (.descriptorFetchComplete o ph c desc) s = .next s) ∧
    (x.fetching = true → descriptorFault c desc.toNat d = none →
      gives (.descriptorFetchComplete o ph c desc) s fun u =>
        ((u.off o).ph p).held = x.held ++ [⟨desc.toNat % 2 ^ 64, desc.toNat / 2 ^ 64 % 2 ^ 32,
          desc.toNat / 2 ^ 96 % 2 ^ 16, desc.toNat / 2 ^ 128 % 2 ^ 64, 0⟩] ∧
          ((u.off o).ph p).fetching = false ∧ u.rd o F.PH_DCONS_INDEX p = (d + 1) % 2 ^ 32 ∧ u.phState o p = phReady ∧
          onlyPh s u o p ∧ u.out = s.out) ∧
    (x.fetching = true → descriptorFault c desc.toNat d = some cause →
      gives (.descriptorFetchComplete o ph c desc) s fun u =>
        ((u.off o).ph p).held = x.held ∧ ((u.off o).ph p).fetching = false ∧ u.rd o F.PH_DCONS_INDEX p = d ∧
          u.phState o p = phStalled ∧ u.rd o F.PH_STAT_CAUSE p = cause ∧
          u.rd o F.PH_RPROD_INDEX p = (s.rd o F.PH_RPROD_INDEX p + 1) % 2 ^ 32 ∧
          raised s u o 0x0804 (le 2 p ++ le 4 d ++ le 1 cause) ∧ onlyPh s u o p)

/-- RECORD_ADD, MAILBAG_IDLE_CLOSE, ENVELOPE_UNDELIVERABLE, NOTICE_DELIVER and SNAPSHOT_RECORD_EXPIRY (R32, R218, R298, R370, R453 to
R456, R463): the next record, once nothing goes before it at the port and it is not held back, goes behind the open mailbag's last or opens
one after the used part of the buffer; it stays where the port is not ready, and a live envelope that staging no longer holds whole
leaves unsent; the bytes of an order's record count; an idle mailbag closes; live records not taken when a later round's wait are counted and leave; the oldest
notice goes to pigeonhole 1; snapshot records older than 1 ms leave. -/
def Obligations.RecordsAndMailbags : Prop :=
  ∀ (s : State) (o : OfficeId) (ph : BitVec 12) (r r' : PhRecord) (b : Mailbag) (f : Buffer) (fs : List Buffer) (n : Notice)
    (ns : List Notice) (it : Staged),
    let p := ph.toNat
    let x := (s.off o).ph p
    let ready := fun q => s.portReady o = true ∧ s.mayDeliver o q = true ∧ s.phState o q = phReady ∧ 2 ≤ s.receiptRoom o q
    let note : PhRecord := { kind := 4, round := 0, bytes := n.bytes }
    let expired := fun (y : PhRecord) => decide (y.kind = 3) && decide (y.at_ + ticksOfUs 1000 ≤ s.now)
    let colBytes := fun (u : State) => u.rdPair o F.COL_BYTES_LO_COUNT_L F.COL_BYTES_HI_COUNT_H
    let turn := s.heldBack o r = false ∧ s.noticeReady o = false ∧ s.recordBefore o r = false
    (x.queue = [r] → turn → ((s.off o).stagedOf r = none ∨ (s.off o).stagedOf r = some it ∧ s.useStaged o it = (s, true)) →
        ready p → x.held = f :: fs →
      (x.bag = none → fitsRest f r = true → gives (.recordAdd o ph) s fun u =>
        ((u.off o).ph p).queue = [] ∧ (∃ g, ((u.off o).ph p).bag = some g ∧ g.kind = r.kind ∧ g.offset = f.used ∧
          g.size = 32 + r.size ∧ g.records = 1) ∧ onlyPh s u o p ∧
          (r.order = true → colBytes u = min (colBytes s + r.bytes.length) (2 ^ 64 - 1)) ∧
          u.out = writesOf s o (f.addr + f.used + 32) (r.bytes ++ List.replicate (r.size - r.bytes.length) 0) ++ s.out) ∧
      (x.bag = some b → s.joinsBag o p b f r = true → gives (.recordAdd o ph) s fun u =>
        ((u.off o).ph p).queue = [] ∧ (∃ g, ((u.off o).ph p).bag = some g ∧ g.kind = b.kind ∧ g.offset = b.offset ∧
          g.size = b.size + r.size ∧ g.records = b.records + 1) ∧ onlyPh s u o p ∧
          u.out = writesOf s o (f.addr + b.offset + b.size) (r.bytes ++ List.replicate (r.size - r.bytes.length) 0) ++ s.out)) ∧
    (x.queue = [r] → turn → (s.off o).stagedOf r = some it → it.lost = true → s.canHold o p r = true →
      gives (.recordAdd o ph) s fun u => ((u.off o).ph p).queue = [] ∧ ((u.off o).ph p).bag = x.bag ∧ onlyPh s u o p ∧ u.out = s.out) ∧
    (x.queue = [r] → (s.heldBack o r = true ∨ s.noticeReady o = true ∨ s.recordBefore o r = true) →
      exec (.recordAdd o ph) s = .next s) ∧
    ((x.queue = [] ∨ s.portReady o = false) → exec (.recordAdd o ph) s = .next s) ∧
    (x.bag = some b → x.held = f :: fs → s.portReady o = true →
      (s.rd o F.PH_TMO_IDLE_US p ≠ 0 → b.lastAt + ticksOfUs (s.rd o F.PH_TMO_IDLE_US p) ≤ s.now →
        gives (.mailbagIdleClose o ph) s fun u => bagClosed s u o p b f) ∧
      (s.rd o F.PH_TMO_IDLE_US p = 0 → exec (.mailbagIdleClose o ph) s = .next s)) ∧
    (x.queue = [r, r'] → r.live = true → r'.live = true → r'.round ≠ r.round → r.parcel = false → r.dlo = false → 2 ≤ p →
      s.canTake o p r = false →
      gives (.envelopeUndeliverable o ph) s fun u =>
        ((u.off o).ph p).queue = [r'] ∧ ((u.off o).ph p).gap = true ∧ onlyPh s u o p ∧ u.out = s.out ∧
          u.rd o F.SORT_RT_CNT_UNDELIV_COUNT = min (s.rd o F.SORT_RT_CNT_UNDELIV_COUNT + 1) 0xFFFFFFFF ∧
          u.rd o F.PH_CNT_UNDELIV_COUNT p = min (s.rd o F.PH_CNT_UNDELIV_COUNT p + 1) 0xFFFFFFFF) ∧
    ((s.off o).held = n :: ns → s.canTake o 1 note = true → ((s.off o).ph 1).bag = none → ((s.off o).ph 1).held = f :: fs →
      fitsRest f note = true → (s.off o).noticesLost = 0 →
      gives (.noticeDeliver o) s fun u =>
        (u.off o).held = ns ∧ (u.off o).sentNotices = (s.off o).sentNotices ++ [n] ∧ u.rd o F.PH_NOTICE_STAT_HELD = ns.length % 2 ^ 11 ∧
          onlyPh s u o 1 ∧ u.out = writesOf s o (f.addr + f.used + 32) (n.bytes ++ List.replicate (note.size - n.bytes.length) 0) ++ s.out) ∧
    ((s.off o).held = [] → exec (.noticeDeliver o) s = .next s) ∧
    (gives (.snapshotRecordExpiry o) s fun u =>
      (∀ q, ((u.off o).ph q).queue = ((s.off o).ph q).queue.filter fun y => !expired y) ∧
        (∀ q, ((u.off o).ph q).held = ((s.off o).ph q).held ∧ ((u.off o).ph q).bag = ((s.off o).ph q).bag) ∧ onlyOff s u o ∧ u.out = s.out)

/-- IRQ_COALESCE_TIMEOUT and MSIX_UNMASK (R462): `COAL_US` after the first receipt not signalled the vector is signalled, by one
message, or by its pending bit while it is masked or MSI-X is disabled; clearing the mask of a pending vector sends one message and
clears the bit, and of one not pending none. -/
def Obligations.InterruptsCoalesce : Prop :=
  ∀ (s : State) (o : OfficeId) (ph : BitVec 12) (vec : BitVec 11),
    let p := ph.toNat
    let x := (s.off o).ph p
    let us := s.rd o F.PH_IRQ_COAL_US p
    let message := fun k => writesOf s o (s.rd o F.MSIX_ADDR_LO_A k + s.rd o F.MSIX_ADDR_HI_A k * 2 ^ 32)
      (le 4 (s.rd o F.MSIX_DATA_D k))
    let k := s.rd o F.PH_CFG_VECTOR p
    let v := vec.toNat
    (x.unsig ≠ 0 → us ≠ 0 → x.unsigAt + ticksOfUs us ≤ s.now →
      gives (.irqCoalesceTimeout o ph) s fun u =>
        ((u.off o).ph p).unsig = 0 ∧ onlyPh s u o p ∧
          (((s.off o).msixOn = true ∧ s.rd o F.MSIX_VCTRL_MASK k = 0) → u.out = message k ++ s.out ∧
            u.rd o F.MSIX_PBA_P (k / 32) = s.rd o F.MSIX_PBA_P (k / 32)) ∧
          (((s.off o).msixOn = false ∨ s.rd o F.MSIX_VCTRL_MASK k ≠ 0) → u.out = s.out ∧
            bitsOf (u.rd o F.MSIX_PBA_P (k / 32)) (k % 32) 1 = 1)) ∧
    ((x.unsig = 0 ∨ us = 0 ∨ s.now < x.unsigAt + ticksOfUs us) → exec (.irqCoalesceTimeout o ph) s = .next s) ∧
    (s.takesWrites o = true →
      gives (.msixUnmask o vec) s fun u =>
        u.rd o F.MSIX_VCTRL_MASK v = 0 ∧ onlyOff s u o ∧ (u.off o).phs = (s.off o).phs ∧
          ((s.off o).msixOn = true → bitsOf (s.rd o F.MSIX_PBA_P (v / 32)) (v % 32) 1 = 1 →
            u.out = message v ++ s.out ∧ bitsOf (u.rd o F.MSIX_PBA_P (v / 32)) (v % 32) 1 = 0) ∧
          (bitsOf (s.rd o F.MSIX_PBA_P (v / 32)) (v % 32) 1 = 0 → u.out = s.out)) ∧
    (s.takesWrites o = false → exec (.msixUnmask o vec) s = .next s)

/-- COMPRESSION_ENGINE_TAKE and ENVELOPE_CODED (R235, R238, R239, R252 to R254): with no round dropped and every round decided, a
free engine in service takes the next item it may take out of the queue and no other; when it has finished, the item goes on in
compressed form where the verifier finds its input in the body again and the body became shorter, counted as such and as a key one, else
in plain form with the history as before; a difference, found by the verifier or by a fault of the engine or the verifier, counts, sends
it plain, and makes the next envelope of the stream a key envelope. -/
def Obligations.CompressionEnginesTakeAndRelease : Prop :=
  ∀ (s : State) (o : OfficeId) (g : Fin 16) (x : CmpItem) (j : EngineJob) (b : Bool),
    let c := (s.off o).cmp
    let released := fun (u : State) (compressed : Bool) (bytes : List Byte) (h : History) =>
      Sparse.get none (u.off o).cmp.engines g.val = none ∧
        (u.off o).cmp.coded = c.coded ++ [{ ord := j.item.ord, round := j.item.round, body := j.item.body, compressed := compressed, bytes := bytes }] ∧
        (u.off o).cmp.history j.stream = h ∧ (∀ k, k ≠ j.stream → (u.off o).cmp.history k = c.history k) ∧
        (u.off o).cmp.queue = c.queue ∧ onlyOff s u o ∧ u.out = s.out
    let plain := j.item.body.plainRecord (s.moduleId o)
    let verified := j.item.body.verifies (s.off o).statics j.saved j.body
    let up := fun (u : State) (f : Fld) => u.rd o f = min (s.rd o f + 1) 0xFFFFFFFF
    (Sparse.get none c.engines g.val = none → bitsOf c.outEngines g.val 1 = 0 → c.nextFor g.val = some x →
      (c.plans.all fun p => !p.dropped) = true → s.decideUpTo o x.round = s → (s.off o).undecided x.round = false →
      gives (.compressionEngineTake o g) s fun u =>
        (∃ k, Sparse.get none (u.off o).cmp.engines g.val = some k ∧ k.item = x ∧ k.stream = x.body.stream ∧
          (c.keyDue x.body.stream x.round = true → k.key = true)) ∧
        (u.off o).cmp.queue = c.queue.filter (fun y => y.ord ≠ x.ord) ∧ (u.off o).cmp.coded = c.coded ∧
        (∀ e, e ≠ g.val → Sparse.get none (u.off o).cmp.engines e = Sparse.get none c.engines e) ∧ onlyOff s u o ∧ u.out = s.out) ∧
    (Sparse.get none c.engines g.val = none → exec (.envelopeCoded o g b) s = .next s) ∧
    (Sparse.get none c.engines g.val = some j → c.plans ≠ [] → (c.plans.all fun p => !p.dropped) = true → j.forcedPlain = false →
      (verified = true → j.body.length < j.item.body.plainLen → gives (.envelopeCoded o g false) s fun u =>
        released u true (j.item.body.record (s.moduleId o) true j.body) j.after ∧ up u F.CMP_CNT_COMP_COUNT ∧
          (j.key = true → up u F.CMP_CNT_KEY_COUNT)) ∧
      (verified = true → j.item.body.plainLen ≤ j.body.length → gives (.envelopeCoded o g false) s fun u =>
        released u false plain j.saved ∧ up u F.CMP_CNT_PLAIN_COUNT) ∧
      ((b = true ∨ verified = false) → gives (.envelopeCoded o g b) s fun u =>
        released u false plain { j.saved with keypend := true } ∧ up u F.CMP_CNT_VFAIL_COUNT))

/-- SUM_MASK_LOW, SUM_MASK_HIGH, SUM_COEFFICIENTS, SUM_FILTER_GAIN, SUM_TRIM, SUM_APPLY and TILE_COMMAND_REFUSED (R18, R328 to
R330): a command of the office that the tile's vote names changes its own part of the shadow set and nothing else, the active
set stays until a round boundary; a reserved value or `CMD` only counts; a command of another office does nothing.
THROTTLE_OVERRIDE, THROTTLE_CLEAR and QUIET (R50, R52, R88, R647): an override replaces that of its district alone, a clear
ends all, each in the tick after; a district above 63 or a bit above 1 only counts; QUIET turns every DLL off, stops every SAR
and the sum stream and blanks every cell, and its end lets the cells accept edges again. A command of an office the vote does
not name does nothing. -/
def Obligations.SumSetThrottleAndQuiet : Prop :=
  (∀ (s : State) (t : Fin 4) (o : OfficeId) (v : W32) (w : W64) (k : Byte) (c0 c1 : W16) (flen fshift gain : Byte),
    let d := s.tile t
    let a := d.sumShadow
    let shadow := fun (e : Tile) (b : SumSet) => e = { d with sumShadow := b }
    let refused := fun (u : State) =>
      u.rd o F.SORT_LN_CNT_BADHDR_COUNT t.val = min (s.rd o F.SORT_LN_CNT_BADHDR_COUNT t.val + 1) 0xFFFFFFFF ∧ onlyOff s u o ∧
        u.out = s.out ∧ regsKept s u o [F.SORT_LN_CNT_BADHDR_COUNT.key t.val 0]
    let badPair := k.toNat % 2 = 1 ∨ 30 < k.toNat
    let badGain := flen = 0 ∨ 32 < flen.toNat ∨ 15 < fshift.toNat ∨ 2 < gain.toNat
    (d.vote = .office o → d.inReset = false →
      (onlyTile (.sumMaskLow t o v) s t fun e => shadow e { a with mask := e.sumShadow.mask } ∧
        e.sumShadow.mask.toNat % 2 ^ 32 = v.toNat ∧ e.sumShadow.mask.toNat / 2 ^ 32 = a.mask.toNat / 2 ^ 32) ∧
      (onlyTile (.sumMaskHigh t o v) s t fun e => shadow e { a with mask := e.sumShadow.mask } ∧
        e.sumShadow.mask.toNat / 2 ^ 32 = v.toNat ∧ e.sumShadow.mask.toNat % 2 ^ 32 = a.mask.toNat % 2 ^ 32) ∧
      (¬ badPair → onlyTile (.sumCoefficients t o k c0 c1) s t fun e => shadow e { a with coef := e.sumShadow.coef } ∧
        Sparse.get 0 e.sumShadow.coef k.toNat = c0.toNat ∧ Sparse.get 0 e.sumShadow.coef (k.toNat + 1) = c1.toNat ∧
          ∀ x, x ≠ k.toNat → x ≠ k.toNat + 1 → Sparse.get 0 e.sumShadow.coef x = Sparse.get 0 a.coef x) ∧
      (badPair → gives (.sumCoefficients t o k c0 c1) s refused) ∧
      (¬ badGain → onlyTile (.sumFilterGain t o flen fshift gain) s t fun e =>
        shadow e { a with flen := flen, fshift := fshift, gain := gain }) ∧
      (badGain → gives (.sumFilterGain t o flen fshift gain) s refused) ∧
      (onlyTile (.sumTrim t o v) s t fun e => shadow e { a with trim := v }) ∧
      (onlyTile (.sumApply t o) s t fun e => e = { d with sumApply := true }) ∧
      (type3Cmds.contains (w.toNat % 256) = false → gives (.tileCommandRefused t o w) s refused)) ∧
    (d.vote ≠ .office o →
      exec (.sumMaskLow t o v) s = .next s ∧ exec (.sumMaskHigh t o v) s = .next s ∧
        exec (.sumCoefficients t o k c0 c1) s = .next s ∧ exec (.sumFilterGain t o flen fshift gain) s = .next s ∧
        exec (.sumTrim t o v) s = .next s ∧ exec (.sumApply t o) s = .next s ∧ exec (.tileCommandRefused t o w) s = .next s)) ∧
  (∀ (s : State) (t : Fin 4) (o : OfficeId) (x b : Byte),
    let d := s.tile t
    let inForce := fun (e : Tile) (P : Tile → Prop) => d.orders = [] → ∀ now, let a := e.applyOrders now
      P a ∧ a.cellCfg = d.cellCfg ∧ a.clusterCfg = d.clusterCfg ∧ a.orders = [] ∧ ∀ c, (a.cell c).phase = (d.cell c).phase
    (d.vote = .office o → d.inReset = false →
      (x.toNat ≤ 63 → b.toNat ≤ 3 → onlyTile (.throttleOverride t o x b) s t fun e => e = { d with orders := e.orders } ∧
        inForce e fun a => a.throttleOf x.toNat = b.toNat ∧ ∀ k, k ≠ x.toNat → a.throttleOf k = d.throttleOf k) ∧
      ((63 < x.toNat ∨ 3 < b.toNat) → gives (.throttleOverride t o x b) s fun u =>
        u.tiles = s.tiles ∧ u.rd o F.SORT_LN_CNT_BADHDR_COUNT t.val =
          min (s.rd o F.SORT_LN_CNT_BADHDR_COUNT t.val + 1) 0xFFFFFFFF) ∧
      (onlyTile (.throttleClear t o) s t fun e => e = { d with orders := e.orders } ∧ inForce e fun a => ∀ k, a.throttleOf k = 0) ∧
      (d.quiet = false → gives (.quiet t o true) s fun u =>
        let e := u.tile t
        u.pending = s.pending ∧ (∀ x, x ≠ t → u.tile x = s.tile x) ∧ e.quiet = true ∧ e.written = 0 ∧
          (∀ c, (e.cell c).phase = (d.cell c).phase) ∧ (∀ cl, (e.cluster cl).dll = .off ∧ (e.cluster cl).conv = none) ∧ ∀ now c, e.accepts now c = false) ∧
      (d.quiet = true → onlyTile (.quiet t o false) s t fun e =>
        e.quiet = false ∧ e.conv = [] ∧ e.liveFrom = d.count.toNat + 96 ∧ e.cells = d.cells) ∧
      (onlyTile (.quiet t o d.quiet) s t fun e => e = d)) ∧
    (d.vote ≠ .office o → exec (.throttleOverride t o x b) s = .next s ∧ exec (.throttleClear t o) s = .next s ∧
      exec (.quiet t o true) s = .next s ∧ exec (.quiet t o false) s = .next s))

/-- CAPTURE_COMMAND, CAPTURE_FREEZE, CAPTURE_RESUME and DECIMATION_CHANGE (R331, R334 to R336, R338): a command starts a capture
that begins at the sample asked for, held as its tick plus 65,536, or lengthens one of the same tag that has not frozen, and never shortens it; the memory
freezes 32 ticks after its last tick and the words go out in frames of 64; it resumes empty but for the sample of 32 ticks before; the decimation follows the lanes at a
multiple of 256 ticks. -/
def Obligations.CapturesAndDecimation : Prop :=
  ∀ (s : State) (t : Fin 4) (o : OfficeId) (tag block : Byte) (start lenm1 : W16) (c : Capture),
    let d := s.tile t
    let w := d.count.toNat - 32
    let lanes := popcount 3 d.sumLanes.toNat
    (d.vote = .office o → d.inReset = false →
      (d.capture = none → onlyTile (.captureCommand t o tag start lenm1 block) s t fun e =>
        ∃ x, e = { d with capture := some x } ∧ x.tag = tag ∧ x.lenm1 = lenm1 ∧ x.frozen = false ∧ w < x.startTick ∧
          x.startTick ≤ w + 65536 ∧ x.startTick % 65536 = start.toNat ∧ x.endTick = max w (x.startTick + lenm1.toNat - 65536)) ∧
      (d.capture = some c → c.frozen = false → c.tag = tag → c.lenm1.toNat < lenm1.toNat →
        onlyTile (.captureCommand t o tag start lenm1 block) s t fun e =>
          e = { d with capture := some { c with lenm1 := lenm1, endTick := c.startTick + lenm1.toNat - 65536 } }) ∧
      (d.capture = some c → (c.frozen = true ∨ c.tag ≠ tag ∨ lenm1.toNat ≤ c.lenm1.toNat) →
        exec (.captureCommand t o tag start lenm1 block) s = .next s)) ∧
    (d.capture = some c → c.frozen = false → d.inReset = false →
      (c.endTick + 32 ≤ d.count.toNat → gives (.captureFreeze t) s fun u =>
        (u.tile t).capture = some { c with frozen := true } ∧ (u.tile t).preTrig = d.preTrig ∧ u.offices = s.offices ∧
          ∃ xs, u.out = xs ++ s.out ∧ (d.laneOwner = .office o → d.upSum.get o ≠ 0 →
            xs.length = (groupsOf 64 1024 (d.captureWords c)).length)) ∧
      (d.count.toNat < c.endTick + 32 → exec (.captureFreeze t) s = .next s)) ∧
    (d.capture = some c → c.frozen = true → (d.sumBusy.all fun e => e.2 ≤ 4 * s.now) = true →
      d.count.toNat % (64 * max 1 d.dec) = 0 →
      onlyTile (.captureResume t) s t fun e =>
        let r := { d with capture := none, written := 0, liveFrom := d.count.toNat }
        (d.count.toNat < 32 → e = r) ∧
        (32 ≤ d.count.toNat → e = { r with preTrig := e.preTrig, written := 1, inv := e.inv } ∧
          Sparse.get 0 e.preTrig (w % 65536) = d.sampleWord (d.conv.drop 32) w ∧
          ∀ k, k ≠ w % 65536 → Sparse.get 0 e.preTrig k = Sparse.get 0 d.preTrig k)) ∧
    (d.capture = none → exec (.captureResume t) s = .next s ∧ exec (.captureFreeze t) s = .next s) ∧
    (d.decPending = true → d.inReset = false →
      (d.count.toNat % 256 = 0 → gives (.decimationChange t) s fun u =>
        u.tile t = { d with dec := decOf lanes, decPending := false, liveFrom := d.count.toNat } ∧
          (∀ x, x ≠ t → u.tile x = s.tile x) ∧ u.out = s.out ∧
          (d.laneOwner = .office o → s.owns o = true → s.rd o F.TRG_STAT_DEC t.val ≠ decCode (decOf lanes) → u.rd o F.TRG_STAT_DEC t.val = decCode (decOf lanes) ∧
            raised s u o 0x0607 (le 1 t.val ++ le 1 lanes ++ le 1 (decOf lanes)))) ∧
      (d.count.toNat % 256 ≠ 0 → exec (.decimationChange t) s = .next s))

/-- STAGING_ENTRY and STAGING_DRAINED (R237, R239, R263, R295): with no round dropped, the store not about to close its sacks (R283), and
every round decided, the item whose turn it
is enters staging behind the others, leaves compression, and its bytes count; an envelope without a route is not delivered live. An
item that would overfill staging starts dropping with its round instead. Below 16 MiB dropping ends with a resume point, and live
deliveries that were held wait for a new round; above it nothing changes. -/
def Obligations.ItemsEnterStaging : Prop :=
  ∀ (s : State) (o : OfficeId) (x : CodedItem) (e : Envelope) (k : Nat),
    let d := s.off o
    let t := d.sto
    let a := t.stageAt x.bytes.length 1024 t.stageAddr
    ((d.cmp.plans.all fun p => !p.dropped) = true → s.settleStore o = s →
      (s.stageNext o = none → exec (.stagingEntry o) s = .next s) ∧
      (s.stageNext o = some x → s.decideUpTo o x.round = s → d.undecided x.round = false → t.dropFrom = none →
        (x.body = .env e → e.route = none → t.liveArmed = false → t.fill + x.bytes.length ≤ 32 * 2 ^ 20 →
          t.fill + x.bytes.length ≤ t.room →
          gives (.stagingEntry o) s fun u =>
            (u.off o).sto.staged = t.staged ++ [{ item := x, addr := a }] ∧
              (u.off o).cmp.queue = d.cmp.queue.filter (fun y => y.ord ≠ x.ord) ∧
              (u.off o).cmp.coded = d.cmp.coded.filter (fun y => y.ord ≠ x.ord) ∧ (u.off o).phs = d.phs ∧
              u.rdPair o F.CMP_OUT_LO_COUNT_L F.CMP_OUT_HI_COUNT_H =
                min (s.rdPair o F.CMP_OUT_LO_COUNT_L F.CMP_OUT_HI_COUNT_H + (x.bytes.length - 64)) (2 ^ 64 - 1) ∧
              onlyOff s u o ∧ u.out = s.out) ∧
        (t.room < t.fill + x.bytes.length →
          gives (.stagingEntry o) s fun u =>
            (u.off o).sto.dropFrom = some x.round.toNat ∧ u.rd o F.STO_STAT_DROPPING = 1 ∧
              u.rd o F.STO_CNT_DROPRND_COUNT = min (s.rd o F.STO_CNT_DROPRND_COUNT + 1) 0xFFFFFFFF ∧
              (∀ y ∈ (u.off o).sto.staged, y.item.round ≠ x.round) ∧
              (∃ l, (u.off o).sto.lossBuf.getLast? = some l ∧ l.cause = 2) ∧ onlyOff s u o))) ∧
    (16 * 2 ^ 20 ≤ t.fill → exec (.stagingDrained o) s = .next s) ∧
    (t.fill < 16 * 2 ^ 20 → t.dropFrom = none →
      gives (.stagingDrained o) s fun u =>
        (u.off o).sto = { t with replayHeld := false, liveArmed := t.liveArmed || decide (s.rd o F.STO_STAT_LIVE_HELD ≠ 0) } ∧
          (u.off o).regs = d.regs ∧ onlyOff s u o ∧ u.out = s.out) ∧
    (t.fill < 16 * 2 ^ 20 → t.dropFrom = some k →
      gives (.stagingDrained o) s fun u => (u.off o).sto.dropFrom = none ∧ (u.off o).sto.resume = true ∧ onlyOff s u o)

/-- ROUND_WRITE_START and LOSS_RECORD_APPEND (R271, R273, R274, R279, R286): a decided round that opens no sack and fits goes into the
sack being written, right behind the last run: a mark of 32 bytes and its records, padded to 16 bytes each; the sack accounts for it
and the run waits for its writes. A round that comes while the store is not ON is dropped with cause 5. Kept losses are appended to
the log where the owner can write. -/
def Obligations.RoundsAreWritten : Prop :=
  ∀ (s : State) (o : OfficeId) (p : RoundPlan) (k : Nat),
    let d := s.off o
    let t := d.sto
    let items := (t.staged.filter fun x => x.item.round = p.round).map (·.item)
    let fin := t.off + 32 + runLen items
    ((d.cmp.plans.all fun p => !p.dropped) = true → s.settleStore o = s →
      ((s.owns o = false ∨ d.readyRound = none) → exec (.roundWriteStart o) s = .next s) ∧
      (s.owns o = true → d.readyRound = some p →
        (s.storeOn o = false → s.rd o F.STO_STAT_STATE ≠ storeFormatting →
          gives (.roundWriteStart o) s fun u =>
            u.rd o F.STO_CNT_DROPRND_COUNT = min (s.rd o F.STO_CNT_DROPRND_COUNT + 1) 0xFFFFFFFF ∧
              (∀ q ∈ (u.off o).cmp.plans, q.round = p.round → q.dropped = true) ∧
              (∃ l, (u.off o).sto.lossBuf.getLast? = some l ∧ l.cause = 5) ∧ onlyOff s u o) ∧
        (s.storeOn o = true → t.dropFrom = none → s.decideUpTo o p.round = s → p.decided = true → p.opens = false →
          t.cur = some k → t.headed = true → t.uioLost = false → (∀ x ∈ t.staged, x.lost = false ∧ d.errWords 6 (x.addr / 8) ((x.addr + x.item.bytes.length + 7) / 8) = []) → fin ≤ s.sackLen o →
          gives (.roundWriteStart o) s fun u =>
            (u.off o).sto.off = fin ∧ (u.off o).sto.cur = some k ∧
              (u.off o).sto.writing = t.writing ++ [{ round := p.round.toNat, start := k, mark := t.off, sack := k, off := fin }] ∧
              ((u.off o).sto.sack k).rounds = (t.sack k).rounds + 1 ∧ ((u.off o).sto.sack k).last = p.round.toNat ∧
              ((u.off o).sto.sack k).used = fin ∧ ((u.off o).sto.sack k).spill = false ∧
              (∀ j, j ≠ k → (u.off o).sto.sack j = t.sack j) ∧
              (u.off o).cmp.plans = d.cmp.plans.filter (fun q => q.round ≠ p.round) ∧ onlyOff s u o))) ∧
    (s.storeOn o = true → s.owns o = true → s.storeReady o = true →
      gives (.lossRecordAppend o) s fun u =>
        (u.off o).sto.lossBuf = [] ∧ (u.off o).sto.logTail = t.logTail + t.lossBuf.length ∧ (u.off o).sto.sacks = t.sacks ∧
          onlyOff s u o) ∧
    ((s.storeOn o = false ∨ s.owns o = false ∨ s.storeReady o = false) → exec (.lossRecordAppend o) s = .next s)

/-- STORE_WRITE_DONE, STORE_WRITE_ERROR and STORE_STALL (R267, R269, R296, R299): on the UIO path a completion ends the write of its
region and address, on the ordered path a confirmation ends those it covers; either ends a stall. A write that fails is sent once more, and
its second failure marks the region failed and counts. Writes pending for `STALL_US` without one done are a stall, counted and
noticed. -/
def Obligations.StoreWritesEnd : Prop :=
  ∀ (s : State) (o : OfficeId) (g : Fin 10) (addr : W64) (b : Byte) (w : PendWrite) (n : Nat),
    let t := (s.off o).sto
    let io := t.ioOf g.val
    let failed := fun (u : State) => if g.val < 8 then u.rd o F.STO_RGN_CTL_FAILED g.val else u.rd o F.STO_IDX_CTL_FAILED (g.val - 8)
    let found := t.pend.find? fun w => w.region = g.val && w.addr = addr.toNat
    (s.storeReady o = true → t.pendOf g.val ≠ [] → (s.mode o).isData = true →
      (s.isOrdered o g.val = false → found = some w → gives (.storeWriteDone o ⟨g, addr⟩) s fun u =>
        (u.off o).sto.pend = donePend g.val addr.toNat t.pend ∧ (u.off o).sto.lastDoneAt = s.now ∧ u.rd o F.STO_STAT_STALLED = 0 ∧
          onlyOff s u o) ∧
      (s.isOrdered o g.val = true → io.cover = some n → io.due = false → gives (.storeWriteDone o ⟨g, addr⟩) s fun u =>
        (u.off o).sto.pend = dropPend g.val n t.pend ∧ ((u.off o).sto.ioOf g.val).cover = none ∧ u.rd o F.STO_STAT_STALLED = 0 ∧
          onlyOff s u o)) ∧
    ((t.pendOf g.val = [] ∨ s.isOrdered o g.val = false ∧ found = none) → exec (.storeWriteDone o ⟨g, addr⟩) s = .next s) ∧
    (s.storeReady o = false → exec (.storeWriteDone o ⟨g, addr⟩) s = .next s ∧ exec (.storeWriteError o g addr) s = .next s) ∧
    (s.storeReady o = true → s.isOrdered o g.val = false →
      (found = none → exec (.storeWriteError o g addr) s = .next s) ∧
      (found = some w → w.retried = false → gives (.storeWriteError o g addr) s fun u =>
        (u.off o).sto = { t with pend := markRetried g.val addr.toNat t.pend } ∧ (u.off o).regs = (s.off o).regs ∧
          u.out = writesOf s o w.addr w.bytes ++ s.out ∧ onlyOff s u o) ∧
      (found = some w → w.retried = true → failed s = 0 → s.rd o F.STO_STAT_STATE ≠ storeOff →
        gives (.storeWriteError o g addr) s fun u =>
          failed u = 1 ∧ u.rd o F.STO_CNT_WERR_COUNT = min (s.rd o F.STO_CNT_WERR_COUNT + 1) 0xFFFFFFFF ∧ onlyOff s u o)) ∧
    (t.pend ≠ [] → s.rd o F.STO_STAT_STALLED = 0 → t.lastDoneAt + ticksOfUs (s.rd o F.STO_CFG_STALL_US) ≤ s.now →
      gives (.storeStall o b) s fun u =>
        u.rd o F.STO_STAT_STALLED = 1 ∧ u.rd o F.STO_CNT_STALL_COUNT = min (s.rd o F.STO_CNT_STALL_COUNT + 1) 0xFFFFFFFF ∧
          raised s u o 0x0503 (le 1 (if (t.pend.all fun w => w.region = b.toNat) then b.toNat else 0xFF) ++ le 4 t.pend.length) ∧
          (u.off o).sto = t ∧ onlyOff s u o ∧ u.out = s.out) ∧
    ((t.pend = [] ∨ s.rd o F.STO_STAT_STALLED = 1) → exec (.storeStall o b) s = .next s)

/-- STORE_ENABLE, STORE_DISABLE, STORE_FORMAT_DONE and REATTACH (R303, R307, R308, R310, R313): an enable with a sound map shows
`ENABLE` and formats at the owner, and is ON at once at the relief office; one with a fault is refused with its cause and 0x050B; the
store is ON when every write of the format is done; a disable in Standby turns it OFF, and elsewhere is refused with cause 1;
`REATTACH` lets a dropped copy whose regions are sound rejoin at the next opening. -/
def Obligations.StoreTurnsOnAndOff : Prop :=
  ∀ (s : State) (o : OfficeId) (v : W32) (c : Nat),
    (s.takesWrites o = true → v.getLsbD 29 = false →
      (s.rd o F.STO_CTL_ENABLE = 0 → v.getLsbD 31 = true →
        (s.mapFault o (v.getLsbD 30) = none → gives (.storeEnable o v) s fun u =>
          u.rd o F.STO_CTL_ENABLE = 1 ∧ u.rd o F.STO_CTL_MIRROR = b2n (v.getLsbD 30) ∧
            u.rd o F.STO_STAT_STATE = (if s.owns o then storeFormatting else storeIsOn) ∧ u.rd o F.STO_STAT_COPY0_OK = 1 ∧
            (u.off o).sto.cur = none ∧ (u.off o).sto.sacks = [] ∧ u.tiles = s.tiles ∧ u.svc = s.svc) ∧
        (s.mapFault o (v.getLsbD 30) = some c → gives (.storeEnable o v) s fun u =>
          u.rd o F.STO_CTL_ENABLE = 0 ∧ u.rd o F.STO_STAT_REFUSE = c % 16 ∧ raised s u o 0x050B (le 1 c) ∧
            (u.off o).sto = (s.off o).sto ∧ u.tiles = s.tiles ∧ u.svc = s.svc)) ∧
      (s.rd o F.STO_CTL_ENABLE = 1 → v.getLsbD 31 = false →
        (s.mode o = .standby → gives (.storeDisable o v) s fun u =>
          u.rd o F.STO_CTL_ENABLE = 0 ∧ u.rd o F.STO_STAT_STATE = storeOff ∧ u.rd o F.STO_STAT_COPY0_OK = 0 ∧
            u.rd o F.STO_STAT_RGN_FAIL = 0 ∧ (u.off o).sto.lossBuf = (s.off o).sto.lossBuf ∧ (u.off o).sto.sacks = [] ∧
            u.tiles = s.tiles ∧ u.svc = s.svc) ∧
        (s.mode o ≠ .standby → gives (.storeDisable o v) s fun u =>
          u.rd o F.STO_CTL_ENABLE = 1 ∧ u.rd o F.STO_STAT_REFUSE = 1 ∧ raised s u o 0x050B [1] ∧
            (u.off o).sto = (s.off o).sto ∧ u.tiles = s.tiles ∧ u.svc = s.svc))) ∧
    (s.takesWrites o = true → v.getLsbD 29 = true → v.getLsbD 31 = true → s.rd o F.STO_CTL_ENABLE = 1 → s.owns o = true →
      s.storeOn o = true → s.rd o F.STO_CTL_MIRROR = 1 → s.rd o F.STO_STAT_COPY0_OK = 1 → s.rd o F.STO_STAT_COPY1_OK = 0 →
      (∀ k ∈ s.dataRegions o 1, s.rd o F.STO_RGN_CTL_FAILED k = 0) → s.rd o F.STO_IDX_CTL_FAILED 1 = 0 →
      gives (.reattach o v) s fun u =>
        (u.off o).sto = { (s.off o).sto with rejoin := (s.off o).sto.rejoin.set .B true } ∧ u.rd o F.STO_STAT_COPY1_OK = 0 ∧
          u.tiles = s.tiles ∧ u.svc = s.svc) ∧
    (s.rd o F.STO_STAT_STATE = storeFormatting → (s.off o).sto.pend = [] → gives (.storeFormatDone o) s fun u =>
      u.rd o F.STO_STAT_STATE = storeIsOn ∧ onlyOff s u o ∧ (s.owns o = true → s.storeReady o = true → (u.off o).sto.lossBuf = [])) ∧
    ((s.rd o F.STO_STAT_STATE ≠ storeFormatting ∨ (s.off o).sto.pend ≠ []) → exec (.storeFormatDone o) s = .next s)

/-- PIN, UNPIN, UNPIN_ALL and INDEX_REPAIR (R283, R288, R290, R306, R319, R320): a pin command sets or clears `PINNED` of every sack
that its range names, or of all, and of no other; a range whose first round lies after its last, and a reserved `OP`, are refused with
`STATUS` 2 and 0x050A. A repair makes the entry FREE, and of a sack that does not exist or is open is refused with 0x0811 and leaves it. -/
def Obligations.PinsAndRepair : Prop :=
  ∀ (s : State) (o : OfficeId) (v : W32),
    let t := (s.off o).sto
    let first := BitVec.ofNat 48 (s.rdPair o F.STO_PIN_FIRST_LO_ROUND_L F.STO_PIN_FIRST_HI_ROUND_H)
    let last := BitVec.ofNat 48 (s.rdPair o F.STO_PIN_LAST_LO_ROUND_L F.STO_PIN_LAST_HI_ROUND_H)
    let ks := t.pinSet first.toNat last.toNat
    let k := v.toNat % 2 ^ 23
    let op := v.toNat / 2 ^ 28 % 4
    let pinned := fun (u : State) (set : Bool) =>
      (∀ j, ((u.off o).sto.sack j).pinned = if j ∈ ks then set else (t.sack j).pinned) ∧
        (∀ j, ((u.off o).sto.sack j).seq = (t.sack j).seq) ∧
        u.rd o F.STO_PIN_RESULT_STATUS = (if t.clipped first.toNat last.toNat then 1 else 0) ∧ onlyOff s u o
    let refused := fun (u : State) => u.rd o F.STO_PIN_RESULT_STATUS = 2 ∧ (u.off o).sto = t ∧ onlyOff s u o ∧
      ∃ c, raised s u o 0x050A (le 4 v.toNat ++ le 1 c)
    (writable s o F.STO_PIN_CMD_GO.off v.toNat → v.getLsbD 31 = true → s.owns o = true → s.rd o F.STO_PIN_CMD_BUSY = 0 →
      s.storeOn o = true →
      (later first last = false → op = 0 → gives (.pin o v) s fun u => pinned u true) ∧
      (later first last = false → op = 1 → gives (.unpin o v) s fun u => pinned u false) ∧
      (later first last = false → op = 2 → gives (.unpinAll o v) s fun u =>
        (∀ j, ((u.off o).sto.sack j).pinned = false ∧ ((u.off o).sto.sack j).seq = (t.sack j).seq) ∧
          u.rd o F.STO_PIN_RESULT_STATUS = 0 ∧ onlyOff s u o) ∧
      (later first last = true → gives (.pin o v) s refused ∧ gives (.unpin o v) s refused ∧ gives (.unpinAll o v) s refused)) ∧
    (s.takesWrites o = true → v.getLsbD 31 = true → s.owns o = true → op = 3 →
      gives (.pin o v) s refused ∧ gives (.unpin o v) s refused ∧ gives (.unpinAll o v) s refused) ∧
    (writable s o F.STO_IDX_REPAIR_GO.off v.toNat → v.getLsbD 31 = true → s.owns o = true →
      (k < t.count → (t.sack k).state ≠ 1 → t.cur ≠ some k → (t.ahead.all fun a => a.sack ≠ k) = true →
        gives (.indexRepair o v) s fun u =>
          (u.off o).sto.sack k = {} ∧ (∀ j, j ≠ k → (u.off o).sto.sack j = t.sack j) ∧ onlyOff s u o) ∧
      ((t.count ≤ k ∨ (t.sack k).state = 1 ∨ t.cur = some k) → gives (.indexRepair o v) s fun u =>
        raised s u o 0x0811 (le 4 F.STO_IDX_REPAIR_GO.off ++ le 4 v.toNat) ∧ (u.off o).sto = t ∧ onlyOff s u o ∧ u.out = s.out))

/-- SUM_LIVE_FRAME_RX, READOUT_FRAME_RX and LIVE_FRAME_MISSING (R140, R332, R333, R336, R348): a bad frame, or one to an office that
does not own, only counts; with no reduction and no capture running a live frame is kept as the newest, unless its ticks have been
taken as GAP; a read-out frame of the running capture is kept by its number, and one of another tag is nothing; a tick evaluated
without its frame counts once for the frame. -/
def Obligations.LiveStreamAtTheOwner : Prop :=
  ∀ (s : State) (o : OfficeId) (t : Fin 4) (k : Fin 3) (f : LaneFrame) (c : Fld) (j : CapJob),
    let d := s.off o
    let l := d.live.get t
    let n := f.hdr.toNat / 2 ^ 10 % 2 ^ 10
    let x : LiveFrame := ⟨s.fullTick o (f.hdr.toNat / 64 % 2 ^ 22), 2 ^ (f.hdr.toNat / 16 % 4), wordsOf 2 64 f.payload⟩
    let m := d.count.toNat - s.lEval o t
    let kept := Sparse.set [] j.frames n ((wordsOf 2 (f.hdr.toNat % 2 ^ 8) f.payload).map fun w => BitVec.ofNat 16 w)
    let first := m / (64 * s.decOf o t) * (64 * s.decOf o t)
    let counted := fun (u : State) (g : Fld) => u.rd o g t.val = min (s.rd o g t.val + 1) 0xFFFFFFFF ∧ onlyOff s u o ∧ u.out = s.out ∧
      (u.off o).seqs = d.seqs ∧ (u.off o).reds = d.reds
    (d.inReset = false →
      (sumFault f = some c → (gives (.sumLiveFrameRx o t k f) s fun u => counted u c ∧ (u.off o).live = d.live) ∧
        gives (.readoutFrameRx o t k f) s fun u => counted u c ∧ (u.off o).live = d.live) ∧
      (sumFault f = none → frmType f.hdr ≤ 1 → s.owns o = false →
        (gives (.sumLiveFrameRx o t k f) s fun u => counted u F.SORT_LN_CNT_BADHDR_COUNT ∧ (u.off o).live = d.live) ∧
        gives (.readoutFrameRx o t k f) s fun u => counted u F.SORT_LN_CNT_BADHDR_COUNT ∧ (u.off o).live = d.live) ∧
      (sumFault f = none → frmType f.hdr = 0 → s.owns o = true →
        (l.missed.contains x.first = true → exec (.sumLiveFrameRx o t k f) s = .next s) ∧
        (l.missed.contains x.first = false → s.rd o F.TRG_CTL_RED_EN t.val = 0 → (s.seq o t).job = none →
          gives (.sumLiveFrameRx o t k f) s fun u =>
            (u.off o).live.get t = { l with frames := (x :: l.frames).take 32 } ∧ (∀ y, y ≠ t → (u.off o).live.get y = d.live.get y) ∧
              (u.off o).regs = d.regs ∧ onlyOff s u o ∧ u.out = s.out)) ∧
      (sumFault f = none → frmType f.hdr = 1 → s.owns o = true → (s.seq o t).job = some j →
        (f.hdr.toNat / 2 ^ 20 % 2 ^ 8 = j.tag → n + 1 ≠ j.frameCount →
          gives (.readoutFrameRx o t k f) s fun u =>
            (u.seq o t).job = some { j with frames := kept } ∧
              (u.off o).regs = d.regs ∧ onlyOff s u o ∧ u.out = s.out) ∧
        (f.hdr.toNat / 2 ^ 20 % 2 ^ 8 ≠ j.tag → exec (.readoutFrameRx o t k f) s = .next s))) ∧
    (s.owns o = true → s.lEval o t ≤ d.count.toNat → s.sumUp o t ≠ 0 → s.frameOf o t m = none →
      l.missed.contains first = false → s.rd o F.TRG_CTL_RED_EN t.val = 0 →
      gives (.liveFrameMissing o t) s fun u =>
        counted u F.TRG_CNT_LIVEGAP_COUNT ∧ (u.off o).live.get t = { l with missed := (first :: l.missed).take 64 }) ∧
    ((s.owns o = false ∨ s.sumUp o t = 0 ∨ (s.frameOf o t m).isSome ∨ l.missed.contains first = true) → exec (.liveFrameMissing o t) s = .next s)

/-- SEQUENCER_STEP (R333, R339, R341, R344, R345): once its sample is due, a running sequencer evaluates the next tick: where
no branch holds it stays in its state; else the first that holds sets the state, and where it fires with no capture, hold-off
or read-out in the way, the fire counts and is latched with its tick. Before the sample is due, or while it does not run,
nothing happens. SEQUENCER_TIMER_EXPIRY, HOLDOFF_EXPIRY, STROBE, TRIGGER and REDUCTION_RECORD (R339, R342 to R344, R352, R363,
R406): an expired timer, a strobe and a trigger broadcast raise their source in the sequencers that run and in no other; the
hold-off ends at its tick; the record of a block is formed once, and counts where its pigeonhole cannot take it. -/
def Obligations.SequencersSourcesAndReductions : Prop :=
  (∀ (s : State) (o : OfficeId) (t : Fin 4) (k : Nat),
    let q := s.seq o t
    let n := q.tick
    let p := s.rd o F.TRG_STAT_PROG_ACT t.val
    let src := (s.sources o t p n).1
    let branch := fun b => s.progBranch o t p q.state b
    s.syncSeq o t = s →
    let due := tickLe (n + s.lEval o t) (s.off o).count.toNat
    ((q.running = false ∨ due = false) → exec (.sequencerStep o t) s = .next s) ∧
    (q.running = true → due = true → (s.frameOf o t n).isSome → (s.off o).windowBad (progAddr t p) 256 = false →
      ((∀ b, b < 4 → branchHolds (branch b) src = false) → gives (.sequencerStep o t) s fun u =>
        (u.seq o t).tick = (n + 1) % 2 ^ 64 ∧ (u.seq o t).state = q.state ∧ (u.seq o t).c0 = q.c0 ∧ (u.seq o t).c1 = q.c1 ∧
          (u.seq o t).raised = 0 ∧ (∀ y, y ≠ t → u.seq o y = s.seq o y) ∧ (u.off o).regs = (s.off o).regs ∧ onlyOff s u o ∧ u.out = s.out) ∧
      (k < 4 → branchHolds (branch k) src = true → (∀ b, b < k → branchHolds (branch b) src = false) →
        (bitsOf (branch k) 11 1 = 0 → gives (.sequencerStep o t) s fun u =>
          (u.seq o t).tick = (n + 1) % 2 ^ 64 ∧ (u.seq o t).state = bitsOf (branch k) 12 3 ∧
            u.rd o F.TRG_STAT_STATE t.val = bitsOf (branch k) 12 3 ∧ (u.seq o t).fires = q.fires ∧
            (∀ y, y ≠ t → u.seq o y = s.seq o y) ∧ onlyOff s u o ∧ u.out = s.out) ∧
        (bitsOf (branch k) 11 1 = 1 → q.job = none → q.capEnd = none → tickLe q.holdEnd n = true → gives (.sequencerStep o t) s fun u =>
          (u.seq o t).tick = (n + 1) % 2 ^ 64 ∧ (u.seq o t).state = bitsOf (branch k) 12 3 ∧ (u.seq o t).fires = (n :: q.fires).take 8 ∧
            u.rd o F.TRG_CNT_FIRE_COUNT t.val = min (s.rd o F.TRG_CNT_FIRE_COUNT t.val + 1) 0xFFFFFFFF ∧
            u.rdPair o F.TRG_LAST_FIRE_LO_TICK_L F.TRG_LAST_FIRE_HI_TICK_H t.val = n % 2 ^ 64)))) ∧
  (∀ (s : State) (o : OfficeId) (t r : Fin 4) (timer : Bool) (v : W32) (b : Bcast) (bs : List Bcast) (k e : Nat),
    let q := s.seq o t
    let x : Reduction := Sparse.get {} (s.off o).reds (redKey t r.val)
    let lg := s.rd o F.TRG_RED_CFG_B t.val r.val
    let ph := s.rd o F.TRG_RED_CFG_PH t.val r.val
    let due := tickLe ((k + 1) * 2 ^ lg - 1 + s.lEval o t) (s.off o).count.toNat = true
    let rec_ : PhRecord := { kind := 2, round := s.roundOf (BitVec.ofNat 64 (k * 2 ^ lg)), bytes := (Sparse.get {} x.blocks k : RedBlock).record k lg t r.val }
    (q.running = true → (if timer then q.t1 else q.t0) = some e → tickLe e q.tick = true →
      gives (.sequencerTimerExpiry o t timer) s fun u =>
        u.seq o t = (if timer then { q with t1 := none, raised := q.raised ||| 128 } else { q with t0 := none, raised := q.raised ||| 64 }) ∧
          (∀ y, y ≠ t → u.seq o y = s.seq o y) ∧ (u.off o).regs = (s.off o).regs ∧ onlyOff s u o ∧ u.out = s.out) ∧
    ((q.running = false ∨ (if timer then q.t1 else q.t0) = none) → exec (.sequencerTimerExpiry o t timer) s = .next s) ∧
    (s.rd o F.TRG_STAT_HOLDOFF t.val = 1 →
      (tickLe q.holdEnd (s.off o).count.toNat = true → gives (.holdoffExpiry o t) s fun u =>
        u.rd o F.TRG_STAT_HOLDOFF t.val = 0 ∧ onlyOff s u o ∧ regsKept s u o [F.TRG_STAT_HOLDOFF.key t.val 0] ∧ (u.off o).seqs = (s.off o).seqs ∧
          u.out = s.out) ∧
      (tickLe q.holdEnd (s.off o).count.toNat = false → exec (.holdoffExpiry o t) s = .next s)) ∧
    (writable s o (F.TRG_CTL_ARM.addr t.val 0) v.toNat → v.getLsbD 30 = true → v.getLsbD 31 = true → s.owns o = true →
      (s.mode o).isData = true → v.toNat / 2 ^ 26 % 4 = s.rd o F.TRG_CTL_PROFILE t.val →
      (q.running = true → gives (.strobe o t v) s fun u =>
        u.seq o t = { q with raised := q.raised ||| 2048 } ∧ (∀ y, y ≠ t → u.seq o y = s.seq o y)) ∧
      (q.running = false → gives (.strobe o t v) s fun u =>
        (u.seq o t).running = true ∧ (u.seq o t).state = 0 ∧ (u.seq o t).raised = 2048 ∧ u.rd o F.TRG_CTL_ARM t.val = 1)) ∧
    (s.owner = some o → s.svc.ring.arrived = b :: bs →
      (b.op = 6 → gives .trigger s fun u =>
        u.svc.ring.arrived = bs ∧ (∀ y, u.seq o y = if (s.seq o y).running then { s.seq o y with raised := (s.seq o y).raised ||| 1024 }
          else s.seq o y) ∧ (u.off o).regs = (s.off o).regs ∧ u.tiles = s.tiles ∧ u.off (otherOffice o) = s.off (otherOffice o) ∧ u.out = s.out) ∧
      (b.op ≠ 6 → exec .trigger s = .next s)) ∧
    (s.redRuns o t r.val = true → x.next = some k → x.b = lg →
      (due → s.canTake o ph rec_ = false → gives (.reductionRecord o t r) s fun u =>
        (Sparse.get {} (u.off o).reds (redKey t r.val) : Reduction).next = some ((k + 1) % 2 ^ (64 - lg)) ∧ (u.off o).phs = (s.off o).phs ∧
          u.rd o F.TRG_CNT_REDDROP_COUNT t.val = min (s.rd o F.TRG_CNT_REDDROP_COUNT t.val + 1) 0xFFFFFFFF ∧ onlyOff s u o ∧ u.out = s.out) ∧
      (due → s.canTake o ph rec_ = true → (∀ y ∈ ((s.off o).ph ph).queue, y.kind ≠ 0) → gives (.reductionRecord o t r) s fun u =>
        (Sparse.get {} (u.off o).reds (redKey t r.val) : Reduction).next = some ((k + 1) % 2 ^ (64 - lg)) ∧
          ((u.off o).ph ph).queue = ((s.off o).ph ph).queue ++ [{ rec_ with queuedAt := s.now }] ∧ onlyPh s u o ph ∧ u.out = s.out) ∧
      (¬ due → exec (.reductionRecord o t r) s = .next s)) ∧
    (s.redRuns o t r.val = false → exec (.reductionRecord o t r) s = .next s))

/-- COLLECTION_ORDER_SUBMIT, ORDER and COLLECTION_ORDER_START (R353, R354, R356 to R358, R406): an order is refused with the first cause
that holds, counted and noticed, and the queue stays; an order without a fault goes into an empty queue with its tag, pigeonhole
and first tick, and one for the ring only goes out; the order at the head takes the lowest free slot once its rounds are stored. -/
def Obligations.OrdersAreQueuedOrRefused : Prop :=
  ∀ (s : State) (o : OfficeId) (v : W32) (b : Bcast) (bs : List Bcast) (r : Nat) (x : Order) (xs : List Order) (slot : Nat),
    let d := s.off o
    let w := s.orderWindow o
    let queued := fun (u : State) (y : Order) => ∃ z, (u.off o).orders = [z] ∧ z.tag = y.tag ∧ z.ph = y.ph ∧ z.firstTick = y.firstTick ∧
      z.districts = y.districts ∧ z.merged = []
    let refused := fun (u : State) (tag : W16) => (u.off o).orders = d.orders ∧
      u.rd o F.COL_CNT_REFUSED_COUNT = min (s.rd o F.COL_CNT_REFUSED_COUNT + 1) 0xFFFFFFFF ∧ raised s u o 0x0601 (le 2 tag.toNat ++ le 1 r)
    let frame := fun (u : State) => u.tiles = s.tiles ∧ u.off (otherOffice o) = s.off (otherOffice o) ∧ (u.off o).running = d.running
    (writable s o F.COL_SUBMIT_GO.off v.toNat → v.getLsbD 31 = true →
      (s.orderFault o w true = r → r ≠ 0 → gives (.collectionOrderSubmit o v) s fun u =>
        refused u (orderOf w).tag ∧ u.rd o F.COL_STAT_RESULT = r % 16 ∧ frame u ∧ u.svc = s.svc ∧ u.out = s.out) ∧
      (s.orderFault o w true = 0 → d.orders = [] → (orderOf w).opts.getLsbD 5 = false → gives (.collectionOrderSubmit o v) s fun u =>
        queued u (orderOf w) ∧ u.rd o F.COL_STAT_RESULT = 0 ∧ u.rd o F.COL_STAT_TAG = (orderOf w).tag.toNat ∧ frame u ∧ u.svc = s.svc ∧
          u.out = s.out) ∧
      (s.orderFault o w true = 0 → (orderOf w).opts.getLsbD 5 = true → gives (.collectionOrderSubmit o v) s fun u =>
        u.rd o F.COL_STAT_RESULT = 0 ∧ (u.off o).orders = d.orders ∧ u.svc.ring.seq = (s.svc.ring.seq + 1) % 65536 ∧ u.tiles = s.tiles)) ∧
    (s.svc.ring.arrived = b :: bs → s.owner = some o →
      (b.op ≠ 7 → exec .order s = .next s) ∧
      (b.op = 7 → s.orderFault o b.arg false = r → r ≠ 0 → gives .order s fun u =>
        refused u (orderOf b.arg).tag ∧ u.svc.ring.arrived = bs ∧ frame u ∧ u.out = s.out) ∧
      (b.op = 7 → s.orderFault o b.arg false = 0 → d.orders = [] → gives .order s fun u =>
        queued u (orderOf b.arg) ∧ u.svc.ring.arrived = bs ∧ frame u ∧ u.out = s.out)) ∧
    (d.orders = x :: xs → ((List.range 4).find? fun k => (Sparse.get none d.running k).isNone) = some slot →
      (s.owns o = true → (s.mode o).serves = true → d.sto.replayHeld = false → s.orderReady o x = true →
        gives (.collectionOrderStart o) s fun u =>
          (u.off o).orders = xs ∧ (∃ y, Sparse.get none (u.off o).running slot = some y ∧ y.order.tag = x.tag ∧ y.order.ph = x.ph ∧
            y.order.opts = x.opts ∧ y.tries = 0 ∧ y.last = none ∧ y.held = none) ∧ (∀ k, k ≠ slot → Sparse.get none (u.off o).running k = Sparse.get none d.running k) ∧
            onlyOff s u o) ∧
      ((s.owns o = false ∨ (s.mode o).serves = false ∨ d.sto.replayHeld = true ∨ s.orderReady o x = false) → exec (.collectionOrderStart o) s = .next s)) ∧
    (d.orders = [] → exec (.collectionOrderStart o) s = .next s)

/-- STORE_READ_COMPLETE and COLLECTION_ORDER_COMPLETE (R304, R355, R359, R361, R362, R426, R460): of the sack whose turn it is, a plain
parcel, whole, wanted, in the order's window and behind what has been taken, waits at its pigeonhole as stored; a bad record of a
stream that the order takes marks it `PARTIAL`, and skips the stream where it is compressed; what comes of a sack reopened since marks it
and is given up; a failed read is tried again. An order whose sacks are read, whose records are delivered and whose extraction units
are done leaves its slot with one receipt, and counts. -/
def Obligations.OrdersRunAndEnd : Prop :=
  ∀ (s : State) (o : OfficeId) (slot : Fin 4) (k gen : W32) (c : Completion) (f : ReadFinding) (bytes : List Byte) (r : RunningOrder)
    (rd : Round) (st : BitVec 9) (packed : Bool),
    let d := s.off o
    let x := r.order
    let w := fun ofs n => ofLe ((bytes.drop ofs).take n)
    let run := fun (u : State) => Sparse.get none (u.off o).running slot.val
    let located := Sparse.get 0 r.gens k.toNat
    let here := (d.sto.sack k.toNat).gen + 1 = located ∧ gen.toNat + 1 = located
    let units := (d.units.any fun u => decide (u.1 = slot.val) && decide (s.now < u.2.2))
    let pending := (d.ph x.ph).queue.any fun y => y.order && decide (y.tag = x.tag)
    (run s = none → exec (.storeReadComplete o slot k gen c f bytes) s = .next s ∧ exec (.collectionOrderComplete o slot) s = .next s) ∧
    (run s = some r → (r.todo.head? ≠ some k.toNat ∨ x.aborted = true) → exec (.storeReadComplete o slot k gen c f bytes) s = .next s) ∧
    (run s = some r → r.todo.head? = some k.toNat → x.aborted = false →
      (¬ here → gives (.storeReadComplete o slot k gen c f bytes) s fun u =>
        (∃ y, run u = some { r with gens := Sparse.erase r.gens k.toNat, todo := r.todo.filter fun j => decide (j ≠ k.toNat), held := y, order := { x with status := x.status ||| 4 } }) ∧
          onlyOff s u o ∧ (r.held = none → (u.off o).regs = d.regs ∧ (u.off o).phs = d.phs ∧ u.out = s.out)) ∧
      (here → c ≠ .ok → r.tries = 0 → f ≠ .badEntry → gives (.storeReadComplete o slot k gen c f bytes) s fun u =>
        run u = some { r with tries := 1 } ∧ (u.off o).regs = d.regs ∧ onlyOff s u o) ∧
      (here → x.takesStream st.toNat = true → gives (.storeReadComplete o slot k gen .ok (.badRecord rd st packed) bytes) s fun u =>
        (∃ y, run u = some y ∧ y.order.status = x.status ||| 8 ∧ y.order.tag = x.tag ∧
          y.skip = if packed = true ∧ r.skip.contains st.toNat = false then st.toNat :: r.skip else r.skip) ∧
          (r.noted.contains (k.toNat * 1024 + st.toNat) = false → raised s u o 0x0603 (le 2 x.tag.toNat ++ le 4 k.toNat ++ le 2 st.toNat)) ∧
          onlyOff s u o ∧ u.out = s.out) ∧
      (here → x.takesStream st.toNat = false → gives (.storeReadComplete o slot k gen .ok (.badRecord rd st packed) bytes) s fun u =>
        run u = some { r with tries := 0 } ∧ (u.off o).regs = d.regs ∧ onlyOff s u o ∧ u.out = s.out) ∧
      (here → w 0 2 = 0x9A5C → w 60 4 = (crc32c (bytes.take 60)).toNat → w 56 4 = (crc32c ((bytes.drop 64).take (w 48 4))).toNat →
        bitsOf (w 3 1) 0 2 = 0 → r.held = none → (∀ l, r.last = some l → (placeOf rd bytes).after l = true) →
        x.opts.getLsbD 4 = true → (∃ y, y < 64 ∧ x.districts.getLsbD (w 5 1 * 64 + y) = true) → x.holds (w 8 8) = true →
        (∀ y ∈ (d.ph x.ph).queue, y.kind ≠ 0) →
        gives (.storeReadComplete o slot k gen .ok (.good rd) bytes) s fun u =>
          ((u.off o).ph x.ph).queue = (d.ph x.ph).queue ++ [{ kind := 1, round := rd, bytes := bytes, order := true, tag := x.tag, queuedAt := s.now }] ∧
            (∃ y, run u = some y ∧ y.order = x ∧ y.tries = 0 ∧ y.dec = r.dec ∧ y.last = some (placeOf rd bytes)) ∧
            onlyPh s u o x.ph ∧ u.out = s.out)) ∧
    (run s = some r → x.merged = [] → x.aborted = false → s.portReady o = true → s.mayDeliver o x.ph = true →
      (s.phState o x.ph = phStarved ∨ s.phState o x.ph = phReady) → 2 ≤ s.receiptRoom o x.ph →
      r.todo = [] → units = false → pending = false → (d.ph x.ph).bag = none →
      gives (.collectionOrderComplete o slot) s fun u =>
        run u = none ∧ u.rd o F.COL_CNT_DONE_COUNT = min (s.rd o F.COL_CNT_DONE_COUNT + 1) 0xFFFFFFFF ∧
          u.rd o F.PH_RPROD_INDEX x.ph = (s.rd o F.PH_RPROD_INDEX x.ph + 1) % 2 ^ 32 ∧
          (∀ j, j ≠ slot.val → Sparse.get none (u.off o).running j = Sparse.get none d.running j) ∧ onlyOff s u o) ∧
    (run s = some r → x.aborted = false → (r.todo ≠ [] ∨ units = true ∨ pending = true) →
      exec (.collectionOrderComplete o slot) s = .next s)

namespace Sys2Proof.Machine

/-- For each bit of a clear register the register elements which that bit clears. -/
abbrev ClearBits := List (List (Fld × Nat))

/-- Bit `k` clears element `i` of the `k`-th counter. -/
def each (i : Nat) (l : List Fld) : ClearBits := l.map fun f => [(f, i)]

/-- `P` of each command that clears counters which an office keeps, with its register and what each bit clears (R121, R168, R225,
R264, R318, R367, R371, R415, R420, R468, R470, R512, R555, R584, R610, R614, R615, R636, R652, R653, R689). -/
def eachClear (o : OfficeId) (t : Fin 4) (k : Fin 2) (x : Bool) (p : BitVec 12) (v : W32) (P : Instr → Nat → ClearBits → Prop) : Prop :=
  P (.sortResCntClr o v) F.SORT_RES_CNT_CLR_RETRY.off (each 0 [F.SORT_RES_CNT_RETRY_COUNT, F.SORT_RES_CNT_DROP_COUNT,
    F.SORT_RES_CNT_TBLPOIS_COUNT]) ∧
  P (.sortLnCntClr o t v) (F.SORT_LN_CNT_CLR_CRC.addr t.val 0) (each t.val [F.SORT_LN_CNT_CRC_COUNT, F.SORT_LN_CNT_BADHDR_COUNT,
    F.SORT_LN_CNT_LOSTFRM_COUNT, F.SORT_LN_CNT_OVFDROP_COUNT, F.SORT_LN_CNT_LATE_COUNT, F.SORT_LN_CNT_LATEDROP_COUNT,
    F.SORT_LN_CNT_RETRAIN_COUNT, F.SORT_LN_CNT_DLNAK_COUNT, F.SORT_LN_PEAK_ENTRIES]) ∧
  P (.sortMgCntClr o v) F.SORT_MG_CNT_CLR_RXDROP.off (each 0 [F.SORT_MG_CNT_NOCLOSE_COUNT, F.SORT_MG_CNT_CORRUPT_COUNT,
    F.SORT_MG_CNT_MASKED_COUNT, F.SORT_CTX_CNT_PDROP_COUNT, F.SORT_RT_CNT_UNDELIV_COUNT, F.SORT_MG_CNT_CONT_COUNT,
    F.SORT_MG_CNT_RXDROP_COUNT]) ∧
  P (.cmpCntClr o v) F.CMP_CNT_CLR_COMP.off ([[(F.CMP_CNT_COMP_COUNT, 0)], [(F.CMP_CNT_KEY_COUNT, 0)], [(F.CMP_CNT_PLAIN_COUNT,
    0)], [(F.CMP_CNT_VFAIL_COUNT, 0)], [(F.CMP_CNT_STPOIS_COUNT, 0)], [(F.CMP_IN_LO_COUNT_L, 0), (F.CMP_IN_HI_COUNT_H, 0)],
    [(F.CMP_OUT_LO_COUNT_L, 0), (F.CMP_OUT_HI_COUNT_H, 0)]]) ∧
  P (.stoCntClr o v) F.STO_CNT_CLR_DROPRND.off (each 0 [F.STO_CNT_DROPRND_COUNT, F.STO_CNT_DROPDIST_COUNT, F.STO_CNT_SPILL_COUNT,
    F.STO_CNT_WERR_COUNT, F.STO_CNT_RPOIS_COUNT, F.STO_CNT_IDXERR_COUNT, F.STO_CNT_AUTOUNPIN_COUNT, F.STO_CNT_STALL_COUNT]) ∧
  P (.trgCntClr o t v) (F.TRG_CNT_CLR_FIRE.addr t.val 0) (each t.val [F.TRG_CNT_FIRE_COUNT, F.TRG_CNT_HOLD_COUNT,
    F.TRG_CNT_BUSY_COUNT, F.TRG_CNT_EXT_COUNT, F.TRG_CNT_TRUNC_COUNT, F.TRG_CNT_PLOST_COUNT, F.TRG_CNT_LIVEGAP_COUNT,
    F.TRG_CNT_REDDROP_COUNT]) ∧
  P (.colCntClr o v) F.COL_CNT_CLR_DONE.off ([[(F.COL_CNT_DONE_COUNT, 0)], [(F.COL_CNT_CLIPPED_COUNT, 0)],
    [(F.COL_CNT_PARTIAL_COUNT, 0)], [(F.COL_CNT_MERGED_COUNT, 0)], [(F.COL_CNT_REFUSED_COUNT, 0)], [(F.COL_BYTES_LO_COUNT_L, 0),
    (F.COL_BYTES_HI_COUNT_H, 0)]]) ∧
  P (.tbCntClr o v) F.TB_CNT_CLR_PPSREJ.off (each 0 [F.TB_CNT_PPSREJ_COUNT, F.TB_CNT_TODERR_COUNT, F.TB_CNT_EPOCHFIX_COUNT]) ∧
  P (.ringCntClr o v) F.RING_CTL_CRC.off (each 0 [F.RING_CNT_CRC_COUNT, F.RING_CNT_LATESM_COUNT, F.RING_CNT_PDREJ_COUNT]) ∧
  P (.phCntClr o p v) (F.PH_CNT_CLR_MAILBAG.addr p.toNat 0) (each p.toNat [F.PH_CNT_MAILBAG_COUNT, F.PH_CNT_UNDELIV_COUNT,
    F.PH_CNT_RETURNED_COUNT]) ∧
  P (.phGcntClr o v) F.PH_GCNT_CLR_MMIOERR.off (each 0 [F.PH_CNT_NOTICELOST_COUNT, F.PH_CNT_DLODROP_COUNT,
    F.PH_CNT_LINKDOWN_COUNT, F.PH_CNT_MMIOERR_COUNT]) ∧
  P (.secCntClr o v) F.SEC_CNT_CLR_AMD.off (each 0 [F.SEC_CNT_AMD_COUNT, F.SEC_CNT_REFUSED_COUNT, F.SEC_CNT_LBERR_COUNT]) ∧
  P (.twnCntClr o v) F.TWN_CNT_CLR_GAIN.off (each 0 [F.TWN_CNT_GAIN_COUNT, F.TWN_CNT_HANDOVER_COUNT, F.TWN_CNT_ROUNDSLOST_COUNT,
    F.TWN_CNT_LINKLOSS_COUNT, F.TWN_CNT_STFAIL_COUNT]) ∧
  P (.loopCntClr o k v) (F.LOOP_CNT_CLR_HOLD.addr k.val 0) (each k.val [F.LOOP_CNT_HOLD_COUNT, F.LOOP_CNT_SAT_COUNT,
    F.LOOP_CNT_PLFAIL_COUNT]) ∧
  P (.envCntClr o v) F.ENV_CNT_CLR_RESTART.off (each 0 [F.ENV_CNT_RESTART_COUNT, F.ENV_CNT_ABANDON_COUNT,
    F.ENV_CNT_DISAGREE_COUNT]) ∧
  P (.auxCntClr o x v) (F.AUX_CNT_CLR_EDGE.addr (b2n x) 0) (each (b2n x) [F.AUX_CNT_EDGE_COUNT, F.AUX_CNT_DEAD_COUNT]) ∧
  P (.auxIvlClr o v) F.AUX_IVL_CLR_CNT.off (each 0 [F.AUX_CNT_ORDER_COUNT, F.AUX_CNT_NOSTART_COUNT, F.AUX_CNT_REPLACED_COUNT,
    F.AUX_CNT_TIMEOUT_COUNT, F.AUX_CNT_OVF_COUNT]) ∧
  P (.emtCntClr o v) F.EMT_CNT_CLR_BUSY.off (each 0 [F.EMT_CNT_BUSY_COUNT, F.EMT_CNT_MISS_COUNT, F.EMT_CNT_SUPPR_COUNT]) ∧
  P (.thmCntClr o v) F.THM_CNT_CLR_STEPUP.off (each 0 [F.THM_CNT_STEPUP_COUNT, F.THM_CNT_SENSFAIL_COUNT, F.THM_CNT_STOP_COUNT]) ∧
  P (.pwrCntClr o v) F.PWR_CNT_CLR_RAILFLT.off (each 0 [F.PWR_CNT_RAILFLT_COUNT, F.PWR_CNT_VINLOW_COUNT]) ∧
  P (.errCntClr o v) F.ERR_CNT_CLR_CE.off ([(List.range 8).map fun a => (F.ERR_CNT_CE_COUNT, a), (List.range 8).map fun a =>
    (F.ERR_CNT_UE_COUNT, a), [(F.ERR_CNT_RTEVICT_COUNT, 0)], [(F.ERR_CNT_PWREF_COUNT, 0)]])

/-- The events of the running tick at the counters of a clear register fit them, and the high half of a pair has none. -/
def eventsFit (s : State) (o : OfficeId) (bits : ClearBits) : Prop :=
  ∀ l ∈ bits, ∀ e ∈ l, s.eventsNow o e.1 e.2 < 2 ^ e.1.w ∧
    (e.1 ∈ [F.CMP_IN_HI_COUNT_H, F.CMP_OUT_HI_COUNT_H, F.COL_BYTES_HI_COUNT_H] → s.eventsNow o e.1 e.2 = 0)

end Sys2Proof.Machine

/-- The CNT_CLR commands (R8, R9, R14, R75, R120, R168, R318, R499): a write that the office takes clears the counters whose bit it
sets, which then hold the events of the running tick alone (R14; the model's tick is the clock cycle of that rule, log entry 79), and leaves every other register, the tiles and the other office; a write the office does not take does nothing, and one of a
service register by an office that does not own clears nothing. `STO_STAGE_PEAK` and `SORT_LN_PEAK` go to the present fill; the
counters of a tile that heeds the office are cleared at the next round boundary, so their bits wait in the tile. -/
def Obligations.CountersAreClearedBitByBit : Prop :=
  ∀ (s : State) (o : OfficeId) (t : Fin 4) (k : Fin 2) (x : Bool) (p : BitVec 12) (v : W32),
    let w := v.toNat
    (eachClear o t k x p v fun c addr bits =>
      (s.takesWrites o = false → exec c s = .next s) ∧
      (s.takesWrites o = true → isServiceReg addr = true → s.owns o = false → gives c s fun u =>
        onlyOff s u o ∧ regsKept s u o [] ∧ u.out = s.out) ∧
      (writable s o addr w → w < 2 ^ 30 → (addr = F.STO_CNT_CLR_DROPRND.off → v.getLsbD 8 = false) → eventsFit s o bits → gives c s fun u =>
        (∀ j l, bits[j]? = some l → v.getLsbD j = true → ∀ e ∈ l, u.rd o e.1 e.2 = s.eventsNow o e.1 e.2) ∧
          (∀ a, a ∉ noticeKeys → (∀ j l, bits[j]? = some l → v.getLsbD j = true → ∀ e ∈ l, a ≠ e.1.key e.2 0) →
            Sparse.get 0 (u.off o).regs a = Sparse.get 0 (s.off o).regs a ∧ Sparse.get 0 u.svc.regs a = Sparse.get 0 s.svc.regs a) ∧
          (∀ y, (u.tile y).cnt = (s.tile y).cnt ∧ (u.tile y).cells = (s.tile y).cells) ∧ u.off (otherOffice o) = s.off (otherOffice o) ∧
          u.out = s.out ∧ u.pending = s.pending ∧ u.now = s.now)) ∧
    (writable s o F.STO_CNT_CLR_DROPRND.off w → v.getLsbD 8 = true → gives (.stoCntClr o v) s fun u =>
      u.rd o F.STO_STAGE_PEAK = s.rd o F.STO_STAGE_FILL % 2 ^ F.STO_STAGE_PEAK.w ∧ u.rd o F.STO_STAGE_FILL = s.rd o F.STO_STAGE_FILL ∧ onlyOff s u o ∧ u.out = s.out) ∧
    (writable s o (F.SORT_LN_CNT_CLR_CRC.addr t.val 0) w → gives (.sortLnCntClr o t v) s fun u =>
      (∀ y, u.tile y = if y = t ∧ v.getLsbD 8 = true ∧ s.owns o = true then { s.tile y with memPeak := (s.tile y).memUsed } else s.tile y)) ∧
    (writable s o (F.SORT_FE_CNT_CLR_PBUSY.addr t.val 0) w → gives (.sortFeCntClr o t v) s fun u =>
      (∀ y, u.tile y = if y = t ∧ s.owns o = true ∧ s.heeds t o = true then { s.tile y with clrFe := (s.tile y).clrFe ||| BitVec.ofNat 5 w } else s.tile y) ∧
        u.svc = s.svc ∧ u.off (otherOffice o) = s.off (otherOffice o) ∧ regsKept s u o [] ∧ u.out = s.out) ∧
    (writable s o (F.SORT_TE_CNT_CLR_COLEAD.addr t.val 0) w → gives (.sortTeCntClr o t v) s fun u =>
      (∀ y, u.tile y = if y = t ∧ s.owns o = true ∧ s.heeds t o = true then { s.tile y with clrTe := (s.tile y).clrTe ||| BitVec.ofNat 4 w } else s.tile y) ∧
        u.svc = s.svc ∧ u.off (otherOffice o) = s.off (otherOffice o) ∧ regsKept s u o [] ∧ u.out = s.out) ∧
    (s.takesWrites o = false → exec (.sortFeCntClr o t v) s = .next s ∧ exec (.sortTeCntClr o t v) s = .next s)

namespace Sys2Proof.Machine

/-- No row of its own acts on a write of `v` to the register at `n`: it only stores fields. -/
def ordinary (s : State) (o : OfficeId) (n : Nat) (v : W32) : Prop :=
  s.arrayClears o n v = none ∧ s.plainClears o n v = none ∧ s.dataCommands o n v = none ∧ s.moduleCommands o n v = none ∧
    s.pigeonholeWrites o n v = none ∧ s.regionWrites o n v = none ∧ s.windowWrites o n v = none

/-- The keys of fields that the host may write. -/
def writeKeys (l : List (Fld × Nat × Nat)) : List Nat :=
  (l.filter fun e => e.1.hostWritable).map fun e => e.1.key e.2.1 e.2.2

/-- Registers that a write may also change: the account of notices, of the mirror, of the port and of failed regions. -/
def sideKeys : List Nat :=
  noticeKeys ++ [F.TWN_MIRROR_UNACKED.key 0 0, F.PH_PORT_STAT_UIO_ACT.key 0 0, F.STO_STAT_RGN_FAIL.key 0 0, F.STO_STAT_IDX_FAIL.key 0 0] ++
    (List.range 8).map (fun k => F.STO_RGN_CTL_FAILED.key k 0) ++ (List.range 2).map fun k => F.STO_IDX_CTL_FAILED.key k 0

/-- A register that shows a stored value: no array, no log entry, no value formed on reading, no latch. -/
def plainRead (s : State) (o : OfficeId) (n : Nat) : Prop :=
  n ∉ [F.AUX_IVL_LO_D_L.off, F.TWN_STAT_PEER_AGE.off, F.TWN_MIRROR_BOOK_LAG.off, F.TWN_TIMER_ELIG_S.off, 0x0100008, F.EMT_TD_TD.off] ∧
    arrayAt n = none ∧ n < 0x4000000 ∧ (n < 0x0C10000 ∨ 0x0C12000 ≤ n) ∧ (s.off o).fromLatch n = false

end Sys2Proof.Machine

/-- LOW_REGISTER_READ, REGISTER_WRITE, HIGH_REGISTER_WRITE and TEST_PORT_INSTRUCTION (R4 to R10, R434, R486, R499, R667, R701). A read
is answered with the register's value, its reserved bits free, and changes no register; a low register is latched. A write gives RW
fields the value and clears W1C fields where it has ones, unless hardware sets them in the same tick (R10, log entry 79); a reserved value leaves its field; a register that only reads is left and
the write journalled as refused; the low half of a pair waits for the high half. Accesses that are not aligned or not taken do
nothing. Fields are told apart by their keys, which the premise on `writeKeys` says for the register at hand. -/
def Obligations.RegistersReadAndWrite : Prop :=
  ∀ (s : State) (o : OfficeId) (addr : BitVec 26) (v : W32) (ir : JtagIr),
    let n := addr.toNat
    let d := s.off o
    let dead := d.inReset = true ∨ d.d3hot = true
    let frame := fun (u : State) => u.tiles = s.tiles ∧ u.now = s.now ∧ u.pending = s.pending
    let live := d.inReset = false ∧ d.d3hot = false
    let shown : JtagIr := if ir = .extest ∧ s.svc.pwr.resetHeld = false then .bypass else ir
    (n % 4 ≠ 0 → exec (.lowRegisterRead o addr) s = .next s ∧ exec (.registerWrite o addr v) s = .next s) ∧
    (n % 4 = 0 → plainRead s o n →
      (dead → exec (.lowRegisterRead o addr) s = .next s) ∧
      (live → s.answersRead o n = false → gives (.lowRegisterRead o addr) s fun u =>
        u.out = .completion o [0] false :: s.out ∧ (u.off o).regs = d.regs ∧ (u.off o).latch = d.latch ∧ (u.off o).arr = d.arr ∧ onlyOff s u o) ∧
      (live → s.answersRead o n = true → gives (.lowRegisterRead o addr) s fun u =>
        (∃ w : W32, u.out = .completion o [w] false :: s.out ∧
          ∀ i, i < 32 → (s.undefinedBits o n).testBit i = false → w.getLsbD i = (s.regWord o n).testBit i) ∧
          (u.off o).regs = d.regs ∧ onlyOff s u o ∧
          (isPairLow n = true → Sparse.get 0 (u.off o).latch (n + 4) = (s.readRaw o (n + 4)).1))) ∧
    (n % 4 = 0 → ordinary s o n v →
      (s.takesWrites o = false → exec (.registerWrite o addr v) s = .next s) ∧
      (s.takesWrites o = true → isReadOnlyWindow n = false → fieldsAt n ≠ [] → writeKeys (fieldsAt n) = [] →
        gives (.registerWrite o addr v) s fun u => raised s u o 0x0910 (le 4 n ++ le 4 v.toNat ++ le 1 0) ∧ onlyOff s u o ∧
          regsKept s u o [] ∧ u.out = s.out) ∧
      (s.takesWrites o = true → isReadOnlyWindow n = false → writeKeys (fieldsAt n) ≠ [] → isServiceReg n = true → s.owns o = false →
        gives (.registerWrite o addr v) s fun u => raised s u o 0x0910 (le 4 n ++ le 4 v.toNat ++ le 1 0) ∧ onlyOff s u o ∧
          regsKept s u o [] ∧ u.out = s.out) ∧
      (s.takesWrites o = true → isReadOnlyWindow n = false → writeKeys (fieldsAt n) ≠ [] → (isServiceReg n = true → s.owns o = true) →
        isWriteLow n = false → isWriteLow (n - 4) = false → (∀ e ∈ fieldsAt n, e.1.acc = .wo → e.1.part v.toNat = 0) →
        (writeKeys (fieldsAt n)).Nodup → (∀ x ∈ writeKeys (fieldsAt n), x ∉ sideKeys) →
        gives (.registerWrite o addr v) s fun u => frame u ∧ ∀ e ∈ fieldsAt n,
          (e.1.acc = .rw → u.rd o e.1 e.2.1 e.2.2 = if e.1.isBad (e.1.part v.toNat) then s.rd o e.1 e.2.1 e.2.2 else e.1.part v.toNat) ∧
          (e.1.acc = .w1c → s.eventsNow o e.1 e.2.1 e.2.2 = 0 → u.rd o e.1 e.2.1 e.2.2 = (s.rd o e.1 e.2.1 e.2.2 &&& (2 ^ e.1.w - 1 - e.1.part v.toNat)) % 2 ^ e.1.w) ∧
          (e.1.acc = .w1c → s.eventsNow o e.1 e.2.1 e.2.2 ≠ 0 → u.rd o e.1 e.2.1 e.2.2 = s.rd o e.1 e.2.1 e.2.2)) ∧
      (writable s o n v.toNat → isWriteLow n = true → isReadOnlyWindow n = false → writeKeys (fieldsAt n) ≠ [] →
        gives (.registerWrite o addr v) s fun u => frame u ∧ Sparse.get 0 (u.off o).lowHeld n = v.toNat ∧
          ∀ x, x ∉ sideKeys → Sparse.get 0 (u.off o).regs x = Sparse.get 0 d.regs x)) ∧
    (4 ≤ n → ordinary s o n v →
      (isWriteLow (n - 4) = false → exec (.highRegisterWrite o addr v) s = .next s) ∧
      (isWriteLow (n - 4) = true → isWriteLow n = false → writable s o n v.toNat → isReadOnlyWindow n = false → writeKeys (fieldsAt n) ≠ [] →
        (writeKeys (fieldsAt (n - 4) ++ fieldsAt n)).Nodup → (∀ x ∈ writeKeys (fieldsAt (n - 4) ++ fieldsAt n), x ∉ sideKeys) →
        gives (.highRegisterWrite o addr v) s fun u => frame u ∧
          (∀ e ∈ fieldsAt n, e.1.acc = .rw → u.rd o e.1 e.2.1 e.2.2 = e.1.part v.toNat) ∧
          ∀ e ∈ fieldsAt (n - 4), e.1.acc = .rw → e.1.isBad (e.1.part (Sparse.get 0 d.lowHeld (n - 4))) = false →
            u.rd o e.1 e.2.1 e.2.2 = e.1.part (Sparse.get 0 d.lowHeld (n - 4)))) ∧
    (gives (.testPortInstruction ir) s fun u => u.svc = { s.svc with jtag := shown } ∧ u.tiles = s.tiles ∧ u.offices = s.offices ∧
        ∃ bits len, u.out = .testPort bits len :: s.out ∧ (shown = .bypass → bits = 0 ∧ len = 1) ∧
          (shown = .idcode → bits = s.idcode ∧ len = 32))

/-- PORT_LEAVE_L0, PORT_ENTER_L0, FUNCTION_RESET, CONFIGURATION_REQUEST, PTM_DIALOG, PTM_TICK_READ, BAR_ACCESS_ERROR and
POISONED_WRITE_RX (R429, R434 to R437, R439, R441, R442, R444, R462, R471): leaving L0 counts and is a fault of health; entering it shows
rate, width and format; a function reset disables every pigeonhole but keeps its waiting records; a completed PTM dialog writes its
pair and postmark; an access of the wrong size and a poisoned write count and are reported. -/
def Obligations.PortEvents : Prop :=
  ∀ (s : State) (o : OfficeId) (flit uio on : Bool) (rate width : BitVec 3) (cause : FnResetCause) (hostNs tick : W64) (addr : BitVec 26),
    let d := s.off o
    let stat := F.PH_PORT_STAT_L0
    let counted := fun (u : State) (f : Fld) => u.rd o f = min (s.rd o f + 1) 0xFFFFFFFF
    let keys := fun (l : List Fld) => l.map fun f => f.key 0 0
    let p := (s.postmarkAt tick.toNat).1
    let closed := d.inReset = true ∨ d.d3hot = true
    (d.inReset = true → exec (.portLeaveL0 o) s = .next s ∧ exec (.portEnterL0 o flit uio rate width) s = .next s ∧
      exec (.functionReset o cause) s = .next s ∧ exec (.configurationRequest o (.busMaster on)) s = .next s) ∧
    (closed → exec (.barAccessError o addr) s = .next s ∧ exec (.poisonedWriteRx o addr) s = .next s ∧
      exec (.ptmDialog o hostNs tick) s = .next s ∧ exec (.ptmTickRead o) s = .next s) ∧
    (d.inReset = false → s.flag o stat = false → exec (.portLeaveL0 o) s = .next s) ∧
    (d.inReset = false → s.flag o stat = true → exec (.portEnterL0 o flit uio rate width) s = .next s ∧
      gives (.portLeaveL0 o) s fun u => u.rd o stat = 0 ∧ u.rd o F.PH_PORT_STAT_UIO_ACT = 0 ∧ counted u F.PH_CNT_LINKDOWN_COUNT ∧
        u.flag o F.TWN_HEALTH_PORT = true ∧ onlyOff s u o ∧ u.out = s.out ∧ (u.off o).phs = d.phs ∧ (u.off o).sto = d.sto ∧
        regsKept s u o (keys [stat, F.PH_PORT_STAT_UIO_ACT, F.PH_CNT_LINKDOWN_COUNT, F.TWN_HEALTH_PORT, F.TWN_STAT_HEALTHY])) ∧
    (d.inReset = false → s.flag o stat = false → s.storeOn o = false → s.flag o F.PH_PORT_STAT_BME = false →
      gives (.portEnterL0 o flit uio rate width) s fun u =>
        u.rd o stat = 1 ∧ u.rd o F.PH_PORT_STAT_FLIT = b2n flit ∧ u.rd o F.PH_PORT_STAT_UIO_CAP = b2n uio ∧
          u.rd o F.PH_PORT_STAT_RATE = rate.toNat ∧ u.rd o F.PH_PORT_STAT_WIDTH = width.toNat ∧
          u.rd o F.PH_PORT_STAT_UIO_ACT = b2n (flit && uio && s.flag o F.PH_PORT_CTL_UIO_EN) ∧ u.rd o F.TWN_HEALTH_PORT = 0 ∧
          onlyOff s u o ∧ u.out = s.out ∧ (u.off o).phs = d.phs ∧
          (6 ≤ rate.toNat → 4 ≤ width.toNat → raised s u o 0x0802 (le 1 rate.toNat ++ le 1 width.toNat ++ le 1 (b2n flit) ++ le 1 (b2n uio)))) ∧
    (d.inReset = false → gives (.functionReset o cause) s fun u =>
      u.rd o F.PH_PORT_STAT_BME = 0 ∧ (u.off o).msixOn = false ∧ (u.off o).d3hot = false ∧ (cause = .linkDown → u.rd o stat = 0) ∧
        (∀ q, q < 4096 → u.rd o F.PH_CFG_EN q = 0 ∧ ((u.off o).ph q).queue = (d.ph q).queue ∧ ((u.off o).ph q).bag = none) ∧ onlyOff s u o ∧ u.out = s.out ∧
        (u.off o).sto = d.sto ∧ (u.off o).arr = d.arr) ∧
    (d.inReset = false →
      (gives (.configurationRequest o (.busMaster false)) s fun u =>
        u.rd o F.PH_PORT_STAT_BME = 0 ∧ onlyOff s u o ∧ regsKept s u o [F.PH_PORT_STAT_BME.key 0 0] ∧ u.out = s.out) ∧
      (s.flag o stat = false → gives (.configurationRequest o (.busMaster true)) s fun u =>
        u.rd o F.PH_PORT_STAT_BME = 1 ∧ onlyOff s u o ∧ regsKept s u o [F.PH_PORT_STAT_BME.key 0 0] ∧ u.out = s.out) ∧
      (gives (.configurationRequest o (.maxPayload (if on then 2 else 0))) s fun u =>
        u.off o = { d with mps := if on then 512 else 128 } ∧ onlyOff s u o ∧ u.out = s.out) ∧
      (gives (.configurationRequest o (.maxReadRequest (if on then 5 else 0))) s fun u =>
        u.off o = { d with mrrs := if on then 4096 else 128 } ∧ onlyOff s u o ∧ u.out = s.out) ∧
      (gives (.configurationRequest o (.d3hot true)) s fun u => u.off o = { d with d3hot := true } ∧ onlyOff s u o ∧ u.out = s.out) ∧
      ((∀ k, s.rd o F.MSIX_PBA_P k = 0) ∨ on = false → gives (.configurationRequest o (.msixEnable on)) s fun u =>
        u.off o = { d with msixOn := on } ∧ onlyOff s u o ∧ u.out = s.out)) ∧
    (¬ closed → s.flag o F.PH_PTM_CTL_EN = true → s.flag o stat = true → gives (.ptmDialog o hostNs tick) s fun u =>
      u.rdPair o F.PH_PTM_TICK_LO_TICK_L F.PH_PTM_TICK_HI_TICK_H = tick.toNat ∧
        u.rdPair o F.PH_PTM_HOST_LO_NS_L F.PH_PTM_HOST_HI_NS_H = hostNs.toNat ∧ u.rd o F.PH_PTM_STAT_VALID = 1 ∧
        u.rd o F.PH_PTM_STAT_COUNT = (s.rd o F.PH_PTM_STAT_COUNT + 1) % 2 ^ 16 ∧ u.rd o F.PH_PTM_PM_NS_NS = p.ns.toNat ∧
        u.rd o F.PH_PTM_PM_SEC_HI_QUALITY = p.quality.toNat ∧ u.rd o F.PH_PTM_PM_FRAC_FRAC = p.frac.toNat ∧ onlyOff s u o ∧ u.out = s.out) ∧
    ((s.flag o F.PH_PTM_CTL_EN = false ∨ s.flag o stat = false) → exec (.ptmDialog o hostNs tick) s = .next s) ∧
    (¬ closed → s.answersRead o 0x0740044 = true → gives (.ptmTickRead o) s fun u =>
      u.out = .completion o [BitVec.ofNat 32 (s.rd o F.PH_PTM_TICK_LO_TICK_L)] false :: s.out ∧
        (∀ a ∈ ptmMembers, Sparse.get 0 (u.off o).latch a = (s.readRaw o a).1) ∧ (u.off o).regs = d.regs ∧ onlyOff s u o) ∧
    (¬ closed →
      (gives (.barAccessError o addr) s fun u => u.out = .completerAbort o :: s.out ∧ counted u F.PH_CNT_MMIOERR_COUNT ∧
        raised s u o 0x0808 (le 4 addr.toNat ++ le 1 0) ∧ onlyOff s u o ∧ regsKept s u o [F.PH_CNT_MMIOERR_COUNT.key 0 0]) ∧
      gives (.poisonedWriteRx o addr) s fun u => u.out = .aerError o :: s.out ∧ counted u F.PH_CNT_MMIOERR_COUNT ∧
        raised s u o 0x0808 (le 4 addr.toNat ++ le 1 1) ∧ onlyOff s u o ∧ regsKept s u o [F.PH_CNT_MMIOERR_COUNT.key 0 0])

namespace Sys2Proof.Machine

/-- The offices and the tiles are in reset: Dormant, with nothing but their NVM (R658, R710). -/
def diesInReset (s u : State) : Prop :=
  (∀ t, u.tile t = { inReset := true }) ∧
    ∀ o, (u.off o).inReset = true ∧ (u.off o).nvm = (s.off o).nvm ∧ u.mode o = .dormant ∧ (u.off o).count = 0 ∧ (u.off o).rounds = []

/-- The registers of the service die but those listed are as before. -/
def svcRegsKept (s u : State) (l : List Fld) : Prop :=
  ∀ k, k ∉ l.map (fun f => f.key 0 0) → Sparse.get 0 u.svc.regs k = Sparse.get 0 s.svc.regs k

/-- Of the service die nothing but its registers and the account of the running tick's events differs, and no tile does. -/
def svcRegsOnly (s u : State) (l : List Fld) : Prop :=
  u.svc = { s.svc with regs := u.svc.regs, fresh := u.svc.fresh } ∧ svcRegsKept s u l ∧ u.tiles = s.tiles ∧ u.pending = s.pending ∧ u.now = s.now

end Sys2Proof.Machine

/-- VIN_RISE, RAIL_GOOD, SYNTHESISER_LOCK, VIN_LOW, BROWNOUT, VIN_OVER_VOLTAGE, VIN_RECOVERY, POWER_CAP_DEMAND, RAIL_FAULT, OFFICE_ON_A,
OFFICE_ON_B and TRIP_WAIT_END (R639 to R642, R650): the sequence goes on only over steps whose rails are good; VSVC releases the service
die with a count of zero; below 5.4 V and above 42 V every die loses its state but fuses and NVM; a fault of an office's rail puts
that office in reset, and the second within 10 s latches it off; a rail that is not started is left alone. -/
def Obligations.SupplyAndRails : Prop :=
  ∀ (s : State) (o x : OfficeId) (mv pin : W16) (rail : Fin 9) (cause : BitVec 2) (v : W32) (k : Nat),
    let p := s.svc.pwr
    let r := rail.val
    let vin := F.PWR_STAT_VIN_MV
    let pwrOnly := fun (u : State) (q : Power) => u.svc.pwr = q ∧ u.offices = s.offices ∧ u.tiles = s.tiles ∧ u.out = s.out ∧ u.pending = s.pending
    let lost := fun (u : State) (started ovr : Bool) => diesInReset s u ∧ u.pending = s.pending ∧ u.now = s.now ∧
      u.svc = { fuses := s.svc.fuses, inReset := true,
                pwr := { started := started, ovr := ovr, on := 0, waiting := p.waiting || p.tripped, resetHeld := p.resetHeld } }
    let again := (p.faultAt.get x).any fun t => decide (s.now ≤ t + ticksOfUs 10000000)
    (p.started = false → 5700 < mv.toNat → mv.toNat ≤ 42000 → p.good 8 = false → gives (.vinRise mv) s fun u =>
      pwrOnly u { p with started := true, next := some 0 } ∧ u.srd vin = mv.toNat ∧ svcRegsKept s u [vin]) ∧
    ((p.started = true ∨ mv.toNat ≤ 5700) → exec (.vinRise mv) s = .next s) ∧
    (p.good r = true → exec (.railGood rail) s = .next s) ∧
    (p.good 8 = false → p.next = some 0 → p.locked = false → gives (.railGood 8) s fun u =>
      pwrOnly u { p with on := p.on ||| 256, next := some 1 } ∧ u.svc.inReset = false ∧ u.svc.count = 0 ∧ u.svc.fuses = s.svc.fuses ∧
        u.svc.regs = s.svc.regs) ∧
    (p.good r = false → p.next = some k → r ∈ stepRails k → k ≠ 0 → s.railWanted r = true →
      (∃ y ∈ stepRails k, y ≠ r ∧ s.railWanted y = true ∧ p.good y = false) → gives (.railGood rail) s fun u =>
        pwrOnly u { p with on := p.on ||| 2 ^ r } ∧ svcRegsKept s u [F.PWR_STAT_RAIL_FLT]) ∧
    (p.good r = false → p.next = some k → r ∉ stepRails k → exec (.railGood rail) s = .next s) ∧
    (p.good (3 + 2 * officeBit x) = false → p.next = none → p.officeStep.get x = some 0 → r = 3 + 2 * officeBit x →
      gives (.railGood rail) s fun u =>
        pwrOnly u { p with on := p.on ||| 2 ^ r, officeStep := p.officeStep.set x (some 1) } ∧ svcRegsKept s u [F.PWR_STAT_RAIL_FLT]) ∧
    ((p.good 8 = false ∨ p.locked = true) → exec .synthesiserLock s = .next s) ∧
    (p.good 8 = true → p.locked = false → p.next = none → s.owner = some o → gives .synthesiserLock s fun u =>
      u.svc.pwr = { p with locked := true } ∧ u.srd F.PWR_STAT_CLK_SYNC = 1 ∧ svcRegsKept s u [F.PWR_STAT_CLK_SYNC] ∧
        raised s u o 0x0E0A (le 1 1) ∧ u.tiles = s.tiles ∧ u.off (otherOffice o) = s.off (otherOffice o) ∧ u.out = s.out) ∧
    ((s.svc.inReset = true ∨ s.srd F.PWR_CFG_VIN_LOW * 100 ≤ mv.toNat) → exec (.vinLow mv) s = .next s) ∧
    (s.svc.inReset = false → mv.toNat < s.srd F.PWR_CFG_VIN_LOW * 100 →
      (s.srd F.PWR_STAT_VIN_LOW = 1 → gives (.vinLow mv) s fun u =>
        u.srd vin = mv.toNat ∧ svcRegsOnly s u [vin] ∧ u.offices = s.offices ∧ u.out = s.out) ∧
      (s.srd F.PWR_STAT_VIN_LOW ≠ 1 → s.owner = none → gives (.vinLow mv) s fun u =>
        u.srd vin = mv.toNat ∧ u.srd F.PWR_STAT_VIN_LOW = 1 ∧ u.srd F.PWR_CNT_VINLOW_COUNT = min (s.srd F.PWR_CNT_VINLOW_COUNT + 1) 0xFFFFFFFF ∧
          svcRegsOnly s u [vin, F.PWR_STAT_VIN_LOW, F.PWR_CNT_VINLOW_COUNT] ∧ ∀ a, raised s u a 0x0E08 (le 2 mv.toNat ++ le 1 0))) ∧
    (p.started = true →
      (mv.toNat < 5400 → gives (.brownout mv) s fun u => lost u false false ∧ u.out = s.out) ∧
      (p.ovr = false → 42000 < mv.toNat → gives (.vinOverVoltage mv) s fun u => lost u true true)) ∧
    ((p.started = false ∨ 5400 ≤ mv.toNat) → exec (.brownout mv) s = .next s) ∧
    ((p.started = false ∨ p.ovr = true ∨ mv.toNat ≤ 42000) → exec (.vinOverVoltage mv) s = .next s) ∧
    (p.ovr = true → mv.toNat < 40500 → p.good 8 = false → gives (.vinRecovery mv) s fun u =>
      pwrOnly u { p with ovr := false, next := some 0 } ∧ u.srd vin = mv.toNat ∧ svcRegsKept s u [vin]) ∧
    ((p.ovr = false ∨ 40500 ≤ mv.toNat) → exec (.vinRecovery mv) s = .next s) ∧
    (s.svc.inReset = false → gives (.powerCapDemand pin) s fun u =>
      u.srd F.PWR_PIN_P_IN = pin.toNat ∧ u.srd F.PWR_STAT_PCAP = b2n (decide (s.srd F.PWR_CFG_P_CAP * 100 < pin.toNat)) ∧
        svcRegsOnly s u [F.PWR_PIN_P_IN, F.PWR_STAT_PCAP] ∧ u.out = s.out) ∧
    (p.good r = false → p.next = none → (∀ a, p.officeStep.get a = none) → exec (.railFault rail cause) s = .next s) ∧
    (p.good 8 = true → cause.toNat ≤ 2 → gives (.railFault 8 cause) s fun u => lost u false false) ∧
    (p.good r = true → cause.toNat ≤ 2 → p.next = none → 3 ≤ r → r ≤ 6 → railOffice r = x → gives (.railFault rail cause) s fun u =>
      u.svc.pwr.on = p.on &&& (511 - 3 * 2 ^ (3 + 2 * officeBit x)) ∧ u.srd (offField x) = (if again then 2 else 1) ∧
        u.svc.pwr.faultAt.get x = some s.now ∧ (u.off x).inReset = true ∧ (u.off x).nvm = (s.off x).nvm ∧ u.mode x = .dormant ∧ u.tiles = s.tiles ∧
        regsKept s u (otherOffice x) [] ∧
        u.srd F.PWR_CNT_RAILFLT_COUNT = min (s.srd F.PWR_CNT_RAILFLT_COUNT + 1) 0xFFFFFFFF) ∧
    (p.good 7 = true → cause.toNat ≤ 2 → p.next = none → s.svc.emt.flash = none → gives (.railFault 7 cause) s fun u =>
      u.svc.pwr = { p with on := p.on &&& (511 - 0x80) } ∧ u.srd F.PWR_STAT_EMT_OFF = 1 ∧ u.tiles = s.tiles ∧
        u.srd F.PWR_STAT_RAIL_FLT = (s.srd F.PWR_STAT_RAIL_FLT ||| 128) % 256) ∧
    (writable s o F.PWR_CTL_OFFICE_ON_A.off v.toNat → s.srd (offField x) = 1 → p.officeStep.get x = none →
      v.getLsbD (31 - officeBit x) = true → v.getLsbD (30 + officeBit x) = false →
      (gives (.officeOnA o v) s fun u => u.svc = { s.svc with pwr := { p with officeStep := p.officeStep.set x (some 0) } } ∧ u.tiles = s.tiles ∧
        u.off (otherOffice o) = s.off (otherOffice o) ∧ regsKept s u o [] ∧ u.out = s.out) ∧
      gives (.officeOnB o v) s fun u => u.svc = { s.svc with pwr := { p with officeStep := p.officeStep.set x (some 0) } } ∧ u.tiles = s.tiles ∧
        u.off (otherOffice o) = s.off (otherOffice o) ∧ regsKept s u o [] ∧ u.out = s.out) ∧
    ((s.takesWrites o = false) → exec (.officeOnA o v) s = .next s ∧ exec (.officeOnB o v) s = .next s) ∧
    (p.waiting = true → p.tripped = false → p.next = none → exec .tripWaitEnd s = .next (s.modPwr fun q => { q with waiting := false })) ∧
    ((p.waiting = false ∨ p.tripped = true) → exec .tripWaitEnd s = .next s)

/-- RESET_N_ASSERT, RESET_N_RELEASE, ANALOGUE_TRIP and REBOOT (R475, R501, R503, R650, R658, R710): the offices and the tiles go into reset
and keep nothing but their NVM, the fuses stay as programmed; the trip leaves VSVC alone on and is latched with its diodes; RESET_N
releases a latched trip; the release starts the dies only when the rails are up. A reboot is answered before it is done, and
refused in a mode that does not permit it. -/
def Obligations.ResetTripAndReboot : Prop :=
  ∀ (s : State) (o : OfficeId) (tag : W16) (diodes : BitVec 7) (fail : BitVec 4),
    let p := s.svc.pwr
    let held := { p with resetHeld := true, tripped := false, tileFault := false, faultAt := ⟨none, none⟩, officeStep := ⟨none, none⟩, levelAt := none }
    let lb := (s.off o).lb
    let free := (s.off o).inReset = false ∧ lb.doeError = false ∧ lb.job.isSome = false ∧ s.mode o ≠ .loading
    let reply := fun (status detail : Nat) => Emission.letterbox o ([0xB0, BitVec.ofNat 8 status] ++ le 2 tag.toNat ++ le 4 0 ++ le 4 detail ++ le 4 0)
    let whole := fun (u : State) => diesInReset s u ∧ u.svc.fuses = s.svc.fuses ∧ u.pending = s.pending ∧ u.now = s.now
    (gives .resetNAssert s fun u => whole u ∧ u.out = s.out ∧
      ((p.started = false ∨ p.ovr = true ∨ p.on = 0x1FF ∨ p.next.isSome = true) → u.svc.pwr = held) ∧ u.svc.pwr.tripped = false ∧ u.svc.pwr.resetHeld = true) ∧
    (p.resetHeld = true → (p.started = false ∨ p.next.isSome = true ∨ p.tripped = true) →
      exec (.resetNRelease fail) s = .next (s.modPwr fun q => { q with resetHeld := false })) ∧
    (p.resetHeld = true → p.started = true → p.next = none → p.tripped = false → p.tilesOn = true → p.tripDue = false →
      (∀ a, p.officeOn a = false ∧ (s.off a).inReset = true) → gives (.resetNRelease fail) s fun u =>
        u.svc.pwr.resetHeld = false ∧ u.svc.count = 0 ∧ (∀ t, (u.tile t).inReset = false ∧ (u.tile t).count = 0) ∧
          (∀ a, (u.off a).inReset = true) ∧ u.svc.fuses = s.svc.fuses) ∧
    (p.resetHeld = false → (∀ a, (s.off a).inReset = true ∨ s.mode a ≠ .loading ∨ (s.off a).imageApplied = true) →
      exec (.resetNRelease fail) s = .next s) ∧
    ((diodes = 0 ∨ p.good 8 = false) → exec (.analogueTrip diodes) s = .next s) ∧
    (diodes ≠ 0 → p.good 8 = true → gives (.analogueTrip diodes) s fun u =>
      diesInReset s u ∧ u.svc.pwr.on = 0x100 ∧ u.svc.pwr.next = none ∧ u.svc.pwr.tripped = true ∧ u.svc.pwr.waiting = true ∧ u.svc.pwr.tripDue = true ∧
        u.svc.pwr.officeStep = ⟨none, none⟩ ∧ u.srd F.THM_TRIP_TRIPPED = 1 ∧ u.srd F.THM_TRIP_DIODE = (s.srd F.THM_TRIP_DIODE ||| diodes.toNat) % 128 ∧
        u.svc.ring.open_ = false ∧ u.svc.fuses = s.svc.fuses ∧ u.pending = s.pending ∧ u.now = s.now) ∧
    (free → (s.mode o).uploads = true → (s.owns o = true ∨ s.owner = none) → gives (.reboot o tag) s fun u =>
      whole u ∧ u.out = reply 0 0 :: s.out ∧ u.svc.pwr.resetHeld = true) ∧
    (free → ((s.mode o).uploads = false ∨ (s.owns o = false ∧ s.owner.isSome = true)) →
      exec (.reboot o tag) s = .next (s.emit (reply 5 (s.mode o).code))) ∧
    ((s.off o).inReset = true ∨ lb.doeError = true → exec (.reboot o tag) s = .next s) ∧
    ((s.off o).inReset = false → lb.doeError = false → (lb.job.isSome = true ∨ s.mode o = .loading) →
      exec (.reboot o tag) s = .next (s.emit (reply 2 0)))

/-- MODE_REQUEST, MODE, MODE_TRANSITION, HELD_ENTRY, NO_OWNER_TIMEOUT and STANDBY_ENTRY (R543, R656, R658, R660 to R664, R666, R668,
R686, R687): a request is checked, and a refused one leaves the mode and shows its cause; an accepted one waits for its tick, at
which the office enters the mode and shows the tick; out of Held the office first leaves QUIET and waits; Held cancels what is
pending and shows its cause; Standby follows Loading once every tile that is reached has locked. -/
def Obligations.ModeRequestsAndTransitions : Prop :=
  ∀ (s : State) (o : OfficeId) (v : W32) (f : Nat) (m : Mode) (p : PendingMode) (b : Bcast) (x : Nat × Nat) (t0 : Nat),
    let d := s.off o
    let code := v.toNat % 16
    let asked := writable s o F.GLB_MODE_REQ_GO.off v.toNat ∧ v.getLsbD 31 = true
    let quiet := ∀ y ∈ s.svc.ring.sched, y.op ≠ 5
    let tick := fun (u : State) => u.rdPair o F.GLB_MODE_TICK_LO_TICK_L F.GLB_MODE_TICK_HI_TICK_H
    let refused := fun (u : State) (code source : Nat) => u.mode o = s.mode o ∧ (u.off o).pendMode = d.pendMode ∧
      u.rd o F.GLB_MODE_REFUSE = f ∧ raised s u o 0x0812 (le 1 code ++ le 1 f ++ le 1 source) ∧ u.tiles = s.tiles ∧ kept s u
    let entered := fun (u : State) (m : Mode) (te : Nat) => u.mode o = m ∧ (u.off o).pendMode = none ∧ (quiet → tick u = te % 2 ^ 64) ∧ kept s u
    let exit := fun (u : State) (te : Nat) (sched : Bool) => u.mode o = .held ∧ (u.off o).loadedAt = some s.now ∧ (u.off o).quietAt = none ∧
      (u.off o).pendMode = some ⟨.standby, BitVec.ofNat 64 te, sched⟩ ∧ u.rd o F.GLB_MODE_PEND_MODE = 4 ∧ u.tiles = s.tiles ∧ kept s u
    let bcast := BitVec.ofNat 64 (s.effectiveTick o)
    (asked → s.modeFault o code false = f → f ≠ 0 → gives (.modeRequest o v) s fun u => refused u code 0 ∧ u.svc = s.svc ∧ u.out = s.out) ∧
    (asked → s.modeFault o code false = 0 → Mode.ofCode code = some m → gives (.modeRequest o v) s fun u =>
      (u.off o).pendMode = some ⟨m, bcast, false⟩ ∧ u.rd o F.GLB_MODE_PEND_MODE = m.code ∧ u.rd o F.GLB_MODE_PEND_SCHED = 0 ∧
        tick u = bcast.toNat ∧ u.mode o = s.mode o ∧ onlyOff s u o ∧ u.out = s.out) ∧
    (d.pendMode = none → exec (.modeTransition o) s = .next s) ∧
    (d.pendMode = some p →
      ((s.owns o = false ∨ d.loadedAt.isSome = true ∨ tickLt d.count.toNat p.atCount.toNat = true) → exec (.modeTransition o) s = .next s) ∧
      (s.owns o = true → d.loadedAt = none → tickLt d.count.toNat p.atCount.toNat = false →
        (s.mode o ≠ .held → gives (.modeTransition o) s fun u => entered u p.target p.atCount.toNat) ∧
        (s.mode o = .held → gives (.modeTransition o) s fun u => exit u p.atCount.toNat p.sched))) ∧
    (s.dueOp = none → exec .mode s = .next s) ∧
    (s.dueOp = some b → (b.op ≠ 5 ∨ s.transitionFirst b = true) → exec .mode s = .next s) ∧
    (s.dueOp = some b → b.op = 5 → s.transitionFirst b = false → s.owner = some o →
      let c := ofLe (b.arg.take 1) % 16
      (s.modeFault o c true = f → f ≠ 0 → gives .mode s fun u => refused u c 1 ∧ u.svc.ring.sched = s.svc.ring.sched.erase b) ∧
      (s.modeFault o c true = 0 → Mode.ofCode c = some m → s.mode o ≠ .held → gives .mode s fun u =>
        u.mode o = m ∧ (u.off o).pendMode = none ∧ kept s u ∧ u.svc.ring.sched = s.svc.ring.sched.erase b)) ∧
    (d.toHeld = none → exec (.heldEntry o) s = .next s) ∧
    (d.toHeld = some x →
      ((tickLt d.count.toNat x.2 = true ∨ s.mode o ∈ [.dormant, .loading, .fallback, .held]) → exec (.heldEntry o) s = .next s) ∧
      (tickLt d.count.toNat x.2 = false → s.mode o ∈ [.standby, .calibration, .streaming, .selective] → gives (.heldEntry o) s fun u =>
        entered u .held x.2 ∧ (u.off o).toHeld = none ∧ u.rd o F.GLB_MODE_HELD_CAUSE = x.1 % 16)) ∧
    (d.inReset = false → d.twin.noOwnerNoted = false → d.twin.noOwnerSince = some t0 → t0 + 150000 ≤ s.now →
      gives (.noOwnerTimeout o) s fun u => (u.off o).twin.noOwnerNoted = true ∧ u.mode o = s.mode o ∧
        raised s u o 0x0A0C (le 1 (s.votesFor o 0) ++ le 1 (s.votesFor o 1) ++ le 1 (s.heardMask o)) ∧
        (u.off o).toHeld = (if s.mode o = .standby ∨ (s.mode o).isData = true then some (d.toHeld.getD (3, s.nextBoundary o)) else d.toHeld) ∧
        onlyOff s u o ∧ regsKept s u o [] ∧ u.out = s.out) ∧
    ((d.inReset = true ∨ d.twin.noOwnerNoted = true ∨ d.twin.noOwnerSince = none) → exec (.noOwnerTimeout o) s = .next s) ∧
    (s.owner = some o → d.loadedAt = some t0 →
      (s.mode o ≠ .loading → s.mode o ≠ .held → exec .standbyEntry s = .next s) ∧
      (s.unlockedTiles o t0 ≠ [] → s.now < t0 + ticksOfUs 100000 → exec .standbyEntry s = .next s) ∧
      (s.unlockedTiles o t0 = [] → s.mode o = .loading → gives .standbyEntry s fun u =>
        entered u .standby d.count.toNat ∧ (u.off o).loadedAt = none ∧ u.svc.sl.configured = true ∧
          u.rd o F.GLB_BOOT_MS = min 65535 ((s.now - d.leftResetAt) / ticksOfUs 1000)) ∧
      (s.unlockedTiles o t0 = [] → s.mode o = .held → gives .standbyEntry s fun u =>
        entered u .standby d.count.toNat ∧ (u.off o).loadedAt = none ∧ u.rd o F.THM_STAT_STOPPED = 0)) ∧
    (s.owner = none → exec .standbyEntry s = .next s)

namespace Sys2Proof.Machine

/-- Nothing but the service die differs. -/
def onlySvc (s u : State) : Prop := u.tiles = s.tiles ∧ u.offices = s.offices ∧ u.pending = s.pending ∧ u.now = s.now

end Sys2Proof.Machine

/-- TIME_BASE_START, TB_START, PPSIN_EDGE, SERVO_HOLDOVER, TOD_MESSAGE_RX, REFIN_LOSS, REFIN_RETURN, SYNC_SEND, EPOCH_BOUNDARY and
TB_COUNT_READ (R24, R374, R379, R380, R383, R384, R386 to R388, R398, R409, R413): the start loads zero in every die and an epoch with
the start's postmark; a start that is not permitted is refused; an edge outside the window and a bad message count and change
nothing else of the time base; an accepted edge moves the servo by the phase error; an epoch takes the head's increment and quality. A start at an edge waits for the boundary at or after it, a free start for the next tick; that
an edge before the start is held against the postmark of R711 is log entry 38. -/
def Obligations.TimeBaseOfTheHead : Prop :=
  ∀ (s : State) (o : OfficeId) (v : W32) (pm : Postmark) (st tk : Nat) (fine : BitVec 7) (bytes : List Byte) (win : Bool),
    let c := s.svc.count.toNat
    let t := s.svc.tod
    let x := s.svc.servo
    let w := fun ofs n => ofLe ((bytes.drop ofs).take n)
    let counted := fun (u : State) (f : Fld) => u.srd f = min (s.srd f + 1) 0xFFFFFFFF
    let asked := writable s o F.TB_CTL_START.off v.toNat ∧ s.owns o = true ∧ v.getLsbD 31 = true ∧ s.isHead = true
    let late := s.srd F.TB_STAT_TOD_OK = 1 ∧ s.startSec ≠ 0 ∧ s.startSec ≤ t.known
    let e := offSecond (s.edgeUnits fine.toNat) + (t.corr * 2 ^ 32) / 1000
    let upd := servoUpdate x.incI e (s.srd F.TB_SERVO_KP_SHIFT) (s.srd F.TB_SERVO_KI_SHIFT) (s.srd F.TB_SERVO_SLEW)
    let ref := s.isHead = true ∧ s.srd F.TB_REF_REF_EN = 1
    let old := x.edgeAt.all fun a => decide (a + ticksOfUs 2000000 ≤ s.now)
    (x.due = none → exec .timeBaseStart s = .next s) ∧
    (x.due = some (pm, st, tk) → s.now < tk → exec .timeBaseStart s = .next s) ∧
    (x.due = some (pm, st, tk) → tk ≤ s.now → st < 5 → gives .timeBaseStart s fun u =>
      u.svc.count = 0 ∧ u.svc.epochs = [{ tick := 0, pm := pm, inc := nominalInc }] ∧ u.srd F.TB_STAT_STARTED = 1 ∧ u.srd F.TB_STAT_SYNCED = 0 ∧
        u.srd F.TB_STAT_UNSYNC = 0 ∧ u.srd F.TB_INC_INC = nominalInc ∧ u.tbState = st ∧ u.svc.servo.due = none ∧
        (∀ y, (u.tile y).count = if (s.tile y).inReset then (s.tile y).count else 0) ∧
        (∀ a, (u.off a).count = if (s.off a).inReset then (s.off a).count else 0) ∧ u.out = .syncPulse 0 true :: s.out ∧ kept s u) ∧
    (asked →
      ((s.mode o ≠ .standby ∨ late) → gives (.tbStart o v) s fun u =>
        raised s u o 0x0707 (le 1 1) ∧ onlyOff s u o ∧ regsKept s u o [] ∧ u.out = s.out) ∧
      (s.mode o = .standby → ¬ late → s.ppsReady = true → gives (.tbStart o v) s fun u =>
        u.svc = { s.svc with servo := { x with armed := true } } ∧ u.tiles = s.tiles ∧ regsKept s u o [] ∧ u.out = s.out) ∧
      (s.mode o = .standby → s.ppsReady = false → gives (.tbStart o v) s fun u =>
        u.svc.servo.armed = false ∧ u.svc.tod = { t with tod := false } ∧ u.svc.regs = s.svc.regs ∧ u.tiles = s.tiles ∧
          ∃ q, u.svc.servo.due = some ({ sec := BitVec.ofNat 48 s.startSec, ns := 0, frac := 0, quality := q }, tbFree, s.now + 1))) ∧
    (s.isHead = false → exec (.ppsinEdge fine) s = .next s ∧ exec (.todMessageRx bytes win) s = .next s ∧ exec .servoHoldover s = .next s ∧
      exec .refinLoss s = .next s ∧ exec .refinReturn s = .next s ∧ exec .syncSend s = .next s) ∧
    (s.isHead = true →
      (s.acceptsEdge fine.toNat = false → gives (.ppsinEdge fine) s fun u =>
        counted u F.TB_CNT_PPSREJ_COUNT ∧ u.svc.servo = x ∧ u.svc.tod = t ∧ svcRegsKept s u [F.TB_CNT_PPSREJ_COUNT] ∧
          u.tiles = s.tiles) ∧
      (s.acceptsEdge fine.toNat = true → x.armed = false → s.srd F.TB_STAT_STARTED = 0 → gives (.ppsinEdge fine) s fun u =>
        u.srd F.TB_STAT_PPS_OK = 1 ∧ u.svc.servo = { x with edgeAt := some s.now } ∧ u.svc.tod = { t with seen := false, next := t.next.map (· + 1) } ∧
          svcRegsKept s u [F.TB_STAT_PPS_OK] ∧ onlySvc s u ∧ u.out = s.out) ∧
      (s.acceptsEdge fine.toNat = true → x.armed = true → (s.startSec = 0 ∨ s.startSec = t.next.getD 0) → gives (.ppsinEdge fine) s fun u =>
        u.svc.servo.armed = false ∧ (∃ q, u.svc.servo.due = some (q, tbAcquiring, if fine = 0 then s.now else s.now + 1)) ∧ u.srd F.TB_STAT_PPS_OK = 1 ∧ onlySvc s u) ∧
      (s.acceptsEdge fine.toNat = true → x.armed = false → s.srd F.TB_STAT_STARTED = 1 → s.tbState = tbLocked →
        gives (.ppsinEdge fine) s fun u => u.svc.servo.incI = upd.1 ∧ u.svc.servo.incNext = some (upd.2.1, (c + 2 ^ 19) % 2 ^ 64) ∧
          u.srd F.TB_PPS_ERR_E_PS = ofInt 32 (satI 32 (roundDiv (e * 1000) (2 ^ 32))) % 2 ^ 32 ∧ u.tbState = tbLocked ∧ u.svc.count = s.svc.count ∧
          u.svc.epochs = s.svc.epochs ∧ u.tiles = s.tiles)) ∧
    (s.isHead = true → old = false → exec .servoHoldover s = .next s) ∧
    (s.isHead = true → old = true →
      (s.tbState = tbLocked → gives .servoHoldover s fun u => u.srd F.TB_STAT_PPS_OK = 0 ∧ u.tbState = tbHoldover ∧
        u.svc.servo = { x with holdAt := s.now, run := 0 } ∧ u.tiles = s.tiles ∧ u.out = s.out) ∧
      (s.tbState ≠ tbLocked → exec .servoHoldover s = .next (s.swr F.TB_STAT_PPS_OK 0))) ∧
    (s.isHead = true →
      (todValid bytes win = false → gives (.todMessageRx bytes win) s fun u =>
        counted u F.TB_CNT_TODERR_COUNT ∧ u.svc.tod = { t with run := 0, seen := true } ∧ svcRegsKept s u [F.TB_CNT_TODERR_COUNT] ∧ u.tiles = s.tiles) ∧
      (todValid bytes win = true → s.srd F.TB_STAT_STARTED = 0 → t.run = 1 → t.lastSec.map (· + 1) = some (w 4 6) → gives (.todMessageRx bytes win) s fun u =>
        u.svc.tod = { t with next := some (w 4 6), lastSec := some (w 4 6), run := 2, seen := true, acc := w 12 1, corr := toInt 32 (w 16 4) } ∧ u.srd F.TB_STAT_TOD_OK = 1 ∧
          u.srd F.TB_UTC_UTC_OFF = w 10 2 ∧ u.srd F.TB_UTC_LEAP_ADD = bitsOf (w 3 1) 1 1 ∧ u.srd F.TB_UTC_LEAP_SUB = bitsOf (w 3 1) 2 1 ∧
          svcRegsKept s u [F.TB_STAT_TOD_OK, F.TB_UTC_UTC_OFF, F.TB_UTC_LEAP_ADD, F.TB_UTC_LEAP_SUB] ∧ onlySvc s u ∧ u.out = s.out)) ∧
    (ref → s.owner = some o →
      (s.srd F.TB_STAT_REFLOSS = 0 → exec .refinReturn s = .next (s.swr F.TB_STAT_REFLOCK 1) ∧ gives .refinLoss s fun u =>
        u.srd F.TB_STAT_REFLOSS = 1 ∧ u.srd F.TB_STAT_REFLOCK = 0 ∧ raised s u o 0x070B (le 1 0) ∧ regsKept s u o [] ∧
          svcRegsOnly s u [F.TB_STAT_REFLOSS, F.TB_STAT_REFLOCK] ∧ u.out = s.out) ∧
      (s.srd F.TB_STAT_REFLOSS = 1 → exec .refinLoss s = .next s ∧ gives .refinReturn s fun u =>
        u.srd F.TB_STAT_REFLOSS = 0 ∧ u.srd F.TB_STAT_REFLOCK = 1 ∧ raised s u o 0x070B (le 1 1) ∧ regsKept s u o [] ∧
          svcRegsOnly s u [F.TB_STAT_REFLOSS, F.TB_STAT_REFLOCK] ∧ u.out = s.out)) ∧
    ((s.srd F.TB_STAT_STARTED = 0 ∨ c % 65536 ≠ 0) → exec .syncSend s = .next s) ∧
    (s.isHead = true → s.srd F.TB_STAT_STARTED = 1 → c % 65536 = 0 → c % 2 ^ 20 ≠ 2 ^ 19 + 2 ^ 16 → s.portUp .E = true → s.portUp .W = true →
      s.svc.ring.e.sending = none → s.svc.ring.w.sending = none →
      let ws := ringWords (le 8 c ++ le 8 0 ++ le 4 (s.srd F.TB_INC_INC) ++ le 2 s.svc.ring.syncSeq ++ le 2 s.headQuality.toNat)
      gives .syncSend s fun u => u.out = .ring .W (rgHeader 0 s.modid 0 true false ws.length) ws :: .ring .E (rgHeader 0 s.modid 0 false false ws.length) ws :: s.out ∧
        (∃ a b, u.svc = { s.svc with ring := { s.svc.ring with
          syncSeq := (s.svc.ring.syncSeq + 1) % 65536, e := { s.svc.ring.e with sending := a }, w := { s.svc.ring.w with sending := b } } }) ∧
        onlySvc s u) ∧
    ((c % 2 ^ 20 ≠ 0 ∨ (s.svc.ring.startPending = false ∧ s.srd F.TB_STAT_STARTED = 0)) → exec .epochBoundary s = .next s) ∧
    (c % 2 ^ 20 = 0 → s.svc.ring.startPending = false → s.srd F.TB_STAT_STARTED = 1 → (∀ y ∈ s.svc.epochs.head?, y.tick ≠ c) →
      (∀ b ∈ s.svc.ring.sched, b.op ≠ 1) → s.isHead = true → gives .epochBoundary s fun u =>
        u.svc.epochs = (({ tick := c, pm := { (s.postmarkAt c).1 with quality := s.headQuality }, inc := s.incAt c } : Epoch) :: s.svc.epochs).take 64 ∧
          u.srd F.TB_INC_INC = s.incAt c % 2 ^ 32 ∧ u.svc.ring.sched = s.svc.ring.sched ∧ u.svc.count = s.svc.count ∧ u.tiles = s.tiles ∧ kept s u) ∧
    ((s.off o).inReset = false → (s.off o).d3hot = false → s.answersRead o 0x0100008 = true → gives (.tbCountRead o) s fun u =>
      u.out = .completion o [BitVec.ofNat 32 c] false :: s.out ∧ Sparse.get 0 (u.off o).latch 0x010000C = c / 2 ^ 32 ∧
        u.srd F.TB_PM_NS_NS = s.postmarkNow.ns.toNat ∧ u.srd F.TB_PM_FRAC_FRAC = s.postmarkNow.frac.toNat ∧ u.svc.count = s.svc.count ∧ u.tiles = s.tiles)

/-- ROUND_BOUNDARY (R20, R25, R26, R76, R120, R526): once for each boundary the check word goes out; a die whose low 16 bits of the round
agree keeps its count, one whose bits differ waits, and takes the service die's count at a later boundary; an office reports its
agreement as its health; clears passed on to a tile take effect. Between boundaries the command does nothing. -/
def Obligations.RoundBoundaryKeepsDiesInStep : Prop :=
  ∀ (s : State) (fail : BitVec 3) (t : Fin 4) (o : OfficeId),
    let c := s.svc.count.toNat
    let size := 2 ^ s.svc.roundShift
    let r := c / size
    let d := s.tile t
    let e := s.off o
    let agree := fun (own : W64) => decide (own.toNat / size % 65536 = r % 65536)
    ((s.svc.inReset = true ∨ c % size ≠ 0 ∨ s.svc.boundaryAt = some (s.now, c)) → exec (.roundBoundary fail) s = .next s) ∧
    (s.svc.inReset = false → c % size = 0 → s.svc.boundaryAt ≠ some (s.now, c) → gives (.roundBoundary fail) s fun u =>
      u.svc.boundaryAt = some (s.now, c) ∧ u.svc.count = s.svc.count ∧ .syncPulse (BitVec.ofNat 16 r) false ∈ u.out ∧ kept s u ∧
        (d.inReset = true → (u.tile t).inReset = true ∧ (u.tile t).count = d.count ∧ (u.tile t).reload = d.reload) ∧
        (d.inReset = false →
          (u.tile t).count = (if d.reload.any fun a => decide (a < s.now) then s.svc.count else d.count) ∧
          (u.tile t).reload = (match d.reload with
            | some a => if a < s.now then none else some a
            | none => if agree d.count then none else some s.now) ∧ (u.tile t).clrFe = 0 ∧ (u.tile t).clrTe = 0) ∧
        (e.inReset = false →
          (u.off o).count = (if e.reload.any fun a => decide (a < s.now) then s.svc.count else e.count) ∧
          (u.off o).reload = (match e.reload with
            | some a => if a < s.now then none else some a
            | none => if agree e.count then none else some s.now)))

namespace Sys2Proof.Machine

/-- The transmitter of a port, which was free, has begun a frame (R392, R395), and nothing else differs. -/
def portBegins (s u : State) (p : RingPort) (hdr : W32) (words : List W32) (own : Bool) : Prop :=
  u = (s.modRPort p fun x => { x with sending := some ({ hdr := hdr, words := words, own := own }, s.now + 5 * (7 + 4 * words.length)) }).emit
    (.ring p hdr words)

/-- Of a port only what it sends, and what waits there, differs. -/
def sendingOnly (x y : RPort) : Prop := y = { x with sending := y.sending, waiting := y.waiting, parked := y.parked }

end Sys2Proof.Machine

/-- SYNC_FRAME_RX, RING_HOLDOVER, PDREQ_SEND, PDREQ_RX, PDRESP_RX, RING_PORT_TRAINING_PASS, RING_PORT_OPEN, RING_PORT_ERRORS,
RING_PORT_RETRY, RETRAIN_E and RETRAIN_W (R390, R393, R394, R396, R397, R399, R402, R404, R420, R421): no frame is taken on a port that is
not UP, a bad one counts, one of another type is nothing; a port comes UP only with a peer that may stand there; delays are asked
for and answered on the same cable; a member passes a SYNC frame on and follows it once the port has eight samples. Every frame comes through
the FIFO of its port (R23); a SYNC frame suspends another that is being sent (R395). -/
def Obligations.RingPortsAndDelays : Prop :=
  ∀ (s : State) (o : OfficeId) (p : RingPort) (f : RingFrame) (fine : BitVec 7) (res : BitVec 6) (a b : W64) (peer : Byte) (v : W32) (t1 : Nat),
    let r := s.svc.ring
    let x := r.port p
    let st := s.srd (portStateFld p)
    let bytes := ringBytes f.words
    let w := fun ofs n => ofLe ((bytes.drop ofs).take n)
    let z := (s.crossRing p f).1
    let came := (s.crossRing p f).2 = true
    let good := s.portUp p = true ∧ ringGood f = true ∧ came ∧ rgWrapped f.hdr = false
    let bad := fun (u : State) => u.srd F.RING_CNT_CRC_COUNT = min (s.srd F.RING_CNT_CRC_COUNT + 1) 0xFFFFFFFF ∧
      svcRegsOnly z u [F.RING_CNT_CRC_COUNT] ∧ u.out = s.out
    let moved := fun (u : State) (q : RingPort) (n : Nat) => u.srd (portStateFld q) = n ∧
      u.svc.ring.port q = { since := s.now, pdSeq := (r.port q).pdSeq } ∧ ((r.port q).waiting = [] → u.svc.ring.port (otherPort q) = r.port (otherPort q)) ∧
        u.srd (portStateFld (otherPort q)) = s.srd (portStateFld (otherPort q)) ∧ u.svc.ring.sched = r.sched ∧ u.tiles = s.tiles ∧ kept s u
    let seq := (x.pdSeq + 1) % 65536
    let hdr := fun (type : Nat) (bs : List Byte) => rgHeader type s.modid 0 (decide (p = .W)) false ((bs.length + 3) / 4)
    let y := r.port (otherPort p)
    let onward := fun (words : List W32) => rgHeader (rgType f.hdr) (rgOrigin f.hdr) (rgHops f.hdr + 1) (rgWest f.hdr) false words.length
    let rhold := s.isHead = false ∧ r.open_ = true ∧ s.srd F.TB_STAT_RHOLD = 0
    (s.portUp p = false → exec (.syncFrameRx p f fine res) s = .next s ∧ exec (.pdreqRx p f a b) s = .next s ∧ exec (.pdrespRx p f a) s = .next s ∧
      exec (.pdreqSend p) s = .next s ∧ exec (.ringPortErrors p) s = .next s) ∧
    (s.portUp p = true → (ringGood f = false ∨ ¬ came) →
      gives (.syncFrameRx p f fine res) s bad ∧ gives (.pdreqRx p f a b) s bad ∧ gives (.pdrespRx p f a) s bad) ∧
    (s.portUp p = true → ringGood f = true → came → (rgType f.hdr ≠ 0 → exec (.syncFrameRx p f fine res) s = .next z) ∧
      (rgType f.hdr ≠ 1 → exec (.pdreqRx p f a b) s = .next z) ∧ (rgType f.hdr ≠ 2 → exec (.pdrespRx p f a) s = .next z)) ∧
    (s.portUp p = true → x.sending = none → (∀ y ∈ x.pdAt, y + 2 ^ 18 ≤ s.now) → gives (.pdreqSend p) s fun u =>
      let bs := le 2 seq ++ le 1 s.modid ++ le 1 (portCode p)
      portBegins (s.modRPort p fun x => { x with pdSeq := seq, t1 := some (s.svc.count.toNat * 128 % 2 ^ 64), pdAt := some s.now }) u p
        (hdr 1 bs) (ringWords bs) true) ∧
    (x.sending.any (fun q => decide (s.now < q.2)) = true → exec (.pdreqSend p) s = .next s) ∧
    (x.pdAt.any (fun y => decide (s.now < y + 2 ^ 18)) = true → exec (.pdreqSend p) s = .next s) ∧
    (good → rgType f.hdr = 1 → x.sending = none → gives (.pdreqRx p f a b) s fun u =>
      let bs := bytes.take 2 ++ le 1 s.modid ++ le 1 (portCode p) ++ le 4 0 ++ le 8 a.toNat ++ le 8 b.toNat
      portBegins z u p (hdr 2 bs) (ringWords bs) true) ∧
    (good → rgType f.hdr = 2 → (x.t1 = none → exec (.pdrespRx p f a) s = .next z) ∧
      (x.t1 = some t1 → w 0 2 ≠ x.pdSeq → exec (.pdrespRx p f a) s = .next z) ∧
      (x.t1 = some t1 → w 0 2 = x.pdSeq → s.peerOk p (w 2 1) = true → x.samples < 7 → gives (.pdrespRx p f a) s fun u =>
        u.svc.ring.port p = { x with t1 := none, samples := x.samples + 1, delay := 0
                                     sum := x.sum + (toInt 64 (ofInt 64 ((a.toNat : Int) - t1)) - toInt 64 (ofInt 64 ((w 16 8 : Int) - w 8 8))) * 256 } ∧
          u.srd (portDelayFld p) = 0 ∧ svcRegsKept s u [portDelayFld p] ∧ onlySvc s u ∧ u.out = s.out)) ∧
    ((r.open_ = false ∨ st ≠ rpTraining) → exec (.ringPortTrainingPass p peer) s = .next s) ∧
    (r.open_ = true → st = rpTraining → s.peerOk p peer.toNat = true → s.owner = some o → gives (.ringPortTrainingPass p peer) s fun u =>
      moved u p rpUp ∧ u.srd (portPeerFld p) = peer.toNat ∧ raised s u o 0x0702 (le 1 (portCode p) ++ le 1 peer.toNat)) ∧
    (r.open_ = true → st = rpTraining → s.peerOk p peer.toNat = false → gives (.ringPortTrainingPass p peer) s fun u =>
      moved u p rpOpen ∧ u.srd (portPeerFld p) = peer.toNat) ∧
    (r.open_ = false → exec (.ringPortOpen p none) s = .next s ∧ exec (.ringPortOpen p (some peer)) s = .next s ∧ exec (.ringPortRetry p) s = .next s) ∧
    (r.open_ = true → st = rpTraining → x.since + ticksOfUs 10000 ≤ s.now → s.owner = some o → gives (.ringPortOpen p none) s fun u =>
      moved u p rpOpen ∧ raised s u o 0x0701 (le 1 (portCode p) ++ le 1 0)) ∧
    (r.open_ = true → st ≠ rpOpen → s.peerOk p peer.toNat = false → gives (.ringPortOpen p (some peer)) s fun u => moved u p rpOpen) ∧
    (s.portUp p = true → gives (.ringPortErrors p) s fun u => moved u p rpTraining) ∧
    (r.open_ = true → st = rpOpen → x.since + ticksOfUs 1000000 ≤ s.now → gives (.ringPortRetry p) s fun u => moved u p rpTraining) ∧
    (st ≠ rpOpen → exec (.ringPortRetry p) s = .next s) ∧
    (writable s o F.RING_CTL_CRC.off v.toNat → r.open_ = true → v.toNat % 8 = 0 →
      (v.getLsbD 31 = true → v.getLsbD 30 = false → gives (.retrainE o v) s fun u => moved u .E rpTraining) ∧
      (v.getLsbD 30 = true → v.getLsbD 31 = false → gives (.retrainW o v) s fun u => moved u .W rpTraining)) ∧
    (rhold → r.syncAt.getD 0 + 2 ^ 20 ≤ s.now → s.owner = some o → gives .ringHoldover s fun u =>
      u.srd F.TB_STAT_RHOLD = 1 ∧ raised s u o 0x070E (le 1 0) ∧ svcRegsOnly s u [F.TB_STAT_RHOLD] ∧ u.out = s.out) ∧
    ((¬ rhold ∨ s.now < r.syncAt.getD 0 + 2 ^ 20) → exec .ringHoldover s = .next s) ∧
    (good → rgType f.hdr = 0 →
      ((rgOrigin f.hdr = s.modid ∨ x.samples < 8) → exec (.syncFrameRx p f fine res) s = .next z) ∧
      (rgOrigin f.hdr ≠ s.modid → 8 ≤ x.samples →
        let add : Int := s.linkDelay p (rgWest f.hdr) + ((res.toNat : Int) * 65536 - fine.toNat * 512)
        let words := ringWords (bytes.take 8 ++ le 8 (ofInt 64 (toInt 64 (ofLe ((bytes.drop 8).take 8)) + add)) ++ bytes.drop 16)
        (s.isHead = true → rgHops f.hdr < 510 → s.portUp (otherPort p) = true →
          (y.sending = none → gives (.syncFrameRx p f fine res) s fun u => portBegins z u (otherPort p) (onward words) words false) ∧
          (∀ q, y.sending = some q → s.now < q.2 → rgType q.1.hdr ≠ 0 → y.parked = none → gives (.syncFrameRx p f fine res) s fun u =>
            portBegins (z.modRPort (otherPort p) fun x => { x with parked := some (q.1, q.2 - s.now) }) u (otherPort p) (onward words) words false)) ∧
        (s.isHead = true → 510 ≤ rgHops f.hdr → exec (.syncFrameRx p f fine res) s = .next z) ∧
        (s.isHead = false → gives (.syncFrameRx p f fine res) s fun u =>
          u.svc.ring.syncAt = some s.now ∧ (s.srd F.TB_STAT_RHOLD ≤ 1 → u.srd F.TB_STAT_RHOLD = 0) ∧ u.tiles = s.tiles ∧ kept s u ∧
            (x.syncTick ≠ some (w 0 8) → (u.svc.ring.port p).ofs = s.syncOffset p f fine.toNat ∧ (u.svc.ring.port p).hops = rgHops f.hdr + 1 ∧
              u.srd (portOfsFld p) = ofInt 32 (satI 32 (s.syncOffset p f fine.toNat)) % 2 ^ 32))))

/-- BCAST_RX, SNAPSHOT, RESET, SM_REQUEST_SNAPSHOT, SM_REQUEST_RESET, SM_REQUEST_FLASH, SM_REQUEST_MODE, BARRIER_START, BARRIER_RX,
BARRIER_TIMEOUT and WRAP_EXPIRY (R394, R402, R405 to R408, R410, R411, R419): the first copy of a scheduled operation is held, one that
comes late is missed and counted, a copy is nothing; a request that is not permitted shows its ground and broadcasts nothing; at
its tick a SNAPSHOT queues one record and changes no counter, a RESET clears every counter but for the events of the tick (R14, log entry
79); each module joins a barrier once. Frames come through the FIFO of their port and go out as its transmitter is free (R395). -/
def Obligations.RingBroadcastsAndBarriers : Prop :=
  ∀ (s : State) (o : OfficeId) (p : RingPort) (f : RingFrame) (v : W32) (b : Bcast) (c : Instr),
    let r := s.svc.ring
    let bytes := ringBytes f.words
    let w := fun ofs n => ofLe ((bytes.drop ofs).take n)
    let z := (s.crossRing p f).1
    let good := s.portUp p = true ∧ ringGood f = true ∧ (s.crossRing p f).2 = true ∧ rgHops f.hdr < 510 ∧ s.portUp (otherPort p) = true ∧
      rgWrapped f.hdr = false
    let y := r.port (otherPort p)
    let onward := fun (words : List W32) => rgHeader (rgType f.hdr) (rgOrigin f.hdr) (rgHops f.hdr + 1) (rgWest f.hdr) false words.length
    let x : Bcast := { origin := rgOrigin f.hdr, seq := w 0 2, op := w 2 1, tick := w 4 8, arg := bytes.drop 12 }
    let ahead := (BitVec.ofNat 64 x.tick - s.svc.count).toNat
    let fresh := good ∧ rgType f.hdr = 3 ∧ x.origin ≠ s.modid ∧ 12 ≤ bytes.length ∧ r.seen.contains (x.origin, x.seq) = false
    let marked := fun (u : State) => u.svc.ring.seen = ((x.origin, x.seq) :: r.seen).take 64 ∧ u.tiles = s.tiles ∧ kept s u
    let asks := c = .smRequestSnapshot o v ∨ c = .smRequestReset o v ∨ c = .smRequestFlash o v ∨ c = .smRequestMode o v
    let op := v.toNat % 256
    let arg := s.srd F.RING_SM_ARG_ARG
    let tick := s.srd F.RING_SM_TICK_LO_TICK_L + s.srd F.RING_SM_TICK_HI_TICK_H * 2 ^ 32
    let due := s.dueOp = some b ∧ s.transitionFirst b = false
    let ph := ofLe (b.arg.take 2) % 4096
    let q := if ph < 2 then 0 else ph
    let rec_ : PhRecord := { kind := 3, round := s.roundOf (BitVec.ofNat 64 b.tick), bytes := s.snapshotRecord o b, at_ := s.now, queuedAt := s.now }
    let bid := (r.bid + 1) % 65536
    let st := s.barrierStatus
    let bar := [F.RING_BAR_STAT_BUSY, F.RING_BAR_STAT_DONE, F.RING_BAR_STAT_TIMEOUT, F.RING_BAR_STAT_COUNT, F.RING_BAR_RES_AND, F.RING_BAR_RES_OR]
    (s.portUp p = false → exec (.bcastRx p f) s = .next s ∧ exec (.barrierRx p f) s = .next s) ∧
    (good → rgType f.hdr = 3 → x.origin ≠ s.modid → r.seen.contains (x.origin, x.seq) = true →
      (y.sending = none → gives (.bcastRx p f) s fun u => portBegins z u (otherPort p) (onward f.words) f.words false) ∧
      (∀ q, y.sending = some q → s.now < q.2 → gives (.bcastRx p f) s fun u => u.out = s.out ∧
        { hdr := onward f.words, words := f.words, own := false } ∈ (u.svc.ring.port (otherPort p)).waiting)) ∧
    (fresh →
      (opScheduled x.op = true → 64 ≤ ahead → ahead < 2 ^ 63 → r.sched.length < 16 → gives (.bcastRx p f) s fun u =>
        marked u ∧ u.svc.ring.sched = r.sched ++ [x] ∧ u.svc.ring.arrived = r.arrived ∧ u.svc.ring.missed = r.missed) ∧
      (opScheduled x.op = true → (ahead < 64 ∨ 2 ^ 63 ≤ ahead ∨ 16 ≤ r.sched.length) → gives (.bcastRx p f) s fun u =>
        marked u ∧ u.svc.ring.sched = r.sched ∧ u.svc.ring.missed = true ∧
          u.srd F.RING_CNT_LATESM_COUNT = min (s.srd F.RING_CNT_LATESM_COUNT + 1) 0xFFFFFFFF) ∧
      ((x.op = 6 ∨ x.op = 7) → gives (.bcastRx p f) s fun u => marked u ∧ u.svc.ring.arrived = r.arrived ++ [x] ∧ u.svc.ring.sched = r.sched) ∧
      ((x.op = 0 ∨ 7 < x.op) → gives (.bcastRx p f) s fun u => marked u ∧ u.svc.ring.arrived = r.arrived ∧ u.svc.ring.sched = r.sched)) ∧
    (asks → s.takesWrites o = true → s.owns o = true → v.getLsbD 31 = true →
      (s.smFault o op arg tick ≠ 0 → gives c s fun u => u.srd F.RING_SM_STAT_RESULT = s.smFault o op arg tick ∧ u.svc.ring = r ∧
        raised s u o 0x0707 (le 1 (s.smFault o op arg tick)) ∧ u.tiles = s.tiles ∧ regsKept s u o [] ∧ u.out = s.out ∧ kept s u) ∧
      (s.smFault o op arg tick = 0 → 64 ≤ (BitVec.ofNat 64 tick - s.svc.count).toNat → r.seq < 65536 → gives c s fun u =>
        u.srd F.RING_SM_STAT_RESULT = 0 ∧ u.srd F.RING_SM_STAT_SEQ = r.seq ∧ u.svc.ring.seq = (r.seq + 1) % 65536 ∧
          u.svc.ring.sched = r.sched ++ [{ origin := s.modid, seq := r.seq, op := op, tick := tick, arg := le 4 arg }] ∧ u.tiles = s.tiles ∧ kept s u)) ∧
    (asks → s.takesWrites o = true → s.owns o = false → v.getLsbD 31 = true → gives c s fun u =>
      u.srd F.RING_SM_STAT_RESULT = 1 ∧ u.svc.ring = r ∧ u.tiles = s.tiles) ∧
    (asks → s.takesWrites o = false → exec c s = .next s) ∧
    (s.dueOp = none → exec .snapshot s = .next s ∧ exec .reset s = .next s) ∧
    (s.dueOp = some b → (b.op ≠ 2 ∨ s.transitionFirst b = true) → exec .snapshot s = .next s) ∧
    (s.dueOp = some b → (b.op ≠ 3 ∨ s.transitionFirst b = true) → exec .reset s = .next s) ∧
    (due → b.op = 2 → s.owner = some o → (∀ y ∈ ((s.off o).ph q).queue, y.kind ≠ 0) → gives .snapshot s fun u =>
      u.svc.ring.sched = r.sched.erase b ∧ ((u.off o).ph q).queue = ((s.off o).ph q).queue ++ [rec_] ∧ u.tiles = s.tiles ∧ kept s u ∧
        ∀ g ∈ counterFields ++ counterPairs, ∀ e ∈ g.elements, u.rd o g e.2.1 e.2.2 = s.rd o g e.2.1 e.2.2) ∧
    (due → b.op = 3 → s.owner = some o → gives .reset s fun u => u.svc.ring.sched = r.sched.erase b ∧ kept s u ∧
      (ofLe (b.arg.take 1) % 4 = 1 → (∀ t, u.tile t = { s.tile t with clrFe := 31, clrTe := 15 }) ∧
        ∀ g ∈ counterFields ++ counterPairs, (g.off < 0x0300100 ∨ 0x0300300 ≤ g.off) → ∀ e ∈ g.elements,
          u.rd o g e.2.1 e.2.2 = if s.rd o g e.2.1 e.2.2 = 0 then 0 else min (s.eventsNow o g e.2.1 e.2.2) (2 ^ g.w - 1)) ∧
      (ofLe (b.arg.take 1) % 4 = 2 → u.tiles = s.tiles ∧ ∀ t, (s.seq o t).running = true →
        (u.seq o t).running = true ∧ (u.seq o t).state = 0 ∧ (u.seq o t).c0 = 0 ∧ (u.seq o t).c1 = 0) ∧
      (ofLe (b.arg.take 1) % 4 = 0 → u.tiles = s.tiles)) ∧
    (writable s o F.RING_BAR_CMD_GO.off v.toNat → v.getLsbD 31 = true →
      (s.isHub = false → gives (.barrierStart o v) s fun u => u.srd F.RING_SM_STAT_RESULT = 2 ∧ u.svc.ring = r ∧ u.tiles = s.tiles) ∧
      (s.isHub = true → s.srd F.RING_BAR_STAT_BUSY = 1 → gives (.barrierStart o v) s fun u => onlyOff s u o ∧ regsKept s u o [] ∧ u.out = s.out) ∧
      (s.isHub = true → s.srd F.RING_BAR_STAT_BUSY = 0 → gives (.barrierStart o v) s fun u =>
        u.srd F.RING_BAR_STAT_BUSY = 1 ∧ (∃ a b, sendingOnly r.e a ∧ sendingOnly r.w b ∧
          u.svc.ring = { r with bid := bid, barAt := s.now, missed := false, epochFixed := false, lastBid := some bid, e := a, w := b }) ∧
          (s.portUp .E = true → r.e.sending = none →
            .ring .E (rgHeader 4 s.modid 0 false false 3) (barrierWords bid 1 st st) ∈ u.out) ∧ u.tiles = s.tiles ∧ kept s u)) ∧
    (good → rgType f.hdr = 4 → rgOrigin f.hdr = s.modid →
      ((s.srd F.RING_BAR_STAT_BUSY = 0 ∨ w 0 2 ≠ r.bid) → exec (.barrierRx p f) s = .next z) ∧
      (s.srd F.RING_BAR_STAT_BUSY = 1 → w 0 2 = r.bid → rgWest f.hdr = false → gives (.barrierRx p f) s fun u =>
        u.srd F.RING_BAR_STAT_BUSY = 0 ∧ u.srd F.RING_BAR_STAT_DONE = 1 ∧ u.srd F.RING_BAR_STAT_TIMEOUT = 0 ∧ u.srd F.RING_BAR_STAT_COUNT = w 2 1 ∧
          u.srd F.RING_BAR_RES_AND = w 4 2 ∧ u.srd F.RING_BAR_RES_OR = w 6 2 ∧ svcRegsOnly z u bar ∧ u.offices = s.offices ∧ u.out = s.out)) ∧
    (good → rgType f.hdr = 4 → rgOrigin f.hdr ≠ s.modid → y.sending = none →
      (r.lastBid = some (w 0 2) → gives (.barrierRx p f) s fun u => portBegins z u (otherPort p) (onward f.words) f.words false) ∧
      (r.lastBid ≠ some (w 0 2) → gives (.barrierRx p f) s fun u =>
        let ws := barrierWords (w 0 2) (w 2 1 + 1) (w 4 2 &&& st) (w 6 2 ||| st)
        portBegins (z.barrierTold (w 0 2)) u (otherPort p) (onward ws) ws false)) ∧
    (s.srd F.RING_BAR_STAT_BUSY = 1 → r.barAt + 2 ^ 20 ≤ s.now → gives .barrierTimeout s fun u =>
      u.srd F.RING_BAR_STAT_BUSY = 0 ∧ u.srd F.RING_BAR_STAT_DONE = 1 ∧ u.srd F.RING_BAR_STAT_TIMEOUT = 1 ∧ svcRegsOnly s u bar ∧ u.offices = s.offices) ∧
    ((s.srd F.RING_BAR_STAT_BUSY ≠ 1 ∨ s.now < r.barAt + 2 ^ 20) → exec .barrierTimeout s = .next s) ∧
    (s.srd F.RING_STAT_WRAP = 1 → r.wrapAt + 2 ^ 20 ≤ s.now → exec .wrapExpiry s = .next (s.swr F.RING_STAT_WRAP 0)) ∧
    ((s.srd F.RING_STAT_WRAP ≠ 1 ∨ s.now < r.wrapAt + 2 ^ 20) → exec .wrapExpiry s = .next s)

/-- START, STOP, APPLY, DISCARD, EVALUATION_DONE, CODE_DENSITY_PASS_END, INJECTION_STROBE, CALIBRATION_SEQUENCE_GO,
CALIBRATION_SEQUENCE_END, NVM_WINDOW_OPEN and NVM_WINDOW_WAIT_EXPIRY (R59, R60, R115, R488, R502, R631, R633, R634, R671): each bit of
`EMT_CAL_CTL` acts in the state it names and in no other; an evaluation accounts for every cell and rejects a campaign with too few;
outside the calibration state a strobe does nothing but is reported, though not while no office owns, which is the model's choice (log
entry 92), as it is that a pass goes by `LOG2N` as it stands at its end (log entry 93); a sequence starts only in Calibration, at a coming boundary; an
opened NVM window lets what waits run, and after 60 s it is given up. -/
def Obligations.CalibrationServiceMoves : Prop :=
  ∀ (s : State) (o : OfficeId) (t : Fin 4) (v : W32) (c : CalRun) (w : JobWork) (t0 : Nat),
    let d := s.off o
    let st := s.rd o F.EMT_CAL_STAT_STATE
    let state := fun (u : State) => u.rd o F.EMT_CAL_STAT_STATE
    let asks := fun (bit : Nat) => writable s o F.EMT_CAL_CTL_START.off v.toNat ∧ s.owns o = true ∧ v.toNat / 2 ^ 28 = 2 ^ bit
    let same := fun (u : State) => state u = st ∧ (u.off o).cal = d.cal ∧ (u.off o).mrg = d.mrg ∧ onlyOff s u o ∧ u.out = s.out
    let busy := s.flag o F.SORT_CD_STAT_BUSY = true ∧ s.owns o = true ∧ d.inReset = false
    let got := d.cd.reached (2 ^ (12 + s.rd o F.SORT_CD_CTL_LOG2N))
    let rounds := (s.roundOf d.count - d.cd.startRound).toNat
    let ended := 8192 ≤ got ∨ (s.rd o F.SORT_CD_TIMEOUT_LIMIT ≠ 0 ∧ s.rd o F.SORT_CD_TIMEOUT_LIMIT ≤ rounds)
    let skipped := fun (e : Tile) => regGet e.cnt F.SORT_FE_CNT_INJSKIP_COUNT t.val 0 =
      min (regGet (s.tile t).cnt F.SORT_FE_CNT_INJSKIP_COUNT t.val 0 + (s.tile t).injSkipped) 0xFFFFFFFF ∧ e.cells = (s.tile t).cells ∧
        e = { s.tile t with cnt := e.cnt, fresh := e.fresh }
    let goes := writable s o F.GLB_CALSEQ_GO.off v.toNat ∧ v.getLsbD 31 = true
    let start : CalRun := { slot := v.toNat % 16, fromRound := ((s.roundOf d.count).toNat + 1) % 2 ^ 48 }
    let quiet := d.pageWait = none ∧ d.cal.waitSince = none
    (asks 3 →
      (st = 0 → (s.mode o).isData = true → gives (.start o v) s fun u => state u = 1 ∧ u.rd o F.EMT_CAL_STAT_FLASHES = 0 ∧
        u.rd o F.EMT_CAL_XN_XN = 0 ∧ u.rd o F.EMT_CAL_XSUM_XSUM = 0 ∧ (u.off o).cal.walkN = [] ∧ (u.off o).cal.flashHits = [] ∧
        (u.off o).mrg.jobs = d.mrg.jobs ++ [.campaign] ∧ raised s u o 0x0D10 (le 1 (v.toNat % 2) ++ le 4 (s.rd o F.EMT_CAL_CAMP_CAMP_FLASHES)) ∧
          onlyOff s u o ∧ u.out = s.out) ∧
      ((st ≠ 0 ∨ (s.mode o).isData = false) → gives (.start o v) s same)) ∧
    (asks 2 → (st = 1 → gives (.stop o v) s fun u => state u = 2 ∧ (u.off o).cal = d.cal ∧ onlyOff s u o ∧ u.out = s.out) ∧
      (st ≠ 1 → gives (.stop o v) s same)) ∧
    (asks 1 →
      (st = 3 → s.nvmOpen o = false → d.cal.waitSince = none → gives (.apply o v) s fun u =>
        state u = 4 ∧ (u.off o).cal = { d.cal with waitSince := some s.now } ∧ onlyOff s u o ∧ u.out = s.out) ∧
      (st ≠ 3 → gives (.apply o v) s same)) ∧
    (asks 0 → (st = 3 → d.cal.waiting = [] → gives (.discard o v) s fun u => state u = 0 ∧ (u.off o).cal = d.cal ∧ onlyOff s u o ∧ u.out = s.out) ∧
      (st ≠ 3 → gives (.discard o v) s same)) ∧
    ((d.inReset = true ∨ s.owns o = false ∨ st ≠ 2) → exec (.evaluationDone o) s = .next s) ∧
    (d.inReset = false → s.owns o = true → st = 2 → d.cal.waiting = [] → s.flag o F.EMT_CAL_CFG_AUTO_APPLY = false →
      gives (.evaluationDone o) s fun u =>
        let total := d.litDistricts.length * 4096
        let acc := u.rd o F.EMT_CAL_RES_ACCEPT
        acc + u.rd o F.EMT_CAL_RES2_REJECT = total ∧ onlyOff s u o ∧ u.out = s.out ∧
          (acc * 256 < s.rd o F.EMT_CAL_CFG_MIN_CELLS * total → state u = 0 ∧ u.rd o F.EMT_CAL_STAT_CAUSE = 0x10) ∧
          (s.rd o F.EMT_CAL_CFG_MIN_CELLS * total ≤ acc * 256 → state u = 3)) ∧
    ((¬ busy ∨ ¬ ended) → exec (.codeDensityPassEnd o) s = .next s) ∧
    (busy → ended → st ≠ 0 → gives (.codeDensityPassEnd o) s fun u =>
      u.rd o F.SORT_CD_STAT_BUSY = 0 ∧ u.rd o F.SORT_CD_STAT_DONE = 1 ∧ u.rd o F.SORT_CD_STAT_SHORT = (8192 - got) % 2 ^ 14 ∧
        (∃ l, (u.off o).cal.waiting = d.cal.waiting ++ l) ∧ raised s u o 0x0122 (le 3 d.cd.first ++ le 2 (8192 - got) ++ le 4 rounds) ∧
        onlyOff s u o ∧ u.out = s.out ∧ state u = st) ∧
    (s.owner = none →
      ((s.tile t).calib = false → exec (.injectionStrobe t) s = .next s) ∧ ((s.tile t).calib = true → onlyTile (.injectionStrobe t) s t skipped)) ∧
    (s.owner = some o →
      ((s.tile t).calib = false → gives (.injectionStrobe t) s fun u =>
        raised s u o 0x0110 (le 1 t.val ++ le 1 (s.rd o F.GLB_CALSEQ_SEQ)) ∧ onlyOff s u o ∧ regsKept s u o [] ∧ u.out = s.out) ∧
      ((s.tile t).calib = true → (d.calRun = none ∨ ∃ x, d.calRun = some x ∧ x.running = false) → onlyTile (.injectionStrobe t) s t skipped) ∧
      ((s.tile t).calib = true → d.calRun = some c → c.running = true → d.seqKind c.slot ≠ 3 → c.fired.get t < d.seqStrobes c.slot →
        tickLt d.count.toNat (startTickBefore s.svc.roundShift c.fromRound d.count.toNat + c.fired.get t * d.seqPeriod c.slot) = false → gives (.injectionStrobe t) s fun u =>
          (u.off o).calRun = some { c with fired := c.fired.set t (c.fired.get t + 1) } ∧ (∀ y, y ≠ t → u.tile y = s.tile y) ∧
            (u.tile t).cells = (s.tile t).cells ∧ (u.off o).regs = d.regs ∧ u.svc = s.svc ∧ u.out = s.out)) ∧
    (goes →
      (s.mode o ≠ .calibration → gives (.calibrationSequenceGo o v) s fun u =>
        raised s u o 0x0110 (le 1 3 ++ le 1 (v.toNat % 16)) ∧ (u.off o).calRun = d.calRun ∧ u.tiles = s.tiles ∧ u.svc = s.svc) ∧
      (s.mode o = .calibration → s.owns o = true → s.flag o F.GLB_CALSEQ_RUN = false → gives (.calibrationSequenceGo o v) s fun u =>
        (u.off o).calRun = some start ∧ u.rd o F.GLB_CALSEQ_SEQ = v.toNat % 16 ∧ u.tiles = s.tiles ∧ u.svc = s.svc) ∧
      (s.mode o = .calibration → (s.owns o = false ∨ s.flag o F.GLB_CALSEQ_RUN = true) → gives (.calibrationSequenceGo o v) s fun u =>
        (u.off o).calRun = d.calRun ∧ u.tiles = s.tiles ∧ u.svc = s.svc)) ∧
    (d.calRun = none → exec (.calibrationSequenceEnd o) s = .next s) ∧
    (d.calRun = some c →
      ((c.running = false ∨ s.sequenceOver o c = false) → exec (.calibrationSequenceEnd o) s = .next s) ∧
      (c.running = true → s.sequenceOver o c = true → gives (.calibrationSequenceEnd o) s fun u =>
        (u.off o).calRun = none ∧ u.rd o F.GLB_CALSEQ_RUN = 0 ∧ regsKept s u o [F.GLB_CALSEQ_RUN.key 0 0] ∧ u.svc = s.svc ∧ u.out = s.out ∧
          ∀ y, u.tile y = if s.heeds y o then { s.tile y with orders := (s.tile y).orders ++ [.sequence none none] } else s.tile y)) ∧
    (d.inReset = true → exec (.nvmWindowOpen o) s = .next s ∧ exec (.nvmWindowWaitExpiry o) s = .next s) ∧
    (d.inReset = false → quiet →
      (d.lb.job = none → gives (.nvmWindowOpen o) s fun u => u.rd o F.SEC_STAT_NVM_WIN = 1 ∧ onlyOff s u o ∧
        regsKept s u o [F.SEC_STAT_NVM_WIN.key 0 0] ∧ u.out = s.out ∧ (u.off o).lb = d.lb ∧ (u.off o).nvm = d.nvm) ∧
      (d.lb.job = some { work := w, waiting := some t0 } →
        (gives (.nvmWindowOpen o) s fun u => u.rd o F.SEC_STAT_NVM_WIN = 1 ∧ u.rd o F.SEC_JOB_STATE = 1 ∧ (u.off o).lb.job = some { work := w } ∧
          onlyOff s u o ∧ u.out = s.out ∧ (u.off o).nvm = d.nvm) ∧
        (s.now < t0 + ticksOfUs 60000000 → exec (.nvmWindowWaitExpiry o) s = .next s) ∧
        (t0 + ticksOfUs 60000000 ≤ s.now → w = .confirm → gives (.nvmWindowWaitExpiry o) s fun u =>
          (u.off o).lb.job = none ∧ (u.off o).lb.outcome = some (0x03, 0x11) ∧ u.rd o F.SEC_JOB_STATE = 4 ∧ u.rd o F.SEC_JOB_CAUSE = 0x11 ∧
            u.tiles = s.tiles ∧ u.off (otherOffice o) = s.off (otherOffice o) ∧ u.out = s.out ∧ (u.off o).nvm = d.nvm))) ∧
    (d.inReset = false → d.lb.job = none → d.pageWait = none → d.cal.waitSince = some t0 →
      (s.now < t0 + ticksOfUs 60000000 → exec (.nvmWindowWaitExpiry o) s = .next s) ∧
      (t0 + ticksOfUs 60000000 ≤ s.now → gives (.nvmWindowWaitExpiry o) s fun u =>
        (u.off o).cal.waitSince = none ∧ (st = 4 → state u = 0) ∧ (st ≠ 4 → state u = st ∧ (u.off o).cal.waiting = []) ∧ onlyOff s u o ∧ u.out = s.out))

/-- GO, BUFFER_SWAP, ROW_CLR, FLASH_SYNC_EDGE, FLASH, FLASH_START, VER_AGE_EXPIRY and FLASH_REPORT_RX (R406, R617, R620 to R623, R626,
R627, R629, R635, R636): with no flash under way a sequence starts at its tick, is refused while one runs, and is missed in a mode
without flashes or without a REPEAT; a flash of a running sequence is latched with its tick; an emitter that has not been verified
for `VER_AGE` is unverified again; the owner keeps the reports of the latest 64 flashes. -/
def Obligations.EmittersFlashAndVerify : Prop :=
  ∀ (s : State) (o : OfficeId) (v : W32) (b : Bcast) (r : FlashRun) (noCur : List Byte) (ovc : W16) (emitter : Byte) (rep : FlashReport),
    let m := s.svc.emt
    let c := s.svc.count.toNat
    let seq := v.toNat % 64
    let syncSeq := s.srd F.EMT_CFG_SYNC_SEQ
    let calm := m.flash = none ∧ m.swap = none ∧ ∀ x, m.run = some x → x.num < s.runLength x
    let asks := fun (bit : Nat) => writable s o F.EMT_CTL_GO.off v.toNat ∧ v.toNat / 2 ^ 29 = 2 ^ bit
    let counted := fun (u : State) (f : Fld) => u.srd f = min (s.srd f + 1) 0xFFFFFFFF ∧ u.svc.emt = m ∧ svcRegsKept s u [f] ∧ u.tiles = s.tiles ∧ kept s u
    let started := fun (u : State) (x : FlashRun) => u.svc.emt = { m with run := some x } ∧ u.srd F.EMT_STAT_RUN = 1 ∧ u.srd F.EMT_STAT_SEQ_ACT = x.seq ∧
      svcRegsKept s u [F.EMT_STAT_RUN, F.EMT_STAT_SEQ_ACT] ∧ u.tiles = s.tiles ∧ kept s u
    let f0 := r.f0 + r.num * s.srd F.EMT_SEQ_PERIOD_PERIOD r.seq
    let e := emitter.toNat
    let age := s.srd F.EMT_VER_VER_AGE
    let seen := Sparse.get 0 m.verAt e
    let old := s.svc.inReset = false ∧ age ≠ 0 ∧ seen ≠ 0 ∧ seen - 1 + ticksOfUs (age * 1000000) ≤ s.now ∧ s.emitterState e ≠ 0
    let bseq := ofLe (b.arg.take 2)
    let due := s.dueOp = some b ∧ b.op = 4 ∧ s.transitionFirst b = false
    let lawful := fun (n : Nat) => s.moduleMode.flashes = true ∧ s.srd F.EMT_SEQ_REPEAT_REPEAT n ≠ 0
    (calm → asks 2 →
      (m.run = none → lawful seq → gives (.go o v) s fun u => started u { seq := seq, f0 := (c + 3000 + 1023) / 1024 * 1024, source := 0 } ∧ u.out = s.out) ∧
      (m.run = none → ¬ lawful seq → gives (.go o v) s fun u => counted u F.EMT_CNT_MISS_COUNT) ∧
      (m.run = some r → gives (.go o v) s fun u => counted u F.EMT_CNT_BUSY_COUNT)) ∧
    (calm → asks 1 → gives (.bufferSwap o v) s fun u =>
      u.svc = { s.svc with emt := { m with swap := some s.now } } ∧ u.tiles = s.tiles ∧ regsKept s u o [] ∧ u.out = s.out) ∧
    (calm → asks 0 → gives (.rowClr o v) s fun u =>
      u.srd F.EMT_STAT_ROW_OVC = 0 ∧ svcRegsOnly s u [F.EMT_STAT_ROW_OVC] ∧ regsKept s u o [] ∧ u.out = s.out) ∧
    (calm → s.takesWrites o = false → exec (.go o v) s = .next s ∧ exec (.bufferSwap o v) s = .next s ∧ exec (.rowClr o v) s = .next s) ∧
    (calm → (s.svc.inReset = true ∨ s.srd F.EMT_CFG_SYNC_EN = 0) → exec .flashSyncEdge s = .next s) ∧
    (calm → s.svc.inReset = false → s.srd F.EMT_CFG_SYNC_EN = 1 →
      (m.run = none → s.moduleMode.flashes = true → syncSeq < 64 → gives .flashSyncEdge s fun u =>
        started u { seq := syncSeq, f0 := c + 2, source := 1 } ∧ u.out = s.out) ∧
      (m.run = none → s.moduleMode.flashes = false → gives .flashSyncEdge s fun u => counted u F.EMT_CNT_MISS_COUNT) ∧
      (m.run = some r → gives .flashSyncEdge s fun u => counted u F.EMT_CNT_BUSY_COUNT)) ∧
    (calm → (s.dueOp = none ∨ ∃ x, s.dueOp = some x ∧ (x.op ≠ 4 ∨ s.transitionFirst x = true)) → exec .flash s = .next s) ∧
    (calm → due →
      (bseq < 64 → lawful bseq → gives .flash s fun u =>
        u.svc.emt = { m with run := some { seq := bseq, f0 := b.tick, source := 2 } } ∧ u.srd F.EMT_STAT_RUN = 1 ∧ u.srd F.EMT_STAT_SEQ_ACT = bseq ∧
          u.svc.ring.sched = s.svc.ring.sched.erase b ∧ u.tiles = s.tiles ∧ kept s u) ∧
      ((64 ≤ bseq ∨ ¬ lawful bseq) → gives .flash s fun u => u.srd F.EMT_CNT_MISS_COUNT = min (s.srd F.EMT_CNT_MISS_COUNT + 1) 0xFFFFFFFF ∧
        u.svc.emt = m ∧ u.svc.ring.sched = s.svc.ring.sched.erase b ∧ u.tiles = s.tiles ∧ kept s u)) ∧
    (calm → (m.run = none ∨ ∃ x, m.run = some x ∧ c < x.f0 + x.num * s.srd F.EMT_SEQ_PERIOD_PERIOD x.seq) → exec (.flashStart noCur ovc) s = .next s) ∧
    (calm → m.run = some r → s.svc.inReset = false → f0 ≤ c →
      (s.moduleMode.flashes = true → gives (.flashStart noCur ovc) s fun u =>
        u.srd F.EMT_LAST_F0_LO_TICK_L + u.srd F.EMT_LAST_F0_HI_TICK_H * 2 ^ 32 = f0 % 2 ^ 64 ∧ u.tiles = s.tiles ∧ kept s u ∧
          (u.svc.emt.run = some { r with num := r.num + 1 } ∨ u.svc.emt.run = none) ∧
          (s.owner = some o → (u.off o).flashTicks = (f0 :: (s.off o).flashTicks).take 64)) ∧
      (s.moduleMode.flashes = false → gives (.flashStart noCur ovc) s fun u =>
        u.srd F.EMT_CNT_MISS_COUNT = min (s.srd F.EMT_CNT_MISS_COUNT + 1) 0xFFFFFFFF ∧ u.svc.emt.flash = none ∧ u.tiles = s.tiles ∧ u.out = s.out)) ∧
    (¬ old → exec (.verAgeExpiry emitter) s = .next s) ∧
    (old → gives (.verAgeExpiry emitter) s fun u => u.emitterState e = 0 ∧ (∀ y, y < 256 → y ≠ e → u.emitterState y = s.emitterState y) ∧
      u.svc.emt.verNoted = (if m.verNoted.contains e then m.verNoted else e :: m.verNoted) ∧ u.tiles = s.tiles ∧ kept s u ∧ u.out = s.out ∧
        (m.verNoted.contains e = false → s.owner = some o → raised s u o 0x0D02 (le 1 (e / 16) ++ le 1 (e % 16)))) ∧
    (((s.off o).inReset = true ∨ s.owns o = false) → exec (.flashReportRx o rep) s = .next s) ∧
    ((s.off o).inReset = false → s.owns o = true → gives (.flashReportRx o rep) s fun u =>
      (u.off o).cal.reports = (rep :: (s.off o).cal.reports.filter fun x => x.f0 ≠ rep.f0).take 64 ∧ (u.off o).regs = (s.off o).regs ∧
        onlyOff s u o ∧ u.out = s.out)

/-- THERMAL_MODEL_UPDATE, THERMAL_ACK, READMIT, REFRESH, RETIRE, CBT_ENABLE, CBT_DATA, CBT_CHECK, CBT_READ, ESCALATION_WINDOW_END and
ARRAY_HOST_READ (R201, R488, R643 to R645, R648, R653, R677, R681 to R684): an update every 100 µs shows the sensors it was given, and
the model is valid from the tenth on; a page command is refused with its first cause or runs; check-bit test mode opens in Standby
only, and its operations reach the one word that `ERR_CBT_ADDR` names; an uncorrectable word reads as ones, poisoned, and a reserved bit of any other is
undefined (R4). -/
def Obligations.ThermalModelAndArrays : Prop :=
  ∀ (s : State) (o : OfficeId) (v : W32) (rs : List W16) (addr : BitVec 26) (c : Instr) (p : Nat × Nat),
    let d := s.off o
    let n := d.thm.updates + 1
    let ready := d.inReset = false ∧ s.owns o = true ∧ (d.thm.updates = 0 ∨ d.thm.lastAt + 150000 ≤ s.now)
    let thm := writable s o F.THM_CTL_ACK.off v.toNat ∧ s.owns o = true
    let j := v.toNat % 64
    let a := v.toNat / 2 ^ 20 % 16
    let page := v.toNat % 2 ^ 20
    let pages := writable s o F.ERR_PAGE_CMD_GO.off v.toNat ∧ v.getLsbD 31 = true
    let free := s.flag o F.ERR_PAGE_CMD_BUSY = false ∧ pageExists a page = true
    let f := s.retireFault o v.toNat
    let refused := fun (u : State) (res : Nat) => u.rd o F.ERR_PAGE_RES_RESULT = res ∧ raised s u o 0x0F24 (le 4 v.toNat ++ le 1 res) ∧
      (u.off o).arr = d.arr ∧ (u.off o).spareOf = d.spareOf ∧ onlyOff s u o ∧ u.out = s.out
    let cbt := c = .cbtEnable o v ∨ c = .cbtData o v ∨ c = .cbtCheck o v ∨ c = .cbtRead o v
    let takes := cbt ∧ writable s o F.ERR_CBT_CTL_EN.off v.toNat
    let was := s.flag o F.ERR_CBT_CTL_EN
    let k := v.toNat / 2 ^ 24 % 16
    let op := v.toNat / 2 ^ 28 % 4
    let w := s.rd o F.ERR_CBT_ADDR_WORD
    let data := s.rdPair o F.ERR_CBT_DATA_LO_DATA_L F.ERR_CBT_DATA_HI_DATA_H
    let check := s.rd o F.ERR_CBT_CHECK_CHECK
    let on := takes ∧ was = true ∧ v.getLsbD 31 = true ∧ v.getLsbD 30 = true ∧ s.mode o = .standby ∧ wordExists k w = true
    let frame := fun (u : State) => onlyOff s u o ∧ u.out = s.out
    let ended := d.inReset = false ∧ d.escAt + s.escWindow o ≤ s.now
    (¬ ready → exec (.thermalModelUpdate o rs) s = .next s) ∧
    (ready → gives (.thermalModelUpdate o rs) s fun u => (u.off o).thm.updates = n ∧ (u.off o).thm.lastAt = s.now ∧ (u.off o).thm.ack = false ∧
      (∀ i, i < 42 → u.rd o F.THM_SENS_T i = ofInt 16 (reading rs i) % 2 ^ 16) ∧ u.flag o F.THM_STAT_VALID = decide (10 ≤ n) ∧
      (∀ t : Fin 4, ∀ i, i < 8 → Sparse.get 0 (u.tile t).sensors i = ofInt 16 (reading rs (t.val * 8 + i))) ∧ kept s u) ∧
    (thm →
      (v.getLsbD 31 = true → v.getLsbD 30 = false → gives (.thermalAck o v) s fun u =>
        (u.off o).thm = { d.thm with ack := true } ∧ onlyOff s u o ∧ regsKept s u o [] ∧ u.out = s.out) ∧
      (v.getLsbD 30 = true → v.getLsbD 31 = false → gives (.readmit o v) s fun u => onlyOff s u o ∧ regsKept s u o [] ∧ u.out = s.out ∧
        (u.off o).thm = (if d.thm.admits j then d.thm else { d.thm with sensors := Sparse.set {} d.thm.sensors j { good := some 0 } }))) ∧
    (s.takesWrites o = false → exec (.thermalAck o v) s = .next s ∧ exec (.readmit o v) s = .next s ∧ exec (.refresh o v) s = .next s ∧
      exec (.retire o v) s = .next s) ∧
    (pages →
      (s.flag o F.ERR_PAGE_CMD_BUSY = true → gives (.refresh o v) s (refused · 5) ∧ gives (.retire o v) s (refused · 5)) ∧
      (s.flag o F.ERR_PAGE_CMD_BUSY = false → pageExists a page = false → gives (.refresh o v) s (refused · 4) ∧ gives (.retire o v) s (refused · 4)) ∧
      (free → op = 0 → a ≤ 3 → gives (.refresh o v) s fun u => u.rd o F.ERR_PAGE_CMD_BUSY = 1 ∧
        (u.off o).mrg.jobs = d.mrg.jobs ++ [.refresh a page] ∧ (u.off o).arr = d.arr ∧ frame u) ∧
      (free → op = 0 → 4 ≤ a → gives (.refresh o v) s fun u => u.rd o F.ERR_PAGE_CMD_BUSY = 0 ∧ u.rd o F.ERR_PAGE_RES_RESULT = 0 ∧ frame u) ∧
      (free → op ≠ 0 → f ≠ 0 → f < 16 → gives (.retire o v) s (refused · f)) ∧
      (free → op ≠ 0 → f = 0 → s.nvmOpen o = false → gives (.retire o v) s fun u =>
        u.rd o F.ERR_PAGE_CMD_BUSY = 1 ∧ (u.off o).pageWait = some (v.toNat, s.now) ∧ (u.off o).nvm = d.nvm ∧ (u.off o).arr = d.arr ∧ frame u)) ∧
    (takes → v.getLsbD 31 = true → s.mode o ≠ .standby → gives c s fun u =>
      u.flag o F.ERR_CBT_CTL_EN = was ∧ raised s u o 0x0F26 (le 1 2) ∧ (u.off o).arr = d.arr ∧ (u.off o).syn = d.syn ∧ frame u ∧ regsKept s u o []) ∧
    (takes → (v.getLsbD 31 = false ∨ s.mode o = .standby) → v.getLsbD 30 = false → gives c s fun u =>
      u.flag o F.ERR_CBT_CTL_EN = v.getLsbD 31 ∧ (was ≠ v.getLsbD 31 → raised s u o 0x0F26 (le 1 (b2n was))) ∧ (u.off o).arr = d.arr ∧
        (u.off o).syn = d.syn ∧ frame u) ∧
    (takes → v.getLsbD 31 = false → v.getLsbD 30 = true → gives c s fun u =>
      raised s u o 0x0F26 (le 1 2) ∧ (u.off o).arr = d.arr ∧ (u.off o).syn = d.syn ∧ frame u) ∧
    (on →
      (op = 0 → s.cbtTarget o k w = true → gives c s fun u => (u.off o).arrData k w = data % 2 ^ 64 ∧
        (u.off o).arrSyn k w = check ^^^ checkByte data ∧ (∀ x, x ≠ arrKey k w → Sparse.get 0 (u.off o).arr x = Sparse.get 0 d.arr x) ∧ frame u) ∧
      (op = 0 → s.cbtTarget o k w = false → gives c s fun u => raised s u o 0x0F26 (le 1 2) ∧ (u.off o).arr = d.arr ∧ (u.off o).syn = d.syn ∧ frame u) ∧
      (op = 1 → gives c s fun u => (u.off o).arrData k w = d.arrData k w % 2 ^ 64 ∧
        (u.off o).arrSyn k w = check ^^^ checkByte (d.arrData k w) ∧ frame u) ∧
      (op = 2 → k ≠ 4 → k ≠ 6 → gives c s fun u => u.rdPair o F.ERR_CBT_DATA_LO_DATA_L F.ERR_CBT_DATA_HI_DATA_H = d.arrData k w % 2 ^ 64 ∧
        u.rd o F.ERR_CBT_CHECK_CHECK = (d.arrSyn k w ^^^ checkByte (d.arrData k w)) % 256 ∧ u.rd o F.ERR_CBT_CHECK_CLASS = (d.arrClass k w).code ∧
          (u.off o).arr = d.arr ∧ (u.off o).syn = d.syn ∧ frame u)) ∧
    (¬ ended → exec (.escalationWindowEnd o) s = .next s) ∧
    (ended → gives (.escalationWindowEnd o) s fun u => (u.off o).escAt = d.escAt + s.escWindow o ∧ (u.off o).ueWindow = [] ∧ (u.off o).resDrops = 0 ∧
      (u.off o).resRetries = 0 ∧ (u.off o).vFails = 0 ∧ frame u ∧
        regsKept s u o [F.TWN_HEALTH_ARITH.key 0 0, F.TWN_STAT_HEALTHY.key 0 0]) ∧
    ((arrayAt addr.toNat = none ∨ addr.toNat % 4 ≠ 0 ∨ d.inReset = true ∨ d.d3hot = true) → exec (.arrayHostRead o addr) s = .next s) ∧
    (arrayAt addr.toNat = some p → addr.toNat % 4 = 0 → d.inReset = false → d.d3hot = false → s.answersRead o addr.toNat = true →
      d.fromLatch addr.toNat = false → fieldsAt addr.toNat = [] →
      (d.arrClass p.1 p.2 = .uncorrectable → gives (.arrayHostRead o addr) s fun u => u.out = .completion o [0xFFFFFFFF] true :: s.out ∧ onlyOff s u o) ∧
      (d.arrClass p.1 p.2 ≠ .uncorrectable → (p.1 ≠ 0 ∨ p.2 % 4 ≠ 0) → gives (.arrayHostRead o addr) s fun u => onlyOff s u o ∧
        ∃ w : W32, u.out = .completion o [w] false :: s.out ∧ ∀ i, i < 32 → (s.undefinedBits o addr.toNat).testBit i = false →
          w.getLsbD i = (bitsOf (d.arrRead p.1 p.2) (8 * (addr.toNat % 8)) 32).testBit i))

namespace Sys2Proof.Machine

/-- The bytes of a response (R501): opcode, status, tag, length of the payload, detail, zero, the payload padded to DWs. -/
def reply (op : Nat) (tag : W16) (status detail : Nat) (payload : List Byte) : List Byte :=
  le 1 (op + 0x80) ++ le 1 status ++ le 2 tag.toNat ++ le 4 payload.length ++ le 4 detail ++ le 4 0 ++ payload ++
    List.replicate ((4 - payload.length % 4) % 4) 0

/-- The state with a response sent and nothing else changed. -/
def State.answered (s : State) (o : OfficeId) (op : Nat) (tag : W16) (status detail : Nat) (payload : List Byte) : State :=
  { s with out := .letterbox o (reply op tag status detail payload) :: s.out }

/-- The letterbox takes requests: out of reset, and without DOE Error (R500). -/
def takesRequests (s : State) (o : OfficeId) : Prop := (s.off o).inReset = false ∧ (s.off o).lb.doeError = false

/-- The letterbox is free for every request: no job pending, and past Loading (R501, R502). -/
def lbFree (s : State) (o : OfficeId) : Prop := takesRequests s o ∧ (s.off o).lb.job = none ∧ s.mode o ≠ .loading

/-- A bad request (R501, R512): answered with status 0x04 and counted. -/
def badAnswer (c : Instr) (s : State) (o : OfficeId) (op : Nat) (tag : W16) : Prop :=
  gives c s fun u => u.out = .letterbox o (reply op tag 0x04 0 []) :: s.out ∧ onlyOff s u o ∧
    u.rd o F.SEC_CNT_LBERR_COUNT = min (s.rd o F.SEC_CNT_LBERR_COUNT + 1) 0xFFFFFFFF ∧
    regsKept s u o [F.SEC_CNT_LBERR_COUNT.key 0 0] ∧ (u.off o).nvm = (s.off o).nvm ∧ (u.off o).lb = (s.off o).lb

/-- A job has begun (R502, R511): it is answered with status 0x01, and nothing of the book or the registers but `SEC_JOB` changes. -/
def jobBegun (s u : State) (o : OfficeId) (op : Nat) (tag : W16) (w : JobWork) : Prop :=
  u.out = .letterbox o (reply op tag 0x01 0 []) :: s.out ∧ (u.off o).lb = { (s.off o).lb with job := some { work := w } } ∧
    u.rd o F.SEC_JOB_STATE = 1 ∧ u.rd o F.SEC_JOB_OP = op ∧ u.rd o F.SEC_JOB_CAUSE = 0 ∧ u.rd o F.SEC_JOB_PROGRESS = 0 ∧
    regsKept s u o [F.SEC_JOB_STATE.key 0 0, F.SEC_JOB_OP.key 0 0, F.SEC_JOB_CAUSE.key 0 0, F.SEC_JOB_PROGRESS.key 0 0] ∧
    u.svc.regs = s.svc.regs ∧ u.tiles = s.tiles ∧ kept s u

/-- A job has ended with a refusal of this cause (R501, R511). -/
def jobRefused (s u : State) (o : OfficeId) (cause : Nat) : Prop :=
  (u.off o).lb.job = none ∧ (u.off o).lb.outcome = some (0x03, cause) ∧ u.rd o F.SEC_JOB_STATE = 4 ∧ u.rd o F.SEC_JOB_CAUSE = cause ∧
    u.book o = s.book o ∧ u.tiles = s.tiles ∧ kept s u

/-- A job has ended, and POLL answers status 0x00 with this detail (R502, R511). -/
def jobDone (s u : State) (o : OfficeId) (detail : Nat) : Prop :=
  (u.off o).lb.job = none ∧ (u.off o).lb.outcome = some (0x00, detail) ∧ u.rd o F.SEC_JOB_STATE = 3 ∧ u.rd o F.SEC_JOB_PROGRESS = 100 ∧
    u.tiles = s.tiles ∧ u.pending = s.pending ∧ u.now = s.now

/-- One entry of this kind has joined the book (R494 to R496): 256 bytes, numbered, chained to the last, with its CRC. -/
def entered (s u : State) (o : OfficeId) (kind : Nat) (e : List Byte) : Prop :=
  u.book o = s.book o ++ [e] ∧ e.length = 256 ∧ fieldAt e 0 2 = 0xB00C ∧ entryKind e = kind ∧ fieldAt e 4 4 = s.nextSeq o % 2 ^ 32 ∧
    fieldAt e 252 4 = (crc32c (e.take 252)).toNat ∧ (e.drop 176).take 64 = chainAfter (s.bookChain o) (e.take 176)

end Sys2Proof.Machine

/-- LETTERBOX_OVERSIZE, DOE_ABORT, DOE_DISCOVERY, LETTERBOX_BAD_REQUEST, INFO, ATTEST, POLL, AMEND, UPLOAD_BEGIN, UPLOAD_DATA,
UPLOAD_END, ACTIVATE, CONFIRM, BOOK_READ and BOOK_BODY (R488, R490, R500 to R504, R506, R508, R511, R512): in reset or DOE Error
there is no answer; while a job is pending or in Loading a request is answered with 0x02, in a mode that does not permit it with 0x05;
each other request is answered, and starts a job or changes the book as its row says. -/
def Obligations.LetterboxAnswersRequests : Prop :=
  ∀ (s : State) (o : OfficeId) (tag : W16) (op slot trial index : Byte) (seq bytes offset len : W32) (count : W16) (nonce meas : BitVec 512)
    (body data : List Byte),
    let d := s.off o
    let b := d.lb
    let loads : List (Instr × Nat) := [(.uploadBegin o tag slot len meas, 0x10), (.uploadData o tag offset data, 0x11), (.uploadEnd o tag, 0x12)]
    let waits : List (Instr × Nat) := loads ++ [(.amend o tag body, 0x03), (.activate o tag slot trial, 0x13), (.confirm o tag, 0x14)]
    let reads : List (Instr × Nat) := [(.info o tag, 0x01), (.attest o tag nonce, 0x02), (.bookRead o tag seq count, 0x20), (.bookBody o tag seq offset len, 0x21)]
    let uploads := s.mode o = .standby ∨ s.mode o = .held ∨ s.mode o = .fallback
    let lbOnly := fun (x : Letterbox) => s.modOff o fun e => { e with lb := x }
    let calm := takesRequests s o ∧ s.mode o ≠ .loading
    let rep := s.report o (le 64 nonce.toNat)
    let open_ := s.flag o F.SEC_STAT_NVM_WIN = true
    let fault := s.amendFault o body
    let found := (s.book o).find? fun e => decide (fieldAt e 4 4 = seq.toNat)
    let size := (found.map fun e => d.entryBody e).getD []
    let slotK := slot.toNat
    (¬ takesRequests s o → (∀ x ∈ waits ++ reads, exec x.1 s = .next s) ∧ exec (.poll o tag) s = .next s ∧ exec (.doeDiscovery o index) s = .next s ∧
      exec (.letterboxBadRequest o tag op) s = .next s) ∧
    ((d.inReset = true ∨ bytes.toNat ≤ 65536) → exec (.letterboxOversize o bytes) s = .next s) ∧
    (d.inReset = false → 65536 < bytes.toNat → exec (.letterboxOversize o bytes) s = .next (lbOnly { b with doeError := true })) ∧
    (d.inReset = true → exec (.doeAbort o) s = .next s) ∧
    (d.inReset = false → exec (.doeAbort o) s = .next (lbOnly { b with doeError := false })) ∧
    (takesRequests s o → exec (.doeDiscovery o index) s = .next { s with out := .letterbox o (
        if index = 0 then [1, 0, 0, 1] else if index = 1 then le 2 Config.vendorId.toNat ++ [1, 0] else [0xFF, 0xFF, 0, 0]) :: s.out }) ∧
    (takesRequests s o → badAnswer (.letterboxBadRequest o tag op) s o op.toNat tag) ∧
    (takesRequests s o → (b.job.isSome = true ∨ s.mode o = .loading) → ∀ x ∈ waits, exec x.1 s = .next (s.answered o x.2 tag 0x02 0 [])) ∧
    (takesRequests s o → s.mode o = .loading → ∀ x ∈ reads, exec x.1 s = .next (s.answered o x.2 tag 0x02 0 [])) ∧
    (lbFree s o → ¬ uploads → ∀ x ∈ loads, exec x.1 s = .next (s.answered o x.2 tag 0x05 (s.mode o).code [])) ∧
    (lbFree s o → (s.mode o).code < 4 → exec (.confirm o tag) s = .next (s.answered o 0x14 tag 0x05 (s.mode o).code [])) ∧
    (takesRequests s o → (b.job.isSome = true → exec (.poll o tag) s = .next (s.answered o 0x04 tag 0x01 0 [])) ∧
      (∀ x, b.job = none → b.outcome = some x → exec (.poll o tag) s = .next (s.answered o 0x04 tag x.1 x.2 [])) ∧
      (b.job = none → b.outcome = none → ∃ x y n, exec (.poll o tag) s = .next { (s.answered o 0x04 tag x y []) with free := n })) ∧
    (calm → exec (.info o tag) s = .next (s.answered o 0x01 tag 0x00 0 (s.report o (List.replicate 64 0) ++ Config.attestKey (officeBit o)))) ∧
    (calm → exec (.attest o tag nonce) s = .next { (s.answered o 0x02 tag 0x00 0
        (rep ++ Config.mldsaSign (officeBit o) (asciiBytes "UX1024-ATT") rep s.free)) with free := s.free + 1 }) ∧
    ((rep.take 2 = [0x7E, 0xA7] ∧ (rep.drop 16).take 64 = le 64 nonce.toNat)) ∧
    (calm → (count.toNat = 0 ∨ 255 < count.toNat) → badAnswer (.bookRead o tag seq count) s o 0x20 tag) ∧
    (calm → 0 < count.toNat → count.toNat ≤ 255 →
      let es := ((s.book o).filter fun e => decide (seq.toNat ≤ fieldAt e 4 4)).take count.toNat
      exec (.bookRead o tag seq count) s = .next (s.answered o 0x20 tag 0x00 es.length es.flatten)) ∧
    (calm → 65512 < len.toNat → badAnswer (.bookBody o tag seq offset len) s o 0x21 tag) ∧
    (calm → len.toNat ≤ 65512 → found.isSome = true → offset.toNat + len.toNat ≤ size.length →
      exec (.bookBody o tag seq offset len) s = .next (s.answered o 0x21 tag 0x00 0 ((size.drop offset.toNat).take len.toNat))) ∧
    (calm → len.toNat ≤ 65512 → (found.isNone = true ∨ size.length < offset.toNat + len.toNat) →
      ∃ x n, exec (.bookBody o tag seq offset len) s = .next { (s.answered o 0x21 tag 0x03 x []) with free := n }) ∧
    (lbFree s o → fault.1 ≠ 0 → gives (.amend o tag body) s fun u =>
      u.out = .letterbox o (reply 0x03 tag 0x03 fault.1 []) :: s.out ∧ onlyOff s u o ∧
        u.rd o F.SEC_CNT_REFUSED_COUNT = min (s.rd o F.SEC_CNT_REFUSED_COUNT + 1) 0xFFFFFFFF ∧
        (∃ k, (∀ i, fault.2 = some i → k = i) ∧ raised s u o 0x0905 (le 1 fault.1 ++ le 2 k)) ∧
        regsKept s u o [F.SEC_CNT_REFUSED_COUNT.key 0 0] ∧ (u.off o).nvm = d.nvm ∧ (u.off o).lb = b) ∧
    (lbFree s o → fault.1 = 0 → gives (.amend o tag body) s fun u => jobBegun s u o 0x03 tag (.amend body) ∧ (u.off o).nvm = d.nvm) ∧
    (lbFree s o → uploads →
      (1 < slotK → badAnswer (.uploadBegin o tag slot len meas) s o 0x10 tag) ∧
      (slotK ≤ 1 → (slotK = s.rd o F.SEC_STAT_RUN_SLOT ∨ 2 ^ 24 < len.toNat ∨ len.toNat % 8 ≠ 0 ∨ b.upload.isSome = true) →
        exec (.uploadBegin o tag slot len meas) s = .next (s.answered o 0x10 tag 0x03 0x01 [])) ∧
      (slotK ≤ 1 → slotK ≠ s.rd o F.SEC_STAT_RUN_SLOT → len.toNat ≤ 2 ^ 24 → len.toNat % 8 = 0 → b.upload = none →
        gives (.uploadBegin o tag slot len meas) s fun u => jobBegun s u o 0x10 tag (.uploadBegin slotK len.toNat meas) ∧
          (u.off o).nvm.slot slotK = { d.nvm.slot slotK with entry := false } ∧ (u.off o).nvm.slot (1 - slotK) = d.nvm.slot (1 - slotK) ∧
          u.book o = s.book o) ∧
      (b.upload = none → exec (.uploadData o tag offset data) s = .next (s.answered o 0x11 tag 0x03 0x02 [])) ∧
      (∀ x, b.upload = some x →
        ((offset.toNat ≠ x.offset ∨ x.len < x.offset + data.length) →
          exec (.uploadData o tag offset data) s = .next (s.answered o 0x11 tag 0x03 0x02 [])) ∧
        (offset.toNat = x.offset → x.offset + data.length ≤ x.len → ¬ open_ →
          exec (.uploadData o tag offset data) s = .next (s.answered o 0x11 tag 0x03 0x11 [])) ∧
        (offset.toNat = x.offset → x.offset + data.length ≤ x.len → open_ → gives (.uploadData o tag offset data) s fun u =>
          u.out = .letterbox o (reply 0x11 tag 0x00 0 []) :: s.out ∧ (u.off o).lb = { b with upload := some { x with offset := x.offset + data.length } } ∧
            (u.off o).nvm.slot x.slot = { d.nvm.slot x.slot with data := (d.nvm.slot x.slot).data ++ data } ∧ (u.off o).regs = d.regs ∧ onlyOff s u o) ∧
        (gives (.uploadEnd o tag) s fun u => jobBegun s u o 0x12 tag .uploadEnd ∧ (u.off o).nvm = d.nvm)) ∧
      (b.upload = none → ∃ x n, exec (.uploadEnd o tag) s = .next { (s.answered o 0x12 tag 0x03 x []) with free := n })) ∧
    (lbFree s o →
      ((1 < slotK ∨ 1 < trial.toNat) → badAnswer (.activate o tag slot trial) s o 0x13 tag) ∧
      (slotK ≤ 1 → trial.toNat ≤ 1 → (slotK = s.rd o F.SEC_STAT_RUN_SLOT ∨ (d.nvm.slot slotK).entry = true) →
        (open_ → s.bookRoom o 1 0 = true → gives (.activate o tag slot trial) s fun u =>
          u.out.head? = some (.letterbox o (reply 0x13 tag 0x00 (s.nextSeq o) [])) ∧
            raised s u o 0x0907 (le 1 slotK ++ le 1 trial.toNat ++ le 4 (s.nextSeq o)) ∧
            (∃ e, entered s u o 0x02 e ∧ fieldAt e 48 1 = slotK ∧ fieldAt e 49 1 = trial.toNat) ∧ u.svc = s.svc ∧ u.tiles = s.tiles) ∧
        (¬ open_ → gives (.activate o tag slot trial) s fun u => (u.off o).lb.job = some { work := .activate slotK (trial = 1), waiting := some s.now } ∧
          u.out = .letterbox o (reply 0x13 tag 0x01 0 []) :: s.out ∧ u.rd o F.SEC_JOB_STATE = 2 ∧ u.rd o F.SEC_JOB_OP = 0x13 ∧ (u.off o).nvm = d.nvm)) ∧
      (4 ≤ (s.mode o).code →
        (s.rd o F.SEC_STAT_TRIAL = 0 → exec (.confirm o tag) s = .next (s.answered o 0x14 tag 0x03 0x01 [])) ∧
        (s.rd o F.SEC_STAT_TRIAL ≠ 0 → open_ → s.bookRoom o 1 0 = true → gives (.confirm o tag) s fun u =>
          u.out.head? = some (.letterbox o (reply 0x14 tag 0x00 (s.nextSeq o) [])) ∧ u.rd o F.SEC_STAT_TRIAL = 0 ∧
            (∃ e, entered s u o 0x03 e ∧ fieldAt e 48 1 = s.rd o F.SEC_STAT_RUN_SLOT % 256) ∧ u.svc = s.svc ∧ u.tiles = s.tiles)))

/-- LETTERBOX_JOB_END (R475, R476, R488, R490, R492 to R495, R502, R504 to R506): without a job nothing happens; a job waits while the
NVM window is closed; it is refused with the cause of the check that fails; else its entry joins the book, and the upload, the slot, the
fuses or the changes between two rounds follow it. That the conditions of R491 are checked again at the end of the job is log entry 94. -/
def Obligations.LetterboxJobsEnd : Prop :=
  ∀ (s : State) (o : OfficeId) (ok : Bool) (brk : Option Bool) (j : LbJob) (slot len : Nat) (meas : BitVec 512) (trial : Bool) (b : List Byte)
    (x : Upload) (it : Item),
    let d := s.off o
    let c := Instr.letterboxJobEnd o ok brk
    let open_ := s.flag o F.SEC_STAT_NVM_WIN = true
    let runs := d.inReset = false ∧ d.lb.job = some j
    let one := s.bookRoom o 1 0 = true
    let whole := s.rd o F.SEC_BOOK_USE_ENTRIES ≤ d.nvm.entries.length
    let img := d.nvm.slot x.slot
    let cause := if s.verifySlot o img false ≠ 0 then s.verifySlot o img false else if img.meas ≠ le 64 x.meas.toNat then 0x2 else 0
    let its := (amendItems b).getD []
    let persist := decide (fieldAt b 3 1 % 2 = 1)
    let size := if persist then b.length else 0
    let allowed := ∀ y ∈ its, s.itemAllowed o persist y = true
    let refused := fun (n : Nat) (u : State) => jobRefused s u o n ∧ u.rd o F.SEC_CNT_REFUSED_COUNT = min (s.rd o F.SEC_CNT_REFUSED_COUNT + 1) 0xFFFFFFFF ∧
      ∃ k, raised s u o 0x0905 (le 1 n ++ le 2 k)
    ((d.inReset = true ∨ d.lb.job = none) → exec c s = .next s) ∧
    (runs → ¬ open_ → ((∃ p q r, j.work = .uploadBegin p q r) ∨ (∃ p q, j.work = .activate p q) ∨ j.work = .confirm) →
      (j.waiting.isSome = true → exec c s = .next s) ∧
      (j.waiting = none → gives c s fun u => (u.off o).lb = { d.lb with job := some { j with waiting := some s.now } } ∧ u.rd o F.SEC_JOB_STATE = 2 ∧
        (∃ k, raised s u o 0x0911 (le 1 k ++ [0])) ∧ regsKept s u o [F.SEC_JOB_STATE.key 0 0] ∧ onlyOff s u o ∧ u.out = s.out ∧ (u.off o).nvm = d.nvm)) ∧
    (runs → open_ → j.work = .uploadBegin slot len meas →
      (ok = true → gives c s fun u => jobDone s u o 0 ∧ (u.off o).lb.upload = some { slot := slot, len := len, meas := meas } ∧ (u.off o).nvm.slot slot = {} ∧
        u.book o = s.book o ∧ kept s u) ∧
      (ok = false → gives c s fun u => jobRefused s u o 0x13 ∧ (u.off o).nvm.slot slot = {})) ∧
    (runs → j.work = .uploadEnd → d.lb.upload = some x →
      (cause ≠ 0 → cause < 256 → gives c s fun u => jobRefused s u o cause ∧ (u.off o).lb.upload = none ∧ (u.off o).nvm.slot x.slot = img ∧
        ∃ k, raised s u o 0x0906 (le 1 x.slot ++ le 1 cause ++ le 4 k)) ∧
      (cause = 0 → open_ → one → ok = true → gives c s fun u => jobDone s u o (s.nextSeq o) ∧ (u.off o).lb.upload = none ∧
        (∃ e, entered s u o 0x01 e ∧ fieldAt e 48 1 = x.slot % 256 ∧ (e.drop 112).take 64 = img.meas) ∧
        (u.off o).nvm.slot x.slot = { img with entry := true, svn := some (img.hdr 12 1) } ∧ kept s u ∧
        raised s u o 0x0906 (le 1 x.slot ++ le 1 0 ++ le 4 (s.nextSeq o)))) ∧
    (runs → open_ → ((∃ p q, j.work = .activate p q) ∨ j.work = .confirm) →
      (s.bookRoom o 1 0 = false → gives c s fun u => jobRefused s u o 0x12 ∧ (u.off o).nvm = d.nvm) ∧
      (one → ok = false → whole → gives c s fun u => jobRefused s u o 0x13)) ∧
    (runs → open_ → one → ok = true →
      (j.work = .activate slot trial → gives c s fun u => jobDone s u o (s.nextSeq o) ∧ kept s u ∧
        (∃ e, entered s u o 0x02 e ∧ fieldAt e 48 1 = slot % 256 ∧ fieldAt e 49 1 = b2n trial) ∧
        raised s u o 0x0907 (le 1 slot ++ le 1 (b2n trial) ++ le 4 (s.nextSeq o))) ∧
      (j.work = .confirm → gives c s fun u => jobDone s u o (s.nextSeq o) ∧ kept s u ∧ u.rd o F.SEC_STAT_TRIAL = 0 ∧
        ∃ e, entered s u o 0x03 e ∧ fieldAt e 48 1 = s.rd o F.SEC_STAT_RUN_SLOT % 256)) ∧
    (runs → j.work = .amend b →
      (s.owns o = false → gives c s (refused 0x14)) ∧
      (s.owns o = true → ¬ allowed → gives c s (refused 0x0E)) ∧
      (s.owns o = true → allowed → its.find? Item.isFuse = some it → s.fuseForbidden o it = true → gives c s (refused 0x0F)) ∧
      (s.owns o = true → allowed → its.find? Item.isFuse = some it → s.fuseForbidden o it = false → s.fuseOpen o = false → gives c s (refused 0x10)) ∧
      (s.owns o = true → allowed → its.find? Item.isFuse = none → open_ →
        (s.bookRoom o 1 size = false → gives c s (refused 0x12)) ∧
        (s.bookRoom o 1 size = true → ok = false → whole → gives c s (refused 0x13)) ∧
        (s.bookRoom o 1 size = true → ok = true → its ≠ [] → its.all Item.isGap = true → gives c s fun u =>
          jobDone s u o (s.nextSeq o % 2 ^ 32) ∧ (∃ e, entered s u o 0x10 e ∧ fieldAt e 32 8 = fieldAt b 16 8 ∧ (e.drop 48).take 64 = (b.drop 32).take 64 ++
            List.replicate (64 - ((b.drop 32).take 64).length) 0 ∧ (u.off o).entryBody e = if persist then b else []) ∧
            (u.off o).mrg = { d.mrg with jobs := d.mrg.jobs ++ [.items (BitVec.ofNat 32 (s.nextSeq o)) (BitVec.ofNat 64 (fieldAt b 16 8)) false its] } ∧
            u.svc.fuses = s.svc.fuses)) ∧
      (s.owns o = true → allowed → its = [it] → it.isFuse = true → s.fuseForbidden o it = false → s.fuseOpen o = true → open_ →
        s.bookRoom o 2 size = true → brk = none → ok = true → gives c s fun u => jobDone s u o (s.nextSeq o % 2 ^ 32) ∧
          (it.kind = 0x10 → (u.svc.fuses.slot it.target).prog = true ∧
            (u.svc.fuses.slot it.target).digest = (s.svc.fuses.slot it.target).digest ||| BitVec.ofNat 512 (ofLe it.data)) ∧
          (it.kind = 0x11 → (u.svc.fuses.slot it.target).revoked = true) ∧
          (it.kind = 0x12 → u.svc.fuses.svn = s.svc.fuses.svn ||| BitVec.ofNat 64 (2 ^ it.count - 1)) ∧
          (∀ k, k % 4 ≠ it.target % 4 → u.svc.fuses.slot k = s.svc.fuses.slot k)))

namespace Sys2Proof.Machine

/-- The table of R520: from the vote `v`, with what tile `e` has heard at `now`, the vote becomes that of `e`. -/
def votesBy (e : Tile) (now rs : Nat) (v : Vote) : Prop :=
  let live := fun x => (e.heard.get x).live now = true
  let elig := fun x => live x ∧ (e.heard.get x).flags.getLsbD 2 = true
  let owns := fun x => (e.heard.get x).flags.getLsbD 4 = true
  let hands := fun x y => e.handsOver now rs x y = true
  let senior : OfficeId := if (e.heard.get .B).flags.getLsbD 3 then .B else .A
  let junior := otherOffice senior
  (v = .none →
    (elig senior → e.vote = .office senior) ∧ (¬ elig senior → elig junior → e.vote = .office junior) ∧
    (¬ elig senior → ¬ elig junior → e.vote = .none)) ∧
  (∀ x, v = .office x →
    let y := otherOffice x
    (¬ live x → elig y → e.vote = .office y) ∧ (¬ live x → ¬ elig y → e.vote = .none) ∧ (live x → hands x y → e.vote = .office y) ∧
    (live x → ¬ hands x y → ¬ owns x → live y → owns y → ¬ hands y x → e.vote = .office y) ∧
    (live x → ¬ hands x y → (owns x ∨ ¬ live y ∨ ¬ owns y) → e.vote = .office x))

/-- Office `o` has asked for a resynchronisation (R532, R536): all is missing until the answer comes. -/
def resyncAsked (s u : State) (o : OfficeId) : Prop :=
  (u.off o).twin.missing = 15 ∧ (u.off o).twin.rxNext = 0 ∧ (u.off o).twin.rxWords = [] ∧ onlyOff s u o ∧
    u.out.head? = some (.link o 0x30001000 [BitVec.ofNat 64 ((s.nextSeq o + 2 ^ 32 - 1) % 2 ^ 32 + (s.off o).nvm.volume % 2 ^ 16 * 2 ^ 32)])

/-- The owner has begun a handover to the first round that starts at least 32,768 ticks later (R545). -/
def handing (s u : State) (o : OfficeId) : Prop :=
  ∃ n, (u.off o).twin.release = some { round := n, started := (s.off o).count.toNat } ∧ (s.off o).count.toNat + 32768 ≤ n * 2 ^ s.svc.roundShift ∧
    n * 2 ^ s.svc.roundShift < (s.off o).count.toNat + 32768 + 2 ^ s.svc.roundShift ∧ u.rd o F.TWN_STAT_HANDOVER = 1 ∧ onlyOff s u o

end Sys2Proof.Machine

/-- HEARTBEAT_SEND, DL_HEARTBEAT_RX, HEARTBEAT_AGE_EXPIRY, OWNERSHIP_EVALUATION and START_GRACE_EXPIRY (R516 to R520, R523, R525,
R529, R543): a heartbeat goes out on the link and on every downlink; a tile takes a good one of the downlink's own office, counts it for the downlink's training (R712), and votes by
the table of R520; an office gains ownership when it may own, with the next term, and ceases when it may not, unless a handover that
has begun still runs. -/
def Obligations.HeartbeatsVotesAndOwnership : Prop :=
  ∀ (s : State) (o : OfficeId) (t : Fin 4) (f : DlFrame) (w : W64),
    let d := s.tile t
    let rs := s.svc.roundShift
    let m := ((s.latchCauses).refreshVotes o).refreshTwin o
    let x := (s.off o).twin
    let ends := s.beats o = true ∧ m.owns o = true ∧ m.mayOwn o = false
    let ceased := fun (u : State) (cause : Nat) => u.role o = .neither ∧ raised s u o 0x0A02 (le 2 (s.rd o F.TWN_TERM_TERM) ++ le 1 cause) ∧
      (u.off o).spans = [] ∧ (u.off o).orders = [] ∧ (u.off o).running = [] ∧ (u.off o).twin.release = none ∧ (u.off o).twin.mayWrite = false
    let own := BitVec.ofNat 16 (m.rd o F.TWN_TERM_TERM)
    let peer := BitVec.ofNat 16 (m.rd o F.TWN_TERM_PEER_TERM)
    let due := ∃ a, x.appliedAt = some a ∧ a + s.rd o F.TWN_CFG_START_GRACE * 150000000 ≤ s.now
    let waits := s.beats o = true ∧ s.isSenior o = false ∧ due ∧ x.seniorElig = false
    (s.beats o = false → exec (.heartbeatSend o) s = .next s) ∧
    (s.beats o = true → gives (.heartbeatSend o) s fun u =>
      let h := u.heartbeat o
      .link o 0x00001000 [h] ∈ u.out ∧ (∀ y, .downlink o y (dlHeader 1 0 1) [h] ∈ u.out) ∧ h.getLsbD 0 = decide (o = .B) ∧
        h.getLsbD 3 = s.isSenior o ∧ (s.inFallback o = true → h.getLsbD 1 = false ∧ h.getLsbD 2 = false ∧ h.getLsbD 4 = false) ∧
        (s.inFallback o = false → h.getLsbD 1 = s.healthy o ∧ h.getLsbD 4 = s.owns o) ∧
        h.extractLsb' 16 16 = BitVec.ofNat 16 (s.rd o F.TWN_TERM_TERM) ∧ u.rd o F.TWN_STAT_HEALTHY = b2n (s.healthy o) ∧ onlyOff s u o) ∧
    ((d.inReset = true ∨ dlGood f = false ∨ dlType f.hdr ≠ 1 ∨ (∃ y, f.words = [y] ∧ y.getLsbD 0 ≠ decide (o = .B))) →
      onlyTile (.dlHeartbeatRx t o f) s t fun e => e = d.trainDownlink o (dlGood f)) ∧
    (d.inReset = false → dlGood f = true → dlType f.hdr = 1 → f.words = [w] → w.getLsbD 0 = decide (o = .B) →
      onlyTile (.dlHeartbeatRx t o f) s t fun e =>
        e.heard.get o = { at_ := some s.now, flags := w.extractLsb' 0 8, hround := w.extractLsb' 32 32 } ∧
          e.heard.get (otherOffice o) = d.heard.get (otherOffice o) ∧ votesBy e s.now rs d.vote ∧ e = { d.trainDownlink o true with heard := e.heard, vote := e.vote }) ∧
    ((d.dl.get o).state = .training → d.inReset = false → gives (.dlHeartbeatRx t o f) s fun u =>
      ((u.tile t).dl.get o).good = if dlGood f then (d.dl.get o).good + 1 else 0) ∧
    (((d.dl.get o).state ≠ .training ∨ d.inReset = true) → d.trainDownlink o (dlGood f) = d) ∧
    ((d.inReset = true ∨ ∃ a, (d.heard.get o).at_ = some a ∧ s.now - a < 45000) → exec (.heartbeatAgeExpiry t o) s = .next s) ∧
    (d.inReset = false → (∀ a, (d.heard.get o).at_ = some a → 45000 ≤ s.now - a) →
      onlyTile (.heartbeatAgeExpiry t o) s t fun e => votesBy e s.now rs d.vote ∧ e = { d with vote := e.vote }) ∧
    (s.beats o = false → exec (.ownershipEvaluation o) s = .next s) ∧
    (s.beats o = true → gives (.ownershipEvaluation o) s fun u => kept s u) ∧
    (s.beats o = true → (m.owns o = m.mayOwn o) → gives (.ownershipEvaluation o) s fun u => u.role o = s.role o ∧
      u.rd o F.TWN_TERM_TERM = s.rd o F.TWN_TERM_TERM ∧ u.tiles = s.tiles) ∧
    (ends → m.healthy o = false → gives (.ownershipEvaluation o) s fun u => ceased u 2) ∧
    (ends → m.healthy o = true → m.handsOver o = false → gives (.ownershipEvaluation o) s fun u => ceased u 0) ∧
    (ends → m.healthy o = true → m.handsOver o = true → gives (.ownershipEvaluation o) s fun u => u.owns o = true) ∧
    (s.beats o = true → m.owns o = false → m.mayOwn o = true → gives (.ownershipEvaluation o) s fun u =>
      u.owns o = true ∧ u.rd o F.TWN_TERM_TERM = ((if later peer own then peer else own) + 1#16).toNat ∧
        u.rd o F.TWN_CNT_GAIN_COUNT = min (s.rd o F.TWN_CNT_GAIN_COUNT + 1) 0xFFFFFFFF ∧ (u.off o).twin.gainAt = s.now ∧
        (u.off o).twin.noOwnerSince = none) ∧
    (¬ waits → exec (.startGraceExpiry o) s = .next s) ∧
    (waits → gives (.startGraceExpiry o) s fun u => (u.off o).twin.graceOver = true ∧ onlyOff s u o ∧ u.role o = s.role o)

/-- LINK_HEARTBEAT_RX, LINK_HEARTBEAT_TIMEOUT, MIRROR_ITEM_RX, MIRROR_ACK_RX, MIRROR_RETRANSMIT, RESYNC_REQUEST_RX, RESYNC,
CLEAR_HEALTH, HANDOVER, HANDOVER_REQUEST_END, FAILBACK_TIMER, HANDOVER_ACCEPT_TIMEOUT, HANDOVER_RELEASE_COMPLETE, HANDOVER_TIMEOUT and
SIGNATURE_SELF_TEST (R524, R526, R531 to R536, R544 to R547): a frame in fault is counted and discarded; items are taken in the order of
`MSEQ`; the owner keeps items until they are acknowledged; a handover starts, is refused, is cancelled or completes. -/
def Obligations.MirrorAndHandover : Prop :=
  ∀ (s : State) (o : OfficeId) (f : LinkFrame) (v : W32) (w : W64) (a0 a1 a2 a3 a4 a5 a6 : W64) (r : Release),
    let d := s.off o
    let x := d.twin
    let rx : List (Instr × Nat) := [(.linkHeartbeatRx o f, 0), (.mirrorItemRx o f, 1), (.mirrorAckRx o f, 2), (.resyncRequestRx o f, 3)]
    let good := fun (k : Nat) => d.inReset = false ∧ linkGood f = true ∧ linkType f = k
    let own := BitVec.ofNat 16 (s.rd o F.TWN_TERM_TERM)
    let peer : W16 := w.extractLsb' 16 16
    let quiet := s.beats o = true ∧ s.linkFresh o = false ∧ s.rd o F.TWN_HEALTH_LINK = 0
    let item := good 1 ∧ s.owns o = false ∧ s.beats o = true ∧ f.words.head? = some w
    let num := bitsOf w.toNat 0 32
    let asks := fun (n : Nat) => writable s o F.TWN_CTL_HANDOVER.off v.toNat ∧ v.toNat / 2 ^ 29 = n
    let newer := (s.book o).filter fun e => later (BitVec.ofNat 32 (fieldAt e 4 4)) (w.extractLsb' 0 32)
    let back := s.owns o = true ∧ s.flag o F.TWN_CFG_AUTO_FAILBACK = true ∧ s.isSenior o = false ∧ s.peerCanTake o = true ∧ x.release = none ∧
      ∃ a, x.peerEligSince = some a ∧ a + s.rd o F.TWN_CFG_FAILBACK_S * 1500000000 ≤ s.now
    let m := s.settleHandover o
    let done := m.handsOver o = true ∧ ((m.mode o).isData = true → (m.off o).drained = true) ∧ ∀ i ∈ (m.off o).unacked, i.kind ≠ 2
    let late := s.handsOver o = true ∧ r.round * 2 ^ s.svc.roundShift + s.rd o F.TWN_CFG_HANDOVER_TMO * 15000000 ≤ d.count.toNat
    let ended := fun (u : State) => u.role o = .neither ∧ (u.off o).twin.release = none ∧
      u.rd o F.TWN_CNT_HANDOVER_COUNT = min (s.rd o F.TWN_CNT_HANDOVER_COUNT + 1) 0xFFFFFFFF
    (d.inReset = true → ∀ c ∈ rx, exec c.1 s = .next s) ∧
    (d.inReset = false → linkGood f = false → ∀ c ∈ rx, exec c.1 s = .next (s.modOff o fun e => { e with
      linkCrc := if d.linkCrc = 0xFFFFFFFF then d.linkCrc else d.linkCrc + 1
      twin := { x with rxBroken := x.rxBroken || decide (linkType f = 1) || decide (x.rxWords ≠ []) } })) ∧
    (d.inReset = false → linkGood f = true → ∀ c ∈ rx, linkType f ≠ c.2 → exec c.1 s = .next s) ∧
    (good 0 → f.words = [w] → gives (.linkHeartbeatRx o f) s fun u =>
      (u.off o).twin.hbWord = w ∧ (u.off o).twin.hbAt = some s.now ∧ u.rd o F.TWN_STAT_LINK_UP = 1 ∧
        u.rd o F.TWN_TERM_PEER_TERM = peer.toNat ∧ u.flag o F.TWN_HEALTH_LINK = false ∧ u.tiles = s.tiles ∧ kept s u) ∧
    (good 0 → f.words = [w] → s.beats o = true → s.owns o = true → w.getLsbD 4 = true → s.inHandover o w = false →
      (later peer own = true ∨ (own = peer ∧ s.isSenior o = false)) → gives (.linkHeartbeatRx o f) s fun u => u.role o = .neither) ∧
    (¬ quiet → exec (.linkHeartbeatTimeout o) s = .next s) ∧
    (quiet → gives (.linkHeartbeatTimeout o) s fun u => u.rd o F.TWN_HEALTH_LINK = 1 ∧ u.rd o F.TWN_STAT_LINK_UP = 0 ∧ (u.off o).twin.rxWords = [] ∧
      onlyOff s u o ∧ (s.role o = .relief → s.peerLiveAtTiles o = true → u.rd o F.TWN_STAT_STALE = 1 ∧
        u.rd o F.TWN_CNT_LINKLOSS_COUNT = min (s.rd o F.TWN_CNT_LINKLOSS_COUNT + 1) 0xFFFFFFFF)) ∧
    (good 1 → (s.owns o = true ∨ s.beats o = false) → exec (.mirrorItemRx o f) s = .next s) ∧
    (item →
      (later (BitVec.ofNat 32 num) (BitVec.ofNat 32 x.rxNext) = true → ¬ (x.missing = 15 ∧ x.rxNext = 0) → gives (.mirrorItemRx o f) s fun u =>
        resyncAsked s u o ∧ (u.off o).regs = d.regs) ∧
      (later (BitVec.ofNat 32 num) (BitVec.ofNat 32 x.rxNext) = false → num ≠ x.rxNext → linkMore f = false →
        exec (.mirrorItemRx o f) s = .next { s with out := .link o 0x20001000 [BitVec.ofNat 64 ((x.rxNext + 2 ^ 32 - 1) % 2 ^ 32)] :: s.out }) ∧
      (num = x.rxNext → linkMore f = true → exec (.mirrorItemRx o f) s = .next (s.modOff o fun e =>
        { e with twin := { x with rxWords := x.rxWords ++ f.words.drop 1 } })) ∧
      (num = x.rxNext → linkMore f = false → x.rxBroken = true → exec (.mirrorItemRx o f) s = .next (s.modOff o fun e =>
        { e with twin := { x with rxWords := [], rxBroken := false } })) ∧
      (num = x.rxNext → linkMore f = false → x.rxBroken = false → bitsOf w.toNat 32 8 = 2 → x.missing = 0 → x.rxWords = [] →
        f.words.drop 1 = [a0, a1, a2, a3, a4, a5, a6] → a0 ≠ 0xFFFFFFFF → num + 1 < 2 ^ 32 → gives (.mirrorItemRx o f) s fun u =>
          (u.off o).twin.pointer = some { sack := a0.toNat, off := a1.toNat, gen := a2.toNat, seq := a3.toNat, round := a4.toNat,
                                          logTail := a5.toNat, lseq := a6.toNat } ∧ (u.off o).twin.rxNext = num + 1 ∧ u.role o = s.role o ∧
            u.out.head? = some (.link o 0x20001000 [BitVec.ofNat 64 num]) ∧ onlyOff s u o)) ∧
    (good 2 → s.owns o = false → exec (.mirrorAckRx o f) s = .next s) ∧
    (good 2 → s.owns o = true → f.words = [w] → gives (.mirrorAckRx o f) s fun u =>
      (u.off o).unacked = d.unacked.filter (fun i => later (BitVec.ofNat 32 i.mseq) (w.extractLsb' 0 32)) ∧
        u.rd o F.TWN_MIRROR_UNACKED = min (u.off o).unacked.length 0xFFFF ∧ u.out = s.out ∧ onlyOff s u o ∧ regsKept s u o [F.TWN_MIRROR_UNACKED.key 0 0]) ∧
    ((d.inReset = true ∨ d.unacked = [] ∨ (∃ i, d.unacked.head? = some i ∧ s.now < i.sentAt + 150000)) → exec (.mirrorRetransmit o) s = .next s) ∧
    (d.inReset = false → (∃ i, d.unacked.head? = some i ∧ i.sentAt + 150000 ≤ s.now) → gives (.mirrorRetransmit o) s fun u =>
      (u.off o).unacked = d.unacked.map (fun i => { i with sentAt := s.now }) ∧ (u.off o).regs = d.regs ∧ onlyOff s u o ∧ (u.off o).twin = x) ∧
    (good 3 → s.owns o = false → exec (.resyncRequestRx o f) s = .next s) ∧
    (good 3 → s.owns o = true → f.words = [w] → newer.length < 2 ^ 31 → gives (.resyncRequestRx o f) s fun u =>
      (u.off o).unacked.map (·.kind) = List.replicate newer.length 1 ++ [4, 5, 3, 2] ∧
        (u.off o).unacked.map (·.mseq) = List.range (newer.length + 4) ∧ (u.off o).mseq = newer.length + 4 ∧ u.role o = s.role o ∧ onlyOff s u o) ∧
    (s.takesWrites o = false → exec (.resync o v) s = .next s ∧ exec (.handover o v) s = .next s ∧ exec (.clearHealth o v) s = .next s) ∧
    (asks 1 →
      (s.role o = .relief → gives (.resync o v) s fun u => resyncAsked s u o ∧ regsKept s u o []) ∧
      (s.role o ≠ .relief → gives (.resync o v) s fun u => (u.off o).twin = x ∧ regsKept s u o [] ∧ onlyOff s u o ∧ u.out = s.out)) ∧
    (asks 2 →
      (s.healthWord o / 2 % 8 ≠ 0 → gives (.clearHealth o v) s fun u => (u.off o).twin = { x with clearing := true, passed := 0 } ∧ regsKept s u o [] ∧ onlyOff s u o) ∧
      (s.healthWord o / 2 % 8 = 0 → gives (.clearHealth o v) s fun u => (u.off o).twin = x ∧ regsKept s u o [] ∧ onlyOff s u o)) ∧
    (asks 4 →
      (s.owns o = true → x.release.isSome = true → gives (.handover o v) s fun u => raised s u o 0x0A05 [2] ∧ (u.off o).twin = x ∧ onlyOff s u o) ∧
      (s.owns o = true → x.release = none → s.peerCanTake o = false → gives (.handover o v) s fun u => raised s u o 0x0A05 [0] ∧ (u.off o).twin = x ∧ onlyOff s u o) ∧
      (s.owns o = true → x.release = none → s.peerCanTake o = true → gives (.handover o v) s fun u => handing s u o) ∧
      (s.role o = .relief → gives (.handover o v) s fun u => (u.off o).twin.requestUntil = some (s.now + 1500000) ∧ onlyOff s u o ∧ regsKept s u o []) ∧
      (s.role o = .neither → gives (.handover o v) s fun u => (u.off o).twin = x ∧ onlyOff s u o ∧ regsKept s u o [])) ∧
    ((∀ a, x.requestUntil = some a → s.now < a) → exec (.handoverRequestEnd o) s = .next s) ∧
    ((∃ a, x.requestUntil = some a ∧ a ≤ s.now) → gives (.handoverRequestEnd o) s fun u => (u.off o).twin.requestUntil = none ∧
      (u.off o).regs = d.regs ∧ onlyOff s u o) ∧
    (¬ back → exec (.failbackTimer o) s = .next s) ∧ (back → gives (.failbackTimer o) s fun u => handing s u o) ∧
    ((x.release = none ∨ ∃ y, x.release = some y ∧ (y.accepted = true ∨ d.count.toNat + 8192 < y.round * 2 ^ s.svc.roundShift)) →
      exec (.handoverAcceptTimeout o) s = .next s) ∧
    (x.release = some r → r.accepted = false → r.round * 2 ^ s.svc.roundShift ≤ d.count.toNat + 8192 → gives (.handoverAcceptTimeout o) s fun u =>
      (u.off o).twin.release = none ∧ u.rd o F.TWN_STAT_HANDOVER = 0 ∧ raised s u o 0x0A05 [1] ∧ onlyOff s u o ∧
        regsKept s u o [F.TWN_STAT_HANDOVER.key 0 0]) ∧
    ((x.release = none ∨ s.handsOver o = false) → exec (.handoverReleaseComplete o) s = .next s ∧ exec (.handoverTimeout o) s = .next s) ∧
    (x.release = some r → s.handsOver o = true → ¬ done → exec (.handoverReleaseComplete o) s = .next m) ∧
    (x.release = some r → s.handsOver o = true → done → gives (.handoverReleaseComplete o) s fun u => ended u ∧
      raised s u o 0x0A04 (le 4 r.round ++ le 4 0) ∧ kept s u) ∧
    (x.release = some r → ¬ late → exec (.handoverTimeout o) s = .next s) ∧
    (x.release = some r → late → gives (.handoverTimeout o) s fun u => ended u ∧ raised s u o 0x0A04 (le 4 r.round ++ le 4 (s.unstored o r.round)) ∧ kept s u) ∧
    ((s.beats o = false ∨ s.owns o = true) → exec (.signatureSelfTest o false) s = .next s) ∧ exec (.signatureSelfTest o true) s = .next s ∧
    (s.beats o = true → s.owns o = false → gives (.signatureSelfTest o false) s fun u => u.flag o F.TWN_HEALTH_SELFTEST = true ∧
      u.rd o F.TWN_SELFTEST_LAST_FAIL = 4 ∧ u.rd o F.TWN_CNT_STFAIL_COUNT = min (s.rd o F.TWN_CNT_STFAIL_COUNT + 1) 0xFFFFFFFF ∧
      (u.off o).twin.passed = 0 ∧ onlyOff s u o)

/-- BIAS_SAMPLE_PERIOD, ELECTROMETER_GATE_END, LOOP_REQUEST_OFF, LOOP_REQUEST_MANUAL, LOOP_REQUEST_AUTO, ACK, LOOP_STOP_TIMER,
LOOP_SETPOINT_WRITE and LOOP_MAN_V_WRITE (R560, R562, R564 to R567, R574 to R577, R580, R581): a write waits for its sample period; a
request starts or stops a loop in it; a loop that is OFF keeps its output, in MANUAL the ramp moves by at most its rate and drives the DAC, in AUTO stale feedback holds the
loop; a guard in mode 0 gives 0; the end of a gate forms the current and judges the trip; a stop ends in OFF 1 s after the ramp is 0. -/
def Obligations.BiasLoopsRun : Prop :=
  ∀ (s : State) (o : OfficeId) (k : Fin 2) (v : W32) (l0 l1 : LoopSample) (over4 : BitVec 4) (g : Fin 4) (val a : Nat),
    let n := k.val
    let l := s.loop n
    let x := if n = 0 then l0 else l1
    let cmd := F.LOOP_CMD_GO.addr n 0
    let cmds : List Instr := [.loopRequestOff o k v, .loopRequestManual o k v, .loopRequestAuto o k v, .ack o k v]
    let waits := fun (u : State) (kind : Nat) => (u.loop n).writes = l.writes ++ [{ kind := kind, value := v.toNat, at_ := s.now }] ∧
      u.loop (1 - n) = s.loop (1 - n) ∧ regsKept s u o [] ∧ u.tiles = s.tiles ∧ u.out = s.out ∧ kept s u
    let foreign := s.takesWrites o = true ∧ s.owns o = true ∧ s.loopSender o = false
    let turned := fun (u : State) (addr : Nat) => raised s u o 0x0910 (le 4 addr ++ le 4 v.toNat ++ [0]) ∧ u.svc = s.svc ∧ regsKept s u o [] ∧ u.tiles = s.tiles
    let sample := Instr.biasSamplePeriod l0 l1 over4
    let at_ := s.svc.inReset = false ∧ s.svc.count.toNat % 30000 = 0
    let none_ := ∀ w ∈ l.writes, s.now < w.at_ + 1500
    let due1 := l.writes = [{ kind := 0, value := val, at_ := a }] ∧ a + 1500 ≤ s.now
    let y : Int := if x.monValid then roundDiv ((x.mon.toNat : Int) * s.srd F.LOOP_SCALE_MON_GAIN n * 32) 125 else l.y
    let target := roundDiv ((s.srd F.LOOP_MAN_V_MV n : Int) * 2 ^ 36) 1000
    let delta : Int := (s.srd F.LOOP_RAMP_RAMP n : Int) * 2 ^ 37 / 1000000
    let r : Int := if (target - l.r).natAbs ≤ delta.natAbs then target else if l.r < target then l.r + delta else l.r - delta
    let bad := x.monValid = false ∨ x.mon = 0 ∨ x.mon = 0xFFFF
    let range := s.srd F.BIAS_ESTAT_RANGE_ACT n
    let gate := s.svc.inReset = false ∧ s.srd F.BIAS_ECFG_GATE n ≤ l.yNum
    let cap : Int := if range = 0 then 10 else if range = 1 then 1000 else 100000
    let i : Int := roundDiv (50 * cap * l.dSum) l.dNum
    let trip := s.srd F.BIAS_ITRIP_ITRIP n
    let ends := s.srd F.LOOP_STAT_STOPPING n ≠ 0 ∧ s.loopState n = 1 ∧ ∃ z, l.zeroSince = some z ∧ z + 1500000000 ≤ s.now
    (s.takesWrites o = false → ∀ c ∈ cmds, exec c s = .next s) ∧
    (s.takesWrites o = false → gives (.loopSetpointWrite o k v) s (fun u => u.svc.loops = s.svc.loops ∧ u.offices = s.offices ∧ u.out = s.out) ∧
      gives (.loopManVWrite o k v) s (fun u => u.svc.loops = s.svc.loops ∧ u.offices = s.offices ∧ u.out = s.out)) ∧
    (writable s o cmd v.toNat → s.loopSender o = true → ∀ c ∈ cmds, gives c s fun u => waits u 0 ∧ svcRegsKept s u []) ∧
    (writable s o (F.LOOP_SETPOINT_MV.addr n 0) v.toNat → s.loopSender o = true → gives (.loopSetpointWrite o k v) s fun u => waits u 1 ∧
      u.srd F.LOOP_SETPOINT_MV n = s.srd F.LOOP_SETPOINT_MV n % 2 ^ 20) ∧
    (writable s o (F.LOOP_MAN_V_MV.addr n 0) v.toNat → s.loopSender o = true → gives (.loopManVWrite o k v) s fun u => waits u 2 ∧
      u.srd F.LOOP_MAN_V_MV n = s.srd F.LOOP_MAN_V_MV n % 2 ^ 20) ∧
    (foreign → (∀ c ∈ cmds, gives c s fun u => turned u cmd) ∧ gives (.loopSetpointWrite o k v) s (fun u => turned u (F.LOOP_SETPOINT_MV.addr n 0)) ∧
      gives (.loopManVWrite o k v) s fun u => turned u (F.LOOP_MAN_V_MV.addr n 0)) ∧
    (¬ at_ → exec sample s = .next s) ∧
    (at_ → gives sample s fun u => (u.loop n).y = y ∧ u.srd F.LOOP_STAT_REGFLT n = b2n x.fltLow ∧
      (x.monValid = true → u.srd F.LOOP_OUT_MON_CODE n = x.mon.toNat) ∧
      (u.loop n).writes = l.writes.filter (fun w => decide (s.now < w.at_ + 1500)) ∧ (u.loop n).yNum = l.yNum + 1 ∧ (u.loop n).ySum = l.ySum + y ∧
      u.srd F.BIAS_GSTAT_OVC g.val = b2n (over4.getLsbD g.val) ∧ (s.srd F.BIAS_GCFG_MODE g.val = 0 → u.srd F.BIAS_GSTAT_G_OUT g.val = 0) ∧
      u.svc.count = s.svc.count ∧ u.tiles = s.tiles ∧ kept s u ∧ u.out = s.out) ∧
    (at_ → none_ → s.loopState n = 0 → gives sample s fun u => u.loopState n = 0 ∧ (u.loop n).r = l.r ∧ (u.loop n).u = l.u ∧
      u.srd F.LOOP_OUT_DAC_CODE n = s.srd F.LOOP_OUT_DAC_CODE n) ∧
    (at_ → none_ → s.loopState n = 1 → s.srd F.LOOP_STAT_STOPPING n = 0 → l.trip = false → gives sample s fun u => u.loopState n = 1 ∧ (u.loop n).r = r ∧
      (u.loop n).u = roundDiv r (2 ^ 16) ∧ u.srd F.LOOP_OUT_DAC_CODE n = s.dacCode n (roundDiv r (2 ^ 16)) % 2 ^ 16) ∧
    (at_ → none_ → s.loopState n = 2 → s.srd F.LOOP_STAT_STOPPING n = 0 → bad → s.srd F.LOOP_CHECK_STALE_N n ≤ l.stale + 1 → gives sample s fun u =>
      u.loopState n = 3 ∧ u.srd F.LOOP_STAT_CAUSE n = 1 ∧ u.srd F.LOOP_OUT_DAC_CODE n = s.srd F.LOOP_OUT_DAC_CODE n ∧
        u.srd F.LOOP_CNT_HOLD_COUNT n = min (s.srd F.LOOP_CNT_HOLD_COUNT n + 1) 0xFFFFFFFF) ∧
    (at_ → due1 → s.loopState n = 0 → val / 2 ^ 31 = 1 → val % 4 = 1 → s.srd F.LOOP_STAT_LOCK n = 0 → gives sample s fun u => u.loopState n = 1) ∧
    (at_ → due1 → s.loopState n = 0 → val / 2 ^ 31 = 1 → val % 4 = 2 → s.srd F.LOOP_STAT_LOCK n = 0 → l.cfgBusy = false → x.fltLow = false →
      l.stale < s.srd F.LOOP_CHECK_STALE_N n → l.frozen < s.srd F.LOOP_CHECK_FROZEN_N n → gives sample s fun u => u.loopState n = 2) ∧
    (at_ → due1 → s.loopState n = 1 → val / 2 ^ 31 = 1 → val % 4 = 0 → gives sample s fun u => u.loopState n = 1 ∧ u.srd F.LOOP_STAT_STOPPING n = 1) ∧
    (at_ → due1 → val / 2 ^ 30 = 1 → gives sample s fun u => u.srd F.LOOP_STAT_LOCK n = 0) ∧
    (¬ gate → exec (.electrometerGateEnd k) s = .next s) ∧
    (gate → gives (.electrometerGateEnd k) s fun u => (u.loop n).dSum = 0 ∧ (u.loop n).dNum = 0 ∧ (u.loop n).ySum = 0 ∧ (u.loop n).yNum = 0 ∧
      (u.loop n).rStart = (u.loop n).r ∧ (u.loop n).overrun = false ∧ u.loop (1 - n) = s.loop (1 - n) ∧ u.tiles = s.tiles ∧ kept s u ∧ u.out = s.out ∧
      u.srd F.BIAS_ESTAT_OVR n = b2n l.overrun ∧
      (l.discard = true → u.srd F.BIAS_I_IMEAS n = s.srd F.BIAS_I_IMEAS n % 2 ^ 32 ∧ u.srd F.BIAS_ESTAT_RANGE_ACT n = range % 4) ∧
      (l.discard = false → l.overrun = false → l.dNum ≠ 0 → u.srd F.BIAS_I_IMEAS n = ofInt 32 i) ∧
      (l.discard = false → s.srd F.BIAS_ECFG_FIX n ≠ 0 → u.srd F.BIAS_ESTAT_RANGE_ACT n = min 2 (s.srd F.BIAS_ECFG_RANGE n) ∧
        u.srd F.BIAS_ESTAT_RANGING n = b2n (min 2 (s.srd F.BIAS_ECFG_RANGE n) ≠ range)) ∧
      (l.discard = false → l.overrun = false → l.dNum ≠ 0 → trip ≠ 0 → (trip : Int) < i → u.srd F.LOOP_STAT_LOCK n = 1 ∧
        (s.loopState n ≠ 0 → u.srd F.LOOP_STAT_STOPPING n = 1) ∧ (s.owner = some o → raised s u o 0x0B09 (le 1 n ++ le 4 (ofInt 32 i))))) ∧
    (¬ ends → exec (.loopStopTimer k) s = .next s) ∧
    (ends → gives (.loopStopTimer k) s fun u => u.loopState n = 0 ∧ u.srd F.LOOP_STAT_STOPPING n = 0 ∧ u.srd F.LOOP_OUT_DAC_CODE n = 0 ∧
      (u.loop n).r = 0 ∧ (u.loop n).u = 0 ∧ u.loop (1 - n) = s.loop (1 - n) ∧ u.tiles = s.tiles ∧ kept s u ∧ u.out = s.out)

/-- HOUSEKEEPING_SAMPLE, POINT_CYCLE_END, SCAN_END, SWAP, AUX_EDGE, INTERVAL_START_TIMEOUT, INTERVAL_READ, FREQUENCY_UPDATE,
FREQUENCY_HANDOFF, STATUS_LOOP_UPDATE, SL_FORCE_WRITE and SL_FORCE_EXPIRY (R590 to R594, R599 to R603, R605, R608): samples are
discarded or summed, a point is swapped once and gives its resistance, a scan its number and checks; edges are stamped and counted; the
status loop shows 3.5 mA at the start, the fault level, the force or its source. -/
def Obligations.EnvironmentAndStatusLoop : Prop :=
  ∀ (s : State) (o : OfficeId) (x falling compliance : Bool) (code : BitVec 12) (v : W32) (tick : W64) (fine : BitVec 7) (k : Fin 2),
    let e := s.svc.env
    let d := s.off o
    let a := d.aux
    let c := d.count.toNat
    let i := b2n x
    let len := 2 ^ s.srd F.ENV_CFG_F_LOG2
    let settle := s.srd F.ENV_CFG_N_SETTLE
    let envOnly := fun (f : EnvScan) => s.modSvc fun z => { z with env := f }
    let samples := s.svc.inReset = false ∧ s.svc.count.toNat % 15360 = 0 ∧ s.cycleDone = false ∧ e.chan < 32
    let one : EnvScan := { e with open_ := e.open_ || compliance, num := e.num + 1, sum := e.sum + code.toInt,
                                  ovr := e.ovr || decide (code.toInt = -2048) || decide (code.toInt = 2047) }
    let ends := s.svc.inReset = false ∧ s.cycleDone = true
    let good := s.srd F.ENV_HK_STAT_REF_OK = 1 ∧ s.srd F.ENV_HK_STAT_GND_OK = 1
    let lsb : Int := if s.srd F.ENV_PT_CFG_GAIN e.chan = 1 then 125 else 1000
    let scans := s.svc.inReset = false ∧ 32 ≤ e.chan
    let begun := e.chan < 12 ∧ s.cycleDone = false ∧ (e.reverse = true ∨ e.restarts ≠ 0 ∨ e.skip < 1 + settle)
    let swaps := writable s o F.ENV_CTL_SWAP.off v.toNat ∧ v.getLsbD 31 = true
    let t : Int := (tick.toNat : Int) * 8192 + 64 * fine.toNat + 32 - toInt 32 (s.rd o F.AUX_DLY_DLY i)
    let edge := d.inReset = false ∧ s.rd o F.AUX_CFG_EN i ≠ 0 ∧ s.rd o F.AUX_CFG_SLOPE i = b2n falling
    let dead := ∃ n, Sparse.get 0 a.last i = n + 1 ∧ tick.toNat < n + s.rd o F.AUX_DEAD_DEAD i
    let reads := d.inReset = false ∧ d.d3hot = false ∧ s.answersRead o 0x0A05208 = true ∧ a.ivlWait = []
    let q := (a.fifo.head?.map (·.1)).getD 0
    let updAt := if x then a.updAt.b else a.updAt.a
    let updates := d.inReset = false ∧ updAt + s.rd o F.AUX_F_CFG_FUPD i * 1500000 ≤ s.now
    let ts := ((if x then a.edges.b else a.edges.a).filter fun y => decide (c ≤ y.1 + s.rd o F.AUX_F_CFG_FGATE i * 1500000)).map (·.2) |>.reverse
    let res := meterResult (s.rd o F.AUX_F_CFG_F_JIT i) (c * 8192) ts
    let hands := s.owns o = true ∧ s.svc.inReset = false
    let f := if s.rd o F.AUX_F_STAT_VALID i ≠ 0 then some (s.rd o F.AUX_FREQ_LO_F_L i + s.rd o F.AUX_FREQ_HI_F_H i * 2 ^ 32) else none
    let m := s.endForce
    let fault := (m.faultLevel (m.causesNow ||| s.svc.sl.latched)).1
    let start := s.svc.sl.configured = false ∨ s.moduleMode = .dormant ∨ s.moduleMode = .fallback
    let shows := fun (u : State) (level ua : Nat) => u.srd F.SL_STAT_LEVEL = level ∧ u.srd F.SL_STAT_UA_SET = ua
    let force := writable s o F.SL_FORCE_EN.off v.toNat ∧ s.forceAllowed = true
    let ua := v.toNat % 2 ^ 15
    (¬ samples → exec (.housekeepingSample code compliance) s = .next s) ∧
    (samples → e.skip ≠ 0 → exec (.housekeepingSample code compliance) s = .next (envOnly { e with open_ := e.open_ || compliance, skip := e.skip - 1 })) ∧
    (samples → e.skip = 0 → e.chan < 12 → (e.reverse = true ∨ e.num + 1 < len) → exec (.housekeepingSample code compliance) s = .next (envOnly one)) ∧
    (samples → e.skip = 0 → e.chan < 12 → e.reverse = false → len ≤ e.num + 1 → exec (.housekeepingSample code compliance) s =
      .next (envOnly { one with reverse := true, fwd := e.sum + code.toInt, sum := 0, num := 0, skip := settle })) ∧
    (samples → e.skip = 0 → 12 ≤ e.chan → e.num + 1 < 16 → exec (.housekeepingSample code compliance) s = .next (envOnly one)) ∧
    (samples → e.skip = 0 → 12 ≤ e.chan → 16 ≤ e.num + 1 → gives (.housekeepingSample code compliance) s fun u =>
      u.srd F.ENV_HK_VALUE e.chan = ofInt 16 (e.sum + code.toInt) ∧ u.srd F.ENV_HK_VALID e.chan = 1 ∧ u.svc.env.chan = e.chan + 1 ∧ u.svc.env.skip = 1 ∧
        (e.chan = 12 → u.srd F.PWR_STAT_VIN_MV = ((e.sum + code.toInt) * 2).toNat % 2 ^ 16) ∧ onlySvc s u ∧ u.out = s.out) ∧
    (¬ ends → exec .pointCycleEnd s = .next s) ∧
    (ends → gives .pointCycleEnd s fun u => u.srd F.ENV_HK_VALID e.chan = 1 ∧ u.svc.env.chan = s.nextPoint (e.chan + 1) ∧ u.svc.env.reverse = false ∧
      u.svc.env.num = 0 ∧ u.tiles = s.tiles ∧ kept s u ∧ u.out = s.out ∧ u.srd F.ENV_HK_VALUE e.chan = ofInt 16 (satI 16 (roundDiv (e.fwd * 16) len)) ∧
      (good → u.srd F.ENV_PT_RES_R e.chan = ofInt 32 (roundDiv ((e.fwd - e.sum) * lsb * 1000) (len * twiceIexc (s.srd F.ENV_PT_CFG_IEXC e.chan))) ∧
        u.srd F.ENV_PT_OFS_SCAN e.chan = s.srd F.ENV_HK_STAT_SCAN % 2 ^ 16) ∧
      (¬ good → u.srd F.ENV_PT_RES_R e.chan = s.srd F.ENV_PT_RES_R e.chan ∧ u.srd F.ENV_PT_TEMP_T e.chan = s.srd F.ENV_PT_TEMP_T e.chan)) ∧
    (¬ scans → exec .scanEnd s = .next s) ∧
    (scans → gives .scanEnd s fun u => u.srd F.ENV_HK_STAT_SCAN = (s.srd F.ENV_HK_STAT_SCAN + 1) % 65536 ∧ u.svc.env.chan = s.nextPoint 0 ∧
      u.srd F.ENV_HK_STAT_REF_OK = b2n ((200 * (toInt 16 (s.srd F.ENV_HK_VALUE 26) - 16384)).natAbs ≤ 16384) ∧
      u.srd F.ENV_HK_STAT_GND_OK = b2n ((toInt 16 (s.srd F.ENV_HK_VALUE 27)).natAbs ≤ 32) ∧ u.tiles = s.tiles ∧ kept s u ∧ u.out = s.out) ∧
    (s.takesWrites o = false → exec (.swap o v) s = .next s ∧ exec (.slForceWrite o v) s = .next s) ∧
    (swaps →
      (¬ begun → gives (.swap o v) s fun u => u.svc.env = e ∧ regsKept s u o [] ∧ u.tiles = s.tiles ∧ u.out = s.out) ∧
      (begun → gives (.swap o v) s fun u => u.srd F.ENV_CNT_RESTART_COUNT = min (s.srd F.ENV_CNT_RESTART_COUNT + 1) 0xFFFFFFFF ∧ u.tiles = s.tiles ∧
        (e.restarts < 2 → u.svc.env = { e with reverse := false, skip := settle, num := 0, sum := 0, fwd := 0, ovr := false, open_ := false, restarts := e.restarts + 1 }) ∧
        (2 ≤ e.restarts → u.svc.env.chan = s.nextPoint (e.chan + 1) ∧ u.svc.env.restarts = 0 ∧
          u.srd F.ENV_CNT_ABANDON_COUNT = min (s.srd F.ENV_CNT_ABANDON_COUNT + 1) 0xFFFFFFFF))) ∧
    ((d.inReset = true ∨ s.rd o F.AUX_CFG_EN i = 0) → exec (.auxEdge o x falling tick fine) s = .next s) ∧
    (edge → ¬ dead → gives (.auxEdge o x falling tick fine) s fun u =>
      u.rd o F.AUX_CNT_EDGE_COUNT i = min (s.rd o F.AUX_CNT_EDGE_COUNT i + 1) 0xFFFFFFFF ∧
        u.rd o F.AUX_LAST_LO_T_L i + u.rd o F.AUX_LAST_HI_T_H i * 2 ^ 32 = ofInt 64 t ∧ u.tiles = s.tiles ∧ kept s u ∧
        (if x then (u.off o).aux.edges.b else (u.off o).aux.edges.a) = ((tick.toNat, t) :: if x then a.edges.b else a.edges.a).take 1024) ∧
    (edge → dead → gives (.auxEdge o x falling tick fine) s fun u => u.rd o F.AUX_CNT_DEAD_COUNT i = min (s.rd o F.AUX_CNT_DEAD_COUNT i + 1) 0xFFFFFFFF ∧
      u.rd o F.AUX_CNT_EDGE_COUNT i = s.rd o F.AUX_CNT_EDGE_COUNT i ∧ (u.off o).aux.edges = a.edges ∧ onlyOff s u o) ∧
    ((d.inReset = true ∨ (a.ivlWait = [] ∧ (a.ivlStart = none ∨ s.rd o F.AUX_IVL_MAX_MAX = 0 ∨
      ∃ y, a.ivlStart = some y ∧ c ≤ y.tick + s.rd o F.AUX_IVL_MAX_MAX))) → exec (.intervalStartTimeout o) s = .next s) ∧
    (d.inReset = false → a.ivlWait = [] → s.rd o F.AUX_IVL_MAX_MAX ≠ 0 → (∃ y, a.ivlStart = some y ∧ y.tick + s.rd o F.AUX_IVL_MAX_MAX < c) →
      gives (.intervalStartTimeout o) s fun u => (u.off o).aux = { a with ivlStart := none } ∧ onlyOff s u o ∧ u.out = s.out ∧
        u.rd o F.AUX_CNT_TIMEOUT_COUNT = min (s.rd o F.AUX_CNT_TIMEOUT_COUNT + 1) 0xFFFFFFFF ∧ regsKept s u o [F.AUX_CNT_TIMEOUT_COUNT.key 0 0]) ∧
    (reads → gives (.intervalRead o) s fun u => (u.off o).aux = { a with fifo := a.fifo.drop 1 } ∧ u.out = .completion o [BitVec.ofNat 32 q] false :: s.out ∧
      u.rd o F.AUX_IVL_STAT_FILL = (a.fifo.length - 1) % 128 ∧ u.rd o F.AUX_IVL_HI_VALID = b2n a.fifo.head?.isSome ∧
      u.rd o F.AUX_IVL_HI_D_H = q / 2 ^ 32 % 2 ^ 16 ∧ onlyOff s u o) ∧
    (¬ updates → exec (.frequencyUpdate o x) s = .next s) ∧
    (updates → gives (.frequencyUpdate o x) s fun u => onlyOff s u o ∧ u.out = s.out ∧
      (if x then (u.off o).aux.updAt.b else (u.off o).aux.updAt.a) = s.now ∧
      (s.rd o F.AUX_CFG_EN i = 0 → u.rd o F.AUX_F_STAT_VALID i = 0 ∧ u.rd o F.AUX_F_STAT_CAUSE i = 4 ∧ u.rd o F.AUX_F_STAT_EDGES i = 0) ∧
      (s.rd o F.AUX_CFG_EN i ≠ 0 → u.rd o F.AUX_F_STAT_EDGES i = ts.length % 2 ^ 11) ∧
      (s.rd o F.AUX_CFG_EN i ≠ 0 → ts.length < 3 → u.rd o F.AUX_F_STAT_VALID i = 0 ∧ u.rd o F.AUX_F_STAT_CAUSE i = 1) ∧
      (∀ z, s.rd o F.AUX_CFG_EN i ≠ 0 → res = .inl z → u.rd o F.AUX_F_STAT_VALID i = 1 ∧
        u.rd o F.AUX_FREQ_LO_F_L i + u.rd o F.AUX_FREQ_HI_F_H i * 2 ^ 32 = z % 2 ^ 64)) ∧
    (¬ hands → exec (.frequencyHandoff o x) s = .next s) ∧
    (hands → gives (.frequencyHandoff o x) s fun u => u.tiles = s.tiles ∧ kept s u ∧ u.out = s.out ∧
      (s.srd F.LOOP_REP_CFG_SRC k.val ≠ i → u.loop k.val = s.loop k.val) ∧
      (s.srd F.LOOP_REP_CFG_SRC k.val = i → (u.loop k.val).freq = f ∧ ∀ y, f = some y → (u.loop k.val).freqAt = some s.now ∧
        u.srd F.LOOP_REP_DPHI_DPHI k.val = (roundDiv (y * 2 ^ 32) 50000000000).toNat % 2 ^ 32)) ∧
    (s.svc.inReset = true → exec .statusLoopUpdate s = .next s) ∧
    (s.svc.inReset = false → gives .statusLoopUpdate s fun u => u.srd F.SL_STAT_CAUSES = m.causesNow % 2 ^ 10 ∧ u.svc.sl.latched = 0 ∧ u.tiles = s.tiles ∧ kept s u ∧
      u.out = s.out ∧ (start → shows u 3 3500) ∧
      (¬ start → fault = true → shows u 1 (if s.srd F.SL_CFG_FAIL_DIR = 1 then 21500 else 3500)) ∧
      (¬ start → fault = false → m.srd F.SL_FORCE_EN = 1 → shows u 2 (s.srd F.SL_FORCE_UA % 2 ^ 15)) ∧
      (¬ start → fault = false → m.srd F.SL_FORCE_EN ≠ 1 → shows u 0 s.slValue) ∧
      (¬ start → fault = false → m.srd F.SL_FORCE_EN ≠ 1 → s.srd F.SL_CFG_SRC = 0 → shows u 0 4000)) ∧
    (s.takesWrites o = true → s.owns o = true → s.forceAllowed = false → gives (.slForceWrite o v) s fun u => u.svc = s.svc ∧ u.tiles = s.tiles ∧
      regsKept s u o [] ∧ raised s u o 0x0910 (le 4 F.SL_FORCE_EN.off ++ le 4 v.toNat ++ [0])) ∧
    (force → gives (.slForceWrite o v) s fun u => u.srd F.SL_FORCE_EN = b2n (v.getLsbD 31) ∧ u.tiles = s.tiles ∧ regsKept s u o [] ∧ u.out = s.out ∧
      u.svc.sl.forceUntil = (if v.getLsbD 31 then some (s.now + 90000000000) else none) ∧
      (3500 ≤ ua → ua ≤ 21500 → u.srd F.SL_FORCE_UA = ua) ∧ ((ua < 3500 ∨ 21500 < ua) → u.srd F.SL_FORCE_UA = s.srd F.SL_FORCE_UA % 2 ^ 15)) ∧
    ((∀ y, s.svc.sl.forceUntil = some y → s.now < y) → exec .slForceExpiry s = .next s) ∧
    ((∃ y, s.svc.sl.forceUntil = some y ∧ y ≤ s.now) → gives .slForceExpiry s fun u => u.srd F.SL_FORCE_EN = 0 ∧ u.svc.sl.forceUntil = none ∧
      svcRegsKept s u [F.SL_FORCE_EN] ∧ onlySvc s u ∧ u.out = s.out)
end

