-- ==== Sys2Proof/Laws/Sparse.lean ====
section
/-! SUPPORT. Laws of the sparse maps: what a read gives after a write, and that every operation keeps the canonical form. -/

namespace Sys2Proof.Machine.Sparse

variable {α : Type}

@[simp] theorem get_erase_same (d : α) (m : Sparse α) (k : Nat) : get d (erase m k) k = d := by
  induction m with
  | nil => rfl
  | cons e m ih => by_cases h : e.1 = k <;> simp [erase, get, h, ih]

theorem get_erase_other (d : α) (m : Sparse α) {k j : Nat} (h : j ≠ k) : get d (erase m k) j = get d m j := by
  induction m with
  | nil => rfl
  | cons e m ih =>
    by_cases h1 : e.1 = k
    · have h2 : e.1 ≠ j := fun h3 => h (h3 ▸ h1 ▸ rfl)
      simp [erase, get, h1, ih, h1 ▸ h2]
    · simp only [erase, h1, if_false, get, ih]

theorem get_insert_other (d : α) (m : Sparse α) {k j : Nat} (v : α) (h : j ≠ k) : get d (insert m k v) j = get d m j := by
  induction m with
  | nil => simp [insert, get, Ne.symm h]
  | cons e m ih =>
    by_cases h1 : k < e.1
    · simp [insert, get, h1, Ne.symm h]
    · simp only [insert, h1, if_false, get, ih]

theorem get_insert_erase (d : α) (m : Sparse α) (k : Nat) (v : α) : get d (insert (erase m k) k v) k = v := by
  induction m with
  | nil => simp [erase, insert, get]
  | cons e m ih =>
    by_cases h1 : e.1 = k
    · simp [erase, h1, ih]
    · by_cases h2 : k < e.1 <;> simp [erase, insert, get, h1, h2, ih]

theorem mem_erase {m : Sparse α} {k : Nat} {e : Nat × α} (h : e ∈ erase m k) : e ∈ m ∧ e.1 ≠ k := by
  induction m with
  | nil => cases h
  | cons x m ih =>
    by_cases h1 : x.1 = k
    · simp only [erase, h1, if_true] at h
      exact ⟨List.mem_cons_of_mem _ (ih h).1, (ih h).2⟩
    · simp only [erase, h1, if_false] at h
      rcases List.mem_cons.1 h with h | h
      · subst h; exact ⟨List.mem_cons_self .., h1⟩
      · exact ⟨List.mem_cons_of_mem _ (ih h).1, (ih h).2⟩

theorem mem_insert {m : Sparse α} {k : Nat} {v : α} {e : Nat × α} (h : e ∈ insert m k v) : e = (k, v) ∨ e ∈ m := by
  induction m with
  | nil => simpa [insert] using h
  | cons x m ih =>
    by_cases h1 : k < x.1
    · simpa [insert, h1] using h
    · simp only [insert, h1, if_false] at h
      rcases List.mem_cons.1 h with h | h
      · exact .inr (h ▸ List.mem_cons_self ..)
      · exact (ih h).imp id (List.mem_cons_of_mem _)

section
variable [DecidableEq α]

@[simp] theorem get_set_same (d : α) (m : Sparse α) (k : Nat) (v : α) : get d (set d m k v) k = v := by
  by_cases h : v = d
  · simp [set, h]
  · simp [set, h, get_insert_erase]

theorem get_set_other (d : α) (m : Sparse α) {k j : Nat} (v : α) (h : j ≠ k) : get d (set d m k v) j = get d m j := by
  by_cases hv : v = d
  · simp [set, hv, get_erase_other d m h]
  · simp [set, hv, get_insert_other d _ v h, get_erase_other d m h]

@[simp] theorem get_update_same (d : α) (m : Sparse α) (k : Nat) (f : α → α) : get d (update d m k f) k = f (get d m k) := by
  simp [update]

theorem get_update_other (d : α) (m : Sparse α) {k j : Nat} (f : α → α) (h : j ≠ k) :
    get d (update d m k f) j = get d m j := get_set_other d m _ h

theorem wf_erase {d : α} {m : Sparse α} (k : Nat) (h : wf d m = true) : wf d (erase m k) = true := by
  induction m with
  | nil => rfl
  | cons x m ih =>
    simp only [wf, Bool.and_eq_true] at h
    by_cases h1 : x.1 = k
    · simpa [erase, h1] using ih h.2
    · simp only [erase, h1, if_false, wf, Bool.and_eq_true]
      refine ⟨⟨h.1.1, ?_⟩, ih h.2⟩
      have := h.1.2
      rw [List.all_eq_true] at this ⊢
      exact fun e he => this e (mem_erase he).1

theorem wf_insert {d : α} {m : Sparse α} {k : Nat} {v : α} (hv : v ≠ d) (h : wf d m = true) (hk : ∀ e ∈ m, e.1 ≠ k) :
    wf d (insert m k v) = true := by
  induction m with
  | nil => simp [insert, wf, hv]
  | cons x m ih =>
    have hw := h
    simp only [wf, Bool.and_eq_true] at h
    by_cases h1 : k < x.1
    · simp only [insert, h1, if_true, wf, Bool.and_eq_true] at hw ⊢
      refine ⟨⟨by simp [hv], ?_⟩, hw⟩
      rw [List.all_eq_true]
      intro e he
      rcases List.mem_cons.1 he with he | he
      · simp [he, h1]
      · have := List.all_eq_true.1 h.1.2 e he
        simp only [decide_eq_true_eq] at this ⊢
        omega
    · have h2 : x.1 < k := by
        have := hk x (List.mem_cons_self ..)
        omega
      simp only [insert, h1, if_false, wf, Bool.and_eq_true]
      refine ⟨⟨h.1.1, ?_⟩, ih h.2 fun e he => hk e (List.mem_cons_of_mem _ he)⟩
      rw [List.all_eq_true]
      intro e he
      rcases mem_insert he with he | he
      · simp [he, h2]
      · exact List.all_eq_true.1 h.1.2 e he

/-- Every write keeps the canonical form. -/
theorem wf_set {d : α} {m : Sparse α} (k : Nat) (v : α) (h : wf d m = true) : wf d (set d m k v) = true := by
  by_cases hv : v = d
  · simpa [set, hv] using wf_erase k h
  · simpa [set, hv] using wf_insert hv (wf_erase k h) fun e he => (mem_erase he).2

theorem wf_update {d : α} {m : Sparse α} (k : Nat) (f : α → α) (h : wf d m = true) : wf d (update d m k f) = true :=
  wf_set k _ h

end

end Sys2Proof.Machine.Sparse
end

