-- ==== Sys2Proof/Laws/State.lean ====
section
/-! SUPPORT. What each update of the state changes and what it leaves: one lemma per field per update. -/

namespace Sys2Proof.Machine

variable {s : State} {o p : OfficeId} {t u : Fin 4}

/-! ### Tiles and offices -/

@[simp] theorem Quad.get_set_same {α : Type} (q : Quad α) (t : Fin 4) (x : α) : (q.set t x).get t = x := by
  match t with
  | 0 | 1 | 2 | 3 => rfl

theorem Quad.get_set_other {α : Type} (q : Quad α) {t u : Fin 4} (x : α) (h : u ≠ t) : (q.set t x).get u = q.get u := by
  match t, u with
  | 0, 0 | 1, 1 | 2, 2 | 3, 3 => exact absurd rfl h
  | 0, 1 | 0, 2 | 0, 3 | 1, 0 | 1, 2 | 1, 3 | 2, 0 | 2, 1 | 2, 3 | 3, 0 | 3, 1 | 3, 2 => rfl

@[simp] theorem Quad.set_get {α : Type} (q : Quad α) (t : Fin 4) : q.set t (q.get t) = q := by
  match t with
  | 0 | 1 | 2 | 3 => rfl

@[simp] theorem Quad.set_set {α : Type} (q : Quad α) (t : Fin 4) (x y : α) : (q.set t x).set t y = q.set t y := by
  match t with
  | 0 | 1 | 2 | 3 => rfl

@[simp] theorem Pair.get_set_same {α : Type} (q : Pair α) (o : OfficeId) (x : α) : (q.set o x).get o = x := by
  cases o <;> rfl

theorem Pair.get_set_other {α : Type} (q : Pair α) {o p : OfficeId} (x : α) (h : p ≠ o) : (q.set o x).get p = q.get p := by
  cases o <;> cases p <;> first | rfl | exact absurd rfl h

@[simp] theorem Pair.set_get {α : Type} (q : Pair α) (o : OfficeId) : q.set o (q.get o) = q := by
  cases o <;> rfl

@[simp] theorem Pair.set_set {α : Type} (q : Pair α) (o : OfficeId) (x y : α) : (q.set o x).set o y = q.set o y := by
  cases o <;> rfl

@[simp] theorem otherOffice_ne (o : OfficeId) : otherOffice o ≠ o := by cases o <;> decide

@[simp] theorem otherOffice_otherOffice (o : OfficeId) : otherOffice (otherOffice o) = o := by cases o <;> rfl

/-! ### An office changes -/

@[simp] theorem modOff_pending (f : Office → Office) : (s.modOff o f).pending = s.pending := rfl
@[simp] theorem modOff_now (f : Office → Office) : (s.modOff o f).now = s.now := rfl
@[simp] theorem modOff_free (f : Office → Office) : (s.modOff o f).free = s.free := rfl
@[simp] theorem modOff_svc (f : Office → Office) : (s.modOff o f).svc = s.svc := rfl
@[simp] theorem modOff_tiles (f : Office → Office) : (s.modOff o f).tiles = s.tiles := rfl
@[simp] theorem modOff_out (f : Office → Office) : (s.modOff o f).out = s.out := rfl
@[simp] theorem modOff_tile (f : Office → Office) : (s.modOff o f).tile t = s.tile t := rfl
@[simp] theorem modOff_off_same (f : Office → Office) : (s.modOff o f).off o = f (s.off o) := by simp [State.modOff, State.off]

theorem modOff_off_other (f : Office → Office) (h : p ≠ o) : (s.modOff o f).off p = s.off p := by
  simp [State.modOff, State.off, Pair.get_set_other _ _ h]

@[simp] theorem modOff_off_peer (f : Office → Office) : (s.modOff o f).off (otherOffice o) = s.off (otherOffice o) :=
  modOff_off_other f (otherOffice_ne o)

@[simp] theorem modOff_modOff (f g : Office → Office) : (s.modOff o f).modOff o g = s.modOff o fun d => g (f d) := by
  simp [State.modOff, State.off]

@[simp] theorem modOff_id : (s.modOff o fun d => d) = s := by simp [State.modOff, State.off]

/-! ### A tile changes -/

@[simp] theorem modTile_pending (f : Tile → Tile) : (s.modTile t f).pending = s.pending := rfl
@[simp] theorem modTile_now (f : Tile → Tile) : (s.modTile t f).now = s.now := rfl
@[simp] theorem modTile_free (f : Tile → Tile) : (s.modTile t f).free = s.free := rfl
@[simp] theorem modTile_svc (f : Tile → Tile) : (s.modTile t f).svc = s.svc := rfl
@[simp] theorem modTile_offices (f : Tile → Tile) : (s.modTile t f).offices = s.offices := rfl
@[simp] theorem modTile_out (f : Tile → Tile) : (s.modTile t f).out = s.out := rfl
@[simp] theorem modTile_off (f : Tile → Tile) : (s.modTile t f).off o = s.off o := rfl
@[simp] theorem modTile_tile_same (f : Tile → Tile) : (s.modTile t f).tile t = f (s.tile t) := by simp [State.modTile, State.tile]

theorem modTile_tile_other (f : Tile → Tile) (h : u ≠ t) : (s.modTile t f).tile u = s.tile u := by
  simp [State.modTile, State.tile, Quad.get_set_other _ _ h]

@[simp] theorem modTile_modTile (f g : Tile → Tile) : (s.modTile t f).modTile t g = s.modTile t fun d => g (f d) := by
  simp [State.modTile, State.tile]

@[simp] theorem modTile_id : (s.modTile t fun d => d) = s := by simp [State.modTile, State.tile]

/-- A change of a tile is the tile it leaves. -/
theorem modTile_const (f : Tile → Tile) : s.modTile t f = s.modTile t fun _ => f (s.tile t) := rfl

/-- A change of an office is the office it leaves. -/
theorem modOff_const (f : Office → Office) : s.modOff o f = s.modOff o fun _ => f (s.off o) := rfl

/-! ### The service die changes -/

@[simp] theorem modSvc_pending (f : ServiceDie → ServiceDie) : (s.modSvc f).pending = s.pending := rfl
@[simp] theorem modSvc_now (f : ServiceDie → ServiceDie) : (s.modSvc f).now = s.now := rfl
@[simp] theorem modSvc_free (f : ServiceDie → ServiceDie) : (s.modSvc f).free = s.free := rfl
@[simp] theorem modSvc_svc (f : ServiceDie → ServiceDie) : (s.modSvc f).svc = f s.svc := rfl
@[simp] theorem modSvc_tiles (f : ServiceDie → ServiceDie) : (s.modSvc f).tiles = s.tiles := rfl
@[simp] theorem modSvc_offices (f : ServiceDie → ServiceDie) : (s.modSvc f).offices = s.offices := rfl
@[simp] theorem modSvc_out (f : ServiceDie → ServiceDie) : (s.modSvc f).out = s.out := rfl
@[simp] theorem modSvc_off (f : ServiceDie → ServiceDie) : (s.modSvc f).off o = s.off o := rfl
@[simp] theorem modSvc_tile (f : ServiceDie → ServiceDie) : (s.modSvc f).tile t = s.tile t := rfl

/-! ### Something is sent -/

@[simp] theorem emit_pending (e : Emission) : (s.emit e).pending = s.pending := rfl
@[simp] theorem emit_now (e : Emission) : (s.emit e).now = s.now := rfl
@[simp] theorem emit_free (e : Emission) : (s.emit e).free = s.free := rfl
@[simp] theorem emit_svc (e : Emission) : (s.emit e).svc = s.svc := rfl
@[simp] theorem emit_tiles (e : Emission) : (s.emit e).tiles = s.tiles := rfl
@[simp] theorem emit_offices (e : Emission) : (s.emit e).offices = s.offices := rfl
@[simp] theorem emit_out (e : Emission) : (s.emit e).out = e :: s.out := rfl
@[simp] theorem emit_off (e : Emission) : (s.emit e).off o = s.off o := rfl
@[simp] theorem emit_tile (e : Emission) : (s.emit e).tile t = s.tile t := rfl

/-! ### A free value is drawn -/

@[simp] theorem draw_pending (w : Nat) : (s.draw w).2.pending = s.pending := rfl
@[simp] theorem draw_now (w : Nat) : (s.draw w).2.now = s.now := rfl
@[simp] theorem draw_free (w : Nat) : (s.draw w).2.free = s.free + 1 := rfl
@[simp] theorem draw_svc (w : Nat) : (s.draw w).2.svc = s.svc := rfl
@[simp] theorem draw_tiles (w : Nat) : (s.draw w).2.tiles = s.tiles := rfl
@[simp] theorem draw_offices (w : Nat) : (s.draw w).2.offices = s.offices := rfl
@[simp] theorem draw_out (w : Nat) : (s.draw w).2.out = s.out := rfl
@[simp] theorem draw_off (w : Nat) : (s.draw w).2.off o = s.off o := rfl
@[simp] theorem draw_tile (w : Nat) : (s.draw w).2.tile t = s.tile t := rfl

end Sys2Proof.Machine
end

