-- ==== Sys2Proof/Laws/Ops.lean ====
section
/-! SUPPORT. What the named operations change: registers, notices, counters, health, arrays. A register write leaves every other
register; a notice changes only the office that raises it, and of that only the error log, the notice buffer and their
registers. -/

namespace Sys2Proof.Machine

variable {s : State} {o p : OfficeId} {t : Fin 4}

/-! ### Registers -/

theorem regGet_regSet_same (m : Sparse Nat) (f : Fld) (i j v : Nat) : regGet (regSet m f i j v) f i j = v % 2 ^ f.w := by
  simp [regGet, regSet]

theorem regGet_regSet_other (m : Sparse Nat) (f g : Fld) (i j i' j' v : Nat) (h : g.key i' j' ≠ f.key i j) :
    regGet (regSet m f i j v) g i' j' = regGet m g i' j' := by
  simp [regGet, regSet, Sparse.get_set_other 0 m _ h]

/-- A register file keeps its canonical form. -/
theorem regSet_wf (m : Sparse Nat) (f : Fld) (i j v : Nat) (h : Sparse.wf 0 m = true) : Sparse.wf 0 (regSet m f i j v) = true :=
  Sparse.wf_set _ _ h

@[simp] theorem wr_pending (f : Fld) (v i j : Nat) : (s.wr o f v i j).pending = s.pending := by unfold State.wr; split <;> rfl
@[simp] theorem wr_now (f : Fld) (v i j : Nat) : (s.wr o f v i j).now = s.now := by unfold State.wr; split <;> rfl
@[simp] theorem wr_free (f : Fld) (v i j : Nat) : (s.wr o f v i j).free = s.free := by unfold State.wr; split <;> rfl
@[simp] theorem wr_tiles (f : Fld) (v i j : Nat) : (s.wr o f v i j).tiles = s.tiles := by unfold State.wr; split <;> rfl
@[simp] theorem wr_out (f : Fld) (v i j : Nat) : (s.wr o f v i j).out = s.out := by unfold State.wr; split <;> rfl
@[simp] theorem wr_tile (f : Fld) (v i j : Nat) : (s.wr o f v i j).tile t = s.tile t := by unfold State.wr; split <;> rfl

theorem wr_svc (f : Fld) (v i j : Nat) (h : f.svc = false) : (s.wr o f v i j).svc = s.svc := by simp [State.wr, h]

theorem wr_offices (f : Fld) (v i j : Nat) (h : f.svc = true) : (s.wr o f v i j).offices = s.offices := by simp [State.wr, h]

theorem wr_off_other (f : Fld) (v i j : Nat) (h : p ≠ o) : (s.wr o f v i j).off p = s.off p := by
  unfold State.wr
  split
  · rfl
  · exact modOff_off_other _ h

@[simp] theorem wr_off_peer (f : Fld) (v i j : Nat) : (s.wr o f v i j).off (otherOffice o) = s.off (otherOffice o) :=
  wr_off_other f v i j (otherOffice_ne o)

/-- A field reads as it was written, cut to its width. -/
theorem rd_wr_same (f : Fld) (v i j : Nat) : (s.wr o f v i j).rd o f i j = v % 2 ^ f.w := by
  by_cases h : f.svc = true <;> simp [State.wr, State.rd, h, regGet_regSet_same]

/-- A write leaves every field with another key. -/
theorem rd_wr_other (f g : Fld) (v i j i' j' : Nat) (h : g.key i' j' ≠ f.key i j) :
    (s.wr o f v i j).rd p g i' j' = s.rd p g i' j' := by
  by_cases hf : f.svc = true <;> by_cases hg : g.svc = true <;> simp [State.wr, State.rd, hf, hg]
  · exact regGet_regSet_other _ _ _ _ _ _ _ _ h
  · by_cases hp : p = o
    · subst hp; simp [regGet_regSet_other _ _ _ _ _ _ _ _ h]
    · simp [modOff_off_other _ hp]


@[simp] theorem swr_pending (f : Fld) (v i j : Nat) : (s.swr f v i j).pending = s.pending := by rfl
@[simp] theorem swr_now (f : Fld) (v i j : Nat) : (s.swr f v i j).now = s.now := by rfl
@[simp] theorem swr_free (f : Fld) (v i j : Nat) : (s.swr f v i j).free = s.free := by rfl
@[simp] theorem swr_tiles (f : Fld) (v i j : Nat) : (s.swr f v i j).tiles = s.tiles := by rfl
@[simp] theorem swr_offices (f : Fld) (v i j : Nat) : (s.swr f v i j).offices = s.offices := by rfl
@[simp] theorem swr_out (f : Fld) (v i j : Nat) : (s.swr f v i j).out = s.out := by rfl
@[simp] theorem swr_tile (f : Fld) (v i j : Nat) : (s.swr f v i j).tile t = s.tile t := rfl
@[simp] theorem swr_off (f : Fld) (v i j : Nat) : (s.swr f v i j).off o = s.off o := rfl

/-! ### Notices -/

@[simp] theorem logNotice_pending (n : Notice) : (s.logNotice o n).pending = s.pending := by simp [State.logNotice]
@[simp] theorem logNotice_now (n : Notice) : (s.logNotice o n).now = s.now := by simp [State.logNotice]
@[simp] theorem logNotice_free (n : Notice) : (s.logNotice o n).free = s.free := by simp [State.logNotice]
@[simp] theorem logNotice_svc (n : Notice) : (s.logNotice o n).svc = s.svc := by simp [State.logNotice, wr_svc, F.ERR_LOG_HEAD_NSEQ, mkF]
@[simp] theorem logNotice_tiles (n : Notice) : (s.logNotice o n).tiles = s.tiles := by simp [State.logNotice]
@[simp] theorem logNotice_out (n : Notice) : (s.logNotice o n).out = s.out := by simp [State.logNotice]
@[simp] theorem logNotice_tile (n : Notice) : (s.logNotice o n).tile t = s.tile t := by simp only [State.tile, logNotice_tiles]
theorem logNotice_off_other (n : Notice) (h : p ≠ o) : (s.logNotice o n).off p = s.off p := by simp [State.logNotice, wr_off_other _ _ _ _ h, modOff_off_other _ h]
@[simp] theorem logNotice_off_peer (n : Notice) : (s.logNotice o n).off (otherOffice o) = s.off (otherOffice o) := logNotice_off_other _ (otherOffice_ne o)

@[simp] theorem holdNotice_pending (n : Notice) : (s.holdNotice o n).pending = s.pending := by unfold State.holdNotice; split <;> simp
@[simp] theorem holdNotice_now (n : Notice) : (s.holdNotice o n).now = s.now := by unfold State.holdNotice; split <;> simp
@[simp] theorem holdNotice_free (n : Notice) : (s.holdNotice o n).free = s.free := by unfold State.holdNotice; split <;> simp
@[simp] theorem holdNotice_svc (n : Notice) : (s.holdNotice o n).svc = s.svc := by unfold State.holdNotice; split <;> simp [wr_svc, F.PH_NOTICE_STAT_HELD, F.PH_CNT_NOTICELOST_COUNT, mkF]
@[simp] theorem holdNotice_tiles (n : Notice) : (s.holdNotice o n).tiles = s.tiles := by unfold State.holdNotice; split <;> simp
@[simp] theorem holdNotice_out (n : Notice) : (s.holdNotice o n).out = s.out := by unfold State.holdNotice; split <;> simp
@[simp] theorem holdNotice_tile (n : Notice) : (s.holdNotice o n).tile t = s.tile t := by simp only [State.tile, holdNotice_tiles]
theorem holdNotice_off_other (n : Notice) (h : p ≠ o) : (s.holdNotice o n).off p = s.off p := by unfold State.holdNotice; split <;> simp [wr_off_other _ _ _ _ h, modOff_off_other _ h]
@[simp] theorem holdNotice_off_peer (n : Notice) : (s.holdNotice o n).off (otherOffice o) = s.off (otherOffice o) := holdNotice_off_other _ (otherOffice_ne o)

@[simp] theorem raiseOne_pending (code : Nat) (b : List Byte) : (s.raiseOne o code b).pending = s.pending := by simp [State.raiseOne]
@[simp] theorem raiseOne_now (code : Nat) (b : List Byte) : (s.raiseOne o code b).now = s.now := by simp [State.raiseOne]
@[simp] theorem raiseOne_free (code : Nat) (b : List Byte) : (s.raiseOne o code b).free = s.free := by simp [State.raiseOne]
@[simp] theorem raiseOne_svc (code : Nat) (b : List Byte) : (s.raiseOne o code b).svc = s.svc := by simp [State.raiseOne]
@[simp] theorem raiseOne_tiles (code : Nat) (b : List Byte) : (s.raiseOne o code b).tiles = s.tiles := by simp [State.raiseOne]
@[simp] theorem raiseOne_out (code : Nat) (b : List Byte) : (s.raiseOne o code b).out = s.out := by simp [State.raiseOne]
@[simp] theorem raiseOne_tile (code : Nat) (b : List Byte) : (s.raiseOne o code b).tile t = s.tile t := by simp only [State.tile, raiseOne_tiles]
theorem raiseOne_off_other (code : Nat) (b : List Byte) (h : p ≠ o) : (s.raiseOne o code b).off p = s.off p := by simp [State.raiseOne, logNotice_off_other _ h, holdNotice_off_other _ h]
@[simp] theorem raiseOne_off_peer (code : Nat) (b : List Byte) : (s.raiseOne o code b).off (otherOffice o) = s.off (otherOffice o) := raiseOne_off_other _ _ (otherOffice_ne o)

@[simp] theorem raise_pending (code : Nat) (b : List Byte) : (s.raise o code b).pending = s.pending := by unfold State.raise; dsimp only; (repeat' split) <;> simp
@[simp] theorem raise_now (code : Nat) (b : List Byte) : (s.raise o code b).now = s.now := by unfold State.raise; dsimp only; (repeat' split) <;> simp
@[simp] theorem raise_free (code : Nat) (b : List Byte) : (s.raise o code b).free = s.free := by unfold State.raise; dsimp only; (repeat' split) <;> simp
@[simp] theorem raise_svc (code : Nat) (b : List Byte) : (s.raise o code b).svc = s.svc := by unfold State.raise; dsimp only; (repeat' split) <;> simp
@[simp] theorem raise_tiles (code : Nat) (b : List Byte) : (s.raise o code b).tiles = s.tiles := by unfold State.raise; dsimp only; (repeat' split) <;> simp
@[simp] theorem raise_out (code : Nat) (b : List Byte) : (s.raise o code b).out = s.out := by unfold State.raise; dsimp only; (repeat' split) <;> simp
@[simp] theorem raise_tile (code : Nat) (b : List Byte) : (s.raise o code b).tile t = s.tile t := by simp only [State.tile, raise_tiles]
theorem raise_off_other (code : Nat) (b : List Byte) (h : p ≠ o) : (s.raise o code b).off p = s.off p := by unfold State.raise; dsimp only; (repeat' split) <;> simp [raiseOne_off_other _ _ h, modOff_off_other _ h]
@[simp] theorem raise_off_peer (code : Nat) (b : List Byte) : (s.raise o code b).off (otherOffice o) = s.off (otherOffice o) := raise_off_other _ _ (otherOffice_ne o)

@[simp] theorem raiseSvc_pending (code : Nat) (b : List Byte) : (s.raiseSvc code b).pending = s.pending := by unfold State.raiseSvc; split <;> simp
@[simp] theorem raiseSvc_now (code : Nat) (b : List Byte) : (s.raiseSvc code b).now = s.now := by unfold State.raiseSvc; split <;> simp
@[simp] theorem raiseSvc_free (code : Nat) (b : List Byte) : (s.raiseSvc code b).free = s.free := by unfold State.raiseSvc; split <;> simp
@[simp] theorem raiseSvc_svc (code : Nat) (b : List Byte) : (s.raiseSvc code b).svc = s.svc := by unfold State.raiseSvc; split <;> simp
@[simp] theorem raiseSvc_tiles (code : Nat) (b : List Byte) : (s.raiseSvc code b).tiles = s.tiles := by unfold State.raiseSvc; split <;> simp
@[simp] theorem raiseSvc_out (code : Nat) (b : List Byte) : (s.raiseSvc code b).out = s.out := by unfold State.raiseSvc; split <;> simp
@[simp] theorem raiseSvc_tile (code : Nat) (b : List Byte) : (s.raiseSvc code b).tile t = s.tile t := by simp only [State.tile, raiseSvc_tiles]

/-! ### Counters and health -/

@[simp] theorem noteEvents_pending (f : Fld) (n i j : Nat) : (s.noteEvents o f n i j).pending = s.pending := by unfold State.noteEvents; split <;> rfl
@[simp] theorem noteEvents_now (f : Fld) (n i j : Nat) : (s.noteEvents o f n i j).now = s.now := by unfold State.noteEvents; split <;> rfl
@[simp] theorem noteEvents_free (f : Fld) (n i j : Nat) : (s.noteEvents o f n i j).free = s.free := by unfold State.noteEvents; split <;> rfl
@[simp] theorem noteEvents_tiles (f : Fld) (n i j : Nat) : (s.noteEvents o f n i j).tiles = s.tiles := by unfold State.noteEvents; split <;> rfl
@[simp] theorem noteEvents_out (f : Fld) (n i j : Nat) : (s.noteEvents o f n i j).out = s.out := by unfold State.noteEvents; split <;> rfl
@[simp] theorem noteEvents_tile (f : Fld) (n i j : Nat) : (s.noteEvents o f n i j).tile t = s.tile t := by simp only [State.tile, noteEvents_tiles]

@[simp] theorem setEvent_pending (f : Fld) : (s.setEvent o f).pending = s.pending := by unfold State.setEvent; simp
@[simp] theorem setEvent_now (f : Fld) : (s.setEvent o f).now = s.now := by unfold State.setEvent; simp
@[simp] theorem setEvent_free (f : Fld) : (s.setEvent o f).free = s.free := by unfold State.setEvent; simp
@[simp] theorem setEvent_tiles (f : Fld) : (s.setEvent o f).tiles = s.tiles := by unfold State.setEvent; simp
@[simp] theorem setEvent_out (f : Fld) : (s.setEvent o f).out = s.out := by unfold State.setEvent; simp
@[simp] theorem setEvent_tile (f : Fld) : (s.setEvent o f).tile t = s.tile t := by simp only [State.tile, setEvent_tiles]

@[simp] theorem clearCounter_pending (f : Fld) (i j : Nat) : (s.clearCounter o f i j).pending = s.pending := by unfold State.clearCounter; simp
@[simp] theorem clearCounter_now (f : Fld) (i j : Nat) : (s.clearCounter o f i j).now = s.now := by unfold State.clearCounter; simp
@[simp] theorem clearCounter_free (f : Fld) (i j : Nat) : (s.clearCounter o f i j).free = s.free := by unfold State.clearCounter; simp
@[simp] theorem clearCounter_tiles (f : Fld) (i j : Nat) : (s.clearCounter o f i j).tiles = s.tiles := by unfold State.clearCounter; simp
@[simp] theorem clearCounter_out (f : Fld) (i j : Nat) : (s.clearCounter o f i j).out = s.out := by unfold State.clearCounter; simp
@[simp] theorem clearCounter_tile (f : Fld) (i j : Nat) : (s.clearCounter o f i j).tile t = s.tile t := by simp only [State.tile, clearCounter_tiles]

/-- Remembering events changes no register. -/
@[simp] theorem rd_noteEvents (f g : Fld) (n i j i' j' : Nat) : (s.noteEvents o f n i j).rd p g i' j' = s.rd p g i' j' := by
  unfold State.noteEvents State.rd
  split <;> split
  · rfl
  · rfl
  · rfl
  · by_cases hp : p = o
    · subst hp; simp
    · simp [modOff_off_other _ hp]

/-- A counter that is cleared holds the events of the tick (R14). -/
theorem clearCounter_reads (f : Fld) (i j : Nat) :
    (s.clearCounter o f i j).rd o f i j = min (s.eventsNow o f i j) (2 ^ f.w - 1) := by
  have hp : 0 < 2 ^ f.w := Nat.two_pow_pos _
  unfold State.clearCounter
  rw [rd_wr_same]
  exact Nat.mod_eq_of_lt (by omega)

@[simp] theorem countBy_pending (f : Fld) (n i j : Nat) : (s.countBy o f n i j).pending = s.pending := by unfold State.countBy; dsimp only; (repeat' split) <;> simp
@[simp] theorem countBy_now (f : Fld) (n i j : Nat) : (s.countBy o f n i j).now = s.now := by unfold State.countBy; dsimp only; (repeat' split) <;> simp
@[simp] theorem countBy_free (f : Fld) (n i j : Nat) : (s.countBy o f n i j).free = s.free := by unfold State.countBy; dsimp only; (repeat' split) <;> simp
@[simp] theorem countBy_tiles (f : Fld) (n i j : Nat) : (s.countBy o f n i j).tiles = s.tiles := by unfold State.countBy; dsimp only; (repeat' split) <;> simp
@[simp] theorem countBy_out (f : Fld) (n i j : Nat) : (s.countBy o f n i j).out = s.out := by unfold State.countBy; dsimp only; (repeat' split) <;> simp
@[simp] theorem countBy_tile (f : Fld) (n i j : Nat) : (s.countBy o f n i j).tile t = s.tile t := by simp only [State.tile, countBy_tiles]

@[simp] theorem countUp_pending (f : Fld) (i j : Nat) : (s.countUp o f i j).pending = s.pending := by unfold State.countUp; simp
@[simp] theorem countUp_now (f : Fld) (i j : Nat) : (s.countUp o f i j).now = s.now := by unfold State.countUp; simp
@[simp] theorem countUp_free (f : Fld) (i j : Nat) : (s.countUp o f i j).free = s.free := by unfold State.countUp; simp
@[simp] theorem countUp_tiles (f : Fld) (i j : Nat) : (s.countUp o f i j).tiles = s.tiles := by unfold State.countUp; simp
@[simp] theorem countUp_out (f : Fld) (i j : Nat) : (s.countUp o f i j).out = s.out := by unfold State.countUp; simp
@[simp] theorem countUp_tile (f : Fld) (i j : Nat) : (s.countUp o f i j).tile t = s.tile t := by simp only [State.tile, countUp_tiles]

@[simp] theorem setHealth_pending (f : Fld) (b : Bool) : (s.setHealth o f b).pending = s.pending := by unfold State.setHealth; (repeat' split) <;> simp
@[simp] theorem setHealth_now (f : Fld) (b : Bool) : (s.setHealth o f b).now = s.now := by unfold State.setHealth; (repeat' split) <;> simp
@[simp] theorem setHealth_free (f : Fld) (b : Bool) : (s.setHealth o f b).free = s.free := by unfold State.setHealth; (repeat' split) <;> simp
@[simp] theorem setHealth_tiles (f : Fld) (b : Bool) : (s.setHealth o f b).tiles = s.tiles := by unfold State.setHealth; (repeat' split) <;> simp
@[simp] theorem setHealth_out (f : Fld) (b : Bool) : (s.setHealth o f b).out = s.out := by unfold State.setHealth; (repeat' split) <;> simp
@[simp] theorem setHealth_tile (f : Fld) (b : Bool) : (s.setHealth o f b).tile t = s.tile t := by simp only [State.tile, setHealth_tiles]

@[simp] theorem trip_pending (f : Fld) (k c l : Nat) : (s.trip o f k c l).pending = s.pending := by unfold State.trip; (repeat' split) <;> simp
@[simp] theorem trip_now (f : Fld) (k c l : Nat) : (s.trip o f k c l).now = s.now := by unfold State.trip; (repeat' split) <;> simp
@[simp] theorem trip_free (f : Fld) (k c l : Nat) : (s.trip o f k c l).free = s.free := by unfold State.trip; (repeat' split) <;> simp
@[simp] theorem trip_tiles (f : Fld) (k c l : Nat) : (s.trip o f k c l).tiles = s.tiles := by unfold State.trip; (repeat' split) <;> simp
@[simp] theorem trip_out (f : Fld) (k c l : Nat) : (s.trip o f k c l).out = s.out := by unfold State.trip; (repeat' split) <;> simp
@[simp] theorem trip_tile (f : Fld) (k c l : Nat) : (s.trip o f k c l).tile t = s.tile t := by simp only [State.tile, trip_tiles]


end Sys2Proof.Machine
end

