-- ==== Sys2Proof/Laws/Crossing.lean ====
section
/-! SUPPORT. What words that cross to and from the PCIe island, and requests to host memory, change (01 R21; 10 R429). -/

namespace Sys2Proof.Machine

variable {s : State} {o p : OfficeId} {t : Fin 4}

/-! ### Words cross -/

@[simp] theorem pcieIn_pending (n : Nat) : (s.pcieIn o n).pending = s.pending := rfl
@[simp] theorem pcieIn_now (n : Nat) : (s.pcieIn o n).now = s.now := rfl
@[simp] theorem pcieIn_free (n : Nat) : (s.pcieIn o n).free = s.free := rfl
@[simp] theorem pcieIn_svc (n : Nat) : (s.pcieIn o n).svc = s.svc := rfl
@[simp] theorem pcieIn_tiles (n : Nat) : (s.pcieIn o n).tiles = s.tiles := rfl
@[simp] theorem pcieIn_out (n : Nat) : (s.pcieIn o n).out = s.out := rfl
@[simp] theorem pcieIn_off (n : Nat) : (s.pcieIn o n).off o = { s.off o with pcieRx := (s.off o).pcieRx.pass n } := by simp [State.pcieIn]
@[simp] theorem pcieIn_off_peer (n : Nat) : (s.pcieIn o n).off (otherOffice o) = s.off (otherOffice o) := by simp [State.pcieIn]

@[simp] theorem pcieOut_pending (n : Nat) : (s.pcieOut o n).pending = s.pending := rfl
@[simp] theorem pcieOut_now (n : Nat) : (s.pcieOut o n).now = s.now := rfl
@[simp] theorem pcieOut_free (n : Nat) : (s.pcieOut o n).free = s.free := rfl
@[simp] theorem pcieOut_svc (n : Nat) : (s.pcieOut o n).svc = s.svc := rfl
@[simp] theorem pcieOut_tiles (n : Nat) : (s.pcieOut o n).tiles = s.tiles := rfl
@[simp] theorem pcieOut_out (n : Nat) : (s.pcieOut o n).out = s.out := rfl
@[simp] theorem pcieOut_off (n : Nat) : (s.pcieOut o n).off o = { s.off o with pcieTx := (s.off o).pcieTx.pass n } := by simp [State.pcieOut]
@[simp] theorem pcieOut_off_peer (n : Nat) : (s.pcieOut o n).off (otherOffice o) = s.off (otherOffice o) := by simp [State.pcieOut]

/-! ### Requests to host memory -/

/-- Sends emissions `e p` for the pieces of a list, a TLP of `k p` words each. -/
theorem sendPieces_spec (e : Nat × Nat → Emission) (k : Nat × Nat → Nat) (l : List (Nat × Nat)) (s : State) :
    let u := l.foldl (fun s p => (s.pcieOut o (k p)).emit (e p)) s
    u.out = (l.map e).reverse ++ s.out ∧ u.pending = s.pending ∧ u.now = s.now ∧ u.free = s.free ∧ u.svc = s.svc ∧ u.tiles = s.tiles ∧
      u.off (otherOffice o) = s.off (otherOffice o) ∧ u.off o = { s.off o with pcieTx := (u.off o).pcieTx } := by
  induction l generalizing s with
  | nil => simp
  | cons x xs ih =>
    obtain ⟨h1, h2, h3, h4, h5, h6, h7, h8⟩ := ih ((s.pcieOut o (k x)).emit (e x))
    refine ⟨?_, h2, h3, h4, h5, h6, ?_, ?_⟩
    · simpa using h1
    · simpa using h7
    · simpa using h8

/-- All that a write to host memory does: its pieces are sent, and their words cross (R429). -/
theorem postWrite_spec (addr : Nat) (bytes : List Byte) :
    let u := s.postWrite o addr bytes
    u.out = ((cutAligned (s.off o).mps (bytes.length / (s.off o).mps + 1) addr bytes.length).map fun p =>
        Emission.hostWrite o p.1 ((bytes.drop (p.1 - addr)).take p.2)).reverse ++ s.out ∧
      u.pending = s.pending ∧ u.now = s.now ∧ u.free = s.free ∧ u.svc = s.svc ∧ u.tiles = s.tiles ∧
      u.off (otherOffice o) = s.off (otherOffice o) ∧ u.off o = { s.off o with pcieTx := (u.off o).pcieTx } :=
  sendPieces_spec (fun p => .hostWrite o p.1 ((bytes.drop (p.1 - addr)).take p.2)) (fun p => tlpWords p.2) _ s

/-- All that a read of host memory does: its requests are sent, and their words cross (R429). -/
theorem postRead_spec (addr len : Nat) :
    let u := s.postRead o addr len
    u.out = ((cutAligned (s.off o).mrrs (len / (s.off o).mrrs + 1) addr len).map fun p => Emission.hostRead o p.1 p.2).reverse ++ s.out ∧
      u.pending = s.pending ∧ u.now = s.now ∧ u.free = s.free ∧ u.svc = s.svc ∧ u.tiles = s.tiles ∧
      u.off (otherOffice o) = s.off (otherOffice o) ∧ u.off o = { s.off o with pcieTx := (u.off o).pcieTx } :=
  sendPieces_spec (fun p => .hostRead o p.1 p.2) (fun _ => tlpWords 0) _ s

end Sys2Proof.Machine
end

