-- ==== Sys2Proof/Laws/Tiles.lean ====
section
/-! SUPPORT. What the operations on a tile's cells and clusters change, and what the end and the start of a pulse leave (02, 03). -/

namespace Sys2Proof.Machine

variable {d : Tile} {t : Fin 4}

/-! ### Cells and clusters -/

@[simp] theorem cell_modCell_same (c : Nat) (f : Cell → Cell) : (d.modCell c f).cell c = f (d.cell c) := by
  simp [Tile.modCell, Tile.cell]

theorem cell_modCell_other {c x : Nat} (f : Cell → Cell) (h : x ≠ c) : (d.modCell c f).cell x = d.cell x := by
  simp [Tile.modCell, Tile.cell, Sparse.get_update_other _ _ _ h]

@[simp] theorem cluster_modCell (c : Nat) (f : Cell → Cell) (x : Nat) : (d.modCell c f).cluster x = d.cluster x := rfl
@[simp] theorem modCell_cnt (c : Nat) (f : Cell → Cell) : (d.modCell c f).cnt = d.cnt := rfl
@[simp] theorem modCell_cellCfg (c : Nat) (f : Cell → Cell) : (d.modCell c f).cellCfg = d.cellCfg := rfl
@[simp] theorem modCell_clusterCfg (c : Nat) (f : Cell → Cell) : (d.modCell c f).clusterCfg = d.clusterCfg := rfl
@[simp] theorem modCell_completing (c : Nat) (f : Cell → Cell) : (d.modCell c f).completing = d.completing := rfl
@[simp] theorem modCell_count (c : Nat) (f : Cell → Cell) : (d.modCell c f).count = d.count := rfl
@[simp] theorem modCell_rstTicks (c : Nat) (f : Cell → Cell) : (d.modCell c f).rstTicks = d.rstTicks := rfl
@[simp] theorem modCell_clusters (c : Nat) (f : Cell → Cell) : (d.modCell c f).clusters = d.clusters := rfl

@[simp] theorem cluster_modCluster_same (c : Nat) (f : Cluster → Cluster) : (d.modCluster c f).cluster c = f (d.cluster c) := by
  simp [Tile.modCluster, Tile.cluster]

theorem cluster_modCluster_other {c x : Nat} (f : Cluster → Cluster) (h : x ≠ c) : (d.modCluster c f).cluster x = d.cluster x := by
  simp [Tile.modCluster, Tile.cluster, Sparse.get_update_other _ _ _ h]

@[simp] theorem cell_modCluster (c : Nat) (f : Cluster → Cluster) (x : Nat) : (d.modCluster c f).cell x = d.cell x := rfl
@[simp] theorem modCluster_cells (c : Nat) (f : Cluster → Cluster) : (d.modCluster c f).cells = d.cells := rfl
@[simp] theorem modCluster_cnt (c : Nat) (f : Cluster → Cluster) : (d.modCluster c f).cnt = d.cnt := rfl
@[simp] theorem modCluster_cellCfg (c : Nat) (f : Cluster → Cluster) : (d.modCluster c f).cellCfg = d.cellCfg := rfl
@[simp] theorem modCluster_clusterCfg (c : Nat) (f : Cluster → Cluster) : (d.modCluster c f).clusterCfg = d.clusterCfg := rfl
@[simp] theorem modCluster_completing (c : Nat) (f : Cluster → Cluster) : (d.modCluster c f).completing = d.completing := rfl
@[simp] theorem modCluster_count (c : Nat) (f : Cluster → Cluster) : (d.modCluster c f).count = d.count := rfl
@[simp] theorem modCluster_rstTicks (c : Nat) (f : Cluster → Cluster) : (d.modCluster c f).rstTicks = d.rstTicks := rfl

/-! ### Counters and completion -/

@[simp] theorem cell_countUp (f : Fld) (x : Nat) : (d.countUp t f).cell x = d.cell x := rfl
@[simp] theorem cluster_countUp (f : Fld) (x : Nat) : (d.countUp t f).cluster x = d.cluster x := rfl
@[simp] theorem countUp_cellCfg (f : Fld) : (d.countUp t f).cellCfg = d.cellCfg := rfl
@[simp] theorem countUp_clusterCfg (f : Fld) : (d.countUp t f).clusterCfg = d.clusterCfg := rfl
@[simp] theorem countUp_completing (f : Fld) : (d.countUp t f).completing = d.completing := rfl
@[simp] theorem countUp_count (f : Fld) : (d.countUp t f).count = d.count := rfl
@[simp] theorem countUp_rstTicks (f : Fld) : (d.countUp t f).rstTicks = d.rstTicks := rfl
@[simp] theorem countUp_cells (f : Fld) : (d.countUp t f).cells = d.cells := rfl

@[simp] theorem cell_complete (c : BitVec 18) (n : Nat) (l : Letter) (x : Nat) : (d.complete c n l).cell x = d.cell x := rfl
@[simp] theorem complete_cellCfg (c : BitVec 18) (n : Nat) (l : Letter) : (d.complete c n l).cellCfg = d.cellCfg := rfl
@[simp] theorem complete_clusterCfg (c : BitVec 18) (n : Nat) (l : Letter) : (d.complete c n l).clusterCfg = d.clusterCfg := rfl

/-- A counter reads one more, saturating. -/
theorem countUp_reads (f : Fld) :
    regGet (d.countUp t f).cnt f t.val 0 = min (regGet d.cnt f t.val 0 + 1) (2 ^ f.w - 1) := by
  have hp : 0 < 2 ^ f.w := Nat.two_pow_pos _
  simp only [Tile.countUp, Tile.countBy, regGet_regSet_same]
  exact Nat.mod_eq_of_lt (by omega)

/-! ### An edge takes an interpolator (R87, R94) -/

@[simp] theorem cell_takeIp (now cl : Nat) (ip : Option Bool) (x : Nat) : (d.takeIp now cl ip).cell x = d.cell x := by
  unfold Tile.takeIp; split <;> rfl
@[simp] theorem takeIp_cellCfg (now cl : Nat) (ip : Option Bool) : (d.takeIp now cl ip).cellCfg = d.cellCfg := by
  unfold Tile.takeIp; split <;> rfl
@[simp] theorem takeIp_clusterCfg (now cl : Nat) (ip : Option Bool) : (d.takeIp now cl ip).clusterCfg = d.clusterCfg := by
  unfold Tile.takeIp; split <;> rfl
@[simp] theorem takeIp_rstTicks (now cl : Nat) (ip : Option Bool) : (d.takeIp now cl ip).rstTicks = d.rstTicks := by
  unfold Tile.takeIp; split <;> rfl
@[simp] theorem takeIp_count (now cl : Nat) (ip : Option Bool) : (d.takeIp now cl ip).count = d.count := by
  unfold Tile.takeIp; split <;> rfl

/-! ### The end of a pulse (R45 to R47, R56) -/

/-- Of the cells nothing but peak holds changes, and no configuration word. -/
def peakOnly (d e : Tile) : Prop :=
  (∀ x, e.cell x = { d.cell x with peakHeld := (e.cell x).peakHeld }) ∧ e.cellCfg = d.cellCfg ∧ e.clusterCfg = d.clusterCfg

theorem peakOnly_refl : peakOnly d d := ⟨fun _ => rfl, rfl, rfl⟩

theorem peakOnly_trans {e g : Tile} (h : peakOnly d e) (k : peakOnly e g) : peakOnly d g :=
  ⟨fun x => by rw [k.1 x, h.1 x], k.2.1.trans h.2.1, k.2.2.trans h.2.2⟩

/-- Setting a peak hold touches nothing else of a cell. -/
theorem peakOnly_modCell (c : Nat) (b : Bool) : peakOnly d (d.modCell c fun e => { e with peakHeld := b }) := by
  refine ⟨fun x => ?_, rfl, rfl⟩
  rcases eq_or_ne x c with rfl | h
  · simp
  · simp [cell_modCell_other _ h]

theorem peakOnly_convert (cl : Nat) (r : SarRequest) (n : Nat) : peakOnly d (d.convert cl r n) := by
  unfold Tile.convert
  exact peakOnly_trans ⟨fun _ => by simp, rfl, rfl⟩ (peakOnly_modCell _ _)

theorem peakOnly_await (cl : Nat) (v : Conversion) (r : SarRequest) : peakOnly d (d.await t cl v r) := by
  unfold Tile.await
  dsimp only
  generalize List.drop _ _ = l
  have h : ∀ q : List SarRequest, peakOnly d ((d.modCluster cl fun k => { k with waiting := q }).modCell r.cell.toNat
      fun e => { e with peakHeld := true }) := fun _ => peakOnly_trans ⟨fun _ => by simp, rfl, rfl⟩ (peakOnly_modCell _ _)
  have h := h ((r.place (d.cluster cl).waiting).take (if v.startAt + 1536 ≤ r.raisedAt then 2 else 1))
  revert h
  generalize Tile.modCell _ _ _ = e
  intro h
  induction l generalizing e with
  | nil => exact h
  | cons y ys ih => exact ih _ (peakOnly_trans h (peakOnly_trans (peakOnly_modCell _ _) ⟨fun _ => rfl, rfl, rfl⟩))

/-- A conversion request changes peak holds alone of the cells. -/
theorem peakOnly_request (cl : Nat) (r : SarRequest) : peakOnly d (d.request t cl r) := by
  unfold Tile.request
  split
  · exact peakOnly_convert _ _ _
  · split
    · exact peakOnly_trans (peakOnly_convert _ _ _) (peakOnly_await _ _ _)
    · exact peakOnly_await _ _ _

/-- The reset switch of the cell is closed for `RST_TICKS`; of another cell nothing but the peak hold changes, and no
configuration word. -/
theorem endPulse_spec (c : BitVec 18) (now b : Nat) (noPeak : Bool) (l : Letter) :
    ((d.endPulse t c now b noPeak l).cell c.toNat).phase = .resetClosed (b + d.rstTicks.toNat) ∧
      (∀ x, x ≠ c.toNat →
        (d.endPulse t c now b noPeak l).cell x = { d.cell x with peakHeld := ((d.endPulse t c now b noPeak l).cell x).peakHeld }) ∧
      (d.endPulse t c now b noPeak l).cellCfg = d.cellCfg ∧ (d.endPulse t c now b noPeak l).clusterCfg = d.clusterCfg := by
  have key : ∀ e : Tile, peakOnly (d.modCell c.toNat fun e => { e with phase := .resetClosed (b + d.rstTicks.toNat) }) e →
      (e.cell c.toNat).phase = .resetClosed (b + d.rstTicks.toNat) ∧
        (∀ x, x ≠ c.toNat → e.cell x = { d.cell x with peakHeld := (e.cell x).peakHeld }) ∧
        e.cellCfg = d.cellCfg ∧ e.clusterCfg = d.clusterCfg := by
    intro e h
    refine ⟨by rw [h.1]; simp, fun x hx => ?_, by rw [h.2.1]; simp, by rw [h.2.2]; simp⟩
    rw [h.1 x, cell_modCell_other _ hx]
  unfold Tile.endPulse
  dsimp only
  refine key _ ?_
  split
  · exact ⟨fun _ => rfl, rfl, rfl⟩
  · split
    · exact ⟨fun _ => rfl, rfl, rfl⟩
    · split
      · exact ⟨fun _ => rfl, rfl, rfl⟩
      · exact peakOnly_request _ _

end Sys2Proof.Machine
end

