-- ==== Sys2Proof/Safety.lean ====
section
/-! DEFINITION. What counts as a safe step: one that answers a next state. -/

namespace Sys2Proof.Machine

/-- The step stops nowhere. -/
def Safe (s : State) : Prop := ∃ s', step s = .next s'

end Sys2Proof.Machine
end

