-- ==== Sys2Proof/WellFormed.lean ====
section
/-! DEFINITION. Which commands are well formed: a register address is a multiple of 4, and a command that the table names
by a bit or an `OP` of the value written carries it. The meanings are total and do not depend on it. -/

namespace Sys2Proof

/-- A register address (00 R3). -/
def aligned (addr : BitVec 26) : Bool := decide (addr.toNat % 4 = 0)

/-- Whether a value carries bit `k`. -/
def hasBit {n : Nat} (v : BitVec n) (k : Nat) : Bool := v.getLsbD k

/-- Whether `w` bits of a value from bit `lo` on hold `x`. -/
def hasField {n : Nat} (v : BitVec n) (lo w x : Nat) : Bool := decide (v.toNat / 2 ^ lo % 2 ^ w = x)

/-- Whether a command is well formed. -/
def Instr.wf : Instr → Bool
  | .registerWrite _ addr _ => aligned addr
  | .lowRegisterRead _ addr => aligned addr
  | .highRegisterWrite _ addr _ => aligned addr && decide (4 ≤ addr.toNat)
  | .writeCellWord _ cmd => hasField cmd 0 4 0
  | .writeClusterWord _ cmd => hasField cmd 0 4 1
  | .readCellWord _ cmd => hasField cmd 0 4 2
  | .readClusterWord _ cmd => hasField cmd 0 4 3
  | .retrain _ v => hasBit v 31
  | .residueErrorInject _ v => hasBit v 8
  | .codeDensityStart _ v => hasBit v 31
  | .contextClearStart _ v => hasBit v 31
  | .storeEnable _ v => hasBit v 31
  | .storeDisable _ v => !hasBit v 31
  | .reattach _ v => hasBit v 29
  | .pin _ v => hasBit v 31 && hasField v 28 2 0
  | .unpin _ v => hasBit v 31 && hasField v 28 2 1
  | .unpinAll _ v => hasBit v 31 && hasField v 28 2 2
  | .indexRepair _ v => hasBit v 31
  | .strobe _ _ v => hasBit v 30
  | .collectionOrderSubmit _ v => hasBit v 31
  | .tbStart _ v => hasBit v 31
  | .retrainE _ v => hasBit v 31
  | .retrainW _ v => hasBit v 30
  | .smRequestSnapshot _ v => hasBit v 31 && hasField v 0 8 2
  | .smRequestReset _ v => hasBit v 31 && hasField v 0 8 3
  | .smRequestFlash _ v => hasBit v 31 && hasField v 0 8 4
  | .smRequestMode _ v => hasBit v 31 && hasField v 0 8 5
  | .barrierStart _ v => hasBit v 31
  | .pigeonholeEnable _ _ v => hasBit v 31
  | .pigeonholeDisable _ _ v => !hasBit v 31
  | .resume _ _ v => hasBit v 0
  | .flush _ _ v => hasBit v 1
  | .letterboxOversize _ bytes => decide (65536 < bytes.toNat)
  | .resync _ v => hasBit v 29
  | .handover _ v => hasBit v 31
  | .clearHealth _ v => hasBit v 30
  | .loopRequestOff _ _ v => hasBit v 31 && hasField v 0 2 0
  | .loopRequestManual _ _ v => hasBit v 31 && hasField v 0 2 1
  | .loopRequestAuto _ _ v => hasBit v 31 && hasField v 0 2 2
  | .ack _ _ v => hasBit v 30
  | .swap _ v => hasBit v 31
  | .go _ v => hasBit v 31
  | .bufferSwap _ v => hasBit v 30
  | .rowClr _ v => hasBit v 29
  | .flashReportRx _ r => decide (r.slots.length ≤ 16)
  | .start _ v => hasBit v 31
  | .stop _ v => hasBit v 30
  | .apply _ v => hasBit v 29
  | .discard _ v => hasBit v 28
  | .officeOnA _ v => hasBit v 31
  | .officeOnB _ v => hasBit v 30
  | .thermalModelUpdate _ readings => decide (readings.length = 42)
  | .thermalAck _ v => hasBit v 31
  | .readmit _ v => hasBit v 30
  | .modeRequest _ v => hasBit v 31
  | .calibrationSequenceGo _ v => hasBit v 31
  | .refresh _ v => hasBit v 31 && hasField v 28 2 0
  | .retire _ v => hasBit v 31 && hasField v 28 2 1
  | .cbtData _ v => hasBit v 30 && hasField v 28 2 0
  | .cbtCheck _ v => hasBit v 30 && hasField v 28 2 1
  | .cbtRead _ v => hasBit v 30 && hasField v 28 2 2
  | .arrayHostRead _ addr => aligned addr
  | .barAccessError .. | .poisonedWriteRx .. | .resetNAssert | .resetNRelease .. | .standbyEntry | .timeBaseStart
  | .roundBoundary .. | .leadingEdge .. | .trailingEdge .. | .gainSwitch .. | .totSaturation .. | .resetSwitchOpen ..
  | .cellRearm .. | .sarSamplingEnd .. | .sarConversionEnd .. | .letterComplete .. | .lateFrameTimeout ..
  | .interpolatorRelease .. | .blankingEnd .. | .injectionStrobe .. | .latchMajorityCorrection .. | .dllLock ..
  | .dllLossOfLock .. | .dllLockTimeout .. | .bucketClose .. | .laneFrameSent .. | .idleFrameSend ..
  | .dataFrameRx .. | .lateFrameRx .. | .closeFrameRx .. | .idleFrameRx .. | .statusFrameRx .. | .readbackReplyRx ..
  | .elasticBufferOverflow .. | .laneTrainingPass .. | .laneTrainingAttemptTimeout .. | .laneCodeErrors ..
  | .fifoFlush .. | .dlConfigFrameRx .. | .configWriteComplete .. | .dlLaneStatusRx .. | .downlinkNakRx ..
  | .sumMaskLow .. | .sumMaskHigh .. | .sumCoefficients .. | .sumFilterGain .. | .sumTrim .. | .sumApply ..
  | .captureCommand .. | .throttleOverride .. | .throttleClear .. | .quiet .. | .tileCommandRefused ..
  | .sortFeCntClr .. | .sortTeCntClr .. | .sortResCntClr .. | .sortLnCntClr .. | .codeDensityPassEnd ..
  | .lateWindowExpiry .. | .mergeDeadlineExpiry .. | .mergeStart .. | .mergeComplete .. | .envelopeUndeliverable ..
  | .hotSweepVisit .. | .contextChangeApply .. | .contextClearDone .. | .sortMgCntClr .. | .compressionEngineTake ..
  | .envelopeCoded .. | .cmpCntClr .. | .stagingEntry .. | .stagingDrained .. | .roundWriteStart ..
  | .storeWriteDone .. | .storeWriteError .. | .storeStall .. | .lossRecordAppend .. | .storeReadComplete ..
  | .storeFormatDone .. | .stoCntClr .. | .sumLiveFrameRx .. | .liveFrameMissing .. | .decimationChange ..
  | .sequencerStep .. | .sequencerTimerExpiry .. | .holdoffExpiry .. | .captureFreeze .. | .captureResume ..
  | .readoutFrameRx .. | .reductionRecord .. | .trgCntClr .. | .collectionOrderStart .. | .collectionOrderComplete ..
  | .colCntClr .. | .ppsinEdge .. | .servoHoldover | .todMessageRx .. | .refinLoss | .refinReturn | .epochBoundary
  | .syncSend | .syncFrameRx .. | .ringHoldover | .pdreqSend .. | .pdreqRx .. | .pdrespRx ..
  | .ringPortTrainingPass .. | .ringPortOpen .. | .ringPortErrors .. | .ringPortRetry .. | .ringCntClr ..
  | .bcastRx .. | .snapshot | .reset | .flash | .mode | .trigger | .order | .barrierRx .. | .barrierTimeout
  | .tbCountRead .. | .tbCntClr .. | .portLeaveL0 .. | .portEnterL0 .. | .functionReset .. | .ptmDialog ..
  | .ptmTickRead .. | .dprod .. | .rcons .. | .descriptorFetch .. | .descriptorFetchComplete .. | .recordAdd ..
  | .mailbagIdleClose .. | .irqCoalesceTimeout .. | .msixUnmask .. | .noticeDeliver .. | .snapshotRecordExpiry ..
  | .phCntClr .. | .phGcntClr .. | .doeAbort .. | .info .. | .attest .. | .amend .. | .poll .. | .uploadBegin ..
  | .uploadData .. | .uploadEnd .. | .activate .. | .confirm .. | .bookRead .. | .bookBody .. | .reboot ..
  | .letterboxJobEnd .. | .nvmWindowWaitExpiry .. | .nvmWindowOpen .. | .secCntClr .. | .heartbeatSend ..
  | .dlHeartbeatRx .. | .heartbeatAgeExpiry .. | .linkHeartbeatRx .. | .linkHeartbeatTimeout ..
  | .ownershipEvaluation .. | .startGraceExpiry .. | .mirrorItemRx .. | .mirrorAckRx .. | .mirrorRetransmit ..
  | .resyncRequestRx .. | .noOwnerTimeout .. | .failbackTimer .. | .handoverAcceptTimeout ..
  | .handoverReleaseComplete .. | .handoverTimeout .. | .signatureSelfTest .. | .twnCntClr .. | .biasSamplePeriod ..
  | .electrometerGateEnd .. | .loopStopTimer .. | .loopSetpointWrite .. | .loopManVWrite .. | .frequencyHandoff ..
  | .loopCntClr .. | .housekeepingSample .. | .pointCycleEnd | .scanEnd | .auxEdge .. | .intervalStartTimeout ..
  | .intervalRead .. | .frequencyUpdate .. | .auxCntClr .. | .auxIvlClr .. | .envCntClr .. | .statusLoopUpdate
  | .slForceWrite .. | .slForceExpiry | .flashSyncEdge | .flashStart .. | .verAgeExpiry .. | .evaluationDone ..
  | .emtCntClr .. | .vinRise .. | .railGood .. | .synthesiserLock | .vinLow .. | .brownout .. | .vinOverVoltage ..
  | .vinRecovery .. | .powerCapDemand .. | .railFault .. | .analogueTrip .. | .pwrCntClr .. | .thmCntClr ..
  | .modeTransition .. | .heldEntry .. | .calibrationSequenceEnd .. | .cbtEnable .. | .escalationWindowEnd ..
  | .errCntClr .. | .configurationRequest .. | .doeDiscovery .. | .letterboxBadRequest .. | .tripWaitEnd
  | .handoverRequestEnd .. | .wrapExpiry | .testPortInstruction .. => true

end Sys2Proof
end

