-- ==== Sys2Proof/Tests/Slice0.lean ====
section
/-! SUPPORT. Tests: each check of WellFormed refuses an ill-formed command; for every statement, concrete states and operands that
meet the hypotheses of its clauses; and single commands on small states. -/

set_option Elab.async false

namespace Sys2Proof.Tests

open Sys2Proof Sys2Proof.Machine

/-! ### Small states -/

/-- Reset, with tile 0 changed. -/
def tiled (f : Tile → Tile) : State := State.reset.modTile 0 f

/-- Reset, at a later moment, with tile 0 changed. -/
def tiledAt (n : Nat) (f : Tile → Tile) : State := { tiled f with now := n }

/-- Office A owns, in a mode. -/
def ruled (m : Mode) : State := (State.reset.wr .A F.TWN_STAT_ROLE 0).setMode .A m

/-- Office A owns, in a mode, with office A changed. -/
def ruledWith (m : Mode) (f : Office → Office) : State := (ruled m).modOff .A f

/-- Office A owns in Standby, with registers set. -/
def standbyWith (l : List (Fld × Nat)) : State := l.foldl (fun s e => s.wr .A e.1 e.2) (ruled .standby)

/-- A pulse from tick 0. -/
def pulse0 : Pulse := { lead := 0, leadAt := 0, fine := 5, coarseOnly := false, ip := false, gainLow := false, switched := false,
                        calib := false, noPeak := false }

/-- A letter. -/
def letter0 : Letter := { channel := 0, lead := 0, fine := 0, tot := 10, amp := 1, gain := false, flags := 0, ip := false }

/-- A cell of tile 0 in a phase, enabled. -/
def inPhase (n : Nat) (p : CellPhase) : State := tiledAt n fun d => { d with cells := [(0, { phase := p })], cellCfg := [(0, 0xA0)] }

/-- Cluster 0 of tile 0. -/
def clustered (n : Nat) (c : Cluster) : State := tiledAt n fun d => { d with clusters := [(0, c)] }

/-! ### Witnesses: the front end -/

theorem witness_LeadingEdgeStartsPulse :
    (((inPhase 0 .idle).tile 0).accepts 0 0 = true ∧ ((inPhase 0 .idle).tile 0).slopeOn = false ∧
      ((inPhase 0 .idle).tile 0 |>.cluster (clusterOf 0)).window 5 = []) ∧
    (let s := tiled fun d => { d with cellCfg := [(0, 0xA0), (1, 0xA0)] }
     (s.tile 0).accepts 0 0 = true ∧ (s.tile 0).accepts 0 1 = true ∧ clusterOf 0 = clusterOf 1 ∧ (s.tile 0).slopeOn = false ∧
      ((s.tile 0).cluster (clusterOf 0)).window 5 = [] ∧ ((s.tile 0).cluster (clusterOf 1)).window 8 = [] ∧ 5 < 8 + 4 ∧ 8 < 5 + 4) ∧
    (let s := (inPhase 0 .idle).modTile 0 fun d => { d with slope := true, calib := true }
     (s.tile 0).accepts 0 0 = true ∧ (s.tile 0).slopeOn = true) ∧
    (State.reset.tile 0).accepts 0 0 = false := by decide +kernel

theorem witness_PulseEndClosesReset :
    (((inPhase 1023 (.pulse pulse0)).tile 0).cell 0).phase = .pulse pulse0 ∧ (inPhase 1023 (.pulse pulse0)).now < pulse0.leadAt + 1024 ∧
    (let d := (inPhase 1023 (.pulse pulse0)).tile 0
     d.sarOn (clusterOf 0) = true ∧ cfgPeakEn (d.cellWord 0) = true ∧ pulse0.noPeak = false ∧ (d.cluster (clusterOf 0)).conv = none ∧
      (d.cluster (clusterOf 0)).window (1023 * 128 + 5) = []) ∧
    (((inPhase 1024 (.pulse pulse0)).tile 0).cell 0).phase = .pulse pulse0 ∧ pulse0.leadAt + 1024 ≤ (inPhase 1024 (.pulse pulse0)).now ∧
    (((inPhase 0 .idle).tile 0).accepts 0 0 = true ∧ ((inPhase 0 .idle).tile 0).slopeOn = false) ∧
    ((State.reset.tile 0).cell 0).phase = .idle ∧ (State.reset.tile 0).accepts 0 0 = false := by decide +kernel

theorem witness_CellTimingPath :
    ((((inPhase 1 (.pulse pulse0)).tile 0).cell 0).phase = .pulse pulse0 ∧ ((inPhase 1 (.pulse pulse0)).tile 0).cellGmode 0 = 0) ∧
    (let s := (inPhase 1 (.pulse pulse0)).modTile 0 fun d => { d with clusterCfg := [(0, 0)], cells := [(0, { phase := .pulse pulse0, keepMode := some 1 })] }
     ((s.tile 0).cell 0).phase = .pulse pulse0 ∧ (s.tile 0).cellGmode 0 ≠ 0) ∧
    ((((inPhase 24 (.resetClosed 24)).tile 0).cell 0).phase = .resetClosed 24 ∧ 24 ≤ (inPhase 24 (.resetClosed 24)).now) ∧
    (let s := inPhase 36 (.recovering 36)
     ((s.tile 0).cell 0).phase = .recovering 36 ∧ 36 ≤ s.now ∧ (s.tile 0).inReset = false ∧ (s.tile 0).quiet = false ∧
      cfgDiscEn ((s.tile 0).cellWord 0) = true ∧ (s.tile 0).blanked s.now 0 = false ∧ (s.tile 0).slopeOn = false) ∧
    (let s := tiledAt 96 fun d => { d with cells := [(0, { blankUntil := some 96 })] }
     (s.tile 0).blankUntil = none ∧ ((s.tile 0).cell 0).blankUntil = some 96 ∧ 96 ≤ s.now) := by decide +kernel

/-- A conversion of cell 0 from tick 0. -/
def conv0 : Conversion := { cell := 0, letter := letter0, raisedAt := 0, startAt := 0, sampled := false }

theorem witness_ConversionsAndInterpolators :
    (let s := clustered 192 { conv := some conv0 }
     ((s.tile 0).cluster 0).conv = some conv0 ∧ conv0.sampled = false ∧ conv0.startAt + 192 ≤ s.now) ∧
    (let s := clustered 1536 { conv := some conv0 }
     ((s.tile 0).cluster 0).conv = some conv0 ∧ conv0.startAt + 1536 ≤ s.now) ∧
    (let s := clustered 191 { conv := some conv0 }
     ((s.tile 0).cluster 0).conv = some conv0 ∧ s.now < conv0.startAt + 192) ∧
    (let s := clustered 3 { ip0 := .busy 3, ip1 := .busy 3 }
     ((s.tile 0).cluster 0).ip0 = .busy 3 ∧ ((s.tile 0).cluster 0).ip1 = .busy 3 ∧ 3 ≤ s.now) := by decide +kernel

theorem witness_LatchesOutvoteSingleUpsets :
    ¬ ((State.reset.tile 0).lastWriteAt = State.reset.now ∧
      ((State.reset.tile 0).lastWrite.any fun c => cmdIsCluster c = false && (cmdPlaces c).contains 0) = true) ∧
    ((0x0003 : W16) &&& 0x8000 = 0 ∧ (0x0003 : W16) &&& 0x0010 = 0 ∧ (0x8000 : W16) &&& 0x0010 = 0) ∧
    (let s := tiled fun d => { d with lastWrite := some (cmdFor 0 0 0) }
     (s.tile 0).lastWriteAt = s.now ∧ ((s.tile 0).lastWrite.any fun c => cmdIsCluster c = false && (cmdPlaces c).contains 0) = true) := by
  decide +kernel

theorem witness_DllsAndCorrectionPath :
    (let s := clustered 1024 { dll := .acquiring 0 }
     ((s.tile 0).cluster 0).dll = .acquiring 0 ∧ 0 + 1024 ≤ s.now) ∧
    (let s := clustered 1023 { dll := .acquiring 0 }
     ((s.tile 0).cluster 0).dll = .acquiring 0 ∧ s.now < 0 + 1024) ∧
    (let s := clustered 5 { dll := .locked 0 }
     ((s.tile 0).cluster 0).dll = .locked 0 ∧ (((s.tile 0).cluster 0).tickEdges.all fun e => decide (e.tick ≠ s.now)) = true) ∧
    (let s := (clustered 30000 { dll := .acquiring 0 }).wr .A F.TWN_STAT_ROLE 0
     ((s.tile 0).cluster 0).dll = .acquiring 0 ∧ s.owner = some .A ∧ 0 + 30000 ≤ s.now ∧ (s.off .A).dllNoted.contains (dllKey 0 0) = false) ∧
    (let s := ((clustered 1 { dll := .acquiring 0 }).wr .A F.TWN_STAT_ROLE 0).modOff .A fun d => { d with dllNoted := [dllKey 0 0] }
     ((s.tile 0).cluster 0).dll = .acquiring 0 ∧ s.owner = some .A ∧ (s.off .A).dllNoted.contains (dllKey 0 0) = true) ∧
    (let s := ruled .standby
     s.takesWrites .A = true ∧ s.owns .A = true ∧ writable s .A F.SORT_RES_CTL_INJ.off 0x103 ∧ (0x103 : W32).getLsbD 8 = true) ∧
    ((ruled .standby).rd .A F.SORT_CD_STAT_BUSY = 0 ∧ (0x80000000 : W32).getLsbD 31 = true) ∧
    (standbyWith [(F.SORT_CD_STAT_BUSY, 1)]).rd .A F.SORT_CD_STAT_BUSY = 1 := by
  unfold writable; decide +kernel

/-! ### Witnesses: tile read-out and lanes -/

/-- Tile 0 with a letter of round 0 and district 0 due in tick 8, over a bucket, a late bucket and a first open round. -/
def due0 (b : Bucket) (w : LateBucket) (open_ : Nat) : State :=
  tiledAt 8 fun d => { d with completing := [(0, 8, letter0)], buckets := Sparse.set {} [] 0 b, late := Sparse.set {} [] 0 w, closedTo := open_ }

theorem witness_CompletedLettersAreFiled :
    (let d := (due0 {} {} 0).tile 0
     (d.completing.find? fun e => e.1 = 0 && decide (e.2.1 ≤ 8)) = some (0, 8, letter0) ∧ bucketKey 0 (cellDistrict 0) = 0 ∧
      d.memUsed < 65536 ∧ d.openFor State.reset.svc.roundShift 0 = true ∧ (Sparse.get {} d.buckets 0 : Bucket).overflowed = false) ∧
    (Sparse.get {} ((due0 { overflowed := true } {} 0).tile 0).buckets 0 : Bucket).overflowed = true ∧
    (let d := (due0 { letters := List.replicate 23 letter0 } {} 0).tile 0
     24 ≤ (Sparse.get {} d.buckets 0 : Bucket).letters.length + 1 ∧ d.memUsed < 65536 ∧ d.openFor State.reset.svc.roundShift 0 = true) ∧
    (let d := (due0 {} { letters := [letter0] } 1).tile 0
     d.openFor State.reset.svc.roundShift 0 = false ∧ (Sparse.get {} d.late 0 : LateBucket).letters.length + 1 < 24 ∧ d.memUsed < 65536) ∧
    ((State.reset.tile 0).completing.find? fun e => e.1 = 0 && decide (e.2.1 ≤ 0)) = none := by decide +kernel

theorem witness_BucketsCloseAndLateFramesGo :
    (let d := (tiled fun d => { d with count := 0x1103F }).tile 0
     d.inReset = false ∧ roundLe d.closedTo 0 = true ∧
      tickLe ((0 + 1) * 2 ^ State.reset.svc.roundShift - 1 + d.closeDly) d.count.toNat = true) ∧
    tickLt (State.reset.tile 0).count.toNat ((0 + 1) * 2 ^ State.reset.svc.roundShift - 1 + (State.reset.tile 0).closeDly) = true ∧
    (let s := tiledAt 64 fun d => { d with late := [(0, { letters := [letter0] })] }
     let w : LateBucket := Sparse.get {} (s.tile 0).late (bucketKey 0 0)
     w.letters ≠ [] ∧ w.firstAt + 64 ≤ s.now) ∧
    (Sparse.get {} (State.reset.tile 0).late (bucketKey 0 0) : LateBucket).letters = [] := by decide +kernel

/-- A close frame of district 0, and tile 0 with a frame on lane 0 towards office A. -/
def closeFrame0 : TileFrame := { kind := .close, round := 0, district := 0, fnum := 0, letters := [], words := [] }
def sending0 (n : Nat) : State :=
  tiledAt n fun d => { d with lanes := [(laneKey .A 0, { sending := some closeFrame0, committed := some closeFrame0 })] }

theorem witness_FramesLeaveTheTile :
    (let l : LaneTx := Sparse.get {} ((sending0 1000).tile 0).lanes (laneKey .A 0)
     l.sending = some closeFrame0 ∧ l.committed = some closeFrame0 ∧ closeFrame0.chars * 5 ≤ ((sending0 1000).now - l.startAt) * 4) ∧
    (let l : LaneTx := Sparse.get {} ((sending0 1).tile 0).lanes (laneKey .A 0)
     l.sending = some closeFrame0 ∧ ((sending0 1).now - l.startAt) * 4 < closeFrame0.chars * 5) ∧
    (State.reset.tile 0).inReset = false := by decide +kernel

/-- A downlink frame of a type and `SEQ` with one word. -/
def dl1 (type seq : Nat) (w : W64) : DlFrame := { hdr := dlHeader type seq 1, words := [w], crc := dlCrc (dlHeader type seq 1) [w], charErr := false }

theorem witness_ConfigFramesInSequence :
    (let s := tiled fun d => { d with vote := .office .A }
     let f := dl1 0 0 (cmdFor 0 0 0xA0)
     (s.tile 0).vote = .office .A ∧ (s.tile 0).inReset = false ∧ dlGood f = true ∧ dlType f.hdr = 0 ∧ 1 ≤ dlCount f.hdr ∧ dlCount f.hdr ≤ 16 ∧
      dlSeq f.hdr = (s.tile 0).expectSeq.toNat ∧ f.words.filter cmdRefused = []) ∧
    (dlGood (dl1 0 0 4) = true ∧ (dl1 0 0 4).words.filter cmdRefused ≠ []) ∧
    (dlGood (dl1 0 1 0) = true ∧ dlSeq (dl1 0 1 0).hdr ≠ (State.reset.tile 0).expectSeq.toNat) ∧
    (State.reset.tile 0).vote ≠ .office .A ∧
    (dlGood (dl1 2 0 0x101) = true ∧ dlType (dl1 2 0 0x101).hdr = 2 ∧ (dl1 2 0 0x101).words = [0x101]) := by decide +kernel

theorem witness_ConfigurationCommandsRun :
    (let s := tiled fun d => { d with cfgQueue := [cmdFor 0 0 0xA0] }
     (s.tile 0).cfgQueue.head? = some (cmdFor 0 0 0xA0) ∧ (s.tile 0).engine = none) ∧
    (cmdOp (cmdFor 0 0 0xA0) = 0 ∧ cmdOp (cmdFor 1 0 4) = 1 ∧ cmdOp (cmdFor 2 0 0) = 2 ∧ cmdOp (cmdFor 3 0 0) = 3) ∧
    (State.reset.tile 0).cfgQueue.head? ≠ some (cmdFor 0 0 0xA0) ∧
    (let s := tiledAt 1 fun d => { d with engine := some { cmd := cmdFor 0 0 0xA0, doneAt := 1 } }
     (s.tile 0).engine = some { cmd := cmdFor 0 0 0xA0, doneAt := 1 } ∧ 1 ≤ s.now ∧ cmdIsCluster (cmdFor 0 0 0xA0) = false) ∧
    cmdIsCluster (cmdFor 1 0 4) = true ∧
    (let s := tiled fun d => { d with engine := some { cmd := 0, doneAt := 1 } }
     (s.tile 0).engine = some { cmd := 0, doneAt := 1 } ∧ s.now < 1) := by decide +kernel

/-- Reset at a moment, with letter lane 0 of tile 0 at office A in a state. -/
def laned (n : Nat) (l : Lane) : State := { ruledWith .standby fun d => { d with lanes := [(0, l)] } with now := n }

theorem witness_LaneStatesAndFifoFlush :
    ((laned 0 {}).lane .A 0 (.letter 0)).state = .training ∧
    (((laned 3750000 {}).lane .A 0 (.letter 0)).since + ticksOfUs 2500 ≤ 3750000 ∧ ((laned 3750000 {}).lane .A 0 (.letter 0)).attempts < 3) ∧
    (((laned 3750000 { attempts := 3 }).lane .A 0 (.letter 0)).since + ticksOfUs 2500 ≤ 3750000 ∧
      3 ≤ ((laned 3750000 { attempts := 3 }).lane .A 0 (.letter 0)).attempts) ∧
    ((laned 0 { state := .up }).lane .A 0 (.letter 0)).state = .up ∧
    (((laned 0 { state := .up, moves := List.replicate 7 0 }).lane .A 0 (.letter 0)).moves.filter fun m => 0 - m < ticksOfUs 1000000).length = 7 ∧
    (writable (laned 0 { state := .retired }) .A F.SORT_LN_CMD_RETRAIN.off 0x80000000 ∧ laneOfNum 0 = some (.letter 0) ∧
      ((laned 0 { state := .retired }).lane .A 0 (.letter 0)).state = .retired) ∧
    (256 ≤ ((laned 0 { good := 256 }).lane .A 0 (.letter 0)).good ∧ ((laned 0 { good := 255 }).lane .A 0 (.letter 0)).good < 256 ∧
      ((laned 0 { good := 256 }).lane .A 0 (.letter 0)).state = .training) ∧
    (max ((laned 3750000 {}).lane .A 0 (.letter 0)).since ((laned 3750000 {}).laneReset .A 0 (.letter 0)) + ticksOfUs 2500 ≤ 3750000 ∧
      (laned 3750000 {}).now = 3750000) ∧
    ((Sparse.get {} ({ State.reset.svc with fifos := [(0, { inItem := true })] } : ServiceDie).fifos 0 : Fifo).inItem = true ∧ ({} : Fifo).inItem = false) := by
  unfold writable; decide +kernel

/-- A frame of the letter lanes with a good CRC. -/
def frame (hdr : W32) (payload : List Byte) : LaneFrame :=
  { hdr := hdr, payload := payload, crc := crc16 (le 4 hdr.toNat ++ payload), charErr := false }

theorem witness_BadFramesCountOnceAndLeaveNothing :
    ((State.reset.off .A).inReset = false ∧ State.reset.frameFault .A (frame 0x50000000 []) = some F.SORT_LN_CNT_BADHDR_COUNT) ∧
    sumFault (frame 0x30000000 []) = some F.SORT_LN_CNT_BADHDR_COUNT ∧ sumFault (frame 0x20000000 []) = none ∧ (ruled .standby).lane .A 0 (.sum 0) = {} ∧
    ((laned 0 {}).lane .A 0 (.sum 0)).state = .training ∧ frmType 0x20000000 = 2 ∧
    ({ ruledWith .standby fun d => { d with lanes := [(8, { state := .up })] } with now := 1 }.lane .A 0 (.sum 0)).state = .up ∧
    ({ frame 0 [] with charErr := true } : LaneFrame).charErr = true := by decide +kernel

/-- The owner merges every round. -/
def merging (f : Office → Office) : State := ruledWith .streaming fun d => f { d with spans := [(0, none)] }

theorem witness_ReceivedLettersAreKeptOrCounted :
    (let s := merging id
     let f := frame 1 (List.replicate 11 0)
     (s.off .A).inReset = false ∧ s.frameFault .A f = none ∧ s.fullRound .A (frmRound f.hdr) = some 0 ∧ (s.off .A).merges 0 = true ∧
      (s.off .A).tickBad.contains (0, 0) = false ∧ (s.off .A).begun 0 = false ∧ frmType f.hdr = 0 ∧ (s.off .A).rounds = [] ∧
      s.frameFault .A (frame 0x10000001 (List.replicate 11 0)) = none ∧ frmType 0x10000001 = 1) ∧
    ((merging fun d => { d with nextKey := 1 }).off .A).begun 0 = true ∧ (merging id).fullRound .A 0 = some 0 ∧
    ((merging id).off .A).mrg.units = [] ∧
    (let s := merging fun d => { d with nextKey := 1 }
     (s.off .A).merges 0 = true ∧ (s.off .A).tickBad.contains (0, 0) = false ∧ s.frameFault .A (frame 1 (List.replicate 11 0)) = none ∧
      s.frameFault .A (frame 0x10000001 (List.replicate 11 0)) = none ∧ 0 < frmCount 0x10000001) := by decide +kernel

theorem witness_CloseIdleAndStatusFrames :
    (let s := merging id
     let f := frame 0x20000000 (le 12 0x000001000000)
     s.frameFault .A f = none ∧ frmType f.hdr = 2 ∧ s.fullRound .A (frmRound f.hdr) = some 0 ∧ s.owns .A = true ∧ (s.off .A).merges 0 = true ∧
      (s.off .A).begun 0 = false ∧ ((s.off .A).round 0).close = none ∧ ((s.off .A).round 0).noClose = false ∧ ((s.off .A).round 0).frames < ofLe ((f.payload.drop 3).take 3)) ∧
    (let s := merging fun d => { d with rounds := [(0, { noClose := true, readyAt := some 0 })] }
     let f := frame 0x20000000 (le 12 0x01000001000000)
     s.frameFault .A f = none ∧ s.fullRound .A (frmRound f.hdr) = some 0 ∧ s.owns .A = true ∧ (s.off .A).merges 0 = true ∧
      ((s.off .A).round 0).close = none ∧ ((s.off .A).round 0).noClose = true ∧ keyLt 0 (s.off .A).nextKey = false ∧
      ((s.off .A).round 0).frames < ofLe ((f.payload.drop 3).take 3) ∧ 0 < ofLe ((f.payload.drop 6).take 4)) ∧
    ((laned 0 {}).frameFault .A (frame 0x30000000 (le 4 0)) = none ∧ ((laned 0 {}).lane .A 0 (.letter 0)).state = .training ∧
      ((laned 0 {}).off .A).inReset = false) ∧
    (State.reset.owns .A = false ∧ frmType 0x20000000 = 2 ∧ State.reset.frameFault .A (frame 0x20000000 (le 12 0)) = none) ∧
    (State.reset.frameFault .A (frame 0x30000000 (le 4 0)) = none ∧ frmType 0x30000000 = 3) ∧
    (let f := frame 0x40000001 (le 8 0x0000000700100001)
     State.reset.frameFault .A f = none ∧ frmType f.hdr = 4 ∧ frmCount f.hdr = 1 ∧ ofLe (f.payload.take 8) % 256 = 1 ∧
      (tileCounters.find? fun e => e.1 = ofLe (f.payload.take 8) / 2 ^ 8 % 256 && e.2.1 = ofLe (f.payload.take 8) / 2 ^ 16 % 256) =
        some (0, 0x10, F.SORT_FE_CNT_PBUSY_COUNT)) := by decide +kernel

theorem witness_ConfigurationBusAtTheOwner :
    (let s := ruled .standby
     let d := s.off .A
     s.owns .A = true ∧ (0 : W64).getLsbD 26 = false ∧ d.contextBad (channelOf 0 0) = false ∧ 0 = d.expectedCell 0 0) ∧
    ((0x8000000000 : W64).toNat / 2 ^ 32 % 2 ^ 16 ≠ ((ruled .standby).off .A).expectedCell 0 0 ∧
      ((ruled .standby).expectedWords .A 0 false 0 (((ruled .standby).off .A).expectedCell 0 0)).contains 0x80 = false ∧
      (0x8000000000 : W64).toNat / 2 ^ 32 % 2 ^ 16 = 0x80 ∧ ¬ (ruled .standby).now < Sparse.get 0 ((ruled .standby).off .A).cfgFree 0 ∧
      (Sparse.get [] ((ruled .standby).off .A).cfgTx 0 : List W64) = [] ∧ Sparse.get 0 ((ruled .standby).off .A).cfgResend 0 = 0) ∧
    (let s := ruledWith .standby fun d => { d with cfgFree := [(0, 1)] }
     s.now < Sparse.get 0 (s.off .A).cfgFree 0 ∧ s.owns .A = true) ∧
    ((Sparse.get [] ((ruledWith .standby fun d => { d with dlKept := [(5, [0])] }).off .A).dlKept 5 : List W64) ≠ [] ∧
      5 ≠ Sparse.get 0 ((ruled .standby).off .A).dlSeq 0) ∧
    (Sparse.get 0 ((ruled .standby).off .A).dlSeq 0 = 0 ∧ (Sparse.get [] ((ruled .standby).off .A).dlKept 5 : List W64) = []) ∧
    (∀ k, k < 16 → (arrayAt (0x0620000 + 8 * k)).isSome = true) ∧
    (∀ k, k < 16 → ∀ p ∈ arrayAt (0x0620000 + 8 * k), ((ruled .standby).off .A).arrClass p.1 p.2 = .clean) ∧
    (ruled .standby).rd .A F.TRG_CTL_PROFILE 0 = 0 ∧
    State.reset.owns .A = false := by decide +kernel

/-! ### Witnesses: merge and pigeonholes -/

/-- Registers of office A set: field, index, value. -/
def withRegs (s : State) (l : List (Fld × Nat × Nat)) : State := l.foldl (fun s e => s.wr .A e.1 e.2.2 e.2.1) s

/-- The owner in Streaming, well after round 0. -/
def afterRound0 (f : Office → Office) : State := merging fun d => f { d with count := 0x40000 }

theorem witness_MergeWindows :
    (let s := afterRound0 id
     s.owns .A = true ∧ (s.off .A).merges 0 = true ∧
      tickLe (s.closingTick .A 0 + s.rd .A F.SORT_MG_LATEWIN_LATE_WIN) (s.off .A).count.toNat = true ∧
      tickLe (s.closingTick .A 0 + s.rd .A F.SORT_MG_DEADLINE_DEADLINE) (s.off .A).count.toNat = true ∧
      ((s.off .A).round (roundKey 0 7)).readyAt = none ∧ ((s.off .A).round (roundKey 0 7)).close = none) ∧
    State.reset.owns .A = false ∧ 
    tickLt ((merging id).off .A).count.toNat ((merging id).closingTick .A 0 + (merging id).rd .A F.SORT_MG_LATEWIN_LATE_WIN) = true ∧
    tickLt ((merging id).off .A).count.toNat ((merging id).closingTick .A 0 + (merging id).rd .A F.SORT_MG_DEADLINE_DEADLINE) = true ∧
    (let s := merging fun d => { d with count := 0x40000, rounds := [(roundKey 0 7, { close := some ⟨0, 0, 0, 0⟩ })] }
     ((s.off .A).round (roundKey 0 7)).close.isSome = true ∧ ((s.off .A).round (roundKey 0 7)).readyAt = none ∧
      (s.off .A).begun (roundKey 0 7) = false) := by decide +kernel

/-- The owner with merge unit 0 at work on a district round, five letters from tick 0. -/
def atWork (n key : Nat) (f : Office → Office) : State :=
  { afterRound0 (fun d => f { d with mrg := { d.mrg with units := [(0, some ⟨key, 0, 5, []⟩)] } }) with now := n }

theorem witness_MergeUnits :
    (let d := (afterRound0 fun d => { d with rounds := [(3, { readyAt := some 0, close := some ⟨0, 0, 0, 0⟩ })] }).off .A
     d.inReset = false ∧ d.mrg.pauseUntil ≤ 0 ∧ d.freeUnit = some 0 ∧ d.nextReady = some 3) ∧
    (let s := merging fun d => { d with mrg := { d.mrg with pauseUntil := 2 } }
     s.now < (s.off .A).mrg.pauseUntil ∧ s.owns .A = true) ∧
    (State.reset.owns .A = false ∧ ((afterRound0 id).off .A).nextReady = none) ∧
    (Sparse.get none ((atWork 9 0 id).off .A).mrg.units 0 = some ⟨0, 0, 5, []⟩ ∧ (atWork 9 0 id).now < 0 + 2 * 5) ∧
    Sparse.get none (State.reset.off .A).mrg.units 0 = none ∧
    (let d := (atWork 10 1 id).off .A
     (1 : Nat) ≠ d.nextKey ∧ Sparse.get none d.mrg.held d.nextKey = none ∧ 0 + 2 * 5 ≤ (atWork 10 1 id).now) ∧
    (let d := (atWork 10 0 id).off .A
     0 = d.nextKey ∧ d.mrg.held = [] ∧ d.spans = [(0, none)]) := by decide +kernel

/-- The owner with word 2 of channel 0 stored. -/
def swept (x : Nat) : State := afterRound0 fun d => { d with arr := Sparse.set 0 d.arr (arrKey 0 2) x, mrg := { d.mrg with lastBegun := some 0 } }

theorem witness_HotSweep :
    (let s := swept 0
     s.owns .A = true ∧ (s.off .A).inReset = false ∧ (s.off .A).arrSyn 0 2 = 0 ∧ bitsOf ((s.off .A).arrData 0 2) 0 4 = s.currentWindow .A % 16) ∧
    (let s := swept 0x0FFF2F
     (s.off .A).arrSyn 0 2 = 0 ∧ bitsOf ((s.off .A).arrData 0 2) 0 4 = (s.currentWindow .A + 15) % 16 ∧ s.rd .A F.SORT_HOT_HOT_LIM ≠ 0 ∧
      s.rd .A F.SORT_HOT_HOT_LIM ≤ bitsOf 0x0FFF2F 8 12 ∧ Sparse.get 0 (s.off .A).am 0 = 0 ∧ (s.off .A).arrSyn 0 0 = 0 ∧
      s.rd .A F.SORT_HOT_STRIKE_LIM ≤ min 15 (bitsOf 0x0FFF2F 4 4 + 1) ∧ bitsOf ((s.off .A).arrRead 0 0) 35 1 = 0) ∧
    (let s := swept 0x0FFF0F
     ¬ s.rd .A F.SORT_HOT_STRIKE_LIM ≤ min 15 (bitsOf 0x0FFF0F 4 4 + 1)) ∧ State.reset.owns .A = false := by decide +kernel

/-- Standby with a change waiting. -/
def waitingJob (j : CtxJob) : State := ruledWith .standby fun d => { d with mrg := { d.mrg with jobs := [j] } }

theorem witness_ContextChanges :
    ((ruled .standby).takesWrites .A = true ∧ (ruled .standby).owns .A = true ∧ (0x80000000 : W32).getLsbD 31 = true ∧
      (ruled .standby).rd .A F.SORT_CTX_CLR_BUSY = 0 ∧ (0x80000000 : W32).toNat % 2 ^ 20 ≤ (ruled .standby).rd .A F.SORT_CTX_CLR_LAST_LAST) ∧
    ((standbyWith [(F.SORT_CTX_CLR_LAST_LAST, 4)]).rd .A F.SORT_CTX_CLR_LAST_LAST < (0x80000005 : W32).toNat % 2 ^ 20 ∧
      (standbyWith [(F.SORT_CTX_CLR_LAST_LAST, 4)]).rd .A F.SORT_CTX_CLR_BUSY = 0) ∧
    (standbyWith [(F.SORT_CTX_CLR_BUSY, 1)]).rd .A F.SORT_CTX_CLR_BUSY = 1 ∧
    ((atWork 0 0 id).off .A).betweenRounds = false ∧
    (((waitingJob (.clear 0 9)).off .A).inReset = false ∧ ((waitingJob (.clear 0 9)).off .A).betweenRounds = true ∧
      ((waitingJob (.clear 0 9)).off .A).mrg.jobs = [.clear 0 9] ∧ ((waitingJob (.clear 0 9)).off .A).spareOf = []) ∧
    (((waitingJob .campaign).off .A).betweenRounds = true ∧ ((waitingJob .campaign).off .A).mrg.jobs = [.campaign]) ∧
    ((waitingJob (.items 1 2 false [])).off .A).betweenRounds = true := by decide +kernel

/-- The owner in Standby with its port ready, pigeonhole 5 enabled in a state with rings of 8 entries, and its hidden part. -/
def ph5 (st : Nat) (x : Ph) : State :=
  withRegs { ruledWith .standby (fun d => { d with phs := Sparse.set {} d.phs 5 x, twin := { d.twin with mayWrite := true } }) with now := 1000000 }
    [(F.PH_PORT_STAT_L0, 0, 1), (F.PH_PORT_STAT_BME, 0, 1), (F.PH_CFG_EN, 5, 1), (F.PH_STAT_STATE, 5, st),
     (F.PH_CFG_DR_LOG2, 5, 4), (F.PH_CFG_RR_LOG2, 5, 4)]

def buffer0 : Buffer := { addr := 0x100000, len := 0x8000, seq := 0, cookie := 1 }
def mailbag0 : Mailbag := { kind := 1, order := false, tag := 0, offset := 0, size := 48, records := 1, first := 0, last := 0, lastAt := 0 }
def record0 : PhRecord := { kind := 1, round := 0, bytes := [1] }

theorem witness_PigeonholesEnableAndDisable :
    (let s := withRegs (ruled .standby) [(F.PH_CFG_DR_LOG2, 5, 4), (F.PH_CFG_RR_LOG2, 5, 4), (F.PH_DR_BASE_LO_BASE_L, 5, 0x1000), (F.PH_RR_BASE_LO_BASE_L, 5, 0x2000)]
     s.takesWrites .A = true ∧ s.rd .A F.PH_CFG_EN 5 = 0 ∧ s.phState .A 5 = phDisabled ∧
      (s.hostWrite .A (F.PH_CFG_EN.addr 5 0) 0x80840000).1.enableFault .A 5 = none) ∧
    (((ruled .standby).hostWrite .A (F.PH_CFG_EN.addr 5 0) 0x80000000).1.enableFault .A 5).isSome = true ∧
    ((ph5 1 {}).phState .A 5 ≠ phDisabled ∧ (((ph5 1 {}).off .A).ph 5).bag = none ∧ (((ph5 1 {}).off .A).ph 5).held = []) ∧
    (let s := ph5 2 { held := [buffer0], rcons := (0 - 16 : W32) }
     s.phState .A 5 ≠ phDisabled ∧ ((s.off .A).ph 5).held = [buffer0] ∧ s.receiptRoom .A 5 = 0) := by decide +kernel

theorem witness_DoorbellsMoveIndices :
    ((ruled .standby).doorbell .A 5 = false) ∧
    ((ph5 1 {}).doorbell .A 5 = true ∧ (ph5 1 {}).phState .A 5 ≠ phStalled ∧
      ((16 : W32) - BitVec.ofNat 32 ((ph5 1 {}).rd .A F.PH_DCONS_INDEX 5)).toNat ≤ 2 ^ (ph5 1 {}).rd .A F.PH_CFG_DR_LOG2 5 ∧
      2 ^ (ph5 1 {}).rd .A F.PH_CFG_DR_LOG2 5 < ((17 : W32) - BitVec.ofNat 32 ((ph5 1 {}).rd .A F.PH_DCONS_INDEX 5)).toNat ∧
      later 1 (BitVec.ofNat 32 ((ph5 1 {}).rd .A F.PH_RPROD_INDEX 5)) = true ∧
      later 0 (BitVec.ofNat 32 ((ph5 1 {}).rd .A F.PH_RPROD_INDEX 5)) = false ∧ (((ph5 1 {}).off .A).ph 5).disabling = false) ∧
    ((ph5 3 {}).doorbell .A 5 = true ∧ (1 : W32).toNat % 4 = 1 ∧ (ph5 3 {}).phState .A 5 = phStalled ∧ (ph5 3 {}).rd .A F.PH_STAT_CAUSE 5 < 8) ∧
    (let s := ph5 2 { held := [buffer0], bag := some mailbag0 }
     s.doorbell .A 5 = true ∧ (2 : W32).toNat % 4 = 2 ∧ ((s.off .A).ph 5).bag = some mailbag0 ∧ ((s.off .A).ph 5).held = [buffer0] ∧
      s.portReady .A = true ∧ 1 ≤ s.receiptRoom .A 5) := by decide +kernel

theorem witness_DescriptorsFetched :
    (let s := ph5 1 { dprod := 1 }
     (s.portReady .A && (s.phState .A 5 = phStarved || s.phState .A 5 = phReady) && !((s.off .A).ph 5).fetching && !((s.off .A).ph 5).disabling &&
      ((s.off .A).ph 5).held.length < 2 && s.rd .A F.PH_DCONS_INDEX 5 ≠ ((s.off .A).ph 5).dprod.toNat) = true) ∧
    State.reset.portReady .A = false ∧ ((State.reset.off .A).ph 5).fetching = false ∧
    (((ph5 1 { fetching := true }).off .A).ph 5).fetching = true ∧ descriptorFault .ok (0x1000 * 2 ^ 64 + 0x2000) 0 = none ∧
    descriptorFault .ok 0 0 = some 1 ∧ descriptorFault .abort 0 0 = some 7 := by decide +kernel

theorem witness_RecordsAndMailbags :
    (let s := ph5 2 { held := [buffer0], queue := [record0] }
     ((s.off .A).ph 5).queue = [record0] ∧ s.rd .A F.STO_STAT_LIVE_HELD = 0 ∧ s.portReady .A = true ∧ s.mayDeliver .A 5 = true ∧
      s.phState .A 5 = phReady ∧ 2 ≤ s.receiptRoom .A 5 ∧ ((s.off .A).ph 5).bag = none ∧ fitsRest buffer0 record0 = true ∧
      s.heldBack .A record0 = false ∧ s.noticeReady .A = false ∧ s.recordBefore .A record0 = false ∧ (s.off .A).stagedOf record0 = none) ∧
    (let r := { record0 with order := true }
     let s := ph5 2 { held := [buffer0], queue := [r] }
     s.heldBack .A r = false ∧ s.noticeReady .A = false ∧ s.recordBefore .A r = false ∧ fitsRest buffer0 r = true) ∧
    (withRegs (ph5 2 { held := [buffer0], queue := [record0] }) [(F.STO_STAT_LIVE_HELD, 0, 1)]).heldBack .A record0 = true ∧
    (let r := { record0 with queuedAt := 1 }
     let s := (ph5 2 { held := [buffer0], queue := [r] }).modOff .A fun d => { d with phs := Sparse.set {} d.phs 6 { held := [buffer0], queue := [record0] } }
     (withRegs s [(F.PH_CFG_EN, 6, 1), (F.PH_STAT_STATE, 6, 2), (F.PH_CFG_RR_LOG2, 6, 4)]).recordBefore .A r = true) ∧
    (let s := ph5 2 { held := [buffer0], bag := some mailbag0, queue := [record0] }
     ((s.off .A).ph 5).bag = some mailbag0 ∧ s.joinsBag .A 5 mailbag0 buffer0 record0 = true) ∧
    State.reset.portReady .A = false ∧
    (let s := withRegs (ph5 2 { held := [buffer0], bag := some mailbag0 }) [(F.PH_TMO_IDLE_US, 5, 10)]
     s.rd .A F.PH_TMO_IDLE_US 5 ≠ 0 ∧ mailbag0.lastAt + ticksOfUs (s.rd .A F.PH_TMO_IDLE_US 5) ≤ s.now ∧ s.portReady .A = true) ∧
    (withRegs (ph5 2 {}) [(F.PH_TMO_IDLE_US, 5, 0)]).rd .A F.PH_TMO_IDLE_US 5 = 0 ∧
    (let s := ph5 1 { queue := [record0, { record0 with round := 1 }] }
     record0.live = true ∧ ({ record0 with round := 1 } : PhRecord).live = true ∧ record0.parcel = false ∧ record0.dlo = false ∧
      s.canTake .A 5 record0 = false) ∧
    (let n : Notice := { code := 0x0301, flags := 0, tick := 0, nseq := 0, payload := [] }
     let s := withRegs ((ph5 1 {}).modOff .A fun d => { d with held := [n], phs := Sparse.set {} d.phs 1 { held := [buffer0] } })
       [(F.PH_STAT_STATE, 1, 2), (F.PH_CFG_RR_LOG2, 1, 4)]
     (s.off .A).held = [n] ∧ s.canTake .A 1 { kind := 4, round := 0, bytes := n.bytes } = true ∧ ((s.off .A).ph 1).bag = none ∧
      ((s.off .A).ph 1).held = [buffer0] ∧ fitsRest buffer0 { kind := 4, round := 0, bytes := n.bytes } = true ∧ (s.off .A).noticesLost = 0) ∧
    (State.reset.off .A).held = [] := by decide +kernel

theorem witness_InterruptsCoalesce :
    (let s := withRegs (ph5 2 { unsig := 1 }) [(F.PH_IRQ_COAL_US, 5, 10)]
     ((s.off .A).ph 5).unsig ≠ 0 ∧ s.rd .A F.PH_IRQ_COAL_US 5 ≠ 0 ∧ ((s.off .A).ph 5).unsigAt + ticksOfUs (s.rd .A F.PH_IRQ_COAL_US 5) ≤ s.now ∧
      (s.off .A).msixOn = false) ∧
    (let s := (withRegs (ph5 2 { unsig := 1 }) [(F.PH_IRQ_COAL_US, 5, 10), (F.MSIX_VCTRL_MASK, 0, 0), (F.MSIX_PBA_P, 0, 1)]).modOff .A fun d => { d with msixOn := true }
     (s.off .A).msixOn = true ∧ s.rd .A F.MSIX_VCTRL_MASK (s.rd .A F.PH_CFG_VECTOR 5) = 0 ∧ s.takesWrites .A = true ∧
      bitsOf (s.rd .A F.MSIX_PBA_P 0) 0 1 = 1) ∧
    ((State.reset.off .A).ph 5).unsig = 0 ∧ bitsOf ((ph5 2 {}).rd .A F.MSIX_PBA_P 0) 0 1 = 0 ∧ State.reset.takesWrites .A = false := by decide +kernel

/-! ### Witnesses: compression, sums, the store -/

def envelope0 : Envelope :=
  { district := 3, part := 0, sub := 0, round := 0, rshift := 16, more := false, status := 0, lateIn := 0, dropped := 0, calEpoch := 0,
    postmark := {}, inc := 0, letters := [⟨0, 0, 0⟩], route := none }
def cmpItem0 : CmpItem := { ord := 0, round := 0, body := .env envelope0 }
def plan0 : RoundPlan := { round := 0, effort := 2, engines := 65535, firstOrd := 0 }
def coding (c : Compression) : State := ruledWith .streaming fun d => { d with cmp := c }

/-- A complete table set (R242), and an office that holds it as static set 0. -/
def table0 : List Nat :=
  List.replicate 3 3 ++ List.replicate 10 4 ++ List.replicate 6 4 ++ List.replicate 20 5 ++ List.replicate 13 4 ++ List.replicate 6 5 ++
    [3, 3] ++ List.replicate 12 4 ++ [1, 2, 2] ++ [3, 3] ++ List.replicate 12 4
def tabled (d : Office) : Office :=
  { d with arr := (List.range 6).foldl (fun a k =>
      Sparse.set 0 a (((arrayAt (0x0401000 + 8 * k)).map fun p => arrKey p.1 p.2).getD 0) (ofLe (((tableBytes table0).drop (8 * k)).take 8))) d.arr }

/-- An envelope of some letters of cell 0, and an engine that holds it with its coded body. -/
def envelopeOf (n : Nat) : Envelope := { envelope0 with district := 0, letters := List.replicate n ⟨letter0.word, 0, 0⟩ }
def bodyOf (n : Nat) : List Byte := bodyBytes true (.static 0) table0 (envelopeTokens 16 {} (List.replicate n letter0.word)).1
def engineJob (n : Nat) : EngineJob :=
  { item := { cmpItem0 with body := .env (envelopeOf n) }, stream := 0, key := true, forcedPlain := false, saved := {}, after := {}, body := bodyOf n }

theorem witness_CompressionEngines :
    (let s := coding { queue := [cmpItem0], plans := [plan0] }
     let c := (s.off .A).cmp
     Sparse.get none c.engines 0 = none ∧ bitsOf c.outEngines 0 1 = 0 ∧ c.nextFor 0 = some cmpItem0 ∧
      (c.plans.all fun p => !p.dropped) = true ∧ s.decideUpTo .A cmpItem0.round = s ∧ (s.off .A).undecided cmpItem0.round = false ∧ c.keyDue cmpItem0.body.stream cmpItem0.round = false) ∧
    (let c := ((coding { queue := [cmpItem0], plans := [plan0], keyRounds := [0] }).off .A).cmp
     c.keyDue cmpItem0.body.stream cmpItem0.round = true) ∧
    (let s := (coding { plans := [plan0], engines := [(0, some (engineJob 3))] }).modOff .A tabled
     let c := (s.off .A).cmp
     Sparse.get none c.engines 0 = some (engineJob 3) ∧ c.plans ≠ [] ∧ (c.plans.all fun p => !p.dropped) = true ∧ (engineJob 3).forcedPlain = false ∧
      (engineJob 3).item.body.verifies (s.off .A).statics (engineJob 3).saved (engineJob 3).body = true ∧
      (engineJob 3).body.length < (engineJob 3).item.body.plainLen ∧ (engineJob 3).key = true) ∧
    (let s := (coding {}).modOff .A tabled
     (engineJob 1).item.body.verifies (s.off .A).statics (engineJob 1).saved (engineJob 1).body = true ∧
      (engineJob 1).item.body.plainLen ≤ (engineJob 1).body.length) ∧
    (engineJob 3).item.body.verifies (State.reset.off .A).statics (engineJob 3).saved (engineJob 3).body = false := by decide +kernel

/-- Tile 0 takes commands of office A, at a count. -/
def voted (n : Nat) (f : Tile → Tile) : State := tiledAt n fun d => f { d with vote := .office .A, count := BitVec.ofNat 64 n }

theorem witness_SumSetThrottleAndQuiet :
    (((voted 0 id).tile 0).vote = .office .A ∧ ((voted 0 id).tile 0).inReset = false) ∧
    ((2 : Byte).toNat % 2 = 0 ∧ (2 : Byte).toNat ≤ 30 ∧ (3 : Byte).toNat % 2 = 1) ∧
    (¬ ((4 : Byte) = 0 ∨ 32 < (4 : Byte).toNat ∨ 15 < (2 : Byte).toNat ∨ 2 < (1 : Byte).toNat) ∧ (33 : Byte).toNat = 33) ∧
    type3Cmds.contains (0xFF % 256) = false ∧ (State.reset.tile 0).vote ≠ .office .A ∧
    ((63 : Byte).toNat ≤ 63 ∧ (3 : Byte).toNat ≤ 3 ∧ 63 < (64 : Byte).toNat ∧ 3 < (4 : Byte).toNat) ∧
    ((voted 0 id).tile 0).quiet = false ∧ ((voted 0 id).tile 0).orders = [] ∧ ((voted 0 fun d => { d with quiet := true }).tile 0).quiet = true := by decide +kernel

def capture0 : Capture := { tag := 1, lenm1 := 10, block := 0, startTick := 65536, endTick := 10, frozen := false }

theorem witness_CapturesAndDecimation :
    (((voted 65568 id).tile 0).capture = none ∧ ((voted 65568 id).tile 0).inReset = false) ∧
    (((voted 20 fun d => { d with capture := some capture0 }).tile 0).capture = some capture0 ∧ capture0.frozen = false ∧ capture0.tag = 1 ∧
      capture0.lenm1.toNat < (20 : W16).toNat ∧ (4 : W16).toNat ≤ capture0.lenm1.toNat ∧
      ((voted 20 fun d => { d with capture := some capture0 }).tile 0).count.toNat < capture0.endTick + 32) ∧
    (let d := (voted 42 fun d => { d with capture := some capture0, laneOwner := .office .A, upSum := ⟨1, 0⟩ }).tile 0
     capture0.endTick + 32 ≤ d.count.toNat ∧ d.laneOwner = .office .A ∧ d.upSum.get .A ≠ 0) ∧
    (let s := voted 64 fun d => { d with capture := some { capture0 with frozen := true } }
     ((s.tile 0).sumBusy.all fun e => e.2 ≤ 4 * s.now) = true ∧ (s.tile 0).count.toNat % (64 * max 1 (s.tile 0).dec) = 0 ∧ 32 ≤ (s.tile 0).count.toNat) ∧
    (((voted 0 fun d => { d with capture := some { capture0 with frozen := true } }).tile 0).count.toNat < 32 ∧
      ((voted 0 id).tile 0).count.toNat % (64 * max 1 ((voted 0 id).tile 0).dec) = 0) ∧
    (State.reset.tile 0).capture = none ∧
    (let s := (ruledWith .streaming id).modTile 0 fun d => { d with decPending := true, dec := 0, laneOwner := .office .A, upSum := ⟨1, 0⟩, count := 256 }
     (s.tile 0).decPending = true ∧ (s.tile 0).inReset = false ∧ decOf (popcount 3 (s.tile 0).sumLanes.toNat) ≠ (s.tile 0).dec ∧ (s.tile 0).count.toNat % 256 = 0 ∧ (s.tile 0).laneOwner = .office .A ∧
      s.owns .A = true ∧
      s.rd .A F.TRG_STAT_DEC 0 ≠ decCode (decOf (popcount 3 (s.tile 0).sumLanes.toNat))) ∧
    ((voted 255 fun d => { d with decPending := true }).tile 0).count.toNat % 256 ≠ 0 := by decide +kernel

def coded0 (n : Nat) : CodedItem := { ord := 0, round := 0, body := .env envelope0, compressed := true, bytes := List.replicate n 0 }

/-- The owner in Streaming with a store and a stage of compression, and registers set. -/
def storing (t : Store) (c : Compression) (l : List (Fld × Nat × Nat)) : State :=
  withRegs (ruledWith .streaming fun d => { d with sto := t, cmp := c, twin := { d.twin with mayWrite := true } })
    ([(F.PH_PORT_STAT_L0, 0, 1), (F.PH_PORT_STAT_BME, 0, 1), (F.STO_STAT_STATE, 0, storeIsOn)] ++ l)

/-- A staging area that is nearly full, by a record counted for its length alone. -/
def retiredPages (n : Nat) : Store := { retired := List.range n }

theorem witness_ItemsEnterStaging :
    (State.reset.stageNext .A = none ∧ ((State.reset.off .A).cmp.plans.all fun p => !p.dropped) = true) ∧
    (State.reset.settleStore .A = State.reset ∧ (ruled .streaming).settleStore .A = ruled .streaming ∧
      ((ruled .streaming).off .A).undecided 0 = false) ∧
    (let s := coding { coded := [coded0 70], plans := [plan0] }
     let t := (s.off .A).sto
     s.stageNext .A = some (coded0 70) ∧ s.decideUpTo .A 0 = s ∧ t.dropFrom = none ∧ envelope0.route = none ∧ t.liveArmed = false ∧
      t.fill + (coded0 70).bytes.length ≤ 32 * 2 ^ 20 ∧ t.fill + (coded0 70).bytes.length ≤ t.room) ∧
    (let s := (coding { coded := [coded0 70], plans := [plan0] }).modSto .A fun _ => retiredPages 1024
     (s.off .A).sto.room < (s.off .A).sto.fill + (coded0 70).bytes.length ∧ s.stageNext .A = some (coded0 70) ∧ s.decideUpTo .A 0 = s) ∧
    ((State.reset.off .A).sto.fill < 16 * 2 ^ 20 ∧ (State.reset.off .A).sto.dropFrom = none) ∧
    ((State.reset.modSto .A fun t => { t with dropFrom := some 0 }).off .A).sto.dropFrom = some 0 := by decide +kernel

theorem staged_over (n m : Nat) (b : List Byte) :
    ({ staged := List.replicate n ⟨{ ord := 0, round := 0, body := .env envelope0, compressed := true, bytes := b }, m, false⟩ } : Store).fill = n * b.length := by
  suffices h : ∀ k, List.foldl (fun (n : Nat) (x : Staged) => n + x.item.bytes.length) k
      (List.replicate n ⟨{ ord := 0, round := 0, body := .env envelope0, compressed := true, bytes := b }, m, false⟩) = k + n * b.length by
    simpa [Store.fill] using h 0
  induction n with
  | zero => intro k; simp
  | succ n ih => intro k; rw [List.replicate_succ, List.foldl_cons, ih, Nat.succ_mul]; dsimp only; omega

theorem witness_StagingAbove16MiB :
    16 * 2 ^ 20 ≤ ({ staged := List.replicate (2 ^ 24) ⟨coded0 70, 0, false⟩ } : Store).fill := by
  rw [coded0, staged_over]; simp

def endedPlan : RoundPlan := { plan0 with decided := true, endOrd := some 0 }

theorem witness_RoundsAreWritten :
    (State.reset.owns .A = false ∧ ((State.reset.off .A).cmp.plans.all fun p => !p.dropped) = true ∧ State.reset.storeOn .A = false) ∧
    (let s := coding { plans := [endedPlan] }
     s.owns .A = true ∧ (s.off .A).readyRound = some endedPlan ∧ s.storeOn .A = false ∧ s.rd .A F.STO_STAT_STATE ≠ storeFormatting) ∧
    (let s := storing { cur := some 0, headed := true, sacks := [(0, { state := 1 })], count := 4, off := 4096 } { plans := [endedPlan] } []
     let t := (s.off .A).sto
     s.owns .A = true ∧ (s.off .A).readyRound = some endedPlan ∧ s.storeOn .A = true ∧ t.dropFrom = none ∧ s.decideUpTo .A 0 = s ∧
      endedPlan.decided = true ∧ endedPlan.opens = false ∧ t.cur = some 0 ∧ t.headed = true ∧ t.uioLost = false ∧ t.staged = [] ∧ s.settleStore .A = s ∧
      t.off + 32 + runLen [] ≤ s.sackLen .A ∧ s.storeReady .A = true) ∧
    (let x : Staged := ⟨coded0 70, 0, false⟩
     let s := storing { cur := some 0, headed := true, sacks := [(0, { state := 1 })], count := 4, off := 4096, staged := [x] } { plans := [endedPlan] } []
     s.settleStore .A = s ∧ (s.off .A).readyRound = some endedPlan ∧ x.lost = false ∧
      (s.off .A).errWords 6 (x.addr / 8) ((x.addr + x.item.bytes.length + 7) / 8) = [] ∧ 4096 + 32 + runLen [x.item] ≤ s.sackLen .A) := by decide +kernel

/-- Record 0 of item 0 of staging. -/
def stagedRecord0 : PhRecord := { record0 with staged := some 0 }

theorem witness_LiveRecordsOfStaging :
    (let x : Staged := ⟨coded0 70, 0, false⟩
     let s := (ph5 2 { held := [buffer0], queue := [stagedRecord0] }).modSto .A fun t => { t with staged := [x] }
     (s.off .A).stagedOf stagedRecord0 = some x ∧ s.useStaged .A x = (s, true) ∧ s.heldBack .A stagedRecord0 = false ∧
      s.recordBefore .A stagedRecord0 = false) ∧
    (let x : Staged := ⟨coded0 70, 0, true⟩
     let s := (ph5 2 { held := [buffer0], queue := [stagedRecord0] }).modSto .A fun t => { t with staged := [x] }
     (s.off .A).stagedOf stagedRecord0 = some x ∧ x.lost = true ∧ s.canHold .A 5 stagedRecord0 = true ∧ s.noticeReady .A = false) := by
  decide +kernel

def pend0 (retried : Bool) : PendWrite := { region := 0, addr := 0x1000, bytes := [0], round := none, retried := retried }

theorem witness_StoreWritesEnd :
    (let s := storing { pend := [pend0 false] } {} []
     s.storeReady .A = true ∧ (s.off .A).sto.pendOf 0 ≠ [] ∧ (s.mode .A).isData = true ∧ s.isOrdered .A 0 = false ∧
      ((s.off .A).sto.pend.find? fun w => w.region = 0 && w.addr = 0x1000) = some (pend0 false) ∧
      ((s.off .A).sto.pend.find? fun w => w.region = 0 && w.addr = 0x2000) = none) ∧
    (let s := storing { pend := [pend0 false], io := [(0, { cover := some 1 })] } {} [(F.STO_RGN_CTL_PATH, 0, 1)]
     s.isOrdered .A 0 = true ∧ ((s.off .A).sto.ioOf 0).cover = some 1 ∧ ((s.off .A).sto.ioOf 0).due = false) ∧
    ((State.reset.off .A).sto.pendOf 0 = [] ∧ State.reset.storeReady .A = false) ∧
    (let s := storing { pend := [pend0 true] } {} []
     ((s.off .A).sto.pend.find? fun w => w.region = 0 && w.addr = 0x1000) = some (pend0 true) ∧ s.rd .A F.STO_RGN_CTL_FAILED 0 = 0 ∧
      s.rd .A F.STO_IDX_CTL_FAILED 0 = 0 ∧ s.rd .A F.STO_STAT_STATE ≠ storeOff) ∧
    (let s := { storing { pend := [pend0 true] } {} [] with now := 1000000 }
     (s.off .A).sto.pend ≠ [] ∧ s.rd .A F.STO_STAT_STALLED = 0 ∧ (s.off .A).sto.lastDoneAt + ticksOfUs (s.rd .A F.STO_CFG_STALL_US) ≤ s.now) ∧
    (storing {} {} [(F.STO_STAT_STALLED, 0, 1)]).rd .A F.STO_STAT_STALLED = 1 := by decide +kernel

/-- Standby with data region 0 of 64 MiB and an index copy, both on the ordered path. -/
def mapped (l : List (Fld × Nat × Nat)) : State :=
  withRegs (ruledWith .standby fun d => { d with twin := { d.twin with mayWrite := true } })
    ([(F.STO_RGN_CTL_EN, 0, 1), (F.STO_RGN_CTL_PATH, 0, 1), (F.STO_RGN_SIZE_SIZE, 0, 32), (F.STO_IDX_CTL_EN, 0, 1), (F.STO_IDX_CTL_PATH, 0, 1),
      (F.STO_IDX_SIZE_SIZE, 0, 0x1000), (F.STO_IDX_BASE_HI_BASE_H, 0, 1), (F.PH_PORT_STAT_L0, 0, 1), (F.PH_PORT_STAT_BME, 0, 1)] ++ l)

theorem witness_StoreTurnsOnAndOff :
    ((mapped []).takesWrites .A = true ∧ (0x80000000 : W32).getLsbD 29 = false ∧ (mapped []).rd .A F.STO_CTL_ENABLE = 0 ∧
      (0x80000000 : W32).getLsbD 31 = true ∧ (mapped []).mapFault .A ((0x80000000 : W32).getLsbD 30) = none ∧ (mapped []).owns .A = true) ∧
    ((ruled .standby).mapFault .A false = some 2 ∧ (ruled .standby).takesWrites .A = true) ∧
    ((mapped [(F.STO_CTL_ENABLE, 0, 1)]).rd .A F.STO_CTL_ENABLE = 1 ∧ (0 : W32).getLsbD 31 = false ∧
      (mapped [(F.STO_CTL_ENABLE, 0, 1)]).mode .A = .standby ∧ (storing {} {} [(F.STO_CTL_ENABLE, 0, 1)]).mode .A ≠ .standby ∧
      (storing {} {} [(F.STO_CTL_ENABLE, 0, 1)]).takesWrites .A = true) ∧
    (let s := storing {} {} [(F.STO_CTL_ENABLE, 0, 1), (F.STO_CTL_MIRROR, 0, 1), (F.STO_STAT_COPY0_OK, 0, 1)]
     (0xE0000000 : W32).getLsbD 29 = true ∧ s.owns .A = true ∧ s.storeOn .A = true ∧ s.rd .A F.STO_CTL_MIRROR = 1 ∧ s.rd .A F.STO_STAT_COPY0_OK = 1 ∧
      s.rd .A F.STO_STAT_COPY1_OK = 0 ∧ s.dataRegions .A 1 = [] ∧ s.rd .A F.STO_IDX_CTL_FAILED 1 = 0) ∧
    (let s := storing {} {} [(F.STO_STAT_STATE, 0, storeFormatting)]
     s.rd .A F.STO_STAT_STATE = storeFormatting ∧ (s.off .A).sto.pend = [] ∧ s.owns .A = true ∧ s.storeReady .A = true) ∧
    State.reset.rd .A F.STO_STAT_STATE ≠ storeFormatting := by decide +kernel

/-- The store is on with one closed sack of rounds 0 to 3. -/
def sacked (l : List (Fld × Nat × Nat)) : State :=
  storing { count := 4, sacks := [(0, { state := 2, first := 0, last := 3, rounds := 4, seq := 1 })], newest := some 3 } {} l

theorem witness_PinsAndRepair :
    (let s := sacked [(F.STO_PIN_LAST_LO_ROUND_L, 0, 3)]
     writable s .A F.STO_PIN_CMD_GO.off 0x80000000 ∧ writable s .A F.STO_PIN_CMD_GO.off 0x90000000 ∧ writable s .A F.STO_PIN_CMD_GO.off 0xA0000000 ∧
      s.owns .A = true ∧ s.rd .A F.STO_PIN_CMD_BUSY = 0 ∧ s.storeOn .A = true ∧ later (0 : Round) 3 = false ∧
      BitVec.ofNat 48 (s.rdPair .A F.STO_PIN_LAST_LO_ROUND_L F.STO_PIN_LAST_HI_ROUND_H) = 3) ∧
    (later (BitVec.ofNat 48 ((sacked [(F.STO_PIN_FIRST_LO_ROUND_L, 0, 9)]).rdPair .A F.STO_PIN_FIRST_LO_ROUND_L F.STO_PIN_FIRST_HI_ROUND_H)) (0 : Round) = true) ∧
    (let s := sacked []
     writable s .A F.STO_IDX_REPAIR_GO.off 0x80000000 ∧ 0 < (s.off .A).sto.count ∧ ((s.off .A).sto.sack 0).state ≠ 1 ∧ (s.off .A).sto.cur ≠ some 0 ∧
      ((s.off .A).sto.ahead.all fun a => a.sack ≠ 0) = true ∧ writable s .A F.STO_IDX_REPAIR_GO.off 0x80000009 ∧ (s.off .A).sto.count ≤ 9 ∧
      (0xB0000000 : W32).toNat / 2 ^ 28 % 4 = 3 ∧ (0xB0000000 : W32).getLsbD 31 = true ∧ s.takesWrites .A = true) ∧
    (let s := storing { count := 4, cur := some 2, sacks := [(1, { state := 1 })] } {} [(F.STO_STAT_STATE, 0, storeFormatting)]
     writable s .A F.STO_IDX_REPAIR_GO.off 0x80000000 ∧ s.storeOn .A = false ∧ (s.off .A).sto.cur ≠ some 0 ∧ ((s.off .A).sto.sack 0).state ≠ 1 ∧
      (s.off .A).sto.cur = some 2 ∧ ((s.off .A).sto.sack 1).state = 1) := by
  unfold writable; decide +kernel

/-! ### Witnesses: live streams, sequencers, orders, counters -/

def parcel0 : Parcel :=
  { tile := 0, prog := 0, branch := 0, fireTick := 100, postmark := {}, samples := [], pre := 0, preReq := 0, cause := 0, block := 0, profile := 0,
    pcnum := 0, ext := 0, summary := false, trunc := false, extended := false, lost := false, parcelPh := 0, round := 0 }

/-- The owner in Streaming at a count, with its sequencer of tile 0 and what it has of the live stream. -/
def stepping (n : Nat) (q : Sequencer) (l : LiveRx) (word : Nat) (regs : List (Fld × Nat × Nat)) : State :=
  withRegs (ruledWith .streaming fun d =>
    { d with count := BitVec.ofNat 64 n, seqs := (Quad.all {}).set 0 q, live := (Quad.all {}).set 0 l,
             arr := Sparse.set 0 [] (arrKey 5 (0x0610000 / 8)) word }) regs

def jobOf (f : Sparse (List W16)) : CapJob := { parcel := parcel0, endTick := 1000, tag := 0, frames := f }

theorem witness_LiveStreamAtTheOwner :
    ((State.reset.off .A).inReset = false ∧ sumFault (frame 0 []) = some F.SORT_LN_CNT_CRC_COUNT) ∧
    (sumFault (frame 0 (List.replicate 128 0)) = none ∧ frmType (frame 0 []).hdr = 0 ∧ State.reset.owns .A = false) ∧
    (let s := stepping 1000 {} { missed := [0] } 0 []
     ((s.off .A).live.get 0).missed.contains (s.fullTick .A (0 / 64 % 2 ^ 22)) = true ∧ s.owns .A = true) ∧
    (let s := stepping 1000 {} {} 0 []
     ((s.off .A).live.get 0).missed.contains (s.fullTick .A 0) = false ∧ s.rd .A F.TRG_CTL_RED_EN 0 = 0 ∧ (s.seq .A 0).job = none) ∧
    (let s := stepping 1000 { job := some (jobOf []) } {} 0 []
     let f := frame 0x10000001 [0, 0]
     sumFault f = none ∧ frmType f.hdr = 1 ∧ (s.seq .A 0).job = some (jobOf []) ∧ f.hdr.toNat / 2 ^ 20 % 2 ^ 8 = (jobOf []).tag ∧
      0 + 1 ≠ (jobOf []).frameCount ∧ (0x10100001 : W32).toNat / 2 ^ 20 % 2 ^ 8 ≠ (jobOf []).tag) ∧
    (let s := (stepping 1000 {} {} 0 []).modOff .A fun d => { d with lanes := [(8, { state := .up })] }
     s.owns .A = true ∧ s.lEval .A 0 ≤ (s.off .A).count.toNat ∧ s.sumUp .A 0 ≠ 0 ∧ s.frameOf .A 0 (1000 - s.lEval .A 0) = none ∧
      (let m := 1000 - s.lEval .A 0
       ((s.off .A).live.get 0).missed.contains (m / (64 * s.decOf .A 0) * (64 * s.decOf .A 0)) = false) ∧
      s.rd .A F.TRG_CTL_RED_EN 0 = 0) ∧ (ruled .streaming).sumUp .A 0 = 0 := by decide +kernel

def frames0 : LiveRx := { frames := [⟨0, 1, List.replicate 64 0⟩] }

theorem witness_SequencersStep :
    (State.reset.syncSeq .A 0 = State.reset ∧ (State.reset.seq .A 0).running = false) ∧
    (let s := stepping 1000 { running := true } frames0 0 [(F.TRG_CTL_ARM, 0, 1)]
     s.syncSeq .A 0 = s ∧ (s.seq .A 0).running = true ∧ tickLe ((s.seq .A 0).tick + s.lEval .A 0) (s.off .A).count.toNat = true ∧
      (s.frameOf .A 0 0).isSome ∧ (s.off .A).windowBad (progAddr 0 0) 256 = false ∧
      ((List.range 4).all fun b => branchHolds (s.progBranch .A 0 0 0 b) (s.sources .A 0 0 0).1 = false) = true) ∧
    (let s := stepping 1000 { running := true } frames0 0x9000 [(F.TRG_CTL_ARM, 0, 1)]
     branchHolds (s.progBranch .A 0 0 0 0) (s.sources .A 0 0 0).1 = true ∧ bitsOf (s.progBranch .A 0 0 0 0) 11 1 = 0 ∧ s.syncSeq .A 0 = s) ∧
    (let s := stepping 1000 { running := true } frames0 0x9800 [(F.TRG_CTL_ARM, 0, 1)]
     branchHolds (s.progBranch .A 0 0 0 0) (s.sources .A 0 0 0).1 = true ∧ bitsOf (s.progBranch .A 0 0 0 0) 11 1 = 1 ∧
      (s.seq .A 0).job = none ∧ (s.seq .A 0).capEnd = none ∧ tickLe (s.seq .A 0).holdEnd 0 = true ∧ s.syncSeq .A 0 = s) ∧
    (let s := stepping 0 { running := true } frames0 0 [(F.TRG_CTL_ARM, 0, 1)]
     s.syncSeq .A 0 = s ∧ tickLe ((s.seq .A 0).tick + s.lEval .A 0) (s.off .A).count.toNat = false) := by decide +kernel

def bcast (op : Nat) (arg : List Byte) : Bcast := { origin := 0, seq := 1, op := op, tick := 0, arg := arg }
def arrivedAt (b : Bcast) (s : State) : State := s.modRing fun r => { r with arrived := [b] }

theorem witness_SequencerSourcesAndReductions :
    (((stepping 0 { running := true, t0 := some 0 } {} 0 []).seq .A 0).running = true ∧
      (if false then ((stepping 0 { running := true, t0 := some 0 } {} 0 []).seq .A 0).t1 else ((stepping 0 { running := true, t0 := some 0 } {} 0 []).seq .A 0).t0) = some 0 ∧
      ((stepping 0 { running := true, t1 := some 0 } {} 0 []).seq .A 0).t1 = some 0 ∧ tickLe 0 0 = true) ∧
    (State.reset.seq .A 0).running = false ∧
    (let s := stepping 5 { holdEnd := 5 } {} 0 [(F.TRG_STAT_HOLDOFF, 0, 1)]
     s.rd .A F.TRG_STAT_HOLDOFF 0 = 1 ∧ tickLe (s.seq .A 0).holdEnd (s.off .A).count.toNat = true ∧
      tickLe (s.seq .A 0).holdEnd ((stepping 4 {} {} 0 []).off .A).count.toNat = false) ∧
    (let s := stepping 5 { running := true } {} 0 []
     writable s .A (F.TRG_CTL_ARM.addr 0 0) 0xC0000000 ∧ (0xC0000000 : W32).getLsbD 30 = true ∧ (0xC0000000 : W32).getLsbD 31 = true ∧ s.owns .A = true ∧
      (s.mode .A).isData = true ∧ (0xC0000000 : W32).toNat / 2 ^ 26 % 4 = s.rd .A F.TRG_CTL_PROFILE 0 ∧ (s.seq .A 0).running = true) ∧
    (let s := stepping 5 {} {} 0 []
     writable s .A (F.TRG_CTL_ARM.addr 0 0) 0xC0000000 ∧ (s.seq .A 0).running = false) ∧
    (let s := arrivedAt (bcast 6 []) (stepping 5 { running := true } {} 0 [])
     s.owner = some .A ∧ s.svc.ring.arrived = [bcast 6 []] ∧ (bcast 6 []).op = 6 ∧ (bcast 7 []).op ≠ 6) ∧
    (let s := (stepping 5000 {} {} 0 [(F.TRG_CTL_RED_EN, 0, 1)]).modOff .A fun d => { d with reds := [(0, { next := some 0, b := 10 })] }
     s.redRuns .A 0 0 = true ∧ (Sparse.get {} (s.off .A).reds (redKey 0 0) : Reduction).next = some 0 ∧ s.rd .A F.TRG_RED_CFG_B 0 0 = 10 ∧
      tickLe ((0 + 1) * 2 ^ s.rd .A F.TRG_RED_CFG_B 0 0 - 1 + s.lEval .A 0) (s.off .A).count.toNat = true ∧
      s.canTake .A 2 { kind := 2, round := 0, bytes := List.replicate 16 0 } = false) ∧
    (let s := (withRegs (ph5 2 {}) [(F.GLB_MODE_MODE, 0, 6), (F.TRG_CTL_RED_EN, 0, 1), (F.TRG_RED_CFG_PH, 0, 5)]).modOff .A fun d =>
       { d with count := 5000, reds := [(0, { next := some 0, b := 10 })], phs := [(5, { held := [buffer0] })] }
     s.redRuns .A 0 0 = true ∧ s.rd .A F.TRG_RED_CFG_PH 0 0 = 5 ∧ s.rd .A F.TRG_RED_CFG_B 0 0 = 10 ∧
      s.canTake .A 5 { kind := 2, round := 0, bytes := List.replicate 16 0 } = true ∧ ((s.off .A).ph 5).queue = []) ∧
    (let s := (stepping 5 {} {} 0 [(F.TRG_CTL_RED_EN, 0, 1)]).modOff .A fun d => { d with reds := [(0, { next := some 0, b := 10 })] }
     ¬ tickLe ((0 + 1) * 2 ^ s.rd .A F.TRG_RED_CFG_B 0 0 - 1 + s.lEval .A 0) (s.off .A).count.toNat = true) ∧
    State.reset.redRuns .A 0 0 = false := by unfold writable; decide +kernel

/-- The words of an order for the envelopes of every district; `opts` its byte 3. -/
def orderRegs (opts : Nat) : List (Fld × Nat × Nat) :=
  [(F.COL_ORDER_W, 0, 0x0001C011 + opts * 2 ^ 24), (F.COL_ORDER_W, 1, 0x00050001), (F.COL_ORDER_W, 4, 100), (F.COL_ORDER_W, 6, 1)]
def orderBytes : List Byte := leWords 4 [0x0801C011, 0x00050001, 0, 0, 100, 0, 1, 0, 0, 0, 0, 0, 0, 0, 0, 0]

def ordering (f : Office → Office) (l : List (Fld × Nat × Nat)) : State := withRegs (ruledWith .standby f) ([(F.STO_STAT_STATE, 0, storeIsOn)] ++ l)
def order0 : Order := orderOf orderBytes

theorem witness_OrdersAreQueuedOrRefused :
    (let s := ordering id (orderRegs 8)
     writable s .A F.COL_SUBMIT_GO.off 0x80000000 ∧ (0x80000000 : W32).getLsbD 31 = true ∧ s.orderFault .A (s.orderWindow .A) true = 0 ∧
      (s.off .A).orders = [] ∧ (orderOf (s.orderWindow .A)).opts.getLsbD 5 = false) ∧
    (let s := ruled .standby
     writable s .A F.COL_SUBMIT_GO.off 0x80000000 ∧ s.orderFault .A (s.orderWindow .A) true = 2) ∧
    (let s := ordering id (orderRegs 0x28 ++ [(F.RING_CFG_HUB, 0, 1)])
     s.orderFault .A (s.orderWindow .A) true = 0 ∧ (orderOf (s.orderWindow .A)).opts.getLsbD 5 = true) ∧
    (let s := arrivedAt (bcast 7 orderBytes) (ordering id [])
     s.svc.ring.arrived = [bcast 7 orderBytes] ∧ s.owner = some .A ∧ s.orderFault .A orderBytes false = 0 ∧ (s.off .A).orders = [] ∧
      (bcast 6 []).op ≠ 7) ∧
    (let s := arrivedAt (bcast 7 []) (ordering id [])
     s.orderFault .A [] false = 3) ∧
    (let s := ordering (fun d => { d with orders := [order0] }) []
     (s.off .A).orders = [order0] ∧ ((List.range 4).find? fun k => (Sparse.get none (s.off .A).running k).isNone) = some 0 ∧ s.owns .A = true ∧
      (s.mode .A).serves = true ∧ (s.off .A).sto.replayHeld = false ∧ s.orderReady .A order0 = true) ∧
    (State.reset.owns .A = false ∧ (State.reset.off .A).orders = []) := by unfold writable; decide +kernel

def run0 : RunningOrder := { order := { order0 with opts := 0x10 }, gens := [(0, 1)], todo := [0] }
def stored0 : List Byte :=
  let h := le 2 0x9A5C ++ List.replicate 54 0 ++ le 4 (crc32c []).toNat
  h ++ le 4 (crc32c h).toNat

theorem witness_OrdersRunAndEnd :
    (Sparse.get none (State.reset.off .A).running 0 = none) ∧
    (let d := (ordering (fun d => { d with running := [(0, some run0)] }) []).off .A
     Sparse.get none d.running 0 = some run0 ∧ run0.todo.head? = some 0 ∧ run0.todo.head? ≠ some 3 ∧ run0.order.aborted = false ∧
      ((d.sto.sack 0).gen + 1 = Sparse.get 0 run0.gens 0 ∧ (0 : W32).toNat + 1 = Sparse.get 0 run0.gens 0) ∧
      (1 : W32).toNat + 1 ≠ Sparse.get 0 run0.gens 0 ∧ run0.tries = 0 ∧ run0.noted.contains (0 * 1024 + (256 : BitVec 9).toNat) = false ∧
      run0.order.takesStream (256 : BitVec 9).toNat = true ∧ run0.order.takesStream (5 : BitVec 9).toNat = false) ∧
    (let w := fun ofs n => ofLe ((stored0.drop ofs).take n)
     w 0 2 = 0x9A5C ∧ w 60 4 = (crc32c (stored0.take 60)).toNat ∧ w 56 4 = (crc32c ((stored0.drop 64).take (w 48 4))).toNat ∧
      bitsOf (w 3 1) 0 2 = 0 ∧ run0.held = none ∧ run0.last = none ∧
      (placeOf 1 stored0).after (placeOf 0 stored0) = true ∧
      run0.order.opts.getLsbD 4 = true ∧ run0.order.districts.getLsbD (w 5 1 * 64 + 0) = true ∧ run0.order.holds (w 8 8) = true) ∧
    (let s := (ph5 1 {}).modOff .A fun d => { d with running := [(0, some { run0 with todo := [] })] }
     run0.order.merged = [] ∧ s.portReady .A = true ∧ s.mayDeliver .A run0.order.ph = true ∧ s.phState .A run0.order.ph = phStarved ∧
      2 ≤ s.receiptRoom .A run0.order.ph ∧ ((s.off .A).ph run0.order.ph).queue = [] ∧ ((s.off .A).ph run0.order.ph).bag = none ∧
      ((s.off .A).units.any fun u => decide (u.1 = 0) && decide (s.now < u.2.2)) = false) ∧
    (let s := (ph5 1 {}).modOff .A fun d => { d with running := [(0, some { run0 with todo := [] })], units := [(0, 5, 2000000)] }
     ((s.off .A).units.any fun u => decide (u.1 = 0) && decide (s.now < u.2.2)) = true) ∧
    (let s := ph5 1 { queue := [{ record0 with order := true, tag := run0.order.tag }] }
     (((s.off .A).ph 5).queue.any fun y => y.order && decide (y.tag = run0.order.tag)) = true) := by decide +kernel

theorem witness_CountersAreClearedBitByBit :
    State.reset.takesWrites .A = false ∧
    (let s := (ruled .standby).setMode .B .standby
     s.takesWrites .B = true ∧ isServiceReg F.PWR_CNT_CLR_RAILFLT.off = true ∧ s.owns .B = false) ∧
    (eachClear .A 0 0 false 5 1 fun _ addr _ => writable (ruled .standby) .A addr 1) ∧
    (writable (ruled .standby) .A F.STO_CNT_CLR_DROPRND.off 0x100 ∧ (0x100 : W32).getLsbD 8 = true ∧
      writable (ruled .standby) .A (F.SORT_FE_CNT_CLR_PBUSY.addr 0 0) 1 ∧ writable (ruled .standby) .A (F.SORT_TE_CNT_CLR_COLEAD.addr 0 0) 1) ∧
    (eachClear .A 0 0 false 5 1 fun _ _ bits => eventsFit (ruled .standby) .A bits) ∧
    (((ruled .standby).countUp .A F.STO_CNT_DROPRND_COUNT).eventsNow .A F.STO_CNT_DROPRND_COUNT = 1) ∧
    ((ruled .standby).heeds 0 .A = false ∧ ((ruled .standby).modTile 0 fun d => { d with vote := .office .A }).heeds 0 .A = true) := by
  unfold eachClear; dsimp only; unfold writable eventsFit
  repeat' apply And.intro
  all_goals decide +kernel

/-! ### Witnesses: registers, the port, supply and reset -/

/-- No row of its own acts on the write. -/
def isOrdinary (s : State) (n : Nat) (v : W32) : Bool :=
  (s.arrayClears .A n v).isNone && (s.plainClears .A n v).isNone && (s.dataCommands .A n v).isNone && (s.moduleCommands .A n v).isNone &&
    (s.pigeonholeWrites .A n v).isNone && (s.regionWrites .A n v).isNone && (s.windowWrites .A n v).isNone

theorem witness_RegistersReadAndWrite :
    ((3 : Nat) % 4 ≠ 0) ∧
    (0x0300348 ∉ [F.AUX_IVL_LO_D_L.off, F.TWN_STAT_PEER_AGE.off, F.TWN_MIRROR_BOOK_LAG.off, F.TWN_TIMER_ELIG_S.off, 0x0100008, F.EMT_TD_TD.off] ∧
      arrayAt 0x0300348 = none ∧ ((ruled .standby).off .A).fromLatch 0x0300348 = false ∧ (ruled .standby).answersRead .A 0x0300348 = true ∧
      (State.reset.off .A).inReset = false ∧ (State.reset.off .A).d3hot = false ∧ State.reset.answersRead .A 0x0300348 = false) ∧
    ((ruledWith .standby fun d => { d with d3hot := true }).off .A).d3hot = true ∧
    (State.reset.takesWrites .A = false ∧ isOrdinary State.reset 0x0300348 7 = true) ∧
    (let s := ruled .standby
     isOrdinary s 0x0500008 7 = true ∧ s.takesWrites .A = true ∧ isReadOnlyWindow 0x0500008 = false ∧ (fieldsAt 0x0500008).isEmpty = false ∧
      writeKeys (fieldsAt 0x0500008) = []) ∧
    (let s := (ruled .standby).setMode .B .standby
     isServiceReg 0x020003C = true ∧ s.takesWrites .B = true ∧ s.owns .B = false ∧ writeKeys (fieldsAt 0x020003C) ≠ [] ∧
      isReadOnlyWindow 0x020003C = false) ∧
    (let s := ruled .standby
     isOrdinary s 0x0300348 7 = true ∧ isReadOnlyWindow 0x0300348 = false ∧ writeKeys (fieldsAt 0x0300348) ≠ [] ∧ isServiceReg 0x0300348 = false ∧
      isWriteLow 0x0300348 = false ∧ isWriteLow 0x0300344 = false ∧ (∀ e ∈ fieldsAt 0x0300348, e.1.acc = .wo → e.1.part 7 = 0) ∧
      (writeKeys (fieldsAt 0x0300348)).Nodup ∧ (∀ x ∈ writeKeys (fieldsAt 0x0300348), x ∉ sideKeys)) ∧
    (let s := ruled .standby
     isOrdinary s 0x0200030 7 = true ∧ writable s .A 0x0200030 7 ∧ isWriteLow 0x0200030 = true ∧ isReadOnlyWindow 0x0200030 = false ∧
      writeKeys (fieldsAt 0x0200030) ≠ []) ∧
    (let s := ruled .standby
     isOrdinary s 0x0200034 7 = true ∧ isWriteLow (0x0200034 - 4) = true ∧ isWriteLow 0x0200034 = false ∧ writable s .A 0x0200034 7 ∧
      isReadOnlyWindow 0x0200034 = false ∧ writeKeys (fieldsAt 0x0200034) ≠ [] ∧
      (writeKeys (fieldsAt 0x0200030 ++ fieldsAt 0x0200034)).Nodup ∧
      (∀ x ∈ writeKeys (fieldsAt 0x0200030 ++ fieldsAt 0x0200034), x ∉ sideKeys)) := by
  unfold writable; decide +kernel

theorem witness_EventsOfTheTick :
    (ruled .standby).eventsNow .A F.TB_STAT_UNSYNC = 0 ∧ ((ruled .standby).setEvent .A F.TB_STAT_UNSYNC).eventsNow .A F.TB_STAT_UNSYNC ≠ 0 := by
  decide +kernel

theorem witness_PortEvents :
    ((State.reset.modOff .A fun d => { d with inReset := true }).off .A).inReset = true ∧
    ((ruled .standby).off .A).inReset = false ∧ ((ruled .standby).off .A).d3hot = false ∧
    ((ruled .standby).flag .A F.PH_PORT_STAT_L0 = false ∧ (ruled .standby).storeOn .A = false ∧ (ruled .standby).flag .A F.PH_PORT_STAT_BME = false) ∧
    (6 ≤ (6 : BitVec 3).toNat ∧ 4 ≤ (4 : BitVec 3).toNat) ∧
    (let s := withRegs (ruled .standby) [(F.PH_PORT_STAT_L0, 0, 1), (F.PH_PTM_CTL_EN, 0, 1)]
     s.flag .A F.PH_PORT_STAT_L0 = true ∧ s.flag .A F.PH_PTM_CTL_EN = true ∧ s.answersRead .A 0x0740044 = true) ∧
    ((State.reset.off .A).regs.all fun e => e.1 ≠ F.MSIX_PBA_P.key 0 0) = true ∧ (ruled .standby).flag .A F.PH_PTM_CTL_EN = false := by decide +kernel

/-- Reset with the supply in a state, and registers set. -/
def powered (p : Power) (l : List (Fld × Nat × Nat)) : State := withRegs ((ruled .standby).modPwr fun _ => p) l

theorem witness_SupplyAndRails :
    ((powered { started := false, on := 0 } []).svc.pwr.started = false ∧ 5700 < (5701 : W16).toNat ∧ (5701 : W16).toNat ≤ 42000 ∧
      (powered { started := false, on := 0 } []).svc.pwr.good 8 = false ∧ (42000 : W16).toNat ≤ 42000) ∧
    (State.reset.svc.pwr.started = true ∧ State.reset.svc.pwr.good 8 = true ∧ State.reset.svc.pwr.locked = false ∧ State.reset.svc.inReset = false) ∧
    ((powered { on := 0, next := some 0 } []).svc.pwr.good 8 = false ∧ (powered { on := 0, next := some 0 } []).svc.pwr.next = some 0) ∧
    (let s := powered { on := 0x100, next := some 2 } []
     s.svc.pwr.good 3 = false ∧ s.svc.pwr.next = some 2 ∧ 3 ∈ stepRails 2 ∧ s.railWanted 3 = true ∧ 5 ∈ stepRails 2 ∧ s.railWanted 5 = true ∧
      s.svc.pwr.good 5 = false ∧ 4 ∉ stepRails 2 ∧ s.svc.pwr.good 4 = false) ∧
    (let s := powered { on := 0x1F7, officeStep := ⟨some 0, none⟩ } []
     s.svc.pwr.good (3 + 2 * officeBit .A) = false ∧ s.svc.pwr.next = none ∧ s.svc.pwr.officeStep.get .A = some 0) ∧
    ((powered { locked := true } []).svc.pwr.locked = true ∧ (powered {} []).owner = some .A ∧ (powered {} []).svc.pwr.next = none) ∧
    (State.reset.srd F.PWR_CFG_VIN_LOW * 100 ≤ (60000 : W16).toNat ∧ (0 : W16).toNat < State.reset.srd F.PWR_CFG_VIN_LOW * 100 ∧
      State.reset.srd F.PWR_STAT_VIN_LOW ≠ 1 ∧ State.reset.owner = none ∧
      (powered {} [(F.PWR_STAT_VIN_LOW, 0, 1)]).srd F.PWR_STAT_VIN_LOW = 1) := by decide +kernel

theorem witness_SupplyAndRails2 :
    ((5399 : W16).toNat < 5400 ∧ 42000 < (42001 : W16).toNat ∧ 5400 ≤ (5400 : W16).toNat) ∧
    (let p := (powered { ovr := true, on := 0 } []).svc.pwr
     p.ovr = true ∧ (40499 : W16).toNat < 40500 ∧ p.good 8 = false ∧ 40500 ≤ (40500 : W16).toNat) ∧
    (let p := (powered { on := 0x1F7 } []).svc.pwr
     p.good 3 = false ∧ p.next = none ∧ p.officeStep.get .A = none ∧ p.officeStep.get .B = none) ∧
    (let p := (powered {} []).svc.pwr
     p.good 3 = true ∧ p.good 7 = true ∧ (2 : BitVec 2).toNat ≤ 2 ∧ railOffice 3 = .A ∧ railOffice 5 = .B ∧ (powered {} []).svc.emt.flash = none) ∧
    (let s := powered { on := 0x1E7 } [(offField .A, 0, 1)]
     writable s .A F.PWR_CTL_OFFICE_ON_A.off 0x80000000 ∧ s.srd (offField .A) = 1 ∧ s.svc.pwr.officeStep.get .A = none ∧
      (0x80000000 : W32).getLsbD (31 - officeBit .A) = true ∧ (0x80000000 : W32).getLsbD (30 + officeBit .A) = false) ∧
    State.reset.takesWrites .A = false ∧
    (let p := (powered { waiting := true } []).svc.pwr
     p.waiting = true ∧ p.tripped = false ∧ p.next = none) ∧ State.reset.svc.pwr.waiting = false := by
  unfold writable; decide +kernel

theorem witness_ResetTripAndReboot :
    ((powered { resetHeld := true, tripped := true } []).svc.pwr.resetHeld = true ∧ (powered { resetHeld := true, tripped := true } []).svc.pwr.tripped = true) ∧
    (let s := ((powered { resetHeld := true, on := 0x107 } []).modOff .A fun d => { d with inReset := true }).modOff .B fun d => { d with inReset := true }
     let p := s.svc.pwr
     p.resetHeld = true ∧ p.started = true ∧ p.next = none ∧ p.tripped = false ∧ p.tilesOn = true ∧ p.tripDue = false ∧
      p.officeOn .A = false ∧ p.officeOn .B = false ∧ (s.off .A).inReset = true ∧ (s.off .B).inReset = true) ∧
    (let s := (ruled .standby).setMode .B .standby
     s.svc.pwr.resetHeld = false ∧ s.mode .A ≠ .loading ∧ s.mode .B ≠ .loading) ∧
    ((powered { on := 0 } []).svc.pwr.good 8 = false ∧ (1 : BitVec 7) ≠ 0 ∧ State.reset.svc.pwr.good 8 = true) ∧
    (let s := ruled .standby
     (s.off .A).inReset = false ∧ (s.off .A).lb.doeError = false ∧ (s.off .A).lb.job.isSome = false ∧ s.mode .A ≠ .loading ∧
      (s.mode .A).uploads = true ∧ s.owns .A = true) ∧
    ((ruled .streaming).mode .A).uploads = false ∧
    (let s := (ruled .standby).setMode .B .standby
     s.owns .B = false ∧ s.owner.isSome = true) ∧ State.reset.mode .A = .loading := by decide +kernel

/-! ### Witnesses: modes and time -/

def pend7 (m : Mode) (n : Nat) : PendingMode := ⟨m, BitVec.ofNat 64 n, false⟩
def due (op tick : Nat) (arg : List Byte) (s : State) : State := s.modRing fun r => { r with sched := [{ origin := 0, seq := 1, op := op, tick := tick, arg := arg }] }

theorem witness_ModeRequestsAndTransitions :
    (writable (ruled .standby) .A F.GLB_MODE_REQ_GO.off 0x80000001 ∧ (0x80000001 : W32).getLsbD 31 = true ∧ (ruled .standby).modeFault .A 1 false ≠ 0) ∧
    (writable (ruled .streaming) .A F.GLB_MODE_REQ_GO.off 0x80000004 ∧ (ruled .streaming).modeFault .A 4 false = 0 ∧ Mode.ofCode 4 = some .standby) ∧
    (State.reset.off .A).pendMode = none ∧ State.reset.owns .A = false ∧
    (let s := ruledWith .streaming fun d => { d with pendMode := some (pend7 .standby 0) }
     (s.off .A).pendMode = some (pend7 .standby 0) ∧ s.owns .A = true ∧ (s.off .A).loadedAt = none ∧ tickLt (s.off .A).count.toNat (pend7 .standby 0).atCount.toNat = false ∧
      s.mode .A ≠ .held ∧ tickLt (s.off .A).count.toNat (pend7 .standby 1).atCount.toNat = true ∧ s.svc.ring.sched = []) ∧
    (ruledWith .held fun d => { d with pendMode := some (pend7 .standby 0) }).mode .A = .held ∧
    State.reset.dueOp = none := by unfold writable; decide +kernel

theorem witness_ModeBroadcasts :
    (∃ b, (due 4 0 [] (ruled .streaming)).dueOp = some b ∧ b.op ≠ 5) ∧
    (∃ b, (due 5 5 [4] (ruledWith .streaming fun d => { d with pendMode := some (pend7 .standby 0) })).transitionFirst b = true) ∧
    (∃ b, (due 5 0 [4] (ruled .streaming)).dueOp = some b ∧ b.op = 5 ∧ (due 5 0 [4] (ruled .streaming)).transitionFirst b = false ∧
      (due 5 0 [4] (ruled .streaming)).owner = some .A ∧ (due 5 0 [4] (ruled .streaming)).modeFault .A (ofLe (b.arg.take 1) % 16) true = 0 ∧
      Mode.ofCode (ofLe (b.arg.take 1) % 16) = some .standby ∧ (due 5 0 [4] (ruled .streaming)).mode .A ≠ .held) ∧
    (due 5 0 [9] (ruled .streaming)).modeFault .A (ofLe (([9] : List Byte).take 1) % 16) true = 2 :=
  ⟨⟨{ origin := 0, seq := 1, op := 4, tick := 0, arg := [] }, by decide +kernel⟩,
   ⟨{ origin := 0, seq := 1, op := 5, tick := 5, arg := [4] }, by decide +kernel⟩,
   ⟨{ origin := 0, seq := 1, op := 5, tick := 0, arg := [4] }, by decide +kernel⟩, by decide +kernel⟩

theorem witness_HeldAndStandbyEntry :
    (State.reset.off .A).toHeld = none ∧
    (let s := ruledWith .standby fun d => { d with toHeld := some (3, 0) }
     (s.off .A).toHeld = some (3, 0) ∧ tickLt (s.off .A).count.toNat 0 = false ∧ s.mode .A ∈ [Mode.standby, .calibration, .streaming, .selective] ∧
      tickLt (s.off .A).count.toNat 1 = true) ∧
    (let s := { ruledWith .standby (fun d => { d with twin := { d.twin with noOwnerSince := some 0 } }) with now := 150000 }
     (s.off .A).inReset = false ∧ (s.off .A).twin.noOwnerNoted = false ∧ (s.off .A).twin.noOwnerSince = some 0 ∧ 0 + 150000 ≤ s.now) ∧
    (State.reset.off .A).twin.noOwnerSince = none ∧
    (let s := ruledWith .streaming fun d => { d with loadedAt := some 0 }
     s.owner = some .A ∧ (s.off .A).loadedAt = some 0 ∧ s.mode .A ≠ .loading ∧ s.mode .A ≠ .held) ∧
    (let s := (ruledWith .loading fun d => { d with loadedAt := some 0, liveness := (Quad.all none).set 0 (some (0, 0)) })
     s.mode .A = .loading ∧ s.now < 0 + ticksOfUs 100000) ∧
    (let s := (ruledWith .loading fun d => { d with loadedAt := some 0 }).wr .A F.SORT_LN_STAT_DL 1
     s.unlockedTiles .A 0 ≠ [] ∧ s.mode .A = .loading ∧ s.now < 0 + ticksOfUs 100000 ∧ s.owner = some .A) ∧
    (let s := (ruledWith .loading fun d => { d with loadedAt := some 0 })
     s.unlockedTiles .A 0 = [] ∧ s.mode .A = .loading ∧ s.owner = some .A) ∧
    (let s := (ruledWith .held fun d => { d with loadedAt := some 0 })
     s.unlockedTiles .A 0 = [] ∧ s.mode .A = .held) ∧ State.reset.owner = none := by decide +kernel

/-- The head in Standby, its service die changed and registers set. -/
def heading (f : ServiceDie → ServiceDie) (l : List (Fld × Nat × Nat)) : State :=
  withRegs ((ruled .standby).modSvc f) ([(F.RING_CFG_HEAD, 0, 1)] ++ l)
def epoch0 : Epoch := { tick := 0, pm := {}, inc := nominalInc }
def ppsOk : List (Fld × Nat × Nat) := [(F.TB_STAT_PPS_OK, 0, 1), (F.TB_STAT_TOD_OK, 0, 1)]
def todMsg : List Byte :=
  let h := le 2 0xD70A ++ [1, 1] ++ le 6 100 ++ le 2 37 ++ le 2 0 ++ List.replicate 6 0 ++ le 2 0
  h ++ le 2 (crc16 h).toNat

theorem witness_TimeBaseStarts :
    State.reset.svc.servo.due = none ∧ (heading (fun d => { d with servo := { d.servo with due := some ({}, 1, 0) } }) []).svc.servo.due = some ({}, 1, 0) ∧ 0 ≤ State.reset.now ∧
    State.reset.now < 1 ∧
    (writable (heading id []) .A F.TB_CTL_START.off 0x80000000 ∧ (heading id []).owns .A = true ∧ (0x80000000 : W32).getLsbD 31 = true ∧
      (heading id []).isHead = true ∧ (heading id []).mode .A = .standby ∧ (heading id []).ppsReady = false) ∧
    (let s := heading (fun d => { d with tod := { d.tod with next := some 101 } }) (ppsOk ++ [(F.TB_START_SEC_LO_SEC_L, 0, 100)])
     s.ppsReady = true ∧ s.srd F.TB_STAT_TOD_OK = 1 ∧ s.startSec ≠ 0 ∧ s.startSec ≤ s.svc.tod.known) ∧
    (let s := heading id ppsOk
     s.ppsReady = true ∧ s.startSec = 0 ∧ s.mode .A = .standby) ∧
    (let s := heading (fun d => { d with tod := { d.tod with next := some 101 } }) [(F.TB_STAT_TOD_OK, 0, 1), (F.TB_START_SEC_LO_SEC_L, 0, 100)]
     s.ppsReady = false ∧ s.srd F.TB_STAT_TOD_OK = 1 ∧ s.startSec ≠ 0 ∧ s.startSec ≤ s.svc.tod.known) ∧ State.reset.isHead = false := by unfold writable; decide +kernel

theorem witness_TimeBaseFollows :
    (let s := heading (fun d => { d with epochs := [epoch0], count := 500000, tod := { d.tod with seen := true } }) [(F.TB_STAT_STARTED, 0, 1)]
     s.isHead = true ∧ s.svc.tod.seen = true ∧ s.acceptsEdge 0 = false) ∧
    (let s := heading (fun d => { d with tod := { d.tod with seen := true } }) []
     s.acceptsEdge 0 = true ∧ s.svc.servo.armed = false ∧ s.srd F.TB_STAT_STARTED = 0) ∧
    (let s := heading (fun d => { d with tod := { d.tod with seen := true }, servo := { d.servo with armed := true } }) []
     s.acceptsEdge 0 = true ∧ s.svc.servo.armed = true ∧ s.startSec = 0) ∧
    (let s := heading (fun d => { d with epochs := [epoch0], tod := { d.tod with seen := true } }) [(F.TB_STAT_STARTED, 0, 1), (F.TB_STAT_STATE, 0, tbLocked)]
     s.acceptsEdge 0 = true ∧ s.svc.servo.armed = false ∧ s.srd F.TB_STAT_STARTED = 1 ∧ s.tbState = tbLocked) ∧
    (((heading (fun d => { d with servo := { d.servo with edgeAt := some 0 } }) []).svc.servo.edgeAt.all fun a =>
      decide (a + ticksOfUs 2000000 ≤ (heading id []).now)) = false) ∧
    ((heading id []).svc.servo.edgeAt = none ∧ (heading id []).tbState ≠ tbLocked) ∧
    (todValid [] true = false ∧ todValid todMsg true = true ∧
      (heading (fun d => { d with tod := { d.tod with run := 1, lastSec := some 99 } }) []).svc.tod.lastSec.map (· + 1) = some (ofLe ((todMsg.drop 4).take 6))) ∧
    ((heading id [(F.TB_REF_REF_EN, 0, 1)]).srd F.TB_REF_REF_EN = 1 ∧ (heading id []).owner = some .A ∧ (heading id []).srd F.TB_STAT_REFLOSS = 0 ∧
      (heading id [(F.TB_STAT_REFLOSS, 0, 1)]).srd F.TB_STAT_REFLOSS = 1) := by decide +kernel

theorem witness_EpochsAndReads :
    ((heading id []).srd F.TB_STAT_STARTED = 0) ∧
    (let s := heading (fun d => { d with count := 0x100000, ring := { d.ring with open_ := true } })
       [(F.TB_STAT_STARTED, 0, 1), (F.RING_STAT_E_STATE, 0, rpUp), (F.RING_STAT_W_STATE, 0, rpUp)]
     s.srd F.TB_STAT_STARTED = 1 ∧ s.svc.count.toNat % 65536 = 0 ∧ s.svc.count.toNat % 2 ^ 20 ≠ 2 ^ 19 + 2 ^ 16 ∧ s.portUp .E = true ∧ s.portUp .W = true ∧
      s.isHead = true ∧ s.svc.ring.e.sending = none ∧ s.svc.ring.w.sending = none) ∧
    ((heading (fun d => { d with count := 1 }) []).svc.count.toNat % 2 ^ 20 ≠ 0) ∧
    (let s := heading (fun d => { d with count := 0x100000, epochs := [epoch0] }) [(F.TB_STAT_STARTED, 0, 1)]
     s.svc.count.toNat % 2 ^ 20 = 0 ∧ s.svc.ring.startPending = false ∧ (∀ y ∈ s.svc.epochs.head?, y.tick ≠ s.svc.count.toNat) ∧ s.svc.ring.sched = []) ∧
    (((ruled .standby).off .A).inReset = false ∧ ((ruled .standby).off .A).d3hot = false ∧ (ruled .standby).answersRead .A 0x0100008 = true) := by
  decide +kernel

theorem witness_RoundBoundary :
    (State.reset.svc.count.toNat % 2 ^ State.reset.svc.roundShift = 0 ∧ State.reset.svc.boundaryAt ≠ some (State.reset.now, State.reset.svc.count.toNat) ∧
      State.reset.svc.inReset = false) ∧
    ({ State.reset with svc := { State.reset.svc with count := 1 } } : State).svc.count.toNat % 2 ^ State.reset.svc.roundShift ≠ 0 ∧
    (let s := tiledAt 9 fun d => { d with reload := some 3, inReset := false }
     (s.tile 0).reload.any (fun a => decide (a < s.now)) = true) ∧
    ((State.reset.modOff .A fun d => { d with count := 0x70000 }).off .A).count.toNat / 2 ^ State.reset.svc.roundShift % 65536 ≠ 0 := by decide +kernel

/-! ### Witnesses: the ring -/

/-- A ring frame with its CRC. -/
def rframe (type origin hops : Nat) (west : Bool) (ws : List W32) : RingFrame :=
  let h := rgHeader type origin hops west false ws.length
  { hdr := h, words := ws, crc := ringCrc h ws, charErr := false }

/-- The ring of three modules 0 to 2 is open at both ports, and its registers set. -/
def ringed (f : Ring → Ring) (l : List (Fld × Nat × Nat)) : State :=
  withRegs ((ruled .standby).modRing fun r => f { r with open_ := true })
    ([(F.RING_STAT_E_STATE, 0, rpUp), (F.RING_STAT_W_STATE, 0, rpUp), (F.RING_CFG_N_MAP, 0, 3), (F.RING_MAP0_W0, 0, 1), (F.RING_MAP0_W0, 1, 2),
      (F.RING_MAP0_W0, 2, 3)] ++ l)

/-- A BCAST frame that a port is sending. -/
def sentFrame0 : TxFrame := { hdr := (rframe 3 2 0 false [0]).hdr, words := [0], own := false }

theorem witness_RingPortFrames :
    State.reset.portUp .E = false ∧
    ((ringed id []).portUp .E = true ∧ ringGood { rframe 0 2 0 false [] with charErr := true } = false) ∧
    (ringGood (rframe 1 2 0 false [0]) = true ∧ rgType (rframe 1 2 0 false [0]).hdr ≠ 0 ∧ rgType (rframe 0 2 0 false [0]).hdr ≠ 1 ∧
      rgType (rframe 0 2 0 false [0]).hdr ≠ 2 ∧ rgType (rframe 1 2 0 false [0]).hdr = 1 ∧ rgWrapped (rframe 1 2 0 false [0]).hdr = false ∧
      ((ringed id []).crossRing .E (rframe 1 2 0 false [0])).2 = true) ∧
    (((ringed id []).modSvc fun d => { d with fifos := [(0, { flushedAt := some 0 })] }).crossRing .E (rframe 1 2 0 false [0])).2 = false ∧
    (((ringed id []).svc.ring.port .E).pdAt = none ∧ ((ringed id []).svc.ring.port .E).sending = none ∧
      ((ringed id []).svc.ring.port .E).waiting = []) ∧
    ((ringed (fun r => { r with e := { sending := some (sentFrame0, 100) } }) []).svc.ring.port .E).sending.any
      (fun q => decide ((ringed id []).now < q.2)) = true ∧
    (((ringed (fun r => { r with e := { pdAt := some 0 } }) []).svc.ring.port .E).pdAt.any (fun y => decide ((ringed id []).now < y + 2 ^ 18)) = true) ∧
    (let s := ringed (fun r => { r with e := { t1 := some 5, pdSeq := 1 } }) []
     let f := rframe 2 2 0 false (ringWords (le 2 1 ++ le 1 2 ++ le 1 0 ++ le 4 0 ++ le 8 0 ++ le 8 0))
     s.portUp .E = true ∧ ringGood f = true ∧ rgType f.hdr = 2 ∧ (s.svc.ring.port .E).t1 = some 5 ∧ ofLe ((ringBytes f.words).take 2) = (s.svc.ring.port .E).pdSeq ∧
      s.peerOk .E (ofLe (((ringBytes f.words).drop 2).take 1)) = true ∧ (s.svc.ring.port .E).samples < 7) ∧
    (let s := ringed (fun r => { r with e := { t1 := some 5, pdSeq := 2 } }) []
     ofLe ((ringBytes (rframe 2 2 0 false [1]).words).take 2) ≠ (s.svc.ring.port .E).pdSeq) := by decide +kernel

theorem witness_RingPortStates :
    (State.reset.svc.ring.open_ = false ∧ (ringed id []).srd (portStateFld .E) ≠ rpTraining ∧ (ringed id []).srd (portStateFld .E) ≠ rpOpen) ∧
    (let s := { ringed id [(F.RING_STAT_E_STATE, 0, rpTraining)] with now := ticksOfUs 10000 }
     s.svc.ring.open_ = true ∧ s.srd (portStateFld .E) = rpTraining ∧ s.peerOk .E 2 = true ∧ s.owner = some .A ∧ s.peerOk .E 9 = false ∧
      (s.svc.ring.port .E).since + ticksOfUs 10000 ≤ s.now) ∧
    (let s := { ringed id [(F.RING_STAT_E_STATE, 0, rpOpen)] with now := ticksOfUs 1000000 }
     s.srd (portStateFld .E) = rpOpen ∧ (s.svc.ring.port .E).since + ticksOfUs 1000000 ≤ s.now) ∧
    (writable (ringed id []) .A F.RING_CTL_CRC.off 0x80000000 ∧ writable (ringed id []) .A F.RING_CTL_CRC.off 0x40000000 ∧
      (0x80000000 : W32).toNat % 8 = 0 ∧ (0x80000000 : W32).getLsbD 31 = true ∧ (0x40000000 : W32).getLsbD 30 = true) ∧
    (let s := { ringed id [] with now := 2 ^ 20 }
     s.isHead = false ∧ s.svc.ring.open_ = true ∧ s.srd F.TB_STAT_RHOLD = 0 ∧ s.svc.ring.syncAt.getD 0 + 2 ^ 20 ≤ s.now ∧
      (ringed id []).now < 2 ^ 20) := by unfold writable; decide +kernel

theorem witness_SyncFrames :
    (let s := ringed id []
     rgOrigin (rframe 0 1 0 false []).hdr = s.modid ∧ (s.svc.ring.port .E).samples < 8 ∧ rgOrigin (rframe 0 2 0 false []).hdr ≠ s.modid) ∧
    (let s := ringed (fun r => { r with e := { samples := 8 } }) [(F.RING_CFG_HEAD, 0, 1)]
     8 ≤ (s.svc.ring.port .E).samples ∧ s.isHead = true ∧ rgHops (rframe 0 2 0 false []).hdr < 510 ∧ s.portUp (otherPort .E) = true ∧
      510 ≤ rgHops (rframe 0 2 511 false []).hdr ∧ ringGood (rframe 0 2 0 false (ringWords (List.replicate 24 0))) = true ∧
      (s.crossRing .E (rframe 0 2 0 false (ringWords (List.replicate 24 0)))).2 = true ∧ (s.svc.ring.port (otherPort .E)).sending = none) ∧
    (let s := ringed (fun r => { r with e := { samples := 8 }, w := { sending := some (sentFrame0, 100) } }) [(F.RING_CFG_HEAD, 0, 1)]
     (s.svc.ring.port (otherPort .E)).sending = some (sentFrame0, 100) ∧ s.now < 100 ∧ rgType sentFrame0.hdr ≠ 0 ∧
      (s.svc.ring.port (otherPort .E)).parked = none ∧ 8 ≤ (s.svc.ring.port .E).samples ∧ s.isHead = true) ∧
    (let s := ringed (fun r => { r with e := { samples := 8 } }) []
     s.isHead = false ∧ s.srd F.TB_STAT_RHOLD ≤ 1 ∧ (s.svc.ring.port .E).syncTick ≠ some 0) := by decide +kernel

/-- A BCAST frame from module 2. -/
def bframe (seq op tick : Nat) : RingFrame := rframe 3 2 0 false (ringWords (le 2 seq ++ le 1 op ++ le 1 0 ++ le 8 tick))
def kept0 : Bcast := { origin := 2, seq := 1, op := 2, tick := 0, arg := [] }

theorem witness_RingBroadcasts :
    (let s := ringed (fun r => { r with seen := [(2, 1)] }) []
     let f := bframe 1 2 64
     s.portUp .E = true ∧ ringGood f = true ∧ rgHops f.hdr < 510 ∧ s.portUp .W = true ∧ rgWrapped f.hdr = false ∧ rgType f.hdr = 3 ∧
      rgOrigin f.hdr ≠ s.modid ∧ s.svc.ring.seen.contains (rgOrigin f.hdr, ofLe ((ringBytes f.words).take 2)) = true ∧ 12 ≤ (ringBytes f.words).length ∧
      (s.crossRing .E f).2 = true ∧ (s.svc.ring.port (otherPort .E)).sending = none) ∧
    (let s := ringed (fun r => { r with seen := [(2, 1)], w := { sending := some (sentFrame0, 100) } }) []
     (s.svc.ring.port (otherPort .E)).sending = some (sentFrame0, 100) ∧ s.now < 100 ∧ s.portUp .W = true ∧
      (s.crossRing .E (bframe 1 2 64)).2 = true) ∧
    (let s := ringed id []
     s.svc.ring.seen.contains (2, 1) = false ∧ opScheduled 2 = true ∧ 64 ≤ (BitVec.ofNat 64 64 - s.svc.count).toNat ∧
      (BitVec.ofNat 64 64 - s.svc.count).toNat < 2 ^ 63 ∧ s.svc.ring.sched.length < 16 ∧ (BitVec.ofNat 64 63 - s.svc.count).toNat < 64) ∧
    (ringed (fun r => { r with sched := List.replicate 16 kept0 }) []).svc.ring.sched.length = 16 ∧
    ((ringed id []).dueOp = none) ∧
    (let s := ringed (fun r => { r with sched := [kept0] }) []
     s.dueOp = some kept0 ∧ s.transitionFirst kept0 = false ∧ kept0.op = 2 ∧ kept0.op ≠ 3 ∧ s.owner = some .A ∧ ((s.off .A).ph 0).queue = []) ∧
    (let b : Bcast := { kept0 with op := 3, arg := [1] }
     let s := ringed (fun r => { r with sched := [b] }) []
     s.dueOp = some b ∧ s.transitionFirst b = false ∧ b.op = 3 ∧ ofLe (b.arg.take 1) % 4 = 1 ∧ b.op ≠ 2) ∧
    (let s := stepping 5 { running := true } {} 0 []
     ofLe (([2] : List Byte).take 1) % 4 = 2 ∧ (s.seq .A 0).running = true ∧ ofLe (([0] : List Byte).take 1) % 4 = 0) := by decide +kernel

theorem witness_RingRequests :
    (writable (ringed id []) .A F.RING_SM_CMD_GO.off 0x80000002 ∧ (0x80000002 : W32).getLsbD 31 = true ∧ (ringed id []).smFault .A 2 0 0 ≠ 0) ∧
    (let s := ringed id [(F.RING_CFG_HUB, 0, 1), (F.TB_STAT_SYNCED, 0, 1)]
     s.smFault .A 2 0 0x100000 = 0 ∧ 64 ≤ (BitVec.ofNat 64 0x100000 - s.svc.count).toNat ∧ s.svc.ring.seq < 65536) ∧
    (let s := (ruled .standby).setMode .B .standby
     s.takesWrites .B = true ∧ s.owns .B = false) ∧ State.reset.takesWrites .A = false := by unfold writable; decide +kernel

theorem witness_Barriers :
    (writable (ringed id []) .A F.RING_BAR_CMD_GO.off 0x80000000 ∧ (ringed id []).isHub = false) ∧
    (let s := ringed id [(F.RING_CFG_HUB, 0, 1)]
     s.isHub = true ∧ s.srd F.RING_BAR_STAT_BUSY = 0 ∧ s.portUp .E = true ∧ s.svc.ring.e.sending = none) ∧
    ((ringed id [(F.RING_CFG_HUB, 0, 1), (F.RING_BAR_STAT_BUSY, 0, 1)]).srd F.RING_BAR_STAT_BUSY = 1) ∧
    (let f := rframe 4 1 0 false (ringWords (le 8 5))
     ringGood f = true ∧ rgType f.hdr = 4 ∧ rgOrigin f.hdr = (ringed id []).modid ∧ (ringed id []).srd F.RING_BAR_STAT_BUSY = 0 ∧
      ofLe ((ringBytes f.words).take 2) = (ringed (fun r => { r with bid := 5 }) []).svc.ring.bid ∧ rgWest f.hdr = false) ∧
    (let f := rframe 4 2 0 false (ringWords (le 8 5))
     ringGood f = true ∧ rgOrigin f.hdr ≠ (ringed id []).modid ∧ (ringed (fun r => { r with lastBid := some 5 }) []).svc.ring.lastBid = some 5 ∧
      (ringed id []).svc.ring.lastBid ≠ some 5 ∧ ((ringed id []).crossRing .E f).2 = true ∧
      ((ringed id []).svc.ring.port (otherPort .E)).sending = none) ∧
    (let s := { ringed id [(F.RING_BAR_STAT_BUSY, 0, 1), (F.RING_STAT_WRAP, 0, 1)] with now := 2 ^ 20 }
     s.srd F.RING_BAR_STAT_BUSY = 1 ∧ s.svc.ring.barAt + 2 ^ 20 ≤ s.now ∧ s.srd F.RING_STAT_WRAP = 1 ∧ s.svc.ring.wrapAt + 2 ^ 20 ≤ s.now) ∧
    (State.reset.srd F.RING_STAT_WRAP ≠ 1 ∧ State.reset.srd F.RING_BAR_STAT_BUSY ≠ 1) := by unfold writable; decide +kernel

/-! ### Witnesses: calibration -/

/-- The owner in Calibration with office A changed and registers set. -/
def calibrating (f : Office → Office) (l : List (Fld × Nat × Nat)) : State := withRegs (ruledWith .calibration f) l
def calRun0 (running : Bool) : CalRun := { slot := 0, fromRound := 0, running := running }
/-- Words of sequence 0: kind 1, two pulses, period 100, one step, one repeat. -/
def seqWords : Sparse Nat :=
  Sparse.set 0 (Sparse.set 0 (Sparse.set 0 [] (arrKey 5 (sequenceAddr 0 / 8)) (1 + 2 * 2 ^ 16 + 100 * 2 ^ 32)) (arrKey 5 (sequenceAddr 0 / 8 + 1)) (2 ^ 32))
    (arrKey 5 (sequenceAddr 0 / 8 + 2)) (2 ^ 16)

theorem witness_CampaignMoves :
    (writable (calibrating id []) .A F.EMT_CAL_CTL_START.off 0x80000000 ∧ (calibrating id []).owns .A = true ∧ (0x80000000 : W32).toNat / 2 ^ 28 = 2 ^ 3 ∧
      (calibrating id []).rd .A F.EMT_CAL_STAT_STATE = 0 ∧ ((calibrating id []).mode .A).isData = true ∧ ((ruled .standby).mode .A).isData = false) ∧
    (writable (calibrating id []) .A F.EMT_CAL_CTL_START.off 0x40000000 ∧ (0x40000000 : W32).toNat / 2 ^ 28 = 2 ^ 2 ∧
      (calibrating id [(F.EMT_CAL_STAT_STATE, 0, 1)]).rd .A F.EMT_CAL_STAT_STATE = 1) ∧
    (writable (calibrating id []) .A F.EMT_CAL_CTL_START.off 0x20000000 ∧ (0x20000000 : W32).toNat / 2 ^ 28 = 2 ^ 1 ∧
      (calibrating id [(F.EMT_CAL_STAT_STATE, 0, 3)]).rd .A F.EMT_CAL_STAT_STATE = 3 ∧ (calibrating id []).nvmOpen .A = false ∧
      ((calibrating id []).off .A).cal.waitSince = none) ∧
    (writable (calibrating id []) .A F.EMT_CAL_CTL_START.off 0x10000000 ∧ (0x10000000 : W32).toNat / 2 ^ 28 = 2 ^ 0 ∧ ((calibrating id []).off .A).cal.waiting = []) ∧
    (let s := calibrating id [(F.EMT_CAL_STAT_STATE, 0, 2)]
     (s.off .A).inReset = false ∧ s.rd .A F.EMT_CAL_STAT_STATE = 2 ∧ s.flag .A F.EMT_CAL_CFG_AUTO_APPLY = false ∧ (s.off .A).litDistricts = []) := by
  unfold writable; decide +kernel

theorem witness_CodeDensityAndStrobes :
    (State.reset.flag .A F.SORT_CD_STAT_BUSY = false) ∧
    (let s := calibrating (fun d => { d with cd := { d.cd with startRound := 0 - 1 } })
       [(F.SORT_CD_STAT_BUSY, 0, 1), (F.SORT_CD_TIMEOUT_LIMIT, 0, 1), (F.EMT_CAL_STAT_STATE, 0, 1)]
     s.flag .A F.SORT_CD_STAT_BUSY = true ∧ s.owns .A = true ∧ (s.off .A).inReset = false ∧
      s.rd .A F.SORT_CD_TIMEOUT_LIMIT ≠ 0 ∧ s.rd .A F.SORT_CD_TIMEOUT_LIMIT ≤ (s.roundOf (s.off .A).count - (s.off .A).cd.startRound).toNat ∧ s.rd .A F.EMT_CAL_STAT_STATE ≠ 0) ∧
    (State.reset.owner = none ∧ (State.reset.tile 0).calib = false ∧ ((tiled fun d => { d with calib := true }).tile 0).calib = true) ∧
    ((calibrating id []).owner = some .A ∧ ((calibrating id []).off .A).calRun = none) ∧
    (let s := (calibrating (fun d => { d with arr := seqWords, calRun := some (calRun0 true) }) []).modTile 0 fun d => { d with calib := true }
     let d := s.off .A
     (s.tile 0).calib = true ∧ d.calRun = some (calRun0 true) ∧ d.seqKind 0 ≠ 3 ∧ (calRun0 true).fired.get 0 < d.seqStrobes 0 ∧
      tickLt d.count.toNat (startTickBefore s.svc.roundShift (calRun0 true).fromRound d.count.toNat + (calRun0 true).fired.get 0 * d.seqPeriod 0) =
        false ∧ s.sequenceOver .A (calRun0 true) = false) ∧
    (writable (ruled .standby) .A F.GLB_CALSEQ_GO.off 0x80000001 ∧ (ruled .standby).mode .A ≠ .calibration ∧
      writable (calibrating id []) .A F.GLB_CALSEQ_GO.off 0x80000001 ∧ (calibrating id []).mode .A = .calibration ∧
      (calibrating id []).flag .A F.GLB_CALSEQ_RUN = false ∧ (calibrating id [(F.GLB_CALSEQ_RUN, 0, 1)]).flag .A F.GLB_CALSEQ_RUN = true) ∧
    ((calRun0 false).running = false ∧ (calibrating id []).sequenceOver .A (calRun0 true) = true) ∧
    ((ruled .standby).heeds 0 .A = false ∧ ((ruled .standby).modTile 0 fun d => { d with vote := .office .A }).heeds 0 .A = true) := by unfold writable; decide +kernel

theorem witness_NvmWindow :
    ((State.reset.modOff .A fun d => { d with inReset := true }).off .A).inReset = true ∧
    (let d := State.reset.off .A
     d.inReset = false ∧ d.pageWait = none ∧ d.cal.waitSince = none ∧ d.lb.job = none) ∧
    (let s := ruledWith .standby fun d => { d with lb := { d.lb with job := some { work := .confirm, waiting := some 0 } } }
     (s.off .A).lb.job = some { work := .confirm, waiting := some 0 } ∧ s.now < 0 + ticksOfUs 60000000 ∧
      0 + ticksOfUs 60000000 ≤ ({ s with now := ticksOfUs 60000000 } : State).now) ∧
    (let d := (calibrating (fun d => { d with cal := { d.cal with waitSince := some 0 } }) []).off .A
     d.lb.job = none ∧ d.pageWait = none ∧ d.cal.waitSince = some 0) ∧
    (calibrating id [(F.EMT_CAL_STAT_STATE, 0, 4)]).rd .A F.EMT_CAL_STAT_STATE = 4 := by decide +kernel

/-! ### Witnesses: emitters, the thermal model, errors -/

/-- The owner in Standby with the emitter driver changed, at a count. -/
def flashing (n : Nat) (f : Emitter → Emitter) (l : List (Fld × Nat × Nat)) : State :=
  withRegs (((ruled .standby).modEmt f).modSvc fun d => { d with count := BitVec.ofNat 64 n }) l
def flashRun0 : FlashRun := { seq := 0, f0 := 100, source := 0 }
def flashDue (seq : Nat) : Bcast := { origin := 0, seq := 1, op := 4, tick := 0, arg := le 2 seq }

theorem witness_EmitterStarts :
    ((flashing 0 id []).svc.emt.flash = none ∧ (flashing 0 id []).svc.emt.swap = none ∧ (flashing 0 id []).svc.emt.run = none) ∧
    (writable (flashing 0 id []) .A F.EMT_CTL_GO.off 0x80000000 ∧ (0x80000000 : W32).toNat / 2 ^ 29 = 2 ^ 2 ∧ (flashing 0 id []).moduleMode.flashes = true ∧
      (flashing 0 id [(F.EMT_SEQ_REPEAT_REPEAT, 0, 2)]).srd F.EMT_SEQ_REPEAT_REPEAT 0 ≠ 0 ∧ (flashing 0 id []).srd F.EMT_SEQ_REPEAT_REPEAT 0 = 0) ∧
    ((flashing 0 (fun m => { m with run := some flashRun0 }) []).svc.emt.run = some flashRun0 ∧
      flashRun0.num < (flashing 0 id [(F.EMT_SEQ_REPEAT_REPEAT, 0, 2)]).runLength flashRun0) ∧
    (writable (flashing 0 id []) .A F.EMT_CTL_GO.off 0x40000000 ∧ (0x40000000 : W32).toNat / 2 ^ 29 = 2 ^ 1 ∧
      writable (flashing 0 id []) .A F.EMT_CTL_GO.off 0x20000000 ∧ (0x20000000 : W32).toNat / 2 ^ 29 = 2 ^ 0) ∧ State.reset.takesWrites .A = false ∧
    (State.reset.srd F.EMT_CFG_SYNC_EN = 0 ∧ State.reset.svc.inReset = false ∧ (flashing 0 id [(F.EMT_CFG_SYNC_EN, 0, 1)]).srd F.EMT_CFG_SYNC_EN = 1 ∧
      (flashing 0 id []).srd F.EMT_CFG_SYNC_SEQ < 64 ∧ State.reset.moduleMode.flashes = false) := by unfold writable; decide +kernel

theorem witness_Flashes :
    State.reset.dueOp = none ∧
    (let s := { flashing 0 id [(F.EMT_SEQ_REPEAT_REPEAT, 0, 2)] with svc := { (flashing 0 id [(F.EMT_SEQ_REPEAT_REPEAT, 0, 2)]).svc with
       ring := { State.reset.svc.ring with sched := [flashDue 0] } } }
     s.dueOp = some (flashDue 0) ∧ (flashDue 0).op = 4 ∧ s.transitionFirst (flashDue 0) = false ∧ ofLe ((flashDue 0).arg.take 2) < 64 ∧
      s.moduleMode.flashes = true ∧ s.srd F.EMT_SEQ_REPEAT_REPEAT 0 ≠ 0 ∧ 64 ≤ ofLe ((flashDue 64).arg.take 2)) ∧
    (let s := flashing 100 (fun m => { m with run := some flashRun0 }) []
     s.svc.emt.run = some flashRun0 ∧ s.svc.inReset = false ∧ flashRun0.f0 + flashRun0.num * s.srd F.EMT_SEQ_PERIOD_PERIOD 0 ≤ s.svc.count.toNat ∧
      s.owner = some .A ∧ (flashing 99 id []).svc.count.toNat < flashRun0.f0) ∧
    (let s := { flashing 0 (fun m => { m with verAt := [(3, 1)] }) [(F.EMT_VER_VER_AGE, 0, 1), (F.EMT_STATE_E, 0, 0x40)] with now := ticksOfUs 1000000 }
     s.svc.inReset = false ∧ s.srd F.EMT_VER_VER_AGE ≠ 0 ∧ Sparse.get 0 s.svc.emt.verAt 3 ≠ 0 ∧
      Sparse.get 0 s.svc.emt.verAt 3 - 1 + ticksOfUs (s.srd F.EMT_VER_VER_AGE * 1000000) ≤ s.now ∧ s.emitterState 3 ≠ 0 ∧ s.svc.emt.verNoted = [] ∧
      s.owner = some .A) ∧ Sparse.get 0 State.reset.svc.emt.verAt 3 = 0 ∧
    (State.reset.owns .A = false ∧ ((ruled .standby).off .A).inReset = false ∧ (ruled .standby).owns .A = true) := by decide +kernel

theorem witness_ThermalModelAndPages :
    (State.reset.owns .A = false ∧ ((ruled .standby).off .A).thm.updates = 0 ∧ (ruled .standby).owns .A = true) ∧
    (writable (ruled .standby) .A F.THM_CTL_ACK.off 0x80000000 ∧ writable (ruled .standby) .A F.THM_CTL_ACK.off 0x40000029 ∧
      (0x80000000 : W32).getLsbD 31 = true ∧ (0x40000029 : W32).getLsbD 30 = true ∧ ((ruled .standby).off .A).thm.admits 41 = true ∧
      ((ruledWith .standby fun d => { d with thm := { d.thm with excluded := [41] } }).off .A).thm.admits 41 = false) ∧
    State.reset.takesWrites .A = false ∧
    (writable (ruled .standby) .A F.ERR_PAGE_CMD_GO.off 0x80000000 ∧ (0x80000000 : W32).getLsbD 31 = true ∧ (ruled .standby).flag .A F.ERR_PAGE_CMD_BUSY = false ∧
      pageExists 0 0 = true ∧ (standbyWith [(F.ERR_PAGE_CMD_BUSY, 1)]).flag .A F.ERR_PAGE_CMD_BUSY = true ∧
      writable (ruled .standby) .A F.ERR_PAGE_CMD_GO.off 0x803FFFFF ∧ pageExists 3 0xFFFFF = false ∧
      writable (ruled .standby) .A F.ERR_PAGE_CMD_GO.off 0x80700000 ∧ pageExists 7 0 = true) ∧
    (writable (ruled .standby) .A F.ERR_PAGE_CMD_GO.off 0x90100000 ∧ pageExists 1 0 = true ∧ (0x90100000 : W32).toNat / 2 ^ 28 % 4 = 1 ∧
      (ruled .standby).retireFault .A 0x90100000 = 1 ∧ writable (ruled .standby) .A F.ERR_PAGE_CMD_GO.off 0x90000000 ∧
      (ruled .standby).retireFault .A 0x90000000 = 0 ∧ (ruled .standby).nvmOpen .A = false) := by unfold writable; decide +kernel

/-- Check-bit test mode is open in Standby, and registers set. -/
def testing (f : Office → Office) (l : List (Fld × Nat × Nat)) : State := withRegs (ruledWith .standby f) ([(F.ERR_CBT_CTL_EN, 0, 1)] ++ l)

theorem witness_CheckBitTestMode :
    (writable (ruled .streaming) .A F.ERR_CBT_CTL_EN.off 0x80000000 ∧ (0x80000000 : W32).getLsbD 31 = true ∧ (ruled .streaming).mode .A ≠ .standby) ∧
    (writable (ruled .standby) .A F.ERR_CBT_CTL_EN.off 0x80000000 ∧ (ruled .standby).mode .A = .standby ∧ (0x80000000 : W32).getLsbD 30 = false ∧
      (ruled .standby).flag .A F.ERR_CBT_CTL_EN = false) ∧
    (writable (ruled .standby) .A F.ERR_CBT_CTL_EN.off 0x40000000 ∧ (0x40000000 : W32).getLsbD 31 = false ∧ (0x40000000 : W32).getLsbD 30 = true) ∧
    (let s := testing id []
     writable s .A F.ERR_CBT_CTL_EN.off 0xC6000000 ∧ s.flag .A F.ERR_CBT_CTL_EN = true ∧ (0xC6000000 : W32).getLsbD 31 = true ∧
      (0xC6000000 : W32).getLsbD 30 = true ∧ wordExists 6 (s.rd .A F.ERR_CBT_ADDR_WORD) = true ∧ s.cbtTarget .A 6 0 = true ∧
      (0xC6000000 : W32).toNat / 2 ^ 28 % 4 = 0 ∧ (0xC6000000 : W32).toNat / 2 ^ 24 % 16 = 6 ∧ s.cbtTarget .A 0 0 = false ∧ wordExists 0 0 = true) ∧
    (writable (testing id []) .A F.ERR_CBT_CTL_EN.off 0xD0000000 ∧ (0xD0000000 : W32).toNat / 2 ^ 28 % 4 = 1 ∧
      writable (testing id []) .A F.ERR_CBT_CTL_EN.off 0xE0000000 ∧ (0xE0000000 : W32).toNat / 2 ^ 28 % 4 = 2) := by unfold writable; decide +kernel

theorem witness_EscalationAndArrayReads :
    (let s := { ruled .standby with now := 100000000000 }
     (s.off .A).inReset = false ∧ (s.off .A).escAt + s.escWindow .A ≤ s.now) ∧ State.reset.now < (State.reset.off .A).escAt + State.reset.escWindow .A ∧
    arrayAt 0 = none ∧
    (let s := ruledWith .standby fun d => { d with syn := Sparse.set 0 [] (arrKey 1 0) 3 }
     arrayAt 0x1000000 = some (1, 0) ∧ s.answersRead .A 0x1000000 = true ∧ (s.off .A).fromLatch 0x1000000 = false ∧ (fieldsAt 0x1000000).isEmpty = true ∧
      (s.off .A).arrClass 1 0 = .uncorrectable ∧ (s.off .A).arrClass 1 1 ≠ .uncorrectable) := by decide +kernel

/-! ### Witnesses: the letterbox. Signatures are not interpreted, so what an accepted signature leads to is shown for an
interpretation that accepts every signature. -/

def zeros (n : Nat) : List Byte := List.replicate n 0
def itemBytes0 : List Byte := le 1 1 ++ le 1 4 ++ le 2 0 ++ le 4 0x0400000 ++ le 4 1 ++ le 4 0 ++ le 4 1 ++ le 4 0 ++ le 4 0xFFFF0000 ++ le 4 0
def item0 : Item := { kind := 1, esize := 4, target := 0x0400000, count := 1, stride := 0, count2 := 1, stride2 := 0, data := le 4 0xFFFF0000 }

/-- An amendment with one item. -/
def amend0 : List Byte :=
  le 2 0xA3D1 ++ [1, 0] ++ le 4 (7384 + 32) ++ [0, 0] ++ le 2 1 ++ zeros 4 ++ le 8 7 ++ zeros 8 ++ zeros 64 ++ le 64 (digestOf itemBytes0) ++
    zeros 2592 ++ zeros 4632 ++ itemBytes0

/-- The owner in Standby, with the digest of key slot 0. -/
def keyed (x : BitVec 512) : State :=
  (ruled .standby).modSvc fun d => { d with fuses := { d.fuses with slots := { d.fuses.slots with t0 := { prog := true, digest := x } } } }
def signed0 : State := keyed (sha3_512 (zeros 2592))

/-- The letterbox's first checks, with what the signature check found. -/
def headerFaultWith (s : State) (o : OfficeId) (b : List Byte) (sig : Nat) : Nat :=
  let f := fieldAt b
  let its := amendItems b
  let base := (b.drop 32).take 64
  let checks : List (Nat × Bool) :=
    [(0x01, decide (65512 < f 4 4) || decide (f 4 4 ≠ b.length)),
     (0x02, !s.owns o || (s.off o).twin.release.isSome || (match s.mode o with | .dormant | .loading | .fallback => true | _ => false)),
     (0x03, decide (f 0 2 ≠ 0xA3D1) || decide (f 2 1 ≠ 1) || decide (2 ≤ f 3 1) || decide (b.length % 8 ≠ 0) ||
        decide (b.length < 7384) || decide (f 12 4 ≠ 0) || decide (f 7379 5 ≠ 0) || decide (f 10 2 = 0) ||
        its.any (fun l => l.length ≠ f 10 2)),
     (0x04, decide (f 24 8 ≠ 0) && decide (f 24 8 ≠ s.serial o)),
     (0x05, decide (base ≠ s.imageMeas o) && !(decide (base = List.replicate 64 0) && hasFuse its)),
     (0x06, decide (f 9 1 < s.svc.fuses.version)), (0x07, decide (sig = 1)), (0x08, decide (sig = 2)), (0x09, decide (sig = 3)),
     (0x0A, decide (digestOf (b.drop 7384) ≠ f 96 64)), (0x0B, s.knownAmendment o (f 16 8))]
  match checks.find? (·.2) with
  | some c => c.1
  | none => 0

/-- The letterbox's further checks. -/
def itemFaults (s : State) (persist : Bool) (its : List Item) : Nat × Option Nat :=
  match its.findIdx? fun it => !it.wellFormed false (its.length = 1) with
  | some k => (0x0C, some k)
  | none =>
    match s.validate .A false (its.filter fun it => !it.isFuse) with
    | .item k => (0x0D, some k)
    | .cross => (0x0D, none)
    | .ok =>
      match its.findIdx? fun it => !s.itemAllowed .A persist it with
      | some k => (0x0E, some k)
      | none => (0, none)

theorem amend0_slot : fieldAt amend0 8 1 = 0 := by decide +kernel
theorem amend0_key : (amend0.drop 160).take 2592 = zeros 2592 := by decide +kernel
theorem amend0_items : amendItems amend0 = some [item0] := by decide +kernel

theorem keyed_usable (x : BitVec 512) : ¬ (3 < 0 ∨ ((keyed x).svc.fuses.slot 0).usable = false) := by
  have h : (keyed x).svc.fuses.slot 0 = { prog := true, digest := x } := rfl
  rw [h]; simp [KeySlot.usable]

theorem keyed_digest (x : BitVec 512) : ((keyed x).svc.fuses.slot 0).digest = x := rfl

theorem keyed_signature (x : BitVec 512) (k : List Byte) (hx : sha3_512 k = x) (hv : ∀ k c m g, Config.mldsaVerify k c m g = true)
    (c m g : List Byte) : (keyed x).svc.fuses.signatureFault 0 k c m g = 0 := by
  unfold Fuses.signatureFault
  rw [if_neg (keyed_usable x), hx, keyed_digest, if_neg (fun h => h rfl), hv, if_neg (by simp)]

theorem headerFault_with (s : State) (o : OfficeId) (b : List Byte) : s.amendHeaderFault o b = headerFaultWith s o b
    (s.svc.fuses.signatureFault (fieldAt b 8 1) ((b.drop 160).take 2592) (asciiBytes "UX1024-AMD") (b.take 160) ((b.drop 2752).take 4627)) := rfl

theorem amend0_header (hv : ∀ k c m g, Config.mldsaVerify k c m g = true) :
    signed0.amendHeaderFault .A amend0 = headerFaultWith signed0 .A amend0 0 := by
  rw [headerFault_with]
  exact congrArg (headerFaultWith signed0 .A amend0) (by rw [amend0_slot, amend0_key]; exact keyed_signature _ _ rfl hv _ _ _)

theorem amend0_header_ok : headerFaultWith signed0 .A amend0 0 = 0 := by decide +kernel
theorem amend0_item_ok : itemFaults signed0 (decide (fieldAt amend0 3 1 % 2 = 1)) [item0] = (0, none) := by decide +kernel

theorem witness_AmendAccepted (hv : ∀ k c m g, Config.mldsaVerify k c m g = true) : signed0.amendFault .A amend0 = (0, none) := by
  unfold State.amendFault
  rw [amend0_header hv, amend0_header_ok, if_neg (by simp), amend0_items]
  exact amend0_item_ok

def dir0 : List Byte := zeros 8 ++ le 4 7592 ++ le 4 0 ++ le 64 (digestOf [])
def hdr0 : List Byte :=
  le 4 0xA07E51A1 ++ le 2 1 ++ le 2 0 ++ le 4 7592 ++ [0, 0] ++ zeros 10 ++ le 4 0x1024 ++ zeros 4 ++ le 4 7480 ++ le 4 32 ++ le 4 7512 ++
    le 2 1 ++ zeros 2 ++ le 64 (digestOf itemBytes0) ++ le 64 (digestOf dir0) ++ zeros 80

/-- An image with one common item and an empty section for serial number 0. -/
def img0 : ImageSlot := { data := hdr0 ++ zeros (2592 + 4632) ++ itemBytes0 ++ dir0 }

/-- The checks of an image, with what the signature check found. -/
def verifyWith (s : State) (o : OfficeId) (x : ImageSlot) (readFails : Bool) (key : Nat) : Nat :=
  let fu := s.svc.fuses
  let serial := s.serial o
  if readFails then 0xD
  else if x.hdr 0 4 = 0xFFFFFFFF then 0x1
  else if x.layoutOk = false then 0x2
  else if key ≠ 0 then 2 + key
  else if x.hdr 12 1 < fu.version then 0x6
  else if digestOf (x.part (x.hdr 32 4) (x.hdr 36 4)) ≠ x.hdr 48 64 then 0x7
  else if digestOf (x.part (x.hdr 40 4) (80 * x.hdr 44 2)) ≠ x.hdr 112 64 then 0x8
  else
    match x.directory.find? (·.1 = serial) with
    | none => 0x9
    | some e =>
      if digestOf (x.part e.2.1 e.2.2.1) ≠ e.2.2.2 then 0xA
      else
        match x.items serial with
        | none => 0xB
        | some its =>
          if its.all (fun it => it.wellFormed true false) = false then 0xB
          else if (s.blank o).validate o true its = .ok then 0
          else 0xC

theorem verifySlot_with (s : State) (o : OfficeId) (x : ImageSlot) (r : Bool) : s.verifySlot o x r = verifyWith s o x r
    (s.svc.fuses.signatureFault (x.hdr 13 1) (x.part 256 2592) (asciiBytes "UX1024-IMG") (x.part 0 256) (x.part 2848 4627)) := rfl

theorem img0_key : img0.part 256 2592 = zeros 2592 := by decide +kernel
theorem img0_slot : img0.hdr 13 1 = 0 := by decide +kernel
theorem img0_signature (hv : ∀ k c m g, Config.mldsaVerify k c m g = true) :
    signed0.svc.fuses.signatureFault (img0.hdr 13 1) (img0.part 256 2592) (asciiBytes "UX1024-IMG") (img0.part 0 256) (img0.part 2848 4627) = 0 := by
  rw [img0_slot, img0_key]
  exact keyed_signature _ _ rfl hv _ _ _

theorem img0_measurement : img0.meas = le 64 (sha3_512 (img0.part 0 256)).toNat := rfl

/-- The owner in Standby with its letterbox and registers set. -/
def boxed (f : Letterbox → Letterbox) (l : List (Fld × Nat × Nat)) : State := withRegs (ruledWith .standby fun d => { d with lb := f d.lb }) l
def job_ (w : JobWork) : Letterbox → Letterbox := fun b => { b with job := some { work := w } }
def upload0 : Upload := { slot := 1, len := 16, meas := 0 }

theorem witness_LetterboxAnswersRequests :
    (¬ ((State.reset.modOff .A fun d => { d with inReset := true }).off .A).inReset = false) ∧
    (((65537 : W32).toNat > 65536) ∧ ((65536 : W32).toNat ≤ 65536) ∧ (State.reset.off .A).inReset = false) ∧
    (takesRequests State.reset .A ∧ State.reset.mode .A = .loading ∧ takesRequests (boxed (job_ .confirm) []) .A ∧
      ((boxed (job_ .confirm) []).off .A).lb.job.isSome = true) ∧
    (let s := (ruled .streaming)
     lbFree s .A ∧ ¬ (s.mode .A = .standby ∨ s.mode .A = .held ∨ s.mode .A = .fallback) ∧ lbFree (ruled .dormant) .A ∧ ((ruled .dormant).mode .A).code < 4) := by
  unfold lbFree takesRequests; decide +kernel

theorem witness_LetterboxReads :
    (let s := boxed (fun b => { b with outcome := some (0, 0) }) []
     takesRequests s .A ∧ (s.off .A).lb.job = none ∧ (s.off .A).lb.outcome = some (0, 0) ∧ ((boxed id []).off .A).lb.outcome = none ∧ lbFree s .A) ∧
    (((0 : W16).toNat = 0) ∧ 255 < (256 : W16).toNat ∧ 0 < (255 : W16).toNat ∧ (255 : W16).toNat ≤ 255 ∧ 65512 < (65513 : W32).toNat ∧
      (65512 : W32).toNat ≤ 65512) ∧
    ((boxed id []).book .A).find? (fun e => decide (fieldAt e 4 4 = (0 : W32).toNat)) = none ∧
    (lbFree (boxed id []) .A ∧ ((boxed id []).amendFault .A []).1 ≠ 0) := by
  unfold lbFree takesRequests; decide +kernel

theorem witness_LetterboxUploads :
    (let s := boxed id [(F.SEC_STAT_RUN_SLOT, 0, 0)]
     lbFree s .A ∧ s.mode .A = .standby ∧ 1 < (2 : Byte).toNat ∧ (0 : Byte).toNat = s.rd .A F.SEC_STAT_RUN_SLOT ∧ (1 : Byte).toNat ≠ s.rd .A F.SEC_STAT_RUN_SLOT ∧
      (16 : W32).toNat ≤ 2 ^ 24 ∧ (16 : W32).toNat % 8 = 0 ∧ (s.off .A).lb.upload = none) ∧
    (let s := boxed (fun b => { b with upload := some upload0 }) [(F.SEC_STAT_NVM_WIN, 0, 1)]
     lbFree s .A ∧ (s.off .A).lb.upload = some upload0 ∧ (0 : W32).toNat = upload0.offset ∧ upload0.offset + (zeros 16).length ≤ upload0.len ∧
      s.flag .A F.SEC_STAT_NVM_WIN = true ∧ (boxed id []).flag .A F.SEC_STAT_NVM_WIN = false ∧ upload0.len < upload0.offset + (zeros 17).length) ∧
    (let s := boxed id [(F.SEC_STAT_NVM_WIN, 0, 1), (F.SEC_STAT_TRIAL, 0, 1)]
     lbFree s .A ∧ s.flag .A F.SEC_STAT_NVM_WIN = true ∧ s.bookRoom .A 1 0 = true ∧ 4 ≤ (s.mode .A).code ∧ s.rd .A F.SEC_STAT_TRIAL ≠ 0 ∧
      (boxed id []).rd .A F.SEC_STAT_TRIAL = 0 ∧ 1 < (2 : Byte).toNat ∧ (1 : Byte).toNat ≤ 1) := by
  unfold lbFree takesRequests; decide +kernel

/-- The accepted amendment meets the letterbox's hypotheses. -/
theorem witness_AmendStarts (hv : ∀ k c m g, Config.mldsaVerify k c m g = true) : lbFree signed0 .A ∧ (signed0.amendFault .A amend0).1 = 0 := by
  refine ⟨?_, by rw [witness_AmendAccepted hv]⟩
  unfold lbFree takesRequests
  exact ⟨⟨rfl, rfl⟩, rfl, by decide +kernel⟩

/-- An entry of a book that an earlier request recorded: BOOK_BODY finds it. -/
def entry0 : List Byte := le 2 0xB00C ++ zeros 38 ++ le 4 0xFFFFFFFF ++ zeros 212

theorem witness_BookBody :
    (let s := (withRegs (boxed id []) [(F.SEC_BOOK_USE_ENTRIES, 0, 1)]).modNvm .A fun v => { v with entries := [entry0] }
     lbFree s .A ∧ ((s.book .A).find? fun e => decide (fieldAt e 4 4 = (0 : W32).toNat)).isSome = true ∧ 0 + 0 ≤ ((s.off .A).entryBody entry0).length) := by
  unfold lbFree takesRequests; decide +kernel

def fuseItem : Item := { kind := 0x10, esize := 0, target := 1, count := 0, stride := 0, count2 := 0, stride2 := 0, data := zeros 64 }
def fuseBytes : List Byte := zeros 7384 ++ le 1 0x10 ++ zeros 3 ++ le 4 1 ++ zeros 16 ++ zeros 64

theorem fuseBytes_items : amendItems fuseBytes = some [fuseItem] := by decide +kernel

theorem witness_LetterboxJobsEnd :
    (let s := boxed (job_ (.uploadBegin 1 16 0)) []
     (s.off .A).inReset = false ∧ (s.off .A).lb.job = some { work := .uploadBegin 1 16 0 } ∧ s.flag .A F.SEC_STAT_NVM_WIN = false) ∧
    (let s := boxed (fun b => { b with job := some { work := .uploadEnd }, upload := some upload0 }) [(F.SEC_STAT_NVM_WIN, 0, 1)]
     (s.off .A).lb.job = some { work := .uploadEnd } ∧ (s.off .A).lb.upload = some upload0 ∧ s.verifySlot .A ((s.off .A).nvm.slot 1) false = 1) ∧
    (let s := boxed (job_ .confirm) [(F.SEC_STAT_NVM_WIN, 0, 1)]
     (s.off .A).lb.job = some { work := .confirm } ∧ s.flag .A F.SEC_STAT_NVM_WIN = true ∧ s.bookRoom .A 1 0 = true ∧
      s.rd .A F.SEC_BOOK_USE_ENTRIES ≤ (s.off .A).nvm.entries.length ∧
      (boxed (job_ .confirm) [(F.SEC_STAT_NVM_WIN, 0, 1), (F.SEC_BOOK_USE_ENTRIES, 0, 4096)]).bookRoom .A 1 0 = false) ∧
    (let s := (boxed (job_ (.amend amend0)) [(F.SEC_STAT_NVM_WIN, 0, 1)])
     s.owns .A = true ∧ s.bookRoom .A 1 amend0.length = true ∧ [item0].find? Item.isFuse = none ∧ [item0].all Item.isGap = true ∧ amendItems amend0 = some [item0] ∧
      s.itemAllowed .A (decide (fieldAt amend0 3 1 % 2 = 1)) item0 = true ∧ s.itemAllowed .A false { item0 with target := 0x0500000 } = true ∧
      (s.wr .A F.STO_CTL_ENABLE 1).itemAllowed .A false { item0 with target := 0x0500000 } = false ∧
      (State.reset.owns .A = false) ∧ s.flag .A F.SEC_STAT_NVM_WIN = true) ∧
    (let s := boxed (job_ (.amend fuseBytes)) [(F.SEC_STAT_NVM_WIN, 0, 1), (F.THM_NODE_VALID, 264, 1), (F.THM_NODE_T, 264, 2500), (F.PWR_STAT_VIN_MV, 0, 12000)]
     s.owns .A = true ∧ fuseItem.isFuse = true ∧ s.itemAllowed .A false fuseItem = true ∧ s.fuseForbidden .A fuseItem = false ∧ s.fuseOpen .A = true ∧ s.bookRoom .A 2 fuseBytes.length = true ∧
      (boxed id []).fuseOpen .A = false ∧
      (s.modSvc fun d => { d with fuses := { d.fuses with slots := { d.fuses.slots with t1 := { prog := true } } } }).fuseForbidden .A fuseItem = true) := by
  decide +kernel

/-- An upload of the good image, about to end. -/
def uploadedWith (x y : BitVec 512) : State :=
  withRegs ((keyed x).modOff .A fun d =>
    { d with nvm := { d.nvm with slot1 := img0 },
             lb := { d.lb with job := some { work := .uploadEnd }, upload := some { slot := 1, len := 7592, meas := y } } })
    [(F.SEC_STAT_NVM_WIN, 0, 1)]

theorem uploaded_checks : verifyWith (uploadedWith 0 0) .A img0 false 0 = 0 := by decide +kernel
theorem img0_checks : verifyWith signed0 .A img0 false 0 = 0 := by decide +kernel

theorem witness_ImageAccepted (hv : ∀ k c m g, Config.mldsaVerify k c m g = true) : signed0.verifySlot .A img0 false = 0 := by
  rw [verifySlot_with, img0_signature hv]
  exact img0_checks

theorem witness_UploadEnds (x y : BitVec 512) :
    ((uploadedWith x y).off .A).inReset = false ∧ ((uploadedWith x y).off .A).lb.job = some { work := .uploadEnd } ∧
    ((uploadedWith x y).off .A).lb.upload = some { slot := 1, len := 7592, meas := y } ∧ ((uploadedWith x y).off .A).nvm.slot 1 = img0 :=
  ⟨rfl, rfl, rfl, rfl⟩

theorem witness_UploadRoom : (uploadedWith 0 0).flag .A F.SEC_STAT_NVM_WIN = true ∧ (uploadedWith 0 0).bookRoom .A 1 0 = true := by decide +kernel

/-! ### Witnesses: the twin -/

/-- The owner in Standby, its image applied, with the office and registers set. -/
def twinned (f : Office → Office) (l : List (Fld × Nat × Nat)) : State :=
  withRegs (ruledWith .standby fun d => f { d with imageApplied := true }) l
/-- The relief in Standby. -/
def relieving (f : Office → Office) (l : List (Fld × Nat × Nat)) : State := twinned f ([(F.TWN_STAT_ROLE, 0, 1)] ++ l)
def twin (f : Twin → Twin) : Office → Office := fun d => { d with twin := f d.twin }

/-- A heartbeat word of office A with these flags heard by tile 0, and of office B. -/
def heardBy (v : Vote) (a b : Option (Nat × Byte)) : State :=
  let h := fun (x : Option (Nat × Byte)) => match x with
    | some p => ({ at_ := some p.1, flags := p.2, hround := 0 } : HeartbeatSeen)
    | none => {}
  tiledAt 100000 fun d => { d with vote := v, heard := ⟨h a, h b⟩ }

/-- Every tile votes for office `w`. -/
def allVote (w : W32) : Office → Office := fun d => { d with liveness := ⟨some (0, w), some (0, w), some (0, w), some (0, w)⟩ }

theorem witness_HeartbeatsAndVotes :
    State.reset.beats .A = false ∧ ((twinned id []).beats .A = true ∧ (twinned id []).inFallback .A = false) ∧ (ruled .fallback).inFallback .A = true ∧
    (let f := dl1 1 0 0x1F
     (State.reset.tile 0).inReset = false ∧ dlGood f = true ∧ dlType f.hdr = 1 ∧ f.words = [0x1F] ∧ (0x1F : W64).getLsbD 0 ≠ decide (OfficeId.A = .B) ∧
      (0x1F : W64).getLsbD 0 = decide (OfficeId.B = .B)) ∧ dlGood { dl1 1 0 0 with charErr := true } = false ∧
    (let s := heardBy .none (some (90000, 0x0E)) (some (90000, 0x07))
     ((s.tile 0).heard.get .A).live s.now = true ∧ ((s.tile 0).heard.get .A).flags.getLsbD 2 = true ∧ (s.tile 0).vote = .none ∧ s.now - 90000 < 45000) ∧
    (let s := heardBy (.office .A) (some (50000, 0x0E)) (some (90000, 0x07))
     ((s.tile 0).heard.get .A).live s.now = false ∧ ((s.tile 0).heard.get .B).live s.now = true ∧ 45000 ≤ s.now - 50000) ∧
    (let s := heardBy (.office .A) (some (90000, 0x2E)) (some (90000, 0x47))
     (s.tile 0).handsOver s.now s.svc.roundShift .A .B = true) ∧
    (let s := heardBy (.office .A) (some (90000, 0x0E)) (some (90000, 0x17))
     (s.tile 0).handsOver s.now s.svc.roundShift .A .B = false ∧ ((s.tile 0).heard.get .A).flags.getLsbD 4 = false ∧
      ((s.tile 0).heard.get .B).flags.getLsbD 4 = true ∧ (s.tile 0).handsOver s.now s.svc.roundShift .B .A = false) ∧
    (((State.reset.tile 0).dl.get .A).state = .training ∧
      (((tiled fun d => { d with dl := d.dl.set .A { state := .up } }).tile 0).dl.get .A).state ≠ .training) := by decide +kernel

theorem witness_Ownership :
    (let s := twinned (allVote 0) []
     let m := ((s.latchCauses).refreshVotes .A).refreshTwin .A
     s.beats .A = true ∧ m.owns .A = true ∧ m.mayOwn .A = true) ∧
    (let s := twinned id []
     let m := ((s.latchCauses).refreshVotes .A).refreshTwin .A
     s.beats .A = true ∧ m.owns .A = true ∧ m.mayOwn .A = false ∧ m.healthy .A = true ∧ m.handsOver .A = false) ∧
    (let s := twinned id [(F.TWN_HEALTH_SELFTEST, 0, 1)]
     let m := ((s.latchCauses).refreshVotes .A).refreshTwin .A
     m.owns .A = true ∧ m.mayOwn .A = false ∧ m.healthy .A = false) ∧
    (let s := twinned (twin fun x => { x with release := some { round := 0, started := 0, accepted := true } }) []
     let m := ((s.latchCauses).refreshVotes .A).refreshTwin .A
     m.owns .A = true ∧ m.mayOwn .A = false ∧ m.healthy .A = true ∧ m.handsOver .A = true) ∧
    (let s := relieving (allVote 0) []
     let m := ((s.latchCauses).refreshVotes .A).refreshTwin .A
     s.beats .A = true ∧ m.owns .A = false ∧ m.mayOwn .A = true) ∧
    (let s := { relieving (twin fun x => { x with appliedAt := some 0 }) [(F.TWN_CFG_SENIOR, 0, 1), (F.TWN_CFG_START_GRACE, 0, 0)] with now := 1 }
     s.beats .A = true ∧ s.isSenior .A = false ∧ 0 + s.rd .A F.TWN_CFG_START_GRACE * 150000000 ≤ s.now ∧ (s.off .A).twin.seniorElig = false) ∧
    (relieving id []).isSenior .A = true := by decide +kernel

/-- A link frame of a type with its CRC. -/
def lframe (type : Nat) (more : Bool) (ws : List W64) : LinkFrame :=
  let h := linkHeader type more ws.length
  { hdr := h, words := ws, crc := crc32c (le 4 h.toNat ++ leWords 8 (ws.map (·.toNat))), charErr := false }

theorem witness_LinkFrames :
    ((State.reset.modOff .A fun d => { d with inReset := true }).off .A).inReset = true ∧
    ((twinned id []).off .A).inReset = false ∧ linkGood { lframe 0 false [0] with charErr := true } = false ∧
    (linkGood (lframe 0 false [0]) = true ∧ linkType (lframe 0 false [0]) = 0) ∧
    (linkGood (lframe 2 false [0]) = true ∧ linkType (lframe 2 false [0]) = 2 ∧ linkGood (lframe 3 false [0]) = true ∧ linkType (lframe 3 false [0]) = 3) ∧
    (let s := twinned id []
     let w : W64 := 0x10011
     s.beats .A = true ∧ s.owns .A = true ∧ w.getLsbD 4 = true ∧ s.inHandover .A w = false ∧
      later (w.extractLsb' 16 16 : W16) (BitVec.ofNat 16 (s.rd .A F.TWN_TERM_TERM)) = true) ∧
    (let s := twinned id []
     s.linkFresh .A = false ∧ s.rd .A F.TWN_HEALTH_LINK = 0) ∧
    (let s := relieving (allVote 9) []
     s.role .A = .relief ∧ s.peerLiveAtTiles .A = true ∧ s.beats .A = true ∧ s.linkFresh .A = false ∧ s.rd .A F.TWN_HEALTH_LINK = 0) ∧
    (twinned (twin fun x => { x with hbAt := some 0 }) []).linkFresh .A = true := by decide +kernel

def pointerFrame (m : Nat) : LinkFrame := lframe 1 false [mirrorWord m 2, 0, 0, 0, 0, 0, 0, 0]

theorem witness_MirrorItems :
    (let s := relieving id []
     let f := pointerFrame 0
     (s.off .A).inReset = false ∧ linkGood f = true ∧ linkType f = 1 ∧ s.owns .A = false ∧ s.beats .A = true ∧ f.words.head? = some (mirrorWord 0 2) ∧
      bitsOf (mirrorWord 0 2).toNat 0 32 = (s.off .A).twin.rxNext ∧ linkMore f = false ∧ (s.off .A).twin.rxBroken = false ∧
      bitsOf (mirrorWord 0 2).toNat 32 8 = 2 ∧ (s.off .A).twin.missing = 0 ∧ (s.off .A).twin.rxWords = [] ∧ f.words.drop 1 = [0, 0, 0, 0, 0, 0, 0]) ∧
    (let s := relieving id []
     linkGood (pointerFrame 1) = true ∧ later (BitVec.ofNat 32 1) (BitVec.ofNat 32 (s.off .A).twin.rxNext) = true ∧ (s.off .A).twin.missing ≠ 15) ∧
    (let s := relieving (twin fun x => { x with rxNext := 5 }) []
     later (BitVec.ofNat 32 1) (BitVec.ofNat 32 (s.off .A).twin.rxNext) = false ∧ 1 ≠ (s.off .A).twin.rxNext ∧ linkMore (pointerFrame 1) = false) ∧
    (linkGood (lframe 1 true [mirrorWord 0 1, 7]) = true ∧ linkMore (lframe 1 true [mirrorWord 0 1, 7]) = true ∧
      bitsOf (mirrorWord 0 1).toNat 0 32 = ((relieving id []).off .A).twin.rxNext) ∧
    ((relieving (twin fun x => { x with rxBroken := true }) []).off .A).twin.rxBroken = true ∧
    (let i : MirrorItem := { mseq := 0, kind := 2, words := [0], sentAt := 0, firstAt := 0 }
     let s := { twinned (fun d => { d with unacked := [i] }) [] with now := 150000 }
     (s.off .A).inReset = false ∧ (s.off .A).unacked.head? = some i ∧ i.sentAt + 150000 ≤ s.now ∧ s.owns .A = true ∧ State.reset.now < i.sentAt + 150000) ∧
    (((twinned id []).book .A).filter fun e => later (BitVec.ofNat 32 (fieldAt e 4 4)) ((0 : W64).extractLsb' 0 32)).length < 2 ^ 31 := by decide +kernel

def released (r : Release) (n : Nat) (l : List (Fld × Nat × Nat)) : State :=
  twinned (fun d => { twin (fun x => { x with release := some r }) d with count := BitVec.ofNat 64 n }) l

theorem witness_Handovers :
    State.reset.takesWrites .A = false ∧
    (writable (twinned id []) .A F.TWN_CTL_HANDOVER.off (0x20000000 : W32).toNat ∧ (0x20000000 : W32).toNat / 2 ^ 29 = 1 ∧ (relieving id []).role .A = .relief ∧
      writable (relieving id []) .A F.TWN_CTL_HANDOVER.off (0x20000000 : W32).toNat ∧ (twinned id []).role .A ≠ .relief ∧
      writable (relieving id []) .A F.TWN_CTL_HANDOVER.off (0x80000000 : W32).toNat ∧ (0x80000000 : W32).toNat / 2 ^ 29 = 4) ∧
    (writable (twinned id []) .A F.TWN_CTL_HANDOVER.off (0x40000000 : W32).toNat ∧ (0x40000000 : W32).toNat / 2 ^ 29 = 2 ∧
      (twinned id []).healthWord .A / 2 % 8 = 0 ∧ (twinned id [(F.TWN_HEALTH_SELFTEST, 0, 1)]).healthWord .A / 2 % 8 ≠ 0) ∧
    (let s := twinned (twin fun x => { x with hbAt := some 0, hbWord := 4 }) []
     writable s .A F.TWN_CTL_HANDOVER.off (0x80000000 : W32).toNat ∧ s.owns .A = true ∧ (s.off .A).twin.release = none ∧ s.peerCanTake .A = true ∧
      (twinned id []).peerCanTake .A = false) ∧
    (let s := released { round := 1, started := 0 } 0 []
     (s.off .A).twin.release.isSome = true ∧ (s.off .A).twin.release = some { round := 1, started := 0 } ∧ s.handsOver .A = false ∧
      (s.off .A).count.toNat + 8192 < 1 * 2 ^ s.svc.roundShift) ∧
    (let s := twinned (twin fun x => { x with requestUntil := some 1 }) []
     (s.off .A).twin.requestUntil = some 1 ∧ s.now < 1 ∧ 1 ≤ ({ s with now := 1 } : State).now) ∧
    (writable ((twinned id []).wr .A F.TWN_STAT_ROLE 2) .A F.TWN_CTL_HANDOVER.off (0x80000000 : W32).toNat ∧
      ((twinned id []).wr .A F.TWN_STAT_ROLE 2).role .A = .neither) := by unfold writable; decide +kernel

theorem witness_HandoversEnd :
    (let s := { twinned (twin fun x => { x with hbAt := some 0, hbWord := 4, peerEligSince := some 0 })
                  [(F.TWN_CFG_AUTO_FAILBACK, 0, 1), (F.TWN_CFG_SENIOR, 0, 1), (F.TWN_CFG_FAILBACK_S, 0, 0)] with now := 1 }
     s.owns .A = true ∧ s.flag .A F.TWN_CFG_AUTO_FAILBACK = true ∧ s.isSenior .A = false ∧ s.peerCanTake .A = true ∧ (s.off .A).twin.release = none ∧
      (s.off .A).twin.peerEligSince = some 0 ∧ 0 + s.rd .A F.TWN_CFG_FAILBACK_S * 1500000000 ≤ s.now) ∧
    (let s := released { round := 1, started := 0 } 0x10000 []
     (s.off .A).twin.release = some { round := 1, started := 0 } ∧ 1 * 2 ^ s.svc.roundShift ≤ (s.off .A).count.toNat + 8192) ∧
    (let r : Release := { round := 1, started := 0, accepted := true }
     let s := released r 0x10000 []
     let m := s.settleHandover .A
     (s.off .A).twin.release = some r ∧ s.handsOver .A = true ∧ m.handsOver .A = true ∧ (m.mode .A).isData = false ∧ (m.off .A).unacked = [] ∧
      (s.off .A).count.toNat < r.round * 2 ^ s.svc.roundShift + s.rd .A F.TWN_CFG_HANDOVER_TMO * 15000000) ∧
    (let r : Release := { round := 1, started := 0, accepted := true }
     let i : MirrorItem := { mseq := 0, kind := 2, words := [0], sentAt := 0, firstAt := 0 }
     let s := (released r 0x10000 []).modOff .A fun d => { d with unacked := [i] }
     s.handsOver .A = true ∧ ((s.settleHandover .A).off .A).unacked.head? = some i ∧ i.kind = 2) ∧
    (let r : Release := { round := 1, started := 0, accepted := true }
     let s := released r 0x100000000 []
     s.handsOver .A = true ∧ r.round * 2 ^ s.svc.roundShift + s.rd .A F.TWN_CFG_HANDOVER_TMO * 15000000 ≤ (s.off .A).count.toNat) ∧
    ((relieving id []).beats .A = true ∧ (relieving id []).owns .A = false) := by decide +kernel

/-! ### Witnesses: the bias loops -/

/-- The owner in Standby with loop 0 and registers set, at a sample period. -/
def looping (n : Nat) (f : BiasLoop → BiasLoop) (l : List (Fld × Nat × Nat)) : State :=
  withRegs (((ruled .standby).modLoop 0 f).modSvc fun d => { d with count := BitVec.ofNat 64 n }) l
def request (v : Nat) : BiasLoop → BiasLoop := fun l => { l with writes := [{ kind := 0, value := v, at_ := 0 }] }
def sample0 : LoopSample := { mon := 100, monValid := true, elecMv := 0, elecOver := false, fltLow := false }

theorem witness_BiasLoopsRun :
    State.reset.takesWrites .A = false ∧
    (writable (looping 0 id []) .A (F.LOOP_CMD_GO.addr 0 0) (0x80000001 : W32).toNat ∧ (looping 0 id []).loopSender .A = true ∧
      writable (looping 0 id []) .A (F.LOOP_SETPOINT_MV.addr 0 0) (1000 : W32).toNat ∧ writable (looping 0 id []) .A (F.LOOP_MAN_V_MV.addr 1 0) (1000 : W32).toNat) ∧
    (let s := (released { round := 1, started := 0, accepted := true } 0x10000 []).wr .B F.TWN_STAT_ROLE 0
     s.takesWrites .A = true ∧ s.owns .A = true ∧ s.loopSender .A = false) ∧
    ((looping 1 id []).svc.count.toNat % 30000 ≠ 0 ∧ State.reset.svc.inReset = false ∧ (looping 30000 id []).svc.count.toNat % 30000 = 0) ∧
    ((looping 30000 id []).loopState 0 = 0 ∧ ((looping 30000 id []).loop 0).writes.isEmpty = true) ∧
    (let s := looping 30000 id [(F.LOOP_STAT_STATE, 0, 1)]
     s.loopState 0 = 1 ∧ s.srd F.LOOP_STAT_STOPPING 0 = 0 ∧ (s.loop 0).trip = false) ∧
    (let s := looping 30000 (fun l => { l with stale := 5 }) [(F.LOOP_STAT_STATE, 0, 2), (F.LOOP_CHECK_STALE_N, 0, 3)]
     s.loopState 0 = 2 ∧ s.srd F.LOOP_STAT_STOPPING 0 = 0 ∧ s.srd F.LOOP_CHECK_STALE_N 0 ≤ (s.loop 0).stale + 1 ∧
      ({ sample0 with monValid := false } : LoopSample).monValid = false) ∧
    (let s := { looping 30000 (request 0x80000001) [] with now := 1500 }
     (s.loop 0).writes = [{ kind := 0, value := 0x80000001, at_ := 0 }] ∧ 0 + 1500 ≤ s.now ∧ s.loopState 0 = 0 ∧ 0x80000001 / 2 ^ 31 = 1 ∧ 0x80000001 % 4 = 1 ∧
      s.srd F.LOOP_STAT_LOCK 0 = 0 ∧ 0x80000002 % 4 = 2 ∧ (s.loop 0).cfgBusy = false ∧ sample0.fltLow = false ∧
      (s.loop 0).stale < (looping 0 id [(F.LOOP_CHECK_STALE_N, 0, 3)]).srd F.LOOP_CHECK_STALE_N 0 ∧
      (s.loop 0).frozen < (looping 0 id [(F.LOOP_CHECK_FROZEN_N, 0, 3)]).srd F.LOOP_CHECK_FROZEN_N 0 ∧ 0x80000000 % 4 = 0 ∧ 0x40000000 / 2 ^ 30 = 1) := by
  unfold writable; decide +kernel

theorem witness_ElectrometerGates :
    (let s := looping 0 (fun l => { l with yNum := 0 }) [(F.BIAS_ECFG_GATE, 0, 1)]
     s.svc.inReset = false ∧ ¬ s.srd F.BIAS_ECFG_GATE 0 ≤ (s.loop 0).yNum) ∧
    (let s := looping 0 (fun l => { l with yNum := 4, dSum := 400, dNum := 4 }) [(F.BIAS_ECFG_GATE, 0, 4), (F.BIAS_ITRIP_ITRIP, 0, 1)]
     s.srd F.BIAS_ECFG_GATE 0 ≤ (s.loop 0).yNum ∧ (s.loop 0).discard = false ∧ (s.loop 0).overrun = false ∧ (s.loop 0).dNum ≠ 0 ∧
      s.srd F.BIAS_ITRIP_ITRIP 0 ≠ 0 ∧ (1 : Int) < roundDiv (50 * 10 * 400) 4 ∧ s.srd F.BIAS_ESTAT_RANGE_ACT 0 = 0 ∧ s.owner = some .A) ∧
    ((looping 0 (fun l => { l with discard := true }) []).loop 0).discard = true ∧ (looping 0 id [(F.BIAS_ECFG_FIX, 0, 1)]).srd F.BIAS_ECFG_FIX 0 ≠ 0 ∧
    (let s := { looping 0 (fun l => { l with zeroSince := some 0 }) [(F.LOOP_STAT_STATE, 0, 1), (F.LOOP_STAT_STOPPING, 0, 1)] with now := 1500000000 }
     s.srd F.LOOP_STAT_STOPPING 0 ≠ 0 ∧ s.loopState 0 = 1 ∧ (s.loop 0).zeroSince = some 0 ∧ 0 + 1500000000 ≤ s.now) ∧
    State.reset.srd F.LOOP_STAT_STOPPING 0 = 0 := by decide +kernel

/-! ### Witnesses: the environment, the auxiliary inputs, the status loop -/

/-- The owner in Standby with the scan and registers set, at a count. -/
def scanning (n : Nat) (f : EnvScan → EnvScan) (l : List (Fld × Nat × Nat)) : State :=
  withRegs ((ruled .standby).modSvc fun d => { d with count := BitVec.ofNat 64 n, env := f d.env }) l

theorem witness_Housekeeping :
    ((scanning 1 id []).svc.count.toNat % 15360 ≠ 0) ∧
    (let s := scanning 15360 id []
     s.svc.inReset = false ∧ s.svc.count.toNat % 15360 = 0 ∧ s.cycleDone = false ∧ s.svc.env.chan < 32 ∧ s.svc.env.skip ≠ 0 ∧ 12 ≤ s.svc.env.chan) ∧
    (let s := scanning 15360 (fun e => { e with skip := 0 }) []
     s.svc.env.skip = 0 ∧ 12 ≤ s.svc.env.chan ∧ s.svc.env.num + 1 < 16 ∧ s.cycleDone = false) ∧
    (let s := scanning 15360 (fun e => { e with skip := 0, num := 15 }) []
     s.svc.env.skip = 0 ∧ s.svc.env.chan = 12 ∧ 16 ≤ s.svc.env.num + 1 ∧ s.cycleDone = false) ∧
    (let s := scanning 15360 (fun e => { e with chan := 0, skip := 0 }) [(F.ENV_CFG_F_LOG2, 0, 2)]
     s.svc.env.chan < 12 ∧ s.svc.env.reverse = false ∧ s.svc.env.num + 1 < 2 ^ s.srd F.ENV_CFG_F_LOG2 ∧ s.cycleDone = false) ∧
    (let s := scanning 15360 (fun e => { e with chan := 0, skip := 0, num := 3 }) [(F.ENV_CFG_F_LOG2, 0, 2)]
     s.svc.env.reverse = false ∧ 2 ^ s.srd F.ENV_CFG_F_LOG2 ≤ s.svc.env.num + 1 ∧ s.cycleDone = false) ∧
    (let s := scanning 15360 (fun e => { e with chan := 0, reverse := true, num := 4 }) [(F.ENV_CFG_F_LOG2, 0, 2), (F.ENV_HK_STAT_REF_OK, 0, 1), (F.ENV_HK_STAT_GND_OK, 0, 1)]
     s.svc.inReset = false ∧ s.cycleDone = true ∧ s.srd F.ENV_HK_STAT_REF_OK = 1 ∧ s.srd F.ENV_HK_STAT_GND_OK = 1) ∧
    (let s := scanning 0 (fun e => { e with chan := 32 }) []
     s.svc.inReset = false ∧ 32 ≤ s.svc.env.chan ∧ (scanning 0 id []).svc.env.chan < 32) ∧
    (let s := scanning 0 (fun e => { e with chan := 0, skip := 0 }) []
     writable s .A F.ENV_CTL_SWAP.off (0x80000000 : W32).toNat ∧ (0x80000000 : W32).getLsbD 31 = true ∧ s.svc.env.chan < 12 ∧ s.cycleDone = false ∧
      s.svc.env.skip < 1 + s.srd F.ENV_CFG_N_SETTLE ∧ s.svc.env.restarts < 2 ∧ ¬ (scanning 0 id []).svc.env.chan < 12 ∧
      2 ≤ (scanning 0 (fun e => { e with chan := 0, restarts := 2 }) []).svc.env.restarts) := by unfold writable; decide +kernel

/-- The owner in Standby with its auxiliary inputs, its count and registers set. -/
def auxed (n : Nat) (f : Aux → Aux) (l : List (Fld × Nat × Nat)) : State :=
  withRegs (ruledWith .standby fun d => { d with count := BitVec.ofNat 64 n, aux := f d.aux }) l

theorem witness_AuxEdges :
    State.reset.rd .A F.AUX_CFG_EN 0 = 0 ∧
    (let s := auxed 0 id [(F.AUX_CFG_EN, 0, 1)]
     (s.off .A).inReset = false ∧ s.rd .A F.AUX_CFG_EN 0 ≠ 0 ∧ s.rd .A F.AUX_CFG_SLOPE 0 = b2n false ∧ Sparse.get 0 (s.off .A).aux.last 0 = 0) ∧
    (let s := auxed 0 (fun a => { a with last := [(0, 1)] }) [(F.AUX_CFG_EN, 0, 1), (F.AUX_DEAD_DEAD, 0, 100)]
     Sparse.get 0 (s.off .A).aux.last 0 = 0 + 1 ∧ (50 : W64).toNat < 0 + s.rd .A F.AUX_DEAD_DEAD 0 ∧ 0 + s.rd .A F.AUX_DEAD_DEAD 0 ≤ (100 : W64).toNat) ∧
    (let y : AuxStamp := { raw := 0, t := 0, tick := 0 }
     let s := auxed 100 (fun a => { a with ivlStart := some y }) [(F.AUX_IVL_MAX_MAX, 0, 50)]
     (s.off .A).aux.ivlWait.isEmpty = true ∧ s.rd .A F.AUX_IVL_MAX_MAX ≠ 0 ∧ (s.off .A).aux.ivlStart = some y ∧ y.tick + s.rd .A F.AUX_IVL_MAX_MAX < (s.off .A).count.toNat) ∧
    (State.reset.off .A).aux.ivlStart = none ∧ (State.reset.off .A).aux.ivlWait.isEmpty = true ∧
    (let s := auxed 0 (fun a => { a with fifo := [(5, false)] }) []
     (s.off .A).inReset = false ∧ (s.off .A).d3hot = false ∧ s.answersRead .A 0x0A05208 = true ∧ (s.off .A).aux.ivlWait.isEmpty = true) := by decide +kernel

theorem witness_FrequencyMeters :
    (let s := { auxed 0 id [(F.AUX_F_CFG_FUPD, 0, 10)] with now := 15000000 }
     (s.off .A).inReset = false ∧ (s.off .A).aux.updAt.a + s.rd .A F.AUX_F_CFG_FUPD 0 * 1500000 ≤ s.now ∧ s.rd .A F.AUX_CFG_EN 0 = 0 ∧
      ¬ (s.off .A).aux.updAt.a + s.rd .A F.AUX_F_CFG_FUPD 0 * 1500000 ≤ State.reset.now) ∧
    (let s := auxed 300 (fun a => { a with edges := ⟨[(200, 200 * 8192), (100, 100 * 8192), (0, 0)], []⟩ }) [(F.AUX_CFG_EN, 0, 1), (F.AUX_F_CFG_FGATE, 0, 10)]
     let ts := ((s.off .A).aux.edges.a.filter fun y => decide (300 ≤ y.1 + s.rd .A F.AUX_F_CFG_FGATE 0 * 1500000)).map (·.2) |>.reverse
     s.rd .A F.AUX_CFG_EN 0 ≠ 0 ∧ ts.length = 3 ∧ (meterResult (s.rd .A F.AUX_F_CFG_F_JIT 0) (300 * 8192) ts).isLeft = true) ∧
    ((auxed 0 id []).owns .A = true ∧ (auxed 0 id []).svc.inReset = false ∧ State.reset.owns .A = false ∧
      (auxed 0 id []).srd F.LOOP_REP_CFG_SRC 0 = b2n false ∧ (auxed 0 id [(F.AUX_F_STAT_VALID, 0, 1)]).rd .A F.AUX_F_STAT_VALID 0 ≠ 0 ∧
      (auxed 0 id [(F.LOOP_REP_CFG_SRC, 0, 1)]).srd F.LOOP_REP_CFG_SRC 0 ≠ b2n false) := by decide +kernel

/-- The owner in Standby with its status loop and registers set. -/
def sounding (f : StatusLoop → StatusLoop) (l : List (Fld × Nat × Nat)) : State :=
  withRegs ((ruled .standby).modSl fun x => f { x with configured := true }) l

theorem witness_StatusLoop :
    State.reset.svc.inReset = false ∧ State.reset.svc.sl.configured = false ∧
    (let s := sounding id [(F.SL_MASK_MASK, 0, 0)]
     let m := s.endForce
     s.svc.sl.configured = true ∧ s.moduleMode ≠ .dormant ∧ s.moduleMode ≠ .fallback ∧ (m.faultLevel (m.causesNow ||| s.svc.sl.latched)).1 = false ∧
      m.srd F.SL_FORCE_EN ≠ 1 ∧ s.srd F.SL_CFG_SRC = 0) ∧
    (let s := sounding (fun x => { x with latched := 1 }) [(F.SL_MASK_MASK, 0, 1)]
     let m := s.endForce
     s.svc.sl.configured = true ∧ (m.faultLevel (m.causesNow ||| s.svc.sl.latched)).1 = true) ∧
    (let s := sounding (fun x => { x with forceUntil := some 10 }) [(F.SL_MASK_MASK, 0, 0), (F.SL_FORCE_EN, 0, 1)]
     let m := s.endForce
     s.svc.sl.configured = true ∧ (m.faultLevel (m.causesNow ||| s.svc.sl.latched)).1 = false ∧ m.srd F.SL_FORCE_EN = 1 ∧ s.svc.sl.forceUntil = some 10 ∧
      s.now < 10 ∧ 10 ≤ ({ s with now := 10 } : State).now) ∧
    (let s := sounding id []
     writable s .A F.SL_FORCE_EN.off (0x80000DAC : W32).toNat ∧ s.forceAllowed = true ∧ 3500 ≤ (0x80000DAC : W32).toNat % 2 ^ 15 ∧
      (0x80000DAC : W32).toNat % 2 ^ 15 ≤ 21500 ∧ (0x80000DAB : W32).toNat % 2 ^ 15 < 3500 ∧ s.takesWrites .A = true ∧ s.owns .A = true) ∧
    ((ruled .streaming).takesWrites .A = true ∧ (ruled .streaming).owns .A = true ∧ (ruled .streaming).forceAllowed = false) ∧
    State.reset.takesWrites .A = false := by unfold writable; decide +kernel

/-! ### Witnesses: steps, wrapping fields -/

/-- The premises of the whole-machine statements hold of reset: its queue is empty, and its fuses hold what they hold. -/
theorem witness_Steps : State.reset.pending.isEmpty = true ∧ State.reset.svc.inReset = false := by decide +kernel

theorem witness_StepsKeepProgrammedFuses : fusesWithin State.reset.svc.fuses State.reset.svc.fuses ∧
    ∃ t, step State.reset = .next t := ⟨⟨by simp, fun k => ⟨by simp, id, id⟩⟩, _, rfl⟩

theorem witness_LaterModuloTheField : later (3#8) (250#8) = true ∧ later (250#8) (3#8) = false ∧ later (128#8) (0#8) = false ∧
    later (127#8) (0#8) = true ∧ later (5#8) (5#8) = false := by decide

/-! ### Single commands -/

/-- SHA3-512 of no bytes and of "abc": the first byte and the last of the published digests. -/
theorem test_sha3_empty : (sha3_512 []).toNat % 256 = 0xA6 ∧ (sha3_512 []).toNat / 2 ^ 504 = 0x26 := by decide +kernel

theorem test_sha3_abc : (sha3_512 (asciiBytes "abc")).toNat % 65536 = 0x51B7 ∧ (sha3_512 (asciiBytes "abc")).toNat / 2 ^ 504 = 0xF0 := by decide +kernel

/-- CRC-32C of "123456789" (the check value of its polynomial). -/
theorem test_crc32c : (crc32c (asciiBytes "123456789")).toNat = 0xE3069283 := by decide +kernel

theorem witness_CorrectedAuxStamp :
    (let s := auxed 0 (fun a => { a with last := [(0, 1)] }) [(F.AUX_CFG_EN, 0, 1), (F.AUX_DEAD_DEAD, 0, 100), (F.AUX_DLY_DLY, 0, 0xFFFFFFFF)]
     (s.off .A).inReset = false ∧ s.rd .A F.AUX_CFG_EN 0 ≠ 0 ∧ s.rd .A F.AUX_CFG_SLOPE 0 = b2n false ∧
      Sparse.get 0 (s.off .A).aux.last 0 = 0 + 1 ∧ 0 + s.rd .A F.AUX_DEAD_DEAD 0 ≤ (100 : W64).toNat) := by decide +kernel

/-! ### Well-formed commands: each check refuses a term, and its boundary is well formed -/

theorem test_wf_refuses_1 : ([.registerWrite .A 1 0,
    .lowRegisterRead .A 1,
    .highRegisterWrite .A 1 0,
    .highRegisterWrite .A 0 0,
    .writeCellWord 0 0x1,
    .writeClusterWord 0 0x0,
    .readCellWord 0 0x3,
    .readClusterWord 0 0x2,
    .retrain .A 0x0,
    .residueErrorInject .A 0x0,
    .codeDensityStart .A 0x0,
    .contextClearStart .A 0x0,
    .storeEnable .A 0x0,
    .storeDisable .A 0x80000000,
    .reattach .A 0x0,
    .pin .A 0x0,
    .pin .A 0x90000000,
    .unpin .A 0x10000000,
    .unpin .A 0x80000000,
    .unpinAll .A 0x20000000,
    .unpinAll .A 0xb0000000,
    .indexRepair .A 0x0,
    .strobe .A 0 0x0,
    .collectionOrderSubmit .A 0x0] : List Instr).all (fun c => !c.wf) = true := by decide +kernel

theorem test_wf_refuses_2 : ([.tbStart .A 0x0,
    .retrainE .A 0x0,
    .retrainW .A 0x0,
    .smRequestSnapshot .A 0x2,
    .smRequestSnapshot .A 0x80000003,
    .smRequestReset .A 0x3,
    .smRequestReset .A 0x80000002,
    .smRequestFlash .A 0x4,
    .smRequestFlash .A 0x80000005,
    .smRequestMode .A 0x5,
    .smRequestMode .A 0x80000004,
    .barrierStart .A 0x0,
    .pigeonholeEnable .A 0 0x0,
    .pigeonholeDisable .A 0 0x80000000,
    .resume .A 0 0x0,
    .flush .A 0 0x0,
    .letterboxOversize .A 65536,
    .resync .A 0x0,
    .handover .A 0x0,
    .clearHealth .A 0x0,
    .loopRequestOff .A 0 0x0,
    .loopRequestOff .A 0 0x80000001,
    .loopRequestManual .A 0 0x1,
    .loopRequestManual .A 0 0x80000000] : List Instr).all (fun c => !c.wf) = true := by decide +kernel

theorem test_wf_refuses_3 : ([.loopRequestAuto .A 0 0x2,
    .loopRequestAuto .A 0 0x80000003,
    .ack .A 0 0x0,
    .swap .A 0x0,
    .go .A 0x0,
    .bufferSwap .A 0x0,
    .rowClr .A 0x0,
    .flashReportRx .A { f0 := 0, seq := 0, num := 0, slots := List.replicate 17 { row := 0, start := 0, code := 0, cols := 0 }, cut := false, suppressed := false },
    .start .A 0x0,
    .stop .A 0x0,
    .apply .A 0x0,
    .discard .A 0x0,
    .officeOnA .A 0x0,
    .officeOnB .A 0x0,
    .thermalModelUpdate .A [],
    .thermalAck .A 0x0,
    .readmit .A 0x0,
    .modeRequest .A 0x0,
    .calibrationSequenceGo .A 0x0,
    .refresh .A 0x0,
    .refresh .A 0x90000000,
    .retire .A 0x10000000,
    .retire .A 0x80000000,
    .cbtData .A 0x0] : List Instr).all (fun c => !c.wf) = true := by decide +kernel

theorem test_wf_refuses_4 : ([.cbtData .A 0x50000000,
    .cbtCheck .A 0x10000000,
    .cbtCheck .A 0x40000000,
    .cbtRead .A 0x20000000,
    .cbtRead .A 0x70000000,
    .arrayHostRead .A 1] : List Instr).all (fun c => !c.wf) = true := by decide +kernel

theorem test_wf_accepts_1 : ([.registerWrite .A 4 0,
    .lowRegisterRead .A 4,
    .highRegisterWrite .A 4 0,
    .writeCellWord 0 0x0,
    .writeClusterWord 0 0x1,
    .readCellWord 0 0x2,
    .readClusterWord 0 0x3,
    .retrain .A 0x80000000,
    .residueErrorInject .A 0x100,
    .codeDensityStart .A 0x80000000,
    .contextClearStart .A 0x80000000,
    .storeEnable .A 0x80000000,
    .storeDisable .A 0x0,
    .reattach .A 0x20000000,
    .pin .A 0x80000000,
    .unpin .A 0x90000000,
    .unpinAll .A 0xa0000000,
    .indexRepair .A 0x80000000,
    .strobe .A 0 0x40000000,
    .collectionOrderSubmit .A 0x80000000,
    .tbStart .A 0x80000000,
    .retrainE .A 0x80000000,
    .retrainW .A 0x40000000,
    .smRequestSnapshot .A 0x80000002] : List Instr).all (fun c => c.wf) = true := by decide +kernel

theorem test_wf_accepts_2 : ([.smRequestReset .A 0x80000003,
    .smRequestFlash .A 0x80000004,
    .smRequestMode .A 0x80000005,
    .barrierStart .A 0x80000000,
    .pigeonholeEnable .A 0 0x80000000,
    .pigeonholeDisable .A 0 0x0,
    .resume .A 0 0x1,
    .flush .A 0 0x2,
    .letterboxOversize .A 65537,
    .resync .A 0x20000000,
    .handover .A 0x80000000,
    .clearHealth .A 0x40000000,
    .loopRequestOff .A 0 0x80000000,
    .loopRequestManual .A 0 0x80000001,
    .loopRequestAuto .A 0 0x80000002,
    .ack .A 0 0x40000000,
    .swap .A 0x80000000,
    .go .A 0x80000000,
    .bufferSwap .A 0x40000000,
    .rowClr .A 0x20000000,
    .flashReportRx .A { f0 := 0, seq := 0, num := 0, slots := List.replicate 16 { row := 0, start := 0, code := 0, cols := 0 }, cut := false, suppressed := false },
    .start .A 0x80000000,
    .stop .A 0x40000000,
    .apply .A 0x20000000] : List Instr).all (fun c => c.wf) = true := by decide +kernel

theorem test_wf_accepts_3 : ([.discard .A 0x10000000,
    .officeOnA .A 0x80000000,
    .officeOnB .A 0x40000000,
    .thermalModelUpdate .A (List.replicate 42 0),
    .thermalAck .A 0x80000000,
    .readmit .A 0x40000000,
    .modeRequest .A 0x80000000,
    .calibrationSequenceGo .A 0x80000000,
    .refresh .A 0x80000000,
    .retire .A 0x90000000,
    .cbtData .A 0x40000000,
    .cbtCheck .A 0x50000000,
    .cbtRead .A 0x60000000,
    .arrayHostRead .A 4] : List Instr).all (fun c => c.wf) = true := by decide +kernel


/-! ### The manual's worked examples -/

/-- The Keld letter (02): module 17, tile T2, district 37, row 12, column 40. -/
def keld : BitVec 80 := packLetter 0xA5328 0x6789 81 6949 1984 0 0

/-- The example of 02: the letter's ten bytes. -/
theorem test_letter_bytes : le 10 keld.toNat = [0x28, 0x53, 0x9A, 0x78, 0x16, 0x2D, 0xD9, 0x00, 0x7C, 0x00] := by decide +kernel

/-- The example of 04: the header of its data frame. -/
theorem test_frame_header : frameHeader 0 0x12345 37 3 24 = 0x03459478 := by decide +kernel

/-- The tables of the example of 03: D[10], D[11] of interpolator 84,597, T[27], T[28] of the walk table of district byte 165. -/
def keldTables : Office :=
  { State.reset.off .A with
    arr := ([(arrKey 1 (entryWord 16 84597 10), makeEntry (-37) * 2 ^ 32 + makeEntry (-21) * 2 ^ 48),
             (arrKey 2 (entryWord 64 165 27), makeEntry 420 * 2 ^ 48), (arrKey 2 (entryWord 64 165 28), makeEntry 404)] : List (Nat × Nat)) }

theorem test_entry_of_minus_37 : makeEntry (-37) = 0xFEDD := by decide +kernel

/-- The example of 03: the corrected time. -/
theorem test_correction : (CorrIn.mk 26505 keld 84597 165 5120 false 0).compute keldTables none = .time 217125678 := by decide +kernel

/-- The state of the example of 06 before the letter. -/
def keldCoder : CodeState := { h := { ma0 := 30400, mt := [(15, 110880)] }, x := 807, f := 0, times := [(807, 3392718)] }

/-- The example of 06: the letter's tokens, and the means after it. -/
theorem test_coding : (letterTokens 16 keldCoder keld).1 =
    [.sym 0 1, .sym 4 0, .sym 1 4, .raw 3 0, .sym 3 8, .raw 7 40, .sym 2 6, .raw 5 6] ∧
    (letterTokens 16 keldCoder keld).2.h.ma0 = 30484 ∧ (letterTokens 16 keldCoder keld).2.h.mtAt 15 = 110899 := by decide +kernel

/-- The example of 09: the postmark of round 74,565. -/
theorem test_postmark : (({} : Postmark).advance (4886691840 * nominalInc)).sec = 3 ∧
    (({} : Postmark).advance (4886691840 * nominalInc)).ns = 257794560 ∧ (({} : Postmark).advance (4886691840 * nominalInc)).frac = 0x61170000 := by
  decide +kernel

/-- The example of 05: the route of round 74,565 of district byte 0xA5. -/
theorem test_route :
    (let s := ((withRegs (ruled .streaming) [(F.SORT_RT_CTL_SLICE_SHIFT, 0, 4), (F.SORT_RT_CTL_SLICE_M1, 0, 11)]).modOff .A fun d =>
       { d with modeFrom := [(0, .streaming)], arr := match arrayAt 0x0311008 with
                  | some p => [(arrKey p.1 p.2, 0x8014)]
                  | none => [] })
     (s.off .A).modeOf 74565 = .streaming ∧ (s.routeOf .A 74565 0xA5).1 = some { ph := 20, timed := false, dlo := false }) := by decide +kernel

/-- The example of 16: the delay of a path, and the residual of a letter. -/
def keldPath : PathSlot := { modid := 0, emitter := 10 * 16 + 5, en := true, d0 := 14400, gr := 0, gc := 0, k := 40 }

theorem test_path_delay : keldPath.delay 12 40 = 14417 := by decide +kernel

theorem test_residual :
    (let s := ruled .standby
     let r : FlashReport := { f0 := 0, seq := 5, num := 0, slots := [{ row := 10, start := 118, code := 95, cols := 0xFFFF }], cut := false, suppressed := false }
     s.residual .A r keldPath 0 12 40 1082160) = some 21 := by decide +kernel

/-- The example of 15: a point's resistance, offset and temperature. -/
theorem test_environment_point :
    (let s := scanning 0 (fun e => { e with chan := 3, reverse := true, fwd := 59002, sum := -58963 })
       [(F.ENV_CFG_F_LOG2, 0, 6), (F.ENV_PT_CFG_R0, 3, 10000)]
     let s := (s.wr .A F.ENV_TAB_TEMP_T (ofInt 32 (-3000)) 0 0).wr .A F.ENV_TAB_TEMP_T (ofInt 32 (-1000)) 0 1
     let s := ((s.wr .A F.ENV_TAB_RATIO_RATIO 14801144 0 0).wr .A F.ENV_TAB_RATIO_RATIO 16120539 0 1).wr .A F.ENV_TAB_RATIO_RATIO 33554432 0 31
     let u := s.pointResult 3
     (toInt 32 (u.srd F.ENV_PT_RES_R 3), toInt 16 (u.srd F.ENV_PT_OFS_OFS 3), toInt 16 (u.srd F.ENV_PT_TEMP_T 3))) = (921602, 305, -1998) := by decide +kernel

/-- The example of 15: the current of the status loop. -/
theorem test_status_loop_current :
    (withRegs (ruled .standby) [(F.SL_CFG_SRC, 0, 4), (F.SL_LO_LO, 0, ofInt 32 (-4000)), (F.SL_HI_HI, 0, 6000), (F.ENV_PT_TEMP_T, 3, ofInt 16 (-1998))]).slValue =
      7203 := by decide +kernel

/-- The example of 15: `DPHI` of a frequency. -/
theorem test_dphi : ((ruled .standby).newFrequency 0 (some 12498297)).srd F.LOOP_REP_DPHI_DPHI 0 = 1073596 := by decide +kernel

/-- The example of 14: the code of 600 V, and what the monitor reads. -/
theorem test_bias_code :
    (let s := withRegs (ruled .standby) [(F.LOOP_SCALE_REG_GAIN, 0, 51200), (F.LOOP_SCALE_MON_GAIN, 0, 51200)]
     (s.rawCode 0 (600 * 2 ^ 20), s.biasOfMon 0 48000)) = (48000, 600 * 2 ^ 20) := by decide +kernel

/-- The example of 04: a write of every fourth row of every district occupies the write engine for 1,024 ticks (`DMASK` 0, `RMASK` 3,
`RVAL` 1, `CMASK` 0). -/
theorem test_write_engine_ticks :
    (let c : W64 := BitVec.ofNat 64 (3 * 2 ^ 24 + 1 * 2 ^ 30)
     (cmdTicks c, (cmdRows c 64).take 3, cmdRefused c)) = (1024, [1, 5, 9], false) := by decide +kernel

/-- Four cells of cluster 0 enabled, its DLL locked. -/
def corner : State := tiledAt 10 fun d =>
  { d with cellCfg := [(65, 0xA0), (66, 0xA0), (129, 0xA0), (130, 0xA0)], clusterCfg := [(0, 0x8004)], clusters := [(0, { dll := .locked 0 })] }

/-- Commands one after the other. -/
def inTurn (s : State) : List Instr → State
  | [] => s
  | c :: cs => match exec c s with
    | .next t => inTurn t cs
    | _ => s

/-- What a pulse of tile 0 got: coarse-only, interpolator, fine code. -/
def stampOf (s : State) (c : Nat) : Option (Bool × Bool × BitVec 7) :=
  match ((s.tile 0).cell c).phase with
  | .pulse p => some (p.coarseOnly, p.ip, p.fine)
  | _ => none

/-- Source: 03, the example after R97. Whatever the order of the first three edges, cells 5 and 6 are timed. -/
theorem test_arbiter :
    (let s := inTurn corner [.leadingEdge 0 129 2, .leadingEdge 0 66 1, .leadingEdge 0 65 0, .leadingEdge 0 130 30]
     [65, 66, 129, 130].map (stampOf s) =
       [some (false, false, 0), some (false, true, 1), some (true, false, 0), some (true, false, 0)]) ∧
    (let s := inTurn corner [.leadingEdge 0 65 0, .leadingEdge 0 66 1, .leadingEdge 0 129 2, .leadingEdge 0 130 30]
     [65, 66, 129, 130].map (stampOf s) =
       [some (false, false, 0), some (false, true, 1), some (true, false, 0), some (true, false, 0)] ∧
      regGet (s.tile 0).cnt F.SORT_TE_CNT_COLEAD_COUNT 0 0 = 2) := by
  decide +kernel

/-- Source: R46, R47. Of three requests of one tick the lowest cell converts, the next waits, and the highest is refused. -/
theorem test_requests :
    let r := fun c => ({ cell := c, letter := letter0, raisedAt := 10 } : SarRequest)
    let d := (((corner.tile 0).request 0 0 (r 129)).request 0 0 (r 66)).request 0 0 (r 65)
    ((d.cluster 0).conv.map (·.cell), (d.cluster 0).waiting.map (·.cell), d.completing.map (·.1)) = (some 65, [66], [129]) ∧
      (d.cell 129).peakHeld = false ∧ (d.cell 65).peakHeld = true ∧ regGet d.cnt F.SORT_FE_CNT_QFULL_COUNT 0 0 = 1 := by
  decide +kernel

end Sys2Proof.Tests
end

section
/-! SUPPORT. What no command changes but a fuse programming: the queue, the model's clock and the fuses. One lemma per operation of
the model, in the order of the model's files; `X_held` is of an operation that answers a state, `execX_completes` of a command. -/

namespace Sys2Proof.Machine

/-- What no command but a fuse programming changes: the queue, the model's clock and the fuses. -/
def State.held (s : State) : List Instr × Nat × Fuses := (s.pending, s.now, s.svc.fuses)

/-- A command's answer is a next state with the queue, the clock and the fuses of `s`. -/
def completes (s : State) (r : Out) : Prop := ∃ t, r = .next t ∧ t.held = s.held

@[simp] theorem completes_next (s t : State) : completes s (.next t) ↔ t.held = s.held := by
  simp [completes]

/-- Whatever the row of a register answers, where one acts on a write, completes. -/
def rowCompletes (s : State) (r : Option Out) : Prop := ∀ x, r = some x → completes s x

@[simp] theorem rowCompletes_none (s : State) : rowCompletes s none := fun _ h => nomatch h

@[simp] theorem rowCompletes_some (s : State) (x : Out) : rowCompletes s (some x) ↔ completes s x := by
  simp [rowCompletes]

theorem rowCompletes_ite {s : State} {c : Prop} [Decidable c] {a b : Option Out} (ha : rowCompletes s a) (hb : rowCompletes s b) :
    rowCompletes s (if c then a else b) := by
  split <;> assumption

@[simp] theorem held_ite (c : Prop) [Decidable c] (a b : State) : (if c then a else b).held = if c then a.held else b.held :=
  apply_ite State.held c a b

@[simp] theorem held_fst_ite {β : Type} (c : Prop) [Decidable c] (a b : State × β) :
    (if c then a else b).1.held = if c then a.1.held else b.1.held :=
  apply_ite (fun x : State × β => x.1.held) c a b

/-- A state with a value: `held_mk` takes them apart without evaluating what gives them. -/
theorem held_mk {s : State} {β γ : Type} (p : State × β) (b : γ) (h : p.1.held = s.held) : (p.1, b).1.held = s.held := h

@[simp] theorem foldl_held {α : Type} (f : State → α → State) (h : ∀ u a, (f u a).held = u.held) (l : List α) (s : State) :
    (l.foldl f s).held = s.held := by
  induction l generalizing s with
  | nil => rfl
  | cons a l ih => exact (ih _).trans (h s a)

/-- A fold that carries a value beside the state. -/
@[simp] theorem foldl_fst_held {α β : Type} (f : State × β → α → State × β) (h : ∀ x a, (f x a).1.held = x.1.held)
    (l : List α) (x : State × β) : (l.foldl f x).1.held = x.1.held := by
  induction l generalizing x with
  | nil => rfl
  | cons a l ih => exact (ih _).trans (h x a)

variable (s : State) (o : OfficeId) (t : Fin 4)

/-! ### Registers, notices, counters, health, arrays -/

@[simp] theorem modOff_held (f : Office → Office) : (s.modOff o f).held = s.held := by simp [State.held, State.modOff]
@[simp] theorem modTile_held (f : Tile → Tile) : (s.modTile t f).held = s.held := by simp [State.held, State.modTile]

@[simp] theorem modSvc_held (f : ServiceDie → ServiceDie) (h : (f s.svc).fuses = s.svc.fuses) : (s.modSvc f).held = s.held := by
  simp [State.held, State.modSvc, h]

@[simp] theorem emit_held (e : Emission) : (s.emit e).held = s.held := by simp [State.held, State.emit]
@[simp] theorem draw_held (w : Nat) : (s.draw w).2.held = s.held := by simp [State.held, State.draw]
@[simp] theorem wr_held (f : Fld) (v i j : Nat) : (s.wr o f v i j).held = s.held := by simp [State.wr]
@[simp] theorem swr_held (f : Fld) (v i j : Nat) : (s.swr f v i j).held = s.held := by simp [State.swr]
@[simp] theorem wrPair_held (lo hi : Fld) (v i : Nat) : (s.wrPair o lo hi v i).held = s.held := by simp [State.wrPair]
@[simp] theorem setMode_held (m : Mode) : (s.setMode o m).held = s.held := by simp [State.setMode]
@[simp] theorem logNotice_held (n : Notice) : (s.logNotice o n).held = s.held := by simp [State.logNotice]
@[simp] theorem holdNotice_held (n : Notice) : (s.holdNotice o n).held = s.held := by simp [State.holdNotice]
@[simp] theorem raiseOne_held (code : Nat) (payload : List Byte) : (s.raiseOne o code payload).held = s.held := by simp [State.raiseOne]
@[simp] theorem raise_held (code : Nat) (payload : List Byte) : (s.raise o code payload).held = s.held := by simp [State.raise]

@[simp] theorem raiseSvc_held (code : Nat) (payload : List Byte) : (s.raiseSvc code payload).held = s.held := by
  unfold State.raiseSvc
  split <;> simp

@[simp] theorem noteEvents_held (f : Fld) (n i j : Nat) : (s.noteEvents o f n i j).held = s.held := by simp [State.noteEvents]
@[simp] theorem clearCounter_held (f : Fld) (i j : Nat) : (s.clearCounter o f i j).held = s.held := by simp [State.clearCounter]
@[simp] theorem setEvent_held (f : Fld) : (s.setEvent o f).held = s.held := by simp [State.setEvent]
@[simp] theorem countBy_held (f : Fld) (n i j : Nat) : (s.countBy o f n i j).held = s.held := by simp [State.countBy]
@[simp] theorem countUp_held (f : Fld) (i j : Nat) : (s.countUp o f i j).held = s.held := by simp [State.countUp]
@[simp] theorem countPair_held (lo hi : Fld) (n : Nat) : (s.countPair o lo hi n).held = s.held := by simp [State.countPair]
@[simp] theorem clearPair_held (lo hi : Fld) : (s.clearPair o lo hi).held = s.held := by simp [State.clearPair]
@[simp] theorem setHealth_held (f : Fld) (on : Bool) : (s.setHealth o f on).held = s.held := by simp [State.setHealth]
@[simp] theorem trip_held (f : Fld) (kind count limit : Nat) : (s.trip o f kind count limit).held = s.held := by simp [State.trip]
@[simp] theorem noteResDrop_held : (s.noteResDrop o).held = s.held := by simp [State.noteResDrop]
@[simp] theorem noteResRetry_held : (s.noteResRetry o).held = s.held := by simp [State.noteResRetry]
@[simp] theorem noteVFail_held : (s.noteVFail o).held = s.held := by simp [State.noteVFail]
@[simp] theorem noteUe_held (k : Nat) : (s.noteUe o k).held = s.held := by simp [State.noteUe]
@[simp] theorem freeTracker_held (k : Nat) : (s.freeTracker o k).held = s.held := by simp [State.freeTracker]
@[simp] theorem trackerNotify_held (k : Nat) : (s.trackerNotify o k).held = s.held := by simp [State.trackerNotify]
@[simp] theorem fillTracker_held (k a w : Nat) : (s.fillTracker o k a w).held = s.held := by simp [State.fillTracker]

@[simp] theorem track_held (a w : Nat) : (s.track o a w).held = s.held := by
  unfold State.track
  dsimp only
  split
  · simp
  · split
    · simp
    · split <;> simp

@[simp] theorem putWord_held (a w data syn : Nat) : (s.putWord o a w data syn).held = s.held := by simp [State.putWord]

@[simp] theorem arrWrite_held (a w data : Nat) : (s.arrWrite o a w data).held = s.held := by
  unfold State.arrWrite
  dsimp only
  split <;> simp

@[simp] theorem arrTouch_held (a w : Nat) : (s.arrTouch o a w).held = s.held := by
  unfold State.arrTouch
  split <;> simp

@[simp] theorem raiseOnceFor_held (a w code : Nat) (payload : List Byte) : (s.raiseOnceFor o a w code payload).held = s.held := by
  simp [State.raiseOnceFor]

@[simp] theorem raisePoisonedContext_held (channel word : Nat) : (s.raisePoisonedContext o channel word).held = s.held := by
  simp [State.raisePoisonedContext]

@[simp] theorem arrNotice_held (a w : Nat) : (s.arrNotice o a w).held = s.held := by simp [State.arrNotice]
@[simp] theorem arrUse_held (a w : Nat) : (s.arrUse o a w).held = s.held := by simp [State.arrUse]

@[simp] theorem arrUpdate_held (a w : Nat) (counted : Bool) (f : Nat → Nat) : (s.arrUpdate o a w counted f).held = s.held := by
  unfold State.arrUpdate
  dsimp only
  split <;> simp

@[simp] theorem useWindow_held (addr len : Nat) : (s.useWindow o addr len).held = s.held := by
  unfold State.useWindow
  refine foldl_held _ (fun u k => ?_) _ _
  split <;> simp

@[simp] theorem noticeWindow_held (addr len : Nat) : (s.noticeWindow o addr len).held = s.held := by
  unfold State.noticeWindow
  refine foldl_held _ (fun u k => ?_) _ _
  split <;> simp

/-! ### Causes of the status loop -/

@[simp] theorem latchCauses_held : (s.latchCauses).held = s.held := by simp [State.latchCauses]

/-! ### Clock-crossing FIFOs -/

@[simp] theorem pcieIn_held (n : Nat) : (s.pcieIn o n).held = s.held := by simp [State.pcieIn]
@[simp] theorem pcieOut_held (n : Nat) : (s.pcieOut o n).held = s.held := by simp [State.pcieOut]
@[simp] theorem postWrite_held (addr : Nat) (bytes : List Byte) : (s.postWrite o addr bytes).held = s.held := by simp [State.postWrite]
@[simp] theorem postRead_held (addr len : Nat) : (s.postRead o addr len).held = s.held := by simp [State.postRead]

/-! ### Host accesses -/

@[simp] theorem takeLatch_held (addr : Nat) : (s.takeLatch o addr).held = s.held := by simp [State.takeLatch]
@[simp] theorem freshen_held (addr : Nat) : (s.freshen addr).held = s.held := by simp [State.freshen]
@[simp] theorem answer_held (addr v : Nat) (poisoned : Bool) : (s.answer o addr v poisoned).held = s.held := by simp [State.answer]

@[simp] theorem hostRead_held (addr : Nat) : (s.hostRead o addr).held = s.held := by
  unfold State.hostRead
  (repeat' split) <;> simp

@[simp] theorem journal_held (addr v : Nat) (accepted : Bool) : (s.journal o addr v accepted).held = s.held := by simp [State.journal]
@[simp] theorem refuse5_held (addr v : Nat) : (s.refuse5 o addr v).held = s.held := by simp [State.refuse5]

@[simp] theorem storeField_held (v : Nat) (e : Fld × Nat × Nat) : (s.storeField o v e).held = s.held := by
  unfold State.storeField
  dsimp only
  split <;> simp

@[simp] theorem storeReg_held (addr v : Nat) : (s.storeReg o addr v).held = s.held := by simp [State.storeReg]

@[simp] theorem registerWrite_held (addr v : Nat) (extra own : Bool) : (s.registerWrite o addr v extra own).1.held = s.held := by
  unfold State.registerWrite
  split <;> simp

@[simp] theorem hostWrite_held (addr v : Nat) (extra own : Bool) : (s.hostWrite o addr v extra own).1.held = s.held := by
  unfold State.hostWrite
  split <;> simp

@[simp] theorem hostAction_held (addr v go : Nat) (act : State → State) (hact : ∀ u, (act u).held = u.held) :
    (s.hostAction o addr v go act).held = s.held := by
  simp [State.hostAction, hact]

/-! ### Cells, clusters, interpolators, DLLs -/

@[simp] theorem execLeadingEdge_completes (cell : BitVec 18) (fine : BitVec 7) : completes s (execLeadingEdge t cell fine s) := by
  simp [execLeadingEdge]

@[simp] theorem execTrailingEdge_completes (cell : BitVec 18) (fine : BitVec 7) : completes s (execTrailingEdge t cell fine s) := by
  simp [execTrailingEdge]

@[simp] theorem execGainSwitch_completes (cell : BitVec 18) : completes s (execGainSwitch t cell s) := by simp [execGainSwitch]
@[simp] theorem execTotSaturation_completes (cell : BitVec 18) : completes s (execTotSaturation t cell s) := by simp [execTotSaturation]

@[simp] theorem execResetSwitchOpen_completes (cell : BitVec 18) : completes s (execResetSwitchOpen t cell s) := by
  simp [execResetSwitchOpen]

@[simp] theorem execCellRearm_completes (cell : BitVec 18) (above : Bool) (fine : BitVec 7) :
    completes s (execCellRearm t cell above fine s) := by
  simp [execCellRearm]

@[simp] theorem execSarSamplingEnd_completes (cluster : BitVec 14) : completes s (execSarSamplingEnd t cluster s) := by
  simp [execSarSamplingEnd]

@[simp] theorem execSarConversionEnd_completes (cluster : BitVec 14) (raw : BitVec 12) :
    completes s (execSarConversionEnd t cluster raw s) := by
  simp [execSarConversionEnd]

@[simp] theorem execInterpolatorRelease_completes (cluster : BitVec 14) (ip : Bool) :
    completes s (execInterpolatorRelease t cluster ip s) := by
  simp [execInterpolatorRelease]

@[simp] theorem execBlankingEnd_completes (cell : BitVec 18) : completes s (execBlankingEnd t cell s) := by simp [execBlankingEnd]
@[simp] theorem orderTile_held (x : TileOrder) : (s.orderTile o t x).held = s.held := by simp [State.orderTile]
@[simp] theorem orderNow_held (x : TileOrder) : (s.orderNow o t x).held = s.held := by simp [State.orderNow]

@[simp] theorem execDllLock_completes (cluster : BitVec 14) : completes s (execDllLock t cluster s) := by
  unfold execDllLock
  split <;> simp

@[simp] theorem noticeUnlock_held (cl : Nat) : (s.noticeUnlock o t cl).held = s.held := by simp [State.noticeUnlock]

@[simp] theorem noteUnlock_held (cl : Nat) : (s.noteUnlock t cl).held = s.held := by
  unfold State.noteUnlock
  dsimp only
  split <;> simp

@[simp] theorem modTileDlls_held (f : Tile → Tile) : (s.modTileDlls t f).held = s.held := by simp [State.modTileDlls]

@[simp] theorem execLatchMajorityCorrection_completes (isCluster : Bool) (place : BitVec 18) (u0 u1 u2 : W16) :
    completes s (execLatchMajorityCorrection t isCluster place u0 u1 u2 s) := by
  simp [execLatchMajorityCorrection]

@[simp] theorem execDllLossOfLock_completes (cluster : BitVec 14) : completes s (execDllLossOfLock t cluster s) := by
  unfold execDllLossOfLock
  split <;> simp

@[simp] theorem execDllLockTimeout_completes (cluster : BitVec 14) : completes s (execDllLockTimeout t cluster s) := by
  unfold execDllLockTimeout
  split <;> simp

@[simp] theorem execSortFeCntClr_completes (v : W32) : completes s (execSortFeCntClr o t v s) := by simp [execSortFeCntClr]
@[simp] theorem execSortTeCntClr_completes (v : W32) : completes s (execSortTeCntClr o t v s) := by simp [execSortTeCntClr]

@[simp] theorem clearBits_held (v i k : Nat) (fs : List Fld) : (s.clearBits o v i k fs).held = s.held := by
  induction fs generalizing s k with
  | nil => rfl
  | cons f fs ih => simp [State.clearBits, ih]

@[simp] theorem clearWrite_held (addr v i : Nat) (l : List Fld) : (s.clearWrite o addr v i l).held = s.held := by simp [State.clearWrite]
@[simp] theorem execSortResCntClr_completes (v : W32) : completes s (execSortResCntClr o v s) := by simp [execSortResCntClr]
@[simp] theorem execResidueErrorInject_completes (v : W32) : completes s (execResidueErrorInject o v s) := by simp [execResidueErrorInject]

@[simp] theorem execCodeDensityStart_completes (v : W32) : completes s (execCodeDensityStart o v s) := by
  unfold execCodeDensityStart
  dsimp only
  (repeat' split) <;> simp

/-! ### The read-out of a tile -/

@[simp] theorem execLetterComplete_completes (cell : BitVec 18) : completes s (execLetterComplete t cell s) := by simp [execLetterComplete]

@[simp] theorem execLateFrameTimeout_completes (district : BitVec 6) (round : Round) :
    completes s (execLateFrameTimeout t district round s) := by
  simp [execLateFrameTimeout]

@[simp] theorem execBucketClose_completes (round : Round) : completes s (execBucketClose t round s) := by simp [execBucketClose]

@[simp] theorem execLaneFrameSent_completes (lane : Fin 8) (badEntries : BitVec 24) :
    completes s (execLaneFrameSent t o lane badEntries s) := by
  unfold execLaneFrameSent
  dsimp only
  split <;> simp

@[simp] theorem sendIdle_held : (s.sendIdle t o).held = s.held := by simp [State.sendIdle]
@[simp] theorem execIdleFrameSend_completes : completes s (execIdleFrameSend t s) := by simp [execIdleFrameSend]
@[simp] theorem execDlConfigFrameRx_completes (f : DlFrame) : completes s (execDlConfigFrameRx t o f s) := by simp [execDlConfigFrameRx]
@[simp] theorem execWriteCellWord_completes (cmd : W64) : completes s (execWriteCellWord t cmd s) := by simp [execWriteCellWord]
@[simp] theorem execWriteClusterWord_completes (cmd : W64) : completes s (execWriteClusterWord t cmd s) := by simp [execWriteClusterWord]
@[simp] theorem execReadCellWord_completes (cmd : W64) : completes s (execReadCellWord t cmd s) := by simp [execReadCellWord]
@[simp] theorem execReadClusterWord_completes (cmd : W64) : completes s (execReadClusterWord t cmd s) := by simp [execReadClusterWord]

@[simp] theorem execConfigWriteComplete_completes : completes s (execConfigWriteComplete t s) := by
  unfold execConfigWriteComplete
  split <;> simp

@[simp] theorem execDlLaneStatusRx_completes (f : DlFrame) : completes s (execDlLaneStatusRx t o f s) := by simp [execDlLaneStatusRx]

/-! ### The office's side of the lanes -/

@[simp] theorem setLane_held (lane : LaneRef) (x : Lane) : (s.setLane o t lane x).held = s.held := by
  unfold State.setLane
  split <;> simp

@[simp] theorem refreshReach_held : (s.refreshReach o).held = s.held := by simp [State.refreshReach]
@[simp] theorem refreshLanes_held : (s.refreshLanes o t).held = s.held := by simp [State.refreshLanes]
@[simp] theorem sendLaneStatus_held : (s.sendLaneStatus o t).held = s.held := by simp [State.sendLaneStatus]

@[simp] theorem laneChanged_held (lane : LaneRef) (was : LaneState) : (s.laneChanged o t lane was).held = s.held := by
  unfold State.laneChanged
  split <;> simp

@[simp] theorem noticeUnreachable_held (lane : LaneRef) : (s.noticeUnreachable o t lane).held = s.held := by
  unfold State.noticeUnreachable
  split <;> simp

@[simp] theorem retireLane_held (lane : LaneRef) (cause : Nat) : (s.retireLane o t lane cause).held = s.held := by simp [State.retireLane]
@[simp] theorem laneDown_held (lane : LaneRef) (cause : Nat) : (s.laneDown o t lane cause).held = s.held := by simp [State.laneDown]

@[simp] theorem trainLane_held (lane : LaneRef) (counts bad : Bool) : (s.trainLane o t lane counts bad).held = s.held := by
  simp [State.trainLane]

@[simp] theorem execLaneTrainingPass_completes (lane : LaneRef) : completes s (execLaneTrainingPass o t lane s) := by
  simp [execLaneTrainingPass]

@[simp] theorem execLaneTrainingAttemptTimeout_completes (lane : LaneRef) : completes s (execLaneTrainingAttemptTimeout o t lane s) := by
  simp [execLaneTrainingAttemptTimeout]

@[simp] theorem execLaneCodeErrors_completes (lane : LaneRef) (alignment : Bool) :
    completes s (execLaneCodeErrors o t lane alignment s) := by
  simp [execLaneCodeErrors]

@[simp] theorem execElasticBufferOverflow_completes (lane : LaneRef) : completes s (execElasticBufferOverflow o t lane s) := by
  simp [execElasticBufferOverflow]

@[simp] theorem retrainLane_held (lane : LaneRef) : (s.retrainLane o t lane).held = s.held := by
  unfold State.retrainLane
  split <;> simp

@[simp] theorem execRetrain_completes (v : W32) : completes s (execRetrain o v s) := by
  unfold execRetrain
  split <;> simp

@[simp] theorem execSortLnCntClr_completes (v : W32) : completes s (execSortLnCntClr o t v s) := by simp [execSortLnCntClr]

@[simp] theorem putConfigFrame_held (q : Nat) (words : List W64) : (s.putConfigFrame o t q words).held = s.held := by
  simp [State.putConfigFrame]

@[simp] theorem pumpConfig_held : (s.pumpConfig o t).held = s.held := by
  unfold State.pumpConfig
  dsimp only
  split
  · rfl
  · split <;> simp

@[simp] theorem sendConfig_held (words : List W64) : (s.sendConfig o t words).held = s.held := by simp [State.sendConfig]
@[simp] theorem loadTile_held : (s.loadTile o t).held = s.held := by simp [State.loadTile]

@[simp] theorem sendType3_held (fuel : Nat) (ws : List W64) : (s.sendType3 o t fuel ws).held = s.held := by
  induction fuel generalizing s ws with
  | zero => rfl
  | succ fuel ih => cases ws <;> simp [State.sendType3, ih]

@[simp] theorem loadProfile_held (p : Nat) : (s.loadProfile o t p).held = s.held := by simp [State.loadProfile]
@[simp] theorem nakFrom_held (seq : Nat) : (s.nakFrom o t seq).held = s.held := by simp [State.nakFrom]
@[simp] theorem execDownlinkNakRx_completes (seq : Byte) : completes s (execDownlinkNakRx o t seq s) := by simp [execDownlinkNakRx]
@[simp] theorem readBack_held (w : W64) : (s.readBack o t w).held = s.held := by simp [State.readBack]
@[simp] theorem execReadbackReplyRx_completes (word : W64) : completes s (execReadbackReplyRx o t word s) := by simp [execReadbackReplyRx]
@[simp] theorem modAcc_held (r : Nat) (f : RoundAcc → RoundAcc) : (s.modAcc o r f).held = s.held := by simp [State.modAcc]
@[simp] theorem bufferLetter_held (r db : Nat) (l : RxLetter) : (s.bufferLetter o r db l).held = s.held := by simp [State.bufferLetter]

@[simp] theorem raiseOnceRound_held (r bit code : Nat) (payload : List Byte) : (s.raiseOnceRound o t r bit code payload).held = s.held := by
  simp [State.raiseOnceRound]

@[simp] theorem lateDrop_held (r n : Nat) : (s.lateDrop o t r n).held = s.held := by simp [State.lateDrop]
@[simp] theorem takeData_held (r : Nat) (f : LaneFrame) : (s.takeData o t r f).held = s.held := by simp [State.takeData]
@[simp] theorem takeLate_held (r : Nat) (f : LaneFrame) : (s.takeLate o t r f).held = s.held := by simp [State.takeLate]
@[simp] theorem noticeOverflow_held (r : Nat) : (s.noticeOverflow o t r).held = s.held := by simp [State.noticeOverflow]
@[simp] theorem accClose_held (r dropped : Nat) : (s.accClose o t r dropped).held = s.held := by simp [State.accClose]
@[simp] theorem lateClose_held (r dropped : Nat) : (s.lateClose o t r dropped).held = s.held := by simp [State.lateClose]
@[simp] theorem takeClose_held (r : Nat) (f : LaneFrame) : (s.takeClose o t r f).held = s.held := by simp [State.takeClose]
@[simp] theorem takeLiveness_held (w : W32) : (s.takeLiveness o t w).held = s.held := by simp [State.takeLiveness]
@[simp] theorem copyCounter_held (f : Fld) (v : Nat) : (s.copyCounter o t f v).held = s.held := by simp [State.copyCounter]
@[simp] theorem copyRegister_held (addr v : Nat) : (s.copyRegister o addr v).held = s.held := by simp [State.copyRegister]

@[simp] theorem takeStatusWord_held (w : W64) : (s.takeStatusWord o t w).held = s.held := by
  unfold State.takeStatusWord
  dsimp only
  (repeat' split) <;> simp

@[simp] theorem takeStatus_held (f : LaneFrame) : (s.takeStatus o t f).held = s.held := by simp [State.takeStatus]

@[simp] theorem takeFrame_held (f : LaneFrame) : (s.takeFrame o t f).held = s.held := by
  unfold State.takeFrame
  dsimp only
  split
  · rfl
  · split
    · simp
    · split <;> simp

@[simp] theorem rxFrame_held (lane : Fin 8) (f : LaneFrame) : (s.rxFrame o t lane f).held = s.held := by simp [State.rxFrame]

@[simp] theorem execDataFrameRx_completes (lane : Fin 8) (f : LaneFrame) : completes s (execDataFrameRx o t lane f s) := by
  simp [execDataFrameRx]

@[simp] theorem execLateFrameRx_completes (lane : Fin 8) (f : LaneFrame) : completes s (execLateFrameRx o t lane f s) := by
  simp [execLateFrameRx]

@[simp] theorem execCloseFrameRx_completes (lane : Fin 8) (f : LaneFrame) : completes s (execCloseFrameRx o t lane f s) := by
  simp [execCloseFrameRx]

@[simp] theorem execStatusFrameRx_completes (lane : Fin 8) (f : LaneFrame) : completes s (execStatusFrameRx o t lane f s) := by
  simp [execStatusFrameRx]

@[simp] theorem takeSum_held (f : LaneFrame) (act : State → State) (hact : ∀ u, (act u).held = u.held) :
    (s.takeSum o t f act).held = s.held := by
  unfold State.takeSum
  (repeat' split) <;> simp [hact]

@[simp] theorem execIdleFrameRx_completes (lane : LaneRef) (f : LaneFrame) : completes s (execIdleFrameRx o t lane f s) := by
  unfold execIdleFrameRx
  split <;> simp

@[simp] theorem flushRing_held (p : RingPort) (writing : Bool) : (s.flushRing p writing).held = s.held := by simp [State.flushRing]

@[simp] theorem execFifoFlush_completes (f : FifoRef) (writing : Bool) : completes s (execFifoFlush f writing s) := by
  unfold execFifoFlush
  split <;> simp

/-! ### Configuration items -/

@[simp] theorem itemRegister_held (image : Bool) (addr n v : Nat) : (s.itemRegister o image addr n v).held = s.held := by
  simp [State.itemRegister]

@[simp] theorem itemElement_held (image : Bool) (seq esize : Nat) (e : Nat × Nat) : (s.itemElement o image seq esize e).held = s.held := by
  unfold State.itemElement
  dsimp only
  split <;> simp

@[simp] theorem contextWritten_held (w : Nat) (wasBad : Bool) : (s.contextWritten o w wasBad).held = s.held := by
  simp [State.contextWritten]

@[simp] theorem applyElement_held (image : Bool) (seq esize : Nat) (e : Nat × Nat) :
    (s.applyElement o image seq esize e).held = s.held := by
  unfold State.applyElement
  split <;> simp

@[simp] theorem applyItems_held (image : Bool) (seq : Nat) (items : List Item) : (s.applyItems o image seq items).held = s.held := by
  simp [State.applyItems]

@[simp] theorem sendFrontEnd_held : (s.sendFrontEnd o t).held = s.held := by simp [State.sendFrontEnd]
@[simp] theorem sendFrontEnds_held : (s.sendFrontEnds o).held = s.held := by simp [State.sendFrontEnds]
@[simp] theorem reloadProfiles_held (items : List Item) : (s.reloadProfiles o items).held = s.held := by simp [State.reloadProfiles]

@[simp] theorem endSequence_held : (s.endSequence o).held = s.held := by
  unfold State.endSequence
  split <;> simp

@[simp] theorem rewriteSlot_held (items : List Item) : (s.rewriteSlot o items).held = s.held := by
  unfold State.rewriteSlot
  split <;> simp

/-! ### The mirror -/

@[simp] theorem sendItemFrames_held (mseq kind fuel : Nat) (ws : List W64) : (s.sendItemFrames o mseq kind fuel ws).held = s.held := by
  induction fuel generalizing s ws with
  | zero => rfl
  | succ fuel ih => simp [State.sendItemFrames, ih]

@[simp] theorem sendItem_held (i : MirrorItem) : (s.sendItem o i).held = s.held := by simp [State.sendItem]
@[simp] theorem refreshUnacked_held : (s.refreshUnacked o).held = s.held := by simp [State.refreshUnacked]
@[simp] theorem sendMirror_held (kind : Nat) (words : List W64) : (s.sendMirror o kind words).held = s.held := by simp [State.sendMirror]
@[simp] theorem mirror_held (kind : Nat) (words : List W64) : (s.mirror o kind words).held = s.held := by simp [State.mirror]
@[simp] theorem modTwin_held (f : Twin → Twin) : (s.modTwin o f).held = s.held := by simp [State.modTwin]

@[simp] theorem mirrorChanges_held : (s.mirrorChanges).held = s.held := by
  unfold State.mirrorChanges
  split <;> simp

/-! ### Pigeonholes -/

@[simp] theorem modPh_held (p : Nat) (f : Ph → Ph) : (s.modPh o p f).held = s.held := by simp [State.modPh]
@[simp] theorem setPhState_held (p st : Nat) : (s.setPhState o p st).held = s.held := by simp [State.setPhState]
@[simp] theorem stall_held (p cause : Nat) : (s.stall o p cause).held = s.held := by simp [State.stall]
@[simp] theorem signal_held (vector : Nat) : (s.signal o vector).held = s.held := by simp [State.signal]
@[simp] theorem signalPh_held (p : Nat) : (s.signalPh o p).held = s.held := by simp [State.signalPh]
@[simp] theorem noteReceipt_held (p : Nat) : (s.noteReceipt o p).held = s.held := by simp [State.noteReceipt]
@[simp] theorem writeReceipt_held (p : Nat) (c : Receipt) : (s.writeReceipt o p c).held = s.held := by simp [State.writeReceipt]
@[simp] theorem dropBuffer_held (p : Nat) : (s.dropBuffer o p).held = s.held := by simp [State.dropBuffer]

@[simp] theorem returnBuffer_held (p status : Nat) : (s.returnBuffer o p status).held = s.held := by
  unfold State.returnBuffer
  split <;> simp

@[simp] theorem closeBag_held (p : Nat) : (s.closeBag o p).held = s.held := by
  unfold State.closeBag
  dsimp only
  split <;> simp

@[simp] theorem putRecord_held (p : Nat) (f : Buffer) (b : Mailbag) (r : PhRecord) : (s.putRecord o p f b r).held = s.held := by
  simp [State.putRecord]

@[simp] theorem addRecord_held (p : Nat) (r : PhRecord) (fuel : Nat) : (s.addRecord o p r fuel).1.held = s.held := by
  induction fuel generalizing s with
  | zero => rfl
  | succ fuel ih =>
    unfold State.addRecord
    dsimp only
    (repeat' split) <;> simp [ih]

@[simp] theorem missRecord_held (p : Nat) : (s.missRecord o p).held = s.held := by simp [State.missRecord]

@[simp] theorem deadLetter_held (named : Nat) (r : PhRecord) : (s.deadLetter o named r).held = s.held := by
  unfold State.deadLetter
  split <;> simp

@[simp] theorem passMarks_held (p fuel : Nat) : (s.passMarks o p fuel).held = s.held := by
  induction fuel generalizing s with
  | zero => rfl
  | succ fuel ih => simp [State.passMarks, ih]

@[simp] theorem queueRecord_held (p : Nat) (r : PhRecord) : (s.queueRecord o p r).held = s.held := by simp [State.queueRecord]
@[simp] theorem queueMark_held (p : Nat) : (s.queueMark o p).held = s.held := by simp [State.queueMark]
@[simp] theorem undelivered_held (p : Nat) (x : PhRecord) : (s.undelivered o p x).held = s.held := by simp [State.undelivered]
@[simp] theorem dropLive_held (p : Nat) (gone : PhRecord → Bool) : (s.dropLive o p gone).held = s.held := by simp [State.dropLive]
@[simp] theorem dropAllLive_held : (s.dropAllLive o).held = s.held := by simp [State.dropAllLive]

@[simp] theorem execEnvelopeUndeliverable_completes (ph : BitVec 12) : completes s (execEnvelopeUndeliverable o ph s) := by
  unfold execEnvelopeUndeliverable
  dsimp only
  split <;> simp

@[simp] theorem execDescriptorFetch_completes (ph : BitVec 12) : completes s (execDescriptorFetch o ph s) := by simp [execDescriptorFetch]

@[simp] theorem execDescriptorFetchComplete_completes (ph : BitVec 12) (c : Completion) (desc : BitVec 256) :
    completes s (execDescriptorFetchComplete o ph c desc s) := by
  unfold execDescriptorFetchComplete
  dsimp only
  split
  · simp
  · split <;> simp

@[simp] theorem enablePh_held (p : Nat) : (s.enablePh o p).held = s.held := by simp [State.enablePh]

@[simp] theorem runDisable_held (p fuel : Nat) : (s.runDisable o p fuel).held = s.held := by
  induction fuel generalizing s with
  | zero => rfl
  | succ fuel ih => simp [State.runDisable, ih]

@[simp] theorem execPigeonholeEnable_completes (ph : BitVec 12) (v : W32) : completes s (execPigeonholeEnable o ph v s) := by
  unfold execPigeonholeEnable
  dsimp only
  (repeat' split) <;> simp

@[simp] theorem execPigeonholeDisable_completes (ph : BitVec 12) (v : W32) : completes s (execPigeonholeDisable o ph v s) := by
  simp [execPigeonholeDisable]

@[simp] theorem applyDprod_held (p : Nat) : (s.applyDprod o p).held = s.held := by simp [State.applyDprod]
@[simp] theorem applyRcons_held (p : Nat) : (s.applyRcons o p).held = s.held := by simp [State.applyRcons]
@[simp] theorem execDprod_completes (ph : BitVec 12) (v : W32) : completes s (execDprod o ph v s) := by simp [execDprod]
@[simp] theorem execRcons_completes (ph : BitVec 12) (v : W32) : completes s (execRcons o ph v s) := by simp [execRcons]
@[simp] theorem resumePh_held (p : Nat) : (s.resumePh o p).held = s.held := by simp [State.resumePh]
@[simp] theorem doorbellCmd_held (p v : Nat) : (s.doorbellCmd o p v).held = s.held := by simp [State.doorbellCmd]
@[simp] theorem execResume_completes (ph : BitVec 12) (v : W32) : completes s (execResume o ph v s) := by simp [execResume]
@[simp] theorem execFlush_completes (ph : BitVec 12) (v : W32) : completes s (execFlush o ph v s) := by simp [execFlush]

@[simp] theorem execMailbagIdleClose_completes (ph : BitVec 12) : completes s (execMailbagIdleClose o ph s) := by
  unfold execMailbagIdleClose
  dsimp only
  split <;> simp

@[simp] theorem execIrqCoalesceTimeout_completes (ph : BitVec 12) : completes s (execIrqCoalesceTimeout o ph s) := by
  simp [execIrqCoalesceTimeout]

@[simp] theorem execMsixUnmask_completes (vector : BitVec 11) : completes s (execMsixUnmask o vector s) := by simp [execMsixUnmask]

@[simp] theorem execNoticeDeliver_completes : completes s (execNoticeDeliver o s) := by
  unfold execNoticeDeliver
  split <;> simp

@[simp] theorem execSnapshotRecordExpiry_completes : completes s (execSnapshotRecordExpiry o s) := by simp [execSnapshotRecordExpiry]
@[simp] theorem execPhCntClr_completes (ph : BitVec 12) (v : W32) : completes s (execPhCntClr o ph v s) := by simp [execPhCntClr]
@[simp] theorem execPhGcntClr_completes (v : W32) : completes s (execPhGcntClr o v s) := by simp [execPhGcntClr]

@[simp] theorem closeBags_held (sel : State → Nat → Mailbag → Bool) : (s.closeBags o sel).held = s.held := by
  unfold State.closeBags
  refine foldl_held _ (fun u k => ?_) _ _
  split <;> simp

@[simp] theorem boundaryCloses_held (r : Nat) : (s.boundaryCloses o r).held = s.held := by simp [State.boundaryCloses]
@[simp] theorem resetPhs_held : (s.resetPhs o).held = s.held := by simp [State.resetPhs]

/-! ### The corrected time -/

@[simp] theorem touchEntries_held (a per table k : Nat) : (s.touchEntries o a per table k).held = s.held := by simp [State.touchEntries]
@[simp] theorem touchTables_held (c : CorrIn) : (s.touchTables o c).held = s.held := by simp [State.touchTables]

@[simp] theorem correct_held (channel round : Nat) (c : CorrIn) : (s.correct o channel round c).2.held = s.held := by
  unfold State.correct
  dsimp only
  (repeat' split) <;> simp

@[simp] theorem noteMatch_held (db ch : Nat) (w : BitVec 80) (f0 slot : Nat) (rho : Int) :
    (s.noteMatch o db ch w f0 slot rho).held = s.held := by
  simp [State.noteMatch]

/-! ### The merge -/

@[simp] theorem refreshCmp_held (effort engines : Nat) : (s.refreshCmp o effort engines).held = s.held := by simp [State.refreshCmp]
@[simp] theorem followLevel_held : (s.followLevel o).held = s.held := by simp [State.followLevel]
@[simp] theorem addKeyRound_held (r : Nat) : (s.addKeyRound o r).held = s.held := by simp [State.addKeyRound]
@[simp] theorem planRound_held (r : Round) : (s.planRound o r).held = s.held := by simp [State.planRound]
@[simp] theorem handOver_held (r : Round) (b : CmpBody) : (s.handOver o r b).held = s.held := by simp [State.handOver]
@[simp] theorem endRound_held (r : Round) : (s.endRound o r).held = s.held := by simp [State.endRound]
@[simp] theorem makeReady_held (k : Nat) (noClose : Bool) : (s.makeReady o k noClose).held = s.held := by simp [State.makeReady]

@[simp] theorem execLateWindowExpiry_completes (round : Round) : completes s (execLateWindowExpiry o round s) := by
  simp [execLateWindowExpiry]

@[simp] theorem giveUpClose_held (r db : Nat) : (s.giveUpClose o r db).held = s.held := by simp [State.giveUpClose]

@[simp] theorem execMergeDeadlineExpiry_completes (round : Round) : completes s (execMergeDeadlineExpiry o round s) := by
  simp [execMergeDeadlineExpiry]

@[simp] theorem sendExpected_held (ch : Nat) : (s.sendExpected o ch).held = s.held := by simp [State.sendExpected]
@[simp] theorem disableCell_held (ch : Nat) : (s.disableCell o ch).held = s.held := by simp [State.disableCell]
@[simp] theorem autoMask_held (ch win : Nat) : (s.autoMask o ch win).held = s.held := by simp [State.autoMask]
@[simp] theorem releaseMask_held (ch : Nat) : (s.releaseMask o ch).held = s.held := by simp [State.releaseMask]

@[simp] theorem noHot_held (ch : Nat) (sweep : Bool) : (s.noHot o ch sweep).1.held = s.held := by
  unfold State.noHot
  split <;> simp

@[simp] theorem closeWindow_held (ch w x : Nat) (sweep : Bool) : (s.closeWindow o ch w x sweep).1.held = s.held := by
  unfold State.closeWindow
  split <;> simp

@[simp] theorem execHotSweepVisit_completes : completes s (execHotSweepVisit o s) := by simp [execHotSweepVisit]

@[simp] theorem hitWord_held (ch r : Nat) (w : BitVec 80) (x : Nat) : (s.hitWord o ch r w x).1.held = s.held := by
  unfold State.hitWord
  split
  · rfl
  · exact held_mk _ _ (closeWindow_held _ _ _ _ _ _)

@[simp] theorem countDensity_held (r : Nat) (l : RxLetter) (w : BitVec 80) : (s.countDensity o t r l w).held = s.held := by
  simp [State.countDensity]

@[simp] theorem placeLetter_held (r db : Nat) (a : MergeAcc) (l : RxLetter) : (s.placeLetter o t r db a l).1.held = s.held := by
  unfold State.placeLetter
  dsimp only
  split
  · simp
  · split <;> simp

@[simp] theorem mergeLetter_held (r db : Nat) (a : MergeAcc) (l : RxLetter) : (s.mergeLetter o t r db a l).1.held = s.held := by
  unfold State.mergeLetter
  dsimp only
  split <;> simp

@[simp] theorem routeWord_held (addr : Nat) : (s.routeWord o addr).2.held = s.held := by
  unfold State.routeWord
  dsimp only
  split
  · split <;> simp
  · simp

@[simp] theorem routeOf_held (r db : Nat) : (s.routeOf o r db).2.held = s.held := by
  unfold State.routeOf
  dsimp only
  (repeat' split) <;> simp

@[simp] theorem rxLoss_held (r n : Nat) (known : Bool) : (s.rxLoss o r n known).held = s.held := by simp [State.rxLoss]
@[simp] theorem dropFresh_held (k : Nat) : (s.dropFresh o k).held = s.held := by simp [State.dropFresh]

@[simp] theorem mergeRound_held (u k : Nat) (badEntries : List Nat) : (s.mergeRound o u k badEntries).held = s.held := by
  unfold State.mergeRound
  simp

@[simp] theorem execMergeStart_completes (badEntries : List Nat) : completes s (execMergeStart o badEntries s) := by
  unfold execMergeStart
  (repeat' split) <;> simp

@[simp] theorem roundNotices_held (r : Nat) : (s.roundNotices o r).held = s.held := by simp [State.roundNotices]
@[simp] theorem campaignCount_held : (s.campaignCount o).held = s.held := by simp [State.campaignCount]
@[simp] theorem roundMerged_held (r : Nat) : (s.roundMerged o r).held = s.held := by simp [State.roundMerged]

@[simp] theorem handFinished_held (fuel : Nat) : (s.handFinished o fuel).held = s.held := by
  induction fuel generalizing s with
  | zero => rfl
  | succ fuel ih =>
    unfold State.handFinished
    dsimp only
    split
    · rfl
    · simp [ih]

@[simp] theorem execMergeComplete_completes (unit : Fin 8) : completes s (execMergeComplete o unit s) := by
  unfold execMergeComplete
  split <;> simp

@[simp] theorem clearHits_held (first last : Nat) : (s.clearHits o first last).held = s.held := by simp [State.clearHits]
@[simp] theorem clearAccumulators_held : (s.clearAccumulators o).held = s.held := by simp [State.clearAccumulators]
@[simp] theorem clearCampaign_held : (s.clearCampaign o).held = s.held := by simp [State.clearCampaign]
@[simp] theorem abortCampaign_held (cause : Nat) : (s.abortCampaign o cause).held = s.held := by simp [State.abortCampaign]

@[simp] theorem refreshWord_held (a w : Nat) (acc : Nat × Nat × Option Nat) : (s.refreshWord o a w acc).1.held = s.held := by
  unfold State.refreshWord
  split <;> simp

@[simp] theorem freePage_held (a page : Nat) : (s.freePage o a page).held = s.held := by simp [State.freePage]

@[simp] theorem pageResult_held (result repaired poisoned : Nat) : (s.pageResult o result repaired poisoned).held = s.held := by
  simp [State.pageResult]

@[simp] theorem refreshPage_held (a page : Nat) : (s.refreshPage o a page).held = s.held := by
  unfold State.refreshPage
  dsimp only
  split <;> simp

@[simp] theorem copyPage_held (a page spare : Nat) : (s.copyPage o a page spare).held = s.held := by simp [State.copyPage]
@[simp] theorem refreshSpares_held : (s.refreshSpares o).held = s.held := by simp [State.refreshSpares]
@[simp] theorem amendmentApplied_held (seq amdId : Nat) : (s.amendmentApplied o seq amdId).held = s.held := by simp [State.amendmentApplied]

@[simp] theorem deltaApplied_held (seq : Nat) (items : List Item) : (s.deltaApplied o seq items).held = s.held := by
  simp [State.deltaApplied]

@[simp] theorem pauseMerge_held (n : Nat) : (s.pauseMerge o n).held = s.held := by simp [State.pauseMerge]

@[simp] theorem applyJob_held (a : CtxJob) : (s.applyJob o a).held = s.held := by
  unfold State.applyJob
  split <;> simp

@[simp] theorem execContextChangeApply_completes : completes s (execContextChangeApply o s) := by
  unfold execContextChangeApply
  dsimp only
  split
  · simp
  · split <;> simp

@[simp] theorem execContextClearStart_completes (v : W32) : completes s (execContextClearStart o v s) := by
  unfold execContextClearStart
  dsimp only
  (repeat' split) <;> simp

@[simp] theorem execContextClearDone_completes : completes s (execContextClearDone o s) := by
  unfold execContextClearDone
  dsimp only
  split
  · simp
  · split <;> simp

@[simp] theorem execSortMgCntClr_completes (v : W32) : completes s (execSortMgCntClr o v s) := by simp [execSortMgCntClr]

/-! ### The event store -/

@[simp] theorem modSto_held (f : Store → Store) : (s.modSto o f).held = s.held := by simp [State.modSto]
@[simp] theorem modSack_held (k : Nat) (f : Sack → Sack) : (s.modSack o k f).held = s.held := by simp [State.modSack]
@[simp] theorem confirm_held (region : Nat) : (s.confirm o region).held = s.held := by simp [State.confirm]

@[simp] theorem issueWrite_held (region addr : Nat) (bytes : List Byte) (round : Option Round) :
    (s.issueWrite o region addr bytes round).held = s.held := by
  simp [State.issueWrite]

@[simp] theorem storeWrite_held (region addr : Nat) (bytes : List Byte) (round : Option Round) :
    (s.storeWrite o region addr bytes round).held = s.held := by
  simp [State.storeWrite]

@[simp] theorem storeData_held (sack off : Nat) (bytes : List Byte) (round : Round) :
    (s.storeData o sack off bytes round).held = s.held := by
  unfold State.storeData
  refine foldl_held _ (fun u k => ?_) _ _
  split <;> simp

@[simp] theorem confirmSack_held (sack : Nat) : (s.confirmSack o sack).held = s.held := by
  unfold State.confirmSack
  refine foldl_held _ (fun u k => ?_) _ _
  split <;> simp

@[simp] theorem indexWriteTo_held (c off : Nat) (bytes : List Byte) : (s.indexWriteTo o c off bytes).held = s.held := by
  simp [State.indexWriteTo]

@[simp] theorem indexWrite_held (off : Nat) (bytes : List Byte) : (s.indexWrite o off bytes).held = s.held := by simp [State.indexWrite]
@[simp] theorem resendStore_held : (s.resendStore o).held = s.held := by simp [State.resendStore]
@[simp] theorem writeEntry_held (k : Nat) : (s.writeEntry o k).held = s.held := by simp [State.writeEntry]

@[simp] theorem refreshStore_held : (s.refreshStore o).held = s.held := by
  unfold State.refreshStore
  dsimp only
  split <;> simp

@[simp] theorem refreshFill_held : (s.refreshFill o).held = s.held := by simp [State.refreshFill]
@[simp] theorem lossNotice_held (l : LossRec) : (s.lossNotice o l).held = s.held := by simp [State.lossNotice]

@[simp] theorem addLoss_held (cause district : Nat) (all chain : Bool) (first : Round) (rounds : Nat) :
    (s.addLoss o cause district all chain first rounds).held = s.held := by
  unfold State.addLoss
  dsimp only
  split <;> simp

@[simp] theorem flushLosses_held : (s.flushLosses o).held = s.held := by simp [State.flushLosses]
@[simp] theorem roundMarks_held (r : Nat) : (s.roundMarks o r).held = s.held := by simp [State.roundMarks]
@[simp] theorem dropRound_held (r : Round) (cause : Nat) : (s.dropRound o r cause).held = s.held := by simp [State.dropRound]
@[simp] theorem purgeDropped_held : (s.purgeDropped o).held = s.held := by simp [State.purgeDropped]
@[simp] theorem closeSack_held (k : Nat) : (s.closeSack o k).held = s.held := by simp [State.closeSack]

@[simp] theorem closeCurrent_held : (s.closeCurrent o).held = s.held := by
  unfold State.closeCurrent
  split <;> simp

@[simp] theorem rejoinCopies_held : (s.rejoinCopies o).held = s.held := by simp [State.rejoinCopies]

@[simp] theorem openAt_held (k : Nat) (released : Bool) (opener : Option Round) : (s.openAt o k released opener).held = s.held := by
  simp [State.openAt]

@[simp] theorem resumedAt_held (r : Round) (k : Nat) : (s.resumedAt o r k).held = s.held := by simp [State.resumedAt]
@[simp] theorem clipPin_held : (s.clipPin o).held = s.held := by simp [State.clipPin]

@[simp] theorem openSack_held (r : Round) (opener : Option Round) : (s.openSack o r opener).1.held = s.held := by
  unfold State.openSack
  dsimp only
  (repeat' split) <;> simp

@[simp] theorem decideRound_held (r : Round) : (s.decideRound o r).held = s.held := by simp [State.decideRound]
@[simp] theorem decideUpTo_held (r : Round) : (s.decideUpTo o r).held = s.held := by simp [State.decideUpTo]
@[simp] theorem mirrorPointer_held (w : Run) : (s.mirrorPointer o w).held = s.held := by simp [State.mirrorPointer]
@[simp] theorem storeRun_held (w : Run) : (s.storeRun o w).held = s.held := by simp [State.storeRun]
@[simp] theorem takeStored_held : (s.takeStored o).held = s.held := by simp [State.takeStored]
@[simp] theorem settleStore_held : (s.settleStore o).held = s.held := by simp [State.settleStore]
@[simp] theorem endDrops_held : (s.endDrops o).held = s.held := by simp [State.endDrops]
@[simp] theorem abortOrders_held : (s.abortOrders o).held = s.held := by simp [State.abortOrders]
@[simp] theorem unwriteRun_held (w : Run) : (s.unwriteRun o w).held = s.held := by simp [State.unwriteRun]

@[simp] theorem dropAllRounds_held (cause : Nat) (all : Bool) : (s.dropAllRounds o cause all).held = s.held := by
  simp [State.dropAllRounds, -List.foldl_reverse]

@[simp] theorem loseCurrent_held (cause : Nat) : (s.loseCurrent o cause).held = s.held := by
  unfold State.loseCurrent
  dsimp only
  split
  · rfl
  · split <;> simp

@[simp] theorem dropCopy_held (c : Nat) : (s.dropCopy o c).held = s.held := by
  unfold State.dropCopy
  refine (settleStore_held _ _).trans <| (takeStored_held _ _).trans <| (raise_held _ _ _ _).trans ?_
  refine (foldl_held _ (fun u k => modSack_held _ _ _ _) _ _).trans ?_
  exact (modSto_held _ _ _).trans (wr_held _ _ _ _ _ _)

@[simp] theorem faultSacks_held (c region cause : Nat) : (s.faultSacks o c region cause).held = s.held := by simp [State.faultSacks]
@[simp] theorem failStore_held : (s.failStore o).held = s.held := by simp [State.failStore]
@[simp] theorem failRegion_held (region addr : Nat) : (s.failRegion o region addr).held = s.held := by simp [State.failRegion]

@[simp] theorem format_held : (s.format o).held = s.held := by
  unfold State.format
  refine foldl_held _ (fun u c => ?_) _ _
  dsimp only
  refine (indexWriteTo_held _ _ _ _ _).trans ?_
  refine (foldl_held _ (fun u k => indexWriteTo_held _ _ _ _ _) _ _).trans ?_
  exact indexWriteTo_held _ _ _ _ _

@[simp] theorem enableStore_held : (s.enableStore o).held = s.held := by simp [State.enableStore]
@[simp] theorem disableStore_held : (s.disableStore o).held = s.held := by simp [State.disableStore]

@[simp] theorem setPins_held (ks : List Nat) (on : Bool) : (s.setPins o ks on).1.held = s.held := by
  refine foldl_fst_held _ (fun x k => ?_) _ _
  split <;> simp

/-! ### Commands of the event store -/

@[simp] theorem deliverLive_held (x : CodedItem) : (s.deliverLive o x).held = s.held := by
  unfold State.deliverLive
  dsimp only
  split
  · split <;> simp
  · simp

@[simp] theorem resumeLive_held (x : CodedItem) : (s.resumeLive o x).held = s.held := by simp [State.resumeLive]
@[simp] theorem holdLive_held : (s.holdLive o).held = s.held := by simp [State.holdLive]
@[simp] theorem rewriteWords_held (a lo hi : Nat) : (s.rewriteWords o a lo hi).held = s.held := by simp [State.rewriteWords]
@[simp] theorem takeOut_held (k : Nat) : (s.takeOut o k).held = s.held := by simp [State.takeOut]
@[simp] theorem startDropping_held (r : Round) : (s.startDropping o r).held = s.held := by simp [State.startDropping]

@[simp] theorem execStagingEntry_completes : completes s (execStagingEntry o s) := by
  unfold execStagingEntry
  dsimp only
  split <;> simp

@[simp] theorem dropBegun_held (from_ : Nat) : (s.dropBegun o from_).held = s.held := by simp [State.dropBegun]

@[simp] theorem execStagingDrained_completes : completes s (execStagingDrained o s) := by
  unfold execStagingDrained
  dsimp only
  split
  · simp
  · split <;> simp

@[simp] theorem readStaged_held (x : Staged) : (s.readStaged o x).1.held = s.held := by simp [State.readStaged]

@[simp] theorem loseStaged_held (x : Staged) : (s.loseStaged o x).held = s.held := by
  unfold State.loseStaged
  split <;> simp

@[simp] theorem useStaged_held (x : Staged) : (s.useStaged o x).1.held = s.held := by
  unfold State.useStaged
  split <;> simp

@[simp] theorem readRound_held (r : Round) : (s.readRound o r).1.held = s.held := by
  refine foldl_fst_held _ (fun x y => ?_) _ _
  dsimp only
  split <;> simp

@[simp] theorem enterSack_held (r : Round) : (s.enterSack o r).held = s.held := by
  unfold State.enterSack
  split <;> simp

@[simp] theorem dropSpilled_held (r : Round) : (s.dropSpilled o r).held = s.held := by simp [State.dropSpilled]

@[simp] theorem issueRun_held (k : Nat) (p : RoundPlan) (items : List CodedItem) (loss : Bool) :
    (s.issueRun o k p items loss).held = s.held := by
  simp [State.issueRun]

@[simp] theorem writeRound_held (p : RoundPlan) : (s.writeRound o p).held = s.held := by
  unfold State.writeRound
  dsimp only
  (repeat' split) <;> simp

@[simp] theorem settleUio_held : (s.settleUio o).held = s.held := by
  unfold State.settleUio
  split
  · rfl
  · refine foldl_held _ (fun u g => ?_) _ _
    split <;> simp

@[simp] theorem execRoundWriteStart_completes : completes s (execRoundWriteStart o s) := by
  unfold execRoundWriteStart
  dsimp only
  (repeat' split) <;> simp

@[simp] theorem execRecordAdd_completes (ph : BitVec 12) : completes s (execRecordAdd o ph s) := by
  unfold execRecordAdd
  dsimp only
  split
  · simp
  · split
    · simp
    · split <;> simp

@[simp] theorem afterDone_held : (s.afterDone o).held = s.held := by simp [State.afterDone]

@[simp] theorem execStoreWriteDone_completes (done : StoreWriteRef) : completes s (execStoreWriteDone o done s) := by
  unfold execStoreWriteDone
  dsimp only
  (repeat' split) <;> simp

@[simp] theorem execStoreWriteError_completes (region : Fin 10) (addr : W64) : completes s (execStoreWriteError o region addr s) := by
  unfold execStoreWriteError
  dsimp only
  split
  · simp
  · split
    · simp
    · split <;> simp

@[simp] theorem execStoreStall_completes (region : Byte) : completes s (execStoreStall o region s) := by simp [execStoreStall]
@[simp] theorem execLossRecordAppend_completes : completes s (execLossRecordAppend o s) := by simp [execLossRecordAppend]
@[simp] theorem refuseStore_held (cause : Nat) : (s.refuseStore o cause).held = s.held := by simp [State.refuseStore]
@[simp] theorem reattachCopies_held : (s.reattachCopies o).held = s.held := by simp [State.reattachCopies]

@[simp] theorem writeStoCtl_held (v : Nat) : (s.writeStoCtl o v).held = s.held := by
  unfold State.writeStoCtl
  dsimp only
  (repeat' split) <;> simp

@[simp] theorem execStoreEnable_completes (v : W32) : completes s (execStoreEnable o v s) := by simp [execStoreEnable]
@[simp] theorem execStoreDisable_completes (v : W32) : completes s (execStoreDisable o v s) := by simp [execStoreDisable]
@[simp] theorem execReattach_completes (v : W32) : completes s (execReattach o v s) := by simp [execReattach]
@[simp] theorem execStoreFormatDone_completes : completes s (execStoreFormatDone o s) := by simp [execStoreFormatDone]
@[simp] theorem writePinCmd_held (v : Nat) : (s.writePinCmd o v).held = s.held := by simp [State.writePinCmd]
@[simp] theorem execPin_completes (v : W32) : completes s (execPin o v s) := by simp [execPin]
@[simp] theorem execUnpin_completes (v : W32) : completes s (execUnpin o v s) := by simp [execUnpin]
@[simp] theorem execUnpinAll_completes (v : W32) : completes s (execUnpinAll o v s) := by simp [execUnpinAll]
@[simp] theorem execIndexRepair_completes (v : W32) : completes s (execIndexRepair o v s) := by simp [execIndexRepair]
@[simp] theorem execStoCntClr_completes (v : W32) : completes s (execStoCntClr o v s) := by simp [execStoCntClr]

/-! ### Compression -/

@[simp] theorem modCmp_held (f : Compression → Compression) : (s.modCmp o f).held = s.held := by simp [State.modCmp]
@[simp] theorem setHistory_held (k : Nat) (h : History) : (s.setHistory o k h).held = s.held := by simp [State.setHistory]

@[simp] theorem loadHistory_held (stream : Nat) (r : Round) : (s.loadHistory o stream r).1.held = s.held := by
  unfold State.loadHistory
  dsimp only
  split <;> simp

@[simp] theorem readStatic_held (k : Nat) : (s.readStatic o k).1.held = s.held := by
  unfold State.readStatic
  dsimp only
  split <;> simp

@[simp] theorem chooseTable_held (effort : Nat) (key : Bool) (h : History) : (s.chooseTable o effort key h).1.held = s.held := by
  unfold State.chooseTable
  split <;> simp

@[simp] theorem execCompressionEngineTake_completes (engine : Fin 16) : completes s (execCompressionEngineTake o engine s) := by
  unfold execCompressionEngineTake
  dsimp only
  split
  · simp
  · split <;> simp

@[simp] theorem release_held (j : EngineJob) (compressed : Bool) (h : History) : (s.release o j compressed h).held = s.held := by
  simp [State.release]

@[simp] theorem checkEngines_held : (s.checkEngines o).held = s.held := by simp [State.checkEngines]
@[simp] theorem verifyFailed_held (e : Nat) (j : EngineJob) : (s.verifyFailed o e j).held = s.held := by simp [State.verifyFailed]

@[simp] theorem execEnvelopeCoded_completes (engine : Fin 16) (differs : Bool) : completes s (execEnvelopeCoded o engine differs s) := by
  unfold execEnvelopeCoded
  dsimp only
  split <;> simp

@[simp] theorem execCmpCntClr_completes (v : W32) : completes s (execCmpCntClr o v s) := by simp [execCmpCntClr]

/-! ### The PCIe port -/

@[simp] theorem refreshUio_held : (s.refreshUio o).held = s.held := by simp [State.refreshUio]
@[simp] theorem leaveL0_held : (s.leaveL0 o).held = s.held := by simp [State.leaveL0]
@[simp] theorem execPortLeaveL0_completes : completes s (execPortLeaveL0 o s) := by simp [execPortLeaveL0]
@[simp] theorem hostBack_held (was : Bool) : (s.hostBack o was).held = s.held := by simp [State.hostBack]

@[simp] theorem execPortEnterL0_completes (flit uioCap : Bool) (rate width : BitVec 3) :
    completes s (execPortEnterL0 o flit uioCap rate width s) := by
  simp [execPortEnterL0]

@[simp] theorem execFunctionReset_completes (cause : FnResetCause) : completes s (execFunctionReset o cause s) := by
  unfold execFunctionReset
  dsimp only
  split
  · simp
  · split <;> simp

@[simp] theorem execConfigurationRequest_completes (r : CfgRequest) : completes s (execConfigurationRequest o r s) := by
  unfold execConfigurationRequest
  dsimp only
  split
  · simp
  · split <;> simp

@[simp] theorem execPtmDialog_completes (hostNs tick : W64) : completes s (execPtmDialog o hostNs tick s) := by simp [execPtmDialog]
@[simp] theorem execPtmTickRead_completes : completes s (execPtmTickRead o s) := by simp [execPtmTickRead]
@[simp] theorem accessError_held (addr cause : Nat) : (s.accessError o addr cause).held = s.held := by simp [State.accessError]
@[simp] theorem execBarAccessError_completes (addr : BitVec 26) : completes s (execBarAccessError o addr s) := by simp [execBarAccessError]

@[simp] theorem execPoisonedWriteRx_completes (addr : BitVec 26) : completes s (execPoisonedWriteRx o addr s) := by
  simp [execPoisonedWriteRx]

/-! ### Ring frames as sent -/

@[simp] theorem modRing_held (f : Ring → Ring) : (s.modRing f).held = s.held := by simp [State.modRing]
@[simp] theorem modRPort_held (p : RingPort) (f : RPort → RPort) : (s.modRPort p f).held = s.held := by simp [State.modRPort]
@[simp] theorem launch_held (p : RingPort) (f : TxFrame) : (s.launch p f).held = s.held := by simp [State.launch]

@[simp] theorem txNext_held (p : RingPort) : (s.txNext p).held = s.held := by
  unfold State.txNext
  dsimp only
  split <;> simp

@[simp] theorem pumpRing_held (p : RingPort) : (s.pumpRing p).held = s.held := by simp [State.pumpRing]

@[simp] theorem transmit_held (p : RingPort) (f : TxFrame) : (s.transmit p f).held = s.held := by
  unfold State.transmit
  dsimp only
  split <;> simp

@[simp] theorem ringSend_held (p : RingPort) (type origin hops : Nat) (west wrapped own : Bool) (words : List W32) :
    (s.ringSend p type origin hops west wrapped own words).held = s.held := by
  simp [State.ringSend]

@[simp] theorem setRPort_held (p : RingPort) (st : Nat) : (s.setRPort p st).held = s.held := by simp [State.setRPort]

@[simp] theorem originate_held (p : RingPort) (type : Nat) (words : List W32) : (s.originate p type words).held = s.held := by
  simp [State.originate]

@[simp] theorem forward_held (p : RingPort) (f : RingFrame) (words : List W32) : (s.forward p f words).held = s.held := by
  simp [State.forward]

@[simp] theorem noteWrapped_held (f : RingFrame) : (s.noteWrapped f).held = s.held := by simp [State.noteWrapped]
@[simp] theorem crossRing_held (p : RingPort) (f : RingFrame) : (s.crossRing p f).1.held = s.held := by simp [State.crossRing]

@[simp] theorem ringRx_held (p : RingPort) (type : Nat) (f : RingFrame) (act : State → State) (hact : ∀ u, (act u).held = u.held) :
    (s.ringRx p type f act).held = s.held := by
  simp [State.ringRx, hact]

@[simp] theorem showPending_held : (s.showPending o).held = s.held := by
  unfold State.showPending
  split <;> simp

@[simp] theorem refreshPending_held : (s.refreshPending).held = s.held := by
  unfold State.refreshPending
  dsimp only
  split <;> simp

@[simp] theorem missStamp_held (b : Bcast) : (s.missStamp b).held = s.held := by simp [State.missStamp]
@[simp] theorem actBcast_held (b : Bcast) : (s.actBcast b).held = s.held := by simp [State.actBcast]
@[simp] theorem takeBcast_held (b : Bcast) : (s.takeBcast b).held = s.held := by simp [State.takeBcast]

@[simp] theorem broadcast_held (op tick : Nat) (arg : List Byte) (own : Bool) : (s.broadcast op tick arg own).held = s.held := by
  simp [State.broadcast]

/-! ### The time base -/

@[simp] theorem modServo_held (f : Servo → Servo) : (s.modServo f).held = s.held := by simp [State.modServo]
@[simp] theorem modTod_held (f : Tod → Tod) : (s.modTod f).held = s.held := by simp [State.modTod]
@[simp] theorem setServo_held (st : Nat) : (s.setServo st).held = s.held := by simp [State.setServo]
@[simp] theorem refreshErr_held : (s.refreshErr).held = s.held := by simp [State.refreshErr]
@[simp] theorem startPulse_held : (s.startPulse).held = s.held := by simp [State.startPulse]

@[simp] theorem execTimeBaseStart_completes : completes s (execTimeBaseStart s) := by
  unfold execTimeBaseStart
  split <;> simp

@[simp] theorem execTbStart_completes (v : W32) : completes s (execTbStart o v s) := by simp [execTbStart]
@[simp] theorem execRefinLoss_completes : completes s (execRefinLoss s) := by simp [execRefinLoss]
@[simp] theorem execRefinReturn_completes : completes s (execRefinReturn s) := by simp [execRefinReturn]
@[simp] theorem todCompare_held (sec : Nat) : (s.todCompare sec).held = s.held := by simp [State.todCompare]

@[simp] theorem execTodMessageRx_completes (bytes : List Byte) (inWindow : Bool) : completes s (execTodMessageRx bytes inWindow s) := by
  simp [execTodMessageRx]

@[simp] theorem servoEdge_held (fine : Nat) : (s.servoEdge fine).held = s.held := by simp [State.servoEdge]
@[simp] theorem startAtEdge_held (fine sec : Nat) : (s.startAtEdge fine sec).held = s.held := by simp [State.startAtEdge]
@[simp] theorem execPpsinEdge_completes (fine : BitVec 7) : completes s (execPpsinEdge fine s) := by simp [execPpsinEdge]
@[simp] theorem missMessage_held : (s.missMessage).held = s.held := by simp [State.missMessage]
@[simp] theorem execServoHoldover_completes : completes s (execServoHoldover s) := by simp [execServoHoldover]
@[simp] theorem sendEpoch_held : (s.sendEpoch).held = s.held := by simp [State.sendEpoch]
@[simp] theorem execSyncSend_completes : completes s (execSyncSend s) := by simp [execSyncSend]
@[simp] theorem pushEpoch_held (k : Nat) (pm : Postmark) (inc : Nat) : (s.pushEpoch k pm inc).held = s.held := by simp [State.pushEpoch]
@[simp] theorem fixEpoch_held (k : Nat) (mine theirs : Postmark) : (s.fixEpoch k mine theirs).held = s.held := by simp [State.fixEpoch]

@[simp] theorem beginEpoch_held (k : Nat) : (s.beginEpoch k).held = s.held := by
  unfold State.beginEpoch
  dsimp only
  split <;> simp

@[simp] theorem memberStart_held (k : Nat) : (s.memberStart k).held = s.held := by simp [State.memberStart]
@[simp] theorem execEpochBoundary_completes : completes s (execEpochBoundary s) := by simp [execEpochBoundary]
@[simp] theorem execTbCountRead_completes : completes s (execTbCountRead o s) := by simp [execTbCountRead]
@[simp] theorem execTbCntClr_completes (v : W32) : completes s (execTbCntClr o v s) := by simp [execTbCntClr]

/-! ### The sum stream -/

@[simp] theorem sendSum_held (dest : Vote) (hdr : W32) (ws : List Nat) : (s.sendSum t dest hdr ws).held = s.held := by
  unfold State.sendSum
  dsimp only
  split
  · rfl
  · split <;> simp

@[simp] theorem sendLive_held (n : Nat) : (s.sendLive t n).held = s.held := by simp [State.sendLive]
@[simp] theorem sumTick_held : (s.sumTick t).held = s.held := by simp [State.sumTick]

@[simp] theorem execDecimationChange_completes : completes s (execDecimationChange t s) := by
  unfold execDecimationChange
  dsimp only
  split
  · simp
  · split <;> simp

@[simp] theorem tileCommand_held (f : Tile → Tile) : (s.tileCommand t o f).held = s.held := by simp [State.tileCommand]
@[simp] theorem refuseCommand_held : (s.refuseCommand t o).held = s.held := by simp [State.refuseCommand]
@[simp] theorem execSumMaskLow_completes (v : W32) : completes s (execSumMaskLow t o v s) := by simp [execSumMaskLow]
@[simp] theorem execSumMaskHigh_completes (v : W32) : completes s (execSumMaskHigh t o v s) := by simp [execSumMaskHigh]

@[simp] theorem execSumCoefficients_completes (k : Byte) (c0 c1 : W16) : completes s (execSumCoefficients t o k c0 c1 s) := by
  simp [execSumCoefficients]

@[simp] theorem execSumFilterGain_completes (flen fshift gain : Byte) : completes s (execSumFilterGain t o flen fshift gain s) := by
  simp [execSumFilterGain]

@[simp] theorem execSumTrim_completes (v : W32) : completes s (execSumTrim t o v s) := by simp [execSumTrim]
@[simp] theorem execSumApply_completes : completes s (execSumApply t o s) := by simp [execSumApply]

@[simp] theorem execCaptureCommand_completes (tag : Byte) (start lenm1 : W16) (block : Byte) :
    completes s (execCaptureCommand t o tag start lenm1 block s) := by
  simp [execCaptureCommand]

@[simp] theorem execCaptureFreeze_completes : completes s (execCaptureFreeze t s) := by
  unfold execCaptureFreeze
  dsimp only
  split <;> simp

@[simp] theorem execCaptureResume_completes : completes s (execCaptureResume t s) := by simp [execCaptureResume]

@[simp] theorem execThrottleOverride_completes (district bits : Byte) : completes s (execThrottleOverride t o district bits s) := by
  simp [execThrottleOverride]

@[simp] theorem execThrottleClear_completes : completes s (execThrottleClear t o s) := by simp [execThrottleClear]
@[simp] theorem execQuiet_completes (enter : Bool) : completes s (execQuiet t o enter s) := by simp [execQuiet]

@[simp] theorem execTileCommandRefused_completes (word : W64) : completes s (execTileCommandRefused t o word s) := by
  simp [execTileCommandRefused]

/-! ### Triggers -/

@[simp] theorem modSeq_held (f : Sequencer → Sequencer) : (s.modSeq o t f).held = s.held := by simp [State.modSeq]
@[simp] theorem feedRed_held (f : LiveFrame) (r : Nat) : (s.feedRed o t f r).held = s.held := by simp [State.feedRed]
@[simp] theorem feedReds_held (f : LiveFrame) : (s.feedReds o t f).held = s.held := by simp [State.feedReds]
@[simp] theorem dropRed_held (r : Nat) : (s.dropRed o t r).held = s.held := by simp [State.dropRed]

@[simp] theorem execReductionRecord_completes (r : Fin 4) : completes s (execReductionRecord o t r s) := by
  unfold execReductionRecord
  dsimp only
  split <;> simp

@[simp] theorem syncReds_held : (s.syncReds o t).held = s.held := by simp [State.syncReds]
@[simp] theorem modLive_held (f : LiveRx → LiveRx) : (s.modLive o t f).held = s.held := by simp [State.modLive]
@[simp] theorem liveGap_held (n : Nat) : (s.liveGap o t n).held = s.held := by simp [State.liveGap]
@[simp] theorem execLiveFrameMissing_completes : completes s (execLiveFrameMissing o t s) := by simp [execLiveFrameMissing]
@[simp] theorem loseParcel_held (fire cause : Nat) : (s.loseParcel o t fire cause).held = s.held := by simp [State.loseParcel]
@[simp] theorem finishCapture_held (j : CapJob) : (s.finishCapture o t j).held = s.held := by simp [State.finishCapture]

@[simp] theorem takeLive_held (f : LaneFrame) : (s.takeLive o t f).held = s.held := by
  unfold State.takeLive
  dsimp only
  split
  · rfl
  · split <;> simp

@[simp] theorem takeReadout_held (f : LaneFrame) : (s.takeReadout o t f).held = s.held := by
  unfold State.takeReadout
  split <;> simp

@[simp] theorem takeSumFrame_held (f : LaneFrame) : (s.takeSumFrame o t f).held = s.held := by
  unfold State.takeSumFrame
  split <;> simp

@[simp] theorem execSumLiveFrameRx_completes (_lane : Fin 3) (f : LaneFrame) : completes s (execSumLiveFrameRx o t _lane f s) := by
  simp [execSumLiveFrameRx]

@[simp] theorem execReadoutFrameRx_completes (_lane : Fin 3) (f : LaneFrame) : completes s (execReadoutFrameRx o t _lane f s) := by
  simp [execReadoutFrameRx]

@[simp] theorem refreshOrders_held : (s.refreshOrders o).held = s.held := by simp [State.refreshOrders]
@[simp] theorem queueOrder_held (x : Order) : (s.queueOrder o x).held = s.held := by simp [State.queueOrder]
@[simp] theorem refuseOrder_held (tag result : Nat) : (s.refuseOrder o tag result).held = s.held := by simp [State.refuseOrder]
@[simp] theorem autoOrder_held (p n pc : Nat) : (s.autoOrder o t p n pc).held = s.held := by simp [State.autoOrder]
@[simp] theorem sendCapture_held (j : CapJob) : (s.sendCapture o t j).held = s.held := by simp [State.sendCapture]
@[simp] theorem fireAlso_held (p n pc : Nat) : (s.fireAlso o t p n pc).held = s.held := by simp [State.fireAlso]
@[simp] theorem latchFire_held (n cause : Nat) : (s.latchFire o t n cause).held = s.held := by simp [State.latchFire]
@[simp] theorem honour_held (p n cause : Nat) (branch : Byte) : (s.honour o t p n cause branch).held = s.held := by simp [State.honour]
@[simp] theorem extend_held (p n cause : Nat) (j : CapJob) : (s.extend o t p n cause j).held = s.held := by simp [State.extend]

@[simp] theorem fire_held (p n cause : Nat) (branch : Byte) : (s.fire o t p n cause branch).held = s.held := by
  unfold State.fire
  dsimp only
  (repeat' split) <;> simp

@[simp] theorem seqTick_held (p n : Nat) : (s.seqTick o t p n).held = s.held := by
  unfold State.seqTick
  dsimp only
  split <;> simp

@[simp] theorem startSeq_held : (s.startSeq o t).held = s.held := by simp [State.startSeq]
@[simp] theorem syncSeq_held : (s.syncSeq o t).held = s.held := by simp [State.syncSeq]
@[simp] theorem syncSeqs_held : (s.syncSeqs o).held = s.held := by simp [State.syncSeqs]
@[simp] theorem execSequencerStep_completes : completes s (execSequencerStep o t s) := by simp [execSequencerStep]

@[simp] theorem execSequencerTimerExpiry_completes (timer : Bool) : completes s (execSequencerTimerExpiry o t timer s) := by
  simp [execSequencerTimerExpiry]

@[simp] theorem execHoldoffExpiry_completes : completes s (execHoldoffExpiry o t s) := by simp [execHoldoffExpiry]
@[simp] theorem raiseSource_held (bit : Nat) : (s.raiseSource o t bit).held = s.held := by simp [State.raiseSource]
@[simp] theorem raiseSources_held (bit : Nat) : (s.raiseSources o bit).held = s.held := by simp [State.raiseSources]
@[simp] theorem writeTrgCtl_held (v : Nat) : (s.writeTrgCtl o t v).held = s.held := by simp [State.writeTrgCtl]
@[simp] theorem execStrobe_completes (v : W32) : completes s (execStrobe o t v s) := by simp [execStrobe]
@[simp] theorem execTrgCntClr_completes (v : W32) : completes s (execTrgCntClr o t v s) := by simp [execTrgCntClr]
@[simp] theorem boundaryProgram_held : (s.boundaryProgram o t).held = s.held := by simp [State.boundaryProgram]

@[simp] theorem loseCaptures_held : (s.loseCaptures o).held = s.held := by
  unfold State.loseCaptures
  refine foldl_held _ (fun u k => ?_) _ _
  split <;> simp

/-! ### Collection orders -/

@[simp] theorem execCollectionOrderSubmit_completes (v : W32) : completes s (execCollectionOrderSubmit o v s) := by
  simp [execCollectionOrderSubmit]

@[simp] theorem execOrder_completes : completes s (execOrder s) := by
  unfold execOrder
  dsimp only
  (repeat' split) <;> simp

@[simp] theorem execTrigger_completes : completes s (execTrigger s) := by
  unfold execTrigger
  split <;> simp

@[simp] theorem readSack_held (k copy : Nat) : (s.readSack o k copy).held = s.held := by
  unfold State.readSack
  split <;> simp

@[simp] theorem execCollectionOrderStart_completes : completes s (execCollectionOrderStart o s) := by
  unfold execCollectionOrderStart
  split <;> simp

@[simp] theorem modRun_held (slot : Nat) (f : RunningOrder → RunningOrder) : (s.modRun o slot f).held = s.held := by simp [State.modRun]

@[simp] theorem deliverOrder_held (x : Order) (round : Round) (bytes : List Byte) : (s.deliverOrder o x round bytes).held = s.held := by
  simp [State.deliverOrder]

@[simp] theorem markPartial_held (slot : Nat) : (s.markPartial o slot).held = s.held := by simp [State.markPartial]

@[simp] theorem skipStream_held (slot sack stream : Nat) (rest : Bool) : (s.skipStream o slot sack stream rest).held = s.held := by
  unfold State.skipStream
  split <;> simp

@[simp] theorem skipRuns_held (slot : Nat) : (s.skipRuns o slot).held = s.held := by simp [State.skipRuns]
@[simp] theorem timedLetter_held (e : Envelope) (w : BitVec 80) : (s.timedLetter o e w).2.held = s.held := by simp [State.timedLetter]

@[simp] theorem timedLetters_held (e : Envelope) (ws : List (BitVec 80)) : (s.timedLetters o e ws).2.held = s.held := by
  induction ws generalizing s with
  | nil => rfl
  | cons w ws ih => simp [State.timedLetters, ih]

@[simp] theorem flushHeld_held (slot : Nat) (more : Bool) : (s.flushHeld o slot more).held = s.held := by
  unfold State.flushHeld
  dsimp only
  split
  · rfl
  · split <;> simp

@[simp] theorem deliverDecoded_held (slot : Nat) (r : RunningOrder) (v : StoredEnv) (ws : List (BitVec 80)) :
    (s.deliverDecoded o slot r v ws).held = s.held := by
  unfold State.deliverDecoded
  dsimp only
  split
  · simp
  · split <;> simp

@[simp] theorem recode_held (slot : Nat) (x : Order) (v : StoredEnv) (ws : List (BitVec 80)) (stream : Nat) (saved : History) :
    (s.recode o slot x v ws stream saved).held = s.held := by
  unfold State.recode
  dsimp only
  split <;> simp

@[simp] theorem deliverCompressed_held (slot sack : Nat) (x : Order) (v : StoredEnv) (ws : List (BitVec 80)) (bytes : List Byte) :
    (s.deliverCompressed o slot sack x v ws bytes).held = s.held := by
  unfold State.deliverCompressed
  split <;> simp

theorem takeUnit_held (slot stream n : Nat) : ∀ u ∈ s.takeUnit o slot stream n, u.held = s.held := by
  unfold State.takeUnit
  split <;> simp

@[simp] theorem takeEnvelope_held (slot sack : Nat) (r : RunningOrder) (v : StoredEnv) (bytes : List Byte) :
    (s.takeEnvelope o slot sack r v bytes).held = s.held := by
  unfold State.takeEnvelope
  dsimp only
  split
  · simp
  split
  · simp
  split
  · rfl
  next u hu =>
    have hu' := takeUnit_held _ _ _ _ _ u hu
    (repeat' split) <;> simp_all

@[simp] theorem takeParcel_held (slot sack : Nat) (round : Round) (r : RunningOrder) (b : List Byte) :
    (s.takeParcel o slot sack round r b).held = s.held := by
  unfold State.takeParcel
  dsimp only
  (repeat' split) <;> simp

@[simp] theorem takeRecord_held (slot sack : Nat) (round : Round) (r : RunningOrder) (b : List Byte) :
    (s.takeRecord o slot sack round r b).held = s.held := by
  unfold State.takeRecord
  dsimp only
  split
  · rfl
  · split
    · simp
    · split <;> simp

@[simp] theorem skipSelected_held (slot sack stream : Nat) (packed : Bool) : (s.skipSelected o slot sack stream packed).held = s.held := by
  unfold State.skipSelected
  split <;> simp

@[simp] theorem leaveSack_held (slot sack : Nat) : (s.leaveSack o slot sack).held = s.held := by simp [State.leaveSack]

@[simp] theorem unreadable_held (slot sack : Nat) (f : ReadFinding) : (s.unreadable o slot sack f).held = s.held := by
  unfold State.unreadable
  split <;> simp

@[simp] theorem entryInFault_held (slot sack : Nat) : (s.entryInFault o slot sack).held = s.held := by simp [State.entryInFault]

@[simp] theorem retryRead_held (slot sack tries : Nat) (f : ReadFinding) : (s.retryRead o slot sack tries f).held = s.held := by
  unfold State.retryRead
  dsimp only
  split
  · simp
  · split <;> simp

@[simp] theorem execStoreReadComplete_completes (slot : Fin 4) (sack gen : W32) (c : Completion) (f : ReadFinding) (rec_ : List Byte) :
    completes s (execStoreReadComplete o slot sack gen c f rec_ s) := by
  unfold execStoreReadComplete
  (repeat' split) <;> simp

@[simp] theorem orderReceipt_held (x : Order) (tag : W16) : (s.orderReceipt o x tag).held = s.held := by simp [State.orderReceipt]

@[simp] theorem execCollectionOrderComplete_completes (slot : Fin 4) : completes s (execCollectionOrderComplete o slot s) := by
  unfold execCollectionOrderComplete
  split <;> simp

@[simp] theorem execColCntClr_completes (v : W32) : completes s (execColCntClr o v s) := by simp [execColCntClr]

/-! ### Validation -/

@[simp] theorem trial_held (image : Bool) (items : List Item) : (s.trial o image items).held = s.held := by simp [State.trial]

/-! ### The book -/

@[simp] theorem refreshFuses_held : (s.refreshFuses o).held = s.held := by simp [State.refreshFuses]
@[simp] theorem setMeas_held (f : Fld) (b : List Byte) : (s.setMeas o f b).held = s.held := by simp [State.setMeas]

@[simp] theorem refreshBook_held (n : Nat) : (s.refreshBook o n).held = s.held := by
  unfold State.refreshBook
  dsimp only
  split <;> simp

@[simp] theorem storeEntry_held (e body : List Byte) : (s.storeEntry o e body).held = s.held := by simp [State.storeEntry]
@[simp] theorem recordEntry_held (x : NewEntry) : (s.recordEntry o x).held = s.held := by simp [State.recordEntry]
@[simp] theorem damageEntry_held : (s.damageEntry o).held = s.held := by simp [State.damageEntry]
@[simp] theorem modNvm_held (f : Nvm → Nvm) : (s.modNvm o f).held = s.held := by simp [State.modNvm]
@[simp] theorem blank_held : (s.blank o).held = s.held := by exact (modSvc_held _ _ rfl).trans (modOff_held _ _ _)

/-! ### The letterbox -/

@[simp] theorem modLb_held (f : Letterbox → Letterbox) : (s.modLb o f).held = s.held := by simp [State.modLb]

@[simp] theorem modLoop_held (k : Nat) (f : BiasLoop → BiasLoop) : (s.modLoop k f).held = s.held := by
  unfold State.modLoop
  split <;> simp

@[simp] theorem respond_held (op : Nat) (tag : W16) (status detail : Nat) (payload : List Byte) :
    (s.respond o op tag status detail payload).held = s.held := by
  simp [State.respond]

@[simp] theorem badRequest_held (op : Nat) (tag : W16) : (s.badRequest o op tag).held = s.held := by simp [State.badRequest]
@[simp] theorem refuseFree_held (op : Nat) (tag : W16) : (s.refuseFree o op tag).held = s.held := by simp [State.refuseFree]

@[simp] theorem request_held (op : Nat) (tag : W16) (permitted : Bool) (act : State → State) (hact : ∀ u, (act u).held = u.held) :
    (s.request o op tag permitted act).held = s.held := by
  simp [State.request, hact]

@[simp] theorem startJob_held (op : Nat) (tag : W16) (w : JobWork) : (s.startJob o op tag w).held = s.held := by simp [State.startJob]
@[simp] theorem endJob_held (refused : Bool) (detail : Nat) : (s.endJob o refused detail).held = s.held := by simp [State.endJob]
@[simp] theorem waitWindow_held (j : LbJob) : (s.waitWindow o j).held = s.held := by simp [State.waitWindow]
@[simp] theorem clampLoop_held (k : Nat) : (s.clampLoop k).held = s.held := by simp [State.clampLoop]
@[simp] theorem applyNow_held (seq : Nat) (items : List Item) : (s.applyNow o seq items).held = s.held := by simp [State.applyNow]

@[simp] theorem applyAmendment_held (seq amdId : Nat) (delta : Bool) (items : List Item) :
    (s.applyAmendment o seq amdId delta items).held = s.held := by
  simp [State.applyAmendment]

@[simp] theorem keepItems_held (e items : List Byte) : (s.keepItems o e items).held = s.held := by simp [State.keepItems]
@[simp] theorem mirrorEntry_held (e items : List Byte) : (s.mirrorEntry o e items).held = s.held := by simp [State.mirrorEntry]

@[simp] theorem amendRefused_held (cause : Nat) (item : Option Nat) : (s.amendRefused o cause item).held = s.held := by
  unfold State.amendRefused
  split <;> simp

@[simp] theorem execAmend_completes (tag : W16) (body : List Byte) : completes s (execAmend o tag body s) := by simp [execAmend]

@[simp] theorem recordAmendment_held (b : List Byte) (its : List Item) : (s.recordAmendment o b its).held = s.held := by
  unfold State.recordAmendment
  split <;> simp

@[simp] theorem refuseAmend_held (cause : Nat) : (s.refuseAmend o cause).held = s.held := by simp [State.refuseAmend]

@[simp] theorem endUpload_held (j : LbJob) (nvmOk : Bool) : (s.endUpload o j nvmOk).held = s.held := by
  unfold State.endUpload
  split <;> simp

@[simp] theorem recordActivate_held (slot : Nat) (trial : Bool) : (s.recordActivate o slot trial).held = s.held := by
  simp [State.recordActivate]

@[simp] theorem activate_held (slot : Nat) (trial : Bool) : (s.activate o slot trial).held = s.held := by simp [State.activate]
@[simp] theorem confirmTrial_held : (s.confirmTrial o).held = s.held := by simp [State.confirmTrial]

@[simp] theorem endRecord_held (j : LbJob) (nvmOk : Bool) (act : State → State) (hact : ∀ u, (act u).held = u.held) :
    (s.endRecord o j nvmOk act).held = s.held := by
  simp [State.endRecord, hact]

@[simp] theorem execLetterboxOversize_completes (bytes : W32) : completes s (execLetterboxOversize o bytes s) := by
  simp [execLetterboxOversize]

@[simp] theorem execDoeAbort_completes : completes s (execDoeAbort o s) := by simp [execDoeAbort]
@[simp] theorem execDoeDiscovery_completes (index : Byte) : completes s (execDoeDiscovery o index s) := by simp [execDoeDiscovery]

@[simp] theorem execLetterboxBadRequest_completes (tag : W16) (op : Byte) : completes s (execLetterboxBadRequest o tag op s) := by
  simp [execLetterboxBadRequest]

@[simp] theorem execPoll_completes (tag : W16) : completes s (execPoll o tag s) := by
  refine (completes_next _ _).2 (request_held _ _ _ _ _ _ fun u => ?_)
  split
  · simp
  · split <;> simp

@[simp] theorem execInfo_completes (tag : W16) : completes s (execInfo o tag s) := by simp [execInfo]

@[simp] theorem execAttest_completes (tag : W16) (nonce : BitVec 512) : completes s (execAttest o tag nonce s) := by
  refine (completes_next _ _).2 (request_held _ _ _ _ _ _ fun u => ?_)
  simp [State.held, State.respond]

@[simp] theorem execUploadBegin_completes (tag : W16) (slot : Byte) (len : W32) (measurement : BitVec 512) :
    completes s (execUploadBegin o tag slot len measurement s) := by
  simp [execUploadBegin]

@[simp] theorem execUploadData_completes (tag : W16) (offset : W32) (data : List Byte) :
    completes s (execUploadData o tag offset data s) := by
  refine (completes_next _ _).2 (request_held _ _ _ _ _ _ fun u => ?_)
  split
  · simp
  · simp

@[simp] theorem execUploadEnd_completes (tag : W16) : completes s (execUploadEnd o tag s) := by simp [execUploadEnd]

@[simp] theorem recordRequest_held (op : Nat) (tag : W16) (w : JobWork) (act : State → State) (hact : ∀ u, (act u).held = u.held) :
    (s.recordRequest o op tag w act).held = s.held := by
  simp [State.recordRequest, hact]

@[simp] theorem execActivate_completes (tag : W16) (slot trial : Byte) : completes s (execActivate o tag slot trial s) := by
  simp [execActivate]

@[simp] theorem execConfirm_completes (tag : W16) : completes s (execConfirm o tag s) := by simp [execConfirm]

@[simp] theorem execBookRead_completes (tag : W16) (seq : W32) (count : W16) : completes s (execBookRead o tag seq count s) := by
  simp [execBookRead]

@[simp] theorem execBookBody_completes (tag : W16) (seq offset len : W32) : completes s (execBookBody o tag seq offset len s) := by
  refine (completes_next _ _).2 (request_held _ _ _ _ _ _ fun u => ?_)
  split
  · simp
  · split <;> simp

@[simp] theorem execSecCntClr_completes (v : W32) : completes s (execSecCntClr o v s) := by simp [execSecCntClr]

/-! ### The ring -/

@[simp] theorem takeOffset_held (p : RingPort) (f : RingFrame) (ofs : Int) : (s.takeOffset p f ofs).held = s.held := by
  simp [State.takeOffset]

@[simp] theorem chooseTiming_held : (s.chooseTiming).held = s.held := by
  unfold State.chooseTiming
  (repeat' split) <;> simp

@[simp] theorem checkDisagree_held : (s.checkDisagree).held = s.held := by simp [State.checkDisagree]
@[simp] theorem movePhase_held (ofs : Int) : (s.movePhase ofs).held = s.held := by simp [State.movePhase]
@[simp] theorem loadCount_held (f : RingFrame) (ofs : Int) : (s.loadCount f ofs).held = s.held := by simp [State.loadCount]
@[simp] theorem approach_held (f : RingFrame) (ofs : Int) : (s.approach f ofs).held = s.held := by simp [State.approach]
@[simp] theorem loadAgain_held : (s.loadAgain).held = s.held := by simp [State.loadAgain]
@[simp] theorem countDiffers_held (ofs : Int) : (s.countDiffers ofs).held = s.held := by simp [State.countDiffers]
@[simp] theorem takeQuality_held (f : RingFrame) : (s.takeQuality f).held = s.held := by simp [State.takeQuality]
@[simp] theorem leaveRhold_held : (s.leaveRhold).held = s.held := by simp [State.leaveRhold]

@[simp] theorem followSync_held (p : RingPort) (f : RingFrame) (fine : Nat) : (s.followSync p f fine).held = s.held := by
  simp [State.followSync]

@[simp] theorem execSyncFrameRx_completes (p : RingPort) (f : RingFrame) (fine : BitVec 7) (residence : BitVec 6) :
    completes s (execSyncFrameRx p f fine residence s) := by
  simp [execSyncFrameRx]

@[simp] theorem execRingHoldover_completes : completes s (execRingHoldover s) := by simp [execRingHoldover]

@[simp] theorem peerSend_held (p : RingPort) (type : Nat) (bs : List Byte) : (s.peerSend p type bs).held = s.held := by
  simp [State.peerSend]

@[simp] theorem execPdreqSend_completes (p : RingPort) : completes s (execPdreqSend p s) := by simp [execPdreqSend]

@[simp] theorem execPdreqRx_completes (p : RingPort) (f : RingFrame) (t2 t3 : W64) : completes s (execPdreqRx p f t2 t3 s) := by
  simp [execPdreqRx]

@[simp] theorem peerRejected_held (p : RingPort) (peer : Nat) : (s.peerRejected p peer).held = s.held := by
  unfold State.peerRejected
  dsimp only
  split <;> simp

@[simp] theorem delaySample_held (p : RingPort) (d : Int) : (s.delaySample p d).held = s.held := by simp [State.delaySample]

@[simp] theorem execPdrespRx_completes (p : RingPort) (f : RingFrame) (t4 : W64) : completes s (execPdrespRx p f t4 s) := by
  refine (completes_next _ _).2 (ringRx_held _ _ _ _ _ fun u => ?_)
  dsimp only
  split
  · rfl
  · simp

@[simp] theorem execRingPortTrainingPass_completes (p : RingPort) (peer : Byte) : completes s (execRingPortTrainingPass p peer s) := by
  simp [execRingPortTrainingPass]

@[simp] theorem execRingPortOpen_completes (p : RingPort) (peer : Option Byte) : completes s (execRingPortOpen p peer s) := by
  unfold execRingPortOpen
  (repeat' split) <;> simp

@[simp] theorem execRingPortErrors_completes (p : RingPort) : completes s (execRingPortErrors p s) := by simp [execRingPortErrors]
@[simp] theorem execRingPortRetry_completes (p : RingPort) : completes s (execRingPortRetry p s) := by simp [execRingPortRetry]
@[simp] theorem ringCtl_held (v : Nat) : (s.ringCtl o v).held = s.held := by simp [State.ringCtl]
@[simp] theorem execRetrainE_completes (v : W32) : completes s (execRetrainE o v s) := by simp [execRetrainE]
@[simp] theorem execRetrainW_completes (v : W32) : completes s (execRetrainW o v s) := by simp [execRetrainW]
@[simp] theorem execRingCntClr_completes (v : W32) : completes s (execRingCntClr o v s) := by simp [execRingCntClr]
@[simp] theorem execWrapExpiry_completes : completes s (execWrapExpiry s) := by simp [execWrapExpiry]
@[simp] theorem execBcastRx_completes (p : RingPort) (f : RingFrame) : completes s (execBcastRx p f s) := by simp [execBcastRx]

@[simp] theorem runDue_held (op : Nat) (act : State → Bcast → State) (hact : ∀ u b, (act u b).held = u.held) :
    (s.runDue op act).held = s.held := by
  unfold State.runDue
  split <;> simp [hact]

@[simp] theorem execSnapshot_completes : completes s (execSnapshot s) := by
  refine (completes_next _ _).2 (runDue_held _ _ _ fun u b => ?_)
  split
  · rfl
  · simp

@[simp] theorem clearAllCounters_held : (s.clearAllCounters o).held = s.held := by simp [State.clearAllCounters]

@[simp] theorem execReset_completes : completes s (execReset s) := by
  refine (completes_next _ _).2 (runDue_held _ _ _ fun u b => ?_)
  split
  · rfl
  · simp

@[simp] theorem smCommand_held (v : Nat) : (s.smCommand o v).held = s.held := by simp [State.smCommand]
@[simp] theorem execSmRequestSnapshot_completes (v : W32) : completes s (execSmRequestSnapshot o v s) := by simp [execSmRequestSnapshot]
@[simp] theorem execSmRequestReset_completes (v : W32) : completes s (execSmRequestReset o v s) := by simp [execSmRequestReset]
@[simp] theorem execSmRequestFlash_completes (v : W32) : completes s (execSmRequestFlash o v s) := by simp [execSmRequestFlash]
@[simp] theorem execSmRequestMode_completes (v : W32) : completes s (execSmRequestMode o v s) := by simp [execSmRequestMode]
@[simp] theorem barrierTold_held (bid : Nat) : (s.barrierTold bid).held = s.held := by simp [State.barrierTold]
@[simp] theorem execBarrierStart_completes (v : W32) : completes s (execBarrierStart o v s) := by simp [execBarrierStart]
@[simp] theorem execBarrierRx_completes (p : RingPort) (f : RingFrame) : completes s (execBarrierRx p f s) := by simp [execBarrierRx]
@[simp] theorem execBarrierTimeout_completes : completes s (execBarrierTimeout s) := by simp [execBarrierTimeout]

/-! ### The twin offices -/

@[simp] theorem sendHeartbeat_held : (s.sendHeartbeat o).held = s.held := by simp [State.sendHeartbeat]
@[simp] theorem noteFlags_held : (s.noteFlags o).held = s.held := by simp [State.noteFlags]
@[simp] theorem refreshTwin_held : (s.refreshTwin o).held = s.held := by simp [State.refreshTwin]
@[simp] theorem execHeartbeatSend_completes : completes s (execHeartbeatSend o s) := by simp [execHeartbeatSend]
@[simp] theorem revote_held : (s.revote t).held = s.held := by simp [State.revote]

@[simp] theorem execDlHeartbeatRx_completes (f : DlFrame) : completes s (execDlHeartbeatRx t o f s) := by
  unfold execDlHeartbeatRx
  split <;> simp

@[simp] theorem execHeartbeatAgeExpiry_completes : completes s (execHeartbeatAgeExpiry t o s) := by simp [execHeartbeatAgeExpiry]

@[simp] theorem inheritStore_held : (s.inheritStore o).held = s.held := by
  unfold State.inheritStore
  split <;> simp

@[simp] theorem prepareStore_held (first : Nat) : (s.prepareStore o first).1.held = s.held := by
  unfold State.prepareStore
  dsimp only
  (repeat' split) <;> simp

@[simp] theorem allowWrites_held : (s.allowWrites o).held = s.held := by simp [State.allowWrites]

@[simp] theorem takeRunState_held : (s.takeRunState o).held = s.held := by
  unfold State.takeRunState
  split <;> simp

@[simp] theorem loadTiles_held : (s.loadTiles o).held = s.held := by simp [State.loadTiles]
@[simp] theorem keyEveryStream_held : (s.keyEveryStream o).held = s.held := by simp [State.keyEveryStream]
@[simp] theorem markGaps_held (first : Nat) : (s.markGaps o first).held = s.held := by simp [State.markGaps]
@[simp] theorem gainOwnership_held : (s.gainOwnership o).held = s.held := by simp [State.gainOwnership]
@[simp] theorem returnBuffers_held : (s.returnBuffers o).held = s.held := by simp [State.returnBuffers]
@[simp] theorem ceaseOwnership_held (cause : Nat) : (s.ceaseOwnership o cause).held = s.held := by simp [State.ceaseOwnership]
@[simp] theorem refreshVotes_held : (s.refreshVotes o).held = s.held := by simp [State.refreshVotes]
@[simp] theorem noteOwner_held : (s.noteOwner o).held = s.held := by simp [State.noteOwner]
@[simp] theorem execOwnershipEvaluation_completes : completes s (execOwnershipEvaluation o s) := by simp [execOwnershipEvaluation]
@[simp] theorem execStartGraceExpiry_completes : completes s (execStartGraceExpiry o s) := by simp [execStartGraceExpiry]

/-! ### The inter-office link and handovers -/

theorem takeLink_held (type : Nat) (f : LinkFrame) (act : W64 → State) (hact : ∀ w, (act w).held = s.held) :
    (s.takeLink o type f act).held = s.held := by
  unfold State.takeLink
  (repeat' split) <;> simp [hact]

@[simp] theorem requestResync_held : (s.requestResync o).held = s.held := by exact (emit_held _ _).trans (modTwin_held _ _ _)
@[simp] theorem startHandover_held : (s.startHandover o).held = s.held := by simp [State.startHandover]
@[simp] theorem askHandover_held : (s.askHandover o).held = s.held := by simp [State.askHandover]
@[simp] theorem stopMergeAt_held (n : Nat) : (s.stopMergeAt o n).held = s.held := by simp [State.stopMergeAt]
@[simp] theorem takeHandoverFlags_held (w : W64) : (s.takeHandoverFlags o w).held = s.held := by simp [State.takeHandoverFlags]
@[simp] theorem dualClaim_held (w : W64) : (s.dualClaim o w).held = s.held := by simp [State.dualClaim]

@[simp] theorem heartbeatHandover_held (w : W64) (asked : Bool) : (s.heartbeatHandover o w asked).held = s.held := by
  simp [State.heartbeatHandover]

@[simp] theorem execLinkHeartbeatRx_completes (f : LinkFrame) : completes s (execLinkHeartbeatRx o f s) := by
  refine (completes_next _ _).2 (takeLink_held _ _ _ _ _ fun w => ?_)
  simp

@[simp] theorem execLinkHeartbeatTimeout_completes : completes s (execLinkHeartbeatTimeout o s) := by simp [execLinkHeartbeatTimeout]

@[simp] theorem applyRetirement_held (array page spare : Nat) : (s.applyRetirement o array page spare).held = s.held := by
  simp [State.applyRetirement]

@[simp] theorem applyMirrored_held (e part : List Byte) : (s.applyMirrored o e part).held = s.held := by simp [State.applyMirrored]
@[simp] theorem bookConflict_held (seq : Nat) : (s.bookConflict o seq).held = s.held := by simp [State.bookConflict]

@[simp] theorem takeEntry_held (b : List Byte) : (s.takeEntry o b).held = s.held := by
  unfold State.takeEntry
  dsimp only
  split <;> simp

@[simp] theorem compareOffices_held : (s.compareOffices o).held = s.held := by
  unfold State.compareOffices
  dsimp only
  split <;> simp

@[simp] theorem resyncDone_held : (s.resyncDone o).held = s.held := by
  unfold State.resyncDone
  dsimp only
  split <;> simp

@[simp] theorem takeItem_held (kind : Nat) (ws : List W64) : (s.takeItem o kind ws).held = s.held := by
  unfold State.takeItem
  dsimp only
  (repeat' split) <;> simp

@[simp] theorem execMirrorItemRx_completes (f : LinkFrame) : completes s (execMirrorItemRx o f s) := by
  refine (completes_next _ _).2 (takeLink_held _ _ _ _ _ fun w => ?_)
  extract_lets m x ack u v
  have hack (u : State) : (ack u).held = u.held := emit_held _ _
  have hv : v.held = s.held := by simp [v, u]
  clear_value ack m x v
  simp [hack, hv]

@[simp] theorem execMirrorAckRx_completes (f : LinkFrame) : completes s (execMirrorAckRx o f s) := by
  refine (completes_next _ _).2 (takeLink_held _ _ _ _ _ fun w => ?_)
  simp

@[simp] theorem execMirrorRetransmit_completes : completes s (execMirrorRetransmit o s) := by
  unfold execMirrorRetransmit
  split <;> simp

@[simp] theorem mirrorPositions_held : (s.mirrorPositions o).held = s.held := by simp [State.mirrorPositions]

@[simp] theorem execResyncRequestRx_completes (f : LinkFrame) : completes s (execResyncRequestRx o f s) := by
  refine (completes_next _ _).2 (takeLink_held _ _ _ _ _ fun w => ?_)
  simp

@[simp] theorem writeTwnCtl_held (v : Nat) : (s.writeTwnCtl o v).held = s.held := by simp [State.writeTwnCtl]
@[simp] theorem execHandover_completes (v : W32) : completes s (execHandover o v s) := by simp [execHandover]
@[simp] theorem execClearHealth_completes (v : W32) : completes s (execClearHealth o v s) := by simp [execClearHealth]
@[simp] theorem execResync_completes (v : W32) : completes s (execResync o v s) := by simp [execResync]
@[simp] theorem execHandoverRequestEnd_completes : completes s (execHandoverRequestEnd o s) := by simp [execHandoverRequestEnd]
@[simp] theorem execFailbackTimer_completes : completes s (execFailbackTimer o s) := by simp [execFailbackTimer]

@[simp] theorem execHandoverAcceptTimeout_completes : completes s (execHandoverAcceptTimeout o s) := by
  unfold execHandoverAcceptTimeout
  split <;> simp

@[simp] theorem settleHandover_held : (s.settleHandover o).held = s.held := by
  unfold State.settleHandover
  split <;> simp

@[simp] theorem endHandover_held (n lost : Nat) : (s.endHandover o n lost).held = s.held := by simp [State.endHandover]

@[simp] theorem execHandoverReleaseComplete_completes : completes s (execHandoverReleaseComplete o s) := by
  unfold execHandoverReleaseComplete
  split <;> simp

@[simp] theorem execHandoverTimeout_completes : completes s (execHandoverTimeout o s) := by
  unfold execHandoverTimeout
  split <;> simp

@[simp] theorem selfTestFails_held (id : Nat) (engine : Option Nat) : (s.selfTestFails o id engine).held = s.held := by
  unfold State.selfTestFails
  split <;> simp

@[simp] theorem selfTestCycle_held : (s.selfTestCycle o).held = s.held := by simp [State.selfTestCycle]
@[simp] theorem roundSelfTests_held (fail : Nat) : (s.roundSelfTests o fail).held = s.held := by simp [State.roundSelfTests]

@[simp] theorem execSignatureSelfTest_completes (pass : Bool) : completes s (execSignatureSelfTest o pass s) := by
  simp [execSignatureSelfTest]

@[simp] theorem execTwnCntClr_completes (v : W32) : completes s (execTwnCntClr o v s) := by simp [execTwnCntClr]

/-! ### The bias loops -/

@[simp] theorem setLoopState_held (k new : Nat) : (s.setLoopState k new).held = s.held := by simp [State.setLoopState]
@[simp] theorem endStop_held (k : Nat) : (s.endStop k).held = s.held := by simp [State.endStop]
@[simp] theorem startStop_held (k : Nat) (trip : Bool) : (s.startStop k trip).held = s.held := by simp [State.startStop]
@[simp] theorem loopOffNow_held (k : Nat) : (s.loopOffNow k).held = s.held := by simp [State.loopOffNow]
@[simp] theorem holdLoop_held (k cause : Nat) : (s.holdLoop k cause).held = s.held := by simp [State.holdLoop]
@[simp] theorem enterManual_held (k : Nat) : (s.enterManual k).held = s.held := by simp [State.enterManual]
@[simp] theorem enterAuto_held (k : Nat) : (s.enterAuto k).held = s.held := by simp [State.enterAuto]

@[simp] theorem loopWrite_held (addr v k kind : Nat) (kept : Option Fld) : (s.loopWrite o addr v k kind kept).held = s.held := by
  unfold State.loopWrite
  (repeat' split) <;> simp

@[simp] theorem execLoopRequestOff_completes (k : Fin 2) (v : W32) : completes s (execLoopRequestOff o k v s) := by
  simp [execLoopRequestOff]

@[simp] theorem execLoopRequestManual_completes (k : Fin 2) (v : W32) : completes s (execLoopRequestManual o k v s) := by
  simp [execLoopRequestManual]

@[simp] theorem execLoopRequestAuto_completes (k : Fin 2) (v : W32) : completes s (execLoopRequestAuto o k v s) := by
  simp [execLoopRequestAuto]

@[simp] theorem execAck_completes (k : Fin 2) (v : W32) : completes s (execAck o k v s) := by simp [execAck]

@[simp] theorem execLoopSetpointWrite_completes (k : Fin 2) (v : W32) : completes s (execLoopSetpointWrite o k v s) := by
  simp [execLoopSetpointWrite]

@[simp] theorem execLoopManVWrite_completes (k : Fin 2) (v : W32) : completes s (execLoopManVWrite o k v s) := by simp [execLoopManVWrite]
@[simp] theorem loopValue_held (k : Nat) (f : Fld) (v : Nat) : (s.loopValue k f v).held = s.held := by simp [State.loopValue]
@[simp] theorem loopCommand_held (k v : Nat) : (s.loopCommand k v).held = s.held := by simp [State.loopCommand]

@[simp] theorem applyLoopWrites_held (k : Nat) : (s.applyLoopWrites k).held = s.held := by
  unfold State.applyLoopWrites
  dsimp only
  refine (foldl_held _ (fun u x => ?_) _ _).trans (by simp)
  split <;> simp

@[simp] theorem sampleElectrometer_held (k : Nat) (x : LoopSample) : (s.sampleElectrometer k x).held = s.held := by
  simp [State.sampleElectrometer]

@[simp] theorem sampleLoop_held (k : Nat) (x : LoopSample) : (s.sampleLoop k x).held = s.held := by simp [State.sampleLoop]

@[simp] theorem feedbackNotice_held (k cause : Nat) : (s.feedbackNotice k cause).held = s.held := by
  unfold State.feedbackNotice
  split <;> simp

@[simp] theorem superviseLoop_held (k : Nat) (x : LoopSample) : (s.superviseLoop k x).held = s.held := by
  unfold State.superviseLoop
  split
  · rfl
  extract_lets bad u f present new v w
  have hv : v.held = s.held := by simp [v, u]
  have hw : w.held = v.held := by
    clear_value present new
    unfold w
    split <;> split <;> simp
  exact (foldl_held _ (fun u c => feedbackNotice_held _ _ _) _ _).trans (hw.trans hv)

@[simp] theorem rampLoop_held (k : Nat) : (s.rampLoop k).held = s.held := by simp [State.rampLoop]
@[simp] theorem clearRep_held (k cause : Nat) : (s.clearRep k cause).held = s.held := by simp [State.clearRep]
@[simp] theorem checkRep_held (k : Nat) : (s.checkRep k).held = s.held := by simp [State.checkRep]
@[simp] theorem learnRep_held (k : Nat) (ef : Int) : (s.learnRep k ef).held = s.held := by simp [State.learnRep]
@[simp] theorem runController_held (k : Nat) : (s.runController k).held = s.held := by simp [State.runController]
@[simp] theorem driveLoop_held (k : Nat) : (s.driveLoop k).held = s.held := by simp [State.driveLoop]
@[simp] theorem settleStop_held (k : Nat) : (s.settleStop k).held = s.held := by simp [State.settleStop]
@[simp] theorem periodOf_held (k : Nat) (x : LoopSample) : (s.periodOf k x).held = s.held := by simp [State.periodOf]
@[simp] theorem driveGuard_held (g : Nat) (limited : Bool) : (s.driveGuard g limited).held = s.held := by simp [State.driveGuard]

@[simp] theorem execBiasSamplePeriod_completes (l0 l1 : LoopSample) (guardOver : BitVec 4) :
    completes s (execBiasSamplePeriod l0 l1 guardOver s) := by
  simp [execBiasSamplePeriod]

@[simp] theorem execLoopStopTimer_completes (k : Fin 2) : completes s (execLoopStopTimer k s) := by simp [execLoopStopTimer]

@[simp] theorem gateCurrent_held (k : Nat) : (s.gateCurrent k).2.held = s.held := by
  unfold State.gateCurrent
  dsimp only
  split
  · rfl
  · split <;> simp

@[simp] theorem gtabAt_held (k : Nat) (v : Rat) : (s.gtabAt k v).2.held = s.held := by
  unfold State.gtabAt
  dsimp only
  split <;> simp

@[simp] theorem leakage_held (k : Nat) (imeas : Int) (ranging : Bool) : (s.leakage k imeas ranging).2.held = s.held := by
  unfold State.leakage
  split <;> simp

@[simp] theorem leakageFails_held (k res : Nat) (imeas iexp : Int) : (s.leakageFails k res imeas iexp).held = s.held := by
  unfold State.leakageFails
  dsimp only
  split <;> simp

@[simp] theorem checkLeakage_held (k : Nat) (imeas : Int) (ranging : Bool) : (s.checkLeakage k imeas ranging).held = s.held := by
  simp [State.checkLeakage]

@[simp] theorem tripLoop_held (k : Nat) (imeas : Int) : (s.tripLoop k imeas).held = s.held := by simp [State.tripLoop]

@[simp] theorem execElectrometerGateEnd_completes (k : Fin 2) : completes s (execElectrometerGateEnd k s) := by
  simp [execElectrometerGateEnd]

@[simp] theorem execLoopCntClr_completes (k : Fin 2) (v : W32) : completes s (execLoopCntClr o k v s) := by simp [execLoopCntClr]

/-! ### Environment, auxiliary inputs, status loop -/

@[simp] theorem modEnv_held (f : EnvScan → EnvScan) : (s.modEnv f).held = s.held := by simp [State.modEnv]
@[simp] theorem visit_held (chan : Nat) : (s.visit chan).held = s.held := by simp [State.visit]
@[simp] theorem supplySample_held (chan : Nat) (sum : Int) : (s.supplySample chan sum).held = s.held := by simp [State.supplySample]
@[simp] theorem sumSample_held (code : Int) : (s.sumSample code).held = s.held := by simp [State.sumSample]

@[simp] theorem execHousekeepingSample_completes (code : BitVec 12) (compliance : Bool) :
    completes s (execHousekeepingSample code compliance s) := by
  simp [execHousekeepingSample]

@[simp] theorem modPoint_held (i : Nat) (f : EnvPoint → EnvPoint) : (s.modPoint i f).held = s.held := by simp [State.modPoint]
@[simp] theorem refreshPoint_held (i : Nat) : (s.refreshPoint i).held = s.held := by simp [State.refreshPoint]
@[simp] theorem setPointFlag_held (i b : Nat) (on : Bool) : (s.setPointFlag i b on).held = s.held := by simp [State.setPointFlag]
@[simp] theorem pointResult_held (i : Nat) : (s.pointResult i).held = s.held := by simp [State.pointResult]
@[simp] theorem execPointCycleEnd_completes : completes s (execPointCycleEnd s) := by simp [execPointCycleEnd]
@[simp] theorem execSwap_completes (v : W32) : completes s (execSwap o v s) := by simp [execSwap]
@[simp] theorem checkReference_held : (s.checkReference).held = s.held := by simp [State.checkReference]
@[simp] theorem setDisagree_held (i j : Nat) (on : Bool) : (s.setDisagree i j on).held = s.held := by simp [State.setDisagree]
@[simp] theorem comparePair_held (i j : Nat) : (s.comparePair i j).held = s.held := by simp [State.comparePair]
@[simp] theorem comparePairs_held : (s.comparePairs).held = s.held := by simp [State.comparePairs]
@[simp] theorem checkStatusLoop_held : (s.checkStatusLoop).held = s.held := by simp [State.checkStatusLoop]
@[simp] theorem agePoints_held (n : Nat) : (s.agePoints n).held = s.held := by simp [State.agePoints]
@[simp] theorem execScanEnd_completes : completes s (execScanEnd s) := by simp [execScanEnd]
@[simp] theorem execEnvCntClr_completes (v : W32) : completes s (execEnvCntClr o v s) := by simp [execEnvCntClr]
@[simp] theorem modAux_held (f : Aux → Aux) : (s.modAux o f).held = s.held := by simp [State.modAux]
@[simp] theorem edgeToLoops_held (x tick : Nat) : (s.edgeToLoops x tick).held = s.held := by simp [State.edgeToLoops]

@[simp] theorem meterEdge_held (x : Nat) (e : AuxStamp) : (s.meterEdge o x e).held = s.held := by
  unfold State.meterEdge
  dsimp only
  (repeat' split) <;> simp

@[simp] theorem pushInterval_held (d : Nat) (sub : Bool) : (s.pushInterval o d sub).held = s.held := by simp [State.pushInterval]

@[simp] theorem dropOldStart_held (tick : Nat) : (s.dropOldStart o tick).held = s.held := by
  unfold State.dropOldStart
  split <;> simp

@[simp] theorem stopEdge_held (e : AuxStamp) (periods : Bool) : (s.stopEdge o e periods).held = s.held := by
  unfold State.stopEdge
  split <;> simp

@[simp] theorem startEdge_held (e : AuxStamp) : (s.startEdge o e).held = s.held := by simp [State.startEdge]
@[simp] theorem settleInterval_held : (s.settleInterval o).held = s.held := by simp [State.settleInterval]

@[simp] theorem intervalEdge_held (x : Nat) (falling : Bool) (e : AuxStamp) : (s.intervalEdge o x falling e).held = s.held := by
  simp [State.intervalEdge]

@[simp] theorem execAuxEdge_completes (x falling : Bool) (tick : W64) (fine : BitVec 7) :
    completes s (execAuxEdge o x falling tick fine s) := by
  simp [execAuxEdge]

@[simp] theorem execIntervalStartTimeout_completes : completes s (execIntervalStartTimeout o s) := by simp [execIntervalStartTimeout]
@[simp] theorem readInterval_held : (s.readInterval o).held = s.held := by simp [State.readInterval]
@[simp] theorem execIntervalRead_completes : completes s (execIntervalRead o s) := by simp [execIntervalRead]
@[simp] theorem execAuxCntClr_completes (x : Bool) (v : W32) : completes s (execAuxCntClr o x v s) := by simp [execAuxCntClr]
@[simp] theorem execAuxIvlClr_completes (v : W32) : completes s (execAuxIvlClr o v s) := by simp [execAuxIvlClr]

@[simp] theorem execFrequencyUpdate_completes (x : Bool) : completes s (execFrequencyUpdate o x s) := by
  unfold execFrequencyUpdate
  dsimp only
  (repeat' split) <;> simp

@[simp] theorem newFrequency_held (k : Nat) (f : Option Nat) : (s.newFrequency k f).held = s.held := by
  unfold State.newFrequency
  split <;> simp

@[simp] theorem execFrequencyHandoff_completes (x : Bool) : completes s (execFrequencyHandoff o x s) := by simp [execFrequencyHandoff]
@[simp] theorem modSl_held (f : StatusLoop → StatusLoop) : (s.modSl f).held = s.held := by simp [State.modSl]
@[simp] theorem endForce_held : (s.endForce).held = s.held := by simp [State.endForce]
@[simp] theorem execStatusLoopUpdate_completes : completes s (execStatusLoopUpdate s) := by simp [execStatusLoopUpdate]
@[simp] theorem writeForce_held (v : Nat) : (s.writeForce o v).held = s.held := by simp [State.writeForce]
@[simp] theorem execSlForceWrite_completes (v : W32) : completes s (execSlForceWrite o v s) := by simp [execSlForceWrite]
@[simp] theorem execSlForceExpiry_completes : completes s (execSlForceExpiry s) := by simp [execSlForceExpiry]

/-! ### The emitters -/

@[simp] theorem modEmt_held (f : Emitter → Emitter) : (s.modEmt f).held = s.held := by simp [State.modEmt]
@[simp] theorem setEmitter_held (e v : Nat) : (s.setEmitter e v).held = s.held := by simp [State.setEmitter]
@[simp] theorem verifyPulse_held (e : Nat) (seen : Bool) : (s.verifyPulse e seen).held = s.held := by simp [State.verifyPulse]
@[simp] theorem endSlot_held (f : Flash) (upto : Nat) (x : FlashSlot × Nat) : (s.endSlot f upto x).held = s.held := by simp [State.endSlot]

@[simp] theorem endFlash_held (upto : Nat) (cut suppressed : Bool) : (s.endFlash upto cut suppressed).held = s.held := by
  unfold State.endFlash
  split <;> simp

@[simp] theorem suppressNow_held : (s.suppressNow).held = s.held := by
  unfold State.suppressNow
  split <;> simp

@[simp] theorem swapBuffers_held : (s.swapBuffers).held = s.held := by simp [State.swapBuffers]

@[simp] theorem setRun_held (r : Option FlashRun) : (s.setRun r).held = s.held := by
  unfold State.setRun
  split <;> simp

@[simp] theorem settleEmitter_held : (s.settleEmitter).held = s.held := by
  unfold State.settleEmitter
  dsimp only
  (repeat' split) <;> simp

@[simp] theorem missFlash_held (seq tick : Nat) : (s.missFlash seq tick).held = s.held := by simp [State.missFlash]
@[simp] theorem checkShut_held : (s.checkShut).held = s.held := by simp [State.checkShut]
@[simp] theorem resumePulsing_held : (s.resumePulsing).held = s.held := by simp [State.resumePulsing]

@[simp] theorem fireFlash_held (r : FlashRun) (f0 : Nat) (noCurrent : List Byte) (overCurrent : W16) :
    (s.fireFlash r f0 noCurrent overCurrent).held = s.held := by
  unfold State.fireFlash
  dsimp only
  split <;> simp

@[simp] theorem execFlashStart_completes (noCurrent : List Byte) (overCurrent : W16) :
    completes s (execFlashStart noCurrent overCurrent s) := by
  unfold execFlashStart
  dsimp only
  split <;> simp

@[simp] theorem busyFlash_held (source seq : Nat) : (s.busyFlash source seq).held = s.held := by simp [State.busyFlash]
@[simp] theorem startSequence_held (seq : Nat) : (s.startSequence seq).held = s.held := by simp [State.startSequence]
@[simp] theorem writeEmtCtl_held (v : Nat) : (s.writeEmtCtl o v).held = s.held := by simp [State.writeEmtCtl]
@[simp] theorem execGo_completes (v : W32) : completes s (execGo o v s) := by simp [execGo]
@[simp] theorem execBufferSwap_completes (v : W32) : completes s (execBufferSwap o v s) := by simp [execBufferSwap]
@[simp] theorem execRowClr_completes (v : W32) : completes s (execRowClr o v s) := by simp [execRowClr]
@[simp] theorem execFlashSyncEdge_completes : completes s (execFlashSyncEdge s) := by simp [execFlashSyncEdge]
@[simp] theorem execFlash_completes : completes s (execFlash s) := by simp [execFlash]
@[simp] theorem execVerAgeExpiry_completes (emitter : Byte) : completes s (execVerAgeExpiry emitter s) := by simp [execVerAgeExpiry]
@[simp] theorem execEmtCntClr_completes (v : W32) : completes s (execEmtCntClr o v s) := by simp [execEmtCntClr]
@[simp] theorem execFlashReportRx_completes (r : FlashReport) : completes s (execFlashReportRx o r s) := by simp [execFlashReportRx]

/-! ### Page commands -/

@[simp] theorem refusePage_held (v res : Nat) : (s.refusePage o v res).held = s.held := by simp [State.refusePage]
@[simp] theorem retireOwn_held (a page spare : Nat) : (s.retireOwn o a page spare).held = s.held := by simp [State.retireOwn]
@[simp] theorem recordRetire_held (v : Nat) : (s.recordRetire o v).held = s.held := by simp [State.recordRetire]
@[simp] theorem retireUnrecorded_held (v : Nat) : (s.retireUnrecorded o v).held = s.held := by simp [State.retireUnrecorded]
@[simp] theorem runRetire_held (v : Nat) : (s.runRetire o v).held = s.held := by simp [State.runRetire]
@[simp] theorem startRetire_held (v : Nat) : (s.startRetire o v).held = s.held := by simp [State.startRetire]

@[simp] theorem resumeRetire_held : (s.resumeRetire o).held = s.held := by
  unfold State.resumeRetire
  split <;> simp

@[simp] theorem expireRetire_held : (s.expireRetire o).held = s.held := by
  unfold State.expireRetire
  split <;> simp

@[simp] theorem startRefresh_held (v : Nat) : (s.startRefresh o v).held = s.held := by simp [State.startRefresh]
@[simp] theorem writePageCmd_held (v : Nat) : (s.writePageCmd o v).held = s.held := by simp [State.writePageCmd]
@[simp] theorem execRefresh_completes (v : W32) : completes s (execRefresh o v s) := by simp [execRefresh]
@[simp] theorem execRetire_completes (v : W32) : completes s (execRetire o v s) := by simp [execRetire]

/-! ### Calibration -/

@[simp] theorem modCal_held (f : CalSvc → CalSvc) : (s.modCal o f).held = s.held := by simp [State.modCal]

@[simp] theorem takeCell_held (x : State × Sparse Int × Nat) (ch : Nat) : (State.takeCell o x ch).1.held = x.1.held := by
  unfold State.takeCell
  dsimp only
  split <;> simp

@[simp] theorem takeWalk_held (x : State × Sparse Int) (table : Nat) : (State.takeWalk o x table).1.held = x.1.held := by
  refine foldl_fst_held _ (fun x k => ?_) _ _
  dsimp only
  split <;> simp

@[simp] theorem cellItem_held (steps : Sparse Int) (dm : Int) : (s.cellItem o steps dm).1.held = s.held := by
  unfold State.cellItem
  dsimp only
  split
  · rfl
  · refine foldl_fst_held _ (fun x k => ?_) _ _
    dsimp only
    split <;> simp

@[simp] theorem campaignItems_held : (s.campaignItems o).1.held = s.held := by simp [State.campaignItems]
@[simp] theorem waitDelta_held : (s.waitDelta o).held = s.held := by simp [State.waitDelta]
@[simp] theorem recordDelta_held (items : List Item) : (s.recordDelta o items).held = s.held := by simp [State.recordDelta]
@[simp] theorem dropDelta_held : (s.dropDelta o).held = s.held := by simp [State.dropDelta]
@[simp] theorem applyCampaign_held : (s.applyCampaign o).held = s.held := by simp [State.applyCampaign]
@[simp] theorem settleDelta_held : (s.settleDelta o).held = s.held := by simp [State.settleDelta]
@[simp] theorem startCampaign_held : (s.startCampaign o).held = s.held := by simp [State.startCampaign]
@[simp] theorem beginApply_held : (s.beginApply o).held = s.held := by simp [State.beginApply]
@[simp] theorem writeCalCtl_held (v : Nat) : (s.writeCalCtl o v).held = s.held := by simp [State.writeCalCtl]
@[simp] theorem execStart_completes (v : W32) : completes s (execStart o v s) := by simp [execStart]
@[simp] theorem execStop_completes (v : W32) : completes s (execStop o v s) := by simp [execStop]
@[simp] theorem execApply_completes (v : W32) : completes s (execApply o v s) := by simp [execApply]
@[simp] theorem execDiscard_completes (v : W32) : completes s (execDiscard o v s) := by simp [execDiscard]
@[simp] theorem execEvaluationDone_completes : completes s (execEvaluationDone o s) := by simp [execEvaluationDone]
@[simp] theorem execCodeDensityPassEnd_completes : completes s (execCodeDensityPassEnd o s) := by simp [execCodeDensityPassEnd]

@[simp] theorem expireJob_held : (s.expireJob o).held = s.held := by
  unfold State.expireJob
  dsimp only
  (repeat' split) <;> simp

@[simp] theorem expireDelta_held : (s.expireDelta o).held = s.held := by
  unfold State.expireDelta
  split <;> simp

@[simp] theorem execNvmWindowWaitExpiry_completes : completes s (execNvmWindowWaitExpiry o s) := by simp [execNvmWindowWaitExpiry]

@[simp] theorem execNvmWindowOpen_completes : completes s (execNvmWindowOpen o s) := by
  unfold execNvmWindowOpen
  dsimp only
  split
  · simp
  · split <;> simp

/-! ### Reset and Loading -/

@[simp] theorem checkBypass_held : (s.checkBypass).held = s.held := by simp [State.checkBypass]
@[simp] theorem resetOffice_held : (s.resetOffice o).held = s.held := by simp [State.resetOffice]
@[simp] theorem resetTile_held : (s.resetTile t).held = s.held := by simp [State.resetTile]
@[simp] theorem resetService_held : (s.resetService).held = s.held := by simp [State.resetService]
@[simp] theorem resetModule_held : (s.resetModule).held = s.held := by simp [State.resetModule]
@[simp] theorem modPwr_held (f : Power → Power) : (s.modPwr f).held = s.held := by simp [State.modPwr]
@[simp] theorem readBook_held : (s.readBook o).held = s.held := by simp [State.readBook]
@[simp] theorem openVolume_held : (s.openVolume o).held = s.held := by simp [State.openVolume]

@[simp] theorem checkVolume_held (x : ImageSlot) (canRecord : Bool) : (s.checkVolume o x canRecord).held = s.held := by
  simp [State.checkVolume]

@[simp] theorem reapplyItems_held (seq : Nat) (items : List Item) : (s.reapplyItems o seq items).held = s.held := by
  simp [State.reapplyItems]

@[simp] theorem reapply_held (x : State × Bool) (e : List Byte) : (State.reapply o x e).1.held = x.1.held := by
  unfold State.reapply
  split <;> simp

@[simp] theorem slotFailed_held (slot cause : Nat) : (s.slotFailed o slot cause).held = s.held := by simp [State.slotFailed]

@[simp] theorem runImage_held (slot : Nat) (canRecord : Bool) : (s.runImage o slot canRecord).held = s.held := by
  unfold State.runImage
  simp

@[simp] theorem selectSlot_held (canRecord : Bool) : (s.selectSlot o canRecord).1.held = s.held := by
  unfold State.selectSlot
  dsimp only
  split <;> simp

@[simp] theorem runSlot_held (slot : Nat) (canRecord : Bool) : (s.runSlot o slot canRecord).held = s.held := by simp [State.runSlot]
@[simp] theorem load_held (fail : Nat → Bool) : (s.load o fail).held = s.held := by simp [State.load]
@[simp] theorem releaseOffice_held : (s.releaseOffice o).held = s.held := by simp [State.releaseOffice]
@[simp] theorem leaveReset_held (fail : BitVec 4) : (s.leaveReset fail).held = s.held := by simp [State.leaveReset]
@[simp] theorem execResetNRelease_completes (nvmFail : BitVec 4) : completes s (execResetNRelease nvmFail s) := by simp [execResetNRelease]

/-! ### The thermal model -/

@[simp] theorem modThm_held (f : Thermal → Thermal) : (s.modThm o f).held = s.held := by simp [State.modThm]
@[simp] theorem sendHot_held (old : Nat) : (s.sendHot o old).held = s.held := by simp [State.sendHot]
@[simp] theorem setLevel_held (new : Nat) : (s.setLevel o new).held = s.held := by simp [State.setLevel]
@[simp] theorem evalLevel_held (t : Rat) (valid : Bool) : (s.evalLevel o t valid).held = s.held := by simp [State.evalLevel]
@[simp] theorem sendQuiet_held (enter : Bool) : (s.sendQuiet o enter).held = s.held := by simp [State.sendQuiet]
@[simp] theorem askHeld_held (cause : Nat) : (s.askHeld o cause).held = s.held := by simp [State.askHeld]
@[simp] theorem orderlyStop_held (cause : Nat) : (s.orderlyStop o cause).held = s.held := by simp [State.orderlyStop]
@[simp] theorem setHold_held (on : Bool) : (s.setHold o on).held = s.held := by simp [State.setHold]
@[simp] theorem excludeSensor_held (j cause : Nat) (v : Int) : (s.excludeSensor o j cause v).held = s.held := by simp [State.excludeSensor]

@[simp] theorem judgeSensor_held (rs : List W16) (j : Nat) : (s.judgeSensor o rs j).held = s.held := by
  unfold State.judgeSensor
  dsimp only
  split
  · simp
  · split <;> simp

@[simp] theorem showSensors_held (rs : List W16) : (s.showSensors o rs).held = s.held := by simp [State.showSensors]
@[simp] theorem initTemps_held (rs : List W16) : (s.initTemps o rs).held = s.held := by simp [State.initTemps]

@[simp] theorem touchModel_held : (s.touchModel o).held = s.held := by
  unfold State.touchModel
  refine foldl_held _ (fun u k => ?_) _ _
  split <;> simp

@[simp] theorem sampleRails_held : (s.sampleRails).held = s.held := by simp [State.sampleRails]

@[simp] theorem tMax_held (rs : List W16) (valid : Bool) : (s.tMax o rs valid).2.held = s.held := by
  unfold State.tMax
  dsimp only
  split
  · rfl
  · split <;> simp

@[simp] theorem showModel_held (valid : Bool) (t : Rat × Nat) : (s.showModel o valid t).held = s.held := by simp [State.showModel]

@[simp] theorem execThermalModelUpdate_completes (readings : List W16) : completes s (execThermalModelUpdate o readings s) := by
  simp [execThermalModelUpdate]

@[simp] theorem writeThmCtl_held (v : Nat) : (s.writeThmCtl o v).held = s.held := by simp [State.writeThmCtl]
@[simp] theorem execThermalAck_completes (v : W32) : completes s (execThermalAck o v s) := by simp [execThermalAck]
@[simp] theorem execReadmit_completes (v : W32) : completes s (execReadmit o v s) := by simp [execReadmit]
@[simp] theorem execThmCntClr_completes (v : W32) : completes s (execThmCntClr o v s) := by simp [execThmCntClr]

/-! ### Supply and rails -/

@[simp] theorem advance_held (fuel : Nat) : (s.advance fuel).held = s.held := by
  induction fuel generalizing s with
  | zero => rfl
  | succ fuel ih =>
    unfold State.advance
    split
    · rfl
    · simp [ih]

@[simp] theorem railUp_held (r : Nat) : (s.railUp r).held = s.held := by simp [State.railUp]
@[simp] theorem officeRail_held (r : Nat) : (s.officeRail o r).held = s.held := by simp [State.officeRail]

@[simp] theorem execRailGood_completes (rail : Fin 9) : completes s (execRailGood rail s) := by
  unfold execRailGood
  dsimp only
  split
  · simp
  · split <;> simp

@[simp] theorem execSynthesiserLock_completes : completes s (execSynthesiserLock s) := by simp [execSynthesiserLock]
@[simp] theorem powerOff_held (started ovr : Bool) : (s.powerOff started ovr).held = s.held := by simp [State.powerOff]
@[simp] theorem execVinRise_completes (mv : W16) : completes s (execVinRise mv s) := by simp [execVinRise]

@[simp] theorem execVinLow_completes (mv : W16) : completes s (execVinLow mv s) := by
  unfold execVinLow
  dsimp only
  split
  · simp
  · split
    · simp
    · split <;> simp

@[simp] theorem execBrownout_completes (mv : W16) : completes s (execBrownout mv s) := by simp [execBrownout]
@[simp] theorem execVinOverVoltage_completes (mv : W16) : completes s (execVinOverVoltage mv s) := by simp [execVinOverVoltage]
@[simp] theorem execVinRecovery_completes (mv : W16) : completes s (execVinRecovery mv s) := by simp [execVinRecovery]
@[simp] theorem execPowerCapDemand_completes (p : W16) : completes s (execPowerCapDemand p s) := by simp [execPowerCapDemand]
@[simp] theorem emitterOff_held : (s.emitterOff).held = s.held := by simp [State.emitterOff]
@[simp] theorem railsOff_held (mask : Nat) : (s.railsOff mask).held = s.held := by simp [State.railsOff]

@[simp] theorem tileRailFault_held : (s.tileRailFault).held = s.held := by
  unfold State.tileRailFault
  dsimp only
  split <;> simp

@[simp] theorem officeRailFault_held : (s.officeRailFault o).held = s.held := by simp [State.officeRailFault]

@[simp] theorem execRailFault_completes (rail : Fin 9) (cause : BitVec 2) : completes s (execRailFault rail cause s) := by
  simp [execRailFault]

@[simp] theorem writePwrCtl_held (v : Nat) : (s.writePwrCtl o v).held = s.held := by simp [State.writePwrCtl]
@[simp] theorem execOfficeOnA_completes (v : W32) : completes s (execOfficeOnA o v s) := by simp [execOfficeOnA]
@[simp] theorem execOfficeOnB_completes (v : W32) : completes s (execOfficeOnB o v s) := by simp [execOfficeOnB]
@[simp] theorem execPwrCntClr_completes (v : W32) : completes s (execPwrCntClr o v s) := by simp [execPwrCntClr]
@[simp] theorem execAnalogueTrip_completes (diodes : BitVec 7) : completes s (execAnalogueTrip diodes s) := by simp [execAnalogueTrip]
@[simp] theorem execTripWaitEnd_completes : completes s (execTripWaitEnd s) := by simp [execTripWaitEnd]
@[simp] theorem assertReset_held : (s.assertReset).held = s.held := by simp [State.assertReset]
@[simp] theorem execResetNAssert_completes : completes s (execResetNAssert s) := by simp [execResetNAssert]
@[simp] theorem execReboot_completes (tag : W16) : completes s (execReboot o tag s) := by simp [execReboot]

/-! ### Calibration sequences -/

@[simp] theorem beginSequence_held (c : CalRun) : (s.beginSequence o c).held = s.held := by simp [State.beginSequence]

@[simp] theorem boundarySequence_held (r : Nat) : (s.boundarySequence o r).held = s.held := by
  unfold State.boundarySequence
  split <;> simp

@[simp] theorem execCalibrationSequenceGo_completes (v : W32) : completes s (execCalibrationSequenceGo o v s) := by
  simp [execCalibrationSequenceGo]

@[simp] theorem execCalibrationSequenceEnd_completes : completes s (execCalibrationSequenceEnd o s) := by
  unfold execCalibrationSequenceEnd
  split <;> simp

@[simp] theorem strobeTile_held : (s.strobeTile t).held = s.held := by simp [State.strobeTile]
@[simp] theorem strobeSequence_held (c : CalRun) : (s.strobeSequence o t c).held = s.held := by simp [State.strobeSequence]

@[simp] theorem execInjectionStrobe_completes : completes s (execInjectionStrobe t s) := by
  unfold execInjectionStrobe
  (repeat' split) <;> simp

/-! ### Operating modes -/

@[simp] theorem takeFrom_held (r : Nat) (m : Mode) : (s.takeFrom o r m).held = s.held := by simp [State.takeFrom]
@[simp] theorem applyShift_held (te : Nat) : (s.applyShift o te).held = s.held := by simp [State.applyShift]
@[simp] theorem startData_held (m : Mode) (te : Nat) : (s.startData o m te).held = s.held := by simp [State.startData]
@[simp] theorem stopData_held (r : Nat) : (s.stopData o r).held = s.held := by simp [State.stopData]
@[simp] theorem setCalib_held (on : Bool) : (s.setCalib o on).held = s.held := by simp [State.setCalib]

@[simp] theorem raiseModeNote_held : (s.raiseModeNote o).held = s.held := by
  unfold State.raiseModeNote
  split <;> simp

@[simp] theorem settleModeNote_held : (s.settleModeNote o).held = s.held := by simp [State.settleModeNote]
@[simp] theorem enterMode_held (m : Mode) (te : Nat) : (s.enterMode o m te).held = s.held := by simp [State.enterMode]
@[simp] theorem refuseMode_held (code fault source : Nat) : (s.refuseMode o code fault source).held = s.held := by simp [State.refuseMode]

@[simp] theorem requestMode_held (code : Nat) : (s.requestMode o code).held = s.held := by
  unfold State.requestMode
  split <;> simp

@[simp] theorem execModeRequest_completes (v : W32) : completes s (execModeRequest o v s) := by simp [execModeRequest]
@[simp] theorem startExit_held (te : Nat) (sched : Bool) : (s.startExit o te sched).held = s.held := by simp [State.startExit]

@[simp] theorem transition_held (m : Mode) (te : Nat) (sched : Bool) : (s.transition o m te sched).held = s.held := by
  simp [State.transition]

@[simp] theorem execModeTransition_completes : completes s (execModeTransition o s) := by
  unfold execModeTransition
  split <;> simp

@[simp] theorem execMode_completes : completes s (execMode s) := by
  refine (completes_next _ _).2 (runDue_held _ _ _ fun u b => ?_)
  split
  · rfl
  · dsimp only
    split
    · simp
    · split <;> simp

@[simp] theorem settleQuiet_held : (s.settleQuiet o).held = s.held := by simp [State.settleQuiet]

@[simp] theorem execHeldEntry_completes : completes s (execHeldEntry o s) := by
  unfold execHeldEntry
  split <;> simp

@[simp] theorem execNoOwnerTimeout_completes : completes s (execNoOwnerTimeout o s) := by simp [execNoOwnerTimeout]
@[simp] theorem openModule_held : (s.openModule o).held = s.held := by simp [State.openModule]
@[simp] theorem enterStandby_held (bad : List (Fin 4)) : (s.enterStandby o bad).held = s.held := by simp [State.enterStandby]

@[simp] theorem execStandbyEntry_completes : completes s (execStandbyEntry s) := by
  unfold execStandbyEntry
  dsimp only
  split
  · simp
  · split <;> simp

/-! ### Check-bit test mode and escalation -/

@[simp] theorem cbtNotice_held (k : Nat) : (s.cbtNotice o k).held = s.held := by simp [State.cbtNotice]
@[simp] theorem cbtWrite_held (a w : Nat) : (s.cbtWrite o a w).held = s.held := by simp [State.cbtWrite]
@[simp] theorem cbtSetCheck_held (a w : Nat) : (s.cbtSetCheck o a w).held = s.held := by simp [State.cbtSetCheck]

@[simp] theorem cbtFetch_held (a w : Nat) : (s.cbtFetch o a w).held = s.held := by
  unfold State.cbtFetch
  dsimp only
  split <;> simp

@[simp] theorem cbtOperate_held : (s.cbtOperate o).held = s.held := by
  unfold State.cbtOperate
  split <;> simp

@[simp] theorem writeCbtCtl_held (v : Nat) : (s.writeCbtCtl o v).held = s.held := by simp [State.writeCbtCtl]
@[simp] theorem execCbtEnable_completes (v : W32) : completes s (execCbtEnable o v s) := by simp [execCbtEnable]
@[simp] theorem execCbtData_completes (v : W32) : completes s (execCbtData o v s) := by simp [execCbtData]
@[simp] theorem execCbtCheck_completes (v : W32) : completes s (execCbtCheck o v s) := by simp [execCbtCheck]
@[simp] theorem execCbtRead_completes (v : W32) : completes s (execCbtRead o v s) := by simp [execCbtRead]
@[simp] theorem execEscalationWindowEnd_completes : completes s (execEscalationWindowEnd o s) := by simp [execEscalationWindowEnd]
@[simp] theorem execErrCntClr_completes (v : W32) : completes s (execErrCntClr o v s) := by simp [execErrCntClr]
@[simp] theorem execArrayHostRead_completes (addr : BitVec 26) : completes s (execArrayHostRead o addr s) := by simp [execArrayHostRead]

/-! ### The round boundary -/

@[simp] theorem noteMismatch_held (die own r : Nat) : (s.noteMismatch die own r).held = s.held := by
  unfold State.noteMismatch
  split <;> simp

@[simp] theorem discardRound_held (r : Nat) : (s.discardRound t r).held = s.held := by
  unfold State.discardRound
  split <;> simp

@[simp] theorem checkTile_held (r : Nat) : (s.checkTile t r).held = s.held := by
  unfold State.checkTile
  dsimp only
  split
  · rfl
  · split <;> simp

@[simp] theorem checkOffice_held (r : Nat) : (s.checkOffice o r).held = s.held := by
  unfold State.checkOffice
  dsimp only
  split
  · rfl
  · split <;> simp

@[simp] theorem showDec_held (before : Vote) : (s.showDec t before).held = s.held := by
  unfold State.showDec
  split <;> simp

@[simp] theorem tileBoundary_held (r : Nat) : (s.tileBoundary t r).held = s.held := by simp [State.tileBoundary]
@[simp] theorem ownerTile_held (r : Nat) : (s.ownerTile o r t).held = s.held := by simp [State.ownerTile]
@[simp] theorem ownerBoundary_held (r : Nat) : (s.ownerBoundary o r).held = s.held := by simp [State.ownerBoundary]

@[simp] theorem execRoundBoundary_completes (stFail : BitVec 3) : completes s (execRoundBoundary stFail s) := by
  unfold execRoundBoundary
  dsimp only
  (repeat' split) <;> simp

/-! ### Registers by address -/

@[simp] theorem freshenTwin_held (addr : Nat) : (s.freshenTwin o addr).held = s.held := by simp [State.freshenTwin]
@[simp] theorem readRegister_held (addr : Nat) : (s.readRegister o addr).held = s.held := by simp [State.readRegister]

@[simp] theorem execLowRegisterRead_completes (addr : BitVec 26) : completes s (execLowRegisterRead o addr s) := by
  simp [execLowRegisterRead]

@[simp] theorem arrayClears_completes (addr : Nat) (v : W32) : rowCompletes s (s.arrayClears o addr v) := by
  unfold State.arrayClears
  split <;> simp

@[simp] theorem plainClears_completes (addr : Nat) (v : W32) : rowCompletes s (s.plainClears o addr v) := by
  unfold State.plainClears
  repeat' refine rowCompletes_ite ?_ ?_
  all_goals simp

@[simp] theorem dataCommands_completes (addr : Nat) (v : W32) : rowCompletes s (s.dataCommands o addr v) := by
  unfold State.dataCommands
  repeat' refine rowCompletes_ite ?_ ?_
  any_goals split
  all_goals simp

@[simp] theorem moduleCommands_completes (addr : Nat) (v : W32) : rowCompletes s (s.moduleCommands o addr v) := by
  unfold State.moduleCommands
  repeat' refine rowCompletes_ite ?_ ?_
  any_goals split
  all_goals simp

@[simp] theorem pigeonholeWrites_completes (addr : Nat) (v : W32) : rowCompletes s (s.pigeonholeWrites o addr v) := by
  unfold State.pigeonholeWrites
  split
  · split <;> simp
  · split
    · exact rowCompletes_ite (by simp) (rowCompletes_none s)
    · simp

@[simp] theorem regionWrites_completes (addr : Nat) (v : W32) : rowCompletes s (s.regionWrites o addr v) := by
  exact rowCompletes_ite (by simp) (rowCompletes_none s)

@[simp] theorem windowWrites_completes (addr : Nat) (v : W32) : rowCompletes s (s.windowWrites o addr v) := by
  unfold State.windowWrites
  split
  · simp
  · exact rowCompletes_ite (by simp) (rowCompletes_none s)
  · simp

@[simp] theorem clearFailed_held (addr : Nat) : (s.clearFailed o addr).held = s.held := by
  unfold State.clearFailed
  split <;> simp

@[simp] theorem afterWrite_held (addr : Nat) : (s.afterWrite o addr).held = s.held := by simp [State.afterWrite]

@[simp] theorem writeRegister_held (addr : Nat) (v : W32) : (s.writeRegister o addr v).held = s.held := by
  unfold State.writeRegister
  split
  · next r hr =>
    obtain ⟨q, hq, hr⟩ := List.exists_of_findSome?_eq_some hr
    have h : rowCompletes s q := by
      simp only [List.mem_cons, List.not_mem_nil, or_false] at hq
      rcases hq with rfl | rfl | rfl | rfl | rfl | rfl | rfl <;> simp
    obtain ⟨t, rfl, ht⟩ := h r hr
    exact ht
  · dsimp only
    split <;> simp

@[simp] theorem execRegisterWrite_completes (addr : BitVec 26) (v : W32) : completes s (execRegisterWrite o addr v s) := by
  simp [execRegisterWrite]

@[simp] theorem execHighRegisterWrite_completes (addr : BitVec 26) (v : W32) : completes s (execHighRegisterWrite o addr v s) := by
  simp [execHighRegisterWrite]

@[simp] theorem execTestPortInstruction_completes (ir : JtagIr) : completes s (execTestPortInstruction ir s) := by
  unfold execTestPortInstruction
  dsimp only
  split <;> simp

/-! ### What a tick does -/

@[simp] theorem applyAllOrders_held : (s.applyAllOrders).held = s.held := by simp [State.applyAllOrders]
@[simp] theorem downlinkTick_held : (s.downlinkTick o t).held = s.held := by simp [State.downlinkTick]
@[simp] theorem downlinksTick_held : (s.downlinksTick o).held = s.held := by simp [State.downlinksTick]

end Sys2Proof.Machine
end

section
/-! SUPPORT. What a tick does beside the counting leaves every die's count: one lemma per operation that a tick uses. -/

namespace Sys2Proof.Machine

/-- The tick counts of the dies (R24). -/
def State.counts (s : State) : W64 × (Fin 4 → W64) × (OfficeId → W64) :=
  (s.svc.count, fun t => (s.tile t).count, fun o => (s.off o).count)

@[simp] theorem counts_ite (c : Prop) [Decidable c] (a b : State) : (if c then a else b).counts = if c then a.counts else b.counts :=
  apply_ite State.counts c a b

@[simp] theorem foldl_counts {α : Type} (f : State → α → State) (h : ∀ u a, (f u a).counts = u.counts) (l : List α) (s : State) :
    (l.foldl f s).counts = s.counts := by
  induction l generalizing s with
  | nil => rfl
  | cons a l ih => exact (ih _).trans (h s a)

/-! ### A tile keeps its count -/

theorem foldl_count {α : Type} (f : Tile → α → Tile) (h : ∀ d a, (f d a).count = d.count) (l : List α) (d : Tile) :
    (l.foldl f d).count = d.count := by
  induction l generalizing d with
  | nil => rfl
  | cons a l ih => exact (ih _).trans (h d a)

@[simp] theorem settleSar_count (d : Tile) (now cl : Nat) : (d.settleSar now cl).count = d.count := by
  unfold Tile.settleSar
  split
  · rfl
  · unfold Tile.stopSar
    refine (foldl_count _ (fun e r => ?_) _ _).trans (modCluster_count _ _)
    rfl

@[simp] theorem gmodeChanged_count (d : Tile) (cl old : Nat) : (d.gmodeChanged cl old).count = d.count := by
  refine (modCluster_count _ _).trans (foldl_count _ (fun e c => ?_) _ _)
  split <;> rfl

@[simp] theorem setThrottle_count (d : Tile) (now : Nat) (m : Sparse Nat) : (d.setThrottle now m).count = d.count := by
  refine (foldl_count _ (fun e cl => settleSar_count e now cl) _ _).trans (foldl_count _ (fun e cl => ?_) _ _)
  split <;> simp

@[simp] theorem driveThreshold_count (d : Tile) (now : Nat) (g : BitVec 10) : (d.driveThreshold now g).count = d.count := by
  unfold Tile.driveThreshold
  split <;> rfl

@[simp] theorem applyOrder_count (d : Tile) (now : Nat) (x : TileOrder) : (d.applyOrder now x).count = d.count := by
  cases x <;> simp only [Tile.applyOrder, driveThreshold_count, setThrottle_count]
  split <;> simp

@[simp] theorem applyOrders_count (d : Tile) (now : Nat) : (d.applyOrders now).count = d.count :=
  foldl_count _ (fun d x => applyOrder_count d now x) _ _

@[simp] theorem writeSample_count (d : Tile) (n : Nat) : (d.writeSample n).count = d.count := by simp [Tile.writeSample]

variable (s : State) (o : OfficeId) (t : Fin 4)

/-! ### Registers, notices, counters, health, arrays -/

@[simp] theorem modOff_counts (f : Office → Office) (h : (f (s.off o)).count = (s.off o).count) : (s.modOff o f).counts = s.counts := by
  unfold State.counts
  simp only [modOff_svc, modOff_tile, Prod.mk.injEq, true_and]
  funext p
  by_cases hp : p = o
  · subst hp; simp [h]
  · rw [modOff_off_other _ hp]

@[simp] theorem modTile_counts (f : Tile → Tile) (h : (f (s.tile t)).count = (s.tile t).count) : (s.modTile t f).counts = s.counts := by
  unfold State.counts
  simp only [modTile_svc, modTile_off, Prod.mk.injEq, true_and, and_true]
  funext u
  by_cases hu : u = t
  · subst hu; simp [h]
  · rw [modTile_tile_other _ hu]

@[simp] theorem modSvc_counts (f : ServiceDie → ServiceDie) (h : (f s.svc).count = s.svc.count) : (s.modSvc f).counts = s.counts := by
  simp [State.counts, h]

@[simp] theorem emit_counts (e : Emission) : (s.emit e).counts = s.counts := by simp [State.counts]
@[simp] theorem wr_counts (f : Fld) (v i j : Nat) : (s.wr o f v i j).counts = s.counts := by simp [State.wr]
@[simp] theorem swr_counts (f : Fld) (v i j : Nat) : (s.swr f v i j).counts = s.counts := by simp [State.swr]
@[simp] theorem logNotice_counts (n : Notice) : (s.logNotice o n).counts = s.counts := by simp [State.logNotice]
@[simp] theorem holdNotice_counts (n : Notice) : (s.holdNotice o n).counts = s.counts := by simp [State.holdNotice]

@[simp] theorem raiseOne_counts (code : Nat) (payload : List Byte) : (s.raiseOne o code payload).counts = s.counts := by
  simp [State.raiseOne]

@[simp] theorem raise_counts (code : Nat) (payload : List Byte) : (s.raise o code payload).counts = s.counts := by simp [State.raise]

@[simp] theorem raiseSvc_counts (code : Nat) (payload : List Byte) : (s.raiseSvc code payload).counts = s.counts := by
  unfold State.raiseSvc
  split <;> simp

@[simp] theorem noteEvents_counts (f : Fld) (n i j : Nat) : (s.noteEvents o f n i j).counts = s.counts := by simp [State.noteEvents]
@[simp] theorem countBy_counts (f : Fld) (n i j : Nat) : (s.countBy o f n i j).counts = s.counts := by simp [State.countBy]
@[simp] theorem countUp_counts (f : Fld) (i j : Nat) : (s.countUp o f i j).counts = s.counts := by simp [State.countUp]

/-! ### The office's side of the lanes -/

@[simp] theorem putConfigFrame_counts (q : Nat) (words : List W64) : (s.putConfigFrame o t q words).counts = s.counts := by
  simp [State.putConfigFrame]

@[simp] theorem pumpConfig_counts : (s.pumpConfig o t).counts = s.counts := by
  unfold State.pumpConfig
  dsimp only
  split
  · rfl
  · split <;> simp

@[simp] theorem sendType3_counts (fuel : Nat) (ws : List W64) : (s.sendType3 o t fuel ws).counts = s.counts := by
  induction fuel generalizing s ws with
  | zero => rfl
  | succ fuel ih => cases ws <;> simp [State.sendType3, ih]

/-! ### Ring frames as sent -/

@[simp] theorem modRing_counts (f : Ring → Ring) : (s.modRing f).counts = s.counts := by simp [State.modRing]
@[simp] theorem modRPort_counts (p : RingPort) (f : RPort → RPort) : (s.modRPort p f).counts = s.counts := by simp [State.modRPort]
@[simp] theorem launch_counts (p : RingPort) (f : TxFrame) : (s.launch p f).counts = s.counts := by simp [State.launch]

@[simp] theorem txNext_counts (p : RingPort) : (s.txNext p).counts = s.counts := by
  unfold State.txNext
  dsimp only
  split <;> simp

@[simp] theorem pumpRing_counts (p : RingPort) : (s.pumpRing p).counts = s.counts := by simp [State.pumpRing]

/-! ### The time base -/

@[simp] theorem modTod_counts (f : Tod → Tod) : (s.modTod f).counts = s.counts := by simp [State.modTod]
@[simp] theorem missMessage_counts : (s.missMessage).counts = s.counts := by simp [State.missMessage]

/-! ### The sum stream -/

@[simp] theorem sendSum_counts (dest : Vote) (hdr : W32) (ws : List Nat) : (s.sendSum t dest hdr ws).counts = s.counts := by
  unfold State.sendSum
  dsimp only
  split
  · rfl
  · split <;> simp

@[simp] theorem sendLive_counts (n : Nat) : (s.sendLive t n).counts = s.counts := by simp [State.sendLive]
@[simp] theorem sumTick_counts : (s.sumTick t).counts = s.counts := by simp [State.sumTick]

/-! ### Environment, auxiliary inputs, status loop -/

@[simp] theorem modAux_counts (f : Aux → Aux) : (s.modAux o f).counts = s.counts := by simp [State.modAux]
@[simp] theorem pushInterval_counts (d : Nat) (sub : Bool) : (s.pushInterval o d sub).counts = s.counts := by simp [State.pushInterval]

@[simp] theorem dropOldStart_counts (tick : Nat) : (s.dropOldStart o tick).counts = s.counts := by
  unfold State.dropOldStart
  split <;> simp

@[simp] theorem stopEdge_counts (e : AuxStamp) (periods : Bool) : (s.stopEdge o e periods).counts = s.counts := by
  unfold State.stopEdge
  split <;> simp

@[simp] theorem startEdge_counts (e : AuxStamp) : (s.startEdge o e).counts = s.counts := by simp [State.startEdge]
@[simp] theorem settleInterval_counts : (s.settleInterval o).counts = s.counts := by simp [State.settleInterval]

/-! ### The emitters -/

@[simp] theorem modEmt_counts (f : Emitter → Emitter) : (s.modEmt f).counts = s.counts := by simp [State.modEmt]
@[simp] theorem setEmitter_counts (e v : Nat) : (s.setEmitter e v).counts = s.counts := by simp [State.setEmitter]
@[simp] theorem verifyPulse_counts (e : Nat) (seen : Bool) : (s.verifyPulse e seen).counts = s.counts := by simp [State.verifyPulse]

@[simp] theorem endSlot_counts (f : Flash) (upto : Nat) (x : FlashSlot × Nat) : (s.endSlot f upto x).counts = s.counts := by
  simp [State.endSlot]

@[simp] theorem endFlash_counts (upto : Nat) (cut suppressed : Bool) : (s.endFlash upto cut suppressed).counts = s.counts := by
  unfold State.endFlash
  split <;> simp

@[simp] theorem swapBuffers_counts : (s.swapBuffers).counts = s.counts := by simp [State.swapBuffers]

@[simp] theorem setRun_counts (r : Option FlashRun) : (s.setRun r).counts = s.counts := by
  unfold State.setRun
  split <;> simp

@[simp] theorem settleEmitter_counts : (s.settleEmitter).counts = s.counts := by
  unfold State.settleEmitter
  dsimp only
  (repeat' split) <;> simp

/-! ### The thermal model -/

@[simp] theorem sendQuiet_counts (enter : Bool) : (s.sendQuiet o enter).counts = s.counts := by simp [State.sendQuiet]

/-! ### Operating modes -/

@[simp] theorem raiseModeNote_counts : (s.raiseModeNote o).counts = s.counts := by
  unfold State.raiseModeNote
  split <;> simp

@[simp] theorem settleModeNote_counts : (s.settleModeNote o).counts = s.counts := by simp [State.settleModeNote]
@[simp] theorem settleQuiet_counts : (s.settleQuiet o).counts = s.counts := by simp [State.settleQuiet]

/-! ### What a tick does -/

@[simp] theorem applyAllOrders_counts : (s.applyAllOrders).counts = s.counts := by simp [State.applyAllOrders]
@[simp] theorem downlinkTick_counts : (s.downlinkTick o t).counts = s.counts := by simp [State.downlinkTick]
@[simp] theorem downlinksTick_counts : (s.downlinksTick o).counts = s.counts := by simp [State.downlinksTick]

end Sys2Proof.Machine
end

section
/-! SUPPORT. Fuses only gain programmed bits (R473); what every command and every tick keeps; the statements on a step. -/

namespace Sys2Proof.Machine

variable (s : State) (o : OfficeId)

/-! ### Fuses -/

theorem fusesWithin_refl (f : Fuses) : fusesWithin f f := by simp [fusesWithin]

theorem fusesWithin_trans {f g h : Fuses} (hfg : fusesWithin f g) (hgh : fusesWithin g h) : fusesWithin f h := by
  obtain ⟨hs, hk⟩ := hfg
  obtain ⟨hs', hk'⟩ := hgh
  refine ⟨?_, fun k => ?_⟩
  · rw [← hs, BitVec.and_assoc, hs']
  · obtain ⟨hd, hp, hr⟩ := hk k
    obtain ⟨hd', hp', hr'⟩ := hk' k
    exact ⟨by rw [← hd, BitVec.and_assoc, hd'], hp' ∘ hp, hr' ∘ hr⟩

/-- What is programmed further holds what was programmed. -/
theorem and_or_self_left {w : Nat} (a b : BitVec w) : a &&& (a ||| b) = a := by
  ext i
  simp +contextual

/-- Programming one slot further, or revoking it, leaves every programmed bit. -/
theorem fusesWithin_setSlot (f : Fuses) (k : Nat) (x : KeySlot) (hd : (f.slot k).digest &&& x.digest = (f.slot k).digest)
    (hp : (f.slot k).prog = true → x.prog = true) (hr : (f.slot k).revoked = true → x.revoked = true) :
    fusesWithin f (f.setSlot k x) := by
  refine ⟨by simp [Fuses.setSlot], fun j => ?_⟩
  by_cases h : j % 4 = k % 4
  · have hj : f.slot j = f.slot k := by simp [Fuses.slot, h]
    have hx : (f.setSlot k x).slot j = x := by simp [Fuses.slot, Fuses.setSlot, h]
    rw [hj, hx]
    exact ⟨hd, hp, hr⟩
  · have hx : (f.setSlot k x).slot j = f.slot j := Quad.get_set_other _ _ fun e => h (Fin.val_eq_of_eq e)
    simp [hx]

/-! ### What every command keeps -/

/-- The queue and the clock are as before, and every programmed fuse bit stays programmed (R473). -/
def steady (s u : State) : Prop := u.pending = s.pending ∧ u.now = s.now ∧ fusesWithin s.svc.fuses u.svc.fuses

theorem kept_iff_held (u : State) : kept s u ↔ u.held = s.held := by simp [kept, State.held]

theorem steady_of_held {s u : State} (h : u.held = s.held) : steady s u := by
  obtain ⟨hp, hn, hf⟩ := (kept_iff_held s u).2 h
  exact ⟨hp, hn, hf ▸ fusesWithin_refl _⟩

/-- What follows a change and keeps what is held keeps what the change kept. -/
theorem steady_of_held_eq {s u v : State} (h : steady s u) (hv : v.held = u.held) : steady s v := by
  obtain ⟨hp, hn, hf⟩ := (kept_iff_held u v).2 hv
  exact ⟨hp.trans h.1, hn.trans h.2.1, hf ▸ h.2.2⟩

/-- Programming an item's fuses, also where it is stopped midway (R475, R476). -/
theorem burn_steady (it : Item) (stopped : Bool) : steady s (s.burn it stopped) := by
  unfold State.burn
  extract_lets p m u f x new
  have hu : u.held = s.held := by unfold u; split <;> rfl
  have hf : fusesWithin f new := by
    clear_value m f
    unfold new
    split
    · exact fusesWithin_setSlot _ _ _ (and_or_self_left _ _) (by simp +contextual [x]) (by simp [x])
    · split
      · exact fusesWithin_setSlot _ _ _ (by simp [x]) (by simp [x]) (by simp +contextual [x])
      · exact ⟨and_or_self_left _ _, (fusesWithin_refl f).2⟩
  have hnew : steady u (u.modSvc fun d => { d with fuses := new }) := ⟨rfl, rfl, hf⟩
  obtain ⟨hp, hn, hw⟩ := steady_of_held hu
  obtain ⟨hp', hn', hw'⟩ := hnew
  exact steady_of_held_eq ⟨hp'.trans hp, hn'.trans hn, fusesWithin_trans hw hw'⟩ (by simp)

theorem steady_ite {s a b : State} {c : Prop} [Decidable c] (ha : steady s a) (hb : steady s b) : steady s (if c then a else b) := by
  split <;> assumption

/-- The end of an AMEND job changes the fuses by the programming of one item at most. -/
theorem endAmend_steady (j : LbJob) (b : List Byte) (nvmOk : Bool) (brk : Option Bool) : steady s (s.endAmend o j b nvmOk brk) := by
  have refused (c : Nat) : steady s (s.refuseAmend o c) := steady_of_held (by simp)
  have ended (u : State) (hu : steady s u) : steady s
      (if nvmOk = false then (u.damageEntry o).refuseAmend o 0x13 else u.recordAmendment o b ((amendItems b).getD [])) :=
    steady_of_held_eq hu (by simp)
  unfold State.endAmend
  refine steady_ite (refused _) <| steady_ite (refused _) <| steady_ite (refused _) <| steady_ite (refused _) ?_
  refine steady_ite (steady_of_held (by simp)) <| steady_ite (refused _) ?_
  split
  · exact steady_of_held_eq (burn_steady s _ true) ((raise_held _ _ _ _).trans (refuseAmend_held _ _ _))
  · refine ended _ ?_
    split
    · exact burn_steady s _ false
    · exact steady_of_held rfl

/-- LETTERBOX_JOB_END is the one command that may program fuses (R475, R502). -/
theorem execLetterboxJobEnd_steady (nvmOk : Bool) (brk : Option Bool) :
    ∃ u, execLetterboxJobEnd o nvmOk brk s = .next u ∧ steady s u := by
  refine ⟨_, rfl, ?_⟩
  split
  · exact steady_of_held rfl
  · split
    · exact steady_of_held rfl
    · split
      · exact endAmend_steady ..
      all_goals exact steady_of_held (by simp)

/-- Every other command keeps the queue, the clock and the fuses. -/
theorem exec_completes (c : Instr) (hc : ∀ o ok brk, c ≠ .letterboxJobEnd o ok brk) : completes s (exec c s) := by
  cases c
  case letterboxJobEnd o ok brk => exact absurd rfl (hc o ok brk)
  all_goals simp [exec]

/-- Every command answers a next state (log entry 10), with the queue and the clock as they were. -/
theorem exec_steady (c : Instr) : ∃ u, exec c s = .next u ∧ steady s u := by
  by_cases hc : ∀ o ok brk, c ≠ .letterboxJobEnd o ok brk
  · obtain ⟨u, hu, hh⟩ := exec_completes s c hc
    exact ⟨u, hu, steady_of_held hh⟩
  · push Not at hc
    obtain ⟨o, ok, brk, rfl⟩ := hc
    exact execLetterboxJobEnd_steady s o ok brk

/-! ### A tick -/

/-- Queue, clock and fuses after a tick are those of its start. -/
theorem tick_held : s.tick.held = s.nextTick.held := by simp [State.tick]

/-- The dies count at the start of a tick alone (R24). -/
theorem tick_counts : s.tick.counts = s.nextTick.counts := by simp [State.tick]

theorem nextTick_counts :
    s.nextTick.counts = (if s.svc.inReset then s.svc.count else s.svc.count + 1,
      fun t => if (s.tile t).inReset then (s.tile t).count else (s.tile t).count + 1,
      fun o => if (s.off o).inReset then (s.off o).count else (s.off o).count + 1) := by
  refine Prod.ext ?_ (Prod.ext (funext fun t => ?_) (funext fun o => ?_))
  · exact apply_ite ServiceDie.count ..
  · match t with
    | 0 | 1 | 2 | 3 => exact apply_ite Tile.count ..
  · cases o <;> exact apply_ite Office.count ..

/-! ### A step -/

theorem step_empty (h : s.pending = []) : step s = .next s.tick := by
  unfold step
  rw [h]

theorem step_cons (c : Instr) (rest : List Instr) (h : s.pending = c :: rest) : step s = exec c { s with pending := rest } := by
  unfold step
  rw [h]

/-- Settles O2: on an empty queue by what a tick keeps, else by what every command keeps. -/
theorem everyStepCompletes : Obligations.EveryStepCompletes := by
  intro s
  cases h : s.pending with
  | nil =>
    obtain ⟨hp, hn, -⟩ := (kept_iff_held _ _).2 (tick_held s)
    exact ⟨s.tick, step_empty s h, hp.trans h, hn⟩
  | cons c rest =>
    obtain ⟨u, hu, hp, hn, -⟩ := exec_steady { s with pending := rest } c
    exact ⟨u, (step_cons s c rest h).trans hu, hp, hn⟩

/-- Settles O5: `later` reads the difference of the values modulo the field. -/
theorem laterModuloTheField : Obligations.LaterModuloTheField := by
  intro w a b d
  have hd : (a - b).toNat = d := by
    rw [BitVec.toNat_sub]
    unfold d
    have := b.isLt
    congr 1
    omega
  have hlater : later a b = true ↔ 0 < d ∧ d < 2 ^ (w - 1) := by simp [later, hd]
  refine ⟨hlater, ?_, fun h => ?_⟩
  · rw [← sub_eq_zero, BitVec.toNat_eq, hd]
    simp
  · by_contra hl
    have := hlater.1 (by simpa using hl)
    omega

/-- Settles O1: a command by the definition of a step, a tick by what it keeps of the counts it begins with. -/
theorem stepRunsFront : Obligations.StepRunsFront := by
  refine ⟨fun s c rest => step_cons _ c rest rfl, fun s hs => ?_⟩
  obtain ⟨hp, hn, -⟩ := (kept_iff_held _ _).2 (tick_held s)
  obtain ⟨hv, ht, ho⟩ := Prod.mk.inj ((tick_counts s).trans (nextTick_counts s)) |>.imp_right Prod.mk.inj
  exact ⟨s.tick, step_empty s hs, hn, hp.trans hs, hv, congrFun ht, congrFun ho⟩

end Sys2Proof.Machine
end

section
/-! SUPPORT. What a host write changes (00 R5 to R10): the account of notices (R463, R674), what the register's fields hold, and no
more. -/

namespace Sys2Proof.Machine

variable {s u v : State} {o : OfficeId}

/-! ### Only notices -/

/-- Office `o` has at most taken words from the port and raised notices (R21, R463, R674). -/
def noticesOnly (s u : State) (o : OfficeId) : Prop :=
  ∃ d, u = s.modOff o (fun _ => d) ∧
    d = { s.off o with pcieRx := d.pcieRx, log := d.log, held := d.held, noticesLost := d.noticesLost, regs := d.regs } ∧
    ∀ k, k ∉ noticeKeys → Sparse.get 0 d.regs k = Sparse.get 0 (s.off o).regs k

theorem noticesOnly_refl (s : State) (o : OfficeId) : noticesOnly s s o := ⟨s.off o, by simp [State.modOff, State.off], rfl, fun _ _ => rfl⟩

theorem noticesOnly_trans (h : noticesOnly s u o) (k : noticesOnly u v o) : noticesOnly s v o := by
  obtain ⟨d, rfl, hd, hr⟩ := h
  obtain ⟨e, rfl, he, hr'⟩ := k
  simp only [modOff_off_same] at he hr'
  refine ⟨e, by simp, he.trans ?_, fun k hk => (hr' k hk).trans (hr k hk)⟩
  exact congrArg (fun x : Office =>
    { x with pcieRx := e.pcieRx, log := e.log, held := e.held, noticesLost := e.noticesLost, regs := e.regs }) hd

theorem pcieIn_noticesOnly (n : Nat) : noticesOnly s (s.pcieIn o n) o := ⟨_, modOff_const _, rfl, fun _ _ => rfl⟩

/-- A register of the account of notices takes a value. -/
theorem wr_noticesOnly (f : Fld) (x : Nat) (hf : f.svc = false) (hk : f.key 0 0 ∈ noticeKeys) : noticesOnly s (s.wr o f x) o := by
  rw [State.wr, if_neg (by simp [hf])]
  exact ⟨_, modOff_const _, rfl, fun k h => Sparse.get_set_other 0 _ _ fun e => h (e ▸ hk)⟩

theorem logNotice_noticesOnly (n : Notice) : noticesOnly s (s.logNotice o n) o :=
  noticesOnly_trans ⟨_, modOff_const _, rfl, fun _ _ => rfl⟩ (wr_noticesOnly F.ERR_LOG_HEAD_NSEQ _ rfl (by decide))

theorem holdNotice_noticesOnly (n : Notice) : noticesOnly s (s.holdNotice o n) o := by
  unfold State.holdNotice
  split
  · exact noticesOnly_trans ⟨_, modOff_const _, rfl, fun _ _ => rfl⟩ (wr_noticesOnly F.PH_NOTICE_STAT_HELD _ rfl (by decide))
  · exact noticesOnly_trans ⟨_, modOff_const _, rfl, fun _ _ => rfl⟩ (wr_noticesOnly F.PH_CNT_NOTICELOST_COUNT _ rfl (by decide))

theorem raiseOne_noticesOnly (code : Nat) (b : List Byte) : noticesOnly s (s.raiseOne o code b) o :=
  noticesOnly_trans (logNotice_noticesOnly _) (holdNotice_noticesOnly _)

theorem raise_noticesOnly (code : Nat) (b : List Byte) : noticesOnly s (s.raise o code b) o := by
  unfold State.raise
  dsimp only
  split
  · exact noticesOnly_refl s o
  · split
    · refine noticesOnly_trans (noticesOnly_trans ?_ (raiseOne_noticesOnly _ _)) (raiseOne_noticesOnly _ _)
      exact ⟨_, modOff_const _, rfl, fun _ _ => rfl⟩
    · exact raiseOne_noticesOnly _ _

namespace noticesOnly

theorem onlyOff (h : noticesOnly s u o) : onlyOff s u o := by
  obtain ⟨d, rfl, -⟩ := h
  simp [Sys2Proof.Machine.onlyOff]

theorem out (h : noticesOnly s u o) : u.out = s.out := by
  obtain ⟨d, rfl, -⟩ := h
  rfl

theorem regs (h : noticesOnly s u o) {k : Nat} (hk : k ∉ noticeKeys) :
    Sparse.get 0 (u.off o).regs k = Sparse.get 0 (s.off o).regs k := by
  obtain ⟨d, rfl, -, hr⟩ := h
  simpa using hr k hk

/-- What an office holds beside its notices and its registers is as before. -/
theorem field {α : Type} (h : noticesOnly s u o) (g : Office → α)
    (hg : ∀ (d : Office) rx log held lost regs, g { d with pcieRx := rx, log := log, held := held, noticesLost := lost, regs := regs } = g d) :
    g (u.off o) = g (s.off o) := by
  obtain ⟨d, rfl, hd, -⟩ := h
  rw [modOff_off_same, hd, hg]

theorem svc (h : noticesOnly s u o) : u.svc = s.svc := by
  obtain ⟨d, rfl, -⟩ := h
  rfl

theorem tiles (h : noticesOnly s u o) : u.tiles = s.tiles := by
  obtain ⟨d, rfl, -⟩ := h
  rfl

theorem tile (h : noticesOnly s u o) (t : Fin 4) : u.tile t = s.tile t := by rw [State.tile, State.tile, h.tiles]

theorem regsKept (h : noticesOnly s u o) (l : List Nat) : regsKept s u o l := fun _ _ hk => h.regs hk

theorem rd (h : noticesOnly s u o) {f : Fld} {i j : Nat} (hk : f.key i j ∉ noticeKeys) : u.rd o f i j = s.rd o f i j := by
  unfold State.rd regGet
  rw [h.svc, h.regs hk]

theorem eventsNow (h : noticesOnly s u o) (f : Fld) (i j : Nat) : u.eventsNow o f i j = s.eventsNow o f i j := by
  unfold State.eventsNow
  rw [h.svc, h.field Office.fresh fun _ _ _ _ _ _ => rfl]

theorem owns (h : noticesOnly s u o) : u.owns o = s.owns o := by
  unfold State.owns State.role
  rw [h.rd (by decide)]

theorem mode (h : noticesOnly s u o) : u.mode o = s.mode o := by
  unfold State.mode
  rw [h.rd (by decide)]

theorem takesWrites (h : noticesOnly s u o) : u.takesWrites o = s.takesWrites o := by
  unfold State.takesWrites
  rw [h.mode, h.field Office.inReset fun _ _ _ _ _ _ => rfl, h.field Office.d3hot fun _ _ _ _ _ _ => rfl]

theorem heeds (h : noticesOnly s u o) (t : Fin 4) : u.heeds t o = s.heeds t o := by
  rw [State.heeds, State.heeds, h.tile]

end noticesOnly

/-! ### Writes that are refused, and writes of registers that hold nothing -/

theorem hostWrite_of_not_taken (addr x : Nat) (e w : Bool) (h : s.takesWrites o = false) : s.hostWrite o addr x e w = (s, false) := if_pos h

theorem hostWrite_of_taken (addr x : Nat) (e w : Bool) (h : s.takesWrites o = true) :
    s.hostWrite o addr x e w = (s.pcieIn o (tlpWords 4)).registerWrite o addr x e w := if_neg (by simp [h])

/-- A register of the service die is journalled as refused on an office that does not own (R9, R499). -/
theorem hostWrite_of_relief {addr : Nat} (x : Nat) (h : s.takesWrites o = true) (hw : isReadOnlyWindow addr = false)
    (hs : isServiceReg addr = true) (ho : s.owns o = false) :
    s.hostWrite o addr x = ((s.pcieIn o (tlpWords 4)).journal o addr x false, false) := by
  have hne : (fieldsAt addr).isEmpty = false := by
    cases hf : fieldsAt addr with
    | nil => simp [isServiceReg, hf] at hs
    | cons e es => rfl
  have hown : (s.pcieIn o (tlpWords 4)).owns o = false := (pcieIn_noticesOnly _).owns.trans ho
  rw [hostWrite_of_taken _ _ _ _ h]
  simp [State.registerWrite, hw, hne, hs, hown]

/-- A write that is taken stores the register after notices alone, unless a reserved value comes with an action bit (R5, R9, R499). -/
theorem hostWrite_stores {addr x : Nat} (h : s.takesWrites o = true) (hs : isServiceReg addr = true → s.owns o = true)
    (hw : isReadOnlyWindow addr = false) (hf : ∃ e ∈ fieldsAt addr, e.1.hostWritable = true)
    (hb : (∀ e ∈ fieldsAt addr, e.1.hostWritable = true → e.1.isBad (e.1.part x) = false) ∨
      ∀ e ∈ fieldsAt addr, e.1.acc = .wo → e.1.part x = 0) :
    ∃ u, noticesOnly s u o ∧ s.hostWrite o addr x = (u.storeReg o addr x, true) := by
  obtain ⟨e, he, hwr⟩ := hf
  have hne : (fieldsAt addr).isEmpty = false := List.isEmpty_eq_false_iff.2 (List.ne_nil_of_mem he)
  have hall : (fieldsAt addr).all (fun e => !e.1.hostWritable) = false := List.all_eq_false.2 ⟨e, he, by simp [hwr]⟩
  have hserv : (isServiceReg addr && !(s.pcieIn o (tlpWords 4)).owns o) = false := by
    rw [(pcieIn_noticesOnly _).owns]
    by_cases hk : isServiceReg addr = true <;> simp [hk]
    exact hs hk
  have hjournal : ∀ (c : Prop) [Decidable c] a, noticesOnly s (if c then s.pcieIn o (tlpWords 4) else
      (s.pcieIn o (tlpWords 4)).journal o addr x a) o := by
    intro c _ a
    split
    · exact pcieIn_noticesOnly _
    · exact noticesOnly_trans (pcieIn_noticesOnly _) (raise_noticesOnly _ _)
  rw [hostWrite_of_taken _ _ _ _ h, State.registerWrite]
  simp only [hw, hne, hall, hserv, Bool.false_or, Bool.or_false, Bool.not_false, Bool.true_and, Bool.false_eq_true, if_false]
  split
  next hbad =>
    have hact : ((fieldsAt addr).any fun e => decide (e.1.acc = .wo) && decide (e.1.part x ≠ 0)) = false := by
      refine List.any_eq_false.2 fun e he => ?_
      obtain hb | hb := hb
      · obtain ⟨y, hy, hk⟩ := List.any_eq_true.1 hbad
        obtain ⟨hk, hi⟩ := Bool.and_eq_true_iff.1 hk
        exact absurd hi (by simp [hb y hy hk])
      · by_cases ha : e.1.acc = .wo
        · simp [hb e he ha]
        · simp [ha]
    rw [hact, if_neg Bool.false_ne_true]
    exact ⟨_, noticesOnly_trans (hjournal _ _) (raise_noticesOnly _ _), rfl⟩
  next => exact ⟨_, hjournal _ _, rfl⟩

theorem hostWrite_of_writable {addr x : Nat} (h : writable s o addr x) (hw : isReadOnlyWindow addr = false)
    (hf : ∃ e ∈ fieldsAt addr, e.1.hostWritable = true) :
    ∃ u, noticesOnly s u o ∧ s.hostWrite o addr x = (u.storeReg o addr x, true) := by
  obtain ⟨ht, hs, hb⟩ := h
  exact hostWrite_stores ht hs hw hf (.inl hb)

/-- A register of action bits alone: writing it stores nothing (R8). -/
def holdsNothing (addr : Nat) : Bool :=
  !isReadOnlyWindow addr && !(fieldsAt addr).isEmpty && (fieldsAt addr).all (fun e => decide (e.1.acc = .wo)) && !isWriteLow addr &&
    !isWriteLow (addr - 4)

theorem holdsNothing_iff {addr : Nat} : holdsNothing addr = true ↔ isReadOnlyWindow addr = false ∧ fieldsAt addr ≠ [] ∧
    (∀ e ∈ fieldsAt addr, e.1.acc = .wo) ∧ isWriteLow addr = false ∧ isWriteLow (addr - 4) = false := by
  simp [holdsNothing, and_assoc]

theorem foldl_storeField_wo (l : List (Fld × Nat × Nat)) (x : Nat) (s : State) (h : ∀ e ∈ l, e.1.acc = .wo) :
    l.foldl (fun s e => s.storeField o x e) s = s := by
  induction l with
  | nil => rfl
  | cons e es ih =>
    have he : s.storeField o x e = s := by simp [State.storeField, h e (by simp)]
    rw [List.foldl_cons, he, ih fun e he => h e (by simp [he])]

theorem storeReg_of_holdsNothing {addr : Nat} (x : Nat) (h : holdsNothing addr = true) : s.storeReg o addr x = s := by
  obtain ⟨-, -, hwo, hl, hh⟩ := holdsNothing_iff.1 h
  simp [State.storeReg, hl, hh, foldl_storeField_wo _ _ _ hwo]

theorem hostWrite_of_holdsNothing {addr x : Nat} (hr : holdsNothing addr = true) (h : writable s o addr x) :
    ∃ u, noticesOnly s u o ∧ s.hostWrite o addr x = (u, true) := by
  obtain ⟨hw, hne, hwo, -⟩ := holdsNothing_iff.1 hr
  obtain ⟨e, es, hf⟩ := List.exists_cons_of_ne_nil hne
  have he : e ∈ fieldsAt addr := by simp [hf]
  obtain ⟨u, hu, hwr⟩ := hostWrite_of_writable h hw ⟨e, he, by simp [Fld.hostWritable, hwo e he]⟩
  exact ⟨u, hu, by rw [hwr, storeReg_of_holdsNothing _ hr]⟩

end Sys2Proof.Machine
end

section
/-! SUPPORT. Clearing counters (00 R14): what a list of clears holds and leaves, and the clear registers that are made of it. -/

namespace Sys2Proof.Machine

variable {s u : State} {o : OfficeId} {v : W32} {e : Fld × Nat} {cs : List (Fld × Nat)} {bits : ClearBits}

/-- The key of element `e.2` of a counter. -/
abbrev counterKey (e : Fld × Nat) : Nat := e.1.key e.2 0

/-- Clears the counters of a list. -/
def State.clearAll (s : State) (o : OfficeId) (cs : List (Fld × Nat)) : State := cs.foldl (fun s e => s.clearCounter o e.1 e.2) s

/-- The counters that bits `k` and up of `v` select. -/
def chosen (v : W32) : Nat → ClearBits → List (Fld × Nat)
  | _, [] => []
  | k, l :: ls => (if v.getLsbD k then l else []) ++ chosen v (k + 1) ls

/-! ### One counter -/

@[simp] theorem eventsNow_wr (f g : Fld) (x i j i' j' : Nat) : (s.wr o f x i j).eventsNow o g i' j' = s.eventsNow o g i' j' := by
  by_cases hf : f.svc = true <;> simp [State.wr, State.eventsNow, hf]

@[simp] theorem eventsNow_clearCounter (f g : Fld) (i j i' j' : Nat) :
    (s.clearCounter o f i j).eventsNow o g i' j' = s.eventsNow o g i' j' := eventsNow_wr _ _ _ _ _ _ _

/-- A register write leaves what any other key holds, at the office and at the service die. -/
theorem wr_keys (f : Fld) (x i j : Nat) {a : Nat} (h : a ≠ f.key i j) :
    Sparse.get 0 ((s.wr o f x i j).off o).regs a = Sparse.get 0 (s.off o).regs a ∧
      Sparse.get 0 (s.wr o f x i j).svc.regs a = Sparse.get 0 s.svc.regs a := by
  unfold State.wr
  split <;> simp [regSet, Sparse.get_set_other 0 _ _ h]

/-! ### A list of counters -/

theorem clearAll_nil : s.clearAll o [] = s := rfl

theorem clearAll_cons (e : Fld × Nat) (es : List (Fld × Nat)) : s.clearAll o (e :: es) = (s.clearCounter o e.1 e.2).clearAll o es := rfl

theorem clearAll_append (l m : List (Fld × Nat)) : s.clearAll o (l ++ m) = (s.clearAll o l).clearAll o m := List.foldl_append

/-- What clearing one counter keeps, clearing a list keeps. -/
theorem clearAll_keeps {α : Type} (g : State → α) (hg : ∀ (s : State) (e : Fld × Nat), e ∈ cs → g (s.clearCounter o e.1 e.2) = g s) :
    g (s.clearAll o cs) = g s := by
  induction cs generalizing s with
  | nil => rfl
  | cons e es ih => rw [clearAll_cons, ih fun s x hx => hg s x (by simp [hx]), hg s e (by simp)]

@[simp] theorem clearAll_pending : (s.clearAll o cs).pending = s.pending := clearAll_keeps State.pending fun _ _ _ => clearCounter_pending _ _ _
@[simp] theorem clearAll_now : (s.clearAll o cs).now = s.now := clearAll_keeps State.now fun _ _ _ => clearCounter_now _ _ _
@[simp] theorem clearAll_tiles : (s.clearAll o cs).tiles = s.tiles := clearAll_keeps State.tiles fun _ _ _ => clearCounter_tiles _ _ _
@[simp] theorem clearAll_out : (s.clearAll o cs).out = s.out := clearAll_keeps State.out fun _ _ _ => clearCounter_out _ _ _
@[simp] theorem clearAll_peer : (s.clearAll o cs).off (otherOffice o) = s.off (otherOffice o) :=
  clearAll_keeps (State.off · (otherOffice o)) fun _ _ _ => wr_off_peer _ _ _ _
@[simp] theorem clearAll_inReset : ((s.clearAll o cs).off o).inReset = (s.off o).inReset :=
  clearAll_keeps (fun s => (s.off o).inReset) fun _ _ _ => by unfold State.clearCounter State.wr; split <;> simp
@[simp] theorem clearAll_d3hot : ((s.clearAll o cs).off o).d3hot = (s.off o).d3hot :=
  clearAll_keeps (fun s => (s.off o).d3hot) fun _ _ _ => by unfold State.clearCounter State.wr; split <;> simp
@[simp] theorem clearAll_eventsNow (f : Fld) (i j : Nat) : (s.clearAll o cs).eventsNow o f i j = s.eventsNow o f i j :=
  clearAll_keeps (State.eventsNow · o f i j) fun _ _ _ => eventsNow_clearCounter _ _ _ _ _ _

theorem clearAll_svc (h : ∀ e ∈ cs, e.1.svc = false) : (s.clearAll o cs).svc = s.svc :=
  clearAll_keeps State.svc fun _ e he => wr_svc _ _ _ _ (h e he)

/-- Clears leave what any other key holds. -/
theorem clearAll_keys {a : Nat} (h : ∀ e ∈ cs, a ≠ counterKey e) :
    Sparse.get 0 ((s.clearAll o cs).off o).regs a = Sparse.get 0 (s.off o).regs a ∧
      Sparse.get 0 (s.clearAll o cs).svc.regs a = Sparse.get 0 s.svc.regs a :=
  ⟨clearAll_keeps (fun s => Sparse.get 0 (s.off o).regs a) fun _ e he => (wr_keys _ _ _ _ (h e he)).1,
    clearAll_keeps (fun s => Sparse.get 0 s.svc.regs a) fun _ e he => (wr_keys _ _ _ _ (h e he)).2⟩

theorem rd_clearAll_other {f : Fld} {i j : Nat} (h : ∀ e ∈ cs, f.key i j ≠ counterKey e) : (s.clearAll o cs).rd o f i j = s.rd o f i j := by
  unfold State.rd regGet
  rw [(clearAll_keys h).1, (clearAll_keys h).2]

/-- Each counter of the list holds the events of the tick afterwards (R14). -/
theorem rd_clearAll_same (hn : (cs.map counterKey).Nodup) (he : e ∈ cs) :
    (s.clearAll o cs).rd o e.1 e.2 = min (s.eventsNow o e.1 e.2) (2 ^ e.1.w - 1) := by
  induction cs generalizing s with
  | nil => simp at he
  | cons x xs ih =>
    obtain ⟨hx, hxs⟩ := List.nodup_cons.1 hn
    rw [clearAll_cons]
    obtain rfl | he := List.mem_cons.1 he
    · have ho : ∀ y ∈ xs, counterKey e ≠ counterKey y := fun y hy h => hx (List.mem_map.2 ⟨y, hy, h.symm⟩)
      rw [rd_clearAll_other ho, clearCounter_reads]
    · rw [ih hxs he, eventsNow_clearCounter]

theorem clearAll_takesWrites (h : ∀ e ∈ cs, F.GLB_MODE_MODE.key 0 0 ≠ counterKey e) :
    (s.clearAll o cs).takesWrites o = s.takesWrites o := by
  unfold State.takesWrites State.mode
  rw [rd_clearAll_other h, clearAll_inReset, clearAll_d3hot]

/-! ### The counters that a value selects -/

theorem mem_chosen (k : Nat) : e ∈ chosen v k bits ↔ ∃ j l, bits[j]? = some l ∧ v.getLsbD (k + j) = true ∧ e ∈ l := by
  induction bits generalizing k with
  | nil => simp [chosen]
  | cons l ls ih =>
    rw [chosen, List.mem_append, ih]
    constructor
    · rintro (h | ⟨j, m, hm, hv, he⟩)
      · by_cases hv : v.getLsbD k = true
        · exact ⟨0, l, rfl, hv, by simpa [hv] using h⟩
        · simp [hv] at h
      · exact ⟨j + 1, m, hm, by rwa [show k + (j + 1) = k + 1 + j by omega], he⟩
    · rintro ⟨j, m, hm, hv, he⟩
      cases j with
      | zero =>
        obtain rfl : l = m := by simpa using hm
        exact .inl (by simpa [show v.getLsbD k = true from hv] using he)
      | succ j => exact .inr ⟨j, m, hm, by rwa [show k + 1 + j = k + (j + 1) by omega], he⟩

theorem chosen_sublist (k : Nat) : (chosen v k bits).Sublist bits.flatten := by
  induction bits generalizing k with
  | nil => exact .slnil
  | cons l ls ih =>
    rw [chosen, List.flatten_cons]
    refine List.Sublist.append ?_ (ih _)
    split
    · exact .refl _
    · exact List.nil_sublist _

theorem bitsOf_one (x k : Nat) : bitsOf x k 1 = 1 ↔ x.testBit k = true := by
  rw [Nat.testBit_eq_decide_div_mod_eq, decide_eq_true_iff]
  rfl

theorem bitsOf_toNat (v : W32) (k : Nat) : bitsOf v.toNat k 1 = 1 ↔ v.getLsbD k = true := bitsOf_one _ _

theorem clearBits_eq (i k : Nat) (l : List Fld) : s.clearBits o v.toNat i k l = s.clearAll o (chosen v k (each i l)) := by
  induction l generalizing s k with
  | nil => rfl
  | cons f fs ih =>
    rw [State.clearBits, ih]
    by_cases h : v.getLsbD k = true
    · rw [if_pos ((bitsOf_toNat v k).2 h)]
      simp [each, chosen, h, clearAll_cons]
    · rw [if_neg fun hb => h ((bitsOf_toNat v k).1 hb)]
      simp [each, chosen, h]

end Sys2Proof.Machine
end

section
/-! SUPPORT. The clear registers: each holds nothing, and its bits select counters whose keys differ (00 R8, R14). -/

namespace Sys2Proof.Machine

variable {addr : Nat} {s u : State} {o : OfficeId} {v : W32} {bits : ClearBits} {c : Instr}

/-! ### The registers -/

theorem addr_of_locate {f : Fld} {ij : Nat × Nat} (h : f.locate addr = some ij) : f.addr ij.1 ij.2 = addr ∧ ij.1 < f.n ∧ ij.2 < f.n2 := by
  unfold Fld.locate at h
  split at h
  · simp at h
  · extract_lets d i r j at h
    split at h
    next hc => obtain rfl := Option.some.inj h; exact hc
    next => simp at h

/-- No element of the field lies `ofs` bytes into a pigeonhole's block of registers. -/
def offBlocks (ofs : Nat) (f : Fld) : Bool :=
  decide (0x0740000 ≤ f.off) || decide (f.stride % 64 = 0 ∧ f.stride2 % 64 = 0 ∧ f.off % 64 ≠ ofs)

theorem locate_of_offBlocks {ofs p : Nat} {f : Fld} (hp : p < 4096) (ho : ofs < 64) (h : offBlocks ofs f = true) :
    f.locate (0x0700000 + ofs + p * 64) = none := by
  refine Option.eq_none_iff_forall_ne_some.2 fun ij hij => ?_
  obtain ⟨ha, -, -⟩ := addr_of_locate hij
  unfold Fld.addr at ha
  simp only [offBlocks, Bool.or_eq_true, decide_eq_true_eq] at h
  obtain h | ⟨h1, h2, h3⟩ := h
  · omega
  · have e1 : ij.1 * f.stride % 64 = 0 := by simp [Nat.mul_mod, h1]
    have e2 : ij.2 * f.stride2 % 64 = 0 := by simp [Nat.mul_mod, h2]
    omega

theorem fieldsAt_pigeonhole {p ofs : Nat} (hp : p < 4096) (ho : ofs < 64) :
    fieldsAt (0x0700000 + ofs + p * 64) = (regsPh.filter fun f => !offBlocks ofs f).filterMap fun f =>
      (f.locate (0x0700000 + ofs + p * 64)).map fun ij => (f, ij.1, ij.2) := by
  have hr : regsAt (0x0700000 + ofs + p * 64) = regsPh := by
    unfold regsAt
    repeat rw [if_neg (by omega)]
    rw [if_pos (by omega)]
  rw [fieldsAt, hr, List.filterMap_filter]
  refine List.filterMap_congr fun f _ => ?_
  by_cases h : offBlocks ofs f = true
  · simp [h, locate_of_offBlocks hp ho h]
  · simp [h]

theorem arrayAt_pigeonhole {p ofs : Nat} (hp : p < 4096) (ho : ofs < 64) : arrayAt (0x0700000 + ofs + p * 64) = none := by
  unfold arrayAt
  repeat rw [if_neg (by omega)]

theorem holdsNothing_phCntClr (p : BitVec 12) : holdsNothing (F.PH_CNT_CLR_MAILBAG.addr p.toNat 0) = true := by
  have hp : p.toNat < 4096 := p.isLt
  have ha : F.PH_CNT_CLR_MAILBAG.addr p.toNat 0 = 0x0700000 + 0x34 + p.toNat * 64 := by simp [Fld.addr, F.PH_CNT_CLR_MAILBAG, mkA]
  have hf : regsPh.filter (fun f => !offBlocks 0x34 f) = [F.PH_CNT_CLR_RETURNED, F.PH_CNT_CLR_UNDELIV, F.PH_CNT_CLR_MAILBAG] := by decide +kernel
  have hwo : ∀ f ∈ [F.PH_CNT_CLR_RETURNED, F.PH_CNT_CLR_UNDELIV, F.PH_CNT_CLR_MAILBAG], f.acc = .wo := by decide
  have hl : F.PH_CNT_CLR_RETURNED.locate (0x0700000 + 0x34 + p.toNat * 64) = some (p.toNat, 0) := by
    simp [Fld.locate, Fld.addr, F.PH_CNT_CLR_RETURNED, mkA, hp]
  rw [ha, holdsNothing_iff, fieldsAt_pigeonhole hp (by decide), hf]
  refine ⟨?_, ?_, fun e he => ?_, ?_, ?_⟩
  · simp [isReadOnlyWindow, arrayAt_pigeonhole hp (show 0x34 < 64 by decide)]
    omega
  · simp [hl]
  · obtain ⟨f, hmem, he⟩ := List.mem_filterMap.1 he
    obtain ⟨ij, -, rfl⟩ := Option.map_eq_some_iff.1 he
    exact hwo f hmem
  · simp [isWriteLow, writePairs, inSeries]
    omega
  · simp [isWriteLow, writePairs, inSeries]
    omega

/-! ### What a clear register does -/

/-- What `Obligations.CountersAreClearedBitByBit` says of a write that clears the counters of `bits`. -/
def bitsCleared (s u : State) (o : OfficeId) (v : W32) (bits : ClearBits) : Prop :=
  (∀ j l, bits[j]? = some l → v.getLsbD j = true → ∀ e ∈ l, u.rd o e.1 e.2 = s.eventsNow o e.1 e.2) ∧
    (∀ a, a ∉ noticeKeys → (∀ j l, bits[j]? = some l → v.getLsbD j = true → ∀ e ∈ l, a ≠ e.1.key e.2 0) →
      Sparse.get 0 (u.off o).regs a = Sparse.get 0 (s.off o).regs a ∧ Sparse.get 0 u.svc.regs a = Sparse.get 0 s.svc.regs a) ∧
    (∀ y, (u.tile y).cnt = (s.tile y).cnt ∧ (u.tile y).cells = (s.tile y).cells) ∧ u.off (otherOffice o) = s.off (otherOffice o) ∧
    u.out = s.out ∧ u.pending = s.pending ∧ u.now = s.now

/-- What it says of command `c` that writes the clear register at `addr`. -/
def clearsBits (s : State) (o : OfficeId) (v : W32) (c : Instr) (addr : Nat) (bits : ClearBits) : Prop :=
  (s.takesWrites o = false → exec c s = .next s) ∧
  (s.takesWrites o = true → isServiceReg addr = true → s.owns o = false → gives c s fun u =>
    onlyOff s u o ∧ regsKept s u o [] ∧ u.out = s.out) ∧
  (writable s o addr v.toNat → v.toNat < 2 ^ 30 → (addr = F.STO_CNT_CLR_DROPRND.off → v.getLsbD 8 = false) → eventsFit s o bits →
    gives c s fun u => bitsCleared s u o v bits)

theorem bitsCleared_clearAll (h : noticesOnly s u o) (hn : (bits.flatten.map counterKey).Nodup) (hf : eventsFit s o bits) :
    bitsCleared s (u.clearAll o (chosen v 0 bits)) o v bits := by
  have hmem : ∀ e, e ∈ chosen v 0 bits ↔ ∃ j l, bits[j]? = some l ∧ v.getLsbD j = true ∧ e ∈ l := fun e => by
    simpa using mem_chosen (v := v) 0
  refine ⟨fun j l hl hv e he => ?_, fun a ha hk => ?_, fun y => ?_, ?_, ?_, ?_, ?_⟩
  · have hw := (hf l (List.mem_of_getElem? hl) e he).1
    rw [rd_clearAll_same (hn.sublist ((chosen_sublist 0).map _)) ((hmem e).2 ⟨j, l, hl, hv, he⟩), h.eventsNow]
    exact Nat.min_eq_left (by omega)
  · have hne : ∀ e ∈ chosen v 0 bits, a ≠ counterKey e := fun e he => by
      obtain ⟨j, l, hl, hv, he⟩ := (hmem e).1 he
      exact hk j l hl hv e he
    rw [(clearAll_keys hne).1, (clearAll_keys hne).2, h.regs ha, h.svc]
    exact ⟨rfl, rfl⟩
  · rw [State.tile, clearAll_tiles, ← State.tile, h.tile]
    exact ⟨rfl, rfl⟩
  · rw [clearAll_peer]
    obtain ⟨-, -, -, -, hp⟩ := h.onlyOff
    exact hp
  · simp [h.out]
  · obtain ⟨hp, -⟩ := h.onlyOff
    simpa using hp
  · obtain ⟨-, hp, -⟩ := h.onlyOff
    simpa using hp

theorem bitsCleared_modTile {t : Fin 4} {f : Tile → Tile} (h : bitsCleared s u o v bits) (hc : ∀ d, (f d).cnt = d.cnt ∧ (f d).cells = d.cells) :
    bitsCleared s (u.modTile t f) o v bits := by
  obtain ⟨h1, h2, h3, h4⟩ := h
  refine ⟨h1, h2, fun y => ?_, h4⟩
  obtain rfl | hy := eq_or_ne y t
  · simpa [(hc _).1, (hc _).2] using h3 y
  · simpa [modTile_tile_other _ hy] using h3 y

/-- A command clears what the value selects when a refused write leaves it no more to do, and one that goes through clears. -/
theorem clearsBits_of (hr : holdsNothing addr = true) (hn : (bits.flatten.map counterKey).Nodup)
    (hrefused : s.takesWrites o = false ∨ isServiceReg addr = true → ∀ u, s.hostWrite o addr v.toNat = (u, false) → exec c s = .next u)
    (hthrough : ∀ u, noticesOnly s u o → s.hostWrite o addr v.toNat = (u, true) → s.takesWrites o = true → v.toNat < 2 ^ 30 →
      (addr = F.STO_CNT_CLR_DROPRND.off → v.getLsbD 8 = false) → eventsFit s o bits →
      bitsCleared s (u.clearAll o (chosen v 0 bits)) o v bits →
      gives c s fun u => bitsCleared s u o v bits) :
    clearsBits s o v c addr bits := by
  refine ⟨fun ht => hrefused (.inl ht) s (hostWrite_of_not_taken _ _ _ _ ht), fun ht hs ho => ?_, fun hw hv h8 hf => ?_⟩
  · obtain ⟨hwin, -⟩ := holdsNothing_iff.1 hr
    have hu : noticesOnly s ((s.pcieIn o (tlpWords 4)).journal o addr v.toNat false) o :=
      noticesOnly_trans (pcieIn_noticesOnly _) (raise_noticesOnly _ _)
    exact ⟨_, hrefused (.inr hs) _ (hostWrite_of_relief _ ht hwin hs ho), hu.onlyOff, hu.regsKept _, hu.out⟩
  · obtain ⟨u, hu, hwr⟩ := hostWrite_of_holdsNothing hr hw
    exact hthrough u hu hwr hw.1 hv h8 hf (bitsCleared_clearAll hu hn hf)

theorem clearWrite_of_refused {i : Nat} {l : List Fld} (h : s.hostWrite o addr v.toNat = (u, false)) : s.clearWrite o addr v.toNat i l = u := by
  simp [State.clearWrite, h]

theorem clearWrite_of_through {i : Nat} {l : List Fld} (h : s.hostWrite o addr v.toNat = (u, true)) :
    s.clearWrite o addr v.toNat i l = u.clearAll o (chosen v 0 (each i l)) := by
  simp [State.clearWrite, h, clearBits_eq]

/-- A command that only clears the counters of a list. -/
theorem clearsBits_of_clearWrite {i : Nat} {l : List Fld} (hr : holdsNothing addr = true) (hn : ((each i l).flatten.map counterKey).Nodup)
    (hc : exec c s = .next (s.clearWrite o addr v.toNat i l)) : clearsBits s o v c addr (each i l) :=
  clearsBits_of hr hn (fun _ u h => by rw [hc, clearWrite_of_refused h])
    fun u _ h _ _ _ _ hb => ⟨_, hc, by rwa [clearWrite_of_through h]⟩

end Sys2Proof.Machine
end

section
/-! SUPPORT. The CNT_CLR commands, each for the counters of its register. -/

namespace Sys2Proof.Machine

variable {s u : State} {o : OfficeId} {v : W32}

/-- A pair whose events fit its low half is cleared as its two halves are. -/
theorem clearPair_eq {lo hi : Fld} (hw : lo.w = 32) (hl : s.eventsNow o lo < 2 ^ 32) (hh : s.eventsNow o hi = 0) :
    s.clearPair o lo hi = s.clearAll o [(lo, 0), (hi, 0)] := by
  simp only [clearAll_cons, clearAll_nil, State.clearCounter, State.clearPair, State.wrPair, eventsNow_wr, hw, hh]
  rw [Nat.min_eq_left (by omega), Nat.min_eq_left (by omega), Nat.div_eq_of_lt hl, Nat.zero_min]

/-- Bit `b` of a clear register clears a pair. -/
theorem clearPair_of_bit {lo hi : Fld} (b : Nat) (hw : lo.w = 32) (hl : s.eventsNow o lo < 2 ^ 32) (hh : s.eventsNow o hi = 0) :
    (if bitsOf v.toNat b 1 = 1 then s.clearPair o lo hi else s) = s.clearAll o (if v.getLsbD b then [(lo, 0), (hi, 0)] else []) := by
  simp only [bitsOf_toNat, clearPair_eq hw hl hh]
  split <;> rfl

theorem clearsBits_stoCntClr : clearsBits s o v (.stoCntClr o v) F.STO_CNT_CLR_DROPRND.off (each 0 [F.STO_CNT_DROPRND_COUNT,
    F.STO_CNT_DROPDIST_COUNT, F.STO_CNT_SPILL_COUNT, F.STO_CNT_WERR_COUNT, F.STO_CNT_RPOIS_COUNT, F.STO_CNT_IDXERR_COUNT,
    F.STO_CNT_AUTOUNPIN_COUNT, F.STO_CNT_STALL_COUNT]) := by
  have hserv : isServiceReg F.STO_CNT_CLR_DROPRND.off = false := by decide +kernel
  refine clearsBits_of (by decide +kernel) (by decide +kernel) (fun ht u h => ?_) fun u _ h _ _ h8 _ hb => ⟨_, rfl, ?_⟩
  · have ht : s.takesWrites o = false := by simpa [hserv] using ht
    obtain rfl : s = u := by rw [hostWrite_of_not_taken _ _ _ _ ht] at h; exact congrArg Prod.fst h
    simp [exec, execStoCntClr, clearWrite_of_refused h, ht]
  · have h8 : ¬ bitsOf v.toNat 8 1 = 1 := fun hk => Bool.false_ne_true ((h8 rfl).symm.trans ((bitsOf_toNat v 8).1 hk))
    simpa [clearWrite_of_through h, h8] using hb

theorem clearsBits_sortLnCntClr (t : Fin 4) : clearsBits s o v (.sortLnCntClr o t v) (F.SORT_LN_CNT_CLR_CRC.addr t.val 0)
    (each t.val [F.SORT_LN_CNT_CRC_COUNT, F.SORT_LN_CNT_BADHDR_COUNT, F.SORT_LN_CNT_LOSTFRM_COUNT, F.SORT_LN_CNT_OVFDROP_COUNT,
      F.SORT_LN_CNT_LATE_COUNT, F.SORT_LN_CNT_LATEDROP_COUNT, F.SORT_LN_CNT_RETRAIN_COUNT, F.SORT_LN_CNT_DLNAK_COUNT,
      F.SORT_LN_PEAK_ENTRIES]) := by
  have hserv : isServiceReg (F.SORT_LN_CNT_CLR_CRC.addr t.val 0) = false := by revert t; decide +kernel
  refine clearsBits_of (by revert t; decide +kernel) (by revert t; decide +kernel) (fun ht u h => ?_) fun u _ h _ _ _ _ hb => ⟨_, rfl, ?_⟩
  · have ht : s.takesWrites o = false := by simpa [hserv] using ht
    simp [exec, execSortLnCntClr, clearWrite_of_refused h, ht]
  · rw [clearWrite_of_through h]
    dsimp only
    split
    · exact bitsCleared_modTile hb fun _ => ⟨rfl, rfl⟩
    · exact hb

theorem clearsBits_colCntClr : clearsBits s o v (.colCntClr o v) F.COL_CNT_CLR_DONE.off ([[(F.COL_CNT_DONE_COUNT, 0)],
    [(F.COL_CNT_CLIPPED_COUNT, 0)], [(F.COL_CNT_PARTIAL_COUNT, 0)], [(F.COL_CNT_MERGED_COUNT, 0)], [(F.COL_CNT_REFUSED_COUNT, 0)],
    [(F.COL_BYTES_LO_COUNT_L, 0), (F.COL_BYTES_HI_COUNT_H, 0)]]) := by
  refine clearsBits_of (by decide +kernel) (by decide +kernel) (fun _ u h => by simp [exec, execColCntClr, h])
    fun u hu h _ _ _ hf hb => ⟨_, rfl, ?_⟩
  obtain ⟨hl, -⟩ := hf [(F.COL_BYTES_LO_COUNT_L, 0), (F.COL_BYTES_HI_COUNT_H, 0)] (by simp) (F.COL_BYTES_LO_COUNT_L, 0) (by simp)
  obtain ⟨-, hh⟩ := hf [(F.COL_BYTES_LO_COUNT_L, 0), (F.COL_BYTES_HI_COUNT_H, 0)] (by simp) (F.COL_BYTES_HI_COUNT_H, 0) (by simp)
  rw [h]
  dsimp only
  rw [if_pos rfl, clearBits_eq, clearPair_of_bit 5 rfl (by rwa [clearAll_eventsNow, hu.eventsNow])
    (by rw [clearAll_eventsNow, hu.eventsNow]; exact hh (by simp)), ← clearAll_append]
  simpa [each, chosen] using hb

/-- Clears of other registers than the mode's leave whether the office takes writes. -/
theorem clearAll_takesWrites_of_bits {bits : ClearBits} (h : ∀ e ∈ bits.flatten, F.GLB_MODE_MODE.key 0 0 ≠ counterKey e) (k : Nat) :
    (s.clearAll o (chosen v k bits)).takesWrites o = s.takesWrites o :=
  clearAll_takesWrites fun e he => h e ((chosen_sublist k).subset he)

theorem clearsBits_cmpCntClr : clearsBits s o v (.cmpCntClr o v) F.CMP_CNT_CLR_COMP.off ([[(F.CMP_CNT_COMP_COUNT, 0)],
    [(F.CMP_CNT_KEY_COUNT, 0)], [(F.CMP_CNT_PLAIN_COUNT, 0)], [(F.CMP_CNT_VFAIL_COUNT, 0)], [(F.CMP_CNT_STPOIS_COUNT, 0)],
    [(F.CMP_IN_LO_COUNT_L, 0), (F.CMP_IN_HI_COUNT_H, 0)], [(F.CMP_OUT_LO_COUNT_L, 0), (F.CMP_OUT_HI_COUNT_H, 0)]]) := by
  have hserv : isServiceReg F.CMP_CNT_CLR_COMP.off = false := by decide +kernel
  refine clearsBits_of (by decide +kernel) (by decide +kernel) (fun ht u h => ?_) fun u hu h ht _ _ hf hb => ⟨_, rfl, ?_⟩
  · have ht : s.takesWrites o = false := by simpa [hserv] using ht
    obtain rfl : s = u := by rw [hostWrite_of_not_taken _ _ _ _ ht] at h; exact congrArg Prod.fst h
    simp [exec, execCmpCntClr, clearWrite_of_refused h, ht]
  · obtain ⟨hil, -⟩ := hf [(F.CMP_IN_LO_COUNT_L, 0), (F.CMP_IN_HI_COUNT_H, 0)] (by simp) (F.CMP_IN_LO_COUNT_L, 0) (by simp)
    obtain ⟨-, hih⟩ := hf [(F.CMP_IN_LO_COUNT_L, 0), (F.CMP_IN_HI_COUNT_H, 0)] (by simp) (F.CMP_IN_HI_COUNT_H, 0) (by simp)
    obtain ⟨hol, -⟩ := hf [(F.CMP_OUT_LO_COUNT_L, 0), (F.CMP_OUT_HI_COUNT_H, 0)] (by simp) (F.CMP_OUT_LO_COUNT_L, 0) (by simp)
    obtain ⟨-, hoh⟩ := hf [(F.CMP_OUT_LO_COUNT_L, 0), (F.CMP_OUT_HI_COUNT_H, 0)] (by simp) (F.CMP_OUT_HI_COUNT_H, 0) (by simp)
    have hih := hih (by simp)
    have hoh := hoh (by simp)
    have ht1 := (clearAll_takesWrites_of_bits (s := u) (o := o) (v := v) (bits := each 0 [F.CMP_CNT_COMP_COUNT, F.CMP_CNT_KEY_COUNT,
      F.CMP_CNT_PLAIN_COUNT, F.CMP_CNT_VFAIL_COUNT, F.CMP_CNT_STPOIS_COUNT]) (by decide +kernel) 0).trans (hu.takesWrites.trans ht)
    rw [clearWrite_of_through h]
    generalize hw : u.clearAll o (chosen v 0 (each 0 [F.CMP_CNT_COMP_COUNT, F.CMP_CNT_KEY_COUNT,
      F.CMP_CNT_PLAIN_COUNT, F.CMP_CNT_VFAIL_COUNT, F.CMP_CNT_STPOIS_COUNT])) = w at ht1 ⊢
    have hev : ∀ f i, w.eventsNow o f i = s.eventsNow o f i := fun f i => by rw [← hw, clearAll_eventsNow, hu.eventsNow]
    have ht2 : (w.clearAll o (if v.getLsbD 5 then [(F.CMP_IN_LO_COUNT_L, 0), (F.CMP_IN_HI_COUNT_H, 0)] else [])).takesWrites o = true := by
      refine (clearAll_takesWrites ?_).trans ht1
      split <;> decide
    simp only [ht1, true_and]
    rw [clearPair_of_bit 5 rfl (by rwa [hev]) (by rwa [hev])]
    simp only [ht2, true_and]
    rw [clearPair_of_bit 6 rfl (by rwa [clearAll_eventsNow, hev]) (by rwa [clearAll_eventsNow, hev]), ← hw,
      ← clearAll_append, ← clearAll_append]
    simpa [each, chosen] using hb

theorem clearsBits_ringCntClr : clearsBits s o v (.ringCntClr o v) F.RING_CTL_CRC.off
    (each 0 [F.RING_CNT_CRC_COUNT, F.RING_CNT_LATESM_COUNT, F.RING_CNT_PDREJ_COUNT]) := by
  refine clearsBits_of (by decide +kernel) (by decide +kernel) (fun _ u h => by simp [exec, execRingCntClr, State.ringCtl, h])
    fun u hu h _ hv _ _ hb => ⟨_, rfl, ?_⟩
  have h30 : ¬ bitsOf v.toNat 30 1 = 1 := by rw [bitsOf, Nat.div_eq_of_lt hv]; decide
  have h31 : ¬ bitsOf v.toNat 31 1 = 1 := by rw [bitsOf, Nat.div_eq_of_lt (by omega)]; decide
  simpa [State.ringCtl, h, h30, h31, clearBits_eq] using hb

theorem foldl_clearCounter (f : Fld) (l : List Nat) : l.foldl (fun s a => s.clearCounter o f a) s = s.clearAll o (l.map fun a => (f, a)) := by
  rw [State.clearAll, List.foldl_map]

theorem clearAll_ite (c : Bool) (l : List (Fld × Nat)) : (if c then s.clearAll o l else s) = s.clearAll o (if c then l else []) := by
  cases c <;> rfl

theorem clearsBits_errCntClr : clearsBits s o v (.errCntClr o v) F.ERR_CNT_CLR_CE.off ([(List.range 8).map fun a => (F.ERR_CNT_CE_COUNT, a),
    (List.range 8).map fun a => (F.ERR_CNT_UE_COUNT, a), [(F.ERR_CNT_RTEVICT_COUNT, 0)], [(F.ERR_CNT_PWREF_COUNT, 0)]]) := by
  refine clearsBits_of (by decide +kernel) (by decide +kernel) (fun _ u h => by simp [exec, execErrCntClr, h])
    fun u hu h _ _ _ _ hb => ⟨_, rfl, ?_⟩
  have h1 : ∀ (s : State) f, s.clearCounter o f 0 = s.clearAll o [(f, 0)] := fun _ _ => rfl
  rw [h]
  dsimp only
  rw [if_neg (by decide)]
  simp only [foldl_clearCounter, h1, clearAll_ite]
  simpa only [← clearAll_append, chosen, List.append_nil, List.append_assoc, Nat.zero_add, Nat.reduceAdd] using hb

end Sys2Proof.Machine
end

section
/-! SUPPORT. The clear registers of an office, and those whose bits wait in a tile (02 R75; 03 R120; 00 R14). -/

namespace Sys2Proof.Machine

variable {s u : State} {o : OfficeId} {v : W32}

theorem pigeonholeCounters_nodup (p : BitVec 12) : ((each p.toNat [F.PH_CNT_MAILBAG_COUNT, F.PH_CNT_UNDELIV_COUNT,
    F.PH_CNT_RETURNED_COUNT]).flatten.map counterKey).Nodup := by
  simp [each, Fld.key, Fld.addr, F.PH_CNT_MAILBAG_COUNT, F.PH_CNT_UNDELIV_COUNT, F.PH_CNT_RETURNED_COUNT, mkA]

/-- What the statement says of each command, for the counters of its register. -/
theorem eachClear_clearsBits (t : Fin 4) (k : Fin 2) (x : Bool) (p : BitVec 12) : eachClear o t k x p v (clearsBits s o v) :=
  ⟨clearsBits_of_clearWrite (by decide +kernel) (by decide +kernel) rfl,
    clearsBits_sortLnCntClr t,
    clearsBits_of_clearWrite (by decide +kernel) (by decide +kernel) rfl,
    clearsBits_cmpCntClr,
    clearsBits_stoCntClr,
    clearsBits_of_clearWrite (by revert t; decide +kernel) (by revert t; decide +kernel) rfl,
    clearsBits_colCntClr,
    clearsBits_of_clearWrite (by decide +kernel) (by decide +kernel) rfl,
    clearsBits_ringCntClr,
    clearsBits_of_clearWrite (holdsNothing_phCntClr p) (pigeonholeCounters_nodup p) rfl,
    clearsBits_of_clearWrite (by decide +kernel) (by decide +kernel) rfl,
    clearsBits_of_clearWrite (by decide +kernel) (by decide +kernel) rfl,
    clearsBits_of_clearWrite (by decide +kernel) (by decide +kernel) rfl,
    clearsBits_of_clearWrite (by revert k; decide +kernel) (by revert k; decide +kernel) rfl,
    clearsBits_of_clearWrite (by decide +kernel) (by decide +kernel) rfl,
    clearsBits_of_clearWrite (by revert x; decide +kernel) (by revert x; decide +kernel) rfl,
    clearsBits_of_clearWrite (by decide +kernel) (by decide +kernel) rfl,
    clearsBits_of_clearWrite (by decide +kernel) (by decide +kernel) rfl,
    clearsBits_of_clearWrite (by decide +kernel) (by decide +kernel) rfl,
    clearsBits_of_clearWrite (by decide +kernel) (by decide +kernel) rfl,
    clearsBits_errCntClr⟩

/-- A bit of a tile's clear register waits in a tile that heeds the owner, whose counters are cleared at the round boundary (R14). -/
theorem waitsInTile {addr : Nat} {c : Instr} {t : Fin 4} {f : Tile → Tile} (hr : holdsNothing addr = true) (hw : writable s o addr v.toNat)
    (hc : exec c s = .next (
      let r := s.hostWrite o addr v.toNat
      if r.2 && r.1.owns o && r.1.heeds t o then r.1.modTile t f else r.1)) :
    gives c s fun u => (∀ y, u.tile y = if y = t ∧ s.owns o = true ∧ s.heeds t o = true then f (s.tile y) else s.tile y) ∧
      u.svc = s.svc ∧ u.off (otherOffice o) = s.off (otherOffice o) ∧ regsKept s u o [] ∧ u.out = s.out := by
  obtain ⟨u, hu, hwr⟩ := hostWrite_of_holdsNothing hr hw
  obtain ⟨-, -, -, -, hp⟩ := hu.onlyOff
  refine ⟨_, hc, ?_⟩
  rw [hwr]
  dsimp only
  rw [Bool.true_and, hu.owns, hu.heeds]
  split
  next h =>
    obtain ⟨ho, hh⟩ := Bool.and_eq_true_iff.1 h
    refine ⟨fun y => ?_, hu.svc, hp, hu.regsKept _, hu.out⟩
    obtain rfl | hy := eq_or_ne y t
    · simp [ho, hh, hu.tile]
    · simp [modTile_tile_other _ hy, hy, hu.tile]
  next h =>
    have hn : ¬ (s.owns o = true ∧ s.heeds t o = true) := fun hk => h (by simp [hk])
    exact ⟨fun y => by simp [hn, hu.tile], hu.svc, hp, hu.regsKept _, hu.out⟩

theorem clearAll_onlyOff {cs : List (Fld × Nat)} (h : noticesOnly s u o) (hc : ∀ e ∈ cs, e.1.svc = false) : onlyOff s (u.clearAll o cs) o := by
  obtain ⟨hp, hn, ht, hs, ho⟩ := h.onlyOff
  exact ⟨by simp [hp], by simp [hn], by simp [ht], (clearAll_svc hc).trans hs, clearAll_peer.trans ho⟩

theorem wr_onlyOff {f : Fld} (x : Nat) (h : onlyOff s u o) (hf : f.svc = false) : onlyOff s (u.wr o f x) o := by
  obtain ⟨hp, hn, ht, hs, ho⟩ := h
  exact ⟨by simp [hp], by simp [hn], by simp [ht], (wr_svc _ _ _ _ hf).trans hs, (wr_off_peer _ _ _ _).trans ho⟩

/-- Bit 8 of `STO_CNT_CLR` puts the peak at the present fill (R318). -/
theorem stoCntClr_peak (hw : writable s o F.STO_CNT_CLR_DROPRND.off v.toNat) (h8 : v.getLsbD 8 = true) : gives (.stoCntClr o v) s fun u =>
    u.rd o F.STO_STAGE_PEAK = s.rd o F.STO_STAGE_FILL % 2 ^ F.STO_STAGE_PEAK.w ∧ u.rd o F.STO_STAGE_FILL = s.rd o F.STO_STAGE_FILL ∧
      onlyOff s u o ∧ u.out = s.out := by
  obtain ⟨u, hu, hwr⟩ := hostWrite_of_holdsNothing (by decide +kernel) hw
  refine ⟨_, rfl, ?_⟩
  rw [clearWrite_of_through hwr]
  generalize hb : each 0 [F.STO_CNT_DROPRND_COUNT, F.STO_CNT_DROPDIST_COUNT, F.STO_CNT_SPILL_COUNT, F.STO_CNT_WERR_COUNT,
    F.STO_CNT_RPOIS_COUNT, F.STO_CNT_IDXERR_COUNT, F.STO_CNT_AUTOUNPIN_COUNT, F.STO_CNT_STALL_COUNT] = bits
  have hall : ∀ e ∈ bits.flatten, e.1.svc = false ∧ F.GLB_MODE_MODE.key 0 0 ≠ counterKey e ∧ F.STO_STAGE_FILL.key 0 0 ≠ counterKey e := by
    subst hb
    decide +kernel
  have ht : (u.clearAll o (chosen v 0 bits)).takesWrites o = true :=
    (clearAll_takesWrites_of_bits (fun e he => (hall e he).2.1) 0).trans (hu.takesWrites.trans hw.1)
  have hin : ∀ e ∈ chosen v 0 bits, e ∈ bits.flatten := fun e he => (chosen_sublist 0).subset he
  have hfill : (u.clearAll o (chosen v 0 bits)).rd o F.STO_STAGE_FILL = s.rd o F.STO_STAGE_FILL :=
    (rd_clearAll_other fun e he => (hall e (hin e he)).2.2).trans (hu.rd (by decide))
  rw [if_pos ⟨ht, (bitsOf_toNat v 8).2 h8⟩]
  refine ⟨?_, ?_, wr_onlyOff _ (clearAll_onlyOff hu fun e he => (hall e (hin e he)).1) rfl, by simp [hu.out]⟩
  · rw [rd_wr_same, hfill]
  · rw [rd_wr_other _ _ _ _ _ _ _ (by decide), hfill]

/-- Bit 8 of `SORT_LN_CNT_CLR` puts the owner's peak of the tile at the present fill (R168). -/
theorem sortLnCntClr_peak (t : Fin 4) (hw : writable s o (F.SORT_LN_CNT_CLR_CRC.addr t.val 0) v.toNat) : gives (.sortLnCntClr o t v) s fun u =>
    ∀ y, u.tile y = if y = t ∧ v.getLsbD 8 = true ∧ s.owns o = true then { s.tile y with memPeak := (s.tile y).memUsed } else s.tile y := by
  obtain ⟨u, hu, hwr⟩ := hostWrite_of_holdsNothing (by clear hw; revert t; decide +kernel) hw
  refine ⟨_, rfl, fun y => ?_⟩
  rw [clearWrite_of_through hwr]
  generalize hz : u.clearAll o (chosen v 0 _) = z
  have htile : ∀ y, z.tile y = s.tile y := fun y => by rw [← hz, State.tile, clearAll_tiles, ← State.tile, hu.tile]
  simp only [hw.1, Bool.true_and, bitsOf_toNat, Bool.and_eq_true, decide_eq_true_eq]
  by_cases h : s.owns o = true ∧ v.getLsbD 8 = true
  · rw [if_pos h]
    obtain rfl | hy := eq_or_ne y t
    · simp only [modTile_tile_same, htile, h.1, h.2, and_self, if_true]
    · rw [modTile_tile_other _ hy, htile, if_neg fun hk => hy hk.1]
  · rw [if_neg h, htile, if_neg fun hk => h ⟨hk.2.2, hk.2.1⟩]

/-- Settles O42. Every clear register holds nothing of its own, so a write that goes through changes only the account of notices and
then clears the counters of its bits, whose keys differ. -/
theorem countersAreClearedBitByBit : Obligations.CountersAreClearedBitByBit := by
  intro s o t k x p v
  have hfe : holdsNothing (F.SORT_FE_CNT_CLR_PBUSY.addr t.val 0) = true := by revert t; decide +kernel
  have hte : holdsNothing (F.SORT_TE_CNT_CLR_COLEAD.addr t.val 0) = true := by revert t; decide +kernel
  refine ⟨eachClear_clearsBits t k x p, stoCntClr_peak, sortLnCntClr_peak t,
    fun hw => waitsInTile (f := fun d => { d with clrFe := d.clrFe ||| BitVec.ofNat 5 v.toNat }) hfe hw rfl,
    fun hw => waitsInTile (f := fun d => { d with clrTe := d.clrTe ||| BitVec.ofNat 4 v.toNat }) hte hw rfl, fun ht => ⟨?_, ?_⟩⟩
  · simp [exec, execSortFeCntClr, hostWrite_of_not_taken _ _ _ _ ht]
  · simp [exec, execSortTeCntClr, hostWrite_of_not_taken _ _ _ _ ht]

end Sys2Proof.Machine
end

section
/-! SUPPORT. What an ordinary host write brings with it (13 R530, R532; 06 R303, R321; 11 R435): the registers of the mirror, of the port
and of failed regions, and nothing that a host write stores. -/

namespace Sys2Proof.Machine

variable {s u w : State} {o p : OfficeId}

/-- The tiles, the clock, the queue, the service die, the held low halves and every register but those of `sideKeys` are as before. -/
def sideOnly (s u : State) : Prop :=
  (u.tiles = s.tiles ∧ u.now = s.now ∧ u.pending = s.pending) ∧ u.svc = s.svc ∧ ∀ p, (u.off p).lowHeld = (s.off p).lowHeld ∧
    ∀ a, a ∉ sideKeys → Sparse.get 0 (u.off p).regs a = Sparse.get 0 (s.off p).regs a

theorem sideOnly_refl (s : State) : sideOnly s s := ⟨⟨rfl, rfl, rfl⟩, rfl, fun _ => ⟨rfl, fun _ _ => rfl⟩⟩

theorem sideOnly_trans (h : sideOnly s u) (k : sideOnly u w) : sideOnly s w := by
  obtain ⟨⟨ht, hn, hp⟩, hv, ho⟩ := h
  obtain ⟨⟨ht', hn', hp'⟩, hv', ho'⟩ := k
  exact ⟨⟨ht'.trans ht, hn'.trans hn, hp'.trans hp⟩, hv'.trans hv, fun p =>
    ⟨(ho' p).1.trans (ho p).1, fun a ha => ((ho' p).2 a ha).trans ((ho p).2 a ha)⟩⟩

/-- An office changes what is neither a held low half nor a register outside `sideKeys`. -/
theorem sideOnly_modOff {f : Office → Office} (hl : ∀ d, (f d).lowHeld = d.lowHeld)
    (hr : ∀ d a, a ∉ sideKeys → Sparse.get 0 (f d).regs a = Sparse.get 0 d.regs a) : sideOnly s (s.modOff o f) := by
  refine ⟨⟨rfl, rfl, rfl⟩, rfl, fun p => ?_⟩
  obtain rfl | hp := eq_or_ne p o
  · rw [modOff_off_same]
    exact ⟨hl _, hr _⟩
  · rw [modOff_off_other _ hp]
    exact ⟨rfl, fun _ _ => rfl⟩

theorem sideOnly_wr {f : Fld} (x i j : Nat) (hf : f.svc = false) (hk : f.key i j ∈ sideKeys) : sideOnly s (s.wr o f x i j) := by
  rw [State.wr, if_neg (by simp [hf])]
  exact sideOnly_modOff (fun _ => rfl) fun d a ha => Sparse.get_set_other 0 _ _ fun e => ha (e ▸ hk)

theorem sideOnly_emit (e : Emission) : sideOnly s (s.emit e) := ⟨⟨rfl, rfl, rfl⟩, rfl, fun _ => ⟨rfl, fun _ _ => rfl⟩⟩

theorem noticeKeys_mem_sideKeys : ∀ k ∈ noticeKeys, k ∈ sideKeys := by decide

theorem noticesOnly.sideOnly (h : noticesOnly s u o) : sideOnly s u := by
  obtain ⟨hp, hn, ht, hv, hpeer⟩ := h.onlyOff
  refine ⟨⟨ht, hn, hp⟩, hv, fun p => ?_⟩
  obtain rfl | hne := eq_or_ne p o
  · exact ⟨h.field Office.lowHeld fun _ _ _ _ _ _ => rfl, fun a ha => h.regs fun hk => ha (noticeKeys_mem_sideKeys a hk)⟩
  · obtain rfl : p = otherOffice o := by revert hne; cases p <;> cases o <;> simp [otherOffice]
    rw [hpeer]
    exact ⟨rfl, fun _ _ => rfl⟩

/-! ### The mirror -/

theorem sideOnly_sendItemFrames (mseq kind fuel : Nat) (ws : List W64) : sideOnly s (s.sendItemFrames o mseq kind fuel ws) := by
  induction fuel generalizing s ws with
  | zero => exact sideOnly_refl s
  | succ n ih =>
    unfold State.sendItemFrames
    dsimp only
    split
    · exact sideOnly_emit _
    · exact sideOnly_trans (sideOnly_emit _) (ih _)

theorem sideOnly_mirror (kind : Nat) (ws : List W64) : sideOnly s (s.mirror o kind ws) := by
  unfold State.mirror
  split
  · exact sideOnly_refl s
  · refine sideOnly_trans (sideOnly_trans ?_ (sideOnly_wr _ _ _ rfl (by decide))) (sideOnly_sendItemFrames _ _ _ _)
    exact sideOnly_modOff (fun _ => rfl) fun _ _ _ => rfl

theorem sideOnly_modTwin (f : Twin → Twin) : sideOnly s (s.modTwin o f) :=
  sideOnly_modOff (f := fun d => { d with twin := f d.twin }) (fun _ => rfl) fun _ _ _ => rfl

/-- One half of what the owner mirrors when it has changed. -/
theorem sideOnly_mirror_of_changed (c : Prop) [Decidable c] (f : Twin → Twin) (k : Nat) (ws : List W64) :
    sideOnly s (if c then s else (s.modTwin o f).mirror o k ws) := by
  split
  · exact sideOnly_refl s
  · exact sideOnly_trans (sideOnly_modTwin f) (sideOnly_mirror _ _)

theorem sideOnly_mirrorChanges : sideOnly s s.mirrorChanges := by
  unfold State.mirrorChanges
  split
  · exact sideOnly_refl s
  · extract_lets t r s1
    have h1 : sideOnly s s1 := sideOnly_mirror_of_changed _ _ _ _
    clear_value s1 t r
    exact sideOnly_trans h1 (sideOnly_mirror_of_changed _ _ _ _)

/-! ### The port and the regions -/

theorem hit_lt {f : Fld} {addr k : Nat} (h : f.hit addr = some k) : k < f.n := by
  obtain ⟨ij, hij, rfl⟩ := Option.map_eq_some_iff.1 h
  exact (addr_of_locate hij).2.1

theorem failed_mem_sideKeys {k : Nat} (hk : k < 8) : F.STO_RGN_CTL_FAILED.key k 0 ∈ sideKeys :=
  List.mem_append_left _ (List.mem_append_right _ (List.mem_map.2 ⟨k, List.mem_range.2 hk, rfl⟩))

theorem indexFailed_mem_sideKeys {k : Nat} (hk : k < 2) : F.STO_IDX_CTL_FAILED.key k 0 ∈ sideKeys :=
  List.mem_append_right _ (List.mem_map.2 ⟨k, List.mem_range.2 hk, rfl⟩)

theorem sideOnly_clearFailed (addr : Nat) : sideOnly s (s.clearFailed o addr) := by
  unfold State.clearFailed
  cases hk : F.STO_RGN_CTL_EN.hit addr with
  | some k =>
    exact sideOnly_trans (sideOnly_wr _ _ _ rfl (failed_mem_sideKeys (hit_lt hk))) (sideOnly_wr _ _ _ rfl (by decide))
  | none =>
    cases hc : F.STO_IDX_CTL_EN.hit addr with
    | some c =>
      exact sideOnly_trans (sideOnly_wr _ _ _ rfl (indexFailed_mem_sideKeys (hit_lt hc))) (sideOnly_wr _ _ _ rfl (by decide))
    | none => exact sideOnly_refl s

theorem sideOnly_afterWrite (addr : Nat) : sideOnly s (s.afterWrite o addr) := by
  unfold State.afterWrite
  refine sideOnly_trans ?_ sideOnly_mirrorChanges
  split
  · exact sideOnly_wr _ _ _ rfl (by decide)
  · exact sideOnly_clearFailed addr

theorem sideOnly.rd (h : sideOnly s u) {f : Fld} {i j : Nat} (hk : f.key i j ∉ sideKeys) : u.rd o f i j = s.rd o f i j := by
  obtain ⟨-, hv, ho⟩ := h
  unfold State.rd regGet
  rw [hv, (ho o).2 _ hk]

end Sys2Proof.Machine
end

section
/-! SUPPORT. What a host write stores (00 R5, R7, R8, R10), and what a refused one leaves in the log (R499, R674). -/

namespace Sys2Proof.Machine

variable {s u : State} {o : OfficeId} {e : Fld × Nat × Nat} {l : List (Fld × Nat × Nat)}

/-! ### Fields -/

/-- The key of the element that an entry of a register names. -/
abbrev fieldKey (e : Fld × Nat × Nat) : Nat := e.1.key e.2.1 e.2.2

/-- What a field holds after a write of `x`, where it held `old` and hardware has set it `ev` times in the tick. -/
def Fld.stored (f : Fld) (x old ev : Nat) : Nat :=
  match f.acc with
  | .rw => if f.isBad (f.part x) then old else f.part x
  | .w1c => if ev = 0 then (old &&& (2 ^ f.w - 1 - f.part x)) % 2 ^ f.w else old
  | _ => old

theorem mem_writeKeys (he : e ∈ l) (hw : e.1.hostWritable = true) : fieldKey e ∈ writeKeys l :=
  List.mem_map_of_mem (List.mem_filter.2 ⟨he, hw⟩)

theorem writeKeys_append (l m : List (Fld × Nat × Nat)) : writeKeys (l ++ m) = writeKeys l ++ writeKeys m := by
  simp [writeKeys]

theorem exists_hostWritable (h : writeKeys l ≠ []) : ∃ e ∈ l, e.1.hostWritable = true := by
  obtain ⟨k, ks, hk⟩ := List.exists_cons_of_ne_nil h
  obtain ⟨e, he, -⟩ := List.mem_map.1 (show k ∈ writeKeys l by simp [hk])
  obtain ⟨he, hw⟩ := List.mem_filter.1 he
  exact ⟨e, he, hw⟩

/-- Storing a field either leaves the state or writes that field, which the host may write. -/
theorem storeField_cases (x : Nat) (e : Fld × Nat × Nat) :
    s.storeField o x e = s ∨ e.1.hostWritable = true ∧ ∃ y, s.storeField o x e = s.wr o e.1 y e.2.1 e.2.2 := by
  unfold State.storeField
  dsimp only
  split
  next ha =>
    split
    · exact .inl rfl
    · exact .inr ⟨by simp [Fld.hostWritable, ha], _, rfl⟩
  next ha =>
    split
    · exact .inr ⟨by simp [Fld.hostWritable, ha], _, rfl⟩
    · exact .inl rfl
  next => exact .inl rfl

/-- What every register write keeps, storing a field keeps. -/
theorem storeField_keeps {α : Type} (g : State → α) (x : Nat) (hg : ∀ y, g (s.wr o e.1 y e.2.1 e.2.2) = g s) :
    g (s.storeField o x e) = g s := by
  obtain h | ⟨-, y, h⟩ := storeField_cases (s := s) (o := o) x e <;> rw [h]
  exact hg y

theorem part_lt (f : Fld) (x : Nat) : f.part x < 2 ^ f.w := Nat.mod_lt _ (Nat.two_pow_pos _)

/-- A field that is stored holds what the write makes of it. -/
theorem rd_storeField_same (x : Nat) : (s.storeField o x e).rd o e.1 e.2.1 e.2.2 =
    e.1.stored x (s.rd o e.1 e.2.1 e.2.2) (s.eventsNow o e.1 e.2.1 e.2.2) := by
  unfold State.storeField Fld.stored
  dsimp only
  cases e.1.acc <;> dsimp only <;> split
  · rfl
  · rw [rd_wr_same, Nat.mod_eq_of_lt (part_lt _ _)]
  · exact rd_wr_same _ _ _ _
  · rfl

/-- A field with another key than a stored one is left. -/
theorem rd_storeField_other (x : Nat) {f : Fld} {i j : Nat} (h : e.1.hostWritable = true → f.key i j ≠ fieldKey e) :
    (s.storeField o x e).rd o f i j = s.rd o f i j := by
  obtain hs | ⟨hw, y, hs⟩ := storeField_cases (s := s) (o := o) x e <;> rw [hs]
  exact rd_wr_other _ _ _ _ _ _ _ (h hw)

theorem eventsNow_storeField (x : Nat) (f : Fld) (i j : Nat) : (s.storeField o x e).eventsNow o f i j = s.eventsNow o f i j :=
  storeField_keeps (State.eventsNow · o f i j) x fun _ => eventsNow_wr _ _ _ _ _ _ _

/-! ### Registers -/

/-- Stores the fields of a list. -/
def State.storeAll (s : State) (o : OfficeId) (x : Nat) (l : List (Fld × Nat × Nat)) : State := l.foldl (fun s e => s.storeField o x e) s

theorem storeAll_cons (x : Nat) (e : Fld × Nat × Nat) (es : List (Fld × Nat × Nat)) :
    s.storeAll o x (e :: es) = (s.storeField o x e).storeAll o x es := rfl

theorem storeAll_keeps {α : Type} (g : State → α) (x : Nat) (hg : ∀ (s : State) (f : Fld) y i j, g (s.wr o f y i j) = g s) :
    g (s.storeAll o x l) = g s := by
  induction l generalizing s with
  | nil => rfl
  | cons e es ih => rw [storeAll_cons, ih, storeField_keeps g x fun _ => hg _ _ _ _ _]

theorem rd_storeAll_other (x : Nat) {f : Fld} {i j : Nat} (h : f.key i j ∉ writeKeys l) : (s.storeAll o x l).rd o f i j = s.rd o f i j := by
  induction l generalizing s with
  | nil => rfl
  | cons e es ih =>
    have hes : f.key i j ∉ writeKeys es := fun hk => h (by simpa using (writeKeys_append [e] es ▸ List.mem_append_right _ hk))
    rw [storeAll_cons, ih hes, rd_storeField_other x fun hw hk => h (hk ▸ mem_writeKeys (List.mem_cons_self ..) hw)]

/-- Each field that the host may write holds what the write makes of it, where the fields' keys differ. -/
theorem rd_storeAll_same (x : Nat) (hn : (writeKeys l).Nodup) (he : e ∈ l) (hw : e.1.hostWritable = true) :
    (s.storeAll o x l).rd o e.1 e.2.1 e.2.2 = e.1.stored x (s.rd o e.1 e.2.1 e.2.2) (s.eventsNow o e.1 e.2.1 e.2.2) := by
  induction l generalizing s with
  | nil => simp at he
  | cons y ys ih =>
    rw [storeAll_cons]
    obtain ⟨-, hys, hdis⟩ := List.nodup_append.1 (writeKeys_append [y] ys ▸ (show (writeKeys ([y] ++ ys)).Nodup from hn))
    obtain rfl | he := List.mem_cons.1 he
    · have hk : fieldKey e ∉ writeKeys ys := fun hk => hdis _ (mem_writeKeys (List.mem_cons_self ..) hw) _ hk rfl
      rw [rd_storeAll_other x hk, rd_storeField_same]
    · have hk : y.1.hostWritable = true → fieldKey e ≠ fieldKey y := fun hy h =>
        hdis _ (mem_writeKeys (List.mem_cons_self ..) hy) _ (mem_writeKeys he hw) h.symm
      rw [ih hys he, rd_storeField_other x hk, eventsNow_storeField]

theorem storeReg_plain {addr : Nat} (x : Nat) (hl : isWriteLow addr = false) (hh : isWriteLow (addr - 4) = false) :
    s.storeReg o addr x = s.storeAll o x (fieldsAt addr) := by
  simp [State.storeReg, State.storeAll, hl, hh]

theorem storeReg_low {addr : Nat} (x : Nat) (hl : isWriteLow addr = true) :
    s.storeReg o addr x = s.modOff o fun d => { d with lowHeld := Sparse.set 0 d.lowHeld addr x } := by
  simp [State.storeReg, hl]

theorem lowHeld_wr (f : Fld) (x i j : Nat) : ((s.wr o f x i j).off o).lowHeld = (s.off o).lowHeld := by
  unfold State.wr
  split <;> simp

/-- The write of a high half stores the low half that is held, then its own fields (R7). -/
theorem storeReg_high {addr : Nat} (x : Nat) (h4 : 4 ≤ addr) (hl : isWriteLow addr = false) (hh : isWriteLow (addr - 4) = true) :
    s.storeReg o addr x =
      (s.storeAll o (Sparse.get 0 (s.off o).lowHeld (addr - 4)) (fieldsAt (addr - 4))).storeAll o x (fieldsAt addr) := by
  have hheld : ∀ (l : List (Fld × Nat × Nat)) (s : State) (a : Nat),
      l.foldl (fun s e => s.storeField o (Sparse.get 0 (s.off o).lowHeld a) e) s = s.storeAll o (Sparse.get 0 (s.off o).lowHeld a) l := by
    intro l
    induction l with
    | nil => exact fun _ _ => rfl
    | cons e es ih =>
      intro s a
      rw [List.foldl_cons, ih, storeAll_cons, storeField_keeps (fun s => (s.off o).lowHeld) _ fun _ => lowHeld_wr _ _ _ _]
  simp only [State.storeReg, hl, hh, h4, hheld, and_self, if_true, Bool.false_eq_true, if_false]
  rfl

theorem storeReg_frame (addr x : Nat) :
    (s.storeReg o addr x).tiles = s.tiles ∧ (s.storeReg o addr x).now = s.now ∧ (s.storeReg o addr x).pending = s.pending := by
  have hall : ∀ (l : List (Fld × Nat × Nat)) (s : State) x,
      (s.storeAll o x l).tiles = s.tiles ∧ (s.storeAll o x l).now = s.now ∧ (s.storeAll o x l).pending = s.pending := fun l s x =>
    ⟨storeAll_keeps State.tiles x fun _ _ _ _ _ => wr_tiles _ _ _ _, storeAll_keeps State.now x fun _ _ _ _ _ => wr_now _ _ _ _,
      storeAll_keeps State.pending x fun _ _ _ _ _ => wr_pending _ _ _ _⟩
  by_cases hl : isWriteLow addr = true
  · rw [storeReg_low x hl]
    exact ⟨rfl, rfl, rfl⟩
  · by_cases hh : 4 ≤ addr ∧ isWriteLow (addr - 4) = true
    · rw [storeReg_high x hh.1 (by simpa using hl) hh.2]
      obtain ⟨ht, hn, hp⟩ := hall (fieldsAt (addr - 4)) s (Sparse.get 0 (s.off o).lowHeld (addr - 4))
      obtain ⟨ht', hn', hp'⟩ := hall (fieldsAt addr) (s.storeAll o (Sparse.get 0 (s.off o).lowHeld (addr - 4)) (fieldsAt (addr - 4))) x
      exact ⟨ht'.trans ht, hn'.trans hn, hp'.trans hp⟩
    · have hs : s.storeReg o addr x = s.storeAll o x (fieldsAt addr) := by
        unfold State.storeReg
        rw [if_neg hl, if_neg hh]
        rfl
      rw [hs]
      exact hall _ _ _

/-! ### Refused writes -/

theorem raise_raised {code : Nat} {b : List Byte} (h : noticesOnly s u o) : raised s (u.raise o code b) o code b := by
  intro hr
  have hone : ∀ u, noticesOnly s u o → ∃ n, ((u.raiseOne o code b).off o).log.head? = some n ∧ n.code = BitVec.ofNat 16 code ∧
      n.payload = b.take 18 ∧ n.tick = (s.off o).count := by
    intro u hu
    refine ⟨u.mkNotice o code b, ?_, rfl, rfl, hu.field Office.count fun _ _ _ _ _ _ => rfl⟩
    have hlog : ∀ (s : State) n, ((s.holdNotice o n).off o).log = (s.off o).log := by
      intro s n
      unfold State.holdNotice
      split <;> simp [State.wr, F.PH_NOTICE_STAT_HELD, F.PH_CNT_NOTICELOST_COUNT, mkF]
    rw [State.raiseOne, hlog]
    simp [State.logNotice, State.wr, F.ERR_LOG_HEAD_NSEQ, mkF]
  unfold State.raise
  rw [if_neg (by simp [h.field Office.inReset fun _ _ _ _ _ _ => rfl, hr])]
  dsimp only
  split
  · exact hone _ (noticesOnly_trans (noticesOnly_trans h ⟨_, modOff_const _, rfl, fun _ _ => rfl⟩) (raiseOne_noticesOnly _ _))
  · exact hone _ h

/-- A register without a field that the host may write is journalled as refused (R8, R499). -/
theorem hostWrite_of_readOnly {addr : Nat} (x : Nat) (h : s.takesWrites o = true) (hw : isReadOnlyWindow addr = false)
    (hf : fieldsAt addr ≠ []) (hk : writeKeys (fieldsAt addr) = []) :
    s.hostWrite o addr x = ((s.pcieIn o (tlpWords 4)).journal o addr x false, false) := by
  have hall : (fieldsAt addr).all (fun e => !e.1.hostWritable) = true := List.all_eq_true.2 fun e he => by
    by_contra hc
    exact List.ne_nil_of_mem (mem_writeKeys he (by simpa using hc)) hk
  rw [hostWrite_of_taken _ _ _ _ h]
  simp [State.registerWrite, hw, List.isEmpty_eq_false_iff.2 hf, hall]

end Sys2Proof.Machine
end

section
/-! SUPPORT. What a host read answers and latches (00 R4, R6, R8; 11 R441, R444). -/

namespace Sys2Proof.Machine

variable {s u : State} {o : OfficeId}

/-! ### The answer -/

/-- Numbers without a common bit add up bit by bit. -/
theorem add_eq_or_of_and_eq_zero (a b : Nat) (h : a &&& b = 0) : a + b = a ||| b := by
  induction a using Nat.strongRecOn generalizing b with
  | ind a ih =>
    obtain rfl | ha := Nat.eq_zero_or_pos a
    · simp
    · have hq : a / 2 + b / 2 = (a ||| b) / 2 := by
        rw [Nat.or_div_two]
        exact ih (a / 2) (by omega) (b / 2) (by rw [← Nat.and_div_two, h])
      have hor := @Nat.or_mod_two_eq_one a b
      have hand := @Nat.and_mod_two_eq_one a b
      rw [h] at hand
      omega

/-- Bits outside a mask keep their value when those within it take a free one. -/
theorem testBit_masked (v m x i : Nat) (h : m.testBit i = false) : (v - (v &&& m) + (x &&& m)).testBit i = v.testBit i := by
  have hsplit : v ^^^ (v &&& m) ||| (v &&& m) = v := Nat.eq_of_testBit_eq fun j => by
    simp only [Nat.testBit_or, Nat.testBit_and, Nat.testBit_xor]
    cases v.testBit j <;> cases m.testBit j <;> rfl
  have hdis : ∀ y, (v ^^^ (v &&& m)) &&& (y &&& m) = 0 := fun y => Nat.eq_of_testBit_eq fun j => by
    simp only [Nat.testBit_and, Nat.testBit_xor, Nat.zero_testBit]
    cases v.testBit j <;> cases m.testBit j <;> simp
  have hsub : v - (v &&& m) = v ^^^ (v &&& m) := by
    have hadd := add_eq_or_of_and_eq_zero _ _ (hdis v)
    rw [hsplit] at hadd
    omega
  rw [hsub, add_eq_or_of_and_eq_zero _ _ (hdis x)]
  simp [h]

theorem answer_off (addr v : Nat) (p : Bool) : (s.answer o addr v p).off o = { s.off o with pcieTx := (s.off o).pcieTx.pass (tlpWords 4) } := by
  unfold State.answer
  extract_lets m s1 q
  split <;> exact pcieOut_off _

theorem answer_onlyOff (addr v : Nat) (p : Bool) : onlyOff s (s.answer o addr v p) o := by
  unfold State.answer
  extract_lets m s1 q
  split <;> exact ⟨rfl, rfl, rfl, rfl, pcieOut_off_peer _⟩

/-- A read is answered with one word, whose defined bits are those of the value (R4). -/
theorem answer_out (addr v : Nat) : ∃ w : W32, (s.answer o addr v false).out = .completion o [w] false :: s.out ∧
    ∀ i, i < 32 → (s.undefinedBits o addr).testBit i = false → w.getLsbD i = v.testBit i := by
  unfold State.answer
  dsimp only
  rw [if_neg Bool.false_ne_true]
  split
  · exact ⟨_, rfl, fun i hi _ => by rw [BitVec.getLsbD_ofNat, decide_eq_true hi, Bool.true_and]⟩
  · exact ⟨_, rfl, fun i hi hm => by rw [BitVec.getLsbD_ofNat, decide_eq_true hi, Bool.true_and, testBit_masked _ _ _ _ hm]⟩

/-! ### Values -/

theorem rd_pcieIn (n : Nat) (f : Fld) (i j : Nat) : (s.pcieIn o n).rd o f i j = s.rd o f i j := by simp [State.rd]

theorem owns_pcieIn (n : Nat) : (s.pcieIn o n).owns o = s.owns o := (pcieIn_noticesOnly n).owns

theorem regWord_pcieIn (n addr : Nat) : (s.pcieIn o n).regWord o addr = s.regWord o addr := by
  unfold State.regWord
  simp only [rd_pcieIn, owns_pcieIn]

theorem readRaw_pcieIn (n addr : Nat) : (s.pcieIn o n).readRaw o addr = s.readRaw o addr := by
  unfold State.readRaw
  rw [pcieIn_off, regWord_pcieIn, regWord_pcieIn]
  rfl

theorem undefinedBits_of_regs (addr : Nat) (h : (u.off o).regs = (s.off o).regs) : u.undefinedBits o addr = s.undefinedBits o addr := by
  have hrole : u.rd o F.TWN_STAT_ROLE = s.rd o F.TWN_STAT_ROLE := congrArg (regGet · F.TWN_STAT_ROLE 0 0) h
  unfold State.undefinedBits State.owns State.role
  rw [hrole]

/-! ### The latch -/

/-- Latches members `l` with the values `r` gives them. -/
def latchAll (r : Nat → Nat × Bool) (m : Sparse Nat) (l : List Nat) : Sparse Nat :=
  l.foldl (fun m a => Sparse.set 0 (Sparse.set 0 m a (r a).1) (latchPoison a) (b2n (r a).2)) m

theorem get_latchAll_other (r : Nat → Nat × Bool) (m : Sparse Nat) (l : List Nat) {k : Nat} (hk : k < 2 ^ 32) (h : k ∉ l) :
    Sparse.get 0 (latchAll r m l) k = Sparse.get 0 m k := by
  induction l generalizing m with
  | nil => rfl
  | cons a as ih =>
    obtain ⟨ha, has⟩ := List.ne_and_not_mem_of_not_mem_cons h
    have hp : k ≠ latchPoison a := by unfold latchPoison; omega
    rw [latchAll, List.foldl_cons, ← latchAll, ih _ has, Sparse.get_set_other 0 _ _ hp, Sparse.get_set_other 0 _ _ ha]

theorem takeLatch_off (addr : Nat) : ∃ l, ((s.takeLatch o addr).off o = { s.off o with latch := l } ∧ onlyOff s (s.takeLatch o addr) o) ∧
    (s.takeLatch o addr).out = s.out ∧ (addr < 0x4000000 → Sparse.get 0 l (addr + 4) = (s.readRaw o (addr + 4)).1) := by
  refine ⟨_, ⟨modOff_off_same _, rfl, rfl, rfl, rfl, modOff_off_peer _⟩, rfl, fun hlt => ?_⟩
  have hm : addr + 4 ∉ (if addr = 0x0740044 then ptmMembers else []) := by
    split
    next h => subst h; decide
    next => simp
  have hl : Sparse.get 0 (latchAll (s.readRaw o) (s.off o).latch (latchMembers addr)) (addr + 4) = (s.readRaw o (addr + 4)).1 := by
    have hp : addr + 4 ≠ latchPoison (addr + 4) := by unfold latchPoison; omega
    rw [latchMembers, latchAll, List.foldl_cons, ← latchAll, get_latchAll_other _ _ _ (by omega) hm, Sparse.get_set_other 0 _ _ hp,
      Sparse.get_set_same]
  split
  · rw [Sparse.get_set_other 0 _ _ (by omega)]
    exact hl
  · exact hl

end Sys2Proof.Machine
end

section
/-! SUPPORT. Reads and writes of registers, and the test port (00 R4 to R10; 12 R499; 19 R701). -/

namespace Sys2Proof.Machine

variable {s u : State} {o : OfficeId} {n : Nat} {v : W32}

/-! ### Reads -/

theorem onlyOff_trans {w : State} (h : onlyOff s u o) (k : onlyOff u w o) : onlyOff s w o := by
  obtain ⟨h1, h2, h3, h4, h5⟩ := h
  obtain ⟨k1, k2, k3, k4, k5⟩ := k
  exact ⟨k1.trans h1, k2.trans h2, k3.trans h3, k4.trans h4, k5.trans h5⟩

/-- A register that shows a stored value is read as it stands. -/
theorem readRegister_of_plainRead (h : plainRead s o n) : s.readRegister o n = s.hostRead o n := by
  obtain ⟨hn, -⟩ := h
  simp only [List.mem_cons, List.not_mem_nil, or_false, not_or] at hn
  obtain ⟨h1, h2, h3, h4, -, -⟩ := hn
  rw [State.readRegister, if_neg h1, State.freshenTwin, if_neg h2, if_neg h3, if_neg h4]

theorem not_dead_of_live (h : (s.off o).inReset = false ∧ (s.off o).d3hot = false) :
    ¬ ((s.off o).inReset = true ∨ (s.off o).d3hot = true) := by
  simp [h.1, h.2]

theorem hostRead_of_dead (h : (s.off o).inReset = true ∨ (s.off o).d3hot = true) : s.hostRead o n = s := if_pos h

/-- In Loading, Fallback and Dormant a read is answered with 0 where the register does not answer (R486, R667). -/
theorem hostRead_of_unanswered (h : ¬ ((s.off o).inReset = true ∨ (s.off o).d3hot = true)) (ha : s.answersRead o n = false) :
    s.hostRead o n = ((s.pcieIn o (tlpWords 0)).pcieOut o (tlpWords 4)).emit (.completion o [0] false) := by
  rw [State.hostRead, if_neg h, if_pos ha]

theorem readRaw_of_plainRead (h : plainRead s o n) : s.readRaw o n = (s.regWord o n, false) := by
  obtain ⟨-, ha, hlt, hlog, -⟩ := h
  rw [State.readRaw, ha]
  dsimp only
  rw [if_neg (by omega), if_neg (by omega)]

theorem hostRead_of_answered (h : ¬ ((s.off o).inReset = true ∨ (s.off o).d3hot = true)) (ha : s.answersRead o n = true) (hp : plainRead s o n) :
    ∃ u, s.hostRead o n = u.answer o n (s.regWord o n) false ∧ onlyOff s u o ∧ u.out = s.out ∧ (u.off o).regs = (s.off o).regs ∧
      
      (isPairLow n = true → Sparse.get 0 (u.off o).latch (n + 4) = (s.readRaw o (n + 4)).1) := by
  have hraw := readRaw_of_plainRead hp
  obtain ⟨hn, harr, hlt, -, hl⟩ := hp
  simp only [List.mem_cons, List.not_mem_nil, or_false, not_or] at hn
  obtain ⟨-, -, -, -, h5, h6⟩ := hn
  have hfresh : (s.pcieIn o (tlpWords 0)).freshen n = s.pcieIn o (tlpWords 0) := by rw [State.freshen, if_neg h5, if_neg h6]
  have hin : onlyOff s (s.pcieIn o (tlpWords 0)) o := (pcieIn_noticesOnly _).onlyOff
  rw [State.hostRead, if_neg h, if_neg (by simp [ha]), if_neg (by simp [hl]), hfresh, harr]
  dsimp only
  rw [readRaw_pcieIn, hraw]
  by_cases hpair : isPairLow n = true
  · obtain ⟨l, ⟨hoff, honly⟩, hout, hget⟩ := takeLatch_off (s := s.pcieIn o (tlpWords 0)) (o := o) n
    rw [if_pos hpair]
    refine ⟨_, rfl, onlyOff_trans hin honly, hout, ?_, fun _ => ?_⟩
    · rw [hoff, pcieIn_off]
    · rw [hoff, hget hlt, readRaw_pcieIn]
  · rw [if_neg hpair]
    exact ⟨_, rfl, hin, rfl, by rw [pcieIn_off], fun hk => absurd hk hpair⟩

theorem lowRegisterRead_answers {addr : BitVec 26} (h4 : addr.toNat % 4 = 0) (hp : plainRead s o addr.toNat)
    (h : ¬ ((s.off o).inReset = true ∨ (s.off o).d3hot = true)) (ha : s.answersRead o addr.toNat = true) :
    gives (.lowRegisterRead o addr) s fun u =>
      (∃ w : W32, u.out = .completion o [w] false :: s.out ∧
        ∀ i, i < 32 → (s.undefinedBits o addr.toNat).testBit i = false → w.getLsbD i = (s.regWord o addr.toNat).testBit i) ∧
        (u.off o).regs = (s.off o).regs ∧ onlyOff s u o ∧
        (isPairLow addr.toNat = true → Sparse.get 0 (u.off o).latch (addr.toNat + 4) = (s.readRaw o (addr.toNat + 4)).1) := by
  obtain ⟨u, hu, honly, hout, hregs, hlatch⟩ := hostRead_of_answered h ha hp
  obtain ⟨w, hw, hbits⟩ := answer_out (s := u) (o := o) addr.toNat (s.regWord o addr.toNat)
  rw [undefinedBits_of_regs _ hregs] at hbits
  have hoff := answer_off (s := u) (o := o) addr.toNat (s.regWord o addr.toNat) false
  refine ⟨_, congrArg Host.Outcome.next (if_pos h4), ?_⟩
  rw [readRegister_of_plainRead hp, hu]
  refine ⟨⟨w, hout ▸ hw, hbits⟩, ?_, onlyOff_trans honly (answer_onlyOff _ _ _), fun hl => ?_⟩
  · rw [hoff, hregs]
  · rw [hoff]
    exact hlatch hl

/-! ### Writes -/

/-- A register without an action of its own is written by the common path of R9. -/
theorem writeRegister_of_ordinary (h : ordinary s o n v) : s.writeRegister o n v =
    if (s.hostWrite o n v.toNat).2 then (s.hostWrite o n v.toNat).1.afterWrite o n else (s.hostWrite o n v.toNat).1 := by
  obtain ⟨h1, h2, h3, h4, h5, h6, h7⟩ := h
  simp only [State.writeRegister, h1, h2, h3, h4, h5, h6, h7]
  rfl

theorem writeRegister_of_refused (h : ordinary s o n v) (hw : s.hostWrite o n v.toNat = (u, false)) : s.writeRegister o n v = u := by
  rw [writeRegister_of_ordinary h, hw]
  rfl

theorem writeRegister_of_stored (h : ordinary s o n v) (hw : s.hostWrite o n v.toNat = (u, true)) :
    s.writeRegister o n v = u.afterWrite o n := by
  rw [writeRegister_of_ordinary h, hw]
  rfl

/-- A refused write leaves its journal entry and nothing else (R499). -/
theorem journal_refused (h : ordinary s o n v) (hw : s.hostWrite o n v.toNat = ((s.pcieIn o (tlpWords 4)).journal o n v.toNat false, false)) :
    raised s (s.writeRegister o n v) o 0x0910 (le 4 n ++ le 4 v.toNat ++ le 1 0) ∧ onlyOff s (s.writeRegister o n v) o ∧
      regsKept s (s.writeRegister o n v) o [] ∧ (s.writeRegister o n v).out = s.out := by
  have hu : noticesOnly s ((s.pcieIn o (tlpWords 4)).journal o n v.toNat false) o :=
    noticesOnly_trans (pcieIn_noticesOnly _) (raise_noticesOnly _ _)
  rw [writeRegister_of_refused h hw]
  exact ⟨raise_raised (pcieIn_noticesOnly _), hu.onlyOff, hu.regsKept _, hu.out⟩

/-- What a write stores outlasts what it brings with it: the frame, and every field outside `sideKeys`. -/
theorem afterWrite_storeReg (hu : noticesOnly s u o) (addr x a : Nat) :
    (((u.storeReg o addr x).afterWrite o a).tiles = s.tiles ∧ ((u.storeReg o addr x).afterWrite o a).now = s.now ∧
      ((u.storeReg o addr x).afterWrite o a).pending = s.pending) ∧
      ∀ (f : Fld) i j, f.key i j ∉ sideKeys →
        ((u.storeReg o addr x).afterWrite o a).rd o f i j = (u.storeReg o addr x).rd o f i j ∧ u.rd o f i j = s.rd o f i j := by
  obtain ⟨⟨ht, hn, hp⟩, -⟩ := sideOnly_afterWrite (s := u.storeReg o addr x) (o := o) a
  obtain ⟨ht', hn', hp'⟩ := storeReg_frame (s := u) (o := o) addr x
  obtain ⟨⟨ht'', hn'', hp''⟩, -⟩ := hu.sideOnly
  exact ⟨⟨ht.trans (ht'.trans ht''), hn.trans (hn'.trans hn''), hp.trans (hp'.trans hp'')⟩, fun f i j hk =>
    ⟨(sideOnly_afterWrite a).rd hk, hu.sideOnly.rd hk⟩⟩

theorem stored_rw {f : Fld} (h : f.acc = .rw) (x old ev : Nat) : f.stored x old ev = if f.isBad (f.part x) then old else f.part x := by
  simp [Fld.stored, h]

theorem stored_w1c {f : Fld} (h : f.acc = .w1c) (x old ev : Nat) :
    f.stored x old ev = if ev = 0 then (old &&& (2 ^ f.w - 1 - f.part x)) % 2 ^ f.w else old := by
  simp [Fld.stored, h]

theorem hostWritable_of_rw {f : Fld} (h : f.acc = .rw) : f.hostWritable = true := by simp [Fld.hostWritable, h]

theorem hostWritable_of_w1c {f : Fld} (h : f.acc = .w1c) : f.hostWritable = true := by simp [Fld.hostWritable, h]

/-- A write of a register that is no half of a pair stores each of its fields (R5, R8, R10). -/
theorem writeRegister_stores (h : ordinary s o n v) (ht : s.takesWrites o = true) (hw : isReadOnlyWindow n = false)
    (hk : writeKeys (fieldsAt n) ≠ []) (hs : isServiceReg n = true → s.owns o = true) (hl : isWriteLow n = false)
    (hh : isWriteLow (n - 4) = false) (hact : ∀ e ∈ fieldsAt n, e.1.acc = .wo → e.1.part v.toNat = 0)
    (hn : (writeKeys (fieldsAt n)).Nodup) (hside : ∀ x ∈ writeKeys (fieldsAt n), x ∉ sideKeys) :
    ((s.writeRegister o n v).tiles = s.tiles ∧ (s.writeRegister o n v).now = s.now ∧ (s.writeRegister o n v).pending = s.pending) ∧
      ∀ e ∈ fieldsAt n, e.1.hostWritable = true → (s.writeRegister o n v).rd o e.1 e.2.1 e.2.2 =
        e.1.stored v.toNat (s.rd o e.1 e.2.1 e.2.2) (s.eventsNow o e.1 e.2.1 e.2.2) := by
  obtain ⟨u, hu, hwr⟩ := hostWrite_stores ht hs hw (exists_hostWritable hk) (.inr hact)
  obtain ⟨hframe, hrd⟩ := afterWrite_storeReg hu n v.toNat n
  rw [writeRegister_of_stored h hwr]
  refine ⟨hframe, fun e he hwe => ?_⟩
  obtain ⟨hafter, hbefore⟩ := hrd e.1 e.2.1 e.2.2 (hside _ (mem_writeKeys he hwe))
  rw [hafter, storeReg_plain _ hl hh, rd_storeAll_same _ hn he hwe, hbefore, hu.eventsNow]

/-- The write of a low half is held (R7). -/
theorem writeRegister_holds (h : ordinary s o n v) (hw : writable s o n v.toNat) (hl : isWriteLow n = true) (hr : isReadOnlyWindow n = false)
    (hk : writeKeys (fieldsAt n) ≠ []) :
    ((s.writeRegister o n v).tiles = s.tiles ∧ (s.writeRegister o n v).now = s.now ∧ (s.writeRegister o n v).pending = s.pending) ∧
      Sparse.get 0 ((s.writeRegister o n v).off o).lowHeld n = v.toNat ∧
      ∀ x, x ∉ sideKeys → Sparse.get 0 ((s.writeRegister o n v).off o).regs x = Sparse.get 0 (s.off o).regs x := by
  obtain ⟨u, hu, hwr⟩ := hostWrite_of_writable hw hr (exists_hostWritable hk)
  obtain ⟨hframe, -⟩ := afterWrite_storeReg hu n v.toNat n
  obtain ⟨-, -, hside⟩ := sideOnly_afterWrite (s := u.storeReg o n v.toNat) (o := o) n
  obtain ⟨hheld, hregs⟩ := hside o
  obtain ⟨-, -, hnotices⟩ := hu.sideOnly
  rw [writeRegister_of_stored h hwr]
  rw [storeReg_low _ hl, modOff_off_same] at hheld hregs
  rw [storeReg_low _ hl] at hframe ⊢
  exact ⟨hframe, by rw [hheld, Sparse.get_set_same], fun x hx => (hregs x hx).trans ((hnotices o).2 x hx)⟩

/-- The write of a high half commits both halves (R7). -/
theorem writeRegister_commits (h : ordinary s o n v) (hw : writable s o n v.toNat) (h4 : 4 ≤ n) (hl : isWriteLow n = false)
    (hh : isWriteLow (n - 4) = true) (hr : isReadOnlyWindow n = false) (hk : writeKeys (fieldsAt n) ≠ [])
    (hn : (writeKeys (fieldsAt (n - 4) ++ fieldsAt n)).Nodup) (hside : ∀ x ∈ writeKeys (fieldsAt (n - 4) ++ fieldsAt n), x ∉ sideKeys) :
    ((s.writeRegister o n v).tiles = s.tiles ∧ (s.writeRegister o n v).now = s.now ∧ (s.writeRegister o n v).pending = s.pending) ∧
      (∀ e ∈ fieldsAt n, e.1.acc = .rw → (s.writeRegister o n v).rd o e.1 e.2.1 e.2.2 = e.1.part v.toNat) ∧
      ∀ e ∈ fieldsAt (n - 4), e.1.acc = .rw → e.1.isBad (e.1.part (Sparse.get 0 (s.off o).lowHeld (n - 4))) = false →
        (s.writeRegister o n v).rd o e.1 e.2.1 e.2.2 = e.1.part (Sparse.get 0 (s.off o).lowHeld (n - 4)) := by
  obtain ⟨-, -, hgood⟩ := id hw
  obtain ⟨u, hu, hwr⟩ := hostWrite_of_writable hw hr (exists_hostWritable hk)
  obtain ⟨hframe, hrd⟩ := afterWrite_storeReg hu n v.toNat n
  rw [writeKeys_append] at hn hside
  obtain ⟨hnl, hnh, hdis⟩ := List.nodup_append.1 hn
  rw [writeRegister_of_stored h hwr]
  refine ⟨hframe, fun e he ha => ?_, fun e he ha hb => ?_⟩
  · have hmem := mem_writeKeys he (hostWritable_of_rw ha)
    rw [(hrd _ _ _ (hside _ (List.mem_append_right _ hmem))).1, storeReg_high _ h4 hl hh,
      rd_storeAll_same _ hnh he (hostWritable_of_rw ha), stored_rw ha, hgood e he (hostWritable_of_rw ha)]
    rfl
  · have hmem := mem_writeKeys he (hostWritable_of_rw ha)
    rw [(hrd _ _ _ (hside _ (List.mem_append_left _ hmem))).1, storeReg_high _ h4 hl hh,
      rd_storeAll_other _ fun hk => hdis _ hmem _ hk rfl, rd_storeAll_same _ hnl he (hostWritable_of_rw ha), stored_rw ha,
      hu.field Office.lowHeld fun _ _ _ _ _ _ => rfl, hb]
    rfl

/-! ### The test port -/

/-- The instruction that the test port takes: EXTEST only while `RESET_N` is held (R701). -/
def shownInstruction (s : State) (ir : JtagIr) : JtagIr := if ir = .extest ∧ s.svc.pwr.resetHeld = false then .bypass else ir

/-- The test port takes instruction `k` and shifts out what it selects. -/
def State.shiftOut (s : State) (k : JtagIr) : State :=
  let u := s.modSvc fun d => { d with jtag := k }
  match k with
  | .bypass => u.emit (.testPort 0 1)
  | .idcode => u.emit (.testPort u.idcode 32)
  | _ =>
    let len := u.draw 16
    let bits := len.2.draw len.1
    bits.2.emit (.testPort bits.1 len.1)

theorem exec_testPortInstruction (ir : JtagIr) : exec (.testPortInstruction ir) s = .next (s.shiftOut (shownInstruction s ir)) := rfl

theorem shiftOut_spec (k : JtagIr) : (s.shiftOut k).svc = { s.svc with jtag := k } ∧ (s.shiftOut k).tiles = s.tiles ∧
    (s.shiftOut k).offices = s.offices ∧ ∃ bits len, (s.shiftOut k).out = .testPort bits len :: s.out ∧
      (k = .bypass → bits = 0 ∧ len = 1) ∧ (k = .idcode → bits = s.idcode ∧ len = 32) := by
  cases k with
  | bypass => exact ⟨rfl, rfl, rfl, 0, 1, rfl, fun _ => ⟨rfl, rfl⟩, nofun⟩
  | idcode => exact ⟨rfl, rfl, rfl, s.idcode, 32, rfl, nofun, fun _ => ⟨rfl, rfl⟩⟩
  | sample => exact ⟨rfl, rfl, rfl, _, _, rfl, nofun, nofun⟩
  | extest => exact ⟨rfl, rfl, rfl, _, _, rfl, nofun, nofun⟩

/-- Settles O43. A read changes the port's counts and the latch alone; a write stores each field under a key of its own, and what an
ordinary write brings with it touches none of those keys. -/
theorem registersReadAndWrite : Obligations.RegistersReadAndWrite := by
  intro s o addr v ir
  extract_lets n d dead frame live shown
  refine ⟨fun h => ?_, fun h4 hp => ?_, fun h4 ho => ?_, fun h4 ho => ?_, ⟨_, exec_testPortInstruction ir, shiftOut_spec _⟩⟩
  · exact ⟨congrArg Host.Outcome.next (if_neg h), congrArg Host.Outcome.next (if_neg h)⟩
  · have hread : exec (.lowRegisterRead o addr) s = .next (s.hostRead o n) :=
      (congrArg Host.Outcome.next (if_pos h4)).trans (congrArg Host.Outcome.next (readRegister_of_plainRead hp))
    refine ⟨fun hd => ?_, fun hl ha => ?_, fun hl ha => lowRegisterRead_answers h4 hp (not_dead_of_live hl) ha⟩
    · rw [hread, hostRead_of_dead hd]
    · refine ⟨_, hread, ?_⟩
      rw [hostRead_of_unanswered (not_dead_of_live hl) ha]
      refine ⟨rfl, ?_, ?_, ?_, rfl, rfl, rfl, rfl, ?_⟩ <;> simp [d]
  · have hwrite : exec (.registerWrite o addr v) s = .next (s.writeRegister o n v) := congrArg Host.Outcome.next (if_pos h4)
    refine ⟨fun ht => ?_, fun ht hw hf hk => ⟨_, hwrite, journal_refused ho (hostWrite_of_readOnly _ ht hw hf hk)⟩,
      fun ht hw hk hs hown => ⟨_, hwrite, journal_refused ho (hostWrite_of_relief _ ht hw hs hown)⟩,
      fun ht hw hk hs hl hh hact hn hside => ?_, fun hw hl hr hk => ⟨_, hwrite, writeRegister_holds ho hw hl hr hk⟩⟩
    · rw [hwrite, writeRegister_of_refused ho (hostWrite_of_not_taken _ _ _ _ ht)]
    · obtain ⟨hframe, hfields⟩ := writeRegister_stores ho ht hw hk hs hl hh hact hn hside
      refine ⟨_, hwrite, hframe, fun e he => ⟨fun ha => ?_, fun ha hev => ?_, fun ha hev => ?_⟩⟩
      · rw [hfields e he (hostWritable_of_rw ha), stored_rw ha]
      · rw [hfields e he (hostWritable_of_w1c ha), stored_w1c ha, if_pos hev]
      · rw [hfields e he (hostWritable_of_w1c ha), stored_w1c ha, if_neg hev]
  · refine ⟨fun hh => ?_, fun hh hl hw hr hk hn hside => ?_⟩
    · exact congrArg Host.Outcome.next (if_neg fun hk => Bool.false_ne_true (hh.symm.trans hk.2))
    · exact ⟨_, congrArg Host.Outcome.next (if_pos ⟨h4, hh⟩), writeRegister_commits ho hw h4 hl hh hr hk hn hside⟩

end Sys2Proof.Machine
end

section
/-! SUPPORT. What counting does (00 R13, R14, R78): the counter reads its old value and the events, saturated, and beside it an office
changes its account of notices alone. -/

namespace Sys2Proof.Machine

variable {s u v : State} {o : OfficeId} {ks ks' : List Nat}

/-- Office `o` has at most written registers at the keys `ks`, noted events of the tick, taken words from the port and raised notices. -/
def regsOnly (s u : State) (o : OfficeId) (ks : List Nat) : Prop :=
  ∃ d, u = s.modOff o (fun _ => d) ∧
    d = { s.off o with pcieRx := d.pcieRx, log := d.log, held := d.held, noticesLost := d.noticesLost, regs := d.regs, fresh := d.fresh } ∧
    ∀ k, k ∉ ks → k ∉ noticeKeys → Sparse.get 0 d.regs k = Sparse.get 0 (s.off o).regs k

theorem noticesOnly.regsOnly (h : noticesOnly s u o) (ks : List Nat) : regsOnly s u o ks := by
  obtain ⟨d, hu, hd, hr⟩ := h
  exact ⟨d, hu, hd.trans (congrArg (fun x => { s.off o with
    pcieRx := d.pcieRx, log := d.log, held := d.held, noticesLost := d.noticesLost, regs := d.regs, fresh := x }) (by rw [hd])), fun k _ hk => hr k hk⟩

theorem regsOnly_refl (s : State) (o : OfficeId) (ks : List Nat) : regsOnly s s o ks := (noticesOnly_refl s o).regsOnly ks

namespace regsOnly

theorem trans (h : regsOnly s u o ks) (k : regsOnly u v o ks) : regsOnly s v o ks := by
  obtain ⟨d, rfl, hd, hr⟩ := h
  obtain ⟨e, rfl, he, hr'⟩ := k
  simp only [modOff_off_same] at he hr'
  refine ⟨e, by simp, he.trans ?_, fun k h hk => (hr' k h hk).trans (hr k h hk)⟩
  exact congrArg (fun x : Office =>
    { x with pcieRx := e.pcieRx, log := e.log, held := e.held, noticesLost := e.noticesLost, regs := e.regs, fresh := e.fresh }) hd

theorem mono (h : regsOnly s u o ks) (hk : ∀ k ∈ ks, k ∈ ks') : regsOnly s u o ks' := by
  obtain ⟨d, hu, hd, hr⟩ := h
  exact ⟨d, hu, hd, fun k h => hr k fun h' => h (hk k h')⟩

theorem out (h : regsOnly s u o ks) : u.out = s.out := by
  obtain ⟨d, rfl, -⟩ := h
  rfl

theorem now (h : regsOnly s u o ks) : u.now = s.now := by
  obtain ⟨d, rfl, -⟩ := h
  rfl

theorem svc (h : regsOnly s u o ks) : u.svc = s.svc := by
  obtain ⟨d, rfl, -⟩ := h
  rfl

theorem tiles (h : regsOnly s u o ks) : u.tiles = s.tiles := by
  obtain ⟨d, rfl, -⟩ := h
  rfl

theorem tile (h : regsOnly s u o ks) (t : Fin 4) : u.tile t = s.tile t := by rw [State.tile, State.tile, h.tiles]

theorem onlyOff (h : regsOnly s u o ks) : onlyOff s u o := by
  obtain ⟨d, rfl, -⟩ := h
  simp [Sys2Proof.Machine.onlyOff]

theorem regsKept (h : regsOnly s u o ks) : regsKept s u o ks := by
  obtain ⟨d, rfl, -, hr⟩ := h
  simpa [Sys2Proof.Machine.regsKept] using hr

/-- What an office holds beside notices, events and registers is as before. -/
theorem field {α : Type} (h : regsOnly s u o ks) (g : Office → α)
    (hg : ∀ (d : Office) rx log held lost regs fresh,
      g { d with pcieRx := rx, log := log, held := held, noticesLost := lost, regs := regs, fresh := fresh } = g d) :
    g (u.off o) = g (s.off o) := by
  obtain ⟨d, rfl, hd, -⟩ := h
  rw [modOff_off_same, hd, hg]

theorem rd (h : regsOnly s u o ks) {f : Fld} {i j : Nat} (hk : f.key i j ∉ ks) (hn : f.key i j ∉ noticeKeys) : u.rd o f i j = s.rd o f i j := by
  unfold State.rd regGet
  rw [h.svc, h.regsKept _ hk hn]

end regsOnly

theorem wr_regsOnly (f : Fld) (x i j : Nat) (hf : f.svc = false) : regsOnly s (s.wr o f x i j) o [f.key i j] := by
  rw [State.wr, if_neg (by simp [hf])]
  exact ⟨_, modOff_const _, rfl, fun k h _ => Sparse.get_set_other 0 _ _ fun e => h (by simp [e])⟩

theorem noteEvents_regsOnly (f : Fld) (n i j : Nat) (hf : f.svc = false) : regsOnly s (s.noteEvents o f n i j) o ks := by
  rw [State.noteEvents, if_neg (by simp [hf])]
  exact ⟨_, modOff_const _, rfl, fun _ _ _ => rfl⟩

theorem raise_regsOnly (code : Nat) (b : List Byte) : regsOnly s (s.raise o code b) o ks := (raise_noticesOnly code b).regsOnly ks

/-- A counter of an office counts, and its account of notices follows (R13, R78). -/
theorem countBy_regsOnly (f : Fld) (n i j : Nat) (hf : f.svc = false) : regsOnly s (s.countBy o f n i j) o [f.key i j] := by
  have h := (wr_regsOnly (s := s) (o := o) f (min (s.rd o f i j + n) (2 ^ f.w - 1)) i j hf).trans (noteEvents_regsOnly f n i j hf)
  unfold State.countBy
  extract_lets old top new w nt
  split
  · rw [if_neg (by simp [hf])]
    exact h.trans (raise_regsOnly _ _)
  · exact h

/-- The counter reads its old value and the events, saturated (R13). -/
theorem rd_countBy_same (f : Fld) (n i j : Nat) (hf : f.svc = false) (hk : f.key i j ∉ noticeKeys) :
    (s.countBy o f n i j).rd o f i j = min (s.rd o f i j + n) (2 ^ f.w - 1) := by
  have hp : 0 < 2 ^ f.w := Nat.two_pow_pos _
  have hw : ((s.wr o f (min (s.rd o f i j + n) (2 ^ f.w - 1)) i j).noteEvents o f n i j).rd o f i j = min (s.rd o f i j + n) (2 ^ f.w - 1) := by
    rw [rd_noteEvents, rd_wr_same]
    exact Nat.mod_eq_of_lt (by omega)
  unfold State.countBy
  extract_lets old top new w nt
  split
  · rw [if_neg (by simp [hf]), (raise_noticesOnly _ _).rd hk]
    exact hw
  · exact hw

theorem countUp_regsOnly (f : Fld) (i j : Nat) (hf : f.svc = false) : regsOnly s (s.countUp o f i j) o [f.key i j] :=
  countBy_regsOnly f 1 i j hf

theorem rd_countUp_same (f : Fld) (i j : Nat) (hf : f.svc = false) (hk : f.key i j ∉ noticeKeys) :
    (s.countUp o f i j).rd o f i j = min (s.rd o f i j + 1) (2 ^ f.w - 1) := rd_countBy_same f 1 i j hf hk

end Sys2Proof.Machine
end

section
/-! SUPPORT. The tile's end of the configuration bus (04 R143, R145, R147, R150, R158 to R164): what frames that are queued, moved and
dropped leave of the tile. -/

namespace Sys2Proof.Machine

variable {s : State} {d e g : Tile} {t : Fin 4} {o : OfficeId}

/-! ### What the read-out of a tile changes -/

/-- Of the tile nothing but what its read-out holds differs: buckets, the queue, the lanes, the peak of the letter memory, the wait of
the decimation and the time of the last NAK. -/
def readoutOnly (d e : Tile) : Prop :=
  e = { d with queue := e.queue, lanes := e.lanes, memPeak := e.memPeak, buckets := e.buckets, nakAt := e.nakAt, decPending := e.decPending }

theorem readoutOnly_refl (d : Tile) : readoutOnly d d := rfl

theorem readoutOnly_trans (h : readoutOnly d e) (k : readoutOnly e g) : readoutOnly d g :=
  k.trans (congrArg (fun x : Tile => { x with
    queue := g.queue, lanes := g.lanes, memPeak := g.memPeak, buckets := g.buckets, nakAt := g.nakAt, decPending := g.decPending }) h)

/-- A field that the read-out does not hold is as before. -/
theorem readoutOnly.field {α : Type} (h : readoutOnly d e) (p : Tile → α)
    (hp : ∀ (d : Tile) q l m b n w, p { d with queue := q, lanes := l, memPeak := m, buckets := b, nakAt := n, decPending := w } = p d) : p e = p d := by
  rw [h, hp]

theorem readoutOnly_foldl {α : Type} (f : Tile → α → Tile) (h : ∀ d a, readoutOnly d (f d a)) (l : List α) (d : Tile) :
    readoutOnly d (l.foldl f d) := by
  induction l generalizing d with
  | nil => exact readoutOnly_refl d
  | cons a l ih => exact readoutOnly_trans (h d a) (ih _)

theorem dispatch_readoutOnly (now n : Nat) (d : Tile) : readoutOnly d (d.dispatch now n) ∧ (d.dispatch now n).nakAt = d.nakAt := by
  induction n generalizing d with
  | zero => exact ⟨rfl, rfl⟩
  | succ n ih =>
    unfold Tile.dispatch
    split
    · exact ⟨rfl, rfl⟩
    · split
      · exact ⟨rfl, rfl⟩
      · obtain ⟨h, hn⟩ := ih _
        exact ⟨h, hn⟩

theorem queueFrame_readoutOnly (now : Nat) (f : TileFrame) : readoutOnly d (d.queueFrame now f) ∧ (d.queueFrame now f).nakAt = d.nakAt := by
  obtain ⟨h, hn⟩ := dispatch_readoutOnly now 32
    { d with queue := enqueue f d.queue, memPeak := max d.memPeak { d with queue := enqueue f d.queue }.memUsed }
  exact ⟨h, hn⟩

/-- A NAK is sent, or one was within the microsecond (R164): the tile has sent one either way. -/
theorem sendNak_spec (d : Tile) (now : Nat) : readoutOnly d (d.sendNak now) ∧ (d.sendNak now).nakAt.isSome = true := by
  unfold Tile.sendNak
  split
  next h =>
    refine ⟨readoutOnly_refl d, ?_⟩
    cases hn : d.nakAt with
    | none => simp [hn] at h
    | some a => rfl
  next =>
    obtain ⟨h, hn⟩ := queueFrame_readoutOnly (d := { d with nakAt := some now }) now
      { kind := .status, round := 0, district := 0, fnum := 0, letters := [], words := [3 + d.expectSeq.toNat * 256] }
    exact ⟨h, (congrArg Option.isSome hn).trans rfl⟩

theorem accountFrame_readoutOnly (f : TileFrame) (n : Nat) : readoutOnly d (d.accountFrame f n) := by
  unfold Tile.accountFrame
  split
  · rfl
  · split <;> rfl

theorem dropLane_readoutOnly (k : Nat) : readoutOnly d (d.dropLane o k) := by
  unfold Tile.dropLane
  extract_lets l d' e
  have he : readoutOnly d e := by
    unfold e
    split
    · exact readoutOnly_trans (e := d') rfl (accountFrame_readoutOnly _ _)
    · rfl
  split
  · exact readoutOnly_trans he rfl
  · exact he

/-- The UP set masked, with the lanes to add (R150). -/
def Tile.maskUp (d : Tile) (o : OfficeId) (letters : BitVec 8) (sums : BitVec 3) : Tile :=
  { d with upLetter := d.upLetter.set o (d.upLetter.get o &&& letters), upSum := d.upSum.set o (d.upSum.get o &&& sums),
           addLetter := d.addLetter.set o letters, addSum := d.addSum.set o sums }

/-- A new UP set masks the one in force; beside it the read-out alone changes. -/
theorem setUp_readoutOnly (now : Nat) (letters : BitVec 8) (sums : BitVec 3) : readoutOnly (d.maskUp o letters sums) (d.setUp o now letters sums) := by
  unfold Tile.setUp
  extract_lets gone e
  exact readoutOnly_trans (readoutOnly_trans (readoutOnly_foldl _ (fun d k => dropLane_readoutOnly k) gone e) (dispatch_readoutOnly now 32 _).1) rfl

/-! ### Training of a downlink -/

/-- A frame changes nothing of the tile but the downlink's count of training frames (R151, R712). -/
theorem trainDownlink_eq (good : Bool) : d.trainDownlink o good = { d with dl := (d.trainDownlink o good).dl } := by
  unfold Tile.trainDownlink
  extract_lets l
  split <;> rfl

@[simp] theorem trainDownlink_vote (good : Bool) : (d.trainDownlink o good).vote = d.vote := by rw [trainDownlink_eq]
@[simp] theorem trainDownlink_inReset (good : Bool) : (d.trainDownlink o good).inReset = d.inReset := by rw [trainDownlink_eq]
@[simp] theorem trainDownlink_expectSeq (good : Bool) : (d.trainDownlink o good).expectSeq = d.expectSeq := by rw [trainDownlink_eq]
@[simp] theorem trainDownlink_cfgQueue (good : Bool) : (d.trainDownlink o good).cfgQueue = d.cfgQueue := by rw [trainDownlink_eq]
@[simp] theorem trainDownlink_cells (good : Bool) : (d.trainDownlink o good).cells = d.cells := by rw [trainDownlink_eq]
@[simp] theorem trainDownlink_upLetter (good : Bool) : (d.trainDownlink o good).upLetter = d.upLetter := by rw [trainDownlink_eq]
@[simp] theorem trainDownlink_upSum (good : Bool) : (d.trainDownlink o good).upSum = d.upSum := by rw [trainDownlink_eq]

/-! ### Configuration frames and lane status -/

/-- A frame of an office that the vote does not name trains its downlink and does no more (R18). -/
theorem dlConfigFrameRx_unheeded {f : DlFrame} (h : (s.tile t).vote ≠ .office o) :
    onlyTile (.dlConfigFrameRx t o f) s t fun e => e = (s.tile t).trainDownlink o (dlGood f) := by
  refine ⟨_, congrArg Host.Outcome.next ?_, rfl⟩
  simp [h, ← modTile_const fun d => d.trainDownlink o (dlGood f)]

theorem dlLaneStatusRx_unheeded {f : DlFrame} (h : (s.tile t).vote ≠ .office o) :
    onlyTile (.dlLaneStatusRx t o f) s t fun e => e = (s.tile t).trainDownlink o (dlGood f) := by
  refine ⟨_, congrArg Host.Outcome.next (modTile_const _), ?_⟩
  simp [h]

/-- A whole frame out of sequence leaves the queue of commands and asks for the frames from the expected `SEQ` on (R160, R164). -/
theorem dlConfigFrameRx_outOfSequence {f : DlFrame} (hv : (s.tile t).vote = .office o) (hr : (s.tile t).inReset = false) (hg : dlGood f = true)
    (ht : dlType f.hdr = 0) (h1 : 1 ≤ dlCount f.hdr) (h16 : dlCount f.hdr ≤ 16) (hs : dlSeq f.hdr ≠ (s.tile t).expectSeq.toNat) :
    onlyTile (.dlConfigFrameRx t o f) s t fun e => e = ((s.tile t).trainDownlink o true).sendNak s.now := by
  have hc : ¬ (dlCount f.hdr = 0 ∨ 16 < dlCount f.hdr) := by omega
  refine ⟨_, congrArg Host.Outcome.next ?_, rfl⟩
  simp [hv, hr, hg, ht, hc, hs, ← modTile_const fun d => (d.trainDownlink o true).sendNak s.now]

/-- A whole frame in sequence: its commands join the queue, but for those refused, which the owner counts (R160). -/
theorem dlConfigFrameRx_inSequence {f : DlFrame} (hv : (s.tile t).vote = .office o) (hr : (s.tile t).inReset = false) (hg : dlGood f = true)
    (ht : dlType f.hdr = 0) (h1 : 1 ≤ dlCount f.hdr) (h16 : dlCount f.hdr ≤ 16) (hs : dlSeq f.hdr = (s.tile t).expectSeq.toNat) :
    let u := s.modTile t fun d => { d.trainDownlink o true with
      expectSeq := d.expectSeq + 1, cfgQueue := d.cfgQueue ++ f.words.filter fun c => !cmdRefused c }
    exec (.dlConfigFrameRx t o f) s = .next (if f.words.filter cmdRefused = [] then u
      else u.countBy o F.SORT_LN_CNT_BADHDR_COUNT (f.words.filter cmdRefused).length t.val) := by
  have hc : ¬ (dlCount f.hdr = 0 ∨ 16 < dlCount f.hdr) := by omega
  intro u
  refine congrArg Host.Outcome.next ?_
  simp [hv, hr, hg, ht, hc, hs, u]

/-- A lane status frame of the voted office masks the UP set (R150, R164); beside it the read-out alone changes. -/
theorem dlLaneStatusRx_masks {f : DlFrame} {w : W64} {ws : List W64} (hv : (s.tile t).vote = .office o) (hr : (s.tile t).inReset = false)
    (hg : dlGood f = true) (ht : dlType f.hdr = 2) (hw : f.words = w :: ws) :
    onlyTile (.dlLaneStatusRx t o f) s t
      (readoutOnly (((s.tile t).trainDownlink o true).maskUp o (w.extractLsb' 0 8) (w.extractLsb' 8 3))) := by
  refine ⟨_, congrArg Host.Outcome.next (modTile_const _), ?_⟩
  rw [hg, if_neg (by simp [hv, hr]), if_neg (by simp), if_neg (by simp [ht]), hw]
  dsimp only
  split
  · exact readoutOnly_trans (setUp_readoutOnly ..) (sendNak_spec _ _).1
  · exact setUp_readoutOnly ..

/-- Settles O16: a frame in sequence adds what it may to the queue; the NAK and a new UP set change the read-out alone beside. -/
theorem configFramesInSequence : Obligations.ConfigFramesInSequence := by
  intro s t o f w ws d
  have hk : F.SORT_LN_CNT_BADHDR_COUNT.key t.val 0 ∉ noticeKeys := by revert t; decide
  refine ⟨fun hv hr hg ht h1 h16 => ⟨fun hs => ?_, fun hs => ?_⟩,
    fun hv => ⟨dlConfigFrameRx_unheeded hv, dlLaneStatusRx_unheeded hv⟩, fun hv hr hg ht hw => ?_⟩
  · refine ⟨_, dlConfigFrameRx_inSequence hv hr hg ht h1 h16 hs, ?_⟩
    by_cases hb : f.words.filter cmdRefused = []
    · rw [if_pos hb]
      exact ⟨modTile_tile_same _, fun h => absurd hb h, fun _ => rfl, rfl, rfl, fun x hx => modTile_tile_other _ hx⟩
    · rw [if_neg hb]
      have hc := countBy_regsOnly (s := s.modTile t fun d => { d.trainDownlink o true with
        expectSeq := d.expectSeq + 1, cfgQueue := d.cfgQueue ++ f.words.filter fun c => !cmdRefused c }) (o := o)
        F.SORT_LN_CNT_BADHDR_COUNT (f.words.filter cmdRefused).length t.val 0 rfl
      exact ⟨(hc.tile t).trans (modTile_tile_same _), fun _ => rd_countBy_same _ _ _ _ rfl hk, fun h => absurd h hb, hc.out, hc.svc,
        fun x hx => (hc.tile x).trans (modTile_tile_other _ hx)⟩
  · obtain ⟨e, he, rfl⟩ := dlConfigFrameRx_outOfSequence hv hr hg ht h1 h16 hs
    obtain ⟨h, hn⟩ := sendNak_spec (d.trainDownlink o true) s.now
    exact ⟨_, he, by simpa using h.field Tile.expectSeq fun _ _ _ _ _ _ _ => rfl, by simpa using h.field Tile.cfgQueue fun _ _ _ _ _ _ _ => rfl, hn⟩
  · obtain ⟨e, he, h⟩ := dlLaneStatusRx_masks hv hr hg ht hw
    refine ⟨e, he, ?_⟩
    have hne : otherOffice o ≠ o := otherOffice_ne o
    rw [h]
    simp [d, Tile.maskUp, Pair.get_set_other _ _ hne]

end Sys2Proof.Machine
end

section
/-! SUPPORT. The end of QUIET (17 R647) where a DLL has stayed locked through it: the DLL acquires again, which is a transition from locked
to unlocked, so the owner hears of it (03 R91). -/

namespace Sys2Proof.Machine

/-- Office A owns; tile 0 heeds it and is in QUIET, with the DLL of its cluster 0 enabled and, against R647, locked. -/
def lockedInQuiet : State :=
  (State.reset.wr .A F.TWN_STAT_ROLE 0).modTile 0 fun d =>
    { d with inReset := false, vote := .office .A, quiet := true, clusters := [(0, { dll := .locked 0 })], clusterCfg := [(0, 0x8000)] }

/-- The end of QUIET is noted at the owner, which keeps the time of its notice for the cluster (R91). -/
theorem quietEnd_of_lockedInQuiet :
    ∃ u, exec (.quiet 0 .A false) lockedInQuiet = .next u ∧ (u.off .A).dllNoticeAt ≠ (lockedInQuiet.off .A).dllNoticeAt :=
  ⟨_, rfl, by decide⟩

/-- Refutes O31: leaving QUIET changes an office too where a DLL of the tile is locked. No command leads to such a state, since QUIET
turns every DLL off (R647) and none acquires in it, but the statement speaks of every state. -/
theorem not_sumSetThrottleAndQuiet : ¬ Obligations.SumSetThrottleAndQuiet := by
  intro ⟨_, h⟩
  obtain ⟨e, he, -⟩ := ((h lockedInQuiet 0 .A 0 0).1 (by decide) (by decide)).2.2.2.2.1 (by decide)
  obtain ⟨u, hu, hne⟩ := quietEnd_of_lockedInQuiet
  obtain rfl : lockedInQuiet.modTile 0 (fun _ => e) = u := Host.Outcome.next.inj (he.symm.trans hu)
  exact hne rfl

end Sys2Proof.Machine
end

section
/-! SUPPORT. Lanes (04 R151, R152, R164, R166, R171): what the reports on a lane leave of its bookkeeping, and the moves between its
states. -/

namespace Sys2Proof.Machine

variable {s u : State} {o : OfficeId} {t : Fin 4} {lane : LaneRef} {x : Lane} {ks : List Nat}

/-! ### Host writes with an action -/

/-- A write that the office takes of a register of action bits runs its action on what notices alone have changed (R8). -/
theorem hostAction_of_holdsNothing {addr go : Nat} {v : W32} (act : State → State) (hr : holdsNothing addr = true)
    (hw : writable s o addr v.toNat) (hgo : v.getLsbD go = true) :
    ∃ u, noticesOnly s u o ∧ s.hostAction o addr v.toNat go act = act u := by
  obtain ⟨u, hu, he⟩ := hostWrite_of_holdsNothing hr hw
  exact ⟨u, hu, by rw [State.hostAction, he, if_pos ⟨rfl, (bitsOf_toNat v go).2 hgo⟩]⟩

/-! ### The bookkeeping of a lane -/

@[simp] theorem setLane_lane : (s.setLane o t lane x).lane o t lane = x := by cases lane <;> simp [State.setLane, State.lane]

/-- A lane's bookkeeping lies at the office, that of a downlink at the tile. -/
theorem lane_congr (ho : (u.off o).lanes = (s.off o).lanes) (ht : u.tiles = s.tiles) : u.lane o t lane = s.lane o t lane := by
  cases lane <;> simp [State.lane, State.tile, ho, ht]

theorem regsOnly.lane_eq (h : regsOnly s u o ks) : u.lane o t lane = s.lane o t lane :=
  lane_congr (h.field Office.lanes fun _ _ _ _ _ _ _ => rfl) h.tiles

theorem noticesOnly.lane_eq (h : noticesOnly s u o) : u.lane o t lane = s.lane o t lane := (h.regsOnly []).lane_eq

theorem noticesOnly.now (h : noticesOnly s u o) : u.now = s.now := (h.regsOnly []).now

/-- A field of an office's health is set or cleared, with `HEALTHY` and the notices of the change (R526). -/
theorem setHealth_regsOnly (f : Fld) (b : Bool) (hf : f.svc = false) :
    regsOnly s (s.setHealth o f b) o [f.key 0 0, F.TWN_STAT_HEALTHY.key 0 0] := by
  unfold State.setHealth
  split
  · exact regsOnly_refl s o _
  · exact (((wr_regsOnly f _ 0 0 hf).mono (by simp)).trans ((wr_regsOnly F.TWN_STAT_HEALTHY _ 0 0 rfl).mono (by simp))).trans (raise_regsOnly _ _)

theorem refreshReach_regsOnly : regsOnly s (s.refreshReach o) o
    [F.TWN_STAT_REACH.key 0 0, F.TWN_HEALTH_REACH.key 0 0, F.TWN_STAT_HEALTHY.key 0 0] :=
  ((wr_regsOnly F.TWN_STAT_REACH _ 0 0 rfl).mono (by simp)).trans ((setHealth_regsOnly F.TWN_HEALTH_REACH _ rfl).mono (by simp))

@[simp] theorem wr_lane (f : Fld) (v i j : Nat) : (s.wr o f v i j).lane o t lane = s.lane o t lane := by
  refine lane_congr ?_ (wr_tiles f v i j)
  by_cases hf : f.svc = true <;> simp [State.wr, hf]

@[simp] theorem raise_lane (code : Nat) (b : List Byte) : (s.raise o code b).lane o t lane = s.lane o t lane := (raise_noticesOnly code b).lane_eq

@[simp] theorem refreshLanes_lane : (s.refreshLanes o t).lane o t lane = s.lane o t lane := by
  simp [State.refreshLanes, refreshReach_regsOnly.lane_eq]

@[simp] theorem sendLaneStatus_lane : (s.sendLaneStatus o t).lane o t lane = s.lane o t lane := by
  unfold State.sendLaneStatus
  split
  · exact lane_congr rfl rfl
  · rfl

/-- The reports on a change of a lane's state leave its bookkeeping. -/
@[simp] theorem laneChanged_lane (was : LaneState) : (s.laneChanged o t lane was).lane o t lane = s.lane o t lane := by
  have report : (if (was = .up) = (((s.refreshLanes o t).lane o t lane).state = .up) then s.refreshLanes o t
      else (s.refreshLanes o t).sendLaneStatus o t).lane o t lane = s.lane o t lane := by split <;> simp
  unfold State.laneChanged
  extract_lets
  split
  · exact report
  · exact report
  all_goals rfl

@[simp] theorem noticeUnreachable_lane : (s.noticeUnreachable o t lane).lane o t lane = s.lane o t lane := by
  unfold State.noticeUnreachable
  split
  · split <;> simp
  · split <;> simp
  · rfl

/-! ### Moves of a lane -/

/-- A retired lane is retired, whatever is reported of it (R152). -/
theorem retireLane_lane (cause : Nat) : (s.retireLane o t lane cause).lane o t lane = { s.lane o t lane with state := .retired, attempts := 0 } := by
  unfold State.retireLane
  extract_lets was l u
  split <;> simp [u, l]

/-- A lane leaves UP for TRAINING; the eighth move within a second retires it (R151, R152). -/
theorem laneDown_lane (cause : Nat) :
    let recent := ((s.lane o t lane).moves.filter fun m => s.now - m < ticksOfUs 1000000).length
    let y := (s.laneDown o t lane cause).lane o t lane
    (recent < 7 → y.state = .training ∧ y.since = s.now ∧ y.attempts = 0) ∧ (7 ≤ recent → y.state = .retired) := by
  intro recent
  unfold State.laneDown
  extract_lets l moves quiet s1 s2 s3 s4 y
  have hm : moves.length = recent + 1 := by simp [moves, recent, l]
  have h1 : s1.lane o t lane = { state := .training, since := s.now, attempts := 0, good := 0, moves := moves
                                 noticeAt := if quiet then l.noticeAt else some s.now } :=
    setLane_lane
  have h2 : s2.lane o t lane = s1.lane o t lane := by
    unfold s2
    split
    · rfl
    · exact (countUp_regsOnly _ _ _ rfl).lane_eq
  have h4 : s4.lane o t lane = s1.lane o t lane := by
    unfold s4
    split <;> simp [s3, h2]
  refine ⟨fun h => ?_, fun h => ?_⟩
  · have hy : y = s1.lane o t lane := by rw [← h4]; exact congrArg (fun u : State => u.lane o t lane) (if_neg (by omega))
    simp [hy, h1]
  · have hy : y = (s4.retireLane o t lane 1).lane o t lane := congrArg (fun u : State => u.lane o t lane) (if_pos (by omega))
    simp [hy, retireLane_lane]

/-- An error in TRAINING starts the count of training frames again (R151, R712). -/
theorem trainLane_bad (counts : Bool) (h : (s.lane o t lane).state = .training) :
    s.trainLane o t lane counts true = s.setLane o t lane { s.lane o t lane with good := 0 } := by simp [State.trainLane, h]

theorem setLane_out : (s.setLane o t lane x).out = s.out := by cases lane <;> rfl

theorem setLane_svc : (s.setLane o t lane x).svc = s.svc := by cases lane <;> rfl

theorem retrainLane_of_retired (h : (s.lane o t lane).state = .retired) : (s.retrainLane o t lane).lane o t lane =
    { s.lane o t lane with state := .training, since := s.now, attempts := 0, good := 0 } := by
  unfold State.retrainLane
  rw [h]
  simp

end Sys2Proof.Machine
end

section
/-! SUPPORT. What counting on the service die does (00 R13, R14, R78; log entry 8): its registers and events change, and the notice of a full
counter is raised. -/

namespace Sys2Proof.Machine

variable {s u w : State} {o : OfficeId} {f : Fld} {l l' : List Fld}

theorem rd_eq_srd (hf : f.svc = true) (i j : Nat) : s.rd o f i j = s.srd f i j := if_pos hf

theorem wr_eq_swr (hf : f.svc = true) (v i j : Nat) : s.wr o f v i j = s.swr f v i j := if_pos hf

/-- A field of the service die reads as it was written, cut to its width. -/
theorem srd_swr_same (f : Fld) (v i j : Nat) : (s.swr f v i j).srd f i j = v % 2 ^ f.w := regGet_regSet_same _ _ _ _ _

theorem srd_swr_other {f g : Fld} (v : Nat) {i j i' j' : Nat} (h : g.key i' j' ≠ f.key i j) : (s.swr f v i j).srd g i' j' = s.srd g i' j' :=
  regGet_regSet_other _ _ _ _ _ _ _ _ h

@[simp] theorem srd_raiseSvc (c : Nat) (b : List Byte) (i j : Nat) : (s.raiseSvc c b).srd f i j = s.srd f i j := by simp [State.srd]

theorem svcRegsKept_trans (h : svcRegsKept s u l) (k : svcRegsKept u w l) : svcRegsKept s w l := fun a ha => (k a ha).trans (h a ha)

theorem svcRegsKept.srd (h : svcRegsKept s u l) (hf : f.key 0 0 ∉ l.map fun g => g.key 0 0) : u.srd f = s.srd f := by
  unfold State.srd regGet
  rw [h _ hf]

theorem svcRegsKept_of_eq (h : u.svc.regs = s.svc.regs) : svcRegsKept s u l := fun a _ => by rw [h]

theorem swr_svcRegsKept (v : Nat) : svcRegsKept s (s.swr f v) [f] :=
  fun _ ha => Sparse.get_set_other 0 _ _ fun e => ha (by simp [e])

theorem svcRegsOnly_trans (h : svcRegsOnly s u l) (k : svcRegsOnly u w l) : svcRegsOnly s w l := by
  obtain ⟨hs, hr, ht, hp, hn⟩ := h
  obtain ⟨ks, kr, kt, kp, kn⟩ := k
  refine ⟨ks.trans ?_, svcRegsKept_trans hr kr, kt.trans ht, kp.trans hp, kn.trans hn⟩
  exact congrArg (fun x : ServiceDie => { x with regs := w.svc.regs, fresh := w.svc.fresh }) hs

theorem swr_svcRegsOnly (v : Nat) : svcRegsOnly s (s.swr f v) [f] := ⟨rfl, swr_svcRegsKept v, rfl, rfl, rfl⟩

theorem svcRegsOnly_of_svc (hs : u.svc = s.svc) (ht : u.tiles = s.tiles) (hp : u.pending = s.pending) (hn : u.now = s.now) : svcRegsOnly s u l :=
  ⟨by rw [hs], svcRegsKept_of_eq (by rw [hs]), ht, hp, hn⟩

theorem raiseSvc_svcRegsOnly (c : Nat) (b : List Byte) : svcRegsOnly s (s.raiseSvc c b) l :=
  svcRegsOnly_of_svc (raiseSvc_svc _ _) (raiseSvc_tiles _ _) (raiseSvc_pending _ _) (raiseSvc_now _ _)

/-- A counter of the service die counts: beside its register and the events of the tick only notices change (R13, R78). -/
theorem countUp_svcRegsOnly (hf : f.svc = true) : svcRegsOnly s (s.countUp o f) [f] := by
  have h : svcRegsOnly s ((s.wr o f (min (s.rd o f + 1) (2 ^ f.w - 1))).noteEvents o f 1) [f] := by
    rw [wr_eq_swr hf, State.noteEvents, if_pos hf]
    exact svcRegsOnly_trans (swr_svcRegsOnly _) ⟨rfl, fun _ _ => rfl, rfl, rfl, rfl⟩
  unfold State.countUp State.countBy
  extract_lets old top new v nt
  split
  · exact svcRegsOnly_trans h (raiseSvc_svcRegsOnly _ _)
  · exact h

/-- The counter reads one more, saturated (R13). -/
theorem srd_countUp_same (hf : f.svc = true) : (s.countUp o f).srd f = min (s.srd f + 1) (2 ^ f.w - 1) := by
  have hp : 0 < 2 ^ f.w := Nat.two_pow_pos _
  have hw : ((s.wr o f (min (s.rd o f + 1) (2 ^ f.w - 1))).noteEvents o f 1).srd f = min (s.srd f + 1) (2 ^ f.w - 1) := by
    rw [← rd_eq_srd (o := o) hf, rd_noteEvents, rd_wr_same, rd_eq_srd hf]
    exact Nat.mod_eq_of_lt (by omega)
  unfold State.countUp State.countBy
  extract_lets old top new v nt
  split
  · rw [srd_raiseSvc]
    exact hw
  · exact hw

end Sys2Proof.Machine
end

section
/-! SUPPORT. The flush of a clock-crossing FIFO (04 R155 to R157; 09 R393), and the statement on lanes and FIFOs. -/

namespace Sys2Proof.Machine

variable {s : State} {o : OfficeId} {t : Fin 4} {lane : LaneRef}

/-- After a flush no word is left, both pointers are zero, and until the flags settle a write is refused and a read gives the blank item
(R155 to R157). -/
theorem flush_spec (f : Fifo) (now : Nat) (writing : Bool) :
    let y := f.flush now writing
    y.words = [] ∧ y.rptr = 0 ∧ y.wptr = 0 ∧ y.skipping = writing ∧ y.full now = true ∧ y.empty now = true ∧ y.read now = (y, false, {}) ∧
      ∀ w : FifoWord, w.first = true → (y.write now w).words = [] ∧ (y.write now w).refused = y.refused + 1 := by
  intro y
  have hset : y.settling now = true := by simp [y, Fifo.flush, Fifo.settling]
  have hfull : y.full now = true := by simp [Fifo.full, hset]
  have hempty : y.empty now = true := by simp [Fifo.empty, hset]
  refine ⟨rfl, rfl, rfl, rfl, hfull, hempty, if_pos hempty, fun w hw => ?_⟩
  have hwrite : y.write now w = { y with refused := y.refused + 1, skipping := !w.last } := by simp [Fifo.write, hw, hfull]
  rw [hwrite]
  exact ⟨rfl, rfl⟩

/-- The place of a ring port's FIFO on the service die. -/
def ringFifoKey : RingPort → Nat
  | .E => 0
  | .W => 1

/-- A ring port's FIFO is flushed and no other, and an item that the flush cuts counts as a bad frame (R157, R393). -/
theorem flushRing_spec (p : RingPort) (writing : Bool) :
    let old : Fifo := Sparse.get {} s.svc.fifos (ringFifoKey p)
    let u := s.flushRing p writing
    u.svc.fifos = Sparse.set {} s.svc.fifos (ringFifoKey p) (old.flush s.now writing) ∧ u.tiles = s.tiles ∧ u.out = s.out ∧
      (writing = true ∨ old.inItem = true → u.srd F.RING_CNT_CRC_COUNT = min (s.srd F.RING_CNT_CRC_COUNT + 1) 0xFFFFFFFF) ∧
      (writing = false → old.inItem = false → u.offices = s.offices ∧ u.svc.regs = s.svc.regs) := by
  intro old u
  let v := s.modSvc fun d => { d with fifos := Sparse.set {} d.fifos (ringFifoKey p) (old.flush s.now writing) }
  have hu : u = if writing || old.inItem then v.countUp s.speaker F.RING_CNT_CRC_COUNT else v := by cases p <;> rfl
  by_cases h : (writing || old.inItem) = true
  · rw [if_pos h] at hu
    obtain ⟨hsvc, -, ht, -⟩ := countUp_svcRegsOnly (s := v) (o := s.speaker) (f := F.RING_CNT_CRC_COUNT) rfl
    rw [hu]
    refine ⟨by rw [hsvc]; rfl, ht, countUp_out _ _ _, fun _ => srd_countUp_same rfl, fun hw hi => ?_⟩
    simp [hw, hi] at h
  · rw [if_neg h] at hu
    rw [hu]
    refine ⟨rfl, rfl, rfl, fun hc => ?_, fun _ _ => ⟨rfl, rfl⟩⟩
    simp only [Bool.or_eq_true] at h
    exact absurd hc h

/-- RETRAIN runs on the lane that it names, after notices alone (R171). -/
theorem retrain_spec {v : W32} (hw : writable s o F.SORT_LN_CMD_RETRAIN.off v.toNat) (h31 : v.getLsbD 31 = true)
    (hl : laneOfNum (v.toNat % 16) = some lane) (ht : v.toNat / 16 % 4 = t.val) :
    ∃ u, noticesOnly s u o ∧ exec (.retrain o v) s = .next (u.retrainLane o t lane) := by
  obtain ⟨u, hu, he⟩ := hostAction_of_holdsNothing (fun s =>
    match laneOfNum (F.SORT_LN_CMD_LANE.part v.toNat) with
    | some lane => s.retrainLane o ⟨F.SORT_LN_CMD_TILE.part v.toNat % 4, Nat.mod_lt _ (by decide)⟩ lane
    | none => s) (by decide) hw h31
  refine ⟨u, hu, (congrArg Host.Outcome.next he).trans ?_⟩
  have hlane : laneOfNum (F.SORT_LN_CMD_LANE.part v.toNat) = some lane := by
    rw [← hl]
    simp [Fld.part, F.SORT_LN_CMD_LANE, mkF, bitsOf]
  have htile : (⟨F.SORT_LN_CMD_TILE.part v.toNat % 4, Nat.mod_lt _ (by decide)⟩ : Fin 4) = t := by
    apply Fin.ext
    simp [Fld.part, F.SORT_LN_CMD_TILE, mkF, bitsOf, ht, t.isLt]
  rw [hlane, htile]

/-- A move out of UP, as the statement says it, at the state that a command answers. -/
theorem gives_of_laneDown {c : Instr} {u : State} {cause : Nat} (hu : u.lane o t lane = s.lane o t lane) (hn : u.now = s.now)
    (hh : u.held = s.held) (hc : exec c s = .next (u.laneDown o t lane cause)) :
    let recent := ((s.lane o t lane).moves.filter fun m => s.now - m < ticksOfUs 1000000).length
    gives c s fun u => u.pending = s.pending ∧ u.now = s.now ∧
      (recent < 7 → (u.lane o t lane).state = .training ∧ (u.lane o t lane).since = s.now ∧ (u.lane o t lane).attempts = 0) ∧
      (7 ≤ recent → (u.lane o t lane).state = .retired) := by
  obtain ⟨hp, hnow, -⟩ := (kept_iff_held s (u.laneDown o t lane cause)).2 ((laneDown_held u o t lane cause).trans hh)
  have h := laneDown_lane (s := u) (o := o) (t := t) (lane := lane) cause
  rw [hu, hn] at h
  exact ⟨_, hc, hp, hnow, h⟩

/-- A lane in TRAINING: 256 training frames in a row bring it UP, an error starts their count again, and the fourth failed attempt
retires it (R151, R152, R712). -/
theorem lane_of_training (a : Bool) (h : (s.lane o t lane).state = .training) :
    let l := s.lane o t lane
    let tried := max l.since (s.laneReset o t lane)
    let again := fun (u : State) => u.lane o t lane = { l with good := 0 } ∧ u.out = s.out ∧ u.svc = s.svc
    (256 ≤ l.good → gives (.laneTrainingPass o t lane) s fun u => (u.lane o t lane).state = .up ∧ (u.lane o t lane).attempts = 0) ∧
    (l.good < 256 → exec (.laneTrainingPass o t lane) s = .next s) ∧
    (tried + ticksOfUs 2500 ≤ s.now → l.attempts < 3 →
      gives (.laneTrainingAttemptTimeout o t lane) s fun u =>
        u.lane o t lane = { l with since := s.now, attempts := l.attempts + 1, good := 0 } ∧ u.out = s.out ∧ u.svc = s.svc) ∧
    (tried + ticksOfUs 2500 ≤ s.now → 3 ≤ l.attempts →
      gives (.laneTrainingAttemptTimeout o t lane) s fun u => (u.lane o t lane).state = .retired) ∧
    gives (.laneCodeErrors o t lane a) s again ∧ gives (.elasticBufferOverflow o t lane) s again := by
  intro l tried again
  have hup : ¬ (s.lane o t lane).state = .up := by simp [h]
  have hagain : again (s.trainLane o t lane false true) := by
    rw [trainLane_bad _ h]
    exact ⟨setLane_lane, setLane_out, setLane_svc⟩
  refine ⟨fun hg => ?_, fun hg => ?_, fun ht ha => ?_, fun ht ha => ?_, ⟨_, congrArg Host.Outcome.next (if_neg hup), hagain⟩,
    ⟨_, congrArg Host.Outcome.next (if_neg hup), hagain⟩⟩
  · exact ⟨_, congrArg Host.Outcome.next (if_pos ⟨h, hg⟩), by simp⟩
  · exact congrArg Host.Outcome.next (if_neg fun hc => absurd hc.2 (Nat.not_le.2 hg))
  · refine ⟨_, congrArg Host.Outcome.next ((if_pos ⟨h, ht⟩).trans (if_neg (Nat.not_le.2 ha))), setLane_lane, setLane_out, setLane_svc⟩
  · refine ⟨_, congrArg Host.Outcome.next ((if_pos ⟨h, ht⟩).trans (if_pos ha)), ?_⟩
    exact congrArg Lane.state (retireLane_lane _)

/-- Settles O18: the moves of a lane by the lemma of each, a flush by what it leaves of the FIFO. -/
theorem laneStatesAndFifoFlush : Obligations.LaneStatesAndFifoFlush := by
  refine ⟨fun s o t lane a v => ?_, fun s p o writing => ?_⟩
  · intro l recent down tried again
    refine ⟨lane_of_training a, fun h => ?_, fun hw h31 hl ht => ?_⟩
    · have htr : ¬ (s.lane o t lane).state = .training := by simp [show (s.lane o t lane).state = .up from h]
      exact ⟨gives_of_laneDown rfl rfl rfl (congrArg Host.Outcome.next (if_pos h)),
        gives_of_laneDown rfl rfl rfl (congrArg Host.Outcome.next (if_pos h)),
        congrArg Host.Outcome.next (if_neg fun hc => htr hc.1), congrArg Host.Outcome.next (if_neg fun hc => htr hc.1)⟩
    · obtain ⟨u, hu, he⟩ := retrain_spec hw h31 hl ht
      have hlane : u.lane o t lane = l := hu.lane_eq
      refine ⟨fun h => ?_, fun h => ⟨_, he, ?_⟩, fun h => ⟨_, he, ?_⟩⟩
      · refine gives_of_laneDown (cause := 3) hlane hu.now ?_ (he.trans (congrArg Host.Outcome.next ?_))
        · obtain ⟨d, rfl, -⟩ := hu
          exact modOff_held s o _
        · rw [State.retrainLane, hlane, h]
      · have hr := retrainLane_of_retired (s := u) (o := o) (t := t) (lane := lane) (by rw [hlane, h])
        exact ⟨congrArg Lane.state hr, (congrArg Lane.since hr).trans hu.now, congrArg Lane.attempts hr⟩
      · have hr : u.retrainLane o t lane = u := by rw [State.retrainLane, hlane, h]
        exact (congrArg (fun u : State => u.lane o t lane) hr).trans hlane
  · extract_lets k ref old flushed
    refine ⟨?_, ?_, ?_⟩
    · obtain ⟨hf, ht, ho, hc, hk⟩ := flushRing_spec (s := s) p writing
      have hkey : k = ringFifoKey p := by cases p <;> rfl
      have hold : old = Sparse.get {} s.svc.fifos (ringFifoKey p) := congrArg (Sparse.get {} s.svc.fifos) hkey
      refine ⟨s.flushRing p writing, by cases p <;> rfl, ?_, fun j hj => ?_, ht, ho, ?_, ?_⟩
      · rw [hf, hkey, Sparse.get_set_same]
        exact flush_spec _ _ _
      · rw [hf, Sparse.get_set_other _ _ _ (hkey ▸ hj)]
      · exact hold ▸ hc
      · exact hold ▸ hk
    · refine ⟨_, rfl, ?_, ⟨rfl, rfl, rfl, rfl, modOff_off_peer _⟩, fun _ _ _ => by rw [modOff_off_same], rfl⟩
      rw [modOff_off_same]
      exact flush_spec _ _ _
    · refine ⟨_, rfl, ?_, ⟨rfl, rfl, rfl, rfl, modOff_off_peer _⟩, fun _ _ _ => by rw [modOff_off_same], rfl⟩
      rw [modOff_off_same]
      exact flush_spec _ _ _

end Sys2Proof.Machine
end

section
/-! SUPPORT. Letters received (04 R131, R140; 05 R173, R177 to R179): what the receive buffer makes of a frame's letters. -/

namespace Sys2Proof.Machine

variable {s u v : State} {o : OfficeId} {t : Fin 4} {k : Nat}

/-! ### The fill of the receive buffer -/

/-- The letters in a map of district rounds. -/
def letterSum (m : Sparse DRound) : Nat := (m.map fun e => e.2.letters.length).sum

theorem letterSum_erase (m : Sparse DRound) (k : Nat) : letterSum (Sparse.erase m k) + (Sparse.get {} m k).letters.length ≤ letterSum m := by
  induction m with
  | nil => simp [Sparse.erase, Sparse.get, letterSum]
  | cons e m ih =>
    unfold letterSum at ih ⊢
    by_cases h : e.1 = k
    · simp [Sparse.erase, Sparse.get, h]
      omega
    · simp [Sparse.erase, Sparse.get, h]
      omega

theorem letterSum_insert (m : Sparse DRound) (k : Nat) (x : DRound) : letterSum (Sparse.insert m k x) = letterSum m + x.letters.length := by
  induction m with
  | nil => simp [Sparse.insert, letterSum]
  | cons e m ih =>
    unfold letterSum at ih ⊢
    by_cases h : k < e.1
    · simp [Sparse.insert, h]
      omega
    · simp [Sparse.insert, h, ih]
      omega

/-- A district round that takes another place counts with its own letters and no longer with those of before. -/
theorem letterSum_set (m : Sparse DRound) (k : Nat) (x : DRound) :
    letterSum (Sparse.set {} m k x) + (Sparse.get {} m k).letters.length ≤ letterSum m + x.letters.length := by
  have he := letterSum_erase m k
  unfold Sparse.set
  split
  next h =>
    subst h
    exact he
  next =>
    rw [letterSum_insert]
    omega

theorem rxUsed_eq (d : Office) (now : Nat) : d.rxUsed now =
    letterSum d.rounds + (d.mrg.units.map fun e => e.2.elim 0 fun m => m.letters - (now - m.startAt) / 2).sum := rfl

/-! ### What buffering changes -/

/-- Of office `o` district round `k` alone differs of the rounds, and beside it what is accumulated for notices, the count of letters
dropped and the account of notices. -/
def roundOnly (s u : State) (o : OfficeId) (k : Nat) : Prop :=
  ∃ d, u = s.modOff o (fun _ => d) ∧
    d = { s.off o with rounds := d.rounds, roundAcc := d.roundAcc, pcieRx := d.pcieRx, log := d.log, held := d.held,
                       noticesLost := d.noticesLost, regs := d.regs, fresh := d.fresh } ∧
    (∀ a, a ≠ F.SORT_MG_CNT_RXDROP_COUNT.key 0 0 → a ∉ noticeKeys → Sparse.get 0 d.regs a = Sparse.get 0 (s.off o).regs a) ∧
    ∀ y, y ≠ k → d.round y = (s.off o).round y

theorem roundOnly_refl (s : State) (o : OfficeId) (k : Nat) : roundOnly s s o k :=
  ⟨s.off o, by simp [State.modOff, State.off], rfl, fun _ _ _ => rfl, fun _ _ => rfl⟩

theorem roundOnly_trans (h : roundOnly s u o k) (g : roundOnly u v o k) : roundOnly s v o k := by
  obtain ⟨d, rfl, hd, hr, hy⟩ := h
  obtain ⟨e, rfl, he, hr', hy'⟩ := g
  simp only [modOff_off_same] at he hr' hy'
  refine ⟨e, by simp, he.trans ?_, fun a h hn => (hr' a h hn).trans (hr a h hn), fun y h => (hy' y h).trans (hy y h)⟩
  exact congrArg (fun x : Office => { x with
    rounds := e.rounds, roundAcc := e.roundAcc, pcieRx := e.pcieRx, log := e.log, held := e.held, noticesLost := e.noticesLost,
    regs := e.regs, fresh := e.fresh }) hd

theorem regsOnly.roundOnly (h : regsOnly s u o [F.SORT_MG_CNT_RXDROP_COUNT.key 0 0]) (k : Nat) : roundOnly s u o k := by
  obtain ⟨d, rfl, hd, hr⟩ := h
  refine ⟨d, rfl, ?_, fun a ha hn => hr a (by simpa using ha) hn, fun y _ => ?_⟩
  · have hrounds : d.rounds = (s.off o).rounds := by rw [hd]
    have hacc : d.roundAcc = (s.off o).roundAcc := by rw [hd]
    rw [hrounds, hacc]
    exact hd
  · rw [hd]
    rfl

/-- District round `k` becomes `x`. -/
def State.setRound (s : State) (o : OfficeId) (k : Nat) (x : DRound) : State :=
  s.modOff o fun d => { d with rounds := Sparse.set {} d.rounds k x }

@[simp] theorem setRound_round (x : DRound) : ((s.setRound o k x).off o).round k = x := by simp [State.setRound, Office.round]

theorem setRound_roundOnly (x : DRound) : roundOnly s (s.setRound o k x) o k :=
  ⟨_, modOff_const _, rfl, fun _ _ _ => rfl, fun _ h => Sparse.get_set_other _ _ _ h⟩

theorem modAcc_roundOnly (r : Nat) (f : RoundAcc → RoundAcc) : roundOnly s (s.modAcc o r f) o k :=
  ⟨_, modOff_const _, rfl, fun _ _ _ => rfl, fun _ _ => rfl⟩

namespace roundOnly

theorem onlyOff (h : roundOnly s u o k) : onlyOff s u o := by
  obtain ⟨d, rfl, -⟩ := h
  simp [Sys2Proof.Machine.onlyOff]

theorem out (h : roundOnly s u o k) : u.out = s.out := by
  obtain ⟨d, rfl, -⟩ := h
  rfl

theorem now (h : roundOnly s u o k) : u.now = s.now := by
  obtain ⟨d, rfl, -⟩ := h
  rfl

theorem units (h : roundOnly s u o k) : (u.off o).mrg.units = (s.off o).mrg.units := by
  obtain ⟨d, rfl, hd, -⟩ := h
  rw [modOff_off_same, hd]

theorem other (h : roundOnly s u o k) {y : Nat} (hy : y ≠ k) : (u.off o).round y = (s.off o).round y := by
  obtain ⟨d, rfl, -, -, hr⟩ := h
  rw [modOff_off_same, hr y hy]

theorem rd (h : roundOnly s u o k) {f : Fld} {i j : Nat} (hk : f.key i j ≠ F.SORT_MG_CNT_RXDROP_COUNT.key 0 0) (hn : f.key i j ∉ noticeKeys) :
    u.rd o f i j = s.rd o f i j := by
  obtain ⟨d, rfl, -, hr, -⟩ := h
  unfold State.rd regGet
  rw [modOff_off_same, modOff_svc, hr _ hk hn]

end roundOnly

/-! ### One letter, and the letters of a frame -/

/-- Whether a district round takes no further letter: it has overflowed, or the buffer is full (R179). -/
def Office.refuses (d : Office) (now k : Nat) : Prop := (d.round k).overflowed = true ∨ 4194304 ≤ d.rxUsed now

/-- A district round that has refused a letter (R179). -/
def DRound.refused (e : DRound) : DRound := { e with overflowed := true, rxDropped := e.rxDropped + 1 }

/-- A letter refused is counted as dropped, and so is every later one of the district round (R179). -/
theorem bufferLetter_refused {r db : Nat} (l : RxLetter) (h : (s.off o).refuses s.now (roundKey r db)) :
    let e := (s.off o).round (roundKey r db)
    let u := s.bufferLetter o r db l
    roundOnly s u o (roundKey r db) ∧ (u.off o).round (roundKey r db) = e.refused := by
  intro e u
  let s1 := s.setRound o (roundKey r db) e.refused
  let s2 := s1.modAcc o r fun a => { a with rxDistricts := a.rxDistricts + b2n (!e.overflowed), rxLetters := a.rxLetters + 1 }
  have hu : u = s2.countUp o F.SORT_MG_CNT_RXDROP_COUNT := if_pos h
  have hc := countUp_regsOnly (s := s2) (o := o) F.SORT_MG_CNT_RXDROP_COUNT 0 0 rfl
  have hround : (u.off o).rounds = (s2.off o).rounds := by
    rw [hu]
    exact hc.field Office.rounds fun _ _ _ _ _ _ _ => rfl
  refine ⟨hu ▸ roundOnly_trans (roundOnly_trans (setRound_roundOnly _) (modAcc_roundOnly r _)) (hc.roundOnly _), ?_⟩
  have hs2 : (s2.off o).rounds = (s1.off o).rounds := by simp [s2, State.modAcc]
  rw [Office.round, hround, hs2]
  exact setRound_round _

/-- A district round with one more letter; `c` and `n` are its account of the late letters of a clock (R177). -/
def DRound.with (e : DRound) (l : RxLetter) (c n : Nat) : DRound :=
  { e with letters := e.letters ++ [l], lateIn := e.lateIn + b2n l.late, lateClock := c, lateN := n }

/-- A letter taken stands behind the others of its district round (R173). -/
theorem bufferLetter_taken {r db : Nat} (l : RxLetter) (h : ¬ (s.off o).refuses s.now (roundKey r db)) :
    let e := (s.off o).round (roundKey r db)
    let u := s.bufferLetter o r db l
    roundOnly s u o (roundKey r db) ∧ (u.off o).rxUsed u.now ≤ (s.off o).rxUsed s.now + 1 ∧
      ∃ c n, (u.off o).round (roundKey r db) = e.with l c n := by
  intro e u
  have hu : ∃ c n, u = s.setRound o (roundKey r db) (e.with l c n) := by
    unfold u State.bufferLetter
    extract_lets k e0 s1 s2 clock e1 e2
    refine ⟨e2.lateClock, e2.lateN, (if_neg h).trans (congrArg (s.setRound o (roundKey r db)) ?_)⟩
    unfold e2
    split <;> rfl
  obtain ⟨c, n, hu⟩ := hu
  have hset := letterSum_set (s.off o).rounds (roundKey r db) (e.with l c n)
  have he : (Sparse.get {} (s.off o).rounds (roundKey r db) : DRound) = e := rfl
  have hlen : (e.with l c n).letters.length = e.letters.length + 1 := by simp [DRound.with]
  rw [he, hlen] at hset
  rw [hu]
  refine ⟨setRound_roundOnly _, ?_, c, n, setRound_round _⟩
  simp only [rxUsed_eq, State.setRound, modOff_off_same, modOff_now]
  omega

/-- Of a frame's letters the first `n` are kept in the order sent, and the others count as dropped; a buffer with room for all keeps all
(R173, R178, R179). -/
theorem bufferLetters_spec (r db : Nat) (late : Bool) (ls : List RxLetter) (hl : ∀ l ∈ ls, l.late = late) (s : State) :
    let k := roundKey r db
    let e := (s.off o).round k
    let u := ls.foldl (fun s l => s.bufferLetter o r db l) s
    let e' := (u.off o).round k
    roundOnly s u o k ∧ ∃ n ≤ ls.length, e'.letters = e.letters ++ ls.take n ∧ e'.rxDropped + n = e.rxDropped + ls.length ∧
      e'.lateIn = e.lateIn + n * b2n late ∧ e'.frames = e.frames ∧ e'.close = e.close ∧ (e.overflowed = true → n = 0) ∧
      (e.overflowed = false → (s.off o).rxUsed s.now + ls.length ≤ 4194304 → n = ls.length) := by
  induction ls generalizing s with
  | nil => exact ⟨roundOnly_refl s o _, 0, Nat.zero_le _, by simp, rfl, by simp, rfl, rfl, fun _ => rfl, fun _ _ => rfl⟩
  | cons l ls ih =>
    intro k e u e'
    obtain ⟨hro, n, hn, hlet, hdrop, hlate, hfr, hcl, hov, hall⟩ := ih (fun x hx => hl x (List.mem_cons_of_mem _ hx)) (s.bufferLetter o r db l)
    by_cases h : (s.off o).refuses s.now k
    · obtain ⟨h1, he⟩ := bufferLetter_refused l h
      rw [he] at hlet hdrop hlate hfr hcl hov hall
      obtain rfl := hov rfl
      refine ⟨roundOnly_trans h1 hro, 0, Nat.zero_le _, hlet, ?_, hlate, hfr, hcl, fun _ => rfl, fun ho hr => ?_⟩
      · simp only [List.length_cons]
        exact hdrop.trans (by simp only [DRound.refused, e, k]; omega)
      · simp only [List.length_cons] at hr
        rcases h with h | h
        · exact absurd (ho.symm.trans h) Bool.false_ne_true
        · omega
    · obtain ⟨h1, hroom, c, m, he⟩ := bufferLetter_taken l h
      rw [he] at hlet hdrop hlate hfr hcl hov hall
      refine ⟨roundOnly_trans h1 hro, n + 1, Nat.succ_le_succ hn, ?_, ?_, ?_, hfr, hcl, fun ho => absurd (Or.inl ho) h, fun ho hr => ?_⟩
      · exact hlet.trans (by simp [e, k, DRound.with])
      · simp only [List.length_cons]
        have : e'.rxDropped + n = e.rxDropped + ls.length := hdrop
        omega
      · refine hlate.trans ?_
        simp only [DRound.with, hl l (List.mem_cons_self ..), e, k]
        ring
      · simp only [List.length_cons] at hr ⊢
        rw [hall ho (by omega)]

end Sys2Proof.Machine
end

section
/-! SUPPORT. Data and late frames at the owner (04 R131, R140, R143; 05 R173, R177; log entry 86), and the statement on received letters. -/

namespace Sys2Proof.Machine

variable {s u : State} {o : OfficeId} {t : Fin 4} {f : LaneFrame} {r : Nat}

/-! ### A frame on a letter lane -/

/-- The lanes of an office, as a whole. -/
def State.setLanes (s : State) (o : OfficeId) (m : Sparse Lane) : State := s.modOff o fun d => { d with lanes := m }

/-- Training a letter lane changes the office's lanes alone. -/
theorem trainLane_letter (k : Fin 8) (c b : Bool) : ∃ m, s.trainLane o t (.letter k) c b = s.setLanes o m := by
  have hs : ∃ m, s = s.setLanes o m := ⟨(s.off o).lanes, modOff_id.symm⟩
  unfold State.trainLane
  extract_lets l
  split
  · exact hs
  · split
    · exact ⟨_, rfl⟩
    · split
      · exact ⟨_, rfl⟩
      · exact hs

theorem owns_of_regs (h : (u.off o).regs = (s.off o).regs) : u.owns o = s.owns o := by
  have hrd : u.rd o F.TWN_STAT_ROLE = s.rd o F.TWN_STAT_ROLE := congrArg (regGet · F.TWN_STAT_ROLE 0 0) h
  rw [State.owns, State.owns, State.role, State.role, hrd]

/-- What a frame that passes its checks meets (R140): the office with what the frame does for the training of its lane. -/
theorem rxFrame_of_good (k : Fin 8) (h : (s.off o).inReset = false) (hf : s.frameFault o f = none) (hr : s.fullRound o (frmRound f.hdr) = some r) :
    ∃ m, let v := s.setLanes o m
      (frmType f.hdr = 0 → s.rxFrame o t k f = v.takeData o t r f) ∧ (frmType f.hdr = 1 → s.rxFrame o t k f = v.takeLate o t r f) := by
  obtain ⟨m, hm⟩ := trainLane_letter (s := s) (o := o) (t := t) k (decide (frmType f.hdr = 3)) (f.charErr || decide (f.crc ≠ frameCrc f))
  refine ⟨m, ?_⟩
  intro v
  have hreset : (v.off o).inReset = false := by simp [v, State.setLanes, h]
  have hround : ∀ x, v.fullRound o x = s.fullRound o x := fun x => by simp [v, State.setLanes, State.fullRound, State.roundOf]
  have howns : v.owns o = s.owns o := owns_of_regs (by simp [v, State.setLanes])
  have hfault : v.frameFault o f = none := by
    rw [← hf]
    simp only [State.frameFault, hround, howns]
  have hv : s.rxFrame o t k f = v.takeFrame o t f := by
    rw [State.rxFrame, if_neg (by simp [h]), hm]
  refine ⟨fun ht => ?_, fun ht => ?_⟩ <;> simp [hv, State.takeFrame, hreset, hfault, hround, hr, ht]

/-- A frame announces at most 31 letters (R137). -/
theorem frmCount_lt (h : W32) : frmCount h < 32 := Nat.mod_lt _ (by decide)

theorem frameLetters_length (late : Bool) : (frameLetters f late).length = frmCount f.hdr := by simp [frameLetters]

theorem frameLetters_late (late : Bool) : ∀ l ∈ frameLetters f late, l.late = late := by
  intro l hl
  obtain ⟨k, -, rfl⟩ := List.mem_map.1 hl
  rfl

/-- What the statement says of the letters of a frame of district round `x` that go into the receive buffer. -/
def lettersKept (s u : State) (o : OfficeId) (x : Nat) (f : LaneFrame) (late : Bool) : Prop :=
  let e := (s.off o).round x
  ∃ n ≤ frmCount f.hdr,
    ((u.off o).round x).letters = e.letters ++ (frameLetters f late).take n ∧
      ((u.off o).round x).rxDropped + n = e.rxDropped + frmCount f.hdr ∧ ((s.off o).rounds = [] → (s.off o).mrg.units = [] → n = frmCount f.hdr) ∧
      ((u.off o).round x).close = e.close ∧ ∀ y, y ≠ x → (u.off o).round y = (s.off o).round y

/-- An empty receive buffer has room for a frame, also when the district round has counted the frame. -/
theorem rxUsed_room {d : Office} (x now : Nat) (e : DRound) (he : e.letters = []) (hr : d.rounds = []) (hu : d.mrg.units = []) :
    ({ d with rounds := Sparse.set {} d.rounds x e } : Office).rxUsed now = 0 := by
  have h := letterSum_set d.rounds x e
  rw [he, hr] at h
  have h0 : letterSum (Sparse.set {} [] x e) = 0 := by simpa [letterSum, Sparse.get] using h
  simp [rxUsed_eq, hu, hr, h0]

/-- The counters of late letters are none of the account of notices, nor the count of letters dropped from the receive buffer. -/
theorem lateCounters_keys (t : Fin 4) :
    (F.SORT_LN_CNT_LATE_COUNT.key t.val 0 ∉ noticeKeys ∧ F.SORT_LN_CNT_LATE_COUNT.key t.val 0 ≠ F.SORT_MG_CNT_RXDROP_COUNT.key 0 0) ∧
      F.SORT_LN_CNT_LATEDROP_COUNT.key t.val 0 ∉ noticeKeys ∧ F.SORT_LN_CNT_LATEDROP_COUNT.key t.val 0 ≠ F.SORT_MG_CNT_RXDROP_COUNT.key 0 0 := by
  revert t
  decide

/-- The letters of a frame whose merge has not begun are kept or dropped (R173, R178, R179); `v` is the state in which they come. -/
theorem lettersKept_of_buffered {v : State} {x db n : Nat} (late : Bool) (hx : x = roundKey r db) (hs : roundOnly s v o x)
    (hv : (v.off o).round x = { (s.off o).round x with frames := n })
    (hroom : (s.off o).rounds = [] → (s.off o).mrg.units = [] → (v.off o).rxUsed v.now = 0) :
    let u := (frameLetters f late).foldl (fun s l => s.bufferLetter o r db l) v
    lettersKept s u o x f late ∧ roundOnly s u o x ∧ ((u.off o).round x).frames = n ∧
      ((u.off o).round x).lateIn = ((s.off o).round x).lateIn + (((u.off o).round x).letters.length - ((s.off o).round x).letters.length) * b2n late := by
  subst hx
  intro u
  obtain ⟨hro, k, hk, hlet, hdrop, hlate, hfr, hcl, -, hall⟩ := bufferLetters_spec (o := o) r db late (frameLetters f late) (frameLetters_late late) v
  have hround := roundOnly_trans hs hro
  rw [frameLetters_length] at hk hdrop hall
  rw [hv] at hlet hdrop hlate hfr hcl hall
  refine ⟨⟨k, hk, hlet, hdrop, fun hr hu => ?_, hcl, fun y hy => hround.other hy⟩, hround, hfr, ?_⟩
  · have hdef : (s.off o).round (roundKey r db) = {} := by simp [Office.round, hr, Sparse.get]
    refine hall (by rw [hdef]) ?_
    have hlt := frmCount_lt f.hdr
    have hzero := hroom hr hu
    omega
  · rw [hlate, hlet]
    simp [frameLetters_length, Nat.min_eq_left hk]

/-- A data frame before its merge: counted, and its letters buffered (R173). -/
theorem takeData_kept (hm : (s.off o).merges r = true) (hb : (s.off o).begun (roundKey r (districtByte t (frmDistrict f.hdr))) = false)
    (ht : (s.off o).tickBad.contains (t.val, r) = false) :
    let x := roundKey r (districtByte t (frmDistrict f.hdr))
    let u := s.takeData o t r f
    lettersKept s u o x f false ∧ roundOnly s u o x ∧ ((u.off o).round x).frames = ((s.off o).round x).frames + 1 := by
  intro x u
  let e : DRound := { (s.off o).round x with frames := ((s.off o).round x).frames + 1 }
  let v := s.setRound o x e
  have hu : u = (frameLetters f false).foldl (fun s l => s.bufferLetter o r (districtByte t (frmDistrict f.hdr)) l) v := by
    have hbad : (v.off o).tickBad.contains (t.val, r) = false := by simpa [v, State.setRound] using ht
    have htaken : u = if (v.off o).tickBad.contains (t.val, r) = true then v
        else (frameLetters f false).foldl (fun s l => s.bufferLetter o r (districtByte t (frmDistrict f.hdr)) l) v := by
      unfold u State.takeData
      simp only [hm, hb, Bool.true_eq_false, Bool.false_eq_true, if_false, Bool.not_false, Bool.true_or, if_true]
      rfl
    rw [htaken, hbad, if_neg Bool.false_ne_true]
  obtain ⟨hkept, hround, hfr, -⟩ := lettersKept_of_buffered (f := f) (v := v) (n := ((s.off o).round x).frames + 1) false rfl
    (setRound_roundOnly e) (setRound_round e) fun hr hu => by
      have hdef : (s.off o).round x = {} := by simp [Office.round, hr, Sparse.get]
      simpa [v, State.setRound] using rxUsed_room x s.now e (by simp [e, hdef]) hr hu
  exact hu ▸ ⟨hkept, hround, hfr⟩

/-- A late frame before its merge: its letters are buffered, and those that the buffer takes count as accepted (R131). -/
theorem takeLate_kept (hm : (s.off o).merges r = true) (hb : (s.off o).begun (roundKey r (districtByte t (frmDistrict f.hdr))) = false)
    (ht : (s.off o).tickBad.contains (t.val, r) = false) :
    let x := roundKey r (districtByte t (frmDistrict f.hdr))
    let u := s.takeLate o t r f
    lettersKept s u o x f true ∧ onlyOff s u o ∧ u.out = s.out ∧ ((u.off o).round x).frames = ((s.off o).round x).frames ∧
      u.rd o F.SORT_LN_CNT_LATE_COUNT t.val = min (s.rd o F.SORT_LN_CNT_LATE_COUNT t.val +
        (((u.off o).round x).letters.length - ((s.off o).round x).letters.length)) 0xFFFFFFFF := by
  intro x u
  let v := (frameLetters f true).foldl (fun s l => s.bufferLetter o r (districtByte t (frmDistrict f.hdr)) l) s
  let c := ((v.off o).round x).lateIn - ((s.off o).round x).lateIn
  have hu : u = v.countBy o F.SORT_LN_CNT_LATE_COUNT c t.val := by
    unfold u State.takeLate
    simp only [hm, hb, ht, Bool.true_eq_false, Bool.false_eq_true, or_self, if_false]
    rfl
  obtain ⟨hkept, hround, hfr, hlate⟩ := lettersKept_of_buffered (s := s) (o := o) (f := f) (v := s) (n := ((s.off o).round x).frames) true rfl
    (roundOnly_refl s o x) rfl fun hr hu => by simp [rxUsed_eq, hr, hu, letterSum]
  have hc := countBy_regsOnly (s := v) (o := o) F.SORT_LN_CNT_LATE_COUNT c t.val 0 rfl
  have hrounds : (u.off o).rounds = (v.off o).rounds := by
    rw [hu]
    exact hc.field Office.rounds fun _ _ _ _ _ _ _ => rfl
  have hr : ∀ y, (u.off o).round y = (v.off o).round y := fun y => congrArg (fun m => (Sparse.get {} m y : DRound)) hrounds
  have hkept' : lettersKept s u o x f true := by simpa only [lettersKept, hr] using hkept
  refine ⟨hkept', onlyOff_trans hround.onlyOff (hu ▸ hc.onlyOff), (hu ▸ hc.out).trans hround.out, (congrArg DRound.frames (hr x)).trans hfr, ?_⟩
  have hn := (lateCounters_keys t).1
  have hcount : c = ((u.off o).round x).letters.length - ((s.off o).round x).letters.length := by
    rw [hr x]
    have hlate' : ((v.off o).round x).lateIn = ((s.off o).round x).lateIn +
        (((v.off o).round x).letters.length - ((s.off o).round x).letters.length) * 1 := hlate
    omega
  rw [← hcount, hu, rd_countBy_same _ _ _ _ rfl hn.1, hround.rd hn.2 hn.1]
  rfl

theorem modOff_onlyOff (g : Office → Office) : onlyOff s (s.modOff o g) o := ⟨rfl, rfl, rfl, rfl, modOff_off_peer g⟩

/-- A notice that comes at most once a round leaves the district rounds and the registers (R131, R135). -/
theorem raiseOnceRound_spec (bit code : Nat) (b : List Byte) :
    let u := s.raiseOnceRound o t r bit code b
    onlyOff s u o ∧ u.out = s.out ∧ (u.off o).rounds = (s.off o).rounds ∧ ∀ f i j, f.key i j ∉ noticeKeys → u.rd o f i j = s.rd o f i j := by
  intro u
  unfold u State.raiseOnceRound
  extract_lets n
  split
  · exact ⟨⟨rfl, rfl, rfl, rfl, rfl⟩, rfl, rfl, fun _ _ _ _ => rfl⟩
  · have h := raise_noticesOnly (s := s.modOff o fun d => { d with roundNotes := Sparse.set 0 d.roundNotes (r * 4 + t.val) (n + 2 ^ bit) }) (o := o) code b
    refine ⟨onlyOff_trans (modOff_onlyOff _) h.onlyOff, h.out.trans rfl,
      (h.field Office.rounds fun _ _ _ _ _ _ => rfl).trans (by rw [modOff_off_same]), fun f i j hk => (h.rd hk).trans ?_⟩
    simp [State.rd]

/-- Letters that come after their merge has begun count as dropped, and no round takes them (R131, R177). -/
theorem lateDrop_spec {n : Nat} (hn : n ≠ 0) :
    let u := s.lateDrop o t r n
    onlyOff s u o ∧ u.out = s.out ∧ (u.off o).rounds = (s.off o).rounds ∧
      u.rd o F.SORT_LN_CNT_LATEDROP_COUNT t.val = min (s.rd o F.SORT_LN_CNT_LATEDROP_COUNT t.val + n) 0xFFFFFFFF := by
  have hk := (lateCounters_keys t).2.1
  have hc := countBy_regsOnly (s := s) (o := o) F.SORT_LN_CNT_LATEDROP_COUNT n t.val 0 rfl
  obtain ⟨hoff, hout, hround, hrd⟩ := raiseOnceRound_spec (s := s.countBy o F.SORT_LN_CNT_LATEDROP_COUNT n t.val) (o := o) (t := t) (r := r) 1
    0x0205 (le 1 t.val ++ le 6 r ++ le 4 n)
  intro u
  have hu : u = (s.countBy o F.SORT_LN_CNT_LATEDROP_COUNT n t.val).raiseOnceRound o t r 1 0x0205 (le 1 t.val ++ le 6 r ++ le 4 n) := if_neg hn
  rw [hu]
  exact ⟨onlyOff_trans hc.onlyOff hoff, hout.trans hc.out, hround.trans (hc.field Office.rounds fun _ _ _ _ _ _ _ => rfl),
    (hrd _ _ _ hk).trans (rd_countBy_same _ _ _ _ rfl hk)⟩

/-- A data frame whose merge has begun is dropped and counted (log entry 86); at most the count of frames of its round changes. -/
theorem takeData_dropped (hm : (s.off o).merges r = true) (hb : (s.off o).begun (roundKey r (districtByte t (frmDistrict f.hdr))) = true)
    (ht : (s.off o).tickBad.contains (t.val, r) = false) (hn : frmCount f.hdr ≠ 0) :
    let u := s.takeData o t r f
    (∀ y, ((u.off o).round y).letters = ((s.off o).round y).letters) ∧ onlyOff s u o ∧ u.out = s.out ∧
      u.rd o F.SORT_LN_CNT_LATEDROP_COUNT t.val = min (s.rd o F.SORT_LN_CNT_LATEDROP_COUNT t.val + frmCount f.hdr) 0xFFFFFFFF := by
  intro u
  let x := roundKey r (districtByte t (frmDistrict f.hdr))
  let e : DRound := { (s.off o).round x with frames := ((s.off o).round x).frames + 1 }
  let v := if (s.off o).round x != {} then s.setRound o x e else s
  have hv : roundOnly s v o x := by
    unfold v
    split
    · exact setRound_roundOnly e
    · exact roundOnly_refl s o x
  have hbad : (v.off o).tickBad = (s.off o).tickBad := by
    unfold v
    split <;> simp [State.setRound]
  have hlet : ∀ y, ((v.off o).round y).letters = ((s.off o).round y).letters := by
    intro y
    rcases eq_or_ne y x with rfl | hy
    · unfold v
      split
      · exact (congrArg DRound.letters (setRound_round e)).trans rfl
      · rfl
    · exact congrArg DRound.letters (hv.other hy)
  have hu : u = v.lateDrop o t r (frmCount f.hdr) := by
    have htaken : u = if (v.off o).tickBad.contains (t.val, r) = true then v else v.lateDrop o t r (frmCount f.hdr) := by
      unfold u State.takeData
      simp only [hm, hb, Bool.true_eq_false, if_false, Bool.not_true, Bool.false_or, if_true]
      rfl
    rw [htaken, hbad, ht, if_neg Bool.false_ne_true]
  obtain ⟨hoff, hout, hround, hrd⟩ := lateDrop_spec (s := v) (o := o) (t := t) (r := r) hn
  have hk := (lateCounters_keys t).2
  rw [hu]
  refine ⟨fun y => ?_, onlyOff_trans hv.onlyOff hoff, hout.trans hv.out, ?_⟩
  · rw [Office.round, hround]
    exact hlet y
  · rw [hrd, hv.rd hk.2 hk.1]

/-- A data frame that passes its checks holds a letter (R137, R140). -/
theorem frmCount_ne_zero (hf : s.frameFault o f = none) (ht : frmType f.hdr = 0) : frmCount f.hdr ≠ 0 := by
  intro h0
  have hc : countOk f.hdr = false := by simp [countOk, ht, h0]
  simp only [State.frameFault, hc, or_true, if_true] at hf
  split at hf
  · cases hf
  · split at hf <;> cases hf

/-- Settles O20: what the frame's training leaves, then the letters buffered one by one, or dropped as a whole. -/
theorem receivedLettersAreKeptOrCounted : Obligations.ReceivedLettersAreKeptOrCounted := by
  intro s o t k f r x e kept hreset hf hr hm hbad
  obtain ⟨m, hdata, hlate⟩ := rxFrame_of_good (t := t) k hreset hf hr
  let v := s.setLanes o m
  have hoff : onlyOff s v o := modOff_onlyOff _
  have hv : v.off o = { s.off o with lanes := m } := modOff_off_same _
  have hround : ∀ y, (v.off o).round y = (s.off o).round y := fun y => by rw [hv]; rfl
  have hrd : ∀ g i j, v.rd o g i j = s.rd o g i j := fun g i j => by simp [State.rd, v, State.setLanes]
  have hkept : ∀ u late, lettersKept v u o x f late → kept u late := by
    intro u late h
    have hrounds : (v.off o).rounds = (s.off o).rounds := by rw [hv]
    have hunits : (v.off o).mrg.units = (s.off o).mrg.units := by rw [hv]
    simpa only [lettersKept, hround, hrounds, hunits] using h
  have hmv : (v.off o).merges r = true := by rw [hv]; exact hm
  have hbadv : (v.off o).tickBad.contains (t.val, r) = false := by rw [hv]; exact hbad
  have hbegun : (v.off o).begun x = (s.off o).begun x := by rw [hv]; rfl
  refine ⟨fun hb ht => ?_, fun hb ht => ?_, fun hb ht => ?_, fun hb ht hc => ?_⟩
  · obtain ⟨hk, hro, hfr⟩ := takeData_kept hmv (hbegun.trans hb) hbadv
    refine ⟨_, congrArg Host.Outcome.next (hdata ht), hkept _ _ hk, ?_, onlyOff_trans hoff hro.onlyOff, hro.out⟩
    rw [hfr, hround]
  · obtain ⟨hk, ho, hout, hfr, hcnt⟩ := takeLate_kept hmv (hbegun.trans hb) hbadv
    refine ⟨_, congrArg Host.Outcome.next (hlate ht), hkept _ _ hk, ?_, onlyOff_trans hoff ho, hout, ?_⟩
    · rw [hfr, hround]
    · rw [hcnt, hrd, hround]
  · obtain ⟨hlet, ho, hout, hcnt⟩ := takeData_dropped hmv (hbegun.trans hb) hbadv (frmCount_ne_zero hf ht)
    refine ⟨_, congrArg Host.Outcome.next (hdata ht), fun y => ?_, onlyOff_trans hoff ho, hout, ?_⟩
    · rw [hlet, hround]
    · rw [hcnt, hrd]
  · have htl : v.takeLate o t r f = v.lateDrop o t r (frmCount f.hdr) := by
      unfold State.takeLate
      rw [if_neg (by rw [hmv, hbadv]; decide), if_pos (hbegun.trans hb)]
    obtain ⟨ho, hout, hrounds, hcnt⟩ := lateDrop_spec (s := v) (o := o) (t := t) (r := r) (n := frmCount f.hdr) (by omega)
    refine ⟨_, congrArg Host.Outcome.next ((hlate ht).trans htl), ?_, onlyOff_trans hoff ho, hout, ?_⟩
    · rw [hrounds, hv]
    · rw [hcnt, hrd]

end Sys2Proof.Machine
end

section
/-! SUPPORT. A start of the time base that comes too late while no PPSIN edge can decide it (12 R379, R380): TODIN still names the seconds, but
the edges have failed (R384), so the second asked for is known to have begun and the start is refused. -/

namespace Sys2Proof.Machine

/-- Office A owns the head in Standby; TODIN agrees and names second 5 for the next edge, PPSIN has failed, and a start at second 1 is set. -/
def lateWithoutEdges : State :=
  let s := ((State.reset.wr .A F.TWN_STAT_ROLE 0).setMode .A .standby).swr F.RING_CFG_HEAD 1
  ((s.swr F.TB_STAT_TOD_OK 1).swr F.TB_START_SEC_LO_SEC_L 1).modTod fun t => { t with next := some 5 }

/-- The start of `lateWithoutEdges` is refused with 0x0707: no start is due. -/
theorem tbStart_of_lateWithoutEdges :
    ∃ u, exec (.tbStart .A 0x80000000) lateWithoutEdges = .next u ∧ u.svc.servo.due = none :=
  ⟨_, rfl, by decide⟩

/-- Refutes O48: the clause of a free start leaves out that a start which is too late is refused, which holds where PPSIN has failed too. -/
theorem not_timeBaseOfTheHead : ¬ Obligations.TimeBaseOfTheHead := by
  intro h
  obtain ⟨-, -, -, h4, -⟩ := h lateWithoutEdges .A 0x80000000 { sec := 0, ns := 0, frac := 0, quality := 0 } 0 0 0 [] false
  obtain ⟨-, -, hfree⟩ := h4 ⟨⟨by decide, by decide, by decide⟩, by decide, by decide, by decide⟩
  obtain ⟨u, hu, -, -, -, -, q, hq⟩ := hfree (by decide) (by decide)
  obtain ⟨u', hu', hdue⟩ := tbStart_of_lateWithoutEdges
  obtain rfl : u = u' := Host.Outcome.next.inj (hu.symm.trans hu')
  exact absurd (hdue.symm.trans hq) nofun

end Sys2Proof.Machine
end

section
/-! SUPPORT. Ring ports: what their transmitters do, and what a frame that arrives meets first (09 R390, R393, R395, R402). -/

namespace Sys2Proof.Machine

variable {s u w : State} {p q : RingPort} {f : RingFrame}

/-! ### The two ports -/

theorem otherPort_ne (p : RingPort) : otherPort p ≠ p := by cases p <;> decide

theorem eq_otherPort (h : q ≠ p) : q = otherPort p := by
  revert h
  cases p <;> cases q <;> decide

@[simp] theorem port_setPort_same (r : Ring) (p : RingPort) (x : RPort) : (r.setPort p x).port p = x := by cases p <;> rfl

theorem port_setPort_other (r : Ring) (x : RPort) (h : q ≠ p) : (r.setPort p x).port q = r.port q := by
  rw [eq_otherPort h]
  cases p <;> rfl

@[simp] theorem setPort_setPort (r : Ring) (p : RingPort) (x y : RPort) : (r.setPort p x).setPort p y = r.setPort p y := by cases p <;> rfl

@[simp] theorem setPort_port (r : Ring) (p : RingPort) : r.setPort p (r.port p) = r := by cases p <;> rfl

@[simp] theorem setPort_open (r : Ring) (p : RingPort) (x : RPort) : (r.setPort p x).open_ = r.open_ := by cases p <;> rfl

@[simp] theorem setPort_sched (r : Ring) (p : RingPort) (x : RPort) : (r.setPort p x).sched = r.sched := by cases p <;> rfl

@[simp] theorem setPort_syncAt (r : Ring) (p : RingPort) (x : RPort) : (r.setPort p x).syncAt = r.syncAt := by cases p <;> rfl

/-! ### What the transmitter of a port changes (R395) -/

/-- Beside the transmitter of port `q` and what goes out, nothing differs. -/
def sendsAt (s u : State) (q : RingPort) : Prop :=
  ∃ y out, sendingOnly (s.svc.ring.port q) y ∧ u = { s.modRPort q (fun _ => y) with out := out }

theorem sendsAt_refl (s : State) (q : RingPort) : sendsAt s s q :=
  ⟨s.svc.ring.port q, s.out, rfl, by simp [State.modRPort, State.modRing, State.modSvc]⟩

theorem sendingOnly_trans {x y z : RPort} (h : sendingOnly x y) (k : sendingOnly y z) : sendingOnly x z :=
  k.trans (congrArg (fun x : RPort => { x with sending := z.sending, waiting := z.waiting, parked := z.parked }) h)

theorem sendsAt_trans (h : sendsAt s u q) (k : sendsAt u w q) : sendsAt s w q := by
  obtain ⟨y, out, hy, rfl⟩ := h
  obtain ⟨z, out', hz, rfl⟩ := k
  refine ⟨z, out', sendingOnly_trans hy ?_, by simp [State.modRPort, State.modRing, State.modSvc]⟩
  simpa [State.modRPort, State.modRing, State.modSvc] using hz

theorem emit_sendsAt (e : Emission) : sendsAt s (s.emit e) q :=
  ⟨s.svc.ring.port q, e :: s.out, rfl, by simp [State.modRPort, State.modRing, State.modSvc, State.emit]⟩

theorem modRPort_sendsAt (g : RPort → RPort) (hg : ∀ x, sendingOnly x (g x) := by exact fun _ => rfl) : sendsAt s (s.modRPort q g) q :=
  ⟨_, s.out, hg _, rfl⟩

theorem launch_sendsAt (f : TxFrame) : sendsAt s (s.launch q f) q := sendsAt_trans (modRPort_sendsAt _) (emit_sendsAt _)

theorem txNext_sendsAt : sendsAt s (s.txNext q) q := by
  have hend : sendsAt s (s.modRPort q fun x => { x with sending := none }) q := modRPort_sendsAt _
  refine sendsAt_trans hend ?_
  unfold State.txNext
  extract_lets x s
  split
  · exact sendsAt_trans (modRPort_sendsAt _) (launch_sendsAt _)
  · split
    · exact sendsAt_trans (modRPort_sendsAt _) (launch_sendsAt _)
    · exact sendsAt_trans (modRPort_sendsAt _) (emit_sendsAt _)
  · exact sendsAt_trans (modRPort_sendsAt _) (emit_sendsAt _)
  · exact sendsAt_refl _ _

theorem pumpRing_sendsAt : sendsAt s (s.pumpRing q) q := by
  unfold State.pumpRing
  split
  · exact txNext_sendsAt
  · exact sendsAt_refl s q

theorem transmit_sendsAt (f : TxFrame) : sendsAt s (s.transmit q f) q := by
  refine sendsAt_trans pumpRing_sendsAt ?_
  unfold State.transmit
  extract_lets s
  split
  · exact launch_sendsAt f
  · split
    · exact sendsAt_trans (modRPort_sendsAt _) (launch_sendsAt _)
    · exact modRPort_sendsAt _

namespace sendsAt

variable (h : sendsAt s u q)
include h

theorem offices : u.offices = s.offices := by obtain ⟨y, out, -, rfl⟩ := h; rfl

theorem tiles : u.tiles = s.tiles := by obtain ⟨y, out, -, rfl⟩ := h; rfl

theorem pending : u.pending = s.pending := by obtain ⟨y, out, -, rfl⟩ := h; rfl

theorem now : u.now = s.now := by obtain ⟨y, out, -, rfl⟩ := h; rfl

theorem svc : u.svc = { s.svc with ring := s.svc.ring.setPort q (u.svc.ring.port q) } := by
  obtain ⟨y, out, -, rfl⟩ := h
  exact congrArg (fun x => { s.svc with ring := s.svc.ring.setPort q x }) (port_setPort_same _ _ _).symm

theorem fuses : u.svc.fuses = s.svc.fuses := by rw [h.svc]

theorem regs : u.svc.regs = s.svc.regs := by rw [h.svc]

theorem port : sendingOnly (s.svc.ring.port q) (u.svc.ring.port q) := by
  obtain ⟨y, out, hy, rfl⟩ := h
  exact (port_setPort_same s.svc.ring q y).symm ▸ hy

theorem port_other (hq : p ≠ q) : u.svc.ring.port p = s.svc.ring.port p := by
  rw [h.svc]
  exact port_setPort_other _ _ hq

/-- What a port holds beside its transmitter stays. -/
theorem port_field {α : Type} (g : RPort → α) (hg : ∀ (x : RPort) a b c, g { x with sending := a, waiting := b, parked := c } = g x) :
    g (u.svc.ring.port p) = g (s.svc.ring.port p) := by
  by_cases hq : p = q
  · subst hq
    rw [h.port, hg]
  · rw [h.port_other hq]

theorem srd (f : Fld) (i j : Nat) : u.srd f i j = s.srd f i j := by
  unfold State.srd
  rw [h.svc]

theorem portUp (p : RingPort) : u.portUp p = s.portUp p := by
  unfold State.portUp
  rw [h.srd, h.svc]
  simp

end sendsAt

/-- A frame for a port goes to its transmitter, or to that of the other port where this one is not UP (R402). -/
theorem ringSend_sendsAt (p : RingPort) (type origin hops : Nat) (west wrapped own : Bool) (words : List W32) :
    ∃ q, (s.portUp p = false → q = otherPort p) ∧ sendsAt s (s.ringSend p type origin hops west wrapped own words) q := by
  unfold State.ringSend
  split
  next h => exact ⟨p, by simp [h], transmit_sendsAt _⟩
  next h =>
    refine ⟨otherPort p, fun _ => rfl, ?_⟩
    split
    · exact transmit_sendsAt _
    · exact sendsAt_refl _ _

theorem ringSend_of_up (h : s.portUp p = true) (type origin hops : Nat) (west wrapped own : Bool) (words : List W32) :
    s.ringSend p type origin hops west wrapped own words =
      s.transmit p { hdr := rgHeader type origin hops west wrapped words.length, words := words, own := own } := if_pos h

/-- A transmitter that sends nothing begins a frame at once (R392, R395). -/
theorem transmit_of_idle (h : (s.svc.ring.port p).sending = none) (f : TxFrame) : s.transmit p f = s.launch p f := by
  have hp : s.pumpRing p = s := by simp [State.pumpRing, h]
  unfold State.transmit
  rw [hp]
  simp only [h]

/-- A SYNC frame suspends another frame that is being sent (R395). -/
theorem transmit_of_sync {x : TxFrame × Nat} {f : TxFrame} (h : (s.svc.ring.port p).sending = some x) (hn : s.now < x.2) (hx : rgType x.1.hdr ≠ 0)
    (hk : (s.svc.ring.port p).parked = none) (hf : rgType f.hdr = 0) :
    s.transmit p f = (s.modRPort p fun y => { y with parked := some (x.1, x.2 - s.now) }).launch p f := by
  have hp : s.pumpRing p = s := by
    refine if_neg ?_
    rw [h]
    simpa using hn
  unfold State.transmit
  rw [hp]
  simp [h, hk, hf, hx, TxFrame.sync]

/-! ### A frame that arrives (R393) -/

theorem ringRx_of_down (h : s.portUp p = false) (type : Nat) (act : State → State) : s.ringRx p type f act = s := if_pos h

theorem ringRx_of_bad (h : s.portUp p = true) (hf : ringGood f = false ∨ ¬ (s.crossRing p f).2 = true) (type : Nat) (act : State → State) :
    s.ringRx p type f act = (s.crossRing p f).1.countUp (s.crossRing p f).1.speaker F.RING_CNT_CRC_COUNT := by
  have hf' : ringGood f = false ∨ (s.crossRing p f).2 = false := by simpa using hf
  unfold State.ringRx
  rw [if_neg (by simp [h])]
  exact if_pos hf'

theorem ringRx_of_whole (h : s.portUp p = true) (hf : ringGood f = true) (hw : (s.crossRing p f).2 = true) (type : Nat) (act : State → State) :
    s.ringRx p type f act = if rgType f.hdr ≠ type then (s.crossRing p f).1 else act ((s.crossRing p f).1.noteWrapped f) := by
  unfold State.ringRx
  rw [if_neg (by simp [h])]
  exact if_neg (by simp [hf, hw])

theorem ringRx_of_otherType (h : s.portUp p = true) (hf : ringGood f = true) (hw : (s.crossRing p f).2 = true) {type : Nat} (ht : rgType f.hdr ≠ type)
    (act : State → State) : s.ringRx p type f act = (s.crossRing p f).1 := by
  rw [ringRx_of_whole h hf hw, if_pos ht]

theorem ringRx_of_good (h : s.portUp p = true ∧ ringGood f = true ∧ (s.crossRing p f).2 = true ∧ rgWrapped f.hdr = false) {type : Nat}
    (ht : rgType f.hdr = type) (act : State → State) : s.ringRx p type f act = act (s.crossRing p f).1 := by
  obtain ⟨hu, hf, hw, hn⟩ := h
  rw [ringRx_of_whole hu hf hw, if_neg (by simp [ht]), State.noteWrapped, if_neg (by simp [hn])]

/-- A bad frame counts, and nothing else comes of it (R393). -/
theorem countUp_of_badFrame (z : State) (ho : z.out = s.out) (hc : z.srd F.RING_CNT_CRC_COUNT = s.srd F.RING_CNT_CRC_COUNT) (o : OfficeId) :
    let u := z.countUp o F.RING_CNT_CRC_COUNT
    u.srd F.RING_CNT_CRC_COUNT = min (s.srd F.RING_CNT_CRC_COUNT + 1) 0xFFFFFFFF ∧ svcRegsOnly z u [F.RING_CNT_CRC_COUNT] ∧ u.out = s.out :=
  ⟨hc ▸ srd_countUp_same rfl, countUp_svcRegsOnly rfl, (countUp_out _ _ _).trans ho⟩

end Sys2Proof.Machine
end

section
/-! SUPPORT. A change of a ring port's state: training, up and open (09 R390, R397, R402, R418, R421). -/

namespace Sys2Proof.Machine

variable {s u w : State} {o : OfficeId} {p q : RingPort} {f g : Fld} {n : Nat}

/-! ### The registers of a port -/

theorem stateKey_other (p : RingPort) : (portStateFld (otherPort p)).key 0 0 ≠ (portStateFld p).key 0 0 := by cases p <;> decide

theorem stateKey_ne_peer (p q : RingPort) : (portStateFld q).key 0 0 ≠ (portPeerFld p).key 0 0 := by cases p <;> cases q <;> decide

theorem stateKey_ne_skip (p q : RingPort) : (portStateFld q).key 0 0 ≠ (portSkipFld p).key 0 0 := by cases p <;> cases q <;> decide

theorem width_state (p : RingPort) : (portStateFld p).w = 2 := by cases p <;> rfl

theorem width_peer (p : RingPort) : (portPeerFld p).w = 8 := by cases p <;> rfl

/-! ### A port in a new state -/

/-- Port `q` is in state `n`; the frames that waited there are turned back onto the other port (R402), which is otherwise as it was. -/
def portMoved (s u : State) (q : RingPort) (n : Nat) : Prop :=
  u.srd (portStateFld q) = n ∧
    u.svc.ring.port q = { since := s.now, pdSeq := (s.svc.ring.port q).pdSeq } ∧
    ((s.svc.ring.port q).waiting = [] → u.svc.ring.port (otherPort q) = s.svc.ring.port (otherPort q)) ∧
    u.srd (portStateFld (otherPort q)) = s.srd (portStateFld (otherPort q)) ∧ u.svc.ring.sched = s.svc.ring.sched ∧ u.tiles = s.tiles ∧ kept s u

/-- The ring, the clock and the ports' states are as they were: what a change of a port's state starts from. -/
def portsKept (s u : State) : Prop :=
  u.svc.ring = s.svc.ring ∧ (∀ p, u.srd (portStateFld p) = s.srd (portStateFld p)) ∧ u.tiles = s.tiles ∧ kept s u

theorem kept_trans (h : kept s u) (k : kept u w) : kept s w := by
  obtain ⟨hp, hn, hf⟩ := h
  obtain ⟨kp, kn, kf⟩ := k
  exact ⟨kp.trans hp, kn.trans hn, kf.trans hf⟩

theorem portsKept_trans (h : portsKept s u) (k : portsKept u w) : portsKept s w := by
  obtain ⟨hr, hs, ht, hk⟩ := h
  obtain ⟨kr, ks, kt, kk⟩ := k
  exact ⟨kr.trans hr, fun p => (ks p).trans (hs p), kt.trans ht, kept_trans hk kk⟩

theorem portMoved_of_before (h : portsKept s u) (k : portMoved u w q n) : portMoved s w q n := by
  obtain ⟨hr, hs, ht, hk⟩ := h
  unfold portMoved at k
  rw [hr, hs, ht, hk.2.1] at k
  obtain ⟨k1, k2, k3, k4, k5, k6, k7⟩ := k
  exact ⟨k1, k2, k3, k4, k5, k6, kept_trans hk k7⟩

theorem portMoved_of_after (h : portMoved s u q n) (k : portsKept u w) : portMoved s w q n := by
  obtain ⟨h1, h2, h3, h4, h5, h6, h7⟩ := h
  obtain ⟨kr, ks, kt, kk⟩ := k
  exact ⟨(ks q).trans h1, kr ▸ h2, kr ▸ h3, (ks _).trans h4, kr ▸ h5, kt.trans h6, kept_trans h7 kk⟩

theorem swr_portsKept (v : Nat) (h : ∀ p, (portStateFld p).key 0 0 ≠ f.key 0 0) : portsKept s (s.swr f v) :=
  ⟨rfl, fun p => srd_swr_other v (h p), rfl, rfl, rfl, rfl⟩

theorem portsKept_of_svc (hs : u.svc = s.svc) (ht : u.tiles = s.tiles) (hp : u.pending = s.pending) (hn : u.now = s.now) : portsKept s u :=
  ⟨by rw [hs], fun p => by rw [State.srd, hs]; rfl, ht, hp, hn, by rw [hs]⟩

theorem raiseSvc_portsKept (c : Nat) (b : List Byte) : portsKept s (s.raiseSvc c b) :=
  portsKept_of_svc (raiseSvc_svc _ _) (raiseSvc_tiles _ _) (raiseSvc_pending _ _) (raiseSvc_now _ _)

theorem noticesOnly.portsKept (h : noticesOnly s u o) : portsKept s u :=
  portsKept_of_svc h.svc h.tiles h.onlyOff.1 h.onlyOff.2.1

/-! ### `setRPort` (R390, R402) -/

/-- The frames that waited at a port are handed out again (R402). -/
def State.turnedBack (s : State) (p : RingPort) (l : List TxFrame) : State :=
  l.foldl (fun s f => s.ringSend p (rgType f.hdr) (rgOrigin f.hdr) (rgHops f.hdr) (rgWest f.hdr) (rgWrapped f.hdr) f.own f.words) s

/-- Frames that waited at a port that is no longer UP change the other port's transmitter alone (R402). -/
theorem turnedBack_sendsAt (l : List TxFrame) (h : s.portUp p = false) :
    sendsAt s (s.turnedBack p l) (otherPort p) := by
  induction l generalizing s with
  | nil => exact sendsAt_refl _ _
  | cons f l ih =>
    obtain ⟨q, hq, hs⟩ := ringSend_sendsAt (s := s) p (rgType f.hdr) (rgOrigin f.hdr) (rgHops f.hdr) (rgWest f.hdr) (rgWrapped f.hdr) f.own f.words
    obtain rfl := hq h
    exact sendsAt_trans hs (ih ((hs.portUp p).trans h))

/-- The port begins anew in its new state (R390). -/
def State.portAnew (s : State) (p : RingPort) (n : Nat) : State :=
  (s.modRPort p fun x => { since := s.now, pdSeq := x.pdSeq }).swr (portStateFld p) n

/-- A change of a port's state: the port begins anew, the other takes the frames that waited, the timing may go, and 0x0703 may be raised. -/
theorem setRPort_spec (p : RingPort) (hn : n < 4) : ∃ v r t, sendsAt (s.portAnew p n) v (otherPort p) ∧
    ((s.svc.ring.port p).waiting = [] → v = s.portAnew p n) ∧ r = v.modRing (fun r => { r with timed := t }) ∧
    (s.setRPort p n = r ∨ ∃ b, s.setRPort p n = r.raiseSvc 0x0703 b) := by
  have hst : (s.portAnew p n).srd (portStateFld p) = n := by
    rw [State.portAnew, srd_swr_same, width_state]
    exact Nat.mod_eq_of_lt hn
  have hend : ∀ (v : State) (was : Bool) (b : List Byte),
      (if v.locallyWrapped = was then v else v.raiseSvc 0x0703 b) = v ∨
        ∃ b', (if v.locallyWrapped = was then v else v.raiseSvc 0x0703 b) = v.raiseSvc 0x0703 b' := by
    intro v was b
    split
    · exact .inl rfl
    · exact .inr ⟨b, rfl⟩
  by_cases hup : n = rpUp
  · refine ⟨s.portAnew p n, s.portAnew p n, (s.portAnew p n).svc.ring.timed, sendsAt_refl _ _, fun _ => rfl, rfl, ?_⟩
    unfold State.setRPort
    simp only [if_pos hup, List.foldl_nil]
    exact hend _ _ _
  · have hdown : (s.portAnew p n).portUp p = false := by simp [State.portUp, hst, hup]
    let v := (s.portAnew p n).turnedBack p (s.svc.ring.port p).waiting
    refine ⟨v, _, v.svc.ring.timed && decide (v.srd F.RING_STAT_TPORT ≠ portCode p), turnedBack_sendsAt _ hdown, fun h => ?_, rfl, ?_⟩
    · simp only [v, h]
      rfl
    unfold State.setRPort
    simp only [if_neg hup]
    exact hend _ _ _

theorem portAnew_port (p : RingPort) (n : Nat) : (s.portAnew p n).svc.ring.port p = { since := s.now, pdSeq := (s.svc.ring.port p).pdSeq } :=
  port_setPort_same _ _ _

theorem portAnew_port_other (p : RingPort) (n : Nat) : (s.portAnew p n).svc.ring.port (otherPort p) = s.svc.ring.port (otherPort p) :=
  port_setPort_other _ _ (otherPort_ne p)

@[simp] theorem modRing_timed_port (r : Ring) (t : Bool) (p : RingPort) : Ring.port { r with timed := t } p = r.port p := by cases p <;> rfl

/-- What a change of a port's state keeps beside the port: the offices but for notices, and every other register. -/
def setRPortRest (s u : State) (p : RingPort) : Prop :=
  (∃ v, v.offices = s.offices ∧ (u = v ∨ ∃ b, u = v.raiseSvc 0x0703 b)) ∧ svcRegsKept s u [portStateFld p]

theorem setRPort_moved (p : RingPort) (hn : n < 4) : portMoved s (s.setRPort p n) p n ∧ setRPortRest s (s.setRPort p n) p := by
  obtain ⟨v, r, t, hv, hw, hr, he⟩ := setRPort_spec (s := s) p hn
  have hsrd : ∀ f, r.srd f = (s.portAnew p n).srd f := fun f => by rw [← hv.srd f 0 0, hr]; rfl
  have hring : r.svc.ring = { v.svc.ring with timed := t } := by rw [hr]; rfl
  have hmoved : portMoved s r p n := by
    refine ⟨?_, ?_, fun h => ?_, ?_, ?_, ?_, ?_, ?_, ?_⟩
    · rw [hsrd, State.portAnew, srd_swr_same, width_state]
      exact Nat.mod_eq_of_lt hn
    · rw [hring, modRing_timed_port, hv.port_other (otherPort_ne p).symm, portAnew_port]
    · rw [hring, modRing_timed_port, hw h, portAnew_port_other]
    · rw [hsrd]
      exact srd_swr_other _ (stateKey_other p)
    · rw [hring, hv.svc]
      exact (setPort_sched _ _ _).trans (setPort_sched _ _ _)
    · rw [hr]; exact hv.tiles
    · rw [hr]; exact hv.pending
    · rw [hr]; exact hv.now
    · rw [hr]; exact hv.fuses
  have hregs : svcRegsKept s r [portStateFld p] := by
    have h1 : r.svc.regs = (s.portAnew p n).svc.regs := by rw [hr]; exact hv.regs
    exact fun k hk => by rw [h1]; exact swr_svcRegsKept (s := s.modRPort p _) _ k hk
  have hoff : r.offices = s.offices := by rw [hr]; exact hv.offices
  obtain h | ⟨b, h⟩ := he
  · exact h ▸ ⟨hmoved, ⟨r, hoff, .inl rfl⟩, hregs⟩
  · exact h ▸ ⟨portMoved_of_after hmoved (raiseSvc_portsKept _ _), ⟨r, hoff, .inr ⟨b, rfl⟩⟩,
      svcRegsKept_trans hregs (svcRegsKept_of_eq (by rw [raiseSvc_svc]))⟩

end Sys2Proof.Machine
end

section
/-! SUPPORT. The commands about the state of a ring port (09 R390, R397, R420, R421) and the notices they raise (log entry 8). -/

namespace Sys2Proof.Machine

variable {s u v w : State} {o : OfficeId} {p : RingPort} {n c : Nat} {b : List Byte}

/-! ### Notices at the owner -/

/-- Of the offices only `o` differs, and that by notices at the most. -/
def officesNoticed (s u : State) (o : OfficeId) : Prop := ∃ w, noticesOnly s w o ∧ u.offices = w.offices

theorem officesNoticed_of_eq (h : u.offices = s.offices) (o : OfficeId) : officesNoticed s u o := ⟨s, noticesOnly_refl s o, h⟩

theorem officesNoticed_raise (h : u.offices = s.offices) : officesNoticed s (u.raise o c b) o := by
  have hoff : u.off o = s.off o := congrArg (Pair.get · o) h
  obtain ⟨d, hd, hf, hr⟩ := raise_noticesOnly (s := u) (o := o) c b
  refine ⟨s.modOff o fun _ => d, ⟨d, rfl, hoff ▸ hf, hoff ▸ hr⟩, ?_⟩
  rw [hd]
  exact congrArg (Pair.set · o d) h

theorem officesNoticed.off (h : officesNoticed s u o) : ∃ w, noticesOnly s w o ∧ ∀ a, u.off a = w.off a := by
  obtain ⟨w, hw, hu⟩ := h
  exact ⟨w, hw, fun a => congrArg (Pair.get · a) hu⟩

theorem owner_congr (h : ∀ a, u.owns a = s.owns a) : u.owner = s.owner := by simp [State.owner, h]

theorem officesNoticed.owner (h : officesNoticed s u o) : u.owner = s.owner := by
  obtain ⟨w, hw, hu⟩ := h.off
  refine owner_congr fun a => ?_
  rw [owns_of_regs (s := w) (by rw [hu])]
  by_cases ha : a = o
  · exact ha ▸ hw.owns
  · have hother : a = otherOffice o := by revert ha; cases a <;> cases o <;> decide
    exact hother ▸ owns_of_regs (congrArg Office.regs hw.onlyOff.2.2.2.2)

theorem raised_of_before (h : officesNoticed s u o) (k : raised u w o c b) : raised s w o c b := by
  obtain ⟨x, hx, hu⟩ := h.off
  have hreset : (u.off o).inReset = (s.off o).inReset := (hu o).symm ▸ hx.field Office.inReset fun _ _ _ _ _ _ => rfl
  have hcount : (u.off o).count = (s.off o).count := (hu o).symm ▸ hx.field Office.count fun _ _ _ _ _ _ => rfl
  unfold raised at *
  rwa [hreset, hcount] at k

theorem raiseSvc_of_owner (h : s.owner = some o) : s.raiseSvc c b = s.raise o c b := by
  unfold State.raiseSvc
  rw [h]

/-- A notice of the service die is the newest of the owner's log (log entry 8). -/
theorem raiseSvc_raised (hown : s.owner = some o) (h : officesNoticed s u o) : raised s (u.raiseSvc c b) o c b := by
  rw [raiseSvc_of_owner (h.owner.trans hown)]
  exact raised_of_before h (raise_raised (noticesOnly_refl u o))

theorem setRPortRest.officesNoticed (h : setRPortRest s u p) (hown : s.owner = some o) : officesNoticed s u o := by
  obtain ⟨⟨v, hv, hu⟩, -⟩ := h
  have hvo : v.owner = some o := (officesNoticed_of_eq hv o).owner.trans hown
  obtain rfl | ⟨b, rfl⟩ := hu
  · exact officesNoticed_of_eq hv o
  · rw [raiseSvc_of_owner hvo]
    exact officesNoticed_raise hv

/-! ### Training, open, errors, retry -/

/-- A port whose state changes keeps what a peer of it showed. -/
theorem setRPort_srd_peer (p : RingPort) (hn : n < 4) (q : RingPort) : (s.setRPort p n).srd (portPeerFld q) = s.srd (portPeerFld q) :=
  (setRPort_moved p hn).2.2.srd (by simpa using (stateKey_ne_peer q p).symm)

/-- A port whose peer may not stand there becomes OPEN and shows the peer (R397, R421). -/
theorem peerRejected_moved (p : RingPort) {peer : Nat} (hp : peer < 256) :
    portMoved s (s.peerRejected p peer) p rpOpen ∧ (s.peerRejected p peer).srd (portPeerFld p) = peer := by
  have hdraw : portsKept s (s.draw 8).2 := portsKept_of_svc rfl rfl rfl rfl
  have hset := portMoved_of_before hdraw (setRPort_moved p (n := rpOpen) (by decide)).1
  have hmoved := portMoved_of_after hset (swr_portsKept peer (stateKey_ne_peer p))
  have hpeer : (((s.draw 8).2.setRPort p rpOpen).swr (portPeerFld p) peer).srd (portPeerFld p) = peer := by
    rw [srd_swr_same, width_peer]
    exact Nat.mod_eq_of_lt hp
  unfold State.peerRejected
  extract_lets r v
  split <;>
  · refine ⟨portMoved_of_after hmoved (portsKept_trans (raiseSvc_portsKept _ _) (raiseSvc_portsKept _ _)), ?_⟩
    rw [srd_raiseSvc, srd_raiseSvc]
    exact hpeer

theorem ringPortTrainingPass_of_closed {peer : Byte} (h : s.svc.ring.open_ = false ∨ s.srd (portStateFld p) ≠ rpTraining) :
    exec (.ringPortTrainingPass p peer) s = .next s := congrArg Host.Outcome.next (if_pos h)

theorem ringPortTrainingPass_of_rejected {peer : Byte} (h : s.svc.ring.open_ = true) (hs : s.srd (portStateFld p) = rpTraining)
    (hp : s.peerOk p peer.toNat = false) : exec (.ringPortTrainingPass p peer) s = .next (s.peerRejected p peer.toNat) :=
  congrArg Host.Outcome.next ((if_neg (by simp [h, hs])).trans (if_pos hp))

/-- Training passes with a peer that may stand at the port: it comes UP with 0x0702 (R390, R397). -/
theorem ringPortTrainingPass_up {peer : Byte} (h : s.svc.ring.open_ = true) (hs : s.srd (portStateFld p) = rpTraining)
    (hp : s.peerOk p peer.toNat = true) (hown : s.owner = some o) : gives (.ringPortTrainingPass p peer) s fun u =>
      portMoved s u p rpUp ∧ u.srd (portPeerFld p) = peer.toNat ∧ raised s u o 0x0702 (le 1 (portCode p) ++ le 1 peer.toNat) := by
  refine ⟨_, congrArg Host.Outcome.next ((if_neg (by simp [h, hs])).trans (if_neg (by simp [hp]))), ?_⟩
  let k := (s.peerDistance p peer.toNat).getD 1 - 1
  let v := (s.swr (portPeerFld p) peer.toNat).swr (portSkipFld p) k
  have hv : portsKept s v := portsKept_trans (swr_portsKept _ (stateKey_ne_peer p)) (swr_portsKept k (stateKey_ne_skip p))
  obtain ⟨hm, hrest⟩ := setRPort_moved (s := v) p (n := rpUp) (by decide)
  have hvo : v.owner = some o := (officesNoticed_of_eq (s := s) (u := v) rfl o).owner.trans hown
  have hpeer : v.srd (portPeerFld p) = peer.toNat := by
    refine (srd_swr_other k (by cases p <;> decide)).trans ((srd_swr_same _ _ _ _).trans ?_)
    rw [width_peer]
    exact Nat.mod_eq_of_lt peer.isLt
  exact ⟨portMoved_of_after (portMoved_of_before hv hm) (raiseSvc_portsKept _ _),
    (srd_raiseSvc _ _ _ _).trans ((setRPort_srd_peer p (by decide) p).trans hpeer),
    raiseSvc_raised (s := v) hvo (hrest.officesNoticed hvo)⟩

/-- No comma lock within 10 ms: the port becomes OPEN with 0x0701 (R390). -/
theorem ringPortOpen_timeout (h : s.svc.ring.open_ = true) (hs : s.srd (portStateFld p) = rpTraining)
    (ht : (s.svc.ring.port p).since + ticksOfUs 10000 ≤ s.now) (hown : s.owner = some o) : gives (.ringPortOpen p none) s fun u =>
      portMoved s u p rpOpen ∧ raised s u o 0x0701 (le 1 (portCode p) ++ le 1 0) := by
  obtain ⟨hm, hrest⟩ := setRPort_moved (s := s) p (n := rpOpen) (by decide)
  exact ⟨_, congrArg Host.Outcome.next ((if_neg (by simp [h])).trans (if_pos ⟨hs, ht⟩)), portMoved_of_after hm (raiseSvc_portsKept _ _),
    raiseSvc_raised hown (hrest.officesNoticed hown)⟩

theorem ringPortOpen_rejected {peer : Byte} (h : s.svc.ring.open_ = true) (hs : s.srd (portStateFld p) ≠ rpOpen) (hp : s.peerOk p peer.toNat = false) :
    gives (.ringPortOpen p (some peer)) s fun u => portMoved s u p rpOpen :=
  ⟨_, congrArg Host.Outcome.next ((if_neg (by simp [h])).trans (if_neg (by simp [hs, hp]))), (peerRejected_moved p peer.isLt).1⟩

theorem ringPortErrors_up (h : s.portUp p = true) : gives (.ringPortErrors p) s fun u => portMoved s u p rpTraining :=
  ⟨_, congrArg Host.Outcome.next (if_pos h), (setRPort_moved p (by decide)).1⟩

theorem ringPortRetry_open (h : s.svc.ring.open_ = true) (hs : s.srd (portStateFld p) = rpOpen)
    (ht : (s.svc.ring.port p).since + ticksOfUs 1000000 ≤ s.now) : gives (.ringPortRetry p) s fun u => portMoved s u p rpTraining :=
  ⟨_, congrArg Host.Outcome.next (if_pos ⟨h, hs, ht⟩), (setRPort_moved p (by decide)).1⟩

/-! ### Training by the host (R420) -/

/-- A write to `RING_CTL` that clears no counter and trains ports by bits 30 and 31 alone. -/
theorem ringCtl_of_trains {v : W32} (hw : writable s o F.RING_CTL_CRC.off v.toNat) (h8 : v.toNat % 8 = 0) :
    ∃ u, noticesOnly s u o ∧ s.ringCtl o v.toNat =
      let u := if v.getLsbD 31 = true ∧ u.svc.ring.open_ then u.setRPort .E rpTraining else u
      if v.getLsbD 30 = true ∧ u.svc.ring.open_ then u.setRPort .W rpTraining else u := by
  obtain ⟨u, hu, hwrite⟩ := hostWrite_of_holdsNothing (by decide) hw
  refine ⟨u, hu, ?_⟩
  have hclear : u.clearBits o v.toNat 0 0 [F.RING_CNT_CRC_COUNT, F.RING_CNT_LATESM_COUNT, F.RING_CNT_PDREJ_COUNT] = u := by
    have h0 : bitsOf v.toNat 0 1 = 0 := by simp only [bitsOf]; omega
    have h1 : bitsOf v.toNat 1 1 = 0 := by simp only [bitsOf]; omega
    have h2 : bitsOf v.toNat 2 1 = 0 := by simp only [bitsOf]; omega
    simp [State.clearBits, h0, h1, h2]
  unfold State.ringCtl
  simp [hwrite, hclear, bitsOf_toNat]

theorem retrain_moved {v : W32} (hw : writable s o F.RING_CTL_CRC.off v.toNat) (hopen : s.svc.ring.open_ = true) (h8 : v.toNat % 8 = 0) :
    (v.getLsbD 31 = true → v.getLsbD 30 = false → portMoved s (s.ringCtl o v.toNat) .E rpTraining) ∧
      (v.getLsbD 30 = true → v.getLsbD 31 = false → portMoved s (s.ringCtl o v.toNat) .W rpTraining) := by
  obtain ⟨u, hu, he⟩ := ringCtl_of_trains hw h8
  have hmoved := fun p => portMoved_of_before hu.portsKept (setRPort_moved (s := u) p (n := rpTraining) (by decide)).1
  have hopen' : u.svc.ring.open_ = true := by rw [hu.svc]; exact hopen
  refine ⟨fun h31 h30 => ?_, fun h30 h31 => ?_⟩
  · rw [he]
    simp only [h31, h30, hopen', Bool.false_eq_true, false_and, and_self, if_true, if_false]
    exact hmoved .E
  · rw [he]
    simp only [h31, h30, hopen', Bool.false_eq_true, false_and, and_self, if_true, if_false]
    exact hmoved .W

end Sys2Proof.Machine
end

section
/-! SUPPORT. Peer delay frames and ring holdover (09 R396, R404). -/

namespace Sys2Proof.Machine

variable {s u w : State} {o : OfficeId} {p : RingPort} {f : RingFrame}

theorem onlySvc_trans (h : onlySvc s u) (k : onlySvc u w) : onlySvc s w := by
  obtain ⟨ht, ho, hp, hn⟩ := h
  obtain ⟨kt, ko, kp, kn⟩ := k
  exact ⟨kt.trans ht, ko.trans ho, kp.trans hp, kn.trans hn⟩

theorem modRPort_onlySvc (g : RPort → RPort) : onlySvc s (s.modRPort p g) := ⟨rfl, rfl, rfl, rfl⟩

theorem swr_onlySvc (f : Fld) (v : Nat) : onlySvc s (s.swr f v) := ⟨rfl, rfl, rfl, rfl⟩

theorem crossRing_onlySvc (f : RingFrame) : onlySvc s (s.crossRing p f).1 := ⟨rfl, rfl, rfl, rfl⟩

theorem modRPort_out (g : RPort → RPort) : (s.modRPort p g).out = s.out := rfl

theorem modRPort_regs (g : RPort → RPort) : (s.modRPort p g).svc.regs = s.svc.regs := rfl

theorem crossRing_out (f : RingFrame) : (s.crossRing p f).1.out = s.out := rfl

theorem crossRing_regs (f : RingFrame) : (s.crossRing p f).1.svc.regs = s.svc.regs := rfl

theorem modRPort_congr {g h : RPort → RPort} (e : g (s.svc.ring.port p) = h (s.svc.ring.port p)) : s.modRPort p g = s.modRPort p h := by
  simp only [State.modRPort, State.modRing, State.modSvc, e]

/-- A frame for a transmitter that is idle begins, and nothing else differs (R392). -/
theorem transmit_begins (h : (s.svc.ring.port p).sending = none) (hdr : W32) (words : List W32) (own : Bool) :
    portBegins s (s.transmit p { hdr := hdr, words := words, own := own }) p hdr words own := transmit_of_idle h _

/-- A delay request goes out at once, with its `SEQ` and T1 noted (R396). -/
theorem pdreqSend_begins (h : s.portUp p = true) (hi : (s.svc.ring.port p).sending = none) (ht : ∀ y ∈ (s.svc.ring.port p).pdAt, y + 2 ^ 18 ≤ s.now) :
    let seq := ((s.svc.ring.port p).pdSeq + 1) % 65536
    let bs := le 2 seq ++ le 1 s.modid ++ le 1 (portCode p)
    gives (.pdreqSend p) s fun u =>
      portBegins (s.modRPort p fun x => { x with pdSeq := seq, t1 := some (s.svc.count.toNat * 128 % 2 ^ 64), pdAt := some s.now }) u p
        (rgHeader 1 s.modid 0 (decide (p = .W)) false ((bs.length + 3) / 4)) (ringWords bs) true := by
  have hwait : (s.svc.ring.port p).pdAt.any (fun a => decide (s.now < a + 2 ^ 18)) = false := by
    rw [Option.any_eq_false_iff_get]
    exact fun hs => decide_eq_false (Nat.not_lt.2 (ht _ (Option.get_mem hs)))
  have hrun : ¬ (s.portUp p = false ∨ (s.svc.ring.port p).sending.any (fun q => decide (s.now < q.2)) = true ∨
      (s.svc.ring.port p).pdAt.any (fun a => decide (s.now < a + 2 ^ 18)) = true) := by
    rw [h, hi, hwait]
    simp
  refine ⟨_, congrArg Host.Outcome.next (if_neg hrun), transmit_begins ?_ _ _ _⟩
  exact (congrArg RPort.sending (port_setPort_same _ _ _)).trans hi

theorem pdreqSend_of_waits (h : s.portUp p = false ∨ (s.svc.ring.port p).sending.any (fun q => decide (s.now < q.2)) = true ∨
    (s.svc.ring.port p).pdAt.any (fun a => decide (s.now < a + 2 ^ 18)) = true) : exec (.pdreqSend p) s = .next s :=
  congrArg Host.Outcome.next (if_pos h)

/-- The first seven delay samples add up, and the port has no delay yet (R396). -/
theorem delaySample_first (h : (s.svc.ring.port p).samples < 7) (d : Int) :
    s.delaySample p d = s.modRPort p fun x => { x with samples := x.samples + 1, sum := x.sum + d, delay := 0 } := by
  unfold State.delaySample
  rw [if_pos (by omega)]
  exact modRPort_congr (by rw [if_neg (by omega)])

/-- A response to the request under way gives a delay sample (R396). -/
theorem pdrespRx_first (hg : s.portUp p = true ∧ ringGood f = true ∧ (s.crossRing p f).2 = true ∧ rgWrapped f.hdr = false) (ht : rgType f.hdr = 2)
    (a : W64) (t1 : Nat) :
    let x := s.svc.ring.port p
    let w := fun ofs n => ofLe (((ringBytes f.words).drop ofs).take n)
    x.t1 = some t1 → w 0 2 = x.pdSeq → s.peerOk p (w 2 1) = true → x.samples < 7 → gives (.pdrespRx p f a) s fun u =>
      u.svc.ring.port p = { x with t1 := none, samples := x.samples + 1, delay := 0
                                   sum := x.sum + (toInt 64 (ofInt 64 ((a.toNat : Int) - t1)) - toInt 64 (ofInt 64 ((w 16 8 : Int) - w 8 8))) * 256 } ∧
        u.srd (portDelayFld p) = 0 ∧ svcRegsKept s u [portDelayFld p] ∧ onlySvc s u ∧ u.out = s.out := by
  intro x w h1 hseq hpeer hs
  let z := (s.crossRing p f).1
  let v := z.modRPort p fun x => { x with t1 := none }
  let d := (toInt 64 (ofInt 64 ((a.toNat : Int) - t1)) - toInt 64 (ofInt 64 ((w 16 8 : Int) - w 8 8))) * 256
  have hport : v.svc.ring.port p = { x with t1 := none } := port_setPort_same _ _ _
  have hd := delaySample_first (s := v) (p := p) (by rw [hport]; exact hs) d
  have hport' : (v.delaySample p d).svc.ring.port p = { x with t1 := none, samples := x.samples + 1, sum := x.sum + d, delay := 0 } := by
    rw [hd]
    exact (port_setPort_same _ _ _).trans (by rw [hport])
  have hrun : exec (.pdrespRx p f a) s =
      .next ((v.delaySample p d).swr (portDelayFld p) (ofInt 24 (fineToOfs ((v.delaySample p d).svc.ring.port p).delay))) := by
    refine congrArg Host.Outcome.next ((ringRx_of_good hg ht _).trans ?_)
    have hz1 : (z.svc.ring.port p).t1 = some t1 := h1
    simp only [show ((s.crossRing p f).1.svc.ring.port p).t1 = some t1 from h1]
    exact (if_neg fun hne => hne hseq).trans (if_neg (by rw [show z.peerOk p _ = true from hpeer]; decide))
  refine ⟨_, hrun, hport', ?_, ?_, ?_, ?_⟩
  · rw [srd_swr_same, hport']
    exact (congrArg (· % 2 ^ (portDelayFld p).w) (show ofInt 24 (fineToOfs 0) = 0 by decide)).trans (Nat.zero_mod _)
  · refine svcRegsKept_trans (svcRegsKept_of_eq ?_) (swr_svcRegsKept _)
    rw [hd, modRPort_regs, modRPort_regs, crossRing_regs]
  · exact onlySvc_trans (onlySvc_trans (crossRing_onlySvc f) (modRPort_onlySvc _)) (onlySvc_trans (hd ▸ modRPort_onlySvc _) (swr_onlySvc _ _))
  · rw [swr_out, hd, modRPort_out, modRPort_out, crossRing_out]

theorem pdrespRx_of_idle (hg : s.portUp p = true ∧ ringGood f = true ∧ (s.crossRing p f).2 = true ∧ rgWrapped f.hdr = false) (ht : rgType f.hdr = 2)
    (a : W64) (h : (s.svc.ring.port p).t1 = none) : exec (.pdrespRx p f a) s = .next (s.crossRing p f).1 := by
  refine congrArg Host.Outcome.next ((ringRx_of_good hg ht _).trans ?_)
  simp only [show ((s.crossRing p f).1.svc.ring.port p).t1 = none from h]

theorem pdrespRx_of_otherSeq (hg : s.portUp p = true ∧ ringGood f = true ∧ (s.crossRing p f).2 = true ∧ rgWrapped f.hdr = false)
    (ht : rgType f.hdr = 2) (a : W64) {t1 : Nat} (h : (s.svc.ring.port p).t1 = some t1)
    (hs : ofLe (((ringBytes f.words).drop 0).take 2) ≠ (s.svc.ring.port p).pdSeq) : exec (.pdrespRx p f a) s = .next (s.crossRing p f).1 := by
  refine congrArg Host.Outcome.next ((ringRx_of_good hg ht _).trans ?_)
  simp only [show ((s.crossRing p f).1.svc.ring.port p).t1 = some t1 from h]
  exact if_pos hs

/-! ### Ring holdover (R404) -/

theorem ringHoldover_enters (h : s.isHead = false ∧ s.svc.ring.open_ = true ∧ s.srd F.TB_STAT_RHOLD = 0)
    (ht : s.svc.ring.syncAt.getD 0 + 2 ^ 20 ≤ s.now) (hown : s.owner = some o) : gives .ringHoldover s fun u =>
      u.srd F.TB_STAT_RHOLD = 1 ∧ raised s u o 0x070E (le 1 0) ∧ svcRegsOnly s u [F.TB_STAT_RHOLD] ∧ u.out = s.out := by
  obtain ⟨hh, hopen, hr⟩ := h
  refine ⟨_, congrArg Host.Outcome.next (if_pos ⟨hh, hopen, hr, ht⟩), ?_, ?_, ?_, ?_⟩
  · exact (srd_raiseSvc _ _ _ _).trans (srd_swr_same _ _ _ _)
  · exact raiseSvc_raised hown (officesNoticed_of_eq rfl o)
  · exact svcRegsOnly_trans (swr_svcRegsOnly 1) (raiseSvc_svcRegsOnly _ _)
  · exact raiseSvc_out _ _

theorem ringHoldover_of_heard (h : ¬ (s.isHead = false ∧ s.svc.ring.open_ = true ∧ s.srd F.TB_STAT_RHOLD = 0) ∨ s.now < s.svc.ring.syncAt.getD 0 + 2 ^ 20) :
    exec .ringHoldover s = .next s := by
  refine congrArg Host.Outcome.next (if_neg fun ⟨hh, hopen, hr, ht⟩ => ?_)
  obtain h | h := h
  · exact h ⟨hh, hopen, hr⟩
  · omega

end Sys2Proof.Machine
end

section
/-! SUPPORT. SYNC frames: passed on by the head and the members, and followed by the members (09 R394, R399 to R404). -/

namespace Sys2Proof.Machine

variable {s u w : State} {p q : RingPort} {f : RingFrame}

/-! ### Passing a frame on (R394) -/

/-- The type that a header was given. -/
theorem rgType_rgHeader (type origin hops : Nat) (west wrapped : Bool) (len : Nat) : rgType (rgHeader type origin hops west wrapped len) = type % 16 := by
  have hb : ∀ b : Bool, b2n b ≤ 1 := by decide
  have h1 := hb west
  have h2 := hb wrapped
  simp only [rgType, rgHeader, bitsOf, BitVec.toNat_ofNat]
  omega

namespace sendsAt

variable (h : sendsAt s u q)
include h

theorem isHead : u.isHead = s.isHead := by
  obtain ⟨y, out, -, rfl⟩ := h
  rfl

theorem linkDelay (west : Bool) : u.linkDelay p west = s.linkDelay p west := by
  have hd := h.port_field (p := p) RPort.delay fun _ _ _ _ => rfl
  have ha : u.asymmetry p = s.asymmetry p := by
    obtain ⟨y, out, -, rfl⟩ := h
    rfl
  rw [State.linkDelay, State.linkDelay, hd, ha]

theorem syncOffset (f : RingFrame) (fine : Nat) : u.syncOffset p f fine = s.syncOffset p f fine := by
  unfold State.syncOffset
  rw [h.linkDelay, h.svc]

end sendsAt

theorem forward_sendsAt (words : List W32) : ∃ q, sendsAt s (s.forward p f words) q := by
  unfold State.forward
  split
  · exact ⟨p, sendsAt_refl _ _⟩
  · obtain ⟨q, -, hq⟩ := ringSend_sendsAt (s := s) (otherPort p) (rgType f.hdr) (rgOrigin f.hdr) (rgHops f.hdr + 1) (rgWest f.hdr) (rgWrapped f.hdr)
      false words
    exact ⟨q, hq⟩

/-- A frame of another module, short of 511 hops, goes on by the other port with one hop more (R394). -/
theorem forward_of_up (ho : rgOrigin f.hdr ≠ s.modid) (hh : rgHops f.hdr < 510) (hu : s.portUp (otherPort p) = true) (hw : rgWrapped f.hdr = false)
    (words : List W32) : s.forward p f words = s.transmit (otherPort p)
      { hdr := rgHeader (rgType f.hdr) (rgOrigin f.hdr) (rgHops f.hdr + 1) (rgWest f.hdr) false words.length, words := words, own := false } := by
  have hgo : ¬ (rgOrigin f.hdr = s.modid ∨ 510 ≤ rgHops f.hdr) := by simp [ho, hh]
  exact (if_neg hgo).trans (hw ▸ ringSend_of_up hu _ _ _ _ _ _ _)

theorem forward_of_far (hh : 510 ≤ rgHops f.hdr) (words : List W32) : s.forward p f words = s := if_pos (.inr hh)

/-! ### What following a SYNC frame leaves (R381, R382, R400 to R402) -/

/-- The moment of the last SYNC frame, what port `p` measures, ring holdover and the tiles are as they were. -/
def syncKept (p : RingPort) (s u : State) : Prop :=
  u.svc.ring.syncAt = s.svc.ring.syncAt ∧ (u.svc.ring.port p).ofs = (s.svc.ring.port p).ofs ∧ (u.svc.ring.port p).hops = (s.svc.ring.port p).hops ∧
    u.srd F.TB_STAT_RHOLD = s.srd F.TB_STAT_RHOLD ∧ u.srd (portOfsFld p) = s.srd (portOfsFld p) ∧ u.tiles = s.tiles

theorem syncKept_refl (s : State) : syncKept p s s := ⟨rfl, rfl, rfl, rfl, rfl, rfl⟩

theorem syncKept_trans (h : syncKept p s u) (k : syncKept p u w) : syncKept p s w := by
  obtain ⟨h1, h2, h3, h4, h5, h6⟩ := h
  obtain ⟨k1, k2, k3, k4, k5, k6⟩ := k
  exact ⟨k1.trans h1, k2.trans h2, k3.trans h3, k4.trans h4, k5.trans h5, k6.trans h6⟩

theorem swr_syncKept (f : Fld) (v : Nat) (hr : F.TB_STAT_RHOLD.key 0 0 ≠ f.key 0 0) (ho : (portOfsFld p).key 0 0 ≠ f.key 0 0) :
    syncKept p s (s.swr f v) :=
  ⟨rfl, rfl, rfl, srd_swr_other v hr, srd_swr_other v ho, rfl⟩

theorem raiseSvc_syncKept (c : Nat) (b : List Byte) : syncKept p s (s.raiseSvc c b) := by
  refine ⟨?_, ?_, ?_, srd_raiseSvc _ _ _ _, srd_raiseSvc _ _ _ _, raiseSvc_tiles _ _⟩ <;> rw [raiseSvc_svc]

theorem modRing_syncKept (g : Ring → Ring) (h : (g s.svc.ring).syncAt = s.svc.ring.syncAt)
    (ho : ((g s.svc.ring).port p).ofs = (s.svc.ring.port p).ofs) (hh : ((g s.svc.ring).port p).hops = (s.svc.ring.port p).hops) :
    syncKept p s (s.modRing g) := ⟨h, ho, hh, rfl, rfl, rfl⟩

theorem ofsKey_ne (p : RingPort) {f : Fld} (hw : F.RING_OFS_W_OFS.key 0 0 ≠ f.key 0 0) (he : F.RING_OFS_E_OFS.key 0 0 ≠ f.key 0 0) :
    (portOfsFld p).key 0 0 ≠ f.key 0 0 := by
  cases p
  · exact he
  · exact hw

theorem chooseTiming_syncKept : syncKept p s s.chooseTiming := by
  have htimed : ∀ t, syncKept p s (s.modRing fun r => { r with timed := t }) := fun t => by
    refine modRing_syncKept _ rfl ?_ ?_ <;> rw [modRing_timed_port]
  unfold State.chooseTiming
  extract_lets held pick
  split
  · exact syncKept_refl s
  · clear_value pick
    cases pick with
    | some q => exact syncKept_trans (htimed true) (swr_syncKept _ _ (by decide) (ofsKey_ne p (by decide) (by decide)))
    | none => exact htimed false

theorem checkDisagree_syncKept : syncKept p s s.checkDisagree := by
  unfold State.checkDisagree
  extract_lets w e far
  split
  · refine syncKept_trans (modRing_syncKept _ rfl ?_ ?_) (raiseSvc_syncKept _ _) <;> cases p <;> rfl
  · exact syncKept_refl s

theorem movePhase_syncKept (ofs : Int) : syncKept p s (s.movePhase ofs) := swr_syncKept _ _ (by decide) (ofsKey_ne p (by decide) (by decide))

theorem loadAgain_syncKept : syncKept p s s.loadAgain := by
  refine modRing_syncKept _ rfl ?_ ?_ <;> cases p <;> rfl

theorem loadCount_syncKept (f : RingFrame) (ofs : Int) : syncKept p s (s.loadCount f ofs) := by
  unfold State.loadCount
  extract_lets c inc
  refine syncKept_trans (u := s.modSvc fun d => { d with count := c }) ⟨rfl, rfl, rfl, rfl, rfl, rfl⟩ (modRing_syncKept _ rfl ?_ ?_) <;> cases p <;> rfl

theorem approach_syncKept (f : RingFrame) (ofs : Int) : syncKept p s (s.approach f ofs) := by
  unfold State.approach
  split
  · exact loadCount_syncKept f ofs
  · refine syncKept_trans (movePhase_syncKept _) (modRing_syncKept _ rfl ?_ ?_) <;> cases p <;> rfl

theorem countDiffers_syncKept (ofs : Int) : syncKept p s (s.countDiffers ofs) := by
  unfold State.countDiffers
  split
  · exact loadAgain_syncKept
  · split
    · exact syncKept_refl s
    · refine syncKept_trans (syncKept_trans (swr_syncKept _ _ ?_ ?_) (swr_syncKept _ _ ?_ ?_)) (raiseSvc_syncKept _ _)
      · decide
      · exact ofsKey_ne p (by decide) (by decide)
      · decide
      · exact ofsKey_ne p (by decide) (by decide)

theorem takeQuality_syncKept (f : RingFrame) : syncKept p s (s.takeQuality f) := by
  unfold State.takeQuality
  extract_lets head q v
  have hv : syncKept p s v := by
    refine modRing_syncKept _ rfl ?_ ?_ <;> cases p <;> rfl
  refine syncKept_trans hv (syncKept_trans (swr_syncKept _ _ ?_ ?_) (swr_syncKept _ _ ?_ ?_))
  · decide
  · exact ofsKey_ne p (by decide) (by decide)
  · decide
  · exact ofsKey_ne p (by decide) (by decide)

/-! ### What a member takes of a SYNC frame (R399, R404) -/

/-- A SYNC frame ends ring holdover, and the ports stay (R404). -/
theorem leaveRhold_spec : s.leaveRhold.svc.ring = { s.svc.ring with syncAt := some s.now } ∧
    (s.srd F.TB_STAT_RHOLD ≤ 1 → s.leaveRhold.srd F.TB_STAT_RHOLD = 0) ∧ s.leaveRhold.tiles = s.tiles := by
  unfold State.leaveRhold
  extract_lets v
  have hv : v.srd F.TB_STAT_RHOLD = s.srd F.TB_STAT_RHOLD := rfl
  split
  · refine ⟨?_, fun _ => (srd_raiseSvc _ _ _ _).trans (srd_swr_same _ _ _ _), raiseSvc_tiles _ _⟩
    rw [raiseSvc_svc]
    rfl
  next h =>
    rw [hv] at h
    exact ⟨rfl, fun h1 => hv.trans (by omega), rfl⟩

/-- The offset that a SYNC frame gives at port `p` leaves all but that port's measure (R399). -/
theorem takeOffset_rest (f : RingFrame) (ofs : Int) : (s.takeOffset p f ofs).svc.ring.syncAt = s.svc.ring.syncAt ∧
    (s.takeOffset p f ofs).srd F.TB_STAT_RHOLD = s.srd F.TB_STAT_RHOLD ∧ (s.takeOffset p f ofs).tiles = s.tiles := by
  unfold State.takeOffset
  extract_lets tick hops x v
  split
  · exact ⟨rfl, rfl, rfl⟩
  · refine ⟨setPort_syncAt _ _ _, (srd_swr_other _ ?_).trans (srd_swr_other _ ?_), rfl⟩ <;> cases p <;> decide

/-- The first copy of a SYNC frame gives its port's offset and hops (R399). -/
theorem takeOffset_first (ofs : Int) (h : (s.svc.ring.port p).syncTick ≠ some (ofLe ((ringBytes f.words).take 8))) :
    ((s.takeOffset p f ofs).svc.ring.port p).ofs = ofs ∧ ((s.takeOffset p f ofs).svc.ring.port p).hops = rgHops f.hdr + 1 ∧
      (s.takeOffset p f ofs).srd (portOfsFld p) = ofInt 32 (satI 32 ofs) % 2 ^ 32 := by
  have hw : (portOfsFld p).w = 32 := by cases p <;> rfl
  unfold State.takeOffset
  extract_lets tick hops x v
  rw [if_neg fun hx => h hx.1]
  refine ⟨congrArg RPort.ofs (port_setPort_same _ _ _), congrArg RPort.hops (port_setPort_same _ _ _), ?_⟩
  rw [srd_swr_same, hw]

/-- What a member's module holds after a SYNC frame at port `p` (R399, R404). -/
theorem followSync_spec (fine : Nat) : (s.followSync p f fine).svc.ring.syncAt = some s.now ∧
    (s.srd F.TB_STAT_RHOLD ≤ 1 → (s.followSync p f fine).srd F.TB_STAT_RHOLD = 0) ∧ (s.followSync p f fine).tiles = s.tiles ∧
    ((s.svc.ring.port p).syncTick ≠ some (ofLe ((ringBytes f.words).take 8)) →
      ((s.followSync p f fine).svc.ring.port p).ofs = s.syncOffset p f fine ∧
      ((s.followSync p f fine).svc.ring.port p).hops = rgHops f.hdr + 1 ∧
      (s.followSync p f fine).srd (portOfsFld p) = ofInt 32 (satI 32 (s.syncOffset p f fine)) % 2 ^ 32) := by
  let ofs := s.syncOffset p f fine
  let v := s.leaveRhold.takeOffset p f ofs
  have hrest : syncKept p v (s.followSync p f fine) := by
    have hofs : syncKept p v ((v.chooseTiming.checkDisagree).swr F.RING_OFS_OFS (ofInt 32 (satI 32 v.chooseTiming.checkDisagree.combinedOfs))) :=
      syncKept_trans (syncKept_trans chooseTiming_syncKept checkDisagree_syncKept) (swr_syncKept _ _ (by decide) (ofsKey_ne p (by decide) (by decide)))
    refine syncKept_trans hofs ?_
    unfold State.followSync
    extract_lets _ a
    split
    · split
      · exact approach_syncKept f _
      · exact syncKept_refl _
    · split
      · split
        · exact loadAgain_syncKept
        · exact syncKept_refl _
      · split
        · exact countDiffers_syncKept _
        · split
          · exact syncKept_trans (movePhase_syncKept _) (takeQuality_syncKept f)
          · exact syncKept_refl _
  obtain ⟨r1, r2, r3, r4, r5, r6⟩ := hrest
  obtain ⟨l1, l2, l3⟩ := leaveRhold_spec (s := s)
  obtain ⟨t1, t2, t3⟩ := takeOffset_rest (s := s.leaveRhold) (p := p) f ofs
  refine ⟨r1.trans (t1.trans (by rw [l1])), fun h => r4.trans (t2.trans (l2 h)), r6.trans (t3.trans l3), fun h => ?_⟩
  have hport : s.leaveRhold.svc.ring.port p = s.svc.ring.port p := by rw [l1]; cases p <;> rfl
  obtain ⟨o1, o2, o3⟩ := takeOffset_first (s := s.leaveRhold) (p := p) ofs (by rw [hport]; exact h)
  exact ⟨r2.trans o1, r3.trans o2, r5.trans o3⟩

end Sys2Proof.Machine
end

section
/-! SUPPORT. SYNC_FRAME_RX (09 R394, R395, R399, R404), and the ring ports' obligation. -/

namespace Sys2Proof.Machine

variable {s : State} {p : RingPort} {f : RingFrame} {fine : BitVec 7} {res : BitVec 6}

/-- A frame is taken: its port is UP, it is good and all of it has come through, and it was not turned back (R23, R393, R402). -/
def frameTaken (s : State) (p : RingPort) (f : RingFrame) : Prop :=
  s.portUp p = true ∧ ringGood f = true ∧ (s.crossRing p f).2 = true ∧ rgWrapped f.hdr = false

/-- The payload of a SYNC frame as it goes on: the link delay and the residence are added to `CORR` (R394, R398). -/
def State.syncWords (s : State) (p : RingPort) (f : RingFrame) (fine : BitVec 7) (res : BitVec 6) : List W32 :=
  let b := ringBytes f.words
  let add : Int := s.linkDelay p (rgWest f.hdr) + ((res.toNat : Int) * 65536 - fine.toNat * 512)
  ringWords (b.take 8 ++ le 8 (ofInt 64 (toInt 64 (ofLe ((b.drop 8).take 8)) + add)) ++ b.drop 16)

/-- A SYNC frame of this module, or on a port that has no delay yet, is nothing (R394, R396). -/
theorem syncFrameRx_of_ignored (h : frameTaken s p f) (ht : rgType f.hdr = 0) (hi : rgOrigin f.hdr = s.modid ∨ (s.svc.ring.port p).samples < 8) :
    exec (.syncFrameRx p f fine res) s = .next (s.crossRing p f).1 :=
  congrArg Host.Outcome.next ((ringRx_of_good h ht _).trans (if_pos hi))

/-- Any other goes on, and a member follows it (R394, R399). -/
theorem syncFrameRx_of_other (h : frameTaken s p f) (ht : rgType f.hdr = 0) (ho : rgOrigin f.hdr ≠ s.modid) (h8 : 8 ≤ (s.svc.ring.port p).samples) :
    ∃ q v, v = (s.crossRing p f).1.forward p f (s.syncWords p f fine res) ∧ sendsAt (s.crossRing p f).1 v q ∧
      exec (.syncFrameRx p f fine res) s = .next (if s.isHead = true then v else v.followSync p f fine.toNat) := by
  have hgo : ¬ (rgOrigin f.hdr = s.modid ∨ (s.svc.ring.port p).samples < 8) := by simp [ho, h8]
  obtain ⟨q, hq⟩ := forward_sendsAt (s := (s.crossRing p f).1) (p := p) (f := f) (s.syncWords p f fine res)
  have hh : ((s.crossRing p f).1.forward p f (s.syncWords p f fine res)).isHead = s.isHead := hq.isHead
  refine ⟨q, _, rfl, hq, congrArg Host.Outcome.next ((ringRx_of_good h ht _).trans ((if_neg hgo).trans ?_))⟩
  rw [← hh]
  rfl

/-- The head only passes a SYNC frame on, and keeps one that has made 510 hops (R394, R395). -/
theorem syncFrameRx_of_head (h : frameTaken s p f) (ht : rgType f.hdr = 0) (ho : rgOrigin f.hdr ≠ s.modid) (h8 : 8 ≤ (s.svc.ring.port p).samples)
    (hh : s.isHead = true) :
    let z := (s.crossRing p f).1
    let y := s.svc.ring.port (otherPort p)
    let words := s.syncWords p f fine res
    let onward := rgHeader (rgType f.hdr) (rgOrigin f.hdr) (rgHops f.hdr + 1) (rgWest f.hdr) false words.length
    (rgHops f.hdr < 510 → s.portUp (otherPort p) = true →
      (y.sending = none → gives (.syncFrameRx p f fine res) s fun u => portBegins z u (otherPort p) onward words false) ∧
      (∀ q, y.sending = some q → s.now < q.2 → rgType q.1.hdr ≠ 0 → y.parked = none → gives (.syncFrameRx p f fine res) s fun u =>
        portBegins (z.modRPort (otherPort p) fun x => { x with parked := some (q.1, q.2 - s.now) }) u (otherPort p) onward words false)) ∧
    (510 ≤ rgHops f.hdr → exec (.syncFrameRx p f fine res) s = .next z) := by
  intro z y words onward
  obtain ⟨-, v, hv, -, hrun⟩ := syncFrameRx_of_other (fine := fine) (res := res) h ht ho h8
  rw [if_pos hh] at hrun
  obtain ⟨-, -, -, hw⟩ := h
  refine ⟨fun hlt hu => ?_, fun hge => ?_⟩
  · have hon : v = z.transmit (otherPort p) { hdr := onward, words := words, own := false } := hv.trans (forward_of_up (s := z) ho hlt hu hw _)
    have hsync : rgType onward = 0 := (rgType_rgHeader _ _ _ _ _ _).trans (by rw [ht])
    exact ⟨fun hi => ⟨v, hrun, hon.trans (transmit_of_idle (s := z) hi _)⟩,
      fun q hq hn hk hp => ⟨v, hrun, hon.trans (transmit_of_sync (s := z) hq hn hk hp hsync)⟩⟩
  · exact hrun.trans (congrArg Host.Outcome.next (hv.trans (forward_of_far hge _)))

/-- A member follows a SYNC frame (R399, R404). -/
theorem syncFrameRx_of_member (h : frameTaken s p f) (ht : rgType f.hdr = 0) (ho : rgOrigin f.hdr ≠ s.modid) (h8 : 8 ≤ (s.svc.ring.port p).samples)
    (hh : s.isHead = false) : gives (.syncFrameRx p f fine res) s fun u =>
      u.svc.ring.syncAt = some s.now ∧ (s.srd F.TB_STAT_RHOLD ≤ 1 → u.srd F.TB_STAT_RHOLD = 0) ∧ u.tiles = s.tiles ∧ kept s u ∧
        ((s.svc.ring.port p).syncTick ≠ some (ofLe (((ringBytes f.words).drop 0).take 8)) →
          (u.svc.ring.port p).ofs = s.syncOffset p f fine.toNat ∧ (u.svc.ring.port p).hops = rgHops f.hdr + 1 ∧
          u.srd (portOfsFld p) = ofInt 32 (satI 32 (s.syncOffset p f fine.toNat)) % 2 ^ 32) := by
  obtain ⟨q, v, -, hv, hrun⟩ := syncFrameRx_of_other (fine := fine) (res := res) h ht ho h8
  rw [if_neg (by simp [hh])] at hrun
  obtain ⟨u, hu, hheld⟩ := exec_completes s (.syncFrameRx p f fine res) nofun
  obtain rfl : u = v.followSync p f fine.toNat := Host.Outcome.next.inj (hu.symm.trans hrun)
  have hofs : v.syncOffset p f fine.toNat = s.syncOffset p f fine.toNat := hv.syncOffset f _
  have hrh : v.srd F.TB_STAT_RHOLD = s.srd F.TB_STAT_RHOLD := hv.srd _ _ _
  have htick : (v.svc.ring.port p).syncTick = (s.svc.ring.port p).syncTick := hv.port_field RPort.syncTick fun _ _ _ _ => rfl
  obtain ⟨h1, h2, h3, h4⟩ := followSync_spec (s := v) (p := p) (f := f) fine.toNat
  rw [hofs, htick] at h4
  exact ⟨_, hrun, h1.trans (congrArg some hv.now), hrh ▸ h2, h3.trans hv.tiles, (kept_iff_held s _).2 hheld, h4⟩

/-- Settles O50: every clause is a rule of its command above, read in the states that the obligation names. -/
theorem ringPortsAndDelays : Obligations.RingPortsAndDelays := by
  intro s o p f fine res a b peer v t1 r x st bytes w z came good bad moved seq hdr y onward rhold
  have hbad : ∀ type act, s.portUp p = true → (ringGood f = false ∨ ¬ came) → bad (s.ringRx p type f act) := fun type act hu hf => by
    rw [ringRx_of_bad hu hf]
    exact countUp_of_badFrame z rfl rfl _
  have hdown : ∀ type act, s.portUp p = false → (.next (s.ringRx p type f act) : Out) = .next s :=
    fun type act hd => congrArg Host.Outcome.next (ringRx_of_down hd type act)
  have hother : ∀ type act, s.portUp p = true → ringGood f = true → came → rgType f.hdr ≠ type → (.next (s.ringRx p type f act) : Out) = .next z :=
    fun type act hu hf hc ht => congrArg Host.Outcome.next (ringRx_of_otherType hu hf hc ht act)
  refine ⟨fun hd => ⟨hdown 0 _ hd, hdown 1 _ hd, hdown 2 _ hd, pdreqSend_of_waits (.inl hd), congrArg Host.Outcome.next (if_neg (by simp [hd]))⟩,
    fun hu hf => ⟨⟨_, rfl, hbad _ _ hu hf⟩, ⟨_, rfl, hbad _ _ hu hf⟩, ⟨_, rfl, hbad _ _ hu hf⟩⟩,
    fun hu hf hc => ⟨hother 0 _ hu hf hc, hother 1 _ hu hf hc, hother 2 _ hu hf hc⟩,
    pdreqSend_begins, fun h => pdreqSend_of_waits (.inr (.inl h)), fun h => pdreqSend_of_waits (.inr (.inr h)),
    fun hg ht hi => ⟨_, congrArg Host.Outcome.next (ringRx_of_good hg ht _), transmit_begins (s := z) hi _ _ _⟩,
    fun hg ht => ⟨pdrespRx_of_idle hg ht a, pdrespRx_of_otherSeq hg ht a, pdrespRx_first hg ht a t1⟩,
    ringPortTrainingPass_of_closed, ringPortTrainingPass_up,
    fun ho hs hp => ⟨_, ringPortTrainingPass_of_rejected ho hs hp, peerRejected_moved p peer.isLt⟩,
    fun ho => ⟨congrArg Host.Outcome.next (if_pos ho), congrArg Host.Outcome.next (if_pos ho),
      congrArg Host.Outcome.next (if_neg fun h => Bool.noConfusion (ho.symm.trans h.1))⟩,
    ringPortOpen_timeout, ringPortOpen_rejected, ringPortErrors_up, ringPortRetry_open,
    fun hs => congrArg Host.Outcome.next (if_neg fun h => hs h.2.1), fun hw ho h8 => ?_, ringHoldover_enters, ringHoldover_of_heard, fun hg ht => ?_⟩
  · obtain ⟨he, hw'⟩ := retrain_moved hw ho h8
    exact ⟨fun h31 h30 => ⟨_, rfl, he h31 h30⟩, fun h30 h31 => ⟨_, rfl, hw' h30 h31⟩⟩
  · refine ⟨syncFrameRx_of_ignored hg ht, fun ho h8 => ⟨fun hh => ?_, fun hh => ?_, syncFrameRx_of_member hg ht ho h8⟩⟩
    · exact (syncFrameRx_of_head hg ht ho h8 hh).1
    · exact (syncFrameRx_of_head hg ht ho h8 hh).2

end Sys2Proof.Machine
end

section
/-! SUPPORT. What the operations on a pigeonhole change: its own part of the office, registers, the account of notices and what is sent
(11 R445 to R464). -/

namespace Sys2Proof.Machine

variable {s u v : State} {o : OfficeId} {p q : Nat} {g : Ph → Ph} {ks : List Nat}

/-! ### Registers that stay -/

/-- A register of an office that the work at pigeonhole `p` leaves: none of its state and held buffers, of the account of notices, or of the
pending bits of the vectors. -/
def calmField (p : Nat) (f : Fld) (i : Nat) : Prop :=
  f.svc = false ∧ f.key i 0 ∉ noticeKeys ∧ f.key i 0 ≠ F.PH_STAT_HELD.key p 0 ∧ f.key i 0 ≠ F.PH_STAT_STATE.key p 0 ∧
    ∀ k, f.key i 0 ≠ F.MSIX_PBA_P.key k 0

/-- The pigeonhole registers that deliveries read and write, beside the state and the held buffers. -/
def deliveryFields : List Fld :=
  [F.PH_RPROD_INDEX, F.PH_CNT_MAILBAG_COUNT, F.PH_CNT_UNDELIV_COUNT, F.PH_CFG_RR_LOG2, F.PH_RR_BASE_LO_BASE_L, F.PH_RR_BASE_HI_BASE_H]

theorem key_held (p : Nat) : F.PH_STAT_HELD.key p 0 = 234881024 + p * 2048 + 920 := by simp [Fld.key, Fld.addr, F.PH_STAT_HELD, mkA]; omega

theorem key_state (p : Nat) : F.PH_STAT_STATE.key p 0 = 234881024 + p * 2048 + 926 := by simp [Fld.key, Fld.addr, F.PH_STAT_STATE, mkA]; omega

theorem key_pending (k : Nat) : F.MSIX_PBA_P.key k 0 = 471859200 + k * 128 := by simp [Fld.key, Fld.addr, F.MSIX_PBA_P, mkA]; omega

theorem notMem_noticeKeys {k : Nat} : k ∉ noticeKeys ↔ k ≠ 402677760 ∧ k ≠ 243269888 ∧ k ≠ 243270144 := by
  simp [noticeKeys, Fld.key, Fld.addr, F.ERR_LOG_HEAD_NSEQ, F.PH_NOTICE_STAT_HELD, F.PH_CNT_NOTICELOST_COUNT, mkF]

/-- A delivery register's place among those of its pigeonhole, which are 2,048 bits. -/
theorem key_of_delivery (p : Nat) : ∀ f ∈ deliveryFields, f.svc = false ∧ ∃ n < 1536, n ≠ 920 ∧ n ≠ 926 ∧ f.key p 0 = 234881024 + p * 2048 + n := by
  intro f hf
  simp only [deliveryFields, List.mem_cons, List.not_mem_nil, or_false] at hf
  obtain rfl | rfl | rfl | rfl | rfl | rfl := hf
  · exact ⟨rfl, 1152, by simp [Fld.key, Fld.addr, F.PH_RPROD_INDEX, mkA]; omega⟩
  · exact ⟨rfl, 1280, by simp [Fld.key, Fld.addr, F.PH_CNT_MAILBAG_COUNT, mkA]; omega⟩
  · exact ⟨rfl, 1408, by simp [Fld.key, Fld.addr, F.PH_CNT_UNDELIV_COUNT, mkA]; omega⟩
  · exact ⟨rfl, 528, by simp [Fld.key, Fld.addr, F.PH_CFG_RR_LOG2, mkA]; omega⟩
  · exact ⟨rfl, 256, by simp [Fld.key, Fld.addr, F.PH_RR_BASE_LO_BASE_L, mkA]; omega⟩
  · exact ⟨rfl, 384, by simp [Fld.key, Fld.addr, F.PH_RR_BASE_HI_BASE_H, mkA]; omega⟩

theorem calmField_of_delivery (hp : p < 4096) : ∀ f ∈ deliveryFields, calmField p f p := by
  intro f hf
  obtain ⟨hs, n, h1, h2, h3, hk⟩ := key_of_delivery p f hf
  refine ⟨hs, notMem_noticeKeys.2 ?_, ?_, ?_, fun k => ?_⟩
  · omega
  · rw [hk, key_held]; omega
  · rw [hk, key_state]; omega
  · rw [hk, key_pending]; omega

/-- A register of another unit, below those of the pigeonholes, stays too. -/
theorem calmField_of_lower {f : Fld} (hs : f.svc = false) (hk : f.key 0 0 < 234881024) : calmField p f 0 := by
  refine ⟨hs, notMem_noticeKeys.2 ?_, ?_, ?_, fun k => ?_⟩
  · omega
  · rw [key_held]; omega
  · rw [key_state]; omega
  · rw [key_pending]; omega

/-! ### What the work at a pigeonhole leaves -/

/-- The work at pigeonhole `p` of office `o`: nothing else differs but registers, notices, events and what is sent, which only grows. -/
def phGrows (s u : State) (o : OfficeId) (p : Nat) : Prop :=
  onlyPh s u o p ∧ (u.off o).mps = (s.off o).mps ∧ ∃ l, u.out = l ++ s.out

/-- The calm registers are as before. -/
def calmKept (s u : State) (o : OfficeId) (p : Nat) : Prop := ∀ f i, calmField p f i → u.rd o f i = s.rd o f i

theorem onlyPh_refl (s : State) (o : OfficeId) (p : Nat) : onlyPh s s o p := ⟨⟨rfl, rfl, rfl, rfl, rfl⟩, fun _ _ => rfl, rfl, rfl⟩

theorem onlyPh_trans (h : onlyPh s u o p) (k : onlyPh u v o p) : onlyPh s v o p := by
  obtain ⟨ho, hp, ha, hs⟩ := h
  obtain ⟨ko, kp, ka, ks⟩ := k
  exact ⟨onlyOff_trans ho ko, fun q hq => (kp q hq).trans (hp q hq), ka.trans ha, ks.trans hs⟩

theorem phGrows_refl (s : State) (o : OfficeId) (p : Nat) : phGrows s s o p := ⟨onlyPh_refl s o p, rfl, [], rfl⟩

theorem phGrows_trans (h : phGrows s u o p) (k : phGrows u v o p) : phGrows s v o p := by
  obtain ⟨ho, hm, l, hl⟩ := h
  obtain ⟨ko, km, l', hl'⟩ := k
  exact ⟨onlyPh_trans ho ko, km.trans hm, l' ++ l, by rw [hl', hl, List.append_assoc]⟩

theorem phGrows.mem_out (h : phGrows s u o p) {e : Emission} (he : e ∈ s.out) : e ∈ u.out := by
  obtain ⟨-, -, l, hl⟩ := h
  rw [hl]
  exact List.mem_append_right _ he

theorem calmKept_trans (h : calmKept s u o p) (k : calmKept u v o p) : calmKept s v o p := fun f i hf => (k f i hf).trans (h f i hf)

/-! ### The operations -/

theorem regsOnly.ph (h : regsOnly s u o ks) (q : Nat) : (u.off o).ph q = (s.off o).ph q := h.field (Office.ph · q) fun _ _ _ _ _ _ _ => rfl

theorem regsOnly.phGrows (h : regsOnly s u o ks) (p : Nat) : phGrows s u o p :=
  ⟨⟨h.onlyOff, fun q _ => h.ph q, h.field Office.arr fun _ _ _ _ _ _ _ => rfl, h.field Office.sto fun _ _ _ _ _ _ _ => rfl⟩,
    h.field Office.mps fun _ _ _ _ _ _ _ => rfl, [], h.out⟩

theorem regsOnly.calmKept (h : regsOnly s u o ks) (hk : ∀ f i, calmField p f i → f.key i 0 ∉ ks) : calmKept s u o p :=
  fun f i hf => h.rd (hk f i hf) hf.2.1

/-- Of pigeonhole `p` its own part changes by `g`, and its count of held buffers follows. -/
theorem modPh_office (s : State) (o : OfficeId) (p : Nat) (g : Ph → Ph) :
    ∃ r, (s.modPh o p g).off o = { s.off o with phs := Sparse.set {} (s.off o).phs p (g ((s.off o).ph p)), regs := r } := by
  unfold State.modPh State.wr
  rw [if_neg (by decide)]
  exact ⟨_, by rw [modOff_off_same, modOff_off_same]⟩

/-- What an office holds beside its pigeonholes and its registers is as before. -/
theorem modPh_field {α : Type} (h : Office → α) (hh : ∀ (d : Office) regs phs, h { d with regs := regs, phs := phs } = h d) :
    h ((s.modPh o p g).off o) = h (s.off o) := by
  obtain ⟨r, e⟩ := modPh_office s o p g
  rw [e, hh]

@[simp] theorem modPh_ph_same : ((s.modPh o p g).off o).ph p = g ((s.off o).ph p) := by
  obtain ⟨r, h⟩ := modPh_office s o p g
  rw [h]
  exact Sparse.get_set_same _ _ _ _

theorem modPh_ph_other (h : q ≠ p) : ((s.modPh o p g).off o).ph q = (s.off o).ph q := by
  obtain ⟨r, e⟩ := modPh_office s o p g
  rw [e]
  exact Sparse.get_set_other _ _ _ h

theorem modPh_onlyOff : onlyOff s (s.modPh o p g) o :=
  onlyOff_trans (modOff_onlyOff _) (wr_regsOnly _ _ _ _ rfl).onlyOff

theorem modPh_out : (s.modPh o p g).out = s.out := wr_out _ _ _ _

theorem modPh_phGrows : phGrows s (s.modPh o p g) o p := by
  obtain ⟨r, h⟩ := modPh_office s o p g
  exact ⟨⟨modPh_onlyOff, fun q hq => modPh_ph_other hq, by rw [h], by rw [h]⟩, by rw [h], [], modPh_out⟩

theorem rd_modPh {f : Fld} {i : Nat} (h : f.key i 0 ≠ F.PH_STAT_HELD.key p 0) : (s.modPh o p g).rd o f i = s.rd o f i := by
  refine (rd_wr_other _ _ _ _ _ _ _ h).trans ?_
  simp [State.rd]

theorem modPh_calmKept : calmKept s (s.modPh o p g) o p := fun _ _ ⟨_, _, hh, _, _⟩ => rd_modPh hh

theorem postWrite_office (s : State) (o : OfficeId) (addr : Nat) (bs : List Byte) :
    (s.postWrite o addr bs).off o = { s.off o with pcieTx := ((s.postWrite o addr bs).off o).pcieTx } := by
  obtain ⟨-, -, -, -, -, -, -, h⟩ := postWrite_spec (s := s) (o := o) addr bs
  exact h

/-- What an office holds beside the words that cross to its port is as before. -/
theorem postWrite_field {α : Type} (h : Office → α) (hh : ∀ (d : Office) tx, h { d with pcieTx := tx } = h d) (addr : Nat) (bs : List Byte) :
    h ((s.postWrite o addr bs).off o) = h (s.off o) := by
  rw [postWrite_office, hh]

theorem postWrite_out (s : State) (o : OfficeId) (addr : Nat) (bs : List Byte) : (s.postWrite o addr bs).out = writesOf s o addr bs ++ s.out := by
  obtain ⟨h, -⟩ := postWrite_spec (s := s) (o := o) addr bs
  exact h

theorem postWrite_onlyOff (addr : Nat) (bs : List Byte) : onlyOff s (s.postWrite o addr bs) o := by
  obtain ⟨-, hp, hn, -, hs, ht, ho, -⟩ := postWrite_spec (s := s) (o := o) addr bs
  exact ⟨hp, hn, ht, hs, ho⟩

theorem postWrite_ph (addr : Nat) (bs : List Byte) (q : Nat) : ((s.postWrite o addr bs).off o).ph q = (s.off o).ph q := by
  rw [postWrite_office]
  rfl

theorem postWrite_phGrows (addr : Nat) (bs : List Byte) : phGrows s (s.postWrite o addr bs) o p := by
  have h := postWrite_office s o addr bs
  exact ⟨⟨postWrite_onlyOff addr bs, fun q _ => postWrite_ph addr bs q, by rw [h], by rw [h]⟩, by rw [h], _, postWrite_out s o addr bs⟩

theorem rd_postWrite (addr : Nat) (bs : List Byte) (f : Fld) (i j : Nat) : (s.postWrite o addr bs).rd o f i j = s.rd o f i j := by
  obtain ⟨-, -, -, -, hs, -⟩ := postWrite_spec (s := s) (o := o) addr bs
  unfold State.rd
  rw [hs, postWrite_office]

theorem writesOf_congr (h : phGrows s u o p) (addr : Nat) (bs : List Byte) : writesOf u o addr bs = writesOf s o addr bs := by
  obtain ⟨-, hm, -⟩ := h
  unfold writesOf
  rw [hm]

/-! ### A record written (R454, R455) -/

/-- A mailbag with a record behind its last. -/
def Mailbag.add (b : Mailbag) (r : PhRecord) (now : Nat) : Mailbag :=
  { b with size := b.size + r.size, records := b.records + 1, first := if b.records = 0 then r.round else b.first, last := r.round, lastAt := now }

/-- A record is written into the mailbag at the pigeonhole's first buffer, and nothing else is sent. -/
theorem putRecord_spec (s : State) (o : OfficeId) (p : Nat) (f : Buffer) (b : Mailbag) (r : PhRecord) :
    let u := s.putRecord o p f b r
    phGrows s u o p ∧ calmKept s u o p ∧ (u.off o).ph p = { (s.off o).ph p with bag := some (b.add r s.now) } ∧
      u.out = writesOf s o (f.addr + b.offset + b.size) (r.bytes ++ List.replicate (r.size - r.bytes.length) 0) ++ s.out := by
  let v := s.postWrite o (f.addr + b.offset + b.size) (r.bytes ++ List.replicate (r.size - r.bytes.length) 0)
  intro u
  have hu : u = v.modPh o p fun x => { x with bag := some (b.add r v.now) } := rfl
  obtain ⟨-, hnow, -⟩ : onlyOff s v o := postWrite_onlyOff _ _
  have hv : (v.off o).ph p = (s.off o).ph p := postWrite_ph _ _ p
  refine ⟨hu ▸ phGrows_trans (postWrite_phGrows _ _) modPh_phGrows, ?_, ?_, ?_⟩
  · rw [hu]
    exact calmKept_trans (fun f i _ => rd_postWrite _ _ f i 0) modPh_calmKept
  · rw [hu, modPh_ph_same, hv, hnow]
  · rw [hu, modPh_out]
    exact postWrite_out s o _ _

/-- What an office holds beside its pigeonholes, its registers and the words that cross to its port is as before. -/
theorem putRecord_field {α : Type} (h : Office → α) (hp : ∀ (d : Office) regs phs, h { d with regs := regs, phs := phs } = h d)
    (ht : ∀ (d : Office) tx, h { d with pcieTx := tx } = h d) (f : Buffer) (b : Mailbag) (r : PhRecord) :
    h ((s.putRecord o p f b r).off o) = h (s.off o) := (modPh_field h hp).trans (postWrite_field h ht _ _)

end Sys2Proof.Machine
end

section
/-! SUPPORT. RECORD_ADD and NOTICE_DELIVER (11 R32, R298, R370, R453 to R456, R463). -/

namespace Sys2Proof.Machine

variable {s u v : State} {o : OfficeId} {p fuel : Nat} {r : PhRecord} {b : Mailbag} {f : Buffer} {fs : List Buffer} {x : Ph}

/-! ### The queue of a pigeonhole (R32) -/

theorem next_of_single (h : x.queue = [r]) : x.next = some r := by
  cases hr : r.order <;> simp [Ph.next, h, hr]

theorem next_of_empty (h : x.queue = []) : x.next = none := by simp [Ph.next, h]

theorem dropNext_of_single (h : x.queue = [r]) : x.dropNext = { x with queue := [] } := by
  unfold Ph.dropNext
  rw [next_of_single h]
  simp [h]

/-- No mark closes the mailbag where the next record is none (R456). -/
theorem passMarks_of_record (h : ((s.off o).ph p).next.any (fun r => decide (r.kind = 0)) = false) : s.passMarks o p fuel = s := by
  cases fuel with
  | zero => rfl
  | succ n => exact if_neg (by simp [h])

/-! ### A pair counts (R13, R370) -/

theorem countPair_regsOnly (n : Nat) : regsOnly s (s.countPair o F.COL_BYTES_LO_COUNT_L F.COL_BYTES_HI_COUNT_H n) o
    [F.COL_BYTES_LO_COUNT_L.key 0 0, F.COL_BYTES_HI_COUNT_H.key 0 0] := by
  have h : ∀ x, regsOnly s ((s.wrPair o F.COL_BYTES_LO_COUNT_L F.COL_BYTES_HI_COUNT_H x).noteEvents o F.COL_BYTES_LO_COUNT_L n) o
      [F.COL_BYTES_LO_COUNT_L.key 0 0, F.COL_BYTES_HI_COUNT_H.key 0 0] := fun x =>
    (((wr_regsOnly _ _ _ _ rfl).mono (by simp)).trans ((wr_regsOnly _ _ _ _ rfl).mono (by simp))).trans (noteEvents_regsOnly _ _ _ _ rfl)
  unfold State.countPair
  extract_lets old new w nt
  split
  · exact (h _).trans (raise_regsOnly _ _)
  · exact h _

theorem rdPair_countPair (n : Nat) : (s.countPair o F.COL_BYTES_LO_COUNT_L F.COL_BYTES_HI_COUNT_H n).rdPair o F.COL_BYTES_LO_COUNT_L F.COL_BYTES_HI_COUNT_H =
    min (s.rdPair o F.COL_BYTES_LO_COUNT_L F.COL_BYTES_HI_COUNT_H + n) (2 ^ 64 - 1) := by
  have h : ∀ x ≤ 2 ^ 64 - 1, ((s.wrPair o F.COL_BYTES_LO_COUNT_L F.COL_BYTES_HI_COUNT_H x).noteEvents o F.COL_BYTES_LO_COUNT_L n).rdPair o
      F.COL_BYTES_LO_COUNT_L F.COL_BYTES_HI_COUNT_H = x := fun x hx => by
    have hlo : ((s.wrPair o F.COL_BYTES_LO_COUNT_L F.COL_BYTES_HI_COUNT_H x).noteEvents o F.COL_BYTES_LO_COUNT_L n).rd o F.COL_BYTES_LO_COUNT_L = x % 2 ^ 32 := by
      rw [rd_noteEvents, State.wrPair, rd_wr_other _ _ _ _ _ _ _ (by decide), rd_wr_same]
      rfl
    have hhi : ((s.wrPair o F.COL_BYTES_LO_COUNT_L F.COL_BYTES_HI_COUNT_H x).noteEvents o F.COL_BYTES_LO_COUNT_L n).rd o F.COL_BYTES_HI_COUNT_H =
        x / 2 ^ 32 % 2 ^ 32 := by
      rw [rd_noteEvents, State.wrPair, rd_wr_same]
      rfl
    rw [State.rdPair, hlo, hhi, show F.COL_BYTES_LO_COUNT_L.w = 32 from rfl]
    omega
  unfold State.countPair
  extract_lets old new w nt
  split
  · rw [State.rdPair, (raise_noticesOnly _ _).rd (by decide), (raise_noticesOnly _ _).rd (by decide)]
    exact h new (Nat.min_le_right _ _)
  · exact h new (Nat.min_le_right _ _)

/-! ### A record added (R453 to R455) -/

/-- Pigeonhole `p` can take a record, room apart (R453). -/
def phOpen (s : State) (o : OfficeId) (p : Nat) : Prop :=
  s.portReady o = true ∧ s.mayDeliver o p = true ∧ s.phState o p = phReady ∧ 2 ≤ s.receiptRoom o p

/-- A mailbag that opens at the used part of a buffer (R454). -/
def Mailbag.opened (f : Buffer) (r : PhRecord) (now : Nat) : Mailbag :=
  { kind := r.kind, order := r.order, tag := r.tag, offset := f.used, size := 32, records := 0, first := 0, last := 0, lastAt := now }

theorem addRecord_of_open (h : phOpen s o p) : s.addRecord o p r (fuel + 1) =
    match ((s.off o).ph p).bag, ((s.off o).ph p).held with
    | some b, f :: _ => if s.joinsBag o p b f r then (s.putRecord o p f b r, true) else (s.closeBag o p).addRecord o p r fuel
    | none, f :: _ => if fitsRest f r then (s.putRecord o p f (.opened f r s.now) r, true) else (s.returnBuffer o p 0x10).addRecord o p r fuel
    | _, [] => (s, false) := by
  obtain ⟨h1, h2, h3, h4⟩ := h
  exact (if_neg (by simp only [h1, h2, h3]; simp; omega)).trans rfl

theorem addRecord_opens (h : phOpen s o p) (hb : ((s.off o).ph p).bag = none) (hh : ((s.off o).ph p).held = f :: fs) (hf : fitsRest f r = true) :
    s.addRecord o p r (fuel + 1) = (s.putRecord o p f (.opened f r s.now) r, true) := by
  rw [addRecord_of_open h, hb, hh]
  exact if_pos hf

theorem addRecord_joins (h : phOpen s o p) (hb : ((s.off o).ph p).bag = some b) (hh : ((s.off o).ph p).held = f :: fs)
    (hj : s.joinsBag o p b f r = true) : s.addRecord o p r (fuel + 1) = (s.putRecord o p f b r, true) := by
  rw [addRecord_of_open h, hb, hh]
  exact if_pos hj

theorem addRecord_of_down (h : s.portReady o = false) : s.addRecord o p r (fuel + 1) = (s, false) := if_pos (.inl h)

theorem canTake_iff : s.canTake o p r = true ↔ phOpen s o p ∧ s.hasRoom o p r = true ∧ s.heldBack o r = false := by
  simp [State.canTake, State.canHold, phOpen, and_assoc]

/-! ### RECORD_ADD -/

/-- It is the turn of the record at the port (R32, R33, R295). -/
def itsTurn (s : State) (o : OfficeId) (r : PhRecord) : Prop := s.heldBack o r = false ∧ s.noticeReady o = false ∧ s.recordBefore o r = false

/-- The record leaves the queue, and marks behind it are passed. -/
def State.takeNext (s : State) (o : OfficeId) (p : Nat) : State := (s.modPh o p Ph.dropNext).passMarks o p 64

theorem takeNext_of_single (h : ((s.off o).ph p).queue = [r]) : s.takeNext o p = s.modPh o p fun x => { x with queue := [] } := by
  have hd : s.modPh o p Ph.dropNext = s.modPh o p fun x => { x with queue := [] } := by
    simp only [State.modPh, dropNext_of_single h]
  unfold State.takeNext
  rw [hd]
  exact passMarks_of_record (by simp [next_of_empty])

variable {ph : BitVec 12}

theorem recordAdd_of_none (h : ((s.off o).ph ph.toNat).next = none) : exec (.recordAdd o ph) s = .next s := by
  show execRecordAdd o ph s = _
  simp only [execRecordAdd, h]

theorem recordAdd_of_waits (h : ((s.off o).ph ph.toNat).next = some r)
    (hw : s.heldBack o r = true ∨ s.noticeReady o = true ∨ s.recordBefore o r = true) : exec (.recordAdd o ph) s = .next s := by
  show execRecordAdd o ph s = _
  simp only [execRecordAdd, h, if_pos hw]

/-- The staging of a record is read where the pigeonhole can hold the record (R298); the Bool tells that it reads. -/
def State.readForTake (s : State) (o : OfficeId) (p : Nat) (r : PhRecord) : State × Bool :=
  match (s.off o).stagedOf r with
  | some x => if s.canHold o p r then s.useStaged o x else (s, true)
  | none => (s, true)

theorem readForTake_of_staged {it : Staged} (h : (s.off o).stagedOf r = some it) :
    s.readForTake o p r = if s.canHold o p r then s.useStaged o it else (s, true) := by
  unfold State.readForTake
  rw [h]

theorem readForTake_of_none (h : (s.off o).stagedOf r = none) : s.readForTake o p r = (s, true) := by
  unfold State.readForTake
  rw [h]

/-- What RECORD_ADD does when the record's turn has come: `q` is the state with its staging read. -/
theorem recordAdd_of_turn {q : State × Bool} (h : ((s.off o).ph ph.toNat).next = some r) (ht : itsTurn s o r)
    (hq : s.readForTake o ph.toNat r = q) :
    exec (.recordAdd o ph) s = .next (
      if q.2 = false then q.1.takeNext o ph.toNat
      else
        let a := q.1.addRecord o ph.toNat r 4
        if a.2 then
          let s := a.1.takeNext o ph.toNat
          if r.order then s.countPair o F.COL_BYTES_LO_COUNT_L F.COL_BYTES_HI_COUNT_H r.bytes.length else s
        else a.1) := by
  obtain ⟨h1, h2, h3⟩ := ht
  have hgo : ¬ (s.heldBack o r = true ∨ s.noticeReady o = true ∨ s.recordBefore o r = true) := by simp [h1, h2, h3]
  show execRecordAdd o ph s = _
  simp only [execRecordAdd, h, if_neg hgo]
  rw [← hq]
  rfl

/-- A record whose staging, if any, still reads. -/
theorem readForTake_of_reads {it : Staged} (h : (s.off o).stagedOf r = none ∨ (s.off o).stagedOf r = some it ∧ s.useStaged o it = (s, true)) :
    s.readForTake o p r = (s, true) := by
  obtain h | ⟨h, hu⟩ := h
  · exact readForTake_of_none h
  · rw [readForTake_of_staged h, hu, ite_self]

/-- The only record of a pigeonhole is written into a mailbag (R454, R455), and the bytes of an order's count (R370). -/
theorem recordAdd_writes {it : Staged} (hq : ((s.off o).ph ph.toNat).queue = [r]) (ht : itsTurn s o r)
    (hst : (s.off o).stagedOf r = none ∨ (s.off o).stagedOf r = some it ∧ s.useStaged o it = (s, true))
    (ha : s.addRecord o ph.toNat r 4 = (s.putRecord o ph.toNat f b r, true)) :
    gives (.recordAdd o ph) s fun u => ((u.off o).ph ph.toNat).queue = [] ∧ ((u.off o).ph ph.toNat).bag = some (b.add r s.now) ∧ onlyPh s u o ph.toNat ∧
      (r.order = true → u.rdPair o F.COL_BYTES_LO_COUNT_L F.COL_BYTES_HI_COUNT_H =
        min (s.rdPair o F.COL_BYTES_LO_COUNT_L F.COL_BYTES_HI_COUNT_H + r.bytes.length) (2 ^ 64 - 1)) ∧
      u.out = writesOf s o (f.addr + b.offset + b.size) (r.bytes ++ List.replicate (r.size - r.bytes.length) 0) ++ s.out := by
  have hrun := recordAdd_of_turn (next_of_single hq) ht (readForTake_of_reads hst)
  obtain ⟨hgrows, hcalm, hph, hout⟩ := putRecord_spec s o ph.toNat f b r
  let v := s.putRecord o ph.toNat f b r
  let w := v.modPh o ph.toNat fun x => { x with queue := [] }
  have hw : v.takeNext o ph.toNat = w := takeNext_of_single (r := r) (by rw [hph]; exact hq)
  have hwph : (w.off o).ph ph.toNat = { (s.off o).ph ph.toNat with queue := [], bag := some (b.add r s.now) } := by
    rw [modPh_ph_same, hph]
  have hwgrows : phGrows s w o ph.toNat := phGrows_trans hgrows modPh_phGrows
  have hwout : w.out = writesOf s o (f.addr + b.offset + b.size) (r.bytes ++ List.replicate (r.size - r.bytes.length) 0) ++ s.out := modPh_out.trans hout
  have hpair : w.rdPair o F.COL_BYTES_LO_COUNT_L F.COL_BYTES_HI_COUNT_H = s.rdPair o F.COL_BYTES_LO_COUNT_L F.COL_BYTES_HI_COUNT_H := by
    have hkeep := calmKept_trans hcalm (modPh_calmKept (g := fun x => { x with queue := [] }))
    rw [State.rdPair, State.rdPair, hkeep _ 0 (calmField_of_lower rfl (by decide)), hkeep _ 0 (calmField_of_lower rfl (by decide))]
  rw [ha] at hrun
  simp only [Bool.true_eq_false, if_false, if_true] at hrun
  rw [hw] at hrun
  refine ⟨_, hrun, ?_⟩
  by_cases hr : r.order = true
  · rw [if_pos hr]
    have hc := countPair_regsOnly (s := w) (o := o) r.bytes.length
    obtain ⟨honly, -⟩ := phGrows_trans hwgrows (hc.phGrows _)
    refine ⟨?_, ?_, honly, fun _ => ?_, hc.out.trans hwout⟩
    · rw [hc.ph, hwph]
    · rw [hc.ph, hwph]
    · rw [rdPair_countPair, hpair]
  · rw [if_neg hr]
    obtain ⟨honly, -⟩ := hwgrows
    exact ⟨by rw [hwph], by rw [hwph], honly, fun h => absurd h hr, hwout⟩

/-- A live envelope that staging no longer holds whole leaves unsent (R298). -/
theorem recordAdd_of_lost {it : Staged} (hq : ((s.off o).ph ph.toNat).queue = [r]) (ht : itsTurn s o r) (hst : (s.off o).stagedOf r = some it)
    (hl : it.lost = true) (hc : s.canHold o ph.toNat r = true) : gives (.recordAdd o ph) s fun u =>
      ((u.off o).ph ph.toNat).queue = [] ∧ ((u.off o).ph ph.toNat).bag = ((s.off o).ph ph.toNat).bag ∧ onlyPh s u o ph.toNat ∧ u.out = s.out := by
  have hread : s.readForTake o ph.toNat r = (s, false) := (readForTake_of_staged hst).trans ((if_pos hc).trans (if_pos hl))
  have hrun := recordAdd_of_turn (next_of_single hq) ht hread
  rw [if_pos rfl, takeNext_of_single hq] at hrun
  obtain ⟨honly, -⟩ := modPh_phGrows (s := s) (o := o) (p := ph.toNat) (g := fun x => { x with queue := [] })
  exact ⟨_, hrun, by rw [modPh_ph_same], by rw [modPh_ph_same], honly, modPh_out⟩

/-- At a port that is not ready every record stays (R434, R453). -/
theorem recordAdd_of_down (h : s.portReady o = false) : exec (.recordAdd o ph) s = .next s := by
  cases hn : ((s.off o).ph ph.toNat).next with
  | none => exact recordAdd_of_none hn
  | some r =>
    by_cases ht : itsTurn s o r
    · have hc : s.canHold o ph.toNat r = false := by simp [State.canHold, h]
      have hread : s.readForTake o ph.toNat r = (s, true) := by
        cases hs : (s.off o).stagedOf r with
        | none => exact readForTake_of_none hs
        | some x => exact (readForTake_of_staged hs).trans (if_neg (by simp [hc]))
      rw [recordAdd_of_turn hn ht hread, addRecord_of_down h]
      rfl
    · refine recordAdd_of_waits hn ?_
      simp only [itsTurn, ← Bool.not_eq_true] at ht
      tauto

/-! ### NOTICE_DELIVER (R463) -/

/-- The record of a notice. -/
def noticeRecord (n : Notice) : PhRecord := { kind := 4, round := 0, bytes := n.bytes }

theorem noticeDeliver_of_none (h : (s.off o).held = []) : exec (.noticeDeliver o) s = .next s := by
  show execNoticeDeliver o s = _
  simp only [execNoticeDeliver, h]

/-- A notice that has been written waits for its receipt (R463, R715). -/
def State.noticeSent (s : State) (o : OfficeId) (n : Notice) (ns : List Notice) : State :=
  (s.modOff o fun d => { d with held := ns, sentNotices := d.sentNotices ++ [n] }).wr o F.PH_NOTICE_STAT_HELD ns.length

theorem noticeDeliver_of_added {n : Notice} {ns : List Notice} (hn : (s.off o).held = n :: ns) (ht : s.canTake o 1 (noticeRecord n) = true)
    (ha : s.addRecord o 1 (noticeRecord n) 4 = (v, true)) (hl : ((v.noticeSent o n ns).off o).noticesLost = 0) :
    exec (.noticeDeliver o) s = .next (v.noticeSent o n ns) := by
  show execNoticeDeliver o s = _
  simp only [execNoticeDeliver, hn]
  rw [if_neg (by rw [← noticeRecord, ht]; decide), ← noticeRecord, ha]
  exact congrArg Host.Outcome.next (if_pos hl)

/-- The notice leaves those held, and the account of them follows. -/
theorem noticeSent_spec (s : State) (o : OfficeId) (n : Notice) (ns : List Notice) :
    let u := s.noticeSent o n ns
    (u.off o).held = ns ∧ (u.off o).sentNotices = (s.off o).sentNotices ++ [n] ∧ (u.off o).noticesLost = (s.off o).noticesLost ∧
      u.rd o F.PH_NOTICE_STAT_HELD = ns.length % 2 ^ 11 ∧ phGrows s u o 1 ∧ u.out = s.out := by
  have hoff : ∃ r, (s.noticeSent o n ns).off o = { s.off o with held := ns, sentNotices := (s.off o).sentNotices ++ [n], regs := r } := by
    unfold State.noticeSent State.wr
    rw [if_neg (by decide)]
    exact ⟨_, by rw [modOff_off_same, modOff_off_same]⟩
  obtain ⟨r, hr⟩ := hoff
  have hout : (s.noticeSent o n ns).out = s.out := wr_out _ _ _ _
  have honly : onlyOff s (s.noticeSent o n ns) o := onlyOff_trans (modOff_onlyOff _) (wr_regsOnly _ _ _ _ rfl).onlyOff
  exact ⟨by rw [hr], by rw [hr], by rw [hr], rd_wr_same _ _ _ _,
    ⟨⟨honly, fun q _ => by rw [hr]; rfl, by rw [hr], by rw [hr]⟩, by rw [hr], [], hout⟩, hout⟩

/-- The oldest notice goes into a new mailbag of pigeonhole 1. -/
theorem noticeDeliver_opens {n : Notice} {ns : List Notice} (hn : (s.off o).held = n :: ns) (ht : s.canTake o 1 (noticeRecord n) = true)
    (hb : ((s.off o).ph 1).bag = none) (hh : ((s.off o).ph 1).held = f :: fs) (hf : fitsRest f (noticeRecord n) = true)
    (hl : (s.off o).noticesLost = 0) : gives (.noticeDeliver o) s fun u =>
      (u.off o).held = ns ∧ (u.off o).sentNotices = (s.off o).sentNotices ++ [n] ∧ u.rd o F.PH_NOTICE_STAT_HELD = ns.length % 2 ^ 11 ∧
        onlyPh s u o 1 ∧
        u.out = writesOf s o (f.addr + f.used + 32) (n.bytes ++ List.replicate ((noticeRecord n).size - n.bytes.length) 0) ++ s.out := by
  obtain ⟨hopen, -⟩ := canTake_iff.1 ht
  let v := s.putRecord o 1 f (.opened f (noticeRecord n) s.now) (noticeRecord n)
  have ha : s.addRecord o 1 (noticeRecord n) 4 = (v, true) := addRecord_opens hopen hb hh hf
  obtain ⟨hgrows, -, -, hout⟩ := putRecord_spec s o 1 f (.opened f (noticeRecord n) s.now) (noticeRecord n)
  have hsent : (v.off o).sentNotices = (s.off o).sentNotices := putRecord_field Office.sentNotices (fun _ _ _ => rfl) (fun _ _ => rfl) _ _ _
  have hlost : (v.off o).noticesLost = 0 := (putRecord_field Office.noticesLost (fun _ _ _ => rfl) (fun _ _ => rfl) _ _ _).trans hl
  obtain ⟨h1, h2, h3, h4, h5, h6⟩ := noticeSent_spec v o n ns
  obtain ⟨honly, -⟩ := phGrows_trans hgrows h5
  exact ⟨_, noticeDeliver_of_added hn ht ha (h3.trans hlost), h1, by rw [h2, hsent], h4, honly, h6.trans hout⟩

end Sys2Proof.Machine
end

section
/-! SUPPORT. A mailbag closed: its header, its receipt, and the interrupt that may follow (11 R456 to R462). -/

namespace Sys2Proof.Machine

variable {s u v : State} {o : OfficeId} {p : Nat} {b : Mailbag} {f : Buffer} {fs : List Buffer}

/-- The work at pigeonhole `p` that leaves its mailbag and the calm registers. -/
def bagStays (s u : State) (o : OfficeId) (p : Nat) : Prop :=
  phGrows s u o p ∧ calmKept s u o p ∧ ((u.off o).ph p).bag = ((s.off o).ph p).bag

theorem bagStays_refl (s : State) (o : OfficeId) (p : Nat) : bagStays s s o p := ⟨phGrows_refl s o p, fun _ _ _ => rfl, rfl⟩

theorem bagStays_trans (h : bagStays s u o p) (k : bagStays u v o p) : bagStays s v o p := by
  obtain ⟨hg, hc, hb⟩ := h
  obtain ⟨kg, kc, kb⟩ := k
  exact ⟨phGrows_trans hg kg, calmKept_trans hc kc, kb.trans hb⟩

theorem postWrite_bagStays (addr : Nat) (bs : List Byte) : bagStays s (s.postWrite o addr bs) o p :=
  ⟨postWrite_phGrows _ _, fun f i _ => rd_postWrite _ _ f i 0, by rw [postWrite_ph]⟩

theorem modPh_bagStays (g : Ph → Ph) (hg : ∀ x, (g x).bag = x.bag) : bagStays s (s.modPh o p g) o p :=
  ⟨modPh_phGrows, modPh_calmKept, by rw [modPh_ph_same, hg]⟩

theorem wr_bagStays {g : Fld} (x i : Nat) (hs : g.svc = false) (hk : ∀ f j, calmField p f j → f.key j 0 ≠ g.key i 0) :
    bagStays s (s.wr o g x i) o p := by
  have h := wr_regsOnly (s := s) (o := o) g x i 0 hs
  exact ⟨h.phGrows p, h.calmKept fun f j hf => by simpa using hk f j hf, by rw [h.ph]⟩

/-- A vector signalled sends a message or sets its pending bit (R462). -/
theorem signal_bagStays (vector : Nat) : bagStays s (s.signal o vector) o p := by
  unfold State.signal
  split
  · exact postWrite_bagStays _ _
  · exact wr_bagStays _ _ rfl fun f j ⟨_, _, _, _, hk⟩ => hk _

theorem signalPh_bagStays : bagStays s (s.signalPh o p) o p := by
  have h : bagStays s (s.modPh o p fun x => { x with unsig := 0 }) o p := modPh_bagStays _ fun _ => rfl
  unfold State.signalPh
  exact bagStays_trans h (signal_bagStays _)

theorem noteReceipt_bagStays : bagStays s (s.noteReceipt o p) o p := by
  unfold State.noteReceipt
  extract_lets x w
  have hw : bagStays s w o p := modPh_bagStays _ fun _ => rfl
  split
  · exact bagStays_trans hw signalPh_bagStays
  · exact hw

theorem dropBuffer_bagStays : bagStays s (s.dropBuffer o p) o p := by
  unfold State.dropBuffer
  extract_lets w x
  have hw : bagStays s w o p := modPh_bagStays _ fun _ => rfl
  split
  · exact bagStays_trans hw (wr_bagStays _ _ rfl fun f j ⟨_, _, _, hk, _⟩ => hk)
  · exact hw

/-! ### Receipts (R457, R460) -/

theorem key_rprod_ne_mailbag (p : Nat) : F.PH_CNT_MAILBAG_COUNT.key p 0 ≠ F.PH_RPROD_INDEX.key p 0 := by
  simp [Fld.key, Fld.addr, F.PH_CNT_MAILBAG_COUNT, F.PH_RPROD_INDEX, mkA]

/-- Where the next receipt of a pigeonhole goes. -/
def State.receiptAddr (s : State) (o : OfficeId) (p : Nat) : Nat :=
  s.rd o F.PH_RR_BASE_LO_BASE_L p + s.rd o F.PH_RR_BASE_HI_BASE_H p * 2 ^ 32 + 32 * (s.rd o F.PH_RPROD_INDEX p % 2 ^ s.rd o F.PH_CFG_RR_LOG2 p)

/-- The bytes of a receipt that would come next. -/
def State.receiptBytes (s : State) (o : OfficeId) (p : Nat) (c : Receipt) : List Byte :=
  c.bytes p (s.rd o F.PH_RPROD_INDEX p) (s.rd o F.PH_CFG_RR_LOG2 p)

/-- A receipt is sent, and the index of receipts goes on. -/
theorem writeReceipt_spec (s : State) (o : OfficeId) (hp : p < 4096) (c : Receipt) :
    let u := s.writeReceipt o p c
    phGrows s u o p ∧ ((u.off o).ph p).bag = ((s.off o).ph p).bag ∧
      u.rd o F.PH_RPROD_INDEX p = (s.rd o F.PH_RPROD_INDEX p + 1) % 2 ^ 32 ∧
      u.rd o F.PH_CNT_MAILBAG_COUNT p = s.rd o F.PH_CNT_MAILBAG_COUNT p ∧
      ∀ e ∈ writesOf s o (s.receiptAddr o p) (s.receiptBytes o p c), e ∈ u.out := by
  let v := s.postWrite o (s.receiptAddr o p) (s.receiptBytes o p c)
  let w := v.wr o F.PH_RPROD_INDEX (s.rd o F.PH_RPROD_INDEX p + 1) p
  intro u
  have hu : u = w.noteReceipt o p := rfl
  have hw : regsOnly v w o [F.PH_RPROD_INDEX.key p 0] := wr_regsOnly _ _ _ _ rfl
  obtain ⟨hvg, -, hvb⟩ : bagStays s v o p := postWrite_bagStays _ _
  obtain ⟨hug, huc, hub⟩ : bagStays w u o p := hu ▸ noteReceipt_bagStays
  have hwu : phGrows v u o p := phGrows_trans (hw.phGrows p) hug
  refine ⟨phGrows_trans hvg hwu, hub.trans ((congrArg Ph.bag (hw.ph p)).trans hvb), ?_, ?_, fun e he => ?_⟩
  · rw [huc _ p (calmField_of_delivery hp _ (by simp [deliveryFields]))]
    exact rd_wr_same _ _ _ _
  · rw [huc _ p (calmField_of_delivery hp _ (by simp [deliveryFields]))]
    exact (rd_wr_other _ _ _ _ _ _ _ (key_rprod_ne_mailbag p)).trans (rd_postWrite _ _ _ _ _)
  · refine hwu.mem_out ?_
    rw [postWrite_out]
    exact List.mem_append_left _ he

/-! ### The mailbag closes (R456 to R458) -/

/-- The pigeonhole's own part as its mailbag closes. -/
def Ph.bagShut (x : Ph) (b : Mailbag) (f : Buffer) (used : Nat) : Ph :=
  { x with bag := none, gap := false, held := { f with used := used } :: x.held.drop 1
           liveRound := if b.kind = 1 ∧ b.order = false then b.last.toNat + 1 else x.liveRound }

/-- The receipt of a mailbag. -/
def Mailbag.receipt (b : Mailbag) (f : Buffer) (back : Bool) : Receipt :=
  { kind := 1, last := back, order := b.order, status := 0, dseq := f.seq, cookie := f.cookie, offset := b.offset, len := b.size
    tag := if b.order then b.tag.toNat else 0 }

/-- The mailbag counts, and those notices of pigeonhole 1 have their receipt (R463, R715). -/
def State.bagCounted (s : State) (o : OfficeId) (p : Nat) : State :=
  (s.countUp o F.PH_CNT_MAILBAG_COUNT p).modOff o fun d => if p = 1 then { d with sentNotices := [] } else d

theorem closeBag_of_open (hb : ((s.off o).ph p).bag = some b) (hh : ((s.off o).ph p).held = f :: fs) (hr : s.portReady o = true) :
    ∃ used back, s.closeBag o p =
      let u := (((s.postWrite o (f.addr + b.offset) (b.header p ((s.off o).ph p).gap)).modPh o p (·.bagShut b f used)).writeReceipt o p
        (b.receipt f back)).bagCounted o p
      if back then u.dropBuffer o p else u := by
  refine ⟨roundUp 4096 (b.offset + b.size), s.flag o F.PH_CFG_ONEBAG p || decide (f.len < roundUp 4096 (b.offset + b.size) + 4096), ?_⟩
  unfold State.closeBag
  simp only [hb, hh, hr]
  rfl

/-- The count of mailbags goes on, and the mailbag and the index of receipts stay. -/
theorem bagCounted_spec (s : State) (o : OfficeId) (hp : p < 4096) :
    let u := s.bagCounted o p
    phGrows s u o p ∧ ((u.off o).ph p).bag = ((s.off o).ph p).bag ∧ u.rd o F.PH_RPROD_INDEX p = s.rd o F.PH_RPROD_INDEX p ∧
      u.rd o F.PH_CNT_MAILBAG_COUNT p = min (s.rd o F.PH_CNT_MAILBAG_COUNT p + 1) 0xFFFFFFFF := by
  let v := s.countUp o F.PH_CNT_MAILBAG_COUNT p
  have hv : regsOnly s v o [F.PH_CNT_MAILBAG_COUNT.key p 0] := countUp_regsOnly _ _ _ rfl
  have hcalm := calmField_of_delivery hp
  obtain ⟨-, hkr, -⟩ := hcalm F.PH_RPROD_INDEX (by simp [deliveryFields])
  obtain ⟨-, hkm, -⟩ := hcalm F.PH_CNT_MAILBAG_COUNT (by simp [deliveryFields])
  have hoff : ∃ l, (s.bagCounted o p).off o = { v.off o with sentNotices := l } := by
    by_cases h1 : p = 1
    · exact ⟨[], (modOff_off_same _).trans (if_pos h1)⟩
    · exact ⟨(v.off o).sentNotices, (modOff_off_same _).trans (if_neg h1)⟩
  obtain ⟨l, hl⟩ := hoff
  have hph : ∀ q, ((s.bagCounted o p).off o).ph q = (v.off o).ph q := fun q => by rw [hl]; rfl
  have hrd : ∀ g i, (s.bagCounted o p).rd o g i = v.rd o g i := fun g i => by
    unfold State.rd
    rw [hl]
    rfl
  have hgrows : phGrows v (s.bagCounted o p) o p :=
    ⟨⟨modOff_onlyOff _, fun q _ => hph q, by rw [hl], by rw [hl]⟩, by rw [hl], [], rfl⟩
  refine ⟨phGrows_trans (hv.phGrows p) hgrows, ?_, ?_, ?_⟩
  · rw [hph, hv.ph]
  · exact (hrd _ _).trans (hv.rd (by simpa using (key_rprod_ne_mailbag p).symm) hkr)
  · exact (hrd _ _).trans (rd_countUp_same _ _ _ rfl hkm)

/-- An open mailbag closes at a port that is ready (R456 to R458). -/
theorem closeBag_bagClosed (hp : p < 4096) (hb : ((s.off o).ph p).bag = some b) (hh : ((s.off o).ph p).held = f :: fs) (hr : s.portReady o = true) :
    bagClosed s (s.closeBag o p) o p b f := by
  obtain ⟨used, back, hclose⟩ := closeBag_of_open hb hh hr
  let v := s.postWrite o (f.addr + b.offset) (b.header p ((s.off o).ph p).gap)
  let w := v.modPh o p (·.bagShut b f used)
  let x := w.writeReceipt o p (b.receipt f back)
  let y := x.bagCounted o p
  have hlast : bagStays y (s.closeBag o p) o p := by
    rw [hclose]
    change bagStays y (if back = true then y.dropBuffer o p else y) o p
    split
    · exact dropBuffer_bagStays
    · exact bagStays_refl _ _ _
  have hvw : phGrows v w o p := modPh_phGrows
  have hsw : phGrows s w o p := phGrows_trans (postWrite_phGrows _ _) hvw
  have hbag : ((w.off o).ph p).bag = none := congrArg Ph.bag modPh_ph_same
  have hcalm : calmKept s w o p := calmKept_trans (fun f i _ => rd_postWrite _ _ f i 0) modPh_calmKept
  have hkeep : ∀ g ∈ deliveryFields, w.rd o g p = s.rd o g p := fun g hg => hcalm g p (calmField_of_delivery hp g hg)
  obtain ⟨hxg, hxb, hxr, hxm, hxo⟩ := writeReceipt_spec w o hp (b.receipt f back)
  obtain ⟨hyg, hyb, hyr, hym⟩ := bagCounted_spec x o hp
  obtain ⟨hzg, hzc, hzb⟩ := hlast
  have hxz : phGrows x (s.closeBag o p) o p := phGrows_trans hyg hzg
  have hend := fun g hg => hzc g p (calmField_of_delivery hp g hg)
  obtain ⟨honly, -⟩ := phGrows_trans (phGrows_trans hsw hxg) hxz
  refine ⟨hzb.trans (hyb.trans (hxb.trans hbag)), ?_, ?_, fun e he => ?_, ⟨b.receipt f back, rfl, rfl, rfl, rfl, rfl, fun e he => ?_⟩, honly⟩
  · rw [hend _ (by simp [deliveryFields]), hyr, hxr, hkeep _ (by simp [deliveryFields])]
  · rw [hend _ (by simp [deliveryFields]), hym, hxm, hkeep _ (by simp [deliveryFields])]
  · refine (phGrows_trans (phGrows_trans hvw hxg) hxz).mem_out ?_
    rw [postWrite_out]
    exact List.mem_append_left _ he
  · refine hxz.mem_out (hxo e ?_)
    have hr := hkeep F.PH_RPROD_INDEX (by simp [deliveryFields])
    have hlg := hkeep F.PH_CFG_RR_LOG2 (by simp [deliveryFields])
    have hlo := hkeep F.PH_RR_BASE_LO_BASE_L (by simp [deliveryFields])
    have hhi := hkeep F.PH_RR_BASE_HI_BASE_H (by simp [deliveryFields])
    rw [writesOf_congr hsw, State.receiptAddr, State.receiptBytes, hr, hlg, hlo, hhi]
    exact he

variable {ph : BitVec 12}

/-- No record for `IDLE_US`: the mailbag closes (R456). -/
theorem mailbagIdleClose_closes (hb : ((s.off o).ph ph.toNat).bag = some b) (hh : ((s.off o).ph ph.toNat).held = f :: fs) (hr : s.portReady o = true)
    (hu : s.rd o F.PH_TMO_IDLE_US ph.toNat ≠ 0) (ht : b.lastAt + ticksOfUs (s.rd o F.PH_TMO_IDLE_US ph.toNat) ≤ s.now) :
    gives (.mailbagIdleClose o ph) s fun u => bagClosed s u o ph.toNat b f := by
  refine ⟨_, ?_, closeBag_bagClosed ph.isLt hb hh hr⟩
  show execMailbagIdleClose o ph s = _
  simp only [execMailbagIdleClose, hb]
  exact congrArg Host.Outcome.next (if_pos ⟨hu, ht⟩)

theorem mailbagIdleClose_of_zero (hb : ((s.off o).ph ph.toNat).bag = some b) (hu : s.rd o F.PH_TMO_IDLE_US ph.toNat = 0) :
    exec (.mailbagIdleClose o ph) s = .next s := by
  show execMailbagIdleClose o ph s = _
  simp only [execMailbagIdleClose, hb]
  exact congrArg Host.Outcome.next (if_neg fun h => h.1 hu)

end Sys2Proof.Machine
end

section
/-! SUPPORT. ENVELOPE_UNDELIVERABLE and SNAPSHOT_RECORD_EXPIRY (05 R218; 11 R453): records that no pigeonhole took in time. -/

namespace Sys2Proof.Machine

variable {s u v : State} {o : OfficeId} {p : Nat} {r r' : PhRecord}

/-! ### Live records (R218) -/

/-- The notice of a record that was not taken comes at most once a second, and leaves the queue and the counters (R218). -/
theorem undelivNote_spec (s : State) (o : OfficeId) (p : Nat) (quiet : Bool) (b : List Byte) :
    let u := if quiet = true then s else (s.modPh o p fun q => { q with undelivNoticeAt := some s.now }).raise o 0x0330 b
    phGrows s u o p ∧ calmKept s u o p ∧ u.out = s.out ∧ ((u.off o).ph p).queue = ((s.off o).ph p).queue ∧
      ((u.off o).ph p).gap = ((s.off o).ph p).gap := by
  intro u
  cases hq : quiet with
  | true =>
    have hu : u = s := if_pos hq
    rw [hu]
    exact ⟨phGrows_refl s o p, fun _ _ _ => rfl, rfl, rfl, rfl⟩
  | false =>
    let w := s.modPh o p fun q => { q with undelivNoticeAt := some s.now }
    have hu : u = w.raise o 0x0330 b := if_neg (by simp [hq])
    have hr : regsOnly w u o [] := hu ▸ raise_regsOnly _ _
    have hc : calmKept w u o p := hr.calmKept fun _ _ _ => List.not_mem_nil
    refine ⟨phGrows_trans modPh_phGrows (hr.phGrows p), calmKept_trans modPh_calmKept hc, hr.out.trans modPh_out, ?_, ?_⟩
    · rw [hr.ph, modPh_ph_same]
    · rw [hr.ph, modPh_ph_same]

theorem key_undeliv_ne_rt (p : Nat) : F.SORT_RT_CNT_UNDELIV_COUNT.key 0 0 ≠ F.PH_CNT_UNDELIV_COUNT.key p 0 := by
  simp [Fld.key, Fld.addr, F.SORT_RT_CNT_UNDELIV_COUNT, F.PH_CNT_UNDELIV_COUNT, mkA, mkF]
  omega

/-- A live envelope that pigeonhole `p` did not take counts twice and leaves a gap (R218, R453). -/
theorem undelivered_spec (s : State) (o : OfficeId) (hp : p < 4096) (h2 : 2 ≤ p) (hr : r.parcel = false) (hd : r.dlo = false) :
    let u := s.undelivered o p r
    phGrows s u o p ∧ u.out = s.out ∧ ((u.off o).ph p).queue = ((s.off o).ph p).queue ∧ ((u.off o).ph p).gap = true ∧
      u.rd o F.SORT_RT_CNT_UNDELIV_COUNT = min (s.rd o F.SORT_RT_CNT_UNDELIV_COUNT + 1) 0xFFFFFFFF ∧
      u.rd o F.PH_CNT_UNDELIV_COUNT p = min (s.rd o F.PH_CNT_UNDELIV_COUNT p + 1) 0xFFFFFFFF := by
  let v := s.countUp o F.SORT_RT_CNT_UNDELIV_COUNT
  let w := v.modPh o p fun x => { x with gap := true }
  let x := w.countUp o F.PH_CNT_UNDELIV_COUNT p
  intro u
  have hmiss : (s.countUp o F.SORT_RT_CNT_UNDELIV_COUNT).missRecord o p = x := if_pos h2
  obtain ⟨quiet, b, hu⟩ : ∃ quiet b, u = if quiet = true then x else (x.modPh o p fun q => { q with undelivNoticeAt := some x.now }).raise o 0x0330 b := by
    change ∃ quiet b, s.undelivered o p r = _
    unfold State.undelivered
    simp only [hr, hd, Bool.false_eq_true, if_false, hmiss]
    exact ⟨_, _, rfl⟩
  obtain ⟨hg, hc, ho, hq, hgap⟩ := undelivNote_spec x o p quiet b
  rw [← hu] at hg hc ho hq hgap
  have hv : regsOnly s v o [F.SORT_RT_CNT_UNDELIV_COUNT.key 0 0] := countUp_regsOnly _ _ _ rfl
  have hx : regsOnly w x o [F.PH_CNT_UNDELIV_COUNT.key p 0] := countUp_regsOnly _ _ _ rfl
  have hrt : calmField p F.SORT_RT_CNT_UNDELIV_COUNT 0 := calmField_of_lower rfl (by decide)
  have hun : calmField p F.PH_CNT_UNDELIV_COUNT p := calmField_of_delivery hp _ (by simp [deliveryFields])
  have hwc : calmKept v w o p := modPh_calmKept
  refine ⟨phGrows_trans (phGrows_trans (hv.phGrows p) modPh_phGrows) (phGrows_trans (hx.phGrows p) hg),
    ho.trans (hx.out.trans (modPh_out.trans hv.out)), ?_, ?_, ?_, ?_⟩
  · rw [hq, hx.ph, modPh_ph_same, hv.ph]
  · rw [hgap, hx.ph, modPh_ph_same]
  · rw [hc _ _ hrt, hx.rd (by simpa using key_undeliv_ne_rt p) hrt.2.1, hwc _ _ hrt]
    exact rd_countUp_same _ _ _ rfl hrt.2.1
  · rw [hc _ _ hun]
    refine (rd_countUp_same _ _ _ rfl hun.2.1).trans ?_
    rw [hwc _ _ hun, hv.rd (by simpa using (key_undeliv_ne_rt p).symm) hun.2.1]
    rfl

variable {ph : BitVec 12}

/-- Live envelopes not taken when those of a later round wait are counted and leave (R218). -/
theorem envelopeUndeliverable_drops (hq : ((s.off o).ph ph.toNat).queue = [r, r']) (hl : r.live = true) (hl' : r'.live = true)
    (hne : r'.round ≠ r.round) (hpar : r.parcel = false) (hdlo : r.dlo = false) (h2 : 2 ≤ ph.toNat) (ht : s.canTake o ph.toNat r = false) :
    gives (.envelopeUndeliverable o ph) s fun u =>
      ((u.off o).ph ph.toNat).queue = [r'] ∧ ((u.off o).ph ph.toNat).gap = true ∧ onlyPh s u o ph.toNat ∧ u.out = s.out ∧
        u.rd o F.SORT_RT_CNT_UNDELIV_COUNT = min (s.rd o F.SORT_RT_CNT_UNDELIV_COUNT + 1) 0xFFFFFFFF ∧
        u.rd o F.PH_CNT_UNDELIV_COUNT ph.toNat = min (s.rd o F.PH_CNT_UNDELIV_COUNT ph.toNat + 1) 0xFFFFFFFF := by
  let v := s.modPh o ph.toNat fun q => { q with queue := q.queue.filter fun x => !(x.live && decide (x.round = r.round)) }
  let u := v.undelivered o ph.toNat r
  have hvq : ((v.off o).ph ph.toNat).queue = [r'] := by
    rw [modPh_ph_same]
    simp [hq, hl, hne]
  obtain ⟨hg, ho, huq, hgap, hrt, hun⟩ := undelivered_spec (r := r) v o ph.isLt h2 hpar hdlo
  have hvc : calmKept s v o ph.toNat := modPh_calmKept
  have hkind : r'.kind = 1 := by
    simp only [PhRecord.live, Bool.and_eq_true, decide_eq_true_eq] at hl'
    exact hl'.1
  have hnext : ((u.off o).ph ph.toNat).next.any (fun r => decide (r.kind = 0)) = false := by
    rw [next_of_single (huq.trans hvq)]
    simp [hkind]
  have hdrop : s.dropLive o ph.toNat (fun x => decide (x.round = r.round)) = u := by
    have hout : ((s.off o).ph ph.toNat).queue.filter (fun x => x.live && decide (x.round = r.round)) = [r] := by
      simp [hq, hl, hne]
    unfold State.dropLive
    simp only [hout]
    exact (if_neg (List.cons_ne_nil _ _)).trans (passMarks_of_record hnext)
  have hrun : exec (.envelopeUndeliverable o ph) s = .next u := by
    show execEnvelopeUndeliverable o ph s = _
    have hfind : ((s.off o).ph ph.toNat).queue.find? PhRecord.live = some r := by simp [hq, hl]
    simp only [execEnvelopeUndeliverable, hfind]
    exact congrArg Host.Outcome.next ((if_pos ⟨ht, by simp [hq, hl', hne]⟩).trans hdrop)
  obtain ⟨honly, -⟩ := phGrows_trans modPh_phGrows hg
  refine ⟨u, hrun, huq.trans hvq, hgap, honly, ho.trans modPh_out, ?_, ?_⟩
  · rw [hrt, hvc _ _ (calmField_of_lower rfl (by decide))]
  · rw [hun, hvc _ _ (calmField_of_delivery ph.isLt _ (by simp [deliveryFields]))]

/-! ### Snapshot records (R453) -/

/-- A snapshot record older than 1 ms. -/
def expiredAt (now : Nat) (r : PhRecord) : Bool := decide (r.kind = 3) && decide (r.at_ + ticksOfUs 1000 ≤ now)

/-- Beside registers and notices only the queues and the gaps of the pigeonholes differ. -/
def queuesOnly (s u : State) (o : OfficeId) : Prop :=
  onlyOff s u o ∧ u.out = s.out ∧ ∀ q, ((u.off o).ph q).held = ((s.off o).ph q).held ∧ ((u.off o).ph q).bag = ((s.off o).ph q).bag

theorem queuesOnly_refl (s : State) (o : OfficeId) : queuesOnly s s o := ⟨⟨rfl, rfl, rfl, rfl, rfl⟩, rfl, fun _ => ⟨rfl, rfl⟩⟩

theorem queuesOnly_trans (h : queuesOnly s u o) (k : queuesOnly u v o) : queuesOnly s v o := by
  obtain ⟨h1, h2, h3⟩ := h
  obtain ⟨k1, k2, k3⟩ := k
  exact ⟨onlyOff_trans h1 k1, k2.trans h2, fun q => ⟨(k3 q).1.trans (h3 q).1, (k3 q).2.trans (h3 q).2⟩⟩

theorem modPh_queuesOnly (g : Ph → Ph) (hh : ∀ x, (g x).held = x.held) (hb : ∀ x, (g x).bag = x.bag) : queuesOnly s (s.modPh o p g) o := by
  refine ⟨modPh_onlyOff, modPh_out, fun q => ?_⟩
  by_cases hq : q = p
  · subst hq
    rw [modPh_ph_same]
    exact ⟨hh _, hb _⟩
  · rw [modPh_ph_other hq]
    exact ⟨rfl, rfl⟩

/-- A record missed at pigeonhole `p` leaves every queue (R453). -/
theorem missed_queues (l : List PhRecord) :
    let u := l.foldl (fun s _ => (s.modPh o p fun x => { x with gap := true }).countUp o F.PH_CNT_UNDELIV_COUNT p) s
    queuesOnly s u o ∧ ∀ q, ((u.off o).ph q).queue = ((s.off o).ph q).queue := by
  induction l generalizing s with
  | nil => exact ⟨queuesOnly_refl s o, fun _ => rfl⟩
  | cons y l ih =>
    let v := s.modPh o p fun x => { x with gap := true }
    let w := v.countUp o F.PH_CNT_UNDELIV_COUNT p
    have hv : queuesOnly s v o := modPh_queuesOnly _ (fun _ => rfl) fun _ => rfl
    have hw : regsOnly v w o [F.PH_CNT_UNDELIV_COUNT.key p 0] := countUp_regsOnly _ _ _ rfl
    have hvw : queuesOnly v w o := ⟨hw.onlyOff, hw.out, fun q => by rw [hw.ph]; exact ⟨rfl, rfl⟩⟩
    obtain ⟨h1, h2⟩ := ih (s := w)
    refine ⟨queuesOnly_trans (queuesOnly_trans hv hvw) h1, fun q => (h2 q).trans ?_⟩
    rw [hw.ph]
    by_cases hq : q = p
    · subst hq
      rw [modPh_ph_same]
    · rw [modPh_ph_other hq]

/-- One pigeonhole of SNAPSHOT_RECORD_EXPIRY. -/
def State.expirePh (s : State) (o : OfficeId) (e : Nat × Ph) : State :=
  let old := e.2.queue.filter (expiredAt s.now)
  if old = [] then s
  else
    let s := s.modPh o e.1 fun x => { x with queue := x.queue.filter fun r => !expiredAt s.now r }
    old.foldl (fun s _ => (s.modPh o e.1 fun x => { x with gap := true }).countUp o F.PH_CNT_UNDELIV_COUNT e.1) s

/-- The records that have expired leave the queue of the pigeonhole, where the entry has any. -/
theorem expirePh_spec (s : State) (o : OfficeId) (e : Nat × Ph) : queuesOnly s (s.expirePh o e) o ∧
    ∀ q, (((s.expirePh o e).off o).ph q).queue =
      if e.1 = q ∧ e.2.queue.filter (expiredAt s.now) ≠ [] then ((s.off o).ph q).queue.filter (!expiredAt s.now ·) else ((s.off o).ph q).queue := by
  unfold State.expirePh
  extract_lets old v
  split
  next h => exact ⟨queuesOnly_refl s o, fun q => (if_neg fun hq => hq.2 h).symm⟩
  next h =>
    obtain ⟨h1, h2⟩ := missed_queues (s := v) (o := o) (p := e.1) old
    have hv : queuesOnly s v o := modPh_queuesOnly _ (fun _ => rfl) fun _ => rfl
    refine ⟨queuesOnly_trans hv h1, fun q => (h2 q).trans ?_⟩
    by_cases hq : e.1 = q
    · subst hq
      rw [if_pos ⟨rfl, h⟩, modPh_ph_same]
    · rw [if_neg fun k => hq k.1, modPh_ph_other (Ne.symm hq)]

/-- Records that have expired leave the queues of the pigeonholes listed. -/
theorem expirePhs_spec (l : Sparse Ph) (s : State) (o : OfficeId) : queuesOnly s (l.foldl (fun s e => s.expirePh o e) s) o ∧
    ∀ q, (((l.foldl (fun s e => s.expirePh o e) s).off o).ph q).queue =
      if ∃ e ∈ l, e.1 = q ∧ e.2.queue.filter (expiredAt s.now) ≠ [] then ((s.off o).ph q).queue.filter (!expiredAt s.now ·)
      else ((s.off o).ph q).queue := by
  induction l generalizing s with
  | nil => exact ⟨queuesOnly_refl s o, fun q => by simp⟩
  | cons e l ih =>
    obtain ⟨h1, h2⟩ := expirePh_spec s o e
    obtain ⟨k1, k2⟩ := ih (s.expirePh o e)
    have hnow : (s.expirePh o e).now = s.now := h1.1.2.1
    rw [hnow] at k2
    refine ⟨queuesOnly_trans h1 k1, fun q => (k2 q).trans ?_⟩
    rw [h2 q]
    simp only [List.mem_cons, exists_eq_or_imp]
    by_cases he : e.1 = q ∧ e.2.queue.filter (expiredAt s.now) ≠ []
    · simp only [if_pos he, if_pos (Or.inl he : _ ∨ _), List.filter_filter, Bool.and_self, ite_self]
    · simp only [he, false_or, if_false]

theorem Sparse.get_mem {α : Type} (d : α) (m : Sparse α) (k : Nat) : Sparse.get d m k = d ∨ (k, Sparse.get d m k) ∈ m := by
  induction m with
  | nil => exact .inl rfl
  | cons e m ih =>
    obtain ⟨j, v⟩ := e
    by_cases h : j = k
    · subst h
      exact .inr (by simp [Sparse.get])
    · simp only [Sparse.get, if_neg h]
      exact ih.imp id (List.mem_cons_of_mem _)

/-- Snapshot records older than 1 ms leave their queues (R453). -/
theorem snapshotRecordExpiry_spec : gives (.snapshotRecordExpiry o) s fun u =>
    queuesOnly s u o ∧ ∀ q, ((u.off o).ph q).queue = ((s.off o).ph q).queue.filter (!expiredAt s.now ·) := by
  obtain ⟨h1, h2⟩ := expirePhs_spec (s.off o).phs s o
  refine ⟨_, ?_, h1, fun q => (h2 q).trans ?_⟩
  · show execSnapshotRecordExpiry o s = _
    simp only [execSnapshotRecordExpiry, State.expirePh, expiredAt, Bool.decide_and]
    rfl
  · split
    · rfl
    next h =>
      refine (List.filter_eq_self.2 fun y hy => ?_).symm
      have hnone : ((s.off o).ph q).queue.filter (expiredAt s.now) = [] := by
        obtain hd | hm := Sparse.get_mem ({} : Ph) (s.off o).phs q
        · rw [Office.ph, hd]
          rfl
        · by_contra hne
          exact h ⟨_, hm, rfl, hne⟩
      simpa using List.filter_eq_nil_iff.1 hnone y hy

end Sys2Proof.Machine
end

section
/-! SUPPORT. The obligation about records and mailbags (11 R453 to R463, R218). -/

namespace Sys2Proof.Machine

/-- Settles O28: every clause is a rule of its command above. -/
theorem recordsAndMailbags : Obligations.RecordsAndMailbags := by
  intro s o ph r r' b f fs n ns it p x ready note expired colBytes turn
  refine ⟨fun hq ht hst hr hh => ⟨fun hb hf => ?_, fun hb hj => ?_⟩, fun hq ht hst hl hc => recordAdd_of_lost hq ht hst hl hc,
    fun hq hw => recordAdd_of_waits (next_of_single hq) hw, fun h => h.elim (fun hq => recordAdd_of_none (next_of_empty hq)) recordAdd_of_down,
    fun hb hh hr => ⟨fun hu ht => mailbagIdleClose_closes hb hh hr hu ht, fun hu => mailbagIdleClose_of_zero hb hu⟩,
    envelopeUndeliverable_drops, noticeDeliver_opens, noticeDeliver_of_none, ?_⟩
  · obtain ⟨u, hu, hqueue, hbag, honly, hcol, hout⟩ := recordAdd_writes hq ht hst (addRecord_opens hr hb hh hf)
    exact ⟨u, hu, hqueue, ⟨_, hbag, rfl, rfl, rfl, rfl⟩, honly, hcol, hout⟩
  · obtain ⟨u, hu, hqueue, hbag, honly, -, hout⟩ := recordAdd_writes hq ht hst (addRecord_joins hr hb hh hj)
    exact ⟨u, hu, hqueue, ⟨_, hbag, rfl, rfl, rfl, rfl⟩, honly, hout⟩
  · obtain ⟨u, hu, ⟨honly, hout, hrest⟩, hqueue⟩ := snapshotRecordExpiry_spec (s := s) (o := o)
    exact ⟨u, hu, hqueue, hrest, honly, hout⟩

end Sys2Proof.Machine
end

section
/-! SUPPORT. The edge arbiter (03 R94 to R96): what placing an edge leaves of a tile, and the stamps of one or two edges in a window. -/

namespace Sys2Proof.Machine

variable {d e g : Tile} {t : Fin 4} {cl : Nat}

/-! ### What placing an edge changes -/

/-- Of the tile only the edges and interpolators of cluster `cl` differ, and what it counts. -/
def edgesOnly (d e : Tile) (cl : Nat) : Prop :=
  e = { d with clusters := e.clusters, cnt := e.cnt, fresh := e.fresh } ∧ (∀ x, x ≠ cl → e.cluster x = d.cluster x) ∧
    e.cluster cl = { d.cluster cl with
      ip0 := (e.cluster cl).ip0, ip1 := (e.cluster cl).ip1, openBin := (e.cluster cl).openBin, edges := (e.cluster cl).edges
      base0 := (e.cluster cl).base0, base1 := (e.cluster cl).base1, tickEdges := (e.cluster cl).tickEdges }

theorem edgesOnly_refl (d : Tile) (cl : Nat) : edgesOnly d d cl := ⟨rfl, fun _ _ => rfl, rfl⟩

theorem edgesOnly_trans (h : edgesOnly d e cl) (k : edgesOnly e g cl) : edgesOnly d g cl := by
  obtain ⟨ht, ho, hc⟩ := h
  obtain ⟨kt, ko, kc⟩ := k
  refine ⟨kt.trans ?_, fun x hx => (ko x hx).trans (ho x hx), kc.trans ?_⟩
  · exact congrArg (fun x : Tile => { x with clusters := g.clusters, cnt := g.cnt, fresh := g.fresh }) ht
  · exact congrArg (fun x : Cluster => { x with
      ip0 := (g.cluster cl).ip0, ip1 := (g.cluster cl).ip1, openBin := (g.cluster cl).openBin, edges := (g.cluster cl).edges
      base0 := (g.cluster cl).base0, base1 := (g.cluster cl).base1, tickEdges := (g.cluster cl).tickEdges }) hc

namespace edgesOnly

/-- A field of the tile that neither holds clusters nor counts is as before. -/
theorem field {α : Type} (h : edgesOnly d e cl) (p : Tile → α)
    (hp : ∀ (d : Tile) a b c, p { d with clusters := a, cnt := b, fresh := c } = p d) : p e = p d := by
  rw [h.1, hp]

/-- What a cluster holds beside edges and interpolators is as before. -/
theorem clusterField {α : Type} (h : edgesOnly d e cl) (p : Cluster → α)
    (hp : ∀ (k : Cluster) a b c l m n q, p { k with
      ip0 := a, ip1 := b, openBin := c, edges := l, base0 := m, base1 := n, tickEdges := q } = p k) (x : Nat) :
    p (e.cluster x) = p (d.cluster x) := by
  obtain ⟨-, ho, hc⟩ := h
  rcases eq_or_ne x cl with rfl | hx
  · rw [hc, hp]
  · rw [ho x hx]

theorem cell (h : edgesOnly d e cl) (x : Nat) : e.cell x = d.cell x := h.field (Tile.cell · x) fun _ _ _ _ => rfl

theorem lockedAt (h : edgesOnly d e cl) (x : Nat) : e.lockedAt x = d.lockedAt x := by
  unfold Tile.lockedAt
  rw [h.clusterField Cluster.dll fun _ _ _ _ _ _ _ _ => rfl]

theorem ipDisabled (h : edgesOnly d e cl) (x : Nat) (ip : Bool) : e.ipDisabled x ip = d.ipDisabled x ip :=
  h.field (Tile.ipDisabled · x ip) fun _ _ _ _ => rfl

theorem caught (h : edgesOnly d e cl) (x : Nat) (y : Edge) : e.caught x y = d.caught x y := by
  unfold Tile.caught
  rw [h.lockedAt, h.ipDisabled, h.ipDisabled]

theorem otherCells (h : edgesOnly d e cl) (c : Nat) : otherCells d e c :=
  ⟨fun x _ => h.cell x, h.field Tile.cellCfg fun _ _ _ _ => rfl, h.field Tile.clusterCfg fun _ _ _ _ => rfl⟩

end edgesOnly

/-- Edges and interpolators of the cluster change. -/
theorem edgesOnly_modCluster (f : Cluster → Cluster) (hf : ∀ k : Cluster, f k = { k with
    ip0 := (f k).ip0, ip1 := (f k).ip1, openBin := (f k).openBin, edges := (f k).edges, base0 := (f k).base0, base1 := (f k).base1
    tickEdges := (f k).tickEdges }) : edgesOnly d (d.modCluster cl f) cl := by
  refine ⟨rfl, fun x hx => cluster_modCluster_other f hx, ?_⟩
  rw [cluster_modCluster_same]
  exact hf _

theorem edgesOnly_countBy (f : Fld) (n : Nat) : edgesOnly d (d.countBy t f n) cl := ⟨rfl, fun _ _ => rfl, rfl⟩

theorem edgesOnly_takeIp (now : Nat) (ip : Option Bool) : edgesOnly d (d.takeIp now cl ip) cl := by
  unfold Tile.takeIp
  split
  · exact edgesOnly_refl d cl
  · exact edgesOnly_modCluster _ fun _ => rfl
  · exact edgesOnly_modCluster _ fun _ => rfl

theorem edgesOnly_allot (es : List Edge) (d : Tile) : edgesOnly d (d.allot cl es).1 cl := by
  induction es generalizing d with
  | nil => exact edgesOnly_refl d cl
  | cons x es ih => exact edgesOnly_trans (edgesOnly_takeIp _ _) (ih _)

/-! ### The allocation -/

/-- An edge as it is before the arbiter has given it an interpolator. -/
def Edge.bare (e : Edge) : Edge := { e with ip := none }

/-- The interpolators of a cluster as an allocation finds them. -/
def Tile.ips (d : Tile) (cl : Nat) : Interp × Interp := ((d.cluster cl).ip0, (d.cluster cl).ip1)

theorem ipFree_congr (h : e.ips cl = d.ips cl) (n : Nat) (l : Option Nat) (off ip : Bool) : e.ipFree n cl l off ip = d.ipFree n cl l off ip := by
  obtain ⟨h0, h1⟩ := Prod.mk.inj h
  simp only [Tile.ipFree, h0, h1]

theorem takeIp_ips (h : e.ips cl = d.ips cl) (n : Nat) (ip : Option Bool) : (e.takeIp n cl ip).ips cl = (d.takeIp n cl ip).ips cl := by
  obtain ⟨h0, h1⟩ := Prod.mk.inj h
  match ip with
  | none => exact h
  | some false => simp [Tile.takeIp, Tile.ips, h1]
  | some true => simp [Tile.takeIp, Tile.ips, h0]

/-- What edges are allotted goes by the interpolators alone, and not by what they had before (R95). -/
theorem allot_congr (es fs : List Edge) (hb : es.map Edge.bare = fs.map Edge.bare) (d e : Tile) (h : e.ips cl = d.ips cl) :
    (e.allot cl es).2 = (d.allot cl fs).2 := by
  induction es generalizing d e fs with
  | nil =>
    cases fs with
    | nil => rfl
    | cons f fs => cases hb
  | cons x es ih =>
    cases fs with
    | nil => cases hb
    | cons y fs =>
      obtain ⟨hx, hs⟩ := List.cons.inj hb
      have hfield : ∀ {α : Type} (p : Edge → α), p x.bare = p y.bare := fun p => congrArg p hx
      have htick : x.tick = y.tick := hfield Edge.tick
      have hset : ∀ i, { x with ip := i } = { y with ip := i } := fun i => hfield fun z => { z with ip := i }
      have hip : chooseIp (e.ipFree x.tick cl x.locked x.off0 false) (e.ipFree x.tick cl x.locked x.off1 true) =
          chooseIp (d.ipFree y.tick cl y.locked y.off0 false) (d.ipFree y.tick cl y.locked y.off1 true) := by
        rw [ipFree_congr h, ipFree_congr h, htick, show x.locked = y.locked from hfield Edge.locked,
          show x.off0 = y.off0 from hfield Edge.off0, show x.off1 = y.off1 from hfield Edge.off1]
      unfold Tile.allot
      dsimp only
      rw [hip, hset, htick, ih fs hs _ _ (takeIp_ips h _ _)]

/-! ### The arbiter's result -/

/-- The edges of the window with the one that is placed, in the arbiter's order (R95). -/
def Tile.placed (d : Tile) (cl : Nat) (e : Edge) : List Edge :=
  let old := (d.cluster cl).window e.bin
  let c := d.caught cl e
  old.filter (·.before c) ++ c :: old.filter fun x => !x.before c

/-- The tile whose interpolators stand as they did before the window. -/
def Tile.rewound (d : Tile) (cl : Nat) (e : Edge) : Tile :=
  d.modCluster cl fun k =>
    if ((d.cluster cl).window e.bin).isEmpty then { k with base0 := k.ip0, base1 := k.ip1, openBin := e.bin } else { k with ip0 := k.base0, ip1 := k.base1 }

theorem rewound_edgesOnly (e : Edge) : edgesOnly d (d.rewound cl e) cl := by
  refine edgesOnly_modCluster _ fun k => ?_
  split <;> rfl

/-- The edges that the arbiter keeps when it has placed one, with what each takes. -/
def Tile.allotted (d : Tile) (cl : Nat) (e : Edge) : List Edge := ((d.rewound cl e).allot cl (d.placed cl e)).2

/-- The tile with the edge placed, before the other edges of the window take their new stamps. -/
def Tile.settled (d : Tile) (t : Fin 4) (cl : Nat) (e : Edge) : Tile :=
  let old := (d.cluster cl).window e.bin
  let l := d.allotted cl e
  ((((d.rewound cl e).allot cl (d.placed cl e)).1.modCluster cl fun k => { k with edges := l, tickEdges := tickEdgesAfter k.tickEdges l (d.caught cl e) }).countBy t
    F.SORT_TE_CNT_COLEAD_COUNT (coarseOf false l - coarseOf false old)).countBy t F.SORT_TE_CNT_COTRAIL_COUNT (coarseOf true l - coarseOf true old)

theorem settled_edgesOnly (e : Edge) : edgesOnly d (d.settled t cl e) cl :=
  edgesOnly_trans (edgesOnly_trans (edgesOnly_trans (edgesOnly_trans (rewound_edgesOnly e) (edgesOnly_allot _ _))
    (edgesOnly_modCluster _ fun _ => rfl)) (edgesOnly_countBy _ _)) (edgesOnly_countBy _ _)

/-- Whether an edge is that of a cell and kind. -/
def Edge.same (x e : Edge) : Bool := decide (x.cell = e.cell) && x.trailing == e.trailing

/-- The interpolator that the edge itself takes. -/
def Tile.taken (d : Tile) (cl : Nat) (e : Edge) : Option Bool := ((d.allotted cl e).find? (·.same e)).bind (·.ip)

theorem arbitrate_eq (e : Edge) : d.arbitrate t cl e =
    (if ((d.cluster cl).window e.bin).isEmpty then d.settled t cl e
      else ((d.allotted cl e).filter fun x => decide (x.cell ≠ e.cell) || x.trailing != e.trailing).foldl (Tile.restamp t cl (d.allotted cl e)) (d.settled t cl e),
      d.taken cl e) := rfl

/-- An edge alone in its window takes what is free in its tick, and no other edge is stamped (R94, R95). -/
theorem arbitrate_alone {y : Edge} (h : (d.cluster cl).window y.bin = []) : d.arbitrate t cl y = (d.settled t cl y,
    chooseIp (d.ipFree y.tick cl (d.lockedAt cl) (d.ipDisabled cl false) false) (d.ipFree y.tick cl (d.lockedAt cl) (d.ipDisabled cl true) true)) := by
  have hplaced : d.placed cl y = [d.caught cl y] := by simp [Tile.placed, h]
  have hips : (d.rewound cl y).ips cl = d.ips cl := by simp [Tile.rewound, Tile.ips, h]
  have hl : d.allotted cl y = (d.allot cl [d.caught cl y]).2 := by
    rw [Tile.allotted, hplaced]
    exact allot_congr _ _ rfl _ _ hips
  rw [arbitrate_eq, h]
  refine Prod.ext rfl ?_
  simp [Tile.taken, hl, Tile.allot, Edge.same, Tile.caught]

end Sys2Proof.Machine
end

section
/-! SUPPORT. The start of a pulse (02 R54, R55; 03 R94 to R96, R101), and the obligation about leading edges. -/

namespace Sys2Proof.Machine

variable {s : State} {d e g : Tile} {t : Fin 4} {cl now : Nat} {c c' : BitVec 18} {fine fine' : BitVec 7}

/-! ### A cell starts a pulse -/

/-- The pulse that a leading edge starts, before the arbiter has stamped it (R55, R61). -/
def Tile.firstPulse (d : Tile) (c : BitVec 18) (now : Nat) (fine : BitVec 7) : Pulse :=
  let switched := d.slopeOn && (d.cell c.toNat).preSwitch
  { lead := d.count, leadAt := now, fine := fine, coarseOnly := false, ip := false
    gainLow := decide (d.cellGmode c.toNat = 2) || switched, switched := switched, calib := d.calib
    noPeak := (d.cell c.toNat).peakHeld }

/-- The leading edge as the arbiter takes it. -/
def Tile.leadEdge (d : Tile) (c : BitVec 18) (now : Nat) (fine : BitVec 7) : Edge :=
  { cell := c, trailing := false, tick := now, count := d.count, fine := fine, ip := none, pulse := d.firstPulse c now fine }

theorem startPulse_leading (h : d.slopeOn = false) : d.startPulse t c now fine =
    let r := d.arbitrate t (clusterOf c.toNat) (d.leadEdge c now fine)
    r.1.modCell c.toNat fun e => { e with phase := .pulse ((d.firstPulse c now fine).stamp fine r.2) } := if_neg (by simp [h])

theorem startPulse_return (h : d.slopeOn = true) : d.startPulse t c now fine =
    let r := d.arbitrate t (clusterOf c.toNat) (d.leadEdge c now fine)
    let p := (d.firstPulse c now fine).stamp fine r.2
    r.1.endPulse t c now (if fine = 0 then now else now + 1) p.noPeak (p.letter t c.toNat 0 0) := if_pos h

/-! ### New stamps leave the settings -/

theorem restamp_rstTicks (es : List Edge) (x : Edge) : (Tile.restamp t cl es d x).rstTicks = d.rstTicks := by
  unfold Tile.restamp
  split
  · rfl
  · split
    · split <;> rfl
    · rfl

theorem arbitrate_rstTicks (x : Edge) : (d.arbitrate t cl x).1.rstTicks = d.rstTicks := by
  have hs : (d.settled t cl x).rstTicks = d.rstTicks := (settled_edgesOnly x).field Tile.rstTicks fun _ _ _ _ => rfl
  rw [arbitrate_eq]
  dsimp only
  split
  · exact hs
  · refine Eq.trans ?_ hs
    generalize List.filter _ _ = l
    generalize d.settled t cl x = e
    induction l generalizing e with
    | nil => rfl
    | cons y l ih => exact (ih _).trans (restamp_rstTicks _ y)

/-! ### A pulse alone in its window -/

/-- The pulse of an edge alone in its window, as the cell holds it (R94, R96). -/
def Tile.alonePulse (d : Tile) (c : BitVec 18) (now : Nat) (fine : BitVec 7) : Pulse :=
  (d.firstPulse c now fine).stamp fine (d.allocate now (clusterOf c.toNat))

theorem startPulse_alone_eq (hs : d.slopeOn = false) (hw : (d.cluster (clusterOf c.toNat)).window (now * 128 + fine.toNat) = []) :
    d.startPulse t c now fine = (d.settled t (clusterOf c.toNat) (d.leadEdge c now fine)).modCell c.toNat fun x =>
      { x with phase := .pulse (d.alonePulse c now fine) } := by
  rw [startPulse_leading hs, arbitrate_alone (y := d.leadEdge c now fine) hw]
  rfl

/-- Of the cells an edge alone in its window changes its own alone, and no letter (R94, R95). -/
theorem startPulse_alone (hs : d.slopeOn = false) (hw : (d.cluster (clusterOf c.toNat)).window (now * 128 + fine.toNat) = []) :
    let e := d.startPulse t c now fine
    (e.cell c.toNat).phase = .pulse (d.alonePulse c now fine) ∧ otherCells d e c.toNat ∧ e.completing = d.completing := by
  intro e
  have hset := settled_edgesOnly (d := d) (t := t) (cl := clusterOf c.toNat) (d.leadEdge c now fine)
  obtain ⟨hcells, hcfg, hccfg⟩ := hset.otherCells c.toNat
  unfold e
  rw [startPulse_alone_eq hs hw]
  exact ⟨by simp, ⟨fun x hx => (cell_modCell_other _ hx).trans (hcells x hx), hcfg, hccfg⟩,
    hset.field Tile.completing fun _ _ _ _ => rfl⟩

/-- A pulse starts with the tick's stamp, coarse-only exactly where its fine code is left out (R94, R96). -/
theorem startPulse_spec (hs : d.slopeOn = false) : ∃ p, ((d.startPulse t c now fine).cell c.toNat).phase = .pulse p ∧ p.lead = d.count ∧ p.leadAt = now ∧
    ((d.cluster (clusterOf c.toNat)).window (now * 128 + fine.toNat) = [] → p.coarseOnly = (d.allocate now (clusterOf c.toNat)).isNone) ∧
    p.fine = (if p.coarseOnly then 0 else fine) ∧ p.calib = d.calib ∧ p.switched = false := by
  let r := d.arbitrate t (clusterOf c.toNat) (d.leadEdge c now fine)
  refine ⟨(d.firstPulse c now fine).stamp fine r.2, ?_, rfl, rfl, fun hw => ?_, ?_, rfl, ?_⟩
  · rw [startPulse_leading hs]
    simp [r]
  · exact congrArg Option.isNone (congrArg Prod.snd (arbitrate_alone (y := d.leadEdge c now fine) hw))
  · simp [Pulse.stamp]
  · simp [Pulse.stamp, Tile.firstPulse, hs]

/-! ### Two edges in one window -/

/-- Two edges in the arbiter's order of their cells (R95). -/
def Edge.pair (x y : Edge) : List Edge := if x.cell.toNat < y.cell.toNat then [x, y] else [y, x]

theorem pair_comm {x y : Edge} (h : x.cell ≠ y.cell) : Edge.pair x y = Edge.pair y x := by
  have hne : x.cell.toNat ≠ y.cell.toNat := fun k => h (BitVec.eq_of_toNat_eq k)
  unfold Edge.pair
  rcases Nat.lt_or_gt_of_ne hne with hlt | hgt
  · rw [if_pos hlt, if_neg (Nat.lt_asymm hlt)]
  · rw [if_neg (Nat.lt_asymm hgt), if_pos hgt]

theorem allot_pair (d : Tile) (cl : Nat) (x y : Edge) : ∃ i j, (d.allot cl (Edge.pair x y)).2 = Edge.pair { x with ip := i } { y with ip := j } := by
  unfold Edge.pair
  dsimp only
  split
  · exact ⟨_, _, rfl⟩
  · exact ⟨_, _, rfl⟩

/-- Of two leading edges of different cells, what is found for one cell and what is left beside it. -/
theorem pair_find {x y : Edge} (hx : x.trailing = false) (hy : y.trailing = false) (h : x.cell ≠ y.cell) :
    (Edge.pair x y).find? (·.same y) = some y ∧ (Edge.pair x y).filter (fun z => decide (z.cell ≠ y.cell) || z.trailing != y.trailing) = [x] := by
  unfold Edge.pair
  split <;> simp [Edge.same, hx, hy, h]

@[simp] theorem cluster_countBy (f : Fld) (n x : Nat) : (d.countBy t f n).cluster x = d.cluster x := rfl

/-- What the first of two edges leaves of its cluster: its window is open at its bin, and the interpolators from before are kept. -/
theorem settled_cluster_alone {x : Edge} (h : (d.cluster cl).window x.bin = []) :
    let k := (d.settled t cl x).cluster cl
    (∃ i, k.edges = [{ d.caught cl x with ip := i }]) ∧ k.openBin = x.bin ∧ k.base0 = (d.cluster cl).ip0 ∧ k.base1 = (d.cluster cl).ip1 := by
  intro k
  have hplaced : d.placed cl x = [d.caught cl x] := by simp [Tile.placed, h]
  have htake : ∀ ip, let q := ((d.rewound cl x).takeIp x.tick cl ip).cluster cl
      q.openBin = x.bin ∧ q.base0 = (d.cluster cl).ip0 ∧ q.base1 = (d.cluster cl).ip1 := by
    intro ip
    match ip with
    | none | some false | some true => simp [Tile.takeIp, Tile.rewound, h]
  obtain ⟨q, hk⟩ : ∃ q, k = { ((d.rewound cl x).allot cl [d.caught cl x]).1.cluster cl with edges := d.allotted cl x, tickEdges := q } := by
    unfold k Tile.settled
    simp only [hplaced, cluster_countBy, cluster_modCluster_same]
    exact ⟨_, rfl⟩
  refine ⟨?_, ?_⟩
  · rw [hk, Tile.allotted, hplaced]
    exact ⟨_, rfl⟩
  · rw [hk]
    exact htake _

/-- The stamps that two edges of one window take from the interpolators of `d` (R95). -/
def Tile.pairStamps (d : Tile) (cl : Nat) (x y : Edge) : List Edge := (d.allot cl (Edge.pair (d.caught cl x) (d.caught cl y))).2

theorem pairStamps_comm {x y : Edge} (h : x.cell ≠ y.cell) : d.pairStamps cl x y = d.pairStamps cl y x := by
  exact congrArg (fun l => (d.allot cl l).2) (pair_comm h)

/-- A second leading edge less than 4 bins from the first is allotted with it, from the interpolators as they stood before both (R95). -/
theorem allotted_second {x y : Edge} (h : (d.cluster cl).window x.bin = []) (hk : e.cluster cl = (d.settled t cl x).cluster cl)
    (hc : e.caught cl y = d.caught cl y) (hx : x.trailing = false) (hy : y.trailing = false) (h1 : x.bin < y.bin + 4) (h2 : y.bin < x.bin + 4) :
    ((e.cluster cl).window y.bin).isEmpty = false ∧ e.allotted cl y = d.pairStamps cl x y := by
  obtain ⟨⟨i, hedges⟩, hbin, hb0, hb1⟩ := settled_cluster_alone (d := d) (t := t) h
  have hwin : (e.cluster cl).window y.bin = [{ d.caught cl x with ip := i }] := by
    rw [hk, Cluster.window, hbin, if_pos ⟨h2, h1⟩, hedges]
  have hempty : ((e.cluster cl).window y.bin).isEmpty = false := by rw [hwin]; rfl
  have hips : (e.rewound cl y).ips cl = d.ips cl := by
    have hrew : (e.rewound cl y).cluster cl = { e.cluster cl with ip0 := (e.cluster cl).base0, ip1 := (e.cluster cl).base1 } := by
      rw [Tile.rewound, cluster_modCluster_same, hempty]
      rfl
    simp only [Tile.ips, hrew, hk, hb0, hb1]
  refine ⟨hempty, allot_congr _ _ ?_ _ _ hips⟩
  unfold Tile.placed Edge.pair
  rw [hwin, hc]
  by_cases hlt : x.cell.toNat < y.cell.toNat <;> simp [Edge.before, Edge.bare, Tile.caught, hx, hy, hlt]

/-- The stamp of a pulse among edges that have been allotted. -/
def Pulse.stampIn (p : Pulse) (fine : BitVec 7) (l : List Edge) (x : Edge) : Pulse := p.stamp fine ((l.find? (·.same x)).bind (·.ip))

/-- A pulse goes by its own cell, and by what a tile holds beside edges and cells. -/
theorem firstPulse_congr (h : edgesOnly d e cl) (f : Cell → Cell) (hc : c ≠ c') :
    (e.modCell c.toNat f).firstPulse c' now fine = d.firstPulse c' now fine := by
  have hne : c'.toNat ≠ c.toNat := fun k => hc (BitVec.eq_of_toNat_eq k.symm)
  have hcell : (e.modCell c.toNat f).cell c'.toNat = d.cell c'.toNat := (cell_modCell_other f hne).trans (h.cell _)
  have hg : (e.modCell c.toNat f).gmode (clusterOf c'.toNat) = d.gmode (clusterOf c'.toNat) :=
    h.field (Tile.gmode · (clusterOf c'.toNat)) fun _ _ _ _ => rfl
  have hmode : (e.modCell c.toNat f).cellGmode c'.toNat = d.cellGmode c'.toNat := by
    unfold Tile.cellGmode
    rw [hcell, hg]
  have hslope : (e.modCell c.toNat f).slopeOn = d.slopeOn := h.field Tile.slopeOn fun _ _ _ _ => rfl
  have hcount : (e.modCell c.toNat f).count = d.count := h.field Tile.count fun _ _ _ _ => rfl
  have hcalib : (e.modCell c.toNat f).calib = d.calib := h.field Tile.calib fun _ _ _ _ => rfl
  simp only [Tile.firstPulse, hcell, hmode, hslope, hcount, hcalib]

theorem restamp_leading (es : List Edge) {x : Edge} {p : Pulse} (ht : x.trailing = false) (hp : (d.cell x.cell.toNat).phase = .pulse p)
    (hl : p.lead = x.count) : Tile.restamp t cl es d x = d.modCell x.cell.toNat fun y => { y with phase := .pulse (p.stamp x.fine x.ip) } := by
  simp [Tile.restamp, ht, hp, hl]

/-- Two leading edges of one window take the stamps of their pair, whichever comes first (R95). -/
theorem startPulse_twice (hs : d.slopeOn = false) (hw : (d.cluster (clusterOf c.toNat)).window (now * 128 + fine.toNat) = []) (hc : c ≠ c')
    (hcl : clusterOf c.toNat = clusterOf c'.toNat) (h1 : fine.toNat < fine'.toNat + 4) (h2 : fine'.toNat < fine.toNat + 4) :
    let g := (d.startPulse t c now fine).startPulse t c' now fine'
    let x := d.leadEdge c now fine
    let y := d.leadEdge c' now fine'
    let l := d.pairStamps (clusterOf c.toNat) x y
    (g.cell c.toNat).phase = .pulse ((d.firstPulse c now fine).stampIn fine l x) ∧
      (g.cell c'.toNat).phase = .pulse ((d.firstPulse c' now fine').stampIn fine' l y) := by
  intro g x y l
  have hne : c.toNat ≠ c'.toNat := fun k => hc (BitVec.eq_of_toNat_eq k)
  have hset := settled_edgesOnly (d := d) (t := t) (cl := clusterOf c.toNat) x
  let e := (d.settled t (clusterOf c.toNat) x).modCell c.toNat fun z => { z with phase := .pulse (d.alonePulse c now fine) }
  have he : d.startPulse t c now fine = e := startPulse_alone_eq hs hw
  have hse : e.slopeOn = false := (hset.field Tile.slopeOn fun _ _ _ _ => rfl).trans hs
  have hfirst : e.firstPulse c' now fine' = d.firstPulse c' now fine' := firstPulse_congr hset _ hc
  have hedge : e.leadEdge c' now fine' = y := by
    have hcount : e.count = d.count := hset.field Tile.count fun _ _ _ _ => rfl
    simp only [Tile.leadEdge, hfirst, hcount, y]
  have hcaught : e.caught (clusterOf c.toNat) y = d.caught (clusterOf c.toNat) y := hset.caught _ _
  have hbins : x.bin < y.bin + 4 ∧ y.bin < x.bin + 4 := by
    simp only [Edge.bin, x, y, Tile.leadEdge]
    omega
  obtain ⟨hempty, hl⟩ := allotted_second (e := e) (t := t) (x := x) (y := y) hw rfl hcaught rfl rfl hbins.1 hbins.2
  obtain ⟨i, j, hij⟩ := allot_pair d (clusterOf c.toNat) (d.caught (clusterOf c.toNat) x) (d.caught (clusterOf c.toNat) y)
  let xi : Edge := { d.caught (clusterOf c.toNat) x with ip := i }
  let yj : Edge := { d.caught (clusterOf c.toNat) y with ip := j }
  have hlp : l = Edge.pair xi yj := hij
  obtain ⟨hrest, hfind⟩ : l.filter (fun z => decide (z.cell ≠ y.cell) || z.trailing != y.trailing) = [xi] ∧ l.find? (·.same x) = some xi := by
    obtain ⟨-, hrest⟩ := pair_find (x := xi) (y := yj) rfl rfl hc
    obtain ⟨hfind, -⟩ := pair_find (x := yj) (y := xi) rfl rfl hc.symm
    rw [hlp]
    exact ⟨hrest, (congrArg (List.find? _) (pair_comm hc)).trans hfind⟩
  have hg : g = (Tile.restamp t (clusterOf c.toNat) l (e.settled t (clusterOf c.toNat) y) xi).modCell c'.toNat fun z =>
      { z with phase := .pulse ((d.firstPulse c' now fine').stampIn fine' l y) } := by
    unfold g
    rw [he, startPulse_leading hse, ← hcl, hedge, hfirst, arbitrate_eq, hempty, Tile.taken, hl, hrest]
    rfl
  have hphase : ((e.settled t (clusterOf c.toNat) y).cell c.toNat).phase = .pulse (d.alonePulse c now fine) := by
    rw [(settled_edgesOnly y).cell]
    simp [e]
  have hstamp : (d.firstPulse c now fine).stampIn fine l x = (d.alonePulse c now fine).stamp fine i := by
    rw [Pulse.stampIn, hfind]
    rfl
  rw [hg, restamp_leading (x := xi) l rfl hphase rfl, hstamp]
  refine ⟨?_, by simp⟩
  rw [cell_modCell_other _ hne]
  exact congrArg Cell.phase (cell_modCell_same _ _)

/-- A command that changes a tile leaves the tile that it computes. -/
theorem onlyTile_of {x : Instr} {f : Tile → Tile} {P : Tile → Prop} (hx : exec x s = .next (s.modTile t f)) (hf : f (s.tile t) = e) (h : P e) :
    onlyTile x s t P := ⟨e, hx.trans (by rw [modTile_const, hf]), h⟩

/-- A command that leaves the tile as it is changes nothing. -/
theorem next_of_sameTile {x : Instr} {f : Tile → Tile} (hx : exec x s = .next (s.modTile t f)) (hf : f (s.tile t) = s.tile t) :
    exec x s = .next s := hx.trans (by rw [modTile_const, hf]; simp [State.modTile, State.tile])

theorem leadingEdge_accepted (h : (s.tile t).accepts s.now c = true) :
    exec (.leadingEdge t c fine) s = .next (s.modTile t fun _ => (s.tile t).startPulse t c s.now fine) :=
  congrArg Host.Outcome.next (congrArg (fun e => s.modTile t fun _ => e) (if_pos h))

/-- A cell takes an edge or not whatever another cell and the edges of a cluster hold. -/
theorem accepts_congr (h : edgesOnly d e cl) (f : Cell → Cell) (hc : c ≠ c') (n : Nat) :
    (e.modCell c.toNat f).accepts n c' = d.accepts n c' := by
  have hne : c'.toNat ≠ c.toNat := fun k => hc (BitVec.eq_of_toNat_eq k.symm)
  have hcell : (e.modCell c.toNat f).cell c'.toNat = d.cell c'.toNat := (cell_modCell_other f hne).trans (h.cell _)
  have hword : (e.modCell c.toNat f).cellWord c'.toNat = d.cellWord c'.toNat := h.field (Tile.cellWord · c'.toNat) fun _ _ _ _ => rfl
  have hreset : (e.modCell c.toNat f).inReset = d.inReset := h.field Tile.inReset fun _ _ _ _ => rfl
  have hquiet : (e.modCell c.toNat f).quiet = d.quiet := h.field Tile.quiet fun _ _ _ _ => rfl
  have hblank : (e.modCell c.toNat f).blankUntil = d.blankUntil := h.field Tile.blankUntil fun _ _ _ _ => rfl
  simp only [Tile.accepts, Tile.blanked, hcell, hword, hreset, hquiet, hblank]

/-- Two edges that come one after the other, each alone in its window before: the phases of their cells (R95). -/
theorem leadingEdge_twice {u u' : State} (hc : c ≠ c') (hcl : clusterOf c.toNat = clusterOf c'.toNat) (ha : (s.tile t).accepts s.now c = true)
    (ha' : (s.tile t).accepts s.now c' = true) (hs : (s.tile t).slopeOn = false) (hw : alone s t c fine) (h1 : fine.toNat < fine'.toNat + 4)
    (h2 : fine'.toNat < fine.toNat + 4) (hu : exec (.leadingEdge t c fine) s = .next u) (hu' : exec (.leadingEdge t c' fine') u = .next u') :
    let d := s.tile t
    let x := d.leadEdge c s.now fine
    let y := d.leadEdge c' s.now fine'
    let l := d.pairStamps (clusterOf c.toNat) x y
    ((u'.tile t).cell c.toNat).phase = .pulse ((d.firstPulse c s.now fine).stampIn fine l x) ∧
      ((u'.tile t).cell c'.toNat).phase = .pulse ((d.firstPulse c' s.now fine').stampIn fine' l y) := by
  obtain rfl := Host.Outcome.next.inj ((leadingEdge_accepted ha).symm.trans hu)
  have htile : (s.modTile t fun _ => (s.tile t).startPulse t c s.now fine).tile t = (s.tile t).startPulse t c s.now fine := modTile_tile_same _
  have hacc : ((s.modTile t fun _ => (s.tile t).startPulse t c s.now fine).tile t).accepts s.now c' = true := by
    rw [htile, startPulse_alone_eq hs hw, accepts_congr (settled_edgesOnly _) _ hc]
    exact ha'
  obtain rfl := Host.Outcome.next.inj ((leadingEdge_accepted hacc).symm.trans hu')
  rw [modTile_tile_same, htile]
  exact startPulse_twice hs hw hc hcl h1 h2

/-- With the return crossing the reset switch closes at once, and an edge alone in its window changes of other cells at most the peak hold
(R43, R101). -/
theorem startPulse_return_spec (hs : d.slopeOn = true) :
    let e := d.startPulse t c now fine
    (e.cell c.toNat).phase = .resetClosed ((if fine = 0 then now else now + 1) + d.rstTicks.toNat) ∧
      ((d.cluster (clusterOf c.toNat)).window (now * 128 + fine.toNat) = [] → otherTiming d e c.toNat) := by
  intro e
  let r := d.arbitrate t (clusterOf c.toNat) (d.leadEdge c now fine)
  let p := (d.firstPulse c now fine).stamp fine r.2
  obtain ⟨hphase, hcells, hcfg, hccfg⟩ := endPulse_spec (d := r.1) (t := t) c now (if fine = 0 then now else now + 1) p.noPeak (p.letter t c.toNat 0 0)
  rw [arbitrate_rstTicks] at hphase
  have he : e = r.1.endPulse t c now (if fine = 0 then now else now + 1) p.noPeak (p.letter t c.toNat 0 0) := startPulse_return hs
  rw [he]
  refine ⟨hphase, fun hw => ?_⟩
  have hr : r.1 = d.settled t (clusterOf c.toNat) (d.leadEdge c now fine) := congrArg Prod.fst (arbitrate_alone (y := d.leadEdge c now fine) hw)
  obtain ⟨hset, hscfg, hsccfg⟩ := (settled_edgesOnly (d := d) (t := t) (cl := clusterOf c.toNat) (d.leadEdge c now fine)).otherCells c.toNat
  exact ⟨fun x hx => (hcells x hx).trans (by rw [hr, hset x hx]), hcfg.trans (by rw [hr, hscfg]), hccfg.trans (by rw [hr, hsccfg])⟩

/-- Settles O7: an accepted edge by the arbiter's lemmas, two edges of one window by the stamps of their pair. -/
theorem leadingEdgeStartsPulse : Obligations.LeadingEdgeStartsPulse := by
  intro s t c fine
  refine ⟨fun ha hs => ⟨_, leadingEdge_accepted ha, startPulse_spec hs, fun hw => (startPulse_alone hs hw).2⟩,
    fun ha hs => ⟨_, leadingEdge_accepted ha, startPulse_return_spec hs⟩,
    fun c' fine' u v u' v' hc hcl ha ha' hs hw hw' h1 h2 hu hu' hv hv' => ?_, fun ha => next_of_sameTile rfl (if_neg (by simp [ha]))⟩
  obtain ⟨hx, hy⟩ := leadingEdge_twice hc hcl ha ha' hs hw h1 h2 hu hu'
  obtain ⟨hy', hx'⟩ := leadingEdge_twice hc.symm hcl.symm ha' ha hs hw' h2 h1 hv hv'
  rw [← hcl, pairStamps_comm (x := (s.tile t).leadEdge c' s.now fine') (y := (s.tile t).leadEdge c s.now fine) hc.symm] at hx' hy'
  exact ⟨hx.trans hx'.symm, hy.trans hy'.symm⟩

end Sys2Proof.Machine
end

section
/-! SUPPORT. The end of a pulse (02 R45, R56; 03 R99), and its obligation. -/

namespace Sys2Proof.Machine

variable {s : State} {d e : Tile} {t : Fin 4} {cl now b : Nat} {c : BitVec 18} {fine : BitVec 7} {p : Pulse} {l : Letter}

/-- An idle SAR that converts takes the request of a pulse that ends (R45, R46). -/
theorem endPulse_converts (hp : cfgPeakEn (d.cellWord c.toNat) = true) (hs : d.sarOn (clusterOf c.toNat) = true)
    (hc : (d.cluster (clusterOf c.toNat)).conv = none) : ((d.endPulse t c now b false l).cluster (clusterOf c.toNat)).conv =
      some { cell := c, letter := l, raisedAt := b, startAt := b, sampled := false } := by
  let d' := d.modCell c.toNat fun e => { e with phase := .resetClosed (b + d.rstTicks.toNat) }
  have hend : d.endPulse t c now b false l = d'.request t (clusterOf c.toNat) { cell := c, letter := l, raisedAt := b } := by
    unfold Tile.endPulse
    dsimp only
    rw [if_neg (by rw [show d'.cellWord c.toNat = d.cellWord c.toNat from rfl, hp]; decide),
      if_neg (by rw [show d'.sarOn (clusterOf c.toNat) = d.sarOn (clusterOf c.toNat) from rfl, hs]; decide), if_neg Bool.false_ne_true]
  have hconv : (d'.cluster (clusterOf c.toNat)).conv = none := hc
  simp [hend, Tile.request, hconv, Tile.convert]

/-- The trailing edge of a pulse as the arbiter takes it. -/
def Tile.trailEdge (d : Tile) (c : BitVec 18) (now : Nat) (p : Pulse) (fine : BitVec 7) : Edge :=
  { cell := c, trailing := true, tick := now, count := d.count, fine := fine, ip := none, pulse := p }

/-- A trailing edge ends the pulse at the tick boundary at or after it; alone in its window it leaves the stamp of the pulse (R94, R96). -/
theorem trail_of_early (hp : (d.cell c.toNat).phase = .pulse p) (h : now < p.leadAt + 1024) : ∃ np l,
    d.trail t c now p fine =
      (d.arbitrate t (clusterOf c.toNat) (d.trailEdge c now p fine)).1.endPulse t c now (if fine = 0 then now else now + 1) np l ∧
    ((d.cluster (clusterOf c.toNat)).window (now * 128 + fine.toNat) = [] → np = p.noPeak ∧ l.lead = p.lead ∧ l.fine = p.fine) := by
  refine ⟨_, _, if_neg (Nat.not_le.2 h), fun hw => ?_⟩
  have hr := arbitrate_alone (t := t) (y := d.trailEdge c now p fine) hw
  have hphase : ((d.arbitrate t (clusterOf c.toNat) (d.trailEdge c now p fine)).1.cell c.toNat).phase = .pulse p := by
    rw [hr, (settled_edgesOnly _).cell, hp]
  unfold Tile.trailEdge at hphase
  simp only [hphase]
  exact ⟨trivial, rfl, rfl⟩

/-- All that a trailing edge of a pulse does to its cell, and alone in its window to the others (R45, R99). -/
theorem trail_spec (hp : (d.cell c.toNat).phase = .pulse p) (h : now < p.leadAt + 1024) :
    let e := d.trail t c now p fine
    let b := if fine = 0 then now else now + 1
    (e.cell c.toNat).phase = .resetClosed (b + d.rstTicks.toNat) ∧
      ((d.cluster (clusterOf c.toNat)).window (now * 128 + fine.toNat) = [] → otherTiming d e c.toNat ∧
        (cfgPeakEn (d.cellWord c.toNat) = true → d.sarOn (clusterOf c.toNat) = true → p.noPeak = false →
          (d.cluster (clusterOf c.toNat)).conv = none → ∃ l : Letter, l.lead = p.lead ∧ l.fine = p.fine ∧
            (e.cluster (clusterOf c.toNat)).conv = some { cell := c, letter := l, raisedAt := b, startAt := b, sampled := false })) := by
  intro e b
  obtain ⟨np, l, he, hl⟩ := trail_of_early (t := t) (fine := fine) hp h
  let r := (d.arbitrate t (clusterOf c.toNat) (d.trailEdge c now p fine)).1
  have he : e = r.endPulse t c now b np l := he
  obtain ⟨hphase, hcells, hcfg, hccfg⟩ := endPulse_spec (d := r) (t := t) c now b np l
  rw [arbitrate_rstTicks] at hphase
  rw [he]
  refine ⟨hphase, fun hw => ?_⟩
  have hr : r = d.settled t (clusterOf c.toNat) (d.trailEdge c now p fine) :=
    congrArg Prod.fst (arbitrate_alone (y := d.trailEdge c now p fine) hw)
  have hset : edgesOnly d r (clusterOf c.toNat) := hr ▸ settled_edgesOnly _
  obtain ⟨hocells, hocfg, hoccfg⟩ := hset.otherCells c.toNat
  obtain ⟨rfl, hlead, hfine⟩ := hl hw
  refine ⟨⟨fun x hx => (hcells x hx).trans (by rw [hocells x hx]), hcfg.trans hocfg, hccfg.trans hoccfg⟩, fun hpk hsar hnp hconv => ?_⟩
  rw [hnp]
  exact ⟨l, hlead, hfine, endPulse_converts ((hset.field (fun d => cfgPeakEn (d.cellWord c.toNat)) fun _ _ _ _ => rfl).trans hpk)
    ((hset.field (Tile.sarOn · (clusterOf c.toNat)) fun _ _ _ _ => rfl).trans hsar)
    ((hset.clusterField Cluster.conv (fun _ _ _ _ _ _ _ _ => rfl) _).trans hconv)⟩

/-- A pulse ends at its 1,024th tick (R56). -/
theorem saturate_spec : let e := d.saturate t c now p
    (e.cell c.toNat).phase = .resetClosed (now + d.rstTicks.toNat) ∧ otherTiming d e c.toNat :=
  endPulse_spec (d := d.countUp t F.SORT_FE_CNT_TOTSAT_COUNT) (t := t) c now now p.noPeak (p.letter t c.toNat 0x1FFFF 0)

/-- What a trailing edge meets: a pulse that it ends, a cell on which it is an orphan, or neither (R99). -/
def Tile.trailed (d : Tile) (t : Fin 4) (c : BitVec 18) (now : Nat) (fine : BitVec 7) : Tile :=
  match (d.cell c.toNat).phase with
  | .pulse p => d.trail t c now p fine
  | _ =>
    if d.accepts now c && !d.slopeOn then
      (d.countUp t F.SORT_TE_CNT_ORPHAN_COUNT).modCell c.toNat fun e => { e with phase := .resetClosed ((if fine = 0 then now else now + 1) + d.rstTicks.toNat) }
    else d

theorem exec_trailingEdge : exec (.trailingEdge t c fine) s = .next (s.modTile t fun d => d.trailed t c s.now fine) := rfl

theorem trailed_of_pulse (h : (d.cell c.toNat).phase = .pulse p) : d.trailed t c now fine = d.trail t c now p fine := by
  simp [Tile.trailed, h]

theorem trailed_of_noPulse (h : ∀ q, (d.cell c.toNat).phase ≠ .pulse q) : d.trailed t c now fine =
    if d.accepts now c && !d.slopeOn then
      (d.countUp t F.SORT_TE_CNT_ORPHAN_COUNT).modCell c.toNat fun e => { e with phase := .resetClosed ((if fine = 0 then now else now + 1) + d.rstTicks.toNat) }
    else d := by
  unfold Tile.trailed
  split
  next hp => exact absurd hp (h _)
  next => rfl

/-- A cell that takes an edge is armed (R54). -/
theorem idle_of_accepts (h : d.accepts now c = true) : (d.cell c.toNat).phase = .idle := by
  simp only [Tile.accepts, Bool.and_eq_true, decide_eq_true_eq] at h
  exact h.1.1.2

/-- An orphan edge is counted and closes the reset switch (R99). -/
theorem orphan_spec (ha : d.accepts now c = true) (hs : d.slopeOn = false) : let e := d.trailed t c now fine
    regGet e.cnt F.SORT_TE_CNT_ORPHAN_COUNT t.val 0 = min (regGet d.cnt F.SORT_TE_CNT_ORPHAN_COUNT t.val 0 + 1) 0xFFFFFFFF ∧
      (e.cell c.toNat).phase = .resetClosed ((if fine = 0 then now else now + 1) + d.rstTicks.toNat) ∧
      e.completing = d.completing ∧ otherCells d e c.toNat := by
  intro e
  have hidle := idle_of_accepts ha
  have he : e = (d.countUp t F.SORT_TE_CNT_ORPHAN_COUNT).modCell c.toNat fun e =>
      { e with phase := .resetClosed ((if fine = 0 then now else now + 1) + d.rstTicks.toNat) } :=
    (trailed_of_noPulse fun q hq => by simp [hidle] at hq).trans (if_pos (by simp [ha, hs]))
  rw [he]
  exact ⟨countUp_reads _, by simp, rfl, fun x hx => cell_modCell_other _ hx, rfl, rfl⟩

/-- What the saturation of a pulse makes of a tile (R56). -/
def Tile.saturated (d : Tile) (t : Fin 4) (c : BitVec 18) (now : Nat) : Tile :=
  match (d.cell c.toNat).phase with
  | .pulse p => if p.leadAt + 1024 ≤ now then d.saturate t c now p else d
  | _ => d

theorem exec_totSaturation : exec (.totSaturation t c) s = .next (s.modTile t fun d => d.saturated t c s.now) := rfl

theorem saturated_of_pulse (h : (d.cell c.toNat).phase = .pulse p) :
    d.saturated t c now = if p.leadAt + 1024 ≤ now then d.saturate t c now p else d := by simp [Tile.saturated, h]

/-- Settles O8: the end of a pulse by what it leaves of the tile, an orphan by its count. -/
theorem pulseEndClosesReset : Obligations.PulseEndClosesReset := by
  intro s t c fine p
  refine ⟨fun hp h => ⟨onlyTile_of exec_trailingEdge (trailed_of_pulse hp) (trail_spec hp h), ?_⟩, fun hp h => ?_, fun ha hs => ?_, fun hn ha => ?_⟩
  · exact next_of_sameTile exec_totSaturation ((saturated_of_pulse hp).trans (if_neg (Nat.not_le.2 h)))
  · exact onlyTile_of exec_totSaturation ((saturated_of_pulse hp).trans (if_pos h)) saturate_spec
  · exact onlyTile_of exec_trailingEdge rfl (orphan_spec ha hs)
  · exact next_of_sameTile exec_trailingEdge ((trailed_of_noPulse hn).trans (if_neg (by simp [ha])))

end Sys2Proof.Machine
end

section
/-! SUPPORT. The timing path of a cell (02 R36, R38, R40, R44, R50, R100), and its obligation. -/

namespace Sys2Proof.Machine

variable {s : State} {d : Tile} {t : Fin 4} {now u : Nat} {c : BitVec 18} {fine : BitVec 7} {p : Pulse}

theorem modCell_cellOnly (c : Nat) (f : Cell → Cell) : cellOnly d (d.modCell c f) c := ⟨rfl, fun _ hx => cell_modCell_other f hx⟩

/-! ### GAIN_SWITCH -/

/-- What a gain switch makes of a tile (R38, R43). -/
def Tile.gainSwitched (d : Tile) (now : Nat) (c : BitVec 18) : Tile :=
  match (d.cell c.toNat).phase with
  | .pulse p =>
    if d.cellGmode c.toNat = 0 then d.modCell c.toNat fun e => { e with phase := .pulse { p with gainLow := true, switched := true } } else d
  | .idle =>
    if d.slopeOn && d.accepts now c && decide (d.cellGmode c.toNat = 0) then d.modCell c.toNat fun e => { e with preSwitch := true } else d
  | _ => d

theorem exec_gainSwitch : exec (.gainSwitch t c) s = .next (s.modTile t fun d => d.gainSwitched s.now c) := rfl

theorem gainSwitched_of_pulse (h : (d.cell c.toNat).phase = .pulse p) : d.gainSwitched now c =
    if d.cellGmode c.toNat = 0 then d.modCell c.toNat fun e => { e with phase := .pulse { p with gainLow := true, switched := true } } else d := by
  simp [Tile.gainSwitched, h]

/-! ### RESET_SWITCH_OPEN and CELL_REARM -/

/-- What the opening of a cell's reset switch makes of a tile (R36, R40, R50). -/
def Tile.switchOpened (d : Tile) (now : Nat) (c : BitVec 18) : Tile :=
  match (d.cell c.toNat).phase with
  | .resetClosed u =>
    if u ≤ now then d.modCell c.toNat fun e => { e with phase := .recovering (u + 12), keepMode := none, preSwitch := false } else d
  | _ => d

theorem exec_resetSwitchOpen : exec (.resetSwitchOpen t c) s = .next (s.modTile t fun d => d.switchOpened s.now c) := rfl

theorem switchOpened_of_closed (h : (d.cell c.toNat).phase = .resetClosed u) (hu : u ≤ now) :
    d.switchOpened now c = d.modCell c.toNat fun e => { e with phase := .recovering (u + 12), keepMode := none, preSwitch := false } := by
  simp [Tile.switchOpened, h, hu]

/-- The tile whose cell has re-armed. -/
def Tile.rearmed (d : Tile) (c : BitVec 18) : Tile := d.modCell c.toNat fun e => { e with phase := .idle }

/-- What the end of a cell's recovery makes of a tile (R36, R100). -/
def Tile.recovered (d : Tile) (t : Fin 4) (c : BitVec 18) (above : Bool) (now : Nat) (fine : BitVec 7) : Tile :=
  match (d.cell c.toNat).phase with
  | .recovering u =>
    if u ≤ now then if above && (d.rearmed c).accepts now c then (d.rearmed c).startPulse t c now fine else d.rearmed c else d
  | _ => d

theorem exec_cellRearm (above : Bool) : exec (.cellRearm t c above fine) s = .next (s.modTile t fun d => d.recovered t c above s.now fine) := rfl

theorem recovered_of_ended (above : Bool) (h : (d.cell c.toNat).phase = .recovering u) (hu : u ≤ now) : d.recovered t c above now fine =
    if above && (d.rearmed c).accepts now c then (d.rearmed c).startPulse t c now fine else d.rearmed c := by
  simp [Tile.recovered, h, hu]

/-- A cell that has re-armed takes an edge where the tile runs and its discriminator is enabled and not blanked (R54, R62, R63). -/
theorem accepts_rearmed (hr : d.inReset = false) (hq : d.quiet = false) (hd : cfgDiscEn (d.cellWord c.toNat) = true)
    (hb : d.blanked now c.toNat = false) : (d.rearmed c).accepts now c = true := by
  have hblank : (d.rearmed c).blanked now c.toNat = false := by
    rw [← hb]
    simp [Tile.blanked, Tile.rearmed]
    rfl
  have hword : cfgDiscEn ((d.rearmed c).cellWord c.toNat) = true := hd
  have hreset : (d.rearmed c).inReset = false := hr
  have hquiet : (d.rearmed c).quiet = false := hq
  have hidle : ((d.rearmed c).cell c.toNat).phase = .idle := by simp [Tile.rearmed]
  simp [Tile.accepts, hblank, hword, hreset, hquiet, hidle]

/-- A cell that is above threshold when it re-arms starts a hit at once (R100). -/
theorem startPulse_rearmed (hs : d.slopeOn = false) : let e := (d.rearmed c).startPulse t c now fine
    (∃ q, (e.cell c.toNat).phase = .pulse q ∧ q.lead = d.count ∧ q.leadAt = now) ∧
      ((d.cluster (clusterOf c.toNat)).window (now * 128 + fine.toNat) = [] → otherCells d e c.toNat) := by
  intro e
  obtain ⟨q, hq, hlead, hat, -⟩ := startPulse_spec (d := d.rearmed c) (t := t) (c := c) (now := now) (fine := fine) hs
  refine ⟨⟨q, hq, hlead, hat⟩, fun hw => ?_⟩
  obtain ⟨-, ⟨hcells, hcfg, hccfg⟩, -⟩ := startPulse_alone (d := d.rearmed c) (t := t) (c := c) (now := now) (fine := fine) hs hw
  exact ⟨fun x hx => (hcells x hx).trans (cell_modCell_other _ hx), hcfg, hccfg⟩

/-! ### BLANKING_END -/

/-- What the end of blanking makes of a tile (R44, R100). -/
def Tile.unblanked (d : Tile) (now : Nat) (c : BitVec 18) : Tile :=
  let d := if d.blankUntil.any fun u => u ≤ now then { d with blankUntil := none } else d
  if (d.cell c.toNat).blankUntil.any fun u => u ≤ now then d.modCell c.toNat fun e => { e with blankUntil := none } else d

theorem exec_blankingEnd : exec (.blankingEnd t c) s = .next (s.modTile t fun d => d.unblanked s.now c) := rfl

theorem unblanked_of_cell (ht : d.blankUntil = none) (hc : (d.cell c.toNat).blankUntil = some u) (hu : u ≤ now) :
    d.unblanked now c = d.modCell c.toNat fun e => { e with blankUntil := none } := by
  simp [Tile.unblanked, ht, hc, hu]

/-- Settles O9: each command by what it makes of the tile; a hit at re-arming by the rules of a leading edge. -/
theorem cellTimingPath : Obligations.CellTimingPath := by
  intro s t c fine p u
  refine ⟨fun hp => ⟨fun hg => ?_, fun hg => ?_⟩, fun hp hu => ?_, fun hp hu => ⟨?_, fun hr hq hd hb hs => ?_⟩, fun ht hc hu => ?_⟩
  · exact onlyTile_of exec_gainSwitch ((gainSwitched_of_pulse hp).trans (if_pos hg)) ⟨by simp, modCell_cellOnly _ _⟩
  · exact next_of_sameTile exec_gainSwitch ((gainSwitched_of_pulse hp).trans (if_neg hg))
  · exact onlyTile_of exec_resetSwitchOpen (switchOpened_of_closed hp hu) ⟨by simp, by simp, modCell_cellOnly _ _⟩
  · exact onlyTile_of (exec_cellRearm false) (recovered_of_ended false hp hu) ⟨by simp [Tile.rearmed], modCell_cellOnly _ _⟩
  · have hacc := accepts_rearmed hr hq hd hb
    exact onlyTile_of (exec_cellRearm true) ((recovered_of_ended true hp hu).trans (if_pos (by simp [hacc]))) (startPulse_rearmed hs)
  · exact onlyTile_of exec_blankingEnd (unblanked_of_cell ht hc hu) ⟨by simp, by simp, modCell_cellOnly _ _⟩

end Sys2Proof.Machine
end

section
/-! SUPPORT. Conversions and interpolators (02 R45, R46, R49, R57; 03 R87), the voted latches (02 R66; 04 R162), and their obligations. -/

namespace Sys2Proof.Machine

variable {s : State} {d : Tile} {t : Fin 4} {now u : Nat} {cl : BitVec 14} {raw : BitVec 12} {v : Conversion}

/-! ### Conversions -/

/-- What the end of a sampling makes of a tile (R45). -/
def Tile.sampledAt (d : Tile) (now : Nat) (cl : BitVec 14) : Tile :=
  match (d.cluster cl.toNat).conv with
  | some v =>
    if v.startAt + 192 ≤ now ∧ v.sampled = false then
      (d.modCluster cl.toNat fun k => { k with conv := some { v with sampled := true } }).modCell v.cell.toNat fun e => { e with peakHeld := false }
    else d
  | none => d

theorem exec_sarSamplingEnd : exec (.sarSamplingEnd t cl) s = .next (s.modTile t fun d => d.sampledAt s.now cl) := rfl

theorem sampledAt_of_conv (h : (d.cluster cl.toNat).conv = some v) : d.sampledAt now cl =
    if v.startAt + 192 ≤ now ∧ v.sampled = false then
      (d.modCluster cl.toNat fun k => { k with conv := some { v with sampled := true } }).modCell v.cell.toNat fun e => { e with peakHeld := false }
    else d := by
  simp [Tile.sampledAt, h]

/-- The letter that a conversion of a cluster ends with (R49, R50). -/
def Conversion.result (v : Conversion) (settle : Nat) (raw : BitVec 12) : Letter :=
  { v.letter with amp := ampOf raw, flags := if settle = 0 then v.letter.flags else v.letter.flags ||| BitVec.ofNat 7 flagSettling }

/-- The tile whose peak hold the ended conversion no longer needs. -/
def Tile.unheld (d : Tile) (v : Conversion) : Tile := if v.sampled then d else d.modCell v.cell.toNat fun e => { e with peakHeld := false }

/-- The cluster whose next request starts to convert (R46). -/
def Cluster.nextConv (k : Cluster) (now : Nat) : Cluster :=
  { k with
    settle := k.settle - 1
    conv := k.waiting.head?.map fun r => { cell := r.cell, letter := r.letter, raisedAt := r.raisedAt, startAt := now, sampled := false }
    waiting := k.waiting.tail }

/-- What the end of a conversion makes of a tile (R46, R49, R57). -/
def Tile.convertedAt (d : Tile) (now : Nat) (cl : BitVec 14) (raw : BitVec 12) : Tile :=
  match (d.cluster cl.toNat).conv with
  | some v =>
    if v.startAt + 1536 ≤ now then
      ((d.unheld v).modCluster cl.toNat fun k => k.nextConv now).complete v.cell (now + 8) (v.result (d.cluster cl.toNat).settle raw)
    else d
  | none => d

theorem exec_sarConversionEnd : exec (.sarConversionEnd t cl raw) s = .next (s.modTile t fun d => d.convertedAt s.now cl raw) := rfl

theorem convertedAt_of_conv (h : (d.cluster cl.toNat).conv = some v) : d.convertedAt now cl raw =
    if v.startAt + 1536 ≤ now then
      ((d.unheld v).modCluster cl.toNat fun k => k.nextConv now).complete v.cell (now + 8) (v.result (d.cluster cl.toNat).settle raw)
    else d := by
  simp [Tile.convertedAt, h]

/-- A converted amplitude is 1 or more (R49). -/
theorem ampOf_ne_zero (raw : BitVec 12) : ampOf raw ≠ 0 := by
  unfold ampOf
  split
  · decide
  · assumption

/-- Giving up a peak hold touches its own cell alone. -/
theorem unheld_spec (d : Tile) (v : Conversion) : otherCells d (d.unheld v) v.cell.toNat ∧ (d.unheld v).completing = d.completing ∧
    ∀ x, (d.unheld v).cluster x = d.cluster x := by
  unfold Tile.unheld
  split
  · exact ⟨⟨fun _ _ => rfl, rfl, rfl⟩, rfl, fun _ => rfl⟩
  · exact ⟨⟨fun _ hx => cell_modCell_other _ hx, rfl, rfl⟩, rfl, fun _ => rfl⟩

/-- An ended conversion: its letter waits for completion, and the waiting request starts (R46, R49, R57). -/
theorem converted_spec (d : Tile) (cl : BitVec 14) (v : Conversion) (raw : BitVec 12) (settle : Nat) :
    let e := ((d.unheld v).modCluster cl.toNat fun k => k.nextConv now).complete v.cell (now + 8) (v.result settle raw)
    (∃ l : Letter, e.completing = d.completing ++ [(v.cell, now + 8, l)] ∧ l.amp ≠ 0 ∧ (raw ≠ 0 → l.amp = raw) ∧ l.channel = v.letter.channel ∧
      l.tot = v.letter.tot ∧ l.lead = v.letter.lead ∧ l.fine = v.letter.fine) ∧
    (e.cluster cl.toNat).conv = ((d.cluster cl.toNat).waiting.head?.map fun r =>
      { cell := r.cell, letter := r.letter, raisedAt := r.raisedAt, startAt := now, sampled := false }) ∧
    (e.cluster cl.toNat).waiting = (d.cluster cl.toNat).waiting.tail ∧ otherCells d e v.cell.toNat := by
  intro e
  obtain ⟨hcells, hcompl, hcl⟩ := unheld_spec d v
  have hk : e.cluster cl.toNat = (d.cluster cl.toNat).nextConv now := by
    rw [← hcl]
    exact cluster_modCluster_same (d := d.unheld v) cl.toNat fun k => k.nextConv now
  refine ⟨⟨v.result settle raw, ?_, ampOf_ne_zero raw, fun hr => if_neg hr, rfl, rfl, rfl, rfl⟩, by rw [hk]; rfl, by rw [hk]; rfl, hcells⟩
  rw [← hcompl]
  rfl

/-! ### Interpolators -/

/-- What the release of an interpolator makes of a tile (R87). -/
def Tile.released (d : Tile) (now : Nat) (cl : BitVec 14) (ip : Bool) : Tile :=
  match (if ip then (d.cluster cl.toNat).ip1 else (d.cluster cl.toNat).ip0) with
  | .busy u => if u ≤ now then d.modCluster cl.toNat fun k => if ip then { k with ip1 := .free u } else { k with ip0 := .free u } else d
  | .free _ => d

theorem exec_interpolatorRelease (ip : Bool) : exec (.interpolatorRelease t cl ip) s = .next (s.modTile t fun d => d.released s.now cl ip) := rfl

theorem released_of_busy (ip : Bool) (h : (if ip then (d.cluster cl.toNat).ip1 else (d.cluster cl.toNat).ip0) = .busy u) (hu : u ≤ now) :
    d.released now cl ip = d.modCluster cl.toNat fun k => if ip then { k with ip1 := .free u } else { k with ip0 := .free u } := by
  unfold Tile.released
  rw [h]
  exact if_pos hu

theorem modCluster_clusterOnly (x : Nat) (f : Cluster → Cluster) : clusterOnly d (d.modCluster x f) x :=
  ⟨rfl, fun _ hx => cluster_modCluster_other f hx⟩

/-- Settles O10: each command by what it makes of the tile. -/
theorem conversionsAndInterpolators : Obligations.ConversionsAndInterpolators := by
  intro s t cl raw v u
  refine ⟨fun hv hs ht => ?_, fun hv ht => ?_, fun hv ht => ⟨?_, ?_⟩, fun hb hu => ?_, fun hb hu => ?_⟩
  · refine onlyTile_of exec_sarSamplingEnd ((sampledAt_of_conv hv).trans (if_pos ⟨ht, hs⟩)) ⟨by simp, by simp, by simp, ?_⟩
    exact ⟨fun _ hx => cell_modCell_other _ hx, rfl, rfl⟩
  · exact onlyTile_of exec_sarConversionEnd ((convertedAt_of_conv hv).trans (if_pos ht)) (converted_spec _ _ _ _ _)
  · exact next_of_sameTile exec_sarSamplingEnd ((sampledAt_of_conv hv).trans (if_neg fun h => absurd h.1 (Nat.not_le.2 ht)))
  · exact next_of_sameTile exec_sarConversionEnd ((convertedAt_of_conv hv).trans (if_neg (by omega)))
  · exact onlyTile_of (exec_interpolatorRelease false) (released_of_busy false hb hu) ⟨by simp, modCluster_clusterOnly _ _⟩
  · exact onlyTile_of (exec_interpolatorRelease true) (released_of_busy true hb hu) ⟨by simp, modCluster_clusterOnly _ _⟩

/-! ### Voted latches -/

/-- Latches of which no bit is upset in more than one place vote for the word that they held (R66). -/
theorem majority_of_single {u0 u1 u2 : W16} (w : W16) (h01 : u0 &&& u1 = 0) (h02 : u0 &&& u2 = 0) (h12 : u1 &&& u2 = 0) :
    majority (w ^^^ u0) (w ^^^ u1) (w ^^^ u2) = w := by
  refine BitVec.eq_of_getLsbD_eq fun i hi => ?_
  have hbit : ∀ {a b : W16}, a &&& b = 0 → (a.getLsbD i && b.getLsbD i) = false := fun h => by
    rw [← BitVec.getLsbD_and, h]; exact BitVec.getLsbD_zero
  have k01 := hbit h01
  have k02 := hbit h02
  have k12 := hbit h12
  simp only [majority, BitVec.getLsbD_or, BitVec.getLsbD_and, BitVec.getLsbD_xor]
  revert k01 k02 k12
  cases w.getLsbD i <;> cases u0.getLsbD i <;> cases u1.getLsbD i <;> cases u2.getLsbD i <;> decide

/-- A change of a tile that leaves its clusters unlocks none. -/
theorem modTileDlls_of_clusters {f : Tile → Tile} (h : (f (s.tile t)).clusters = (s.tile t).clusters) : s.modTileDlls t f = s.modTile t f := by
  have hl : ((s.modTile t f).tile t).lockedClusters = (s.tile t).lockedClusters := by
    rw [modTile_tile_same, Tile.lockedClusters, h]
    rfl
  have hnone : ((s.tile t).lockedClusters.filter fun cl => !((s.modTile t f).tile t).lockedClusters.contains cl) = [] := by
    rw [hl]
    simp
  unfold State.modTileDlls
  dsimp only
  rw [hnone]
  rfl

/-- What a counter reads after it has counted (03 R105). -/
theorem reads_countBy (f : Fld) (n : Nat) : regGet (d.countBy t f n).cnt f t.val 0 = min (regGet d.cnt f t.val 0 + n) (2 ^ f.w - 1) := by
  have hp : 0 < 2 ^ f.w := Nat.two_pow_pos _
  simp only [Tile.countBy, regGet_regSet_same]
  exact Nat.mod_eq_of_lt (by omega)

/-- The tile in which the upsets of a place have been counted. -/
def Tile.upsetsCounted (d : Tile) (t : Fin 4) (isCluster : Bool) (p n : Nat) : Tile :=
  let f := F.SORT_FE_CNT_SEU_COUNT
  let e := d.countBy t f n
  { e with seuNow := (isCluster, p, regGet e.cnt f t.val 0 - regGet d.cnt f t.val 0) :: e.seuNow }

/-- Single upsets are outvoted and counted, and the words stand (R66). -/
theorem voteLatches_of_single (now : Nat) (isCluster : Bool) (p : Nat) {u0 u1 u2 : W16} (h01 : u0 &&& u1 = 0) (h02 : u0 &&& u2 = 0)
    (h12 : u1 &&& u2 = 0) :
    d.voteLatches t now isCluster p u0 u1 u2 = d.upsetsCounted t isCluster p (popcount 16 (u0 ||| u1 ||| u2).toNat) := by
  have hx : ∀ w a : W16, w ^^^ a ^^^ w = a := fun w a => by rw [BitVec.xor_comm w a, BitVec.xor_assoc, BitVec.xor_self, BitVec.xor_zero]
  unfold Tile.voteLatches
  dsimp only
  rw [majority_of_single _ h01 h02 h12, if_pos rfl, hx, hx, hx]
  rfl

/-- Upsets count once each in `SEU_COUNT`, to its end, and leave the words. -/
theorem upsetsCounted_spec (isCluster : Bool) (p n : Nat) : let e := d.upsetsCounted t isCluster p n
    (∀ x, e.cellWord x = d.cellWord x) ∧ (∀ x, e.clusterWord x = d.clusterWord x) ∧
      regGet e.cnt F.SORT_FE_CNT_SEU_COUNT t.val 0 = min (regGet d.cnt F.SORT_FE_CNT_SEU_COUNT t.val 0 + n) 0xFFFFFFFF ∧
      e = { d with cnt := e.cnt, fresh := e.fresh, seuNow := e.seuNow } :=
  ⟨fun _ => rfl, fun _ => rfl, reads_countBy F.SORT_FE_CNT_SEU_COUNT n, rfl⟩

/-- A vote over single upsets, in a tick in which no write of the place took effect (R66, R162). -/
theorem exec_latchMajority_single {isCluster : Bool} {place : BitVec 18} {u0 u1 u2 : W16} {p : Nat}
    (hp : p = if isCluster then place.toNat % 16384 else place.toNat)
    (hf : ¬ ((s.tile t).lastWriteAt = s.now ∧ ((s.tile t).lastWrite.any fun c => cmdIsCluster c = isCluster && (cmdPlaces c).contains p) = true))
    (h01 : u0 &&& u1 = 0) (h02 : u0 &&& u2 = 0) (h12 : u1 &&& u2 = 0) :
    exec (.latchMajorityCorrection t isCluster place u0 u1 u2) s =
      .next (s.modTile t fun _ => (s.tile t).upsetsCounted t isCluster p (popcount 16 (u0 ||| u1 ||| u2).toNat)) := by
  have hv := voteLatches_of_single (d := s.tile t) (t := t) s.now isCluster p h01 h02 h12
  have hc : ((s.tile t).voteLatches t s.now isCluster p u0 u1 u2).clusters = (s.tile t).clusters := by rw [hv]; rfl
  rw [← hv, ← modTile_const fun d => d.voteLatches t s.now isCluster p u0 u1 u2, ← modTileDlls_of_clusters hc]
  subst hp
  exact congrArg Host.Outcome.next (if_neg hf)


/-- Settles O11: single upsets are outvoted; after a write of the tick the command leaves the state. -/
theorem latchesOutvoteSingleUpsets : Obligations.LatchesOutvoteSingleUpsets := by
  intro s t isCluster place u0 u1 u2 p fresh
  exact ⟨fun hf h01 h02 h12 => ⟨_, exec_latchMajority_single rfl hf h01 h02 h12, upsetsCounted_spec _ _ _⟩,
    fun hf => congrArg Host.Outcome.next (if_pos hf)⟩

end Sys2Proof.Machine
end

section
/-! SUPPORT. Frames in the tile queue and on the lanes, letters in their buckets (03 R126 to R133, R147), and the obligation about completed letters. -/

namespace Sys2Proof.Machine

variable {s : State} {d e g : Tile} {t : Fin 4} {now rs : Nat} {c : BitVec 18} {l : Letter}

/-! ### Queued frames -/

/-- Of the tile only its frames, waiting or on the lanes, differ, and the highest fill that it has seen. -/
def framesOnly (d e : Tile) : Prop := e = { d with queue := e.queue, lanes := e.lanes, memPeak := e.memPeak }

theorem framesOnly_trans (h : framesOnly d e) (k : framesOnly e g) : framesOnly d g :=
  k.trans (congrArg (fun x : Tile => { x with queue := g.queue, lanes := g.lanes, memPeak := g.memPeak }) h)

/-- A field that holds no frame is as before. -/
theorem framesOnly.field {α : Type} (h : framesOnly d e) (p : Tile → α)
    (hp : ∀ (d : Tile) a b n, p { d with queue := a, lanes := b, memPeak := n } = p d) : p e = p d := by
  rw [h, hp]

theorem dispatch_framesOnly (now n : Nat) (d : Tile) : framesOnly d (d.dispatch now n) := by
  induction n generalizing d with
  | zero => rfl
  | succ n ih =>
    unfold Tile.dispatch
    split
    · rfl
    · split
      · rfl
      · refine framesOnly_trans ?_ (ih _)
        rfl

theorem queueFrame_framesOnly (now : Nat) (f : TileFrame) : framesOnly d (d.queueFrame now f) :=
  framesOnly_trans (e := { d with queue := enqueue f d.queue, memPeak := max d.memPeak { d with queue := enqueue f d.queue }.memUsed }) rfl
    (dispatch_framesOnly _ _ _)

/-! ### No frame is lost on its way to a lane -/

/-- A search that keeps what it has or takes what it sees finds what it began with or an element. -/
theorem foldl_found {α : Type} {g : Option α → α → Option α} (hg : ∀ b x, g b x = b ∨ g b x = some x) (l : List α) (b : Option α) {x : α}
    (h : l.foldl g b = some x) : b = some x ∨ x ∈ l := by
  induction l generalizing b with
  | nil => exact .inl h
  | cons y l ih =>
    rcases ih _ h with hb | hm
    · rcases hg b y with hk | hk
      · exact .inl (hk.symm.trans hb)
      · obtain rfl := Option.some.inj (hk.symm.trans hb)
        exact .inr List.mem_cons_self
    · exact .inr (List.mem_cons_of_mem _ hm)

/-- A frame moves only to a lane with nothing committed (R147). -/
theorem laneFor_uncommitted {f : TileFrame} {o : OfficeId} {k : Nat} (h : d.laneFor now f = some (o, k)) :
    (Sparse.get {} d.lanes (laneKey o k)).committed = none := by
  unfold Tile.laneFor at h
  split at h
  · cases h
  · split at h
    · cases h
    · obtain ⟨j, hj, hk⟩ := Option.map_eq_some_iff.1 h
      obtain ⟨rfl, rfl⟩ := Prod.mk.inj hk
      have hm := (foldl_found (fun b x => ?_) _ _ hj).resolve_left nofun
      · have hopen := (List.mem_filter.1 hm).2
        simp only [Bool.and_eq_true, Option.isNone_iff_eq_none] at hopen
        exact hopen.2
      · cases b with
        | none => exact .inr rfl
        | some b =>
          dsimp only
          split
          · exact .inr rfl
          · exact .inl rfl

/-- A lane takes a frame and keeps the one it sends. -/
theorem take_holds (m : LaneTx) (g : TileFrame) :
    ((m.take now g).sending = some g ∨ (m.take now g).committed = some g) ∧ ∀ f, m.sending = some f → (m.take now g).sending = some f := by
  unfold LaneTx.take
  split
  next hs => exact ⟨.inl rfl, fun f hf => by simp [hs] at hf⟩
  next => exact ⟨.inr rfl, fun f hf => hf⟩

/-- A frame that moves to a lane is on it, and every other is where it was. -/
theorem holdsFrame_move {f g : TileFrame} {o : OfficeId} {k : Nat} (hk : d.laneFor now g = some (o, k)) (h : holdsFrame d f) :
    holdsFrame { d with queue := d.queue.erase g, lanes := Sparse.update {} d.lanes (laneKey o k) fun m => m.take now g } f := by
  have hfree := laneFor_uncommitted hk
  obtain ⟨htaken, hkept⟩ := take_holds (now := now) (Sparse.get {} d.lanes (laneKey o k)) g
  rcases h with hq | ⟨j, hj⟩
  · rcases eq_or_ne f g with rfl | hne
    · exact .inr ⟨laneKey o k, by rw [Sparse.get_update_same]; exact htaken⟩
    · exact .inl ((List.mem_erase_of_ne hne).2 hq)
  · refine .inr ⟨j, ?_⟩
    rcases eq_or_ne j (laneKey o k) with rfl | hne
    · have hs := hj.resolve_right fun hc => by simp [hfree] at hc
      exact .inl (by rw [Sparse.get_update_same]; exact hkept f hs)
    · rw [Sparse.get_update_other _ _ _ hne]
      exact hj

theorem holdsFrame_dispatch {f : TileFrame} (now n : Nat) (d : Tile) (h : holdsFrame d f) : holdsFrame (d.dispatch now n) f := by
  induction n generalizing d with
  | zero => exact h
  | succ n ih =>
    unfold Tile.dispatch
    split
    · exact h
    · split
      · exact h
      next hk => exact ih _ (holdsFrame_move hk h)

theorem mem_enqueue (f : TileFrame) (q : List TileFrame) : f ∈ enqueue f q := by
  induction q with
  | nil => exact List.mem_cons_self
  | cons g q ih =>
    unfold enqueue
    split
    · exact List.mem_cons_self
    · exact List.mem_cons_of_mem _ ih

/-- A queued frame waits in the tile or is on a lane (R147, R148). -/
theorem holdsFrame_queueFrame (now : Nat) (f : TileFrame) : holdsFrame (d.queueFrame now f) f :=
  holdsFrame_dispatch _ _ _ (.inl (mem_enqueue f d.queue))

/-! ### Letters in buckets -/

/-- The district round of a letter (R126). -/
def Letter.bucket (l : Letter) (rs : Nat) : Nat := bucketKey (l.lead.toNat / 2 ^ rs) (cellDistrict (l.channel.toNat % 262144))

/-- A letter as it is kept once its round has closed (R130). -/
def Letter.belated (l : Letter) : Letter := { l with flags := l.flags ||| BitVec.ofNat 7 flagLate }

/-- The bucket of a district round. -/
def Tile.bucketAt (d : Tile) (k : Nat) : Bucket := Sparse.get {} d.buckets k

/-- The late letters of a district round. -/
def Tile.lateAt (d : Tile) (k : Nat) : LateBucket := Sparse.get {} d.late k

/-- The tile with a letter more in its bucket. -/
def Tile.bucketed (d : Tile) (k : Nat) (l : Letter) : Tile :=
  let d := { d with buckets := Sparse.set {} d.buckets k { d.bucketAt k with letters := (d.bucketAt k).letters ++ [l] } }
  { d with memPeak := max d.memPeak d.memUsed }

/-- The tile with a late letter more. -/
def Tile.delayed (d : Tile) (now k : Nat) (l : Letter) : Tile :=
  let first := if (d.lateAt k).letters = [] then now else (d.lateAt k).firstAt
  let d := { d with late := Sparse.set {} d.late k { letters := (d.lateAt k).letters ++ [l.belated], firstAt := first } }
  { d with memPeak := max d.memPeak d.memUsed }

/-- The tile in which a letter was dropped. -/
def Tile.letterDropped (d : Tile) (k : Nat) : Tile :=
  { d with buckets := Sparse.set {} d.buckets k { d.bucketAt k with overflowed := true, dropped := (d.bucketAt k).dropped + 1 } }

/-- Whether a letter finds its bucket overflowed or the letter memory full (R133). -/
def Tile.noRoom (d : Tile) (k : Nat) : Prop := (d.bucketAt k).overflowed = true ∨ 65536 ≤ d.memUsed

theorem file_of_noRoom (h : d.noRoom (l.bucket rs)) : d.file now rs l = d.letterDropped (l.bucket rs) := if_pos h

theorem file_of_open (h : ¬ d.noRoom (l.bucket rs)) (ho : d.openFor rs (l.lead.toNat / 2 ^ rs) = true) :
    d.file now rs l = if (d.bucketAt (l.bucket rs)).letters.length + 1 < 24 then d.bucketed (l.bucket rs) l
      else (d.bucketed (l.bucket rs) l).shipData now (l.lead.toNat / 2 ^ rs) (cellDistrict (l.channel.toNat % 262144)) :=
  (if_neg h).trans (if_pos ho)

theorem file_of_closed (h : ¬ d.noRoom (l.bucket rs)) (ho : d.openFor rs (l.lead.toNat / 2 ^ rs) = false) :
    d.file now rs l = if (d.lateAt (l.bucket rs)).letters.length + 1 < 24 then d.delayed now (l.bucket rs) l
      else (d.delayed now (l.bucket rs) l).shipLate now (l.lead.toNat / 2 ^ rs) (cellDistrict (l.channel.toNat % 262144)) :=
  (if_neg h).trans (if_neg (by simp [ho]))

/-- Of the tile only its frames and late letters differ, and the bucket of one district round. -/
def filedOnly (d e : Tile) (k : Nat) : Prop :=
  e = { d with queue := e.queue, lanes := e.lanes, memPeak := e.memPeak, buckets := e.buckets, late := e.late } ∧
    ∀ x, x ≠ k → e.bucketAt x = d.bucketAt x

theorem filedOnly_trans {k : Nat} (h : filedOnly d e k) (i : filedOnly e g k) : filedOnly d g k := by
  obtain ⟨ht, ho⟩ := h
  obtain ⟨it, io⟩ := i
  exact ⟨it.trans (congrArg (fun x : Tile => { x with
    queue := g.queue, lanes := g.lanes, memPeak := g.memPeak, buckets := g.buckets, late := g.late }) ht), fun x hx => (io x hx).trans (ho x hx)⟩

theorem filedOnly_of_framesOnly {k : Nat} (h : framesOnly d e) : filedOnly d e k := by
  have hb : ∀ x, e.bucketAt x = d.bucketAt x := fun x => h.field (Tile.bucketAt · x) fun _ _ _ _ => rfl
  have hl : e.late = d.late := h.field Tile.late fun _ _ _ _ => rfl
  have hs : e.buckets = d.buckets := h.field Tile.buckets fun _ _ _ _ => rfl
  exact ⟨by rw [hl, hs]; exact h, fun x _ => hb x⟩

theorem setBucket_filedOnly (k : Nat) (b : Bucket) : filedOnly d { d with buckets := Sparse.set {} d.buckets k b } k :=
  ⟨rfl, fun _ hx => Sparse.get_set_other _ _ _ hx⟩

theorem bucketed_filedOnly (k : Nat) (l : Letter) : filedOnly d (d.bucketed k l) k := ⟨rfl, fun _ hx => Sparse.get_set_other _ _ _ hx⟩

theorem delayed_filedOnly (k : Nat) (l : Letter) : filedOnly d (d.delayed now k l) k := ⟨rfl, fun _ _ => rfl⟩

/-- The tile whose bucket of a district round has been emptied into a frame. -/
def Tile.emptied (d : Tile) (k : Nat) : Tile :=
  { d with buckets := Sparse.set {} d.buckets k { d.bucketAt k with letters := [], made := (d.bucketAt k).made + 1 } }

/-- The data frame of a bucket (R129, R137). -/
def Tile.dataFrame (d : Tile) (round x : Nat) : TileFrame :=
  let b := d.bucketAt (bucketKey round x)
  { kind := .data, round := round, district := x, fnum := b.made % 32, letters := b.letters, words := [] }

theorem shipData_filedOnly (round x : Nat) : filedOnly d (d.shipData now round x) (bucketKey round x) :=
  filedOnly_trans (setBucket_filedOnly _ _) (filedOnly_of_framesOnly (queueFrame_framesOnly _ _))

theorem shipLate_filedOnly (round x : Nat) : filedOnly d (d.shipLate now round x) (bucketKey round x) := by
  refine filedOnly_trans ?_ (filedOnly_of_framesOnly (queueFrame_framesOnly _ _))
  exact ⟨rfl, fun _ _ => rfl⟩

/-- A full bucket goes as one data frame, and its place is empty (R129). -/
theorem shipData_spec (round x : Nat) : let e := d.shipData now round x
    e.bucketAt (bucketKey round x) = { d.bucketAt (bucketKey round x) with letters := [], made := (d.bucketAt (bucketKey round x)).made + 1 } ∧
      e.late = d.late ∧ holdsFrame e (d.dataFrame round x) := by
  intro e
  have hf : framesOnly (d.emptied (bucketKey round x)) e := queueFrame_framesOnly _ _
  have hb : (d.emptied (bucketKey round x)).bucketAt (bucketKey round x) =
      { d.bucketAt (bucketKey round x) with letters := [], made := (d.bucketAt (bucketKey round x)).made + 1 } := by
    simp [Tile.emptied, Tile.bucketAt]
  exact ⟨(hf.field (Tile.bucketAt · (bucketKey round x)) fun _ _ _ _ => rfl).trans hb, hf.field Tile.late fun _ _ _ _ => rfl, holdsFrame_queueFrame _ _⟩

/-- Filing touches frames, late letters and the letter's own bucket. -/
theorem file_filedOnly (d : Tile) (now rs : Nat) (l : Letter) : filedOnly d (d.file now rs l) (l.bucket rs) := by
  by_cases hfull : d.noRoom (l.bucket rs)
  · rw [file_of_noRoom hfull]
    exact setBucket_filedOnly _ _
  · cases hopen : d.openFor rs (l.lead.toNat / 2 ^ rs) with
    | true =>
      rw [file_of_open hfull hopen]
      split
      · exact bucketed_filedOnly _ _
      · exact filedOnly_trans (bucketed_filedOnly _ _) (shipData_filedOnly _ _)
    | false =>
      rw [file_of_closed hfull hopen]
      split
      · exact delayed_filedOnly _ _
      · exact filedOnly_trans (delayed_filedOnly _ _) (shipLate_filedOnly _ _)

/-- The 24th letter of an open bucket ships it (R129). -/
theorem file_ships (h : ¬ d.noRoom (l.bucket rs)) (ho : d.openFor rs (l.lead.toNat / 2 ^ rs) = true)
    (hn : 24 ≤ (d.bucketAt (l.bucket rs)).letters.length + 1) : let e := d.file now rs l
    e.bucketAt (l.bucket rs) = { d.bucketAt (l.bucket rs) with letters := [], made := (d.bucketAt (l.bucket rs)).made + 1 } ∧ e.late = d.late ∧
      ∃ f, holdsFrame e f ∧ f.kind = .data ∧ f.round = l.lead.toNat / 2 ^ rs ∧ f.letters = (d.bucketAt (l.bucket rs)).letters ++ [l] := by
  intro e
  have he : e = (d.bucketed (l.bucket rs) l).shipData now (l.lead.toNat / 2 ^ rs) (cellDistrict (l.channel.toNat % 262144)) :=
    (file_of_open h ho).trans (if_neg (Nat.not_lt.2 hn))
  have hb : (d.bucketed (l.bucket rs) l).bucketAt (l.bucket rs) =
      { d.bucketAt (l.bucket rs) with letters := (d.bucketAt (l.bucket rs)).letters ++ [l] } := Sparse.get_set_same _ _ _ _
  obtain ⟨hk, hl, hf⟩ := shipData_spec (d := d.bucketed (l.bucket rs) l) (now := now) (l.lead.toNat / 2 ^ rs)
    (cellDistrict (l.channel.toNat % 262144))
  rw [he]
  exact ⟨hk.trans (congrArg (fun b : Bucket => { b with letters := [], made := b.made + 1 }) hb), hl, _, hf, rfl, rfl, congrArg Bucket.letters hb⟩

/-- What the completion of a cell's letter makes of a tile (R57, R126). -/
def Tile.completed (d : Tile) (now rs : Nat) (c : BitVec 18) : Tile :=
  match d.completing.find? fun e => e.1 = c && decide (e.2.1 ≤ now) with
  | some e => { d with completing := d.completing.erase e }.file now rs e.2.2
  | none => d

theorem exec_letterComplete : exec (.letterComplete t c) s = .next (s.modTile t fun d => d.completed s.now s.svc.roundShift c) := rfl

/-- Settles O13: a due letter by the cases of its filing, no letter by the tile as it was. -/
theorem completedLettersAreFiled : Obligations.CompletedLettersAreFiled := by
  intro s t c n l d round k b w
  refine ⟨fun hdue => ?_, fun hnone => next_of_sameTile exec_letterComplete (by unfold Tile.completed; rw [hnone])⟩
  let rs := s.svc.roundShift
  let d' : Tile := { d with completing := d.completing.erase (c, n, l) }
  have hd : d.completed s.now rs c = d'.file s.now rs l := by unfold Tile.completed; rw [hdue]
  obtain ⟨hrest, hothers⟩ := file_filedOnly d' s.now rs l
  have hroom : b.overflowed = false → d.memUsed < 65536 → ¬ d'.noRoom (l.bucket rs) := by
    rintro hb hm (ho | hf)
    · exact Bool.false_ne_true (hb.symm.trans ho)
    · exact Nat.not_le.2 hm hf
  refine onlyTile_of exec_letterComplete hd ⟨by rw [hrest], by rw [hrest], by rw [hrest], hothers, fun hfull => ?_, fun hb hm ho hn => ?_,
    fun hb hm ho hn => file_ships (hroom hb hm) ho hn, fun hb hm ho hn => ?_⟩
  · have he : d'.file s.now rs l = d'.letterDropped (l.bucket rs) := file_of_noRoom hfull
    rw [he]
    exact ⟨Sparse.get_set_same _ _ _ _, rfl, rfl⟩
  · have he : d'.file s.now rs l = d'.bucketed (l.bucket rs) l := (file_of_open (hroom hb hm) ho).trans (if_pos hn)
    rw [he]
    exact ⟨Sparse.get_set_same _ _ _ _, rfl, rfl⟩
  · have he : d'.file s.now rs l = d'.delayed s.now (l.bucket rs) l := (file_of_closed (hroom hb hm) ho).trans (if_pos hn)
    rw [he]
    exact ⟨Sparse.get_set_same _ _ _ _, rfl, rfl⟩

end Sys2Proof.Machine
end

section
/-! SUPPORT. The write engine and configuration words (02 R67, R68; 03 R145; 04 R159 to R161), and the obligation about configuration commands. -/

namespace Sys2Proof.Machine

variable {s u v : State} {d e g : Tile} {t : Fin 4} {now cl w : Nat} {cmd : W64}

/-! ### What a changed word touches -/

/-- Of the tile only its cells, clusters and letters in completion differ. -/
def analogOnly (d e : Tile) : Prop := e = { d with cells := e.cells, clusters := e.clusters, completing := e.completing }

theorem analogOnly_refl (d : Tile) : analogOnly d d := rfl

theorem analogOnly_trans (h : analogOnly d e) (k : analogOnly e g) : analogOnly d g :=
  k.trans (congrArg (fun x : Tile => { x with cells := g.cells, clusters := g.clusters, completing := g.completing }) h)

/-- A field that is neither cell, cluster nor letter is as before. -/
theorem analogOnly.field {α : Type} (h : analogOnly d e) (p : Tile → α)
    (hp : ∀ (d : Tile) a b c, p { d with cells := a, clusters := b, completing := c } = p d) : p e = p d := by
  rw [h, hp]

theorem analogOnly_foldl {α : Type} (f : Tile → α → Tile) (h : ∀ d a, analogOnly d (f d a)) (l : List α) (d : Tile) : analogOnly d (l.foldl f d) := by
  induction l generalizing d with
  | nil => exact analogOnly_refl d
  | cons a l ih => exact analogOnly_trans (h d a) (ih _)

theorem modCell_analogOnly (c : Nat) (f : Cell → Cell) : analogOnly d (d.modCell c f) := rfl

theorem modCluster_analogOnly (cl : Nat) (f : Cluster → Cluster) : analogOnly d (d.modCluster cl f) := rfl

theorem complete_analogOnly (c : BitVec 18) (due : Nat) (l : Letter) : analogOnly d (d.complete c due l) := rfl

theorem analogOnly_ite {p : Prop} [Decidable p] (h : analogOnly d e) (k : analogOnly d g) : analogOnly d (if p then e else g) := by
  split
  · exact h
  · exact k

theorem gmodeChanged_analogOnly (cl old : Nat) : analogOnly d (d.gmodeChanged cl old) := by
  refine analogOnly_trans (analogOnly_foldl _ (fun d c => ?_) _ _) (modCluster_analogOnly _ _)
  split
  · exact modCell_analogOnly _ _
  · exact modCell_analogOnly _ _
  · exact analogOnly_refl d

theorem stopSar_analogOnly (now cl : Nat) : analogOnly d (d.stopSar now cl) :=
  analogOnly_trans (modCluster_analogOnly _ _)
    (analogOnly_foldl _ (fun _ _ => analogOnly_trans (modCell_analogOnly _ _) (complete_analogOnly _ _ _)) _ _)

theorem settleSar_analogOnly (now cl : Nat) : analogOnly d (d.settleSar now cl) := by
  unfold Tile.settleSar
  split
  · rfl
  · exact stopSar_analogOnly now cl

/-! ### A place takes its word -/

/-- Beside cells, clusters and letters in completion a tile keeps everything but its configuration words. -/
def wordsOnly (d e : Tile) : Prop :=
  e = { d with cells := e.cells, clusters := e.clusters, completing := e.completing, cellCfg := e.cellCfg, clusterCfg := e.clusterCfg }

theorem wordsOnly_trans (h : wordsOnly d e) (k : wordsOnly e g) : wordsOnly d g :=
  k.trans (congrArg (fun x : Tile => { x with
    cells := g.cells, clusters := g.clusters, completing := g.completing, cellCfg := g.cellCfg, clusterCfg := g.clusterCfg }) h)

theorem wordsOnly_of_analogOnly (h : analogOnly d e) : wordsOnly d e := by
  have hcell : e.cellCfg = d.cellCfg := h.field Tile.cellCfg fun _ _ _ _ => rfl
  have hcluster : e.clusterCfg = d.clusterCfg := h.field Tile.clusterCfg fun _ _ _ _ => rfl
  unfold wordsOnly
  rw [hcell, hcluster]
  exact h

/-- The configuration of one kind of place after the word `w` was written into the places of a list, that of the other kind being kept. -/
def wrote (isCluster : Bool) (ps : List Nat) (w : Nat) (d e : Tile) : Prop :=
  (∀ p, e.placeWord isCluster p = if p ∈ ps then w else d.placeWord isCluster p) ∧
    (isCluster = true → e.cellCfg = d.cellCfg) ∧ (isCluster = false → e.clusterCfg = d.clusterCfg ∧ e.clusters = d.clusters)

theorem applyCellWord_spec (now c : Nat) (hw : w < 65536) :
    wordsOnly d (d.applyCellWord now c w) ∧ wrote false [c] w d (d.applyCellWord now c w) := by
  let e := { d with cellCfg := Sparse.set 0x80 d.cellCfg c (w % 65536) }
  have hword : ∀ p, e.cellWord p = if p ∈ [c] then w else d.cellWord p := fun p => by
    rcases eq_or_ne p c with rfl | hp
    · simp [e, Tile.cellWord, Nat.mod_eq_of_lt hw]
    · simp [e, Tile.cellWord, hp, Sparse.get_set_other]
  unfold Tile.applyCellWord
  dsimp only
  split
  · exact ⟨rfl, hword, nofun, fun _ => ⟨rfl, rfl⟩⟩
  · exact ⟨rfl, hword, nofun, fun _ => ⟨rfl, rfl⟩⟩

theorem applyClusterWord_spec (now cl : Nat) (hw : w < 65536) :
    wordsOnly d (d.applyClusterWord now cl w) ∧ wrote true [cl] w d (d.applyClusterWord now cl w) := by
  let e := { d with clusterCfg := Sparse.set 4 d.clusterCfg cl (w % 65536) }
  have hword : ∀ p, e.clusterWord p = if p ∈ [cl] then w else d.clusterWord p := fun p => by
    rcases eq_or_ne p cl with rfl | hp
    · simp [e, Tile.clusterWord, Nat.mod_eq_of_lt hw]
    · simp [e, Tile.clusterWord, hp, Sparse.get_set_other]
  have hrest : analogOnly e (d.applyClusterWord now cl w) :=
    analogOnly_trans (analogOnly_ite (analogOnly_refl _) (gmodeChanged_analogOnly _ _)) (analogOnly_trans (settleSar_analogOnly _ _)
      (analogOnly_trans (analogOnly_ite (modCluster_analogOnly _ _) (analogOnly_refl _)) (analogOnly_ite (analogOnly_refl _) (modCluster_analogOnly _ _))))
  refine ⟨wordsOnly_trans (e := e) rfl (wordsOnly_of_analogOnly hrest), fun p => ?_, fun _ => hrest.field Tile.cellCfg fun _ _ _ _ => rfl, nofun⟩
  exact (hrest.field (Tile.clusterWord · p) fun _ _ _ _ => rfl).trans (hword p)

theorem applyWord_spec (now : Nat) (isCluster : Bool) (p : Nat) (hw : w < 65536) :
    wordsOnly d (d.applyWord now isCluster p w) ∧ wrote isCluster [p] w d (d.applyWord now isCluster p w) := by
  cases isCluster with
  | false => exact applyCellWord_spec now p hw
  | true => exact applyClusterWord_spec now p hw

/-- A word goes into every place of a list and into no other (R68, R160). -/
theorem foldl_applyWord_spec (now : Nat) (isCluster : Bool) (hw : w < 65536) (ps : List Nat) (d : Tile) :
    let e := ps.foldl (fun d p => d.applyWord now isCluster p w) d
    wordsOnly d e ∧ wrote isCluster ps w d e := by
  induction ps generalizing d with
  | nil => exact ⟨rfl, fun p => by simp, fun _ => rfl, fun _ => ⟨rfl, rfl⟩⟩
  | cons q ps ih =>
    obtain ⟨hq, hqword, hqcells, hqclusters⟩ := applyWord_spec (d := d) now isCluster q hw
    obtain ⟨hps, hpsword, hpscells, hpsclusters⟩ := ih (d.applyWord now isCluster q w)
    refine ⟨wordsOnly_trans hq hps, fun p => ?_, fun hk => (hpscells hk).trans (hqcells hk), fun hk => ?_⟩
    · rw [List.foldl_cons, hpsword, hqword]
      by_cases hp : p ∈ ps <;> simp [hp]
    · obtain ⟨hqc, hqs⟩ := hqclusters hk
      obtain ⟨hpsc, hpss⟩ := hpsclusters hk
      exact ⟨hpsc.trans hqc, hpss.trans hqs⟩

theorem cmdWord_lt (cmd : W64) : cmdWord cmd < 65536 := Nat.mod_lt _ (by decide)

/-- The tile whose engine a write has left, before the word is in its places. -/
def Tile.engineLeft (d : Tile) (t : Fin 4) (now : Nat) (cmd : W64) : Tile :=
  { d.uncountSeu t cmd with engine := none, lastWrite := some cmd, lastWriteAt := now }

theorem engineLeft_placeWord (isCluster : Bool) (p : Nat) : (d.engineLeft t now cmd).placeWord isCluster p = d.placeWord isCluster p := rfl

/-- A write that leaves the engine: nothing runs there, its word stands in its places, and the queue is as it was (R68, R161). -/
theorem completeWrite_spec (d : Tile) (t : Fin 4) (now : Nat) (cmd : W64) : let e := d.completeWrite t now cmd
    (e.engine = none ∧ e.lastWrite = some cmd ∧ e.cfgQueue = d.cfgQueue) ∧ wrote (cmdIsCluster cmd) (cmdPlaces cmd) (cmdWord cmd) d e := by
  intro e
  obtain ⟨hrest, hword, hcells, hclusters⟩ := foldl_applyWord_spec now (cmdIsCluster cmd) (cmdWord_lt cmd) (cmdPlaces cmd) (d.engineLeft t now cmd)
  have hrest : wordsOnly (d.engineLeft t now cmd) e := hrest
  refine ⟨?_, fun p => (hword p).trans (by rw [engineLeft_placeWord]), hcells, hclusters⟩
  rw [hrest]
  exact ⟨rfl, rfl, rfl⟩

/-! ### Unlocks that a write causes -/

/-- The queue of commands and the other tiles are as before, and of tile `t` only what it counts differs. -/
def countsOnly (t : Fin 4) (s u : State) : Prop :=
  u.pending = s.pending ∧ (∀ x, x ≠ t → u.tile x = s.tile x) ∧ u.tile t = { s.tile t with cnt := (u.tile t).cnt, fresh := (u.tile t).fresh }

theorem countsOnly_refl (t : Fin 4) (s : State) : countsOnly t s s := ⟨rfl, fun _ _ => rfl, rfl⟩

theorem countsOnly_trans (h : countsOnly t s u) (k : countsOnly t u v) : countsOnly t s v := by
  obtain ⟨hp, ho, ht⟩ := h
  obtain ⟨kp, ko, kt⟩ := k
  exact ⟨kp.trans hp, fun x hx => (ko x hx).trans (ho x hx),
    kt.trans (congrArg (fun x : Tile => { x with cnt := (v.tile t).cnt, fresh := (v.tile t).fresh }) ht)⟩

theorem noticeUnlock_keeps (o : OfficeId) (t : Fin 4) (cl : Nat) :
    (s.noticeUnlock o t cl).pending = s.pending ∧ ∀ x, (s.noticeUnlock o t cl).tile x = s.tile x := by
  unfold State.noticeUnlock
  dsimp only
  split
  · exact ⟨rfl, fun _ => rfl⟩
  · exact ⟨by simp, fun x => by simp⟩

theorem noteUnlock_countsOnly (t : Fin 4) (cl : Nat) (s : State) : countsOnly t s (s.noteUnlock t cl) := by
  have hcount : countsOnly t s (s.modTile t fun d => d.countUp t F.SORT_TE_CNT_UNLOCK_COUNT) :=
    ⟨rfl, fun x hx => modTile_tile_other _ hx, by rw [modTile_tile_same]; rfl⟩
  unfold State.noteUnlock
  dsimp only
  split
  · obtain ⟨hp, ht⟩ := noticeUnlock_keeps (s := State.modOff _ _ _) _ t cl
    exact countsOnly_trans hcount ⟨hp, fun x _ => ht x, by rw [ht]; rfl⟩
  · exact hcount

/-- A change of a tile and the unlocks that follow from it. -/
theorem modTileDlls_countsOnly (t : Fin 4) (f : Tile → Tile) (s : State) : countsOnly t (s.modTile t f) (s.modTileDlls t f) := by
  unfold State.modTileDlls
  dsimp only
  generalize List.filter _ _ = l
  generalize s.modTile t f = u
  induction l generalizing u with
  | nil => exact countsOnly_refl t u
  | cons cl l ih => exact countsOnly_trans (noteUnlock_countsOnly t cl u) (ih _)

/-! ### The commands -/

theorem canRun_of_head {op : Nat} (hq : d.cfgQueue.head? = some cmd) (he : d.engine = none) (hop : cmdOp cmd = op) : d.canRun cmd op = true := by
  simp [Tile.canRun, hq, he, hop]

theorem canRun_of_waiting (op : Nat) (h : d.cfgQueue.head? ≠ some cmd ∨ d.engine ≠ none) : d.canRun cmd op = false := by
  rcases h with h | h
  · simp [Tile.canRun, h]
  · simp [Tile.canRun, Option.isNone_eq_false_iff.2 (Option.isSome_iff_ne_none.2 h)]

/-- The reply to a read leaves the tile as a status frame of its word (R145). -/
theorem sendStatusWord_spec (d : Tile) (now w : Nat) : let e := d.sendStatusWord now w
    framesOnly d e ∧ ∃ f, holdsFrame e f ∧ f.kind = .status ∧ f.words = [w] :=
  ⟨queueFrame_framesOnly _ _, _, holdsFrame_queueFrame _ _, rfl, rfl⟩

/-- What a read makes of a tile: the command is gone, the words stand, and the reply is on its way (R145, R161). -/
theorem reply_spec (now w : Nat) (he : d.engine = none) : let e := { d with cfgQueue := d.cfgQueue.tail }.sendStatusWord now w
    e.cfgQueue = d.cfgQueue.tail ∧ e.engine = none ∧ e.cellCfg = d.cellCfg ∧ e.clusterCfg = d.clusterCfg ∧
      ∃ f, holdsFrame e f ∧ f.kind = .status ∧ f.words = [w] := by
  obtain ⟨hf, hreply⟩ := sendStatusWord_spec { d with cfgQueue := d.cfgQueue.tail } now w
  exact ⟨hf.field Tile.cfgQueue fun _ _ _ _ => rfl, (hf.field Tile.engine fun _ _ _ _ => rfl).trans he, hf.field Tile.cellCfg fun _ _ _ _ => rfl,
    hf.field Tile.clusterCfg fun _ _ _ _ => rfl, hreply⟩

/-- CONFIG_WRITE_COMPLETE of a write whose ticks have passed (R161). -/
theorem configWriteComplete_spec (s : State) (t : Fin 4) (cmd : W64) :
    let u := s.modTileDlls t fun d => d.completeWrite t s.now cmd
    let d := s.tile t
    let e := u.tile t
    u.pending = s.pending ∧ (∀ x, x ≠ t → u.tile x = s.tile x) ∧ e.engine = none ∧ e.lastWrite = some cmd ∧ e.cfgQueue = d.cfgQueue ∧
      (cmdIsCluster cmd = false → u.offices = s.offices ∧ e.clusterCfg = d.clusterCfg ∧
        ∀ p, e.cellWord p = if p ∈ cmdPlaces cmd then cmdWord cmd else d.cellWord p) ∧
      (cmdIsCluster cmd = true → e.cellCfg = d.cellCfg ∧ ∀ p, e.clusterWord p = if p ∈ cmdPlaces cmd then cmdWord cmd else d.clusterWord p) := by
  intro u d e
  obtain ⟨⟨hengine, hlast, hqueue⟩, hword, hcells, hclusters⟩ := completeWrite_spec d t s.now cmd
  obtain ⟨hpending, hothers, ht⟩ := modTileDlls_countsOnly t (fun d => d.completeWrite t s.now cmd) s
  have ht : e = { d.completeWrite t s.now cmd with cnt := e.cnt, fresh := e.fresh } := by
    rw [modTile_tile_same] at ht
    exact ht
  refine ⟨hpending, fun x hx => (hothers x hx).trans (modTile_tile_other _ hx), by rw [ht]; exact hengine, by rw [ht]; exact hlast,
    by rw [ht]; exact hqueue, fun hk => ?_, fun hk => ?_⟩
  · obtain ⟨hcfg, hcls⟩ := hclusters hk
    have hu : u = s.modTile t fun d => d.completeWrite t s.now cmd := modTileDlls_of_clusters hcls
    rw [hk] at hword
    exact ⟨by rw [hu]; rfl, by rw [ht]; exact hcfg, fun p => by rw [ht]; exact hword p⟩
  · rw [hk] at hword
    exact ⟨by rw [ht]; exact hcells hk, fun p => by rw [ht]; exact hword p⟩

/-- What CONFIG_WRITE_COMPLETE makes of a state (R161). -/
theorem exec_configWriteComplete {w : EngineWrite} (h : (s.tile t).engine = some w) : exec (.configWriteComplete t) s =
    .next (if w.doneAt ≤ s.now then s.modTileDlls t fun d => d.completeWrite t s.now w.cmd else s) := by
  have : execConfigWriteComplete t s = .next (if w.doneAt ≤ s.now then s.modTileDlls t fun d => d.completeWrite t s.now w.cmd else s) := by
    unfold execConfigWriteComplete
    rw [h]
  exact this

/-- Settles O17: a command at the head by what it makes of the tile, a waiting one by the tile as it was, and the engine's end by its word. -/
theorem configurationCommandsRun : Obligations.ConfigurationCommandsRun := by
  intro s t cmd e0
  refine ⟨fun hq he => ⟨fun hop => ?_, fun hop => ?_, fun hop => ?_, fun hop => ?_⟩, fun hw => ⟨?_, ?_, ?_, ?_⟩, fun he hd => ?_, fun he hd => ?_⟩
  · exact onlyTile_of rfl (if_pos (canRun_of_head hq he hop)) rfl
  · exact onlyTile_of rfl (if_pos (canRun_of_head hq he hop)) rfl
  · exact onlyTile_of rfl (if_pos (canRun_of_head hq he hop)) (reply_spec _ _ he)
  · exact onlyTile_of rfl (if_pos (canRun_of_head hq he hop)) (reply_spec _ _ he)
  · exact next_of_sameTile rfl (if_neg (by simp [canRun_of_waiting 0 hw]))
  · exact next_of_sameTile rfl (if_neg (by simp [canRun_of_waiting 1 hw]))
  · exact next_of_sameTile rfl (if_neg (by simp [canRun_of_waiting 2 hw]))
  · exact next_of_sameTile rfl (if_neg (by simp [canRun_of_waiting 3 hw]))
  · exact ⟨_, (exec_configWriteComplete he).trans (congrArg Host.Outcome.next (if_pos hd)), configWriteComplete_spec s t e0.cmd⟩
  · exact (exec_configWriteComplete he).trans (congrArg Host.Outcome.next (if_neg (Nat.not_le.2 hd)))

end Sys2Proof.Machine
end

section
/-! SUPPORT. Close, idle and status frames at the office (04 R69, R135, R143 to R146, R174, R522), and their obligation. -/

namespace Sys2Proof.Machine

variable {s u v : State} {o : OfficeId} {t : Fin 4} {f : LaneFrame} {r : Nat}

/-! ### A frame that passes its checks -/

/-- A frame that passes its checks came whole (R139, R140). -/
theorem whole_of_frameFault (hf : s.frameFault o f = none) : f.charErr = false ∧ f.crc = frameCrc f := by
  have h : ¬ (f.charErr = true ∨ f.crc ≠ frameCrc f) := fun h => by simp [State.frameFault, h] at hf
  exact ⟨by simpa using fun hc => h (.inl hc), not_not.1 fun hc => h (.inr hc)⟩

/-- A whole frame that is no idle frame leaves the training of its lane (R712). -/
theorem rxFrame_of_notIdle (k : Fin 8) (h : (s.off o).inReset = false) (hf : s.frameFault o f = none) (ht : frmType f.hdr ≠ 3) :
    s.rxFrame o t k f = s.takeFrame o t f := by
  obtain ⟨hchar, hcrc⟩ := whole_of_frameFault hf
  rw [State.rxFrame, if_neg (by simp [h])]
  simp [State.trainLane, ht, hchar, hcrc]

/-- A whole idle frame counts for the training of its lane (R712). -/
theorem rxFrame_of_idle (k : Fin 8) (h : (s.off o).inReset = false) (hf : s.frameFault o f = none) (ht : frmType f.hdr = 3) :
    s.rxFrame o t k f = (s.trainLane o t (.letter k) true false).takeFrame o t f := by
  obtain ⟨hchar, hcrc⟩ := whole_of_frameFault hf
  rw [State.rxFrame, if_neg (by simp [h])]
  simp [ht, hchar, hcrc]

theorem takeFrame_close (h : (s.off o).inReset = false) (hf : s.frameFault o f = none) (ht : frmType f.hdr = 2) :
    s.takeFrame o t f = if s.owns o then s.takeClose o t ((s.fullRound o (frmRound f.hdr)).getD 0) f else s := by
  simp [State.takeFrame, h, hf, ht]

theorem takeFrame_idle (h : (s.off o).inReset = false) (hf : s.frameFault o f = none) (ht : frmType f.hdr = 3) :
    s.takeFrame o t f = s.takeLiveness o t (BitVec.ofNat 32 (ofLe f.payload)) := by simp [State.takeFrame, h, hf, ht]

theorem takeFrame_status (h : (s.off o).inReset = false) (hf : s.frameFault o f = none) (ht : frmType f.hdr = 4) :
    s.takeFrame o t f = s.takeStatus o t f := by simp [State.takeFrame, h, hf, ht]

/-! ### Close frames -/

/-- The close record of a frame (R143). -/
def closeRecOf (f : LaneFrame) : CloseRec :=
  { letters := ofLe (f.payload.take 3), frames := ofLe ((f.payload.drop 3).take 3)
    dropped := ofLe ((f.payload.drop 6).take 4), eccDrop := ofLe ((f.payload.drop 10).take 2) }

/-- What a close record counts and reports: `missing` frames lost, letters with bad check bits, and letters dropped (R134, R135, R143). -/
def State.tallyClose (s : State) (o : OfficeId) (t : Fin 4) (r x missing : Nat) (c : CloseRec) : State :=
  let s := if missing = 0 then s
    else (s.countBy o F.SORT_LN_CNT_LOSTFRM_COUNT missing t.val).raise o 0x0204 (le 1 t.val ++ le 1 x ++ le 6 r ++ le 3 missing)
  let s := if c.eccDrop = 0 then s else s.raise o 0x0209 (le 1 t.val ++ le 1 x ++ le 6 r ++ le 2 c.eccDrop)
  if c.dropped = 0 then s else s.countBy o F.SORT_LN_CNT_OVFDROP_COUNT c.dropped t.val

/-- The keys that a close record counts in. -/
def closeKeys (t : Fin 4) : List Nat := [F.SORT_LN_CNT_LOSTFRM_COUNT.key t.val 0, F.SORT_LN_CNT_OVFDROP_COUNT.key t.val 0]

theorem closeKeys_spec (t : Fin 4) : F.SORT_LN_CNT_LOSTFRM_COUNT.key t.val 0 ∉ noticeKeys ∧ F.SORT_LN_CNT_OVFDROP_COUNT.key t.val 0 ∉ noticeKeys ∧
    F.SORT_LN_CNT_LOSTFRM_COUNT.key t.val 0 ≠ F.SORT_LN_CNT_OVFDROP_COUNT.key t.val 0 := by
  revert t
  decide

theorem tallyClose_spec (s : State) (o : OfficeId) (t : Fin 4) (r x missing : Nat) (c : CloseRec) : let u := s.tallyClose o t r x missing c
    regsOnly s u o (closeKeys t) ∧
      (missing ≠ 0 → u.rd o F.SORT_LN_CNT_LOSTFRM_COUNT t.val = min (s.rd o F.SORT_LN_CNT_LOSTFRM_COUNT t.val + missing) 0xFFFFFFFF) ∧
      (c.dropped ≠ 0 → u.rd o F.SORT_LN_CNT_OVFDROP_COUNT t.val = min (s.rd o F.SORT_LN_CNT_OVFDROP_COUNT t.val + c.dropped) 0xFFFFFFFF) := by
  intro u
  obtain ⟨hlost, hovf, hne⟩ := closeKeys_spec t
  let a := if missing = 0 then s
    else (s.countBy o F.SORT_LN_CNT_LOSTFRM_COUNT missing t.val).raise o 0x0204 (le 1 t.val ++ le 1 x ++ le 6 r ++ le 3 missing)
  let b := if c.eccDrop = 0 then a else a.raise o 0x0209 (le 1 t.val ++ le 1 x ++ le 6 r ++ le 2 c.eccDrop)
  have hu : u = if c.dropped = 0 then b else b.countBy o F.SORT_LN_CNT_OVFDROP_COUNT c.dropped t.val := rfl
  have ha : regsOnly s a o [F.SORT_LN_CNT_LOSTFRM_COUNT.key t.val 0] := by
    unfold a
    split
    · exact regsOnly_refl s o _
    · exact (countBy_regsOnly _ _ _ _ rfl).trans (raise_regsOnly _ _)
  have hb : noticesOnly a b o := by
    unfold b
    split
    · exact noticesOnly_refl a o
    · exact raise_noticesOnly _ _
  have hc : regsOnly b u o [F.SORT_LN_CNT_OVFDROP_COUNT.key t.val 0] := by
    rw [hu]
    split
    · exact regsOnly_refl b o _
    · exact countBy_regsOnly _ _ _ _ rfl
  refine ⟨((ha.mono (by simp [closeKeys])).trans (hb.regsOnly _)).trans (hc.mono (by simp [closeKeys])), fun hm => ?_, fun hd => ?_⟩
  · rw [hc.rd (by simpa using hne) hlost, hb.rd hlost]
    unfold a
    rw [if_neg hm, (raise_noticesOnly _ _).rd hlost]
    exact rd_countBy_same _ _ _ _ rfl hlost
  · rw [hu, if_neg hd, ← ha.rd (f := F.SORT_LN_CNT_OVFDROP_COUNT) (by simpa using hne.symm) hovf, ← hb.rd hovf]
    exact rd_countBy_same _ _ _ _ rfl hovf

/-- Office `o` keeps its district rounds and every register that keeps no account of notices. -/
def roundsKept (s u : State) (o : OfficeId) : Prop :=
  onlyOff s u o ∧ u.out = s.out ∧ (u.off o).rounds = (s.off o).rounds ∧ ∀ f i j, f.key i j ∉ noticeKeys → u.rd o f i j = s.rd o f i j

theorem onlyOff_refl (s : State) (o : OfficeId) : onlyOff s s o := ⟨rfl, rfl, rfl, rfl, rfl⟩

theorem roundsKept_trans (h : roundsKept s u o) (k : roundsKept u v o) : roundsKept s v o := by
  obtain ⟨hoff, hout, hrounds, hrd⟩ := h
  obtain ⟨koff, kout, krounds, krd⟩ := k
  exact ⟨onlyOff_trans hoff koff, kout.trans hout, krounds.trans hrounds, fun f i j hf => (krd f i j hf).trans (hrd f i j hf)⟩

theorem lateClose_roundsKept (n : Nat) : roundsKept s (s.lateClose o t r n) o := by
  unfold State.lateClose
  split
  · exact ⟨onlyOff_refl s o, rfl, rfl, fun _ _ _ _ => rfl⟩
  · exact raiseOnceRound_spec _ _ _

theorem noticeOverflow_roundsKept : roundsKept s (s.noticeOverflow o t r) o := by
  unfold State.noticeOverflow
  dsimp only
  split
  · exact ⟨onlyOff_refl s o, rfl, rfl, fun _ _ _ _ => rfl⟩
  · exact raiseOnceRound_spec _ _ _

theorem modAcc_roundsKept (g : RoundAcc → RoundAcc) : roundsKept s (s.modAcc o r g) o :=
  ⟨modOff_onlyOff _, rfl, by simp [State.modAcc], fun _ _ _ _ => by simp [State.modAcc, State.rd]⟩

theorem accClose_roundsKept (n : Nat) : roundsKept s (s.accClose o t r n) o := by
  unfold State.accClose
  dsimp only
  split
  · exact roundsKept_trans (modAcc_roundsKept _) noticeOverflow_roundsKept
  · exact modAcc_roundsKept _

/-- A district round with its close record (R143, R174). -/
def DRound.closed (e : DRound) (c : CloseRec) (now : Nat) (late : Bool) : DRound :=
  { e with close := some c, lostFrames := decide (c.frames - e.frames ≠ 0), readyAt := if late && !e.noClose then some now else e.readyAt }

/-- Whether a close comes after the late window of its round (R174). -/
def State.closesLate (s : State) (o : OfficeId) (r : Nat) : Bool :=
  tickLe (s.closingTick o r + s.rd o F.SORT_MG_LATEWIN_LATE_WIN) (s.off o).count.toNat

/-- The district rounds with a close kept, or what was kept of a merged one gone (R174). -/
def State.keepClose (s : State) (o : OfficeId) (k : Nat) (e : DRound) : State :=
  s.modOff o fun d => { d with rounds := if keyLt k d.nextKey then Sparse.erase d.rounds k else Sparse.set {} d.rounds k e }

theorem takeClose_eq {k : Nat} (hk : k = roundKey r (districtByte t (frmDistrict f.hdr))) (hm : (s.off o).merges r = true)
    (hc : ((s.off o).round k).close = none) (hb : (s.off o).begun k = false ∨ ((s.off o).round k).noClose = true) :
    let e := (s.off o).round k
    let c := closeRecOf f
    let v := (s.keepClose o k (e.closed c s.now (s.closesLate o r))).tallyClose o t r (frmDistrict f.hdr) (c.frames - e.frames) c
    s.takeClose o t r f = if e.noClose then v.lateClose o t r c.dropped else v.accClose o t r c.dropped := by
  subst hk
  refine if_neg ?_
  rintro (h | h | ⟨h, h'⟩)
  · exact Bool.false_ne_true (h.symm.trans hm)
  · rw [hc] at h
    exact Bool.false_ne_true h
  · rcases hb with hb | hb
    · exact Bool.false_ne_true (hb.symm.trans h)
    · exact Bool.false_ne_true (h'.symm.trans hb)

/-- A close that the owner takes: what it counts, and the other district rounds (R135, R143). -/
theorem takeClose_spec {k : Nat} (hk : k = roundKey r (districtByte t (frmDistrict f.hdr))) (hm : (s.off o).merges r = true)
    (hc : ((s.off o).round k).close = none) (hb : (s.off o).begun k = false ∨ ((s.off o).round k).noClose = true) :
    let e := (s.off o).round k
    let c := closeRecOf f
    let u := s.takeClose o t r f
    (keyLt k (s.off o).nextKey = false → (u.off o).round k = e.closed c s.now (s.closesLate o r)) ∧
      (e.frames < c.frames → u.rd o F.SORT_LN_CNT_LOSTFRM_COUNT t.val =
        min (s.rd o F.SORT_LN_CNT_LOSTFRM_COUNT t.val + (c.frames - e.frames)) 0xFFFFFFFF) ∧
      (0 < c.dropped → u.rd o F.SORT_LN_CNT_OVFDROP_COUNT t.val = min (s.rd o F.SORT_LN_CNT_OVFDROP_COUNT t.val + c.dropped) 0xFFFFFFFF) ∧
      (∀ y, y ≠ k → (u.off o).round y = (s.off o).round y) ∧ onlyOff s u o ∧ u.out = s.out := by
  intro e c u
  let a := s.keepClose o k (e.closed c s.now (s.closesLate o r))
  let v := a.tallyClose o t r (frmDistrict f.hdr) (c.frames - e.frames) c
  obtain ⟨hv, hlost, hovf⟩ := tallyClose_spec a o t r (frmDistrict f.hdr) (c.frames - e.frames) c
  obtain ⟨klost, kovf, -⟩ := closeKeys_spec t
  have hu : roundsKept v u o := by
    have hu : u = if e.noClose then v.lateClose o t r c.dropped else v.accClose o t r c.dropped := takeClose_eq hk hm hc hb
    rw [hu]
    split
    · exact lateClose_roundsKept _
    · exact accClose_roundsKept _
  obtain ⟨hoff, hout, hrounds, hrd⟩ := hu
  have hround : ∀ y, (u.off o).round y = (a.off o).round y := fun y =>
    congrArg (fun m => (Sparse.get {} m y : DRound)) (hrounds.trans (hv.field Office.rounds fun _ _ _ _ _ _ _ => rfl))
  have ha : (a.off o).rounds = if keyLt k (s.off o).nextKey then Sparse.erase (s.off o).rounds k
      else Sparse.set {} (s.off o).rounds k (e.closed c s.now (s.closesLate o r)) := congrArg Office.rounds (modOff_off_same _)
  have hrda : ∀ g i j, a.rd o g i j = s.rd o g i j := fun g i j => by simp [a, State.keepClose, State.rd]
  refine ⟨fun hn => ?_, fun hm => ?_, fun hd => ?_, fun y hy => ?_, onlyOff_trans (onlyOff_trans (modOff_onlyOff _) hv.onlyOff) hoff,
    hout.trans hv.out⟩
  · rw [hround, Office.round, ha, hn]
    exact Sparse.get_set_same _ _ _ _
  · rw [hrd _ _ _ klost, ← hrda]
    exact hlost (by omega)
  · rw [hrd _ _ _ kovf, ← hrda]
    exact hovf (by omega)
  · rw [hround, Office.round, ha]
    split
    · exact Sparse.get_erase_other _ _ hy
    · exact Sparse.get_set_other _ _ _ hy

/-! ### Idle frames -/

theorem livenessKeys (t : Fin 4) : F.SORT_LN_STAT_DL.key t.val 0 ∉ noticeKeys ∧ F.SORT_LN_STAT_DL.key t.val 0 ∉
    [F.TWN_STAT_REACH.key 0 0, F.TWN_HEALTH_REACH.key 0 0, F.TWN_STAT_HEALTHY.key 0 0] := by
  revert t
  decide

/-- A liveness word is kept with its arrival, and the state of the downlink with it (R144, R522). -/
theorem takeLiveness_spec (s : State) (o : OfficeId) (t : Fin 4) (w : W32) : let u := s.takeLiveness o t w
    (u.off o).liveness = (s.off o).liveness.set t (some (s.now, w)) ∧ u.rd o F.SORT_LN_STAT_DL t.val = bitsOf w.toNat 8 2 ∧
      (u.off o).rounds = (s.off o).rounds ∧ (u.off o).lanes = (s.off o).lanes ∧ onlyOff s u o ∧ u.out = s.out := by
  intro u
  obtain ⟨hn, hk⟩ := livenessKeys t
  let a := s.modOff o fun d =>
    { d with liveness := d.liveness.set t (some (s.now, w))
             twin := { d.twin with seniorElig := d.twin.seniorElig ||
               (decide (bitsOf w.toNat 2 2 = 3) && decide (bitsOf w.toNat 0 2 = s.rd o F.TWN_CFG_SENIOR)) } }
  have hwr := wr_regsOnly (s := a) (o := o) F.SORT_LN_STAT_DL (bitsOf w.toNat 8 2) t.val 0 rfl
  have hreach := refreshReach_regsOnly (s := a.wr o F.SORT_LN_STAT_DL (bitsOf w.toNat 8 2) t.val) (o := o)
  have hfield : ∀ {α : Type} (g : Office → α), (∀ (d : Office) rx log held lost regs fresh,
      g { d with pcieRx := rx, log := log, held := held, noticesLost := lost, regs := regs, fresh := fresh } = g d) →
      g (u.off o) = g (a.off o) := fun g hg => (hreach.field g hg).trans (hwr.field g hg)
  have ha : a.off o = _ := modOff_off_same _
  refine ⟨?_, ?_, ?_, ?_, onlyOff_trans (modOff_onlyOff _) (onlyOff_trans hwr.onlyOff hreach.onlyOff), hreach.out.trans (hwr.out.trans rfl)⟩
  · rw [hfield Office.liveness fun _ _ _ _ _ _ _ => rfl, ha]
  · rw [show u.rd o F.SORT_LN_STAT_DL t.val = _ from hreach.rd hk hn, rd_wr_same]
    exact Nat.mod_eq_of_lt (Nat.mod_lt _ (by decide))
  · rw [hfield Office.rounds fun _ _ _ _ _ _ _ => rfl, ha]
  · rw [hfield Office.lanes fun _ _ _ _ _ _ _ => rfl, ha]

/-- An idle frame on a letter lane: the office with what it does for the training of its lane takes the word (R144, R712). -/
theorem rxFrame_idle (k : Fin 8) (h : (s.off o).inReset = false) (hf : s.frameFault o f = none) (ht : frmType f.hdr = 3) :
    ∃ m, s.rxFrame o t k f = (s.setLanes o m).takeLiveness o t (BitVec.ofNat 32 (ofLe f.payload)) ∧
      ((s.lane o t (.letter k)).state = .training → ((s.setLanes o m).lane o t (.letter k)).good = (s.lane o t (.letter k)).good + 1) := by
  obtain ⟨m, hm⟩ := trainLane_letter (s := s) (o := o) (t := t) k true false
  refine ⟨m, ?_, fun htr => ?_⟩
  · have hreset : ((s.setLanes o m).off o).inReset = false := by simp [State.setLanes, h]
    have hround : ∀ x, (s.setLanes o m).fullRound o x = s.fullRound o x := fun x => by simp [State.setLanes, State.fullRound, State.roundOf]
    have howns : (s.setLanes o m).owns o = s.owns o := owns_of_regs (by simp [State.setLanes])
    have hfault : (s.setLanes o m).frameFault o f = none := by
      rw [← hf]
      simp only [State.frameFault, hround, howns]
    rw [rxFrame_of_idle k h hf ht, hm, takeFrame_idle hreset hfault ht]
  · rw [← hm]
    simp [State.trainLane, htr]

/-! ### Status frames -/

/-- The counters of a tile are registers of an office, none of them an account of notices (R74, R118). -/
theorem tileCounter_spec (t : Fin 4) : ∀ g ∈ tileCounters, g.2.2.svc = false ∧ g.2.2.w = 32 ∧ g.2.2.key t.val 0 ∉ noticeKeys := by
  revert t
  decide

/-- A status word refreshes the copy of its counter; one of all ones is reported (R69, R78). -/
theorem copyCounter_spec (s : State) (o : OfficeId) (t : Fin 4) {g : Fld} {x : Nat} (hg : g.svc = false ∧ g.w = 32 ∧ g.key t.val 0 ∉ noticeKeys) :
    let u := s.copyCounter o t g x
    u.rd o g t.val = x % 2 ^ 32 ∧ (u.off o).statusAt = (s.off o).statusAt ∧ u.out = s.out ∧ (x ≠ 0xFFFFFFFF → onlyOff s u o) ∧
      regsKept s u o [g.key t.val 0] := by
  intro u
  obtain ⟨hsvc, hwidth, hkey⟩ := hg
  let a := s.wr o g x t.val
  have ha : regsOnly s a o [g.key t.val 0] := wr_regsOnly g x t.val 0 hsvc
  have hrd : a.rd o g t.val = x % 2 ^ 32 := by rw [← hwidth]; exact rd_wr_same _ _ _ _
  have hstat : (a.off o).statusAt = (s.off o).statusAt := ha.field Office.statusAt fun _ _ _ _ _ _ _ => rfl
  by_cases hfull : x = 0xFFFFFFFF ∧ (a.tile t).fullNoted.contains (g.key t.val 0) = false
  · let b := a.modTile t fun d => { d with fullNoted := g.key t.val 0 :: d.fullNoted }
    have hu : u = b.raise o 0x0101 (le 1 t.val ++ le 4 (g.addr t.val 0)) := if_pos hfull
    have hb : b.off o = a.off o := rfl
    have hn := raise_noticesOnly (s := b) (o := o) 0x0101 (le 1 t.val ++ le 4 (g.addr t.val 0))
    rw [hu]
    refine ⟨(hn.rd hkey).trans hrd, (hn.field Office.statusAt fun _ _ _ _ _ _ => rfl).trans hstat, hn.out.trans ha.out,
      fun hx => absurd hfull.1 hx, fun k hk hkn => ?_⟩
    exact ((hn.regsOnly []).regsKept k (by simp) hkn).trans (ha.regsKept k hk hkn)
  · have hu : u = a := if_neg hfull
    rw [hu]
    exact ⟨hrd, hstat, ha.out, fun _ => ha.onlyOff, ha.regsKept⟩

/-- A status word that names a counter refreshes its copy (R69, R145). -/
theorem takeStatusWord_counter {g : Nat × Nat × Fld} {w : W64} (h1 : bitsOf w.toNat 0 8 = 1)
    (hg : (tileCounters.find? fun e => e.1 = bitsOf w.toNat 8 8 && e.2.1 = bitsOf w.toNat 16 8) = some g) :
    s.takeStatusWord o t w = s.copyCounter o t g.2.2 (bitsOf w.toNat 32 32) := by
  unfold State.takeStatusWord
  rw [h1]
  dsimp only
  rw [hg]
  rfl

/-- A status frame of one word that names a counter (R145, R146). -/
theorem takeStatus_counter {g : Nat × Nat × Fld} {w : Nat} (hw : w = ofLe (f.payload.take 8)) (hn : frmCount f.hdr = 1) (h1 : w % 256 = 1)
    (hg : (tileCounters.find? fun e => e.1 = w / 2 ^ 8 % 256 && e.2.1 = w / 2 ^ 16 % 256) = some g) :
    s.takeStatus o t f = (s.modOff o fun d => { d with statusAt := d.statusAt.set t (some s.now) }).copyCounter o t g.2.2 (w / 2 ^ 32 % 2 ^ 32) := by
  have hwords : wordsOf 8 (frmCount f.hdr) f.payload = [w] := by simp [hn, wordsOf, hw]
  have hnat : (BitVec.ofNat 64 w).toNat = w % 2 ^ 64 := BitVec.toNat_ofNat w 64
  have hkind : bitsOf (BitVec.ofNat 64 w).toNat 0 8 = 1 := by rw [hnat, bitsOf]; omega
  have hgroup : bitsOf (BitVec.ofNat 64 w).toNat 8 8 = w / 2 ^ 8 % 256 := by rw [hnat, bitsOf]; omega
  have hofs : bitsOf (BitVec.ofNat 64 w).toNat 16 8 = w / 2 ^ 16 % 256 := by rw [hnat, bitsOf]; omega
  have hvalue : bitsOf (BitVec.ofNat 64 w).toNat 32 32 = w / 2 ^ 32 % 2 ^ 32 := by rw [hnat, bitsOf]; omega
  unfold State.takeStatus
  rw [hwords, List.foldl_cons, List.foldl_nil, takeStatusWord_counter hkind (by rw [hgroup, hofs]; exact hg), hvalue]

/-- Settles O21: a close by its tallies and what is kept of it, an idle frame by its word, a status frame by its counter. -/
theorem closeIdleAndStatusFrames : Obligations.CloseIdleAndStatusFrames := by
  intro s o t k f r x e frames w ovf hreset hf
  refine ⟨fun ht hr ho hm hb hc hn => ?_, fun ht hr ho hm hc hn => ?_, fun ht ho => ?_, fun ht => ?_, fun ht hcount h1 g hg => ?_⟩
  · have hx : exec (.closeFrameRx o t k f) s = .next (s.takeClose o t r f) := by
      refine congrArg Host.Outcome.next ((rxFrame_of_notIdle k hreset hf (by omega)).trans ((takeFrame_close hreset hf ht).trans ?_))
      rw [if_pos ho, hr]
      rfl
    obtain ⟨hround, hlost, -, hothers, hoff, hout⟩ := takeClose_spec rfl hm hc (.inl hb)
    have hkey : keyLt x (s.off o).nextKey = false := by
      simp only [Office.begun, Bool.or_eq_false_iff] at hb
      exact hb.1
    refine ⟨_, hx, ?_, ?_, ?_, hlost, hothers, hoff, hout⟩
    all_goals rw [hround hkey]
    · rfl
    · rfl
    · refine decide_eq_decide.2 ?_
      show frames - e.frames ≠ 0 ↔ _
      omega
  · have hx : exec (.closeFrameRx o t k f) s = .next (s.takeClose o t r f) := by
      refine congrArg Host.Outcome.next ((rxFrame_of_notIdle k hreset hf (by omega)).trans ((takeFrame_close hreset hf ht).trans ?_))
      rw [if_pos ho, hr]
      rfl
    obtain ⟨hround, hlost, hovf, hothers, hoff, hout⟩ := takeClose_spec rfl hm hc (.inr hn)
    refine ⟨_, hx, hlost, hovf, fun hk => ?_, hothers, hoff, hout⟩
    rw [hround hk]
    have hready : ∀ late, (e.closed (closeRecOf f) s.now late).readyAt = e.readyAt := fun late => if_neg (by simp [hn])
    exact ⟨rfl, hready _⟩
  · refine congrArg Host.Outcome.next ((rxFrame_of_notIdle k hreset hf (by omega)).trans ((takeFrame_close hreset hf ht).trans ?_))
    rw [ho]
    rfl
  · obtain ⟨m, hx, hgood⟩ := rxFrame_idle (t := t) k hreset hf ht
    let v := s.setLanes o m
    have hv : v.off o = { s.off o with lanes := m } := modOff_off_same _
    obtain ⟨hlive, hdl, hrounds, hlanes, hoff, hout⟩ := takeLiveness_spec v o t (BitVec.ofNat 32 (ofLe f.payload))
    refine ⟨_, congrArg Host.Outcome.next hx, ?_, ?_, ?_, fun htr => ?_, fun y hy => ?_, onlyOff_trans (modOff_onlyOff _) hoff, hout⟩
    · rw [hlive, Quad.get_set_same]
      rfl
    · rw [hdl, BitVec.toNat_ofNat]
      unfold bitsOf
      omega
    · rw [hrounds, hv]
    · rw [lane_congr hlanes hoff.2.2.1]
      exact hgood htr
    · rw [hlive, Quad.get_set_other _ _ hy, hv]
  · have hx : exec (.statusFrameRx o t k f) s = .next (s.takeStatus o t f) :=
      congrArg Host.Outcome.next ((rxFrame_of_notIdle k hreset hf (by omega)).trans (takeFrame_status hreset hf ht))
    let v := s.modOff o fun d => { d with statusAt := d.statusAt.set t (some s.now) }
    have hv : v.off o = { s.off o with statusAt := (s.off o).statusAt.set t (some s.now) } := modOff_off_same _
    obtain ⟨hrd, hstat, hout, hoff, hregs⟩ := copyCounter_spec v o t (x := w / 2 ^ 32 % 2 ^ 32) (tileCounter_spec t g (List.mem_of_find?_eq_some hg))
    refine ⟨_, hx.trans (congrArg Host.Outcome.next (takeStatus_counter rfl hcount h1 hg)), ?_, ?_, hout, fun hn => ?_, fun a ha hn => ?_⟩
    · exact hrd.trans (Nat.mod_mod _ _)
    · rw [hstat, hv, Quad.get_set_same]
    · exact onlyOff_trans (modOff_onlyOff _) (hoff hn)
    · rw [hregs a ha hn, hv]

end Sys2Proof.Machine
end

section
/-! SUPPORT. What reads of arrays leave of an office (19 R677, R678, R680, R685), and what the calibration service changes beside them. -/

namespace Sys2Proof.Machine

variable {s u v : State} {o : OfficeId} {ks ks' : List Nat} {a w : Nat}

/-! ### Registers that no array read touches -/

/-- A key below the pigeonholes, or one of the emitters, the calibration service and the power registers: reads of arrays, and the account
of notices, leave it. -/
def calKey (k : Nat) : Bool := decide (k < 0x740000 * 32) || (decide (0xA00000 * 32 ≤ k) && decide (k < 0xC00000 * 32))

theorem calKey_of_errors {f : Fld} (h : 0xC00000 ≤ f.off) (i j : Nat) : calKey (f.key i j) = false := by
  have hk : 0xC00000 * 32 ≤ f.key i j := by
    unfold Fld.key Fld.addr
    omega
  unfold calKey
  simp only [Bool.or_eq_false_iff, Bool.and_eq_false_iff, decide_eq_false_iff_not]
  omega

theorem not_notice_of_calKey {k : Nat} (h : calKey k = true) : k ∉ noticeKeys := fun hk => by
  have hall : ∀ a ∈ noticeKeys, calKey a = false := by decide
  exact Bool.false_ne_true ((hall k hk).symm.trans h)

/-- Of the registers that no array read touches, office `o` has written at most those at the keys `ks`; no other die changes and nothing is
sent. -/
def calOnly (s u : State) (o : OfficeId) (ks : List Nat) : Prop :=
  onlyOff s u o ∧ u.out = s.out ∧ ∀ k, calKey k = true → k ∉ ks → Sparse.get 0 (u.off o).regs k = Sparse.get 0 (s.off o).regs k

theorem calOnly_refl (s : State) (o : OfficeId) (ks : List Nat) : calOnly s s o ks := ⟨onlyOff_refl s o, rfl, fun _ _ _ => rfl⟩

theorem regsOnly.calOnly (h : regsOnly s u o ks) : calOnly s u o ks :=
  ⟨h.onlyOff, h.out, fun k hk hn => h.regsKept k hn (not_notice_of_calKey hk)⟩

theorem noticesOnly.calOnly (h : noticesOnly s u o) (ks : List Nat) : calOnly s u o ks := (h.regsOnly ks).calOnly

namespace calOnly

theorem trans (h : calOnly s u o ks) (k : calOnly u v o ks) : calOnly s v o ks := by
  obtain ⟨hoff, hout, hregs⟩ := h
  obtain ⟨koff, kout, kregs⟩ := k
  exact ⟨onlyOff_trans hoff koff, kout.trans hout, fun a ha hn => (kregs a ha hn).trans (hregs a ha hn)⟩

theorem mono (h : calOnly s u o ks) (hk : ∀ k ∈ ks, k ∈ ks') : calOnly s u o ks' := by
  obtain ⟨hoff, hout, hregs⟩ := h
  exact ⟨hoff, hout, fun a ha hn => hregs a ha fun hm => hn (hk a hm)⟩

theorem rd (h : calOnly s u o ks) {f : Fld} {i j : Nat} (hk : calKey (f.key i j) = true) (hn : f.key i j ∉ ks) : u.rd o f i j = s.rd o f i j := by
  obtain ⟨⟨-, -, -, hsvc, -⟩, -, hregs⟩ := h
  unfold State.rd regGet
  rw [hsvc, hregs _ hk hn]

end calOnly

/-- A change of what the office holds beside its registers. -/
theorem modOff_calOnly (g : Office → Office) (hg : (g (s.off o)).regs = (s.off o).regs) : calOnly s (s.modOff o g) o ks :=
  ⟨modOff_onlyOff g, rfl, fun _ _ _ => by rw [modOff_off_same, hg]⟩

/-! ### Reads of arrays -/

/-- Words of arrays have been read: of office `o` only the arrays, what it keeps of bad words, its notices and the registers of errors, health
and notices differ. -/
def arraysOnly (s u : State) (o : OfficeId) : Prop :=
  calOnly s u o [] ∧ u.off o = { s.off o with
    arr := (u.off o).arr, syn := (u.off o).syn, ueWindow := (u.off o).ueWindow, noticed := (u.off o).noticed, poisonRecent := (u.off o).poisonRecent
    pcieRx := (u.off o).pcieRx, log := (u.off o).log, held := (u.off o).held, noticesLost := (u.off o).noticesLost
    regs := (u.off o).regs, fresh := (u.off o).fresh }

theorem arraysOnly_refl (s : State) (o : OfficeId) : arraysOnly s s o := ⟨calOnly_refl s o [], rfl⟩

theorem arraysOnly_trans (h : arraysOnly s u o) (k : arraysOnly u v o) : arraysOnly s v o := by
  obtain ⟨hc, ho⟩ := h
  obtain ⟨kc, ko⟩ := k
  exact ⟨hc.trans kc, ko.trans (congrArg (fun x : Office => { x with
    arr := (v.off o).arr, syn := (v.off o).syn, ueWindow := (v.off o).ueWindow, noticed := (v.off o).noticed, poisonRecent := (v.off o).poisonRecent
    pcieRx := (v.off o).pcieRx, log := (v.off o).log, held := (v.off o).held, noticesLost := (v.off o).noticesLost
    regs := (v.off o).regs, fresh := (v.off o).fresh }) ho)⟩

/-- What an office holds beside arrays, bad words, notices and registers is as before. -/
theorem arraysOnly.field {α : Type} (h : arraysOnly s u o) (g : Office → α)
    (hg : ∀ (d : Office) arr syn ue noticed recent rx log held lost regs fresh,
      g { d with arr := arr, syn := syn, ueWindow := ue, noticed := noticed, poisonRecent := recent, pcieRx := rx, log := log, held := held,
                 noticesLost := lost, regs := regs, fresh := fresh } = g d) : g (u.off o) = g (s.off o) := by
  rw [h.2, hg]

theorem regsOnly.arraysOnly (h : regsOnly s u o ks) (hk : ∀ k ∈ ks, calKey k = false) : arraysOnly s u o := by
  obtain ⟨hoff, hout, hregs⟩ := h.calOnly
  refine ⟨⟨hoff, hout, fun k hc _ => hregs k hc fun hm => Bool.false_ne_true ((hk k hm).symm.trans hc)⟩, ?_⟩
  obtain ⟨d, rfl, hd, -⟩ := h
  rw [modOff_off_same]
  exact hd.trans (by rw [hd])

theorem noticesOnly.arraysOnly (h : noticesOnly s u o) : arraysOnly s u o := (h.regsOnly []).arraysOnly nofun

theorem raise_arraysOnly (code : Nat) (b : List Byte) : arraysOnly s (s.raise o code b) o := (raise_noticesOnly code b).arraysOnly

theorem wr_arraysOnly (f : Fld) (x i j : Nat) (hf : f.svc = false) (hk : 0xC00000 ≤ f.off) : arraysOnly s (s.wr o f x i j) o :=
  (wr_regsOnly f x i j hf).arraysOnly (by simpa using calKey_of_errors hk i j)

theorem countUp_arraysOnly (f : Fld) (i j : Nat) (hf : f.svc = false) (hk : 0xC00000 ≤ f.off) : arraysOnly s (s.countUp o f i j) o :=
  (countUp_regsOnly f i j hf).arraysOnly (by simpa using calKey_of_errors hk i j)

theorem wrPair_arraysOnly (lo hi : Fld) (x i : Nat) (hl : lo.svc = false) (hh : hi.svc = false) (kl : 0xC00000 ≤ lo.off) (kh : 0xC00000 ≤ hi.off) :
    arraysOnly s (s.wrPair o lo hi x i) o := arraysOnly_trans (wr_arraysOnly lo _ i 0 hl kl) (wr_arraysOnly hi _ i 0 hh kh)

theorem draw_arraysOnly (n : Nat) : arraysOnly s (s.draw n).2 o := ⟨⟨⟨rfl, rfl, rfl, rfl, rfl⟩, rfl, fun _ _ _ => rfl⟩, rfl⟩

theorem trackerNotify_arraysOnly (k : Nat) : arraysOnly s (s.trackerNotify o k) o := by
  unfold State.trackerNotify
  split
  · exact arraysOnly_trans (wr_arraysOnly F.ERR_RT_STAT_NOTIFIED 1 k 0 rfl (by decide)) (raise_arraysOnly _ _)
  · exact arraysOnly_refl s o

theorem fillTracker_arraysOnly (k a w : Nat) : arraysOnly s (s.fillTracker o k a w) o := by
  have hentry := arraysOnly_trans (arraysOnly_trans (wr_arraysOnly (s := s) (o := o) F.ERR_RT_ADDR_WORD w k 0 rfl (by decide))
    (wr_arraysOnly F.ERR_RT_STAT_ARRAY a k 0 rfl (by decide))) (wr_arraysOnly F.ERR_RT_STAT_VALID 1 k 0 rfl (by decide))
  have hcount := arraysOnly_trans (arraysOnly_trans hentry (wr_arraysOnly F.ERR_RT_STAT_COUNT 1 k 0 rfl (by decide)))
    (wr_arraysOnly F.ERR_RT_STAT_NOTIFIED 0 k 0 rfl (by decide))
  exact arraysOnly_trans (arraysOnly_trans hcount (wrPair_arraysOnly _ _ _ k rfl rfl (by decide) (by decide))) (trackerNotify_arraysOnly k)

theorem track_arraysOnly (a w : Nat) : arraysOnly s (s.track o a w) o := by
  unfold State.track
  split
  · exact arraysOnly_trans (arraysOnly_trans (wr_arraysOnly F.ERR_RT_STAT_COUNT _ _ 0 rfl (by decide))
      (wrPair_arraysOnly _ _ _ _ rfl rfl (by decide) (by decide))) (trackerNotify_arraysOnly _)
  · split
    · exact fillTracker_arraysOnly _ _ _
    · have hevict := countUp_arraysOnly (s := s) (o := o) F.ERR_CNT_RTEVICT_COUNT 0 0 rfl (by decide)
      dsimp only
      split
      · exact arraysOnly_trans hevict (fillTracker_arraysOnly _ _ _)
      · exact hevict

theorem modOff_arraysOnly (g : Office → Office) (hg : ∀ d : Office, g d = { d with
    arr := (g d).arr, syn := (g d).syn, ueWindow := (g d).ueWindow, noticed := (g d).noticed, poisonRecent := (g d).poisonRecent }) :
    arraysOnly s (s.modOff o g) o := by
  refine ⟨modOff_calOnly g (by rw [hg]), ?_⟩
  rw [modOff_off_same, hg]

theorem trip_arraysOnly (kind n limit : Nat) : arraysOnly s (s.trip o F.TWN_HEALTH_ARRAY kind n limit) o := by
  unfold State.trip
  split
  · exact arraysOnly_refl s o
  · exact arraysOnly_trans ((setHealth_regsOnly _ _ rfl).arraysOnly (by decide)) (raise_arraysOnly _ _)

theorem noteUe_arraysOnly (k : Nat) : arraysOnly s (s.noteUe o k) o := by
  unfold State.noteUe
  split
  · exact arraysOnly_refl s o
  · refine arraysOnly_trans ?_ (trip_arraysOnly _ _ _)
    exact modOff_arraysOnly _ fun _ => rfl

/-- A read of a word with its effects on counters, tracker and word (R677, R678). -/
theorem arrTouch_arraysOnly (a w : Nat) : arraysOnly s (s.arrTouch o a w) o := by
  unfold State.arrTouch
  dsimp only
  split
  · exact arraysOnly_refl s o
  · exact arraysOnly_trans (countUp_arraysOnly _ _ _ rfl (by decide)) (track_arraysOnly _ _)
  · refine arraysOnly_trans (arraysOnly_trans ?_ (countUp_arraysOnly _ _ _ rfl (by decide))) (noteUe_arraysOnly _)
    exact modOff_arraysOnly _ fun _ => rfl

theorem raiseOnceFor_arraysOnly (a w code : Nat) (b : List Byte) : arraysOnly s (s.raiseOnceFor o a w code b) o := by
  unfold State.raiseOnceFor
  dsimp only
  split
  · exact arraysOnly_refl s o
  · refine arraysOnly_trans ?_ (raise_arraysOnly _ _)
    exact modOff_arraysOnly _ fun _ => rfl

theorem raisePoisonedContext_arraysOnly (ch w : Nat) : arraysOnly s (s.raisePoisonedContext o ch w) o := by
  unfold State.raisePoisonedContext
  dsimp only
  split
  · exact arraysOnly_refl s o
  · refine arraysOnly_trans ?_ (raise_arraysOnly _ _)
    exact modOff_arraysOnly _ fun _ => rfl

theorem arrNotice_arraysOnly (a w : Nat) : arraysOnly s (s.arrNotice o a w) o := by
  unfold State.arrNotice
  split
  · exact raisePoisonedContext_arraysOnly _ _
  · split
    · exact raiseOnceFor_arraysOnly _ _ _ _
    · split
      · exact raiseOnceFor_arraysOnly _ _ _ _
      · split
        · exact raiseOnceFor_arraysOnly _ _ _ _
        · exact raiseOnceFor_arraysOnly _ _ _ _

/-- A read of a word with all its effects (R678). -/
theorem arrUse_arraysOnly (a w : Nat) : arraysOnly s (s.arrUse o a w) o := by
  unfold State.arrUse
  split
  · exact arraysOnly_trans (arrTouch_arraysOnly _ _) (arrNotice_arraysOnly _ _)
  · exact arrTouch_arraysOnly _ _

theorem foldl_arraysOnly {α : Type} (g : State → α → State) (hg : ∀ s a, arraysOnly s (g s a) o) (l : List α) (s : State) :
    arraysOnly s (l.foldl g s) o := by
  induction l generalizing s with
  | nil => exact arraysOnly_refl s o
  | cons a l ih => exact arraysOnly_trans (hg s a) (ih _)

end Sys2Proof.Machine
end

section
/-! SUPPORT. The evaluation of a campaign (16 R633) and the end of a code-density pass (03 R115; 16 R634). -/

namespace Sys2Proof.Machine

variable {s u v : State} {o : OfficeId}

/-! ### Candidates -/

theorem takeCell_spec (x : State × Sparse Int × Nat) (ch : Nat) :
    arraysOnly x.1 (State.takeCell o x ch).1 o ∧ (State.takeCell o x ch).2.2 ≤ x.2.2 + 1 := by
  unfold State.takeCell
  dsimp only
  split
  · exact ⟨arrTouch_arraysOnly _ _, Nat.le_refl _⟩
  · exact ⟨arrTouch_arraysOnly _ _, Nat.le_succ _⟩

/-- Reading the cells of a list accepts at most each of them (R633). -/
theorem takeCells_spec (l : List Nat) (g : Nat → Nat) (x : State × Sparse Int × Nat) : let r := l.foldl (fun x k => State.takeCell o x (g k)) x
    arraysOnly x.1 r.1 o ∧ r.2.2 ≤ x.2.2 + l.length := by
  induction l generalizing x with
  | nil => exact ⟨arraysOnly_refl _ o, Nat.le_refl _⟩
  | cons k l ih =>
    obtain ⟨hk, hn⟩ := takeCell_spec (o := o) x (g k)
    obtain ⟨hl, hm⟩ := ih (State.takeCell o x (g k))
    refine ⟨arraysOnly_trans hk hl, ?_⟩
    simp only [List.foldl_cons, List.length_cons]
    omega

/-- The candidates of the `n` first cells of districts `dbs`: steps, and how many cells are accepted (R633). -/
def State.takeDistricts (o : OfficeId) (n : Nat) (dbs : List Nat) (x : State × Sparse Int × Nat) : State × Sparse Int × Nat :=
  dbs.foldl (fun x db => (List.range n).foldl (fun x k => State.takeCell o x (db * 4096 + k)) x) x

theorem takeDistricts_spec (n : Nat) (dbs : List Nat) (x : State × Sparse Int × Nat) :
    arraysOnly x.1 (State.takeDistricts o n dbs x).1 o ∧ (State.takeDistricts o n dbs x).2.2 ≤ x.2.2 + dbs.length * n := by
  induction dbs generalizing x with
  | nil => exact ⟨arraysOnly_refl _ o, Nat.le_add_right _ _⟩
  | cons db dbs ih =>
    obtain ⟨hdb, hcells⟩ := takeCells_spec (o := o) (List.range n) (db * 4096 + ·) x
    obtain ⟨hl, hm⟩ := ih ((List.range n).foldl (fun x k => State.takeCell o x (db * 4096 + k)) x)
    refine ⟨arraysOnly_trans hdb hl, hm.trans ?_⟩
    rw [List.length_range] at hcells
    rw [List.length_cons, Nat.succ_mul]
    omega

theorem litDistricts_length (d : Office) : d.litDistricts.length ≤ 256 := by
  refine (List.length_filter_le _ _).trans ?_
  rw [List.length_range]

theorem takeWalk_arraysOnly (x : State × Sparse Int) (table : Nat) : arraysOnly x.1 (State.takeWalk o x table).1 o := by
  unfold State.takeWalk
  dsimp only
  generalize List.filter _ _ = l
  generalize hmean : roundDiv _ _ = mean
  clear hmean
  generalize (x.1.off o).cal = c
  induction l generalizing x with
  | nil => exact arraysOnly_refl _ o
  | cons k l ih =>
    refine arraysOnly_trans ?_ (ih _)
    dsimp only
    split
    · exact arrUse_arraysOnly _ _
    · exact arraysOnly_trans (arrUse_arraysOnly _ _) (draw_arraysOnly 13)

theorem takeWalks_arraysOnly (l : List Nat) (x : State × Sparse Int) : arraysOnly x.1 (l.foldl (State.takeWalk o) x).1 o := by
  induction l generalizing x with
  | nil => exact arraysOnly_refl _ o
  | cons k l ih => exact arraysOnly_trans (takeWalk_arraysOnly x k) (ih _)

/-! ### The evaluation -/

/-- A delta with nothing in it settles at once (R634). -/
theorem settleDelta_of_empty (h : (s.off o).cal.waiting = []) : s.settleDelta o = s := if_pos (.inl h)

/-- Outside IDLE no delta of a pass is applied (R634). -/
theorem settleDelta_of_busy (h : s.rd o F.EMT_CAL_STAT_STATE ≠ 0) : s.settleDelta o = s := if_pos (.inr (.inr h))

/-- A campaign that too few cells accept is rejected whole (R633). -/
def State.rejectCampaign (s : State) (o : OfficeId) : State :=
  ((s.wr o F.EMT_CAL_STAT_STATE 0).wr o F.EMT_CAL_STAT_CAUSE 0x10).raise o 0x0D12 (le 4 0 ++ le 1 0x10)

/-- The candidates of a campaign are ready (R633). -/
def State.readyCampaign (s : State) (o : OfficeId) (steps : Sparse Int) (n total dm : Nat) : State :=
  let w := if s.rd o F.EMT_CAL_CTL_MODE = 1 then (List.range 512).foldl (State.takeWalk o) (s, []) else (s, [])
  ((w.1.modCal o fun c => { c with offsets := steps, walk := w.2 }).wr o F.EMT_CAL_STAT_STATE 3).raise o 0x0D11
    (le 3 n ++ le 3 (total - n) ++ le 4 dm)

/-- The registers that an evaluation fills (R633, R637). -/
def State.countCells (s : State) (o : OfficeId) (n total : Nat) : State :=
  let s := (s.wr o F.EMT_CAL_RES_ACCEPT n).wr o F.EMT_CAL_RES2_REJECT (total - n)
  s.wr o F.EMT_CAL_DM_DM (ofInt 32 (s.moduleStep o))

/-- What an evaluation makes of an office that owns and evaluates (R633). -/
def State.evaluated (s : State) (o : OfficeId) : State :=
  let lit := (s.off o).litDistricts
  let r := State.takeDistricts o 4096 lit (s, [], 0)
  let total := lit.length * 4096
  let c := r.1.countCells o r.2.2 total
  if r.2.2 * 256 < c.rd o F.EMT_CAL_CFG_MIN_CELLS * total then (c.rejectCampaign o).settleDelta o
  else
    let q := c.readyCampaign o r.2.1 r.2.2 total (ofInt 32 (((r.1.wr o F.EMT_CAL_RES_ACCEPT r.2.2).wr o F.EMT_CAL_RES2_REJECT (total - r.2.2)).moduleStep o))
    if q.flag o F.EMT_CAL_CFG_AUTO_APPLY then q.beginApply o else q

theorem exec_evaluationDone : exec (.evaluationDone o) s =
    .next (if (s.off o).inReset ∨ s.owns o = false ∨ s.rd o F.EMT_CAL_STAT_STATE ≠ 2 then s else s.evaluated o) := rfl

/-- The registers that an evaluation writes. -/
def evaluationKeys : List Nat :=
  [F.EMT_CAL_RES_ACCEPT.key 0 0, F.EMT_CAL_RES2_REJECT.key 0 0, F.EMT_CAL_DM_DM.key 0 0, F.EMT_CAL_STAT_STATE.key 0 0, F.EMT_CAL_STAT_CAUSE.key 0 0]

theorem countCells_spec (n total : Nat) (hn : n ≤ total) (ht : total < 2 ^ 21) : let u := s.countCells o n total
    regsOnly s u o [F.EMT_CAL_RES_ACCEPT.key 0 0, F.EMT_CAL_RES2_REJECT.key 0 0, F.EMT_CAL_DM_DM.key 0 0] ∧
      u.rd o F.EMT_CAL_RES_ACCEPT = n ∧ u.rd o F.EMT_CAL_RES2_REJECT = total - n := by
  intro u
  have ha := wr_regsOnly (s := s) (o := o) F.EMT_CAL_RES_ACCEPT n 0 0 rfl
  have hr := wr_regsOnly (s := s.wr o F.EMT_CAL_RES_ACCEPT n) (o := o) F.EMT_CAL_RES2_REJECT (total - n) 0 0 rfl
  have hd := wr_regsOnly (s := (s.wr o F.EMT_CAL_RES_ACCEPT n).wr o F.EMT_CAL_RES2_REJECT (total - n)) (o := o) F.EMT_CAL_DM_DM
    (ofInt 32 (((s.wr o F.EMT_CAL_RES_ACCEPT n).wr o F.EMT_CAL_RES2_REJECT (total - n)).moduleStep o)) 0 0 rfl
  refine ⟨((ha.mono (by simp)).trans (hr.mono (by simp))).trans (hd.mono (by simp)), ?_, ?_⟩
  · exact (hd.rd (by decide) (by decide)).trans ((hr.rd (by decide) (by decide)).trans ((rd_wr_same _ _ _ _).trans (Nat.mod_eq_of_lt (by
      simp only [F.EMT_CAL_RES_ACCEPT, mkF]; omega))))
  · exact (hd.rd (by decide) (by decide)).trans ((rd_wr_same _ _ _ _).trans (Nat.mod_eq_of_lt (by simp only [F.EMT_CAL_RES2_REJECT, mkF]; omega)))

theorem rejectCampaign_spec : let u := s.rejectCampaign o
    regsOnly s u o [F.EMT_CAL_STAT_STATE.key 0 0, F.EMT_CAL_STAT_CAUSE.key 0 0] ∧ u.rd o F.EMT_CAL_STAT_STATE = 0 ∧ u.rd o F.EMT_CAL_STAT_CAUSE = 0x10 := by
  intro u
  have hs := wr_regsOnly (s := s) (o := o) F.EMT_CAL_STAT_STATE 0 0 0 rfl
  have hc := wr_regsOnly (s := s.wr o F.EMT_CAL_STAT_STATE 0) (o := o) F.EMT_CAL_STAT_CAUSE 0x10 0 0 rfl
  have hn := raise_noticesOnly (s := (s.wr o F.EMT_CAL_STAT_STATE 0).wr o F.EMT_CAL_STAT_CAUSE 0x10) (o := o) 0x0D12 (le 4 0 ++ le 1 0x10)
  exact ⟨((hs.mono (by simp)).trans (hc.mono (by simp))).trans (hn.regsOnly _), (hn.rd (by decide)).trans ((hc.rd (by decide) (by decide)).trans
    (rd_wr_same _ _ _ _)), (hn.rd (by decide)).trans (rd_wr_same _ _ _ _)⟩

theorem readyCampaign_spec (steps : Sparse Int) (n total dm : Nat) : let u := s.readyCampaign o steps n total dm
    calOnly s u o [F.EMT_CAL_STAT_STATE.key 0 0] ∧ u.rd o F.EMT_CAL_STAT_STATE = 3 := by
  intro u
  let w := if s.rd o F.EMT_CAL_CTL_MODE = 1 then (List.range 512).foldl (State.takeWalk o) (s, []) else (s, [])
  let m := w.1.modCal o fun c => { c with offsets := steps, walk := w.2 }
  have hw : arraysOnly s w.1 o := by
    unfold w
    split
    · exact takeWalks_arraysOnly _ _
    · exact arraysOnly_refl s o
  have hm : calOnly w.1 m o [] := modOff_calOnly _ rfl
  have hs := wr_regsOnly (s := m) (o := o) F.EMT_CAL_STAT_STATE 3 0 0 rfl
  have hn := raise_noticesOnly (s := m.wr o F.EMT_CAL_STAT_STATE 3) (o := o) 0x0D11 (le 3 n ++ le 3 (total - n) ++ le 4 dm)
  exact ⟨(((hw.1.trans hm).mono nofun).trans hs.calOnly).trans (hn.calOnly _), (hn.rd (by decide)).trans (rd_wr_same _ _ _ _)⟩

/-- Every cell of the lit districts is accepted or rejected; too few reject the campaign, else it is ready (R633). -/
theorem evaluated_spec (hw : (s.off o).cal.waiting = []) (ha : s.flag o F.EMT_CAL_CFG_AUTO_APPLY = false) :
    let u := s.evaluated o
    let total := (s.off o).litDistricts.length * 4096
    let acc := u.rd o F.EMT_CAL_RES_ACCEPT
    acc + u.rd o F.EMT_CAL_RES2_REJECT = total ∧ onlyOff s u o ∧ u.out = s.out ∧
      (acc * 256 < s.rd o F.EMT_CAL_CFG_MIN_CELLS * total → u.rd o F.EMT_CAL_STAT_STATE = 0 ∧ u.rd o F.EMT_CAL_STAT_CAUSE = 0x10) ∧
      (s.rd o F.EMT_CAL_CFG_MIN_CELLS * total ≤ acc * 256 → u.rd o F.EMT_CAL_STAT_STATE = 3) := by
  intro u total acc
  let r := State.takeDistricts o 4096 (s.off o).litDistricts (s, [], 0)
  let c := r.1.countCells o r.2.2 total
  obtain ⟨hr, hn⟩ := takeDistricts_spec (o := o) 4096 (s.off o).litDistricts (s, [], 0)
  have hn : r.2.2 ≤ total := by simpa using hn
  have ht : total < 2 ^ 21 := by
    have := litDistricts_length (s.off o)
    simp only [total]
    omega
  obtain ⟨hc, hacc, hrej⟩ := countCells_spec (s := r.1) (o := o) r.2.2 total hn ht
  have hcal : calOnly s c o evaluationKeys := (hr.1.mono nofun).trans (hc.calOnly.mono (by simp [evaluationKeys]))
  have hmin : c.rd o F.EMT_CAL_CFG_MIN_CELLS = s.rd o F.EMT_CAL_CFG_MIN_CELLS := hcal.rd (by decide) (by decide)
  by_cases hfew : r.2.2 * 256 < s.rd o F.EMT_CAL_CFG_MIN_CELLS * total
  · obtain ⟨hrej', hstate, hcause⟩ := rejectCampaign_spec (s := c) (o := o)
    have hwait : ((c.rejectCampaign o).off o).cal.waiting = [] := by
      rw [hrej'.field (fun d => d.cal.waiting) fun _ _ _ _ _ _ _ => rfl, hc.field (fun d => d.cal.waiting) fun _ _ _ _ _ _ _ => rfl]
      exact (hr.field (fun d => d.cal.waiting) fun _ _ _ _ _ _ _ _ _ _ _ _ => rfl).trans hw
    have hu : u = c.rejectCampaign o := (if_pos (by rw [← hmin] at hfew; exact hfew)).trans (settleDelta_of_empty hwait)
    have hu' := hcal.trans (hrej'.calOnly.mono (ks' := evaluationKeys) (by simp [evaluationKeys]))
    have hacc' : acc = r.2.2 := by
      rw [← hacc]
      simp only [acc, hu]
      exact hrej'.rd (by decide) (by decide)
    have hrejr : u.rd o F.EMT_CAL_RES2_REJECT = total - r.2.2 := by
      rw [← hrej, hu]
      exact hrej'.rd (by decide) (by decide)
    rw [hacc', hrejr, hu]
    exact ⟨by omega, hu'.1, hu'.2.1, fun _ => ⟨hstate, hcause⟩, fun h => absurd hfew (Nat.not_lt.2 h)⟩
  · let q := c.readyCampaign o r.2.1 r.2.2 total
      (ofInt 32 (((r.1.wr o F.EMT_CAL_RES_ACCEPT r.2.2).wr o F.EMT_CAL_RES2_REJECT (total - r.2.2)).moduleStep o))
    obtain ⟨hq, hstate⟩ := readyCampaign_spec (s := c) (o := o) r.2.1 r.2.2 total
      (ofInt 32 (((r.1.wr o F.EMT_CAL_RES_ACCEPT r.2.2).wr o F.EMT_CAL_RES2_REJECT (total - r.2.2)).moduleStep o))
    have hu' := hcal.trans (hq.mono (ks' := evaluationKeys) (by simp [evaluationKeys]))
    have hauto : q.flag o F.EMT_CAL_CFG_AUTO_APPLY = false := by
      rw [← ha]
      unfold State.flag
      rw [hu'.rd (by decide) (by decide)]
    have hu : u = q := (if_neg (by rw [← hmin] at hfew; exact hfew)).trans (if_neg (by rw [hauto]; exact Bool.false_ne_true))
    have hacc' : acc = r.2.2 := by
      rw [← hacc]
      simp only [acc, hu]
      exact hq.rd (by decide) (by decide)
    have hrejr : u.rd o F.EMT_CAL_RES2_REJECT = total - r.2.2 := by
      rw [← hrej, hu]
      exact hq.rd (by decide) (by decide)
    rw [hacc', hrejr, hu]
    exact ⟨by omega, hu'.1, hu'.2.1, fun h => absurd h hfew, fun _ => hstate⟩

/-! ### The end of a code-density pass -/

/-- A raised notice is the newest whatever changed before it, with the time and the reset of the office as they were. -/
theorem raised_of_keeps {c : Nat} {b : List Byte} (hr : (u.off o).inReset = (s.off o).inReset) (hc : (u.off o).count = (s.off o).count) :
    raised s (u.raise o c b) o c b := by
  have h := raise_raised (code := c) (b := b) (noticesOnly_refl u o)
  unfold raised at h ⊢
  rwa [hr, hc] at h

/-- The interpolators of a pass that have their edges. -/
def State.passTables (s : State) (o : OfficeId) : List Nat :=
  ((List.range 8192).map ((s.off o).cd.first + ·)).filter fun i => 2 ^ (12 + s.rd o F.SORT_CD_CTL_LOG2N) ≤ Sparse.get 0 (s.off o).cd.m i

/-- The tables that a pass looks up have been read (R115, R678). -/
def State.readTables (s : State) (o : OfficeId) (is : List Nat) : State :=
  is.foldl (fun s i => ([0, 1, 2, 3] : List Nat).foldl (fun s k => s.arrUse o 1 (4 * i + k)) s) s

/-- The registers and the notice of the end of a pass: `got` interpolators have their edges (R115). -/
def State.closePass (s : State) (o : OfficeId) (first got rounds : Nat) : State :=
  let s := ((s.wr o F.SORT_CD_STAT_SHORT (8192 - got)).setEvent o F.SORT_CD_STAT_DONE).wr o F.SORT_CD_STAT_BUSY 0
  let s := s.modOff o fun d => { d with calRun := d.calRun.map fun c => { c with passEnded := c.running } }
  s.raise o 0x0122 (le 3 first ++ le 2 (8192 - got) ++ le 4 rounds)

/-- The candidates of a pass go to the calibration service (R115, R634). -/
def State.offerTables (s : State) (o : OfficeId) (is : List Nat) : State :=
  let r := is.foldl (s.checkTable o) ([], 0)
  (s.wr o F.EMT_CAL_RES2_REJECT r.2).modCal o fun m => { m with waiting := m.waiting ++ r.1.reverse }

/-- What the end of a pass makes of an office (R115). -/
def State.endPass (s : State) (o : OfficeId) : State :=
  let is := s.passTables o
  ((((s.readTables o is).offerTables o is).closePass o (s.off o).cd.first ((s.off o).cd.reached (2 ^ (12 + s.rd o F.SORT_CD_CTL_LOG2N)))
    (s.roundOf (s.off o).count - (s.off o).cd.startRound).toNat)).settleDelta o

theorem exec_codeDensityPassEnd : exec (.codeDensityPassEnd o) s =
    .next (if (s.off o).inReset ∨ s.owns o = false ∨ s.flag o F.SORT_CD_STAT_BUSY = false ∨
        ((s.off o).cd.reached (2 ^ (12 + s.rd o F.SORT_CD_CTL_LOG2N)) < 8192 ∧ (s.rd o F.SORT_CD_TIMEOUT_LIMIT = 0 ∨
          (s.roundOf (s.off o).count - (s.off o).cd.startRound).toNat < s.rd o F.SORT_CD_TIMEOUT_LIMIT)) then s else s.endPass o) := rfl

theorem readTables_arraysOnly (is : List Nat) : arraysOnly s (s.readTables o is) o :=
  foldl_arraysOnly _ (fun _ _ => foldl_arraysOnly _ (fun _ _ => arrUse_arraysOnly _ _) _ _) _ _

theorem offerTables_spec (is : List Nat) : let u := s.offerTables o is
    calOnly s u o [F.EMT_CAL_RES2_REJECT.key 0 0] ∧ (∃ l, (u.off o).cal.waiting = (s.off o).cal.waiting ++ l) ∧
      (u.off o).inReset = (s.off o).inReset ∧ (u.off o).count = (s.off o).count := by
  intro u
  let r := is.foldl (s.checkTable o) ([], 0)
  have hw := wr_regsOnly (s := s) (o := o) F.EMT_CAL_RES2_REJECT r.2 0 0 rfl
  have hu : u.off o = { (s.wr o F.EMT_CAL_RES2_REJECT r.2).off o with
      cal := { ((s.wr o F.EMT_CAL_RES2_REJECT r.2).off o).cal with
        waiting := ((s.wr o F.EMT_CAL_RES2_REJECT r.2).off o).cal.waiting ++ r.1.reverse } } := modOff_off_same _
  refine ⟨hw.calOnly.trans (modOff_calOnly _ rfl), ⟨r.1.reverse, ?_⟩, ?_, ?_⟩
  · rw [hu, hw.field (fun d => d.cal) fun _ _ _ _ _ _ _ => rfl]
  · rw [hu]
    exact hw.field Office.inReset fun _ _ _ _ _ _ _ => rfl
  · rw [hu]
    exact hw.field Office.count fun _ _ _ _ _ _ _ => rfl

theorem setEvent_regsOnly (f : Fld) (hf : f.svc = false) : regsOnly s (s.setEvent o f) o [f.key 0 0] :=
  (wr_regsOnly f 1 0 0 hf).trans (noteEvents_regsOnly f 1 0 0 hf)

theorem closePass_spec (first got rounds : Nat) : let u := s.closePass o first got rounds
    calOnly s u o [F.SORT_CD_STAT_SHORT.key 0 0, F.SORT_CD_STAT_DONE.key 0 0, F.SORT_CD_STAT_BUSY.key 0 0] ∧
      u.rd o F.SORT_CD_STAT_BUSY = 0 ∧ u.rd o F.SORT_CD_STAT_DONE = 1 ∧ u.rd o F.SORT_CD_STAT_SHORT = (8192 - got) % 2 ^ 14 ∧
      (u.off o).cal = (s.off o).cal ∧ raised s u o 0x0122 (le 3 first ++ le 2 (8192 - got) ++ le 4 rounds) := by
  intro u
  let a := s.wr o F.SORT_CD_STAT_SHORT (8192 - got)
  let b := a.setEvent o F.SORT_CD_STAT_DONE
  let c := b.wr o F.SORT_CD_STAT_BUSY 0
  let e := c.modOff o fun d => { d with calRun := d.calRun.map fun c => { c with passEnded := c.running } }
  have ha : regsOnly s a o [F.SORT_CD_STAT_SHORT.key 0 0] := wr_regsOnly _ _ _ _ rfl
  have hb : regsOnly a b o [F.SORT_CD_STAT_DONE.key 0 0] := setEvent_regsOnly _ rfl
  have hc : regsOnly b c o [F.SORT_CD_STAT_BUSY.key 0 0] := wr_regsOnly _ _ _ _ rfl
  have hd : calOnly c e o [] := modOff_calOnly _ rfl
  have hn : noticesOnly e u o := raise_noticesOnly _ _
  have hone : b.rd o F.SORT_CD_STAT_DONE = 1 := (rd_noteEvents _ _ _ _ _ _ _).trans (rd_wr_same _ _ _ _)
  have hread : ∀ (f : Fld), calKey (f.key 0 0) = true → u.rd o f = c.rd o f := fun f hf =>
    (hn.rd (not_notice_of_calKey hf)).trans (hd.rd hf (by simp))
  have hregs : regsOnly s c o [F.SORT_CD_STAT_SHORT.key 0 0, F.SORT_CD_STAT_DONE.key 0 0, F.SORT_CD_STAT_BUSY.key 0 0] :=
    ((ha.mono (by simp)).trans (hb.mono (by simp))).trans (hc.mono (by simp))
  have he : e.off o = { c.off o with calRun := (c.off o).calRun.map fun c => { c with passEnded := c.running } } := modOff_off_same _
  refine ⟨(hregs.calOnly.trans (hd.mono nofun)).trans (hn.calOnly _), (hread _ (by decide)).trans (rd_wr_same _ _ _ _),
    (hread _ (by decide)).trans ((hc.rd (by decide) (by decide)).trans hone), (hread _ (by decide)).trans ((hc.rd (by decide) (by decide)).trans
      ((hb.rd (by decide) (by decide)).trans (rd_wr_same _ _ _ _))), ?_, ?_⟩
  · rw [hn.field Office.cal fun _ _ _ _ _ _ => rfl, he]
    exact hregs.field Office.cal fun _ _ _ _ _ _ _ => rfl
  · refine raised_of_keeps (u := e) ?_ ?_
    · rw [he]
      exact hregs.field Office.inReset fun _ _ _ _ _ _ _ => rfl
    · rw [he]
      exact hregs.field Office.count fun _ _ _ _ _ _ _ => rfl

/-- The end of a pass while a campaign is under way: the candidates wait (R115, R634). -/
theorem endPass_spec (hst : s.rd o F.EMT_CAL_STAT_STATE ≠ 0) : let u := s.endPass o
    let got := (s.off o).cd.reached (2 ^ (12 + s.rd o F.SORT_CD_CTL_LOG2N))
    u.rd o F.SORT_CD_STAT_BUSY = 0 ∧ u.rd o F.SORT_CD_STAT_DONE = 1 ∧ u.rd o F.SORT_CD_STAT_SHORT = (8192 - got) % 2 ^ 14 ∧
      (∃ l, (u.off o).cal.waiting = (s.off o).cal.waiting ++ l) ∧
      raised s u o 0x0122 (le 3 (s.off o).cd.first ++ le 2 (8192 - got) ++ le 4 (s.roundOf (s.off o).count - (s.off o).cd.startRound).toNat) ∧
      onlyOff s u o ∧ u.out = s.out ∧ u.rd o F.EMT_CAL_STAT_STATE = s.rd o F.EMT_CAL_STAT_STATE := by
  intro u got
  let a := s.readTables o (s.passTables o)
  let b := a.offerTables o (s.passTables o)
  let c := b.closePass o (s.off o).cd.first got (s.roundOf (s.off o).count - (s.off o).cd.startRound).toNat
  have ha : arraysOnly s a o := readTables_arraysOnly _
  obtain ⟨hb, ⟨l, hl⟩, hreset, hcount⟩ := offerTables_spec (s := a) (o := o) (s.passTables o)
  obtain ⟨hc, hbusy, hdone, hshort, hcal, hraised⟩ := closePass_spec (s := b) (o := o) (s.off o).cd.first got
    (s.roundOf (s.off o).count - (s.off o).cd.startRound).toNat
  let ks := [F.EMT_CAL_RES2_REJECT.key 0 0, F.SORT_CD_STAT_SHORT.key 0 0, F.SORT_CD_STAT_DONE.key 0 0, F.SORT_CD_STAT_BUSY.key 0 0]
  have hall : calOnly s c o ks := ((ha.1.mono nofun).trans (hb.mono (by simp [ks]))).trans (hc.mono (by simp [ks]))
  have hstate : c.rd o F.EMT_CAL_STAT_STATE = s.rd o F.EMT_CAL_STAT_STATE := hall.rd (by decide) (by decide)
  have hu : u = c := settleDelta_of_busy (by rw [hstate]; exact hst)
  rw [hu]
  refine ⟨hbusy, hdone, hshort, ⟨l, ?_⟩, ?_, hall.1, hall.2.1, hstate⟩
  · rw [hcal, hl, ha.field (fun d => d.cal.waiting) fun _ _ _ _ _ _ _ _ _ _ _ _ => rfl]
  · unfold raised at hraised ⊢
    rwa [hreset, hcount, ha.field Office.inReset fun _ _ _ _ _ _ _ _ _ _ _ _ => rfl,
      ha.field Office.count fun _ _ _ _ _ _ _ _ _ _ _ _ => rfl] at hraised

end Sys2Proof.Machine
end

section
/-! SUPPORT. Writes of `EMT_CAL_CTL` (16 R631, R634). -/

namespace Sys2Proof.Machine

variable {s u : State} {o : OfficeId} {l : List (Fld × Nat × Nat)}

/-! ### Writes of registers of an office with a value and action bits -/

theorem storeAll_regsOnly (x : Nat) (hl : ∀ e ∈ l, e.1.svc = false) : regsOnly s (s.storeAll o x l) o (writeKeys l) := by
  induction l generalizing s with
  | nil => exact regsOnly_refl s o _
  | cons e es ih =>
    have hes : regsOnly (s.storeField o x e) ((s.storeField o x e).storeAll o x es) o (writeKeys (e :: es)) :=
      (ih fun y hy => hl y (List.mem_cons_of_mem _ hy)).mono fun k hk => writeKeys_append [e] es ▸ List.mem_append_right _ hk
    refine regsOnly.trans ?_ hes
    obtain h | ⟨hw, y, h⟩ := storeField_cases (s := s) (o := o) x e <;> rw [h]
    · exact regsOnly_refl s o _
    · exact (wr_regsOnly _ _ _ _ (hl e List.mem_cons_self)).mono (by simpa using mem_writeKeys List.mem_cons_self hw)

/-- A register of an office that is no half of a pair and whose fields have keys of their own. -/
def plainReg (addr : Nat) : Prop :=
  isReadOnlyWindow addr = false ∧ isWriteLow addr = false ∧ isWriteLow (addr - 4) = false ∧ writeKeys (fieldsAt addr) ≠ [] ∧
    (writeKeys (fieldsAt addr)).Nodup ∧ ∀ e ∈ fieldsAt addr, e.1.svc = false

/-- A write of such a register that is taken whole stores its fields (R5, R9). -/
theorem hostWrite_of_plainReg {addr x : Nat} (hp : plainReg addr) (h : writable s o addr x) :
    ∃ u, regsOnly s u o (writeKeys (fieldsAt addr)) ∧ s.hostWrite o addr x = (u, true) ∧
      ∀ e ∈ fieldsAt addr, e.1.acc = .rw → u.rd o e.1 e.2.1 e.2.2 = e.1.part x := by
  obtain ⟨hr, hlow, hhigh, hk, hn, hsvc⟩ := hp
  obtain ⟨u, hu, he⟩ := hostWrite_of_writable h hr (exists_hostWritable hk)
  rw [storeReg_plain x hlow hhigh] at he
  refine ⟨_, (hu.regsOnly _).trans (storeAll_regsOnly x hsvc), he, fun e hm ha => ?_⟩
  have hwr := hostWritable_of_rw ha
  rw [rd_storeAll_same x hn hm hwr, stored_rw ha, h.2.2 e hm hwr, if_neg Bool.false_ne_true]

/-! ### The bits of `EMT_CAL_CTL` -/

/-- The keys of the fields of `EMT_CAL_CTL`. -/
def calCtlKeys : List Nat := writeKeys (fieldsAt F.EMT_CAL_CTL_START.off)

theorem plainReg_calCtl : plainReg F.EMT_CAL_CTL_START.off := by unfold plainReg; decide

/-- What the bits of a write of `EMT_CAL_CTL` do, each in the state that it names (R631). -/
def State.calBits (s : State) (o : OfficeId) (v : Nat) : State :=
  let s := if bitsOf v 31 1 = 1 then s.startCampaign o else s
  let s := if bitsOf v 30 1 = 1 ∧ s.rd o F.EMT_CAL_STAT_STATE = 1 then s.wr o F.EMT_CAL_STAT_STATE 2 else s
  let s := if bitsOf v 29 1 = 1 then s.beginApply o else s
  if bitsOf v 28 1 = 1 ∧ s.rd o F.EMT_CAL_STAT_STATE = 3 then (s.wr o F.EMT_CAL_STAT_STATE 0).settleDelta o else s

/-- A write of `EMT_CAL_CTL` that the owner takes (R9, R631). -/
theorem writeCalCtl_of_writable {v : Nat} (hw : writable s o F.EMT_CAL_CTL_START.off v) (ho : s.owns o = true) :
    ∃ u, regsOnly s u o calCtlKeys ∧ u.rd o F.EMT_CAL_CTL_MODE = v % 2 ∧ s.writeCalCtl o v = u.calBits o v := by
  obtain ⟨u, hu, he, hrw⟩ := hostWrite_of_plainReg plainReg_calCtl hw
  have howns : u.owns o = true := by
    have hrole : u.rd o F.TWN_STAT_ROLE = s.rd o F.TWN_STAT_ROLE := hu.rd (by decide) (by decide)
    rw [← ho, State.owns, State.owns, State.role, State.role, hrole]
  refine ⟨u, hu, ?_, ?_⟩
  · rw [hrw (F.EMT_CAL_CTL_MODE, 0, 0) (by decide) rfl]
    simp [Fld.part, F.EMT_CAL_CTL_MODE, mkF, bitsOf]
  · unfold State.writeCalCtl
    rw [he]
    exact if_neg (by simp [howns])

/-- The four top bits of a word, by the number that they make. -/
theorem bitsOf_top {v x : Nat} (hv : v / 2 ^ 28 = x) : bitsOf v 31 1 = x / 8 % 2 ∧ bitsOf v 30 1 = x / 4 % 2 ∧ bitsOf v 29 1 = x / 2 % 2 ∧
    bitsOf v 28 1 = x % 2 := by
  have hdiv : ∀ n, v / 2 ^ (28 + n) = x / 2 ^ n := fun n => by rw [← hv, Nat.div_div_eq_div_mul, ← Nat.pow_add]
  exact ⟨congrArg (· % 2) (hdiv 3), congrArg (· % 2) (hdiv 2), congrArg (· % 2) (hdiv 1), congrArg (· % 2) hv⟩

theorem calBits_start {v : Nat} (hv : v / 2 ^ 28 = 2 ^ 3) : s.calBits o v = s.startCampaign o := by
  obtain ⟨hstart, hstop, happly, hdiscard⟩ := bitsOf_top hv
  simp [State.calBits, hstart, hstop, happly, hdiscard]

theorem calBits_stop {v : Nat} (hv : v / 2 ^ 28 = 2 ^ 2) :
    s.calBits o v = if s.rd o F.EMT_CAL_STAT_STATE = 1 then s.wr o F.EMT_CAL_STAT_STATE 2 else s := by
  obtain ⟨hstart, hstop, happly, hdiscard⟩ := bitsOf_top hv
  simp [State.calBits, hstart, hstop, happly, hdiscard]

theorem calBits_apply {v : Nat} (hv : v / 2 ^ 28 = 2 ^ 1) : s.calBits o v = s.beginApply o := by
  obtain ⟨hstart, hstop, happly, hdiscard⟩ := bitsOf_top hv
  simp [State.calBits, hstart, hstop, happly, hdiscard]

theorem calBits_discard {v : Nat} (hv : v / 2 ^ 28 = 2 ^ 0) :
    s.calBits o v = if s.rd o F.EMT_CAL_STAT_STATE = 3 then (s.wr o F.EMT_CAL_STAT_STATE 0).settleDelta o else s := by
  obtain ⟨hstart, hstop, happly, hdiscard⟩ := bitsOf_top hv
  simp [State.calBits, hstart, hstop, happly, hdiscard]

/-! ### What each bit does -/

/-- The calibration service, the merge and everything sent are as before, and so is the state of the service. -/
def calKept (s u : State) (o : OfficeId) : Prop :=
  u.rd o F.EMT_CAL_STAT_STATE = s.rd o F.EMT_CAL_STAT_STATE ∧ (u.off o).cal = (s.off o).cal ∧ (u.off o).mrg = (s.off o).mrg ∧ onlyOff s u o ∧
    u.out = s.out

theorem regsOnly.calKept (h : regsOnly s u o calCtlKeys) : calKept s u o :=
  ⟨h.rd (by decide) (by decide), h.field Office.cal fun _ _ _ _ _ _ _ => rfl, h.field Office.mrg fun _ _ _ _ _ _ _ => rfl, h.onlyOff, h.out⟩

/-- The accumulators of a campaign that are no context words. -/
def CalSvc.cleared (c : CalSvc) : CalSvc := { c with lastFlash := [], flashHits := [], walkN := [], walkS := [], offsets := [], walk := [] }

theorem clearAccumulators_spec : let u := s.clearAccumulators o
    calOnly s u o [F.EMT_CAL_XN_XN.key 0 0, F.EMT_CAL_XSUM_XSUM.key 0 0, F.EMT_CAL_STAT_FLASHES.key 0 0] ∧ u.rd o F.EMT_CAL_XN_XN = 0 ∧
      u.rd o F.EMT_CAL_XSUM_XSUM = 0 ∧ u.rd o F.EMT_CAL_STAT_FLASHES = 0 ∧ (u.off o).cal = (s.off o).cal.cleared ∧
      (u.off o).mrg = (s.off o).mrg ∧ (u.off o).inReset = (s.off o).inReset ∧ (u.off o).count = (s.off o).count := by
  intro u
  let a := s.modOff o fun d => { d with cal := d.cal.cleared }
  let b := a.wr o F.EMT_CAL_XN_XN 0
  let c := b.wr o F.EMT_CAL_XSUM_XSUM 0
  have ha : a.off o = { s.off o with cal := (s.off o).cal.cleared } := modOff_off_same _
  have hb : regsOnly a b o [F.EMT_CAL_XN_XN.key 0 0] := wr_regsOnly _ _ _ _ rfl
  have hc : regsOnly b c o [F.EMT_CAL_XSUM_XSUM.key 0 0] := wr_regsOnly _ _ _ _ rfl
  have hu : regsOnly c u o [F.EMT_CAL_STAT_FLASHES.key 0 0] := wr_regsOnly _ _ _ _ rfl
  have hall : regsOnly a u o [F.EMT_CAL_XN_XN.key 0 0, F.EMT_CAL_XSUM_XSUM.key 0 0, F.EMT_CAL_STAT_FLASHES.key 0 0] :=
    ((hb.mono (by simp)).trans (hc.mono (by simp))).trans (hu.mono (by simp))
  refine ⟨(modOff_calOnly _ rfl).trans hall.calOnly, ?_, ?_, rd_wr_same _ _ _ _, ?_, ?_, ?_, ?_⟩
  · exact (hu.rd (by decide) (by decide)).trans ((hc.rd (by decide) (by decide)).trans (rd_wr_same _ _ _ _))
  · exact (hu.rd (by decide) (by decide)).trans (rd_wr_same _ _ _ _)
  · rw [hall.field Office.cal fun _ _ _ _ _ _ _ => rfl, ha]
  · rw [hall.field Office.mrg fun _ _ _ _ _ _ _ => rfl, ha]
  · rw [hall.field Office.inReset fun _ _ _ _ _ _ _ => rfl, ha]
  · rw [hall.field Office.count fun _ _ _ _ _ _ _ => rfl, ha]

/-- A campaign starts: its accumulators are clear, and the merge has the job of clearing word 3 (R631, R202). -/
theorem startCampaign_spec (hs : s.rd o F.EMT_CAL_STAT_STATE = 0) (hm : (s.mode o).isData = true) : let u := s.startCampaign o
    u.rd o F.EMT_CAL_STAT_STATE = 1 ∧ u.rd o F.EMT_CAL_STAT_FLASHES = 0 ∧ u.rd o F.EMT_CAL_XN_XN = 0 ∧ u.rd o F.EMT_CAL_XSUM_XSUM = 0 ∧
      (u.off o).cal = (s.off o).cal.cleared ∧ (u.off o).mrg.jobs = (s.off o).mrg.jobs ++ [.campaign] ∧
      raised s u o 0x0D10 (le 1 (s.rd o F.EMT_CAL_CTL_MODE) ++ le 4 (s.rd o F.EMT_CAL_CAMP_CAMP_FLASHES)) ∧ onlyOff s u o ∧ u.out = s.out := by
  intro u
  let a := s.wr o F.EMT_CAL_STAT_STATE 1
  let b := a.clearAccumulators o
  let c := b.modOff o fun d => { d with mrg := { d.mrg with jobs := d.mrg.jobs ++ [.campaign] } }
  have ha : regsOnly s a o [F.EMT_CAL_STAT_STATE.key 0 0] := wr_regsOnly _ _ _ _ rfl
  obtain ⟨hb, hxn, hxsum, hflashes, hcal, hmrg, hreset, hcount⟩ := clearAccumulators_spec (s := a) (o := o)
  have hc : calOnly b c o [] := modOff_calOnly _ rfl
  have hco : c.off o = { b.off o with mrg := { (b.off o).mrg with jobs := (b.off o).mrg.jobs ++ [.campaign] } } := modOff_off_same _
  let ks := [F.EMT_CAL_STAT_STATE.key 0 0, F.EMT_CAL_XN_XN.key 0 0, F.EMT_CAL_XSUM_XSUM.key 0 0, F.EMT_CAL_STAT_FLASHES.key 0 0]
  have hall : calOnly s c o ks := ((ha.calOnly.mono (by simp [ks])).trans (hb.mono (by simp [ks]))).trans (hc.mono nofun)
  have hmode : c.rd o F.EMT_CAL_CTL_MODE = s.rd o F.EMT_CAL_CTL_MODE := hall.rd (by decide) (by decide)
  have hcamp : c.rd o F.EMT_CAL_CAMP_CAMP_FLASHES = s.rd o F.EMT_CAL_CAMP_CAMP_FLASHES := hall.rd (by decide) (by decide)
  have hu : u = c.raise o 0x0D10 (le 1 (s.rd o F.EMT_CAL_CTL_MODE) ++ le 4 (s.rd o F.EMT_CAL_CAMP_CAMP_FLASHES)) := by
    rw [← hmode, ← hcamp]
    exact if_neg (by simp [hs, hm])
  have hn : noticesOnly c u o := hu ▸ raise_noticesOnly _ _
  have hread : ∀ (f : Fld), calKey (f.key 0 0) = true → u.rd o f = b.rd o f := fun f hf =>
    (hn.rd (not_notice_of_calKey hf)).trans (hc.rd hf (by simp))
  have hrest := hall.trans (hn.calOnly ks)
  refine ⟨?_, (hread _ (by decide)).trans hflashes, (hread _ (by decide)).trans hxn, (hread _ (by decide)).trans hxsum, ?_, ?_, ?_, hrest.1, hrest.2.1⟩
  · exact (hread _ (by decide)).trans ((hb.rd (by decide) (by decide)).trans (rd_wr_same _ _ _ _))
  · rw [hn.field Office.cal fun _ _ _ _ _ _ => rfl, hco, hcal, ha.field Office.cal fun _ _ _ _ _ _ _ => rfl]
  · rw [hn.field Office.mrg fun _ _ _ _ _ _ => rfl, hco, hmrg, ha.field Office.mrg fun _ _ _ _ _ _ _ => rfl]
  · rw [hu]
    refine raised_of_keeps ?_ ?_
    · rw [hco]
      exact hreset.trans (ha.field Office.inReset fun _ _ _ _ _ _ _ => rfl)
    · rw [hco]
      exact hcount.trans (ha.field Office.count fun _ _ _ _ _ _ _ => rfl)

/-- A delta that finds the NVM window closed waits from now on (R488, R634). -/
theorem beginApply_spec (hs : s.rd o F.EMT_CAL_STAT_STATE = 3) (hn : s.nvmOpen o = false) (hw : (s.off o).cal.waitSince = none) :
    let u := s.beginApply o
    u.rd o F.EMT_CAL_STAT_STATE = 4 ∧ (u.off o).cal = { (s.off o).cal with waitSince := some s.now } ∧ onlyOff s u o ∧ u.out = s.out := by
  intro u
  let a := s.wr o F.EMT_CAL_STAT_STATE 4
  let b := (a.draw 8).2.modCal o fun c => { c with waitSince := some a.now }
  have ha : regsOnly s a o [F.EMT_CAL_STAT_STATE.key 0 0] := wr_regsOnly _ _ _ _ rfl
  have hopen : a.nvmOpen o = false := by
    have hwin : a.rd o F.SEC_STAT_NVM_WIN = s.rd o F.SEC_STAT_NVM_WIN := ha.rd (by decide) (by decide)
    rw [← hn, State.nvmOpen, State.nvmOpen, State.flag, State.flag, hwin]
  have hwait : (a.off o).cal.waitSince.isSome = false := by
    rw [ha.field (fun d => d.cal.waitSince) fun _ _ _ _ _ _ _ => rfl, hw]
    rfl
  have hu : u = b.raise o 0x0911 [BitVec.ofNat 8 (a.draw 8).1, 0] := by
    refine (if_pos hs).trans ((if_pos hopen).trans (if_neg ?_))
    rw [hwait]
    exact Bool.false_ne_true
  have hb : calOnly a b o [] := (draw_arraysOnly 8).1.trans (modOff_calOnly _ rfl)
  have hbo : b.off o = { a.off o with cal := { (a.off o).cal with waitSince := some a.now } } := modOff_off_same _
  have hnote : noticesOnly b u o := hu ▸ raise_noticesOnly _ _
  have hrest := ((hb.mono nofun).trans (hnote.calOnly [])).mono (ks' := [F.EMT_CAL_STAT_STATE.key 0 0]) nofun
  have hall := ha.calOnly.trans hrest
  refine ⟨?_, ?_, hall.1, hall.2.1⟩
  · exact (hnote.rd (by decide)).trans ((hb.rd (by decide) (by simp)).trans (rd_wr_same _ _ _ _))
  · rw [hnote.field Office.cal fun _ _ _ _ _ _ => rfl, hbo, ha.field Office.cal fun _ _ _ _ _ _ _ => rfl, ha.now]

/-! ### The commands -/

variable {v : W32}

/-- The owner takes a write of `EMT_CAL_CTL` with one bit set of the four that ask for something. -/
def asksCal (s : State) (o : OfficeId) (v : W32) (bit : Nat) : Prop :=
  writable s o F.EMT_CAL_CTL_START.off v.toNat ∧ s.owns o = true ∧ v.toNat / 2 ^ 28 = 2 ^ bit

theorem regsOnly.mode_of_calCtl (h : regsOnly s u o calCtlKeys) : u.mode o = s.mode o := by
  have hrd : u.rd o F.GLB_MODE_MODE = s.rd o F.GLB_MODE_MODE := h.rd (by decide) (by decide)
  rw [State.mode, State.mode, hrd]

theorem start_spec (h : asksCal s o v 3) :
    (s.rd o F.EMT_CAL_STAT_STATE = 0 → (s.mode o).isData = true → gives (.start o v) s fun u => u.rd o F.EMT_CAL_STAT_STATE = 1 ∧
      u.rd o F.EMT_CAL_STAT_FLASHES = 0 ∧ u.rd o F.EMT_CAL_XN_XN = 0 ∧ u.rd o F.EMT_CAL_XSUM_XSUM = 0 ∧ (u.off o).cal.walkN = [] ∧
      (u.off o).cal.flashHits = [] ∧ (u.off o).mrg.jobs = (s.off o).mrg.jobs ++ [.campaign] ∧
      raised s u o 0x0D10 (le 1 (v.toNat % 2) ++ le 4 (s.rd o F.EMT_CAL_CAMP_CAMP_FLASHES)) ∧ onlyOff s u o ∧ u.out = s.out) ∧
    ((s.rd o F.EMT_CAL_STAT_STATE ≠ 0 ∨ (s.mode o).isData = false) → gives (.start o v) s fun u => calKept s u o) := by
  obtain ⟨hw, ho, hv⟩ := h
  obtain ⟨u, hu, hmodev, he⟩ := writeCalCtl_of_writable hw ho
  have hx : exec (.start o v) s = .next (u.startCampaign o) := congrArg Host.Outcome.next (he.trans (calBits_start hv))
  have hstate : u.rd o F.EMT_CAL_STAT_STATE = s.rd o F.EMT_CAL_STAT_STATE := hu.rd (by decide) (by decide)
  have hmode := hu.mode_of_calCtl
  refine ⟨fun hs hm => ?_, fun hn => ?_⟩
  · obtain ⟨hone, hfl, hxn, hxs, hcal, hjobs, hraised, hoff, hout⟩ := startCampaign_spec (hstate.trans hs) (by rw [hmode]; exact hm)
    refine ⟨_, hx, hone, hfl, hxn, hxs, by rw [hcal]; rfl, by rw [hcal]; rfl, ?_, ?_, onlyOff_trans hu.onlyOff hoff, hout.trans hu.out⟩
    · rw [hjobs, hu.field Office.mrg fun _ _ _ _ _ _ _ => rfl]
    · have hcamp : u.rd o F.EMT_CAL_CAMP_CAMP_FLASHES = s.rd o F.EMT_CAL_CAMP_CAMP_FLASHES := hu.rd (by decide) (by decide)
      unfold raised at hraised ⊢
      rwa [hmodev, hcamp, hu.field Office.inReset fun _ _ _ _ _ _ _ => rfl, hu.field Office.count fun _ _ _ _ _ _ _ => rfl] at hraised
  · have hno : u.startCampaign o = u := if_pos (by rw [hstate, hmode]; exact hn)
    exact ⟨_, hx, by rw [hno]; exact hu.calKept⟩

theorem stop_spec (h : asksCal s o v 2) :
    (s.rd o F.EMT_CAL_STAT_STATE = 1 → gives (.stop o v) s fun u => u.rd o F.EMT_CAL_STAT_STATE = 2 ∧ (u.off o).cal = (s.off o).cal ∧
      onlyOff s u o ∧ u.out = s.out) ∧
    (s.rd o F.EMT_CAL_STAT_STATE ≠ 1 → gives (.stop o v) s fun u => calKept s u o) := by
  obtain ⟨hw, ho, hv⟩ := h
  obtain ⟨u, hu, -, he⟩ := writeCalCtl_of_writable hw ho
  have hx : exec (.stop o v) s = .next (if u.rd o F.EMT_CAL_STAT_STATE = 1 then u.wr o F.EMT_CAL_STAT_STATE 2 else u) :=
    congrArg Host.Outcome.next (he.trans (calBits_stop hv))
  rw [hu.rd (by decide) (by decide)] at hx
  refine ⟨fun hs => ?_, fun hs => ?_⟩
  · have hwr : regsOnly u (u.wr o F.EMT_CAL_STAT_STATE 2) o [F.EMT_CAL_STAT_STATE.key 0 0] := wr_regsOnly _ _ _ _ rfl
    refine ⟨_, hx.trans (congrArg Host.Outcome.next (if_pos hs)), rd_wr_same _ _ _ _, ?_, onlyOff_trans hu.onlyOff hwr.onlyOff, hwr.out.trans hu.out⟩
    rw [hwr.field Office.cal fun _ _ _ _ _ _ _ => rfl, hu.field Office.cal fun _ _ _ _ _ _ _ => rfl]
  · exact ⟨_, hx.trans (congrArg Host.Outcome.next (if_neg hs)), hu.calKept⟩

theorem apply_spec (h : asksCal s o v 1) :
    (s.rd o F.EMT_CAL_STAT_STATE = 3 → s.nvmOpen o = false → (s.off o).cal.waitSince = none → gives (.apply o v) s fun u =>
      u.rd o F.EMT_CAL_STAT_STATE = 4 ∧ (u.off o).cal = { (s.off o).cal with waitSince := some s.now } ∧ onlyOff s u o ∧ u.out = s.out) ∧
    (s.rd o F.EMT_CAL_STAT_STATE ≠ 3 → gives (.apply o v) s fun u => calKept s u o) := by
  obtain ⟨hw, ho, hv⟩ := h
  obtain ⟨u, hu, -, he⟩ := writeCalCtl_of_writable hw ho
  have hx : exec (.apply o v) s = .next (u.beginApply o) := congrArg Host.Outcome.next (he.trans (calBits_apply hv))
  have hstate : u.rd o F.EMT_CAL_STAT_STATE = s.rd o F.EMT_CAL_STAT_STATE := hu.rd (by decide) (by decide)
  have hcal : (u.off o).cal = (s.off o).cal := hu.field Office.cal fun _ _ _ _ _ _ _ => rfl
  refine ⟨fun hs hn hwait => ?_, fun hs => ?_⟩
  · have hwin : u.rd o F.SEC_STAT_NVM_WIN = s.rd o F.SEC_STAT_NVM_WIN := hu.rd (by decide) (by decide)
    obtain ⟨hfour, hcal', hoff, hout⟩ := beginApply_spec (hstate.trans hs) (by rw [← hn, State.nvmOpen, State.nvmOpen, State.flag, State.flag, hwin])
      (by rw [hcal]; exact hwait)
    exact ⟨_, hx, hfour, by rw [hcal', hcal, hu.now], onlyOff_trans hu.onlyOff hoff, hout.trans hu.out⟩
  · have hno : u.beginApply o = u := if_neg (by rw [hstate]; exact hs)
    exact ⟨_, hx, by rw [hno]; exact hu.calKept⟩

theorem discard_spec (h : asksCal s o v 0) :
    (s.rd o F.EMT_CAL_STAT_STATE = 3 → (s.off o).cal.waiting = [] → gives (.discard o v) s fun u => u.rd o F.EMT_CAL_STAT_STATE = 0 ∧
      (u.off o).cal = (s.off o).cal ∧ onlyOff s u o ∧ u.out = s.out) ∧
    (s.rd o F.EMT_CAL_STAT_STATE ≠ 3 → gives (.discard o v) s fun u => calKept s u o) := by
  obtain ⟨hw, ho, hv⟩ := h
  obtain ⟨u, hu, -, he⟩ := writeCalCtl_of_writable hw ho
  have hx : exec (.discard o v) s =
      .next (if u.rd o F.EMT_CAL_STAT_STATE = 3 then (u.wr o F.EMT_CAL_STAT_STATE 0).settleDelta o else u) :=
    congrArg Host.Outcome.next (he.trans (calBits_discard hv))
  rw [hu.rd (by decide) (by decide)] at hx
  refine ⟨fun hs hwait => ?_, fun hs => ?_⟩
  · have hwr : regsOnly u (u.wr o F.EMT_CAL_STAT_STATE 0) o [F.EMT_CAL_STAT_STATE.key 0 0] := wr_regsOnly _ _ _ _ rfl
    have hcal : ((u.wr o F.EMT_CAL_STAT_STATE 0).off o).cal = (s.off o).cal := by
      rw [hwr.field Office.cal fun _ _ _ _ _ _ _ => rfl, hu.field Office.cal fun _ _ _ _ _ _ _ => rfl]
    rw [if_pos hs, settleDelta_of_empty (by rw [hcal]; exact hwait)] at hx
    exact ⟨_, hx, rd_wr_same _ _ _ _, hcal, onlyOff_trans hu.onlyOff hwr.onlyOff, hwr.out.trans hu.out⟩
  · exact ⟨_, hx.trans (congrArg Host.Outcome.next (if_neg hs)), hu.calKept⟩

end Sys2Proof.Machine
end

section
/-! SUPPORT. Injection strobes and calibration sequences (02 R59, R60; 18 R671). -/

namespace Sys2Proof.Machine

variable {s u w : State} {o : OfficeId} {t : Fin 4} {c : CalRun}

/-! ### Orders to tiles -/

theorem orderTile_keeps (t : Fin 4) (x : TileOrder) : (∀ p, (s.orderTile o t x).off p = s.off p) ∧ (s.orderTile o t x).svc = s.svc ∧
    (s.orderTile o t x).out = s.out ∧ (∀ y, y ≠ t → (s.orderTile o t x).tile y = s.tile y) ∧
    (s.orderTile o t x).tile t = if s.heeds t o then { s.tile t with orders := (s.tile t).orders ++ [x] } else s.tile t := by
  unfold State.orderTile
  split
  · exact ⟨fun _ => rfl, rfl, rfl, fun y hy => modTile_tile_other _ hy, modTile_tile_same _⟩
  · exact ⟨fun _ => rfl, rfl, rfl, fun _ _ => rfl, rfl⟩

/-- An order to the tiles of a list is taken by those that heed the office (R18). -/
theorem orderTiles_spec (x : TileOrder) (l : List (Fin 4)) (hn : l.Nodup) (s : State) : let u := l.foldl (fun s t => s.orderTile o t x) s
    (∀ p, u.off p = s.off p) ∧ u.svc = s.svc ∧ u.out = s.out ∧
      ∀ y, u.tile y = if y ∈ l ∧ s.heeds y o = true then { s.tile y with orders := (s.tile y).orders ++ [x] } else s.tile y := by
  induction l generalizing s with
  | nil => exact ⟨fun _ => rfl, rfl, rfl, fun y => by simp⟩
  | cons t l ih =>
    obtain ⟨hnt, hnl⟩ := List.nodup_cons.1 hn
    obtain ⟨hoff, hsvc, hout, hothers, ht⟩ := orderTile_keeps (s := s) (o := o) t x
    obtain ⟨koff, ksvc, kout, ktile⟩ := ih hnl (s.orderTile o t x)
    refine ⟨fun p => (koff p).trans (hoff p), ksvc.trans hsvc, kout.trans hout, fun y => (ktile y).trans ?_⟩
    rcases eq_or_ne y t with rfl | hy
    · rw [if_neg fun h => hnt h.1, ht]
      simp
    · have hheeds : (s.orderTile o t x).heeds y o = s.heeds y o := by rw [State.heeds, State.heeds, hothers y hy]
      rw [hheeds, hothers y hy]
      simp [hy]

/-! ### INJECTION_STROBE -/

/-- A strobe counts the selected cells that are not armed, and changes no cell (R60). -/
theorem strobeTile_only {x : Instr} (hx : exec x s = .next (s.strobeTile t)) : onlyTile x s t fun e =>
    regGet e.cnt F.SORT_FE_CNT_INJSKIP_COUNT t.val 0 =
        min (regGet (s.tile t).cnt F.SORT_FE_CNT_INJSKIP_COUNT t.val 0 + (s.tile t).injSkipped) 0xFFFFFFFF ∧
      e.cells = (s.tile t).cells ∧ e = { s.tile t with cnt := e.cnt, fresh := e.fresh } :=
  ⟨(s.tile t).countBy t F.SORT_FE_CNT_INJSKIP_COUNT (s.tile t).injSkipped, hx, reads_countBy _ _, rfl, rfl⟩

theorem exec_injectionStrobe_unowned (h : s.owner = none) : exec (.injectionStrobe t) s = .next (if (s.tile t).calib then s.strobeTile t else s) := by
  refine congrArg Host.Outcome.next ?_
  rw [h]

/-- What a strobe in the calibration state does with the owner's sequence (R60, R671). -/
def State.strobe (s : State) (o : OfficeId) (t : Fin 4) : State :=
  match (s.off o).calRun with
  | some c => if c.running ∧ (s.off o).seqKind c.slot ≠ 3 then s.strobeSequence o t c else s.strobeTile t
  | none => s.strobeTile t

theorem exec_injectionStrobe_owned (h : s.owner = some o) : exec (.injectionStrobe t) s =
    .next (if (s.tile t).calib = false then s.raise o 0x0110 (le 1 t.val ++ le 1 (s.rd o F.GLB_CALSEQ_SEQ)) else s.strobe o t) := by
  refine congrArg Host.Outcome.next ?_
  rw [h]
  rfl

theorem strobe_of_notRunning (h : (s.off o).calRun = none ∨ ∃ x, (s.off o).calRun = some x ∧ x.running = false) : s.strobe o t = s.strobeTile t := by
  unfold State.strobe
  rcases h with h | ⟨x, h, hx⟩
  · rw [h]
  · rw [h]
    exact if_neg (by simp [hx])

/-- A strobe of a running scan that is due moves the scan on (R671). -/
theorem strobe_of_running (hc : (s.off o).calRun = some c) (hr : c.running = true) (hk : (s.off o).seqKind c.slot ≠ 3)
    (hf : c.fired.get t < (s.off o).seqStrobes c.slot)
    (hd : tickLt (s.off o).count.toNat
      (startTickBefore s.svc.roundShift c.fromRound (s.off o).count.toNat + c.fired.get t * (s.off o).seqPeriod c.slot) = false) :
    let u := s.strobe o t
    (u.off o).calRun = some { c with fired := c.fired.set t (c.fired.get t + 1) } ∧ (∀ y, y ≠ t → u.tile y = s.tile y) ∧
      (u.tile t).cells = (s.tile t).cells ∧ (u.off o).regs = (s.off o).regs ∧ u.svc = s.svc ∧ u.out = s.out := by
  intro u
  let a := (s.strobeTile t).modOff o fun d => { d with calRun := some { c with fired := c.fired.set t (c.fired.get t + 1) } }
  have hu : u = if (c.fired.get t + 1) % (s.off o).seqPulses c.slot = 0 ∧ c.fired.get t + 1 < (s.off o).seqStrobes c.slot then
      a.orderTile o t ((s.off o).pointOrder c.slot ((c.fired.get t + 1) / (s.off o).seqPulses c.slot)) else a := by
    have hrun : u = s.strobeSequence o t c := by
      unfold u State.strobe
      rw [hc]
      exact if_pos ⟨hr, hk⟩
    rw [hrun]
    refine if_neg ?_
    rintro (h | h)
    · exact Nat.not_le.2 hf h
    · exact Bool.false_ne_true (hd.symm.trans h)
  have ho : a.off o = { s.off o with calRun := some { c with fired := c.fired.set t (c.fired.get t + 1) } } := modOff_off_same _
  let f := fun d : Tile => d.countBy t F.SORT_FE_CNT_INJSKIP_COUNT d.injSkipped
  have htile : ∀ y, a.tile y = (s.modTile t f).tile y := fun _ => rfl
  have hothers : ∀ y, y ≠ t → a.tile y = s.tile y := fun y hy => (htile y).trans (modTile_tile_other f hy)
  have ht : (a.tile t).cells = (s.tile t).cells := by rw [htile t, modTile_tile_same]; rfl
  rw [hu]
  split
  · obtain ⟨koff, ksvc, kout, kothers, kt⟩ := orderTile_keeps (s := a) (o := o) t
      ((s.off o).pointOrder c.slot ((c.fired.get t + 1) / (s.off o).seqPulses c.slot))
    refine ⟨by rw [koff, ho], fun y hy => (kothers y hy).trans (hothers y hy), ?_, by rw [koff, ho], ksvc, kout⟩
    rw [kt]
    split
    · exact ht
    · exact ht
  · exact ⟨by rw [ho], hothers, ht, by rw [ho], rfl, rfl⟩

/-! ### What the mirror leaves -/

/-- Of each office only the twin logic, the items on their way and registers differ. -/
def mirrorOnly (s u : State) : Prop :=
  ∀ p, u.off p = { s.off p with twin := (u.off p).twin, mseq := (u.off p).mseq, unacked := (u.off p).unacked, regs := (u.off p).regs }

theorem mirrorOnly_trans (h : mirrorOnly s u) (k : mirrorOnly u w) : mirrorOnly s w := fun p =>
  (k p).trans (congrArg (fun x : Office => { x with twin := (w.off p).twin, mseq := (w.off p).mseq, unacked := (w.off p).unacked, regs := (w.off p).regs })
    (h p))

theorem mirrorOnly_of_offices (h : u.offices = s.offices) : mirrorOnly s u := fun p => by
  have hp : u.off p = s.off p := congrArg (Pair.get · p) h
  rw [hp]

theorem mirrorOnly.field {α : Type} (h : mirrorOnly s u) (g : Office → α)
    (hg : ∀ (d : Office) tw m un regs, g { d with twin := tw, mseq := m, unacked := un, regs := regs } = g d) (p : OfficeId) :
    g (u.off p) = g (s.off p) := by
  rw [h p, hg]

theorem modOff_mirrorOnly (f : Office → Office) (hf : ∀ d : Office, f d = { d with
    twin := (f d).twin, mseq := (f d).mseq, unacked := (f d).unacked, regs := (f d).regs }) : mirrorOnly s (s.modOff o f) := fun p => by
  by_cases hp : p = o
  · subst hp
    rw [modOff_off_same]
    exact hf _
  · obtain rfl : p = otherOffice o := by revert hp; cases p <;> cases o <;> simp [otherOffice]
    rw [modOff_off_peer]

theorem modTwin_mirrorOnly (f : Twin → Twin) : mirrorOnly s (s.modTwin o f) := modOff_mirrorOnly _ fun _ => rfl

theorem refreshUnacked_mirrorOnly : mirrorOnly s (s.refreshUnacked o) := by
  unfold State.refreshUnacked State.wr
  rw [if_neg (by decide)]
  exact modOff_mirrorOnly _ fun _ => rfl

theorem sendItemFrames_offices (mseq kind fuel : Nat) (ws : List W64) : (s.sendItemFrames o mseq kind fuel ws).offices = s.offices := by
  induction fuel generalizing s ws with
  | zero => rfl
  | succ n ih =>
    unfold State.sendItemFrames
    dsimp only
    split
    · rfl
    · exact ih _

theorem sendMirror_mirrorOnly (kind : Nat) (ws : List W64) : mirrorOnly s (s.sendMirror o kind ws) := by
  unfold State.sendMirror State.sendItem
  refine mirrorOnly_trans ?_ (mirrorOnly_of_offices (sendItemFrames_offices _ _ _ _))
  refine mirrorOnly_trans ?_ (refreshUnacked_mirrorOnly)
  exact modOff_mirrorOnly _ fun _ => rfl

theorem mirror_mirrorOnly (kind : Nat) (ws : List W64) : mirrorOnly s (s.mirror o kind ws) := by
  unfold State.mirror
  split
  · exact mirrorOnly_of_offices rfl
  · exact sendMirror_mirrorOnly kind ws

/-- What the owner mirrors when it has changed leaves the rest of both offices (R530). -/
theorem mirrorChanges_mirrorOnly : mirrorOnly s s.mirrorChanges := by
  have hhalf : ∀ (s : State) (o : OfficeId) (p : Prop) [Decidable p] (f : Twin → Twin) (k : Nat) (ws : List W64),
      mirrorOnly s (if p then s else (s.modTwin o f).mirror o k ws) := fun s o p _ f k ws => by
    split
    · exact mirrorOnly_of_offices rfl
    · exact mirrorOnly_trans (modTwin_mirrorOnly f) (mirror_mirrorOnly k ws)
  unfold State.mirrorChanges
  split
  · exact mirrorOnly_of_offices rfl
  · exact mirrorOnly_trans (hhalf _ _ _ _ _ _) (hhalf _ _ _ _ _ _)

/-! ### CALIBRATION_SEQUENCE_GO -/

theorem plainReg_calSeq : plainReg F.GLB_CALSEQ_GO.off := by unfold plainReg; decide

/-- What `GO` asks for, once the write is stored (R671). -/
def State.goSequence (s : State) (o : OfficeId) : State :=
  let k := s.rd o F.GLB_CALSEQ_SEQ
  if s.mode o ≠ .calibration then allTiles.foldl (fun s t => s.raise o 0x0110 (le 1 t.val ++ le 1 k)) s
  else if s.owns o = false ∨ s.flag o F.GLB_CALSEQ_RUN then s
  else s.modOff o fun d => { d with calRun := some { slot := k, fromRound := nextRound (s.roundOf d.count).toNat } }

/-- A write of `GLB_CALSEQ` with `GO`: stored, carried out and mirrored (R671). -/
theorem exec_calibrationSequenceGo {v : W32} (hw : writable s o F.GLB_CALSEQ_GO.off v.toNat) (hv : v.getLsbD 31 = true) :
    ∃ u, regsOnly s u o (writeKeys (fieldsAt F.GLB_CALSEQ_GO.off)) ∧ u.rd o F.GLB_CALSEQ_SEQ = v.toNat % 16 ∧
      exec (.calibrationSequenceGo o v) s = .next (u.goSequence o).mirrorChanges := by
  obtain ⟨u, hu, he, hrw⟩ := hostWrite_of_plainReg plainReg_calSeq hw
  refine ⟨u, hu, ?_, ?_⟩
  · rw [hrw (F.GLB_CALSEQ_SEQ, 0, 0) (by decide) rfl]
    simp [Fld.part, F.GLB_CALSEQ_SEQ, mkF, bitsOf]
  · have hact : s.hostAction o F.GLB_CALSEQ_GO.off v.toNat 31 (fun s => s.goSequence o) = u.goSequence o := by
      unfold State.hostAction
      rw [he]
      exact if_pos ⟨rfl, (bitsOf_toNat v 31).2 hv⟩
    exact congrArg (fun u : State => Host.Outcome.next u.mirrorChanges) hact

/-- Outside Calibration a start is refused for each tile, the last of them tile 3 (R59). -/
theorem goSequence_refused {k : Nat} (hm : s.mode o ≠ .calibration) (hk : s.rd o F.GLB_CALSEQ_SEQ = k) :
    noticesOnly s (s.goSequence o) o ∧ raised s (s.goSequence o) o 0x0110 (le 1 3 ++ le 1 k) := by
  let a := ((s.raise o 0x0110 (le 1 0 ++ le 1 k)).raise o 0x0110 (le 1 1 ++ le 1 k)).raise o 0x0110 (le 1 2 ++ le 1 k)
  have ha : noticesOnly s a o :=
    noticesOnly_trans (noticesOnly_trans (raise_noticesOnly _ _) (raise_noticesOnly _ _)) (raise_noticesOnly _ _)
  have hu : s.goSequence o = a.raise o 0x0110 (le 1 3 ++ le 1 k) := by
    unfold State.goSequence
    rw [hk]
    exact if_pos hm
  rw [hu]
  exact ⟨noticesOnly_trans ha (raise_noticesOnly _ _), raise_raised ha⟩

theorem calSeqGo_spec {v : W32} (hw : writable s o F.GLB_CALSEQ_GO.off v.toNat) (hv : v.getLsbD 31 = true) :
    let start : CalRun := { slot := v.toNat % 16, fromRound := ((s.roundOf (s.off o).count).toNat + 1) % 2 ^ 48 }
    (s.mode o ≠ .calibration → gives (.calibrationSequenceGo o v) s fun u =>
      raised s u o 0x0110 (le 1 3 ++ le 1 (v.toNat % 16)) ∧ (u.off o).calRun = (s.off o).calRun ∧ u.tiles = s.tiles ∧ u.svc = s.svc) ∧
    (s.mode o = .calibration → s.owns o = true → s.flag o F.GLB_CALSEQ_RUN = false → gives (.calibrationSequenceGo o v) s fun u =>
      (u.off o).calRun = some start ∧ u.rd o F.GLB_CALSEQ_SEQ = v.toNat % 16 ∧ u.tiles = s.tiles ∧ u.svc = s.svc) ∧
    (s.mode o = .calibration → (s.owns o = false ∨ s.flag o F.GLB_CALSEQ_RUN = true) → gives (.calibrationSequenceGo o v) s fun u =>
      (u.off o).calRun = (s.off o).calRun ∧ u.tiles = s.tiles ∧ u.svc = s.svc) := by
  intro start
  obtain ⟨u, hu, hseq, hx⟩ := exec_calibrationSequenceGo hw hv
  have hmode : u.mode o = s.mode o := by
    have hrd : u.rd o F.GLB_MODE_MODE = s.rd o F.GLB_MODE_MODE := hu.rd (by decide) (by decide)
    rw [State.mode, State.mode, hrd]
  have hown : u.owns o = s.owns o := by
    have hrd : u.rd o F.TWN_STAT_ROLE = s.rd o F.TWN_STAT_ROLE := hu.rd (by decide) (by decide)
    rw [State.owns, State.owns, State.role, State.role, hrd]
  have hrun : u.flag o F.GLB_CALSEQ_RUN = s.flag o F.GLB_CALSEQ_RUN := by
    have hrd : u.rd o F.GLB_CALSEQ_RUN = s.rd o F.GLB_CALSEQ_RUN := hu.rd (by decide) (by decide)
    rw [State.flag, State.flag, hrd]
  have hcal : (u.off o).calRun = (s.off o).calRun := hu.field Office.calRun fun _ _ _ _ _ _ _ => rfl
  let g := u.goSequence o
  obtain ⟨⟨ht, -, -⟩, hsvc, -⟩ := sideOnly_mirrorChanges (s := g)
  have hmirror : mirrorOnly g g.mirrorChanges := mirrorChanges_mirrorOnly
  have hrunm : (g.mirrorChanges.off o).calRun = (g.off o).calRun := hmirror.field Office.calRun (fun _ _ _ _ _ => rfl) o
  refine ⟨fun hm => ?_, fun hm ho hr => ?_, fun hm hn => ?_⟩
  · obtain ⟨hn, hraised⟩ := goSequence_refused (s := u) (o := o) (by rw [hmode]; exact hm) hseq
    refine ⟨_, hx, ?_, hrunm.trans ((hn.field Office.calRun fun _ _ _ _ _ _ => rfl).trans hcal), ht.trans (hn.tiles.trans hu.tiles),
      hsvc.trans (hn.svc.trans hu.svc)⟩
    unfold raised at hraised ⊢
    rwa [hmirror.field Office.log (fun _ _ _ _ _ => rfl) o, ← hu.field Office.inReset fun _ _ _ _ _ _ _ => rfl,
      ← hu.field Office.count fun _ _ _ _ _ _ _ => rfl]
  · have hg : g = u.modOff o fun d =>
        { d with calRun := some { slot := u.rd o F.GLB_CALSEQ_SEQ, fromRound := nextRound (u.roundOf d.count).toNat } } :=
      (if_neg (by rw [hmode, hm]; simp)).trans (if_neg (by rw [hown, ho, hrun, hr]; decide))
    have hgo : g.off o = { u.off o with
        calRun := some { slot := u.rd o F.GLB_CALSEQ_SEQ, fromRound := nextRound (u.roundOf (u.off o).count).toNat } } := by
      rw [hg]
      exact modOff_off_same _
    have hgt : g.tiles = s.tiles := by rw [hg]; exact hu.tiles
    have hgs : g.svc = s.svc := by rw [hg]; exact hu.svc
    refine ⟨_, hx, ?_, ?_, ht.trans hgt, hsvc.trans hgs⟩
    · have hcount : (u.off o).count = (s.off o).count := hu.field Office.count fun _ _ _ _ _ _ _ => rfl
      have hround : u.roundOf (u.off o).count = s.roundOf (s.off o).count := by rw [State.roundOf, State.roundOf, hu.svc, hcount]
      rw [hrunm, hgo, hseq, hround]
      rfl
    · rw [sideOnly_mirrorChanges.rd (by decide)]
      have hregs : (g.off o).regs = (u.off o).regs := by rw [hgo]
      have hrd : g.rd o F.GLB_CALSEQ_SEQ = u.rd o F.GLB_CALSEQ_SEQ := congrArg (regGet · F.GLB_CALSEQ_SEQ 0 0) hregs
      exact hrd.trans hseq
  · have hg : g = u := by
      refine (if_neg (by rw [hmode, hm]; simp)).trans (if_pos ?_)
      rw [hown, hrun]
      exact hn
    exact ⟨_, hx, hrunm.trans (by rw [hg, hcal]), ht.trans (by rw [hg, hu.tiles]), hsvc.trans (by rw [hg, hu.svc])⟩

/-! ### CALIBRATION_SEQUENCE_END -/

theorem exec_calibrationSequenceEnd (h : (s.off o).calRun = some c) :
    exec (.calibrationSequenceEnd o) s = .next (if c.running && s.sequenceOver o c then s.endSequence o else s) := by
  refine congrArg Host.Outcome.next ?_
  rw [h]

/-- A sequence ends: the office has none, and every tile that heeds it gets its order (R671). -/
theorem endSequence_spec (h : (s.off o).calRun = some c) : let u := s.endSequence o
    (u.off o).calRun = none ∧ u.rd o F.GLB_CALSEQ_RUN = 0 ∧ regsKept s u o [F.GLB_CALSEQ_RUN.key 0 0] ∧ u.svc = s.svc ∧ u.out = s.out ∧
      ∀ y, u.tile y = if s.heeds y o then { s.tile y with orders := (s.tile y).orders ++ [.sequence none none] } else s.tile y := by
  intro u
  let a := s.modOff o fun d => { d with calRun := none }
  let b := a.wr o F.GLB_CALSEQ_RUN 0
  have hu : u = [(0 : Fin 4), 1, 2, 3].foldl (fun s t => s.orderTile o t (.sequence none none)) b := by
    unfold u State.endSequence
    rw [h]
  have ha : a.off o = { s.off o with calRun := none } := modOff_off_same _
  have hb : regsOnly a b o [F.GLB_CALSEQ_RUN.key 0 0] := wr_regsOnly _ _ _ _ rfl
  obtain ⟨koff, ksvc, kout, ktile⟩ := orderTiles_spec (o := o) (.sequence none none) [(0 : Fin 4), 1, 2, 3] (by decide) b
  have hheeds : ∀ y, b.heeds y o = s.heeds y o := fun y => by rw [State.heeds, hb.tile]; rfl
  rw [hu]
  refine ⟨?_, ?_, fun k hk hn => ?_, ksvc.trans hb.svc, kout.trans hb.out, fun y => ?_⟩
  · rw [koff, hb.field Office.calRun fun _ _ _ _ _ _ _ => rfl, ha]
  · have hrd : ∀ v : State, (∀ p, v.off p = b.off p) → v.rd o F.GLB_CALSEQ_RUN = b.rd o F.GLB_CALSEQ_RUN := fun v hv =>
      congrArg (regGet · F.GLB_CALSEQ_RUN 0 0) (congrArg Office.regs (hv o))
    exact (hrd _ koff).trans (rd_wr_same _ _ _ _)
  · rw [koff, hb.regsKept k hk hn, ha]
  · rw [ktile, hheeds, hb.tile]
    have hmem : y ∈ [(0 : Fin 4), 1, 2, 3] := by revert y; decide
    simp only [hmem, true_and]
    rfl

end Sys2Proof.Machine
end

section
/-! SUPPORT. The NVM window (14 R488): what waits runs on when it opens, and is given up after 60 s. -/

namespace Sys2Proof.Machine

variable {s u : State} {o : OfficeId} {w : JobWork} {t0 : Nat}

/-! ### What does not wait -/

theorem resumeRetire_of_none (h : (s.off o).pageWait = none) : s.resumeRetire o = s := by
  unfold State.resumeRetire
  rw [h]

theorem expireRetire_of_none (h : (s.off o).pageWait = none) : s.expireRetire o = s := by
  unfold State.expireRetire
  rw [h]

theorem expireDelta_of_none (h : (s.off o).cal.waitSince = none) : s.expireDelta o = s := by
  unfold State.expireDelta
  rw [h]

theorem expireJob_of_none (h : (s.off o).lb.job = none) : s.expireJob o = s := by
  unfold State.expireJob
  rw [h]

theorem exec_nvmWindowOpen_inReset (h : (s.off o).inReset = true) : exec (.nvmWindowOpen o) s = .next s :=
  congrArg Host.Outcome.next (if_pos h)

theorem exec_nvmWindowWaitExpiry_inReset (h : (s.off o).inReset = true) : exec (.nvmWindowWaitExpiry o) s = .next s :=
  congrArg Host.Outcome.next (if_pos h)

/-! ### NVM_WINDOW_OPEN -/

/-- A job that waits for the window runs on (R488). -/
def State.resumeJob (s : State) (o : OfficeId) : State :=
  match (s.off o).lb.job with
  | some { work := w, waiting := some _ } => (s.modLb o fun l => { l with job := some { work := w } }).wr o F.SEC_JOB_STATE 1
  | _ => s

theorem resumeJob_of_none (h : (s.off o).lb.job = none) : s.resumeJob o = s := by
  unfold State.resumeJob
  rw [h]

theorem resumeJob_of_waiting (h : (s.off o).lb.job = some { work := w, waiting := some t0 }) :
    s.resumeJob o = (s.modLb o fun l => { l with job := some { work := w } }).wr o F.SEC_JOB_STATE 1 := by
  unfold State.resumeJob
  rw [h]

/-- The letterbox of the office takes a value, and a register is written. -/
theorem modLb_wr_off (f : Letterbox → Letterbox) (g : Fld) (x : Nat) (hg : g.svc = false) :
    ((s.modLb o f).wr o g x).off o = { s.off o with lb := f (s.off o).lb, regs := (((s.modLb o f).wr o g x).off o).regs } := by
  rw [State.wr, if_neg (by simp [hg]), modOff_off_same, State.modLb, modOff_off_same]

theorem resumeJob_keeps : ((s.resumeJob o).off o).pageWait = (s.off o).pageWait ∧ ((s.resumeJob o).off o).cal = (s.off o).cal := by
  unfold State.resumeJob
  split
  · rw [modLb_wr_off _ _ _ rfl]
    exact ⟨rfl, rfl⟩
  · exact ⟨rfl, rfl⟩

/-- Where neither a retirement nor a calibration delta waits, the window opens for a job alone. -/
theorem exec_nvmWindowOpen (hr : (s.off o).inReset = false) (hp : (s.off o).pageWait = none) (hc : (s.off o).cal.waitSince = none) :
    exec (.nvmWindowOpen o) s = .next ((s.wr o F.SEC_STAT_NVM_WIN 1).resumeJob o) := by
  let a := s.wr o F.SEC_STAT_NVM_WIN 1
  let b := a.resumeJob o
  have ha : regsOnly s a o [F.SEC_STAT_NVM_WIN.key 0 0] := wr_regsOnly _ _ _ _ rfl
  obtain ⟨hpage, hcal⟩ := resumeJob_keeps (s := a) (o := o)
  have hb : b.resumeRetire o = b := resumeRetire_of_none ((hpage.trans (ha.field Office.pageWait fun _ _ _ _ _ _ _ => rfl)).trans hp)
  have hwait : (b.off o).cal.waitSince = none := by rw [hcal, ha.field Office.cal fun _ _ _ _ _ _ _ => rfl, hc]
  have hdelta : ¬ ((b.resumeRetire o).off o).cal.waitSince.isSome = true := by
    rw [hb, hwait]
    exact Bool.false_ne_true
  exact congrArg Host.Outcome.next ((if_neg (by simp [hr])).trans ((if_neg fun h => hdelta h.1).trans hb))

theorem nvmWindowOpen_spec (hr : (s.off o).inReset = false) (hp : (s.off o).pageWait = none) (hc : (s.off o).cal.waitSince = none)
    (hj : (s.off o).lb.job = none) : gives (.nvmWindowOpen o) s fun u => u.rd o F.SEC_STAT_NVM_WIN = 1 ∧ onlyOff s u o ∧
      regsKept s u o [F.SEC_STAT_NVM_WIN.key 0 0] ∧ u.out = s.out ∧ (u.off o).lb = (s.off o).lb ∧ (u.off o).nvm = (s.off o).nvm := by
  let a := s.wr o F.SEC_STAT_NVM_WIN 1
  have ha : regsOnly s a o [F.SEC_STAT_NVM_WIN.key 0 0] := wr_regsOnly _ _ _ _ rfl
  have hlb : (a.off o).lb = (s.off o).lb := ha.field Office.lb fun _ _ _ _ _ _ _ => rfl
  have hx := exec_nvmWindowOpen hr hp hc
  rw [resumeJob_of_none (by rw [hlb]; exact hj)] at hx
  exact ⟨a, hx, rd_wr_same _ _ _ _, ha.onlyOff, ha.regsKept, ha.out, hlb, ha.field Office.nvm fun _ _ _ _ _ _ _ => rfl⟩

/-- A waiting job runs on when the window opens (R488, R502). -/
theorem nvmWindowOpen_resumes (hr : (s.off o).inReset = false) (hp : (s.off o).pageWait = none) (hc : (s.off o).cal.waitSince = none)
    (hj : (s.off o).lb.job = some { work := w, waiting := some t0 }) : gives (.nvmWindowOpen o) s fun u => u.rd o F.SEC_STAT_NVM_WIN = 1 ∧
      u.rd o F.SEC_JOB_STATE = 1 ∧ (u.off o).lb.job = some { work := w } ∧ onlyOff s u o ∧ u.out = s.out ∧ (u.off o).nvm = (s.off o).nvm := by
  let a := s.wr o F.SEC_STAT_NVM_WIN 1
  let b := a.modLb o fun l => { l with job := some { work := w } }
  let u := b.wr o F.SEC_JOB_STATE 1
  have ha : regsOnly s a o [F.SEC_STAT_NVM_WIN.key 0 0] := wr_regsOnly _ _ _ _ rfl
  have hb : calOnly a b o [] := modOff_calOnly _ rfl
  have hbo : b.off o = { a.off o with lb := { (a.off o).lb with job := some { work := w } } } := modOff_off_same _
  have hbregs : (b.off o).regs = (a.off o).regs := by rw [hbo]
  have hu : regsOnly b u o [F.SEC_JOB_STATE.key 0 0] := wr_regsOnly _ _ _ _ rfl
  have huo : u.off o = { a.off o with lb := { (a.off o).lb with job := some { work := w } }, regs := (u.off o).regs } := modLb_wr_off _ _ _ rfl
  have hx := exec_nvmWindowOpen hr hp hc
  rw [resumeJob_of_waiting ((congrArg Letterbox.job (ha.field Office.lb fun _ _ _ _ _ _ _ => rfl)).trans hj)] at hx
  refine ⟨u, hx, ?_, rd_wr_same _ _ _ _, by rw [huo], ?_, hu.out.trans (hb.2.1.trans ha.out), ?_⟩
  · have hwin : b.rd o F.SEC_STAT_NVM_WIN = a.rd o F.SEC_STAT_NVM_WIN := congrArg (regGet · F.SEC_STAT_NVM_WIN 0 0) hbregs
    exact (hu.rd (by decide) (by decide)).trans (hwin.trans (rd_wr_same _ _ _ _))
  · exact onlyOff_trans (onlyOff_trans ha.onlyOff hb.1) hu.onlyOff
  · rw [huo]
    exact ha.field Office.nvm fun _ _ _ _ _ _ _ => rfl

/-! ### NVM_WINDOW_WAIT_EXPIRY -/

theorem exec_nvmWindowWaitExpiry (hr : (s.off o).inReset = false) :
    exec (.nvmWindowWaitExpiry o) s = .next (((s.expireJob o).expireDelta o).expireRetire o) :=
  congrArg Host.Outcome.next (if_neg (by simp [hr]))

theorem expireJob_early (hj : (s.off o).lb.job = some { work := w, waiting := some t0 }) (ht : s.now < t0 + ticksOfUs 60000000) :
    s.expireJob o = s := by
  unfold State.expireJob
  rw [hj]
  exact if_pos ht

theorem expireDelta_early (hc : (s.off o).cal.waitSince = some t0) (ht : s.now < t0 + ticksOfUs 60000000) : s.expireDelta o = s := by
  unfold State.expireDelta
  rw [hc]
  exact if_pos ht

/-- Before its 60 s are over, a job goes on waiting. -/
theorem exec_nvmWindowWaitExpiry_jobEarly (hr : (s.off o).inReset = false) (hp : (s.off o).pageWait = none) (hc : (s.off o).cal.waitSince = none)
    (hj : (s.off o).lb.job = some { work := w, waiting := some t0 }) (ht : s.now < t0 + ticksOfUs 60000000) :
    exec (.nvmWindowWaitExpiry o) s = .next s := by
  rw [exec_nvmWindowWaitExpiry hr, expireJob_early hj ht, expireDelta_of_none hc, expireRetire_of_none hp]

/-- Before its 60 s are over, a calibration delta goes on waiting. -/
theorem exec_nvmWindowWaitExpiry_deltaEarly (hr : (s.off o).inReset = false) (hj : (s.off o).lb.job = none) (hp : (s.off o).pageWait = none)
    (hc : (s.off o).cal.waitSince = some t0) (ht : s.now < t0 + ticksOfUs 60000000) : exec (.nvmWindowWaitExpiry o) s = .next s := by
  rw [exec_nvmWindowWaitExpiry hr, expireJob_of_none hj, expireDelta_early hc ht, expireRetire_of_none hp]

/-- A refused job leaves the outcome, its registers and the bias loops free to be configured (R502). -/
theorem endJob_refused_spec (detail : Nat) (hd : detail < 2 ^ 8) : let u := s.endJob o true detail
    u.off o = { s.off o with lb := { (s.off o).lb with job := none, outcome := some (0x03, detail) }, regs := (u.off o).regs } ∧
      u.rd o F.SEC_JOB_STATE = 4 ∧ u.rd o F.SEC_JOB_CAUSE = detail ∧ u.tiles = s.tiles ∧
      u.off (otherOffice o) = s.off (otherOffice o) ∧ u.out = s.out := by
  intro u
  let b := s.modLb o fun l => { l with job := none, outcome := some (0x03, detail) }
  let c := (b.modLoop 0 fun l => { l with cfgBusy := false }).modLoop 1 fun l => { l with cfgBusy := false }
  let e := c.wr o F.SEC_JOB_STATE 4
  have hc : ∀ p, c.off p = b.off p := fun _ => rfl
  have hb : b.off o = { s.off o with lb := { (s.off o).lb with job := none, outcome := some (0x03, detail) } } := modOff_off_same _
  have he : regsOnly c e o [F.SEC_JOB_STATE.key 0 0] := wr_regsOnly _ _ _ _ rfl
  have hend : u = e.wr o F.SEC_JOB_CAUSE detail := rfl
  have hu : regsOnly e (e.wr o F.SEC_JOB_CAUSE detail) o [F.SEC_JOB_CAUSE.key 0 0] := wr_regsOnly _ _ _ _ rfl
  rw [hend]
  have hwr : ∀ (v : State) (f : Fld) (x : Nat), f.svc = false → (v.wr o f x).off o = { v.off o with regs := ((v.wr o f x).off o).regs } :=
    fun v f x hf => by rw [State.wr, if_neg (by simp [hf]), modOff_off_same]
  refine ⟨?_, (hu.rd (by decide) (by decide)).trans (rd_wr_same _ _ _ _), ?_, hu.tiles.trans he.tiles, ?_, hu.out.trans he.out⟩
  · have heo : e.off o = { c.off o with regs := (e.off o).regs } := hwr c _ _ rfl
    refine (hwr e F.SEC_JOB_CAUSE detail rfl).trans ?_
    rw [heo, hc, hb]
  · exact (rd_wr_same _ _ _ _).trans (Nat.mod_eq_of_lt hd)
  · obtain ⟨-, -, -, -, hother⟩ := onlyOff_trans he.onlyOff hu.onlyOff
    rw [hother, hc]
    exact modOff_off_peer _

/-- A confirmation that has waited for 60 s is given up (R488, R502). -/
theorem nvmWindowWaitExpiry_job (hr : (s.off o).inReset = false) (hp : (s.off o).pageWait = none) (hc : (s.off o).cal.waitSince = none)
    (hj : (s.off o).lb.job = some { work := .confirm, waiting := some t0 }) (ht : t0 + ticksOfUs 60000000 ≤ s.now) :
    gives (.nvmWindowWaitExpiry o) s fun u => (u.off o).lb.job = none ∧ (u.off o).lb.outcome = some (0x03, 0x11) ∧
      u.rd o F.SEC_JOB_STATE = 4 ∧ u.rd o F.SEC_JOB_CAUSE = 0x11 ∧ u.tiles = s.tiles ∧ u.off (otherOffice o) = s.off (otherOffice o) ∧
      u.out = s.out ∧ (u.off o).nvm = (s.off o).nvm := by
  let a := (s.draw 8).2.raise o 0x0911 [BitVec.ofNat 8 (s.draw 8).1, 1]
  let u := a.endJob o true 0x11
  have ha : noticesOnly (s.draw 8).2 a o := raise_noticesOnly _ _
  have hjob : s.expireJob o = u := by
    unfold State.expireJob
    rw [hj]
    exact if_neg (Nat.not_lt.2 ht)
  obtain ⟨huo, hstate, hcause, htiles, hother, hout⟩ := endJob_refused_spec (s := a) (o := o) 0x11 (by decide)
  have hcal : (u.off o).cal.waitSince = none := by
    rw [huo]
    exact (ha.field (fun d => d.cal.waitSince) fun _ _ _ _ _ _ => rfl).trans hc
  have hpage : (u.off o).pageWait = none := by
    rw [huo]
    exact (ha.field Office.pageWait fun _ _ _ _ _ _ => rfl).trans hp
  have hx := exec_nvmWindowWaitExpiry hr
  rw [hjob, expireDelta_of_none hcal, expireRetire_of_none hpage] at hx
  obtain ⟨-, -, -, -, hpeer⟩ := (ha.regsOnly []).onlyOff
  refine ⟨u, hx, by rw [huo], by rw [huo], hstate, hcause, htiles.trans ha.tiles, hother.trans hpeer, hout.trans (ha.regsOnly []).out, ?_⟩
  rw [huo]
  exact ha.field Office.nvm fun _ _ _ _ _ _ => rfl

/-- A delta that has waited too long is dropped: the campaign's where one was being applied, else what a pass left (R634). -/
def State.abandonDelta (s : State) (o : OfficeId) : State :=
  if s.rd o F.EMT_CAL_STAT_STATE = 4 then s.wr o F.EMT_CAL_STAT_STATE 0 else s.modCal o fun c => { c with waiting := [] }

theorem abandonDelta_spec : let u := s.abandonDelta o
    calOnly s u o [F.EMT_CAL_STAT_STATE.key 0 0] ∧ (u.off o).pageWait = (s.off o).pageWait ∧
      (s.rd o F.EMT_CAL_STAT_STATE = 4 → u.rd o F.EMT_CAL_STAT_STATE = 0) ∧
      (s.rd o F.EMT_CAL_STAT_STATE ≠ 4 → u.rd o F.EMT_CAL_STAT_STATE = s.rd o F.EMT_CAL_STAT_STATE ∧ (u.off o).cal.waiting = []) := by
  intro u
  by_cases h : s.rd o F.EMT_CAL_STAT_STATE = 4
  · have hu : u = s.wr o F.EMT_CAL_STAT_STATE 0 := if_pos h
    have hwr : regsOnly s (s.wr o F.EMT_CAL_STAT_STATE 0) o [F.EMT_CAL_STAT_STATE.key 0 0] := wr_regsOnly _ _ _ _ rfl
    rw [hu]
    exact ⟨hwr.calOnly, hwr.field Office.pageWait fun _ _ _ _ _ _ _ => rfl, fun _ => rd_wr_same _ _ _ _, fun hn => absurd h hn⟩
  · have hu : u = s.modCal o fun c => { c with waiting := [] } := if_neg h
    have hm : calOnly s (s.modCal o fun c => { c with waiting := [] }) o [] := modOff_calOnly _ rfl
    have hmo : (s.modCal o fun c => { c with waiting := [] }).off o = { s.off o with cal := { (s.off o).cal with waiting := [] } } := modOff_off_same _
    rw [hu]
    exact ⟨hm.mono nofun, by rw [hmo], fun hs => absurd hs h, fun _ => ⟨hm.rd (by decide) (by simp), by rw [hmo]⟩⟩

/-- A delta that has waited for 60 s is given up (R488, R634). -/
theorem nvmWindowWaitExpiry_delta (hr : (s.off o).inReset = false) (hj : (s.off o).lb.job = none) (hp : (s.off o).pageWait = none)
    (hc : (s.off o).cal.waitSince = some t0) (ht : t0 + ticksOfUs 60000000 ≤ s.now) :
    gives (.nvmWindowWaitExpiry o) s fun u => (u.off o).cal.waitSince = none ∧
      (s.rd o F.EMT_CAL_STAT_STATE = 4 → u.rd o F.EMT_CAL_STAT_STATE = 0) ∧
      (s.rd o F.EMT_CAL_STAT_STATE ≠ 4 → u.rd o F.EMT_CAL_STAT_STATE = s.rd o F.EMT_CAL_STAT_STATE ∧ (u.off o).cal.waiting = []) ∧
      onlyOff s u o ∧ u.out = s.out := by
  let a := (s.draw 8).2.raise o 0x0911 [BitVec.ofNat 8 (s.draw 8).1, 1]
  let b := a.abandonDelta o
  let u := b.modCal o fun c => { c with waitSince := none }
  have ha : arraysOnly s a o := arraysOnly_trans (draw_arraysOnly 8) (raise_arraysOnly _ _)
  have hdelta : s.expireDelta o = u := by
    unfold State.expireDelta
    rw [hc]
    exact if_neg (Nat.not_lt.2 ht)
  obtain ⟨hb, hpage, hfour, hother⟩ := abandonDelta_spec (s := a) (o := o)
  have hu : calOnly b u o [] := modOff_calOnly _ rfl
  have huo : u.off o = { b.off o with cal := { (b.off o).cal with waitSince := none } } := modOff_off_same _
  have hstate : a.rd o F.EMT_CAL_STAT_STATE = s.rd o F.EMT_CAL_STAT_STATE := ha.1.rd (by decide) (by simp)
  have hlast : u.rd o F.EMT_CAL_STAT_STATE = b.rd o F.EMT_CAL_STAT_STATE := hu.rd (by decide) (by simp)
  have hwait : (u.off o).pageWait = none := by
    rw [huo]
    exact (hpage.trans (ha.field Office.pageWait fun _ _ _ _ _ _ _ _ _ _ _ _ => rfl)).trans hp
  have hx := exec_nvmWindowWaitExpiry hr
  rw [expireJob_of_none hj, hdelta, expireRetire_of_none hwait] at hx
  have hall := ((ha.1.mono nofun).trans hb).trans (hu.mono nofun)
  rw [hstate] at hfour hother
  refine ⟨u, hx, by rw [huo], fun h => hlast.trans (hfour h), fun h => ?_, hall.1, hall.2.1⟩
  obtain ⟨hkeep, hempty⟩ := hother h
  exact ⟨hlast.trans hkeep, by rw [huo]; exact hempty⟩

end Sys2Proof.Machine
end

section
/-! OBLIGATION. Campaigns, code-density passes, calibration sequences and the NVM window (O52). -/

namespace Sys2Proof.Machine

variable {s : State} {o : OfficeId} {t : Fin 4} {c : CalRun}

theorem evaluationDone_spec : ((s.off o).inReset = true ∨ s.owns o = false ∨ s.rd o F.EMT_CAL_STAT_STATE ≠ 2 → exec (.evaluationDone o) s = .next s) ∧
    ((s.off o).inReset = false → s.owns o = true → s.rd o F.EMT_CAL_STAT_STATE = 2 → exec (.evaluationDone o) s = .next (s.evaluated o)) := by
  rw [exec_evaluationDone]
  exact ⟨fun h => congrArg Host.Outcome.next (if_pos h), fun hr ho hs => congrArg Host.Outcome.next (if_neg (by simp [hr, ho, hs]))⟩

/-- A pass that is under way at the owner. -/
def State.passBusy (s : State) (o : OfficeId) : Prop := s.flag o F.SORT_CD_STAT_BUSY = true ∧ s.owns o = true ∧ (s.off o).inReset = false

/-- Whether a pass is over: every interpolator has its edges, or its timeout has passed (R115). -/
def State.passEnded (s : State) (o : OfficeId) : Prop :=
  8192 ≤ (s.off o).cd.reached (2 ^ (12 + s.rd o F.SORT_CD_CTL_LOG2N)) ∨ (s.rd o F.SORT_CD_TIMEOUT_LIMIT ≠ 0 ∧
    s.rd o F.SORT_CD_TIMEOUT_LIMIT ≤ (s.roundOf (s.off o).count - (s.off o).cd.startRound).toNat)

theorem codeDensityPassEnd_spec : ((¬ s.passBusy o ∨ ¬ s.passEnded o) → exec (.codeDensityPassEnd o) s = .next s) ∧
    (s.passBusy o → s.passEnded o → exec (.codeDensityPassEnd o) s = .next (s.endPass o)) := by
  rw [exec_codeDensityPassEnd]
  unfold State.passBusy State.passEnded
  refine ⟨fun h => congrArg Host.Outcome.next (if_pos ?_), fun ⟨hbusy, howns, hreset⟩ hend => congrArg Host.Outcome.next (if_neg ?_)⟩
  · rcases h with h | h
    · by_contra hn
      simp only [not_or, Bool.not_eq_true, Bool.not_eq_false] at hn
      exact h ⟨hn.2.2.1, hn.2.1, hn.1⟩
    · simp only [not_or, not_and, Nat.not_le, ne_eq] at h
      refine .inr (.inr (.inr ⟨h.1, ?_⟩))
      by_cases hz : s.rd o F.SORT_CD_TIMEOUT_LIMIT = 0
      · exact .inl hz
      · exact .inr (h.2 hz)
  · simp only [hbusy, howns, hreset, Bool.false_eq_true, Bool.true_eq_false, false_or]
    omega

/-- A strobe outside the calibration state is reported and does nothing else (R59). -/
theorem injectionStrobe_reported (h : s.owner = some o) (hc : (s.tile t).calib = false) : gives (.injectionStrobe t) s fun u =>
    raised s u o 0x0110 (le 1 t.val ++ le 1 (s.rd o F.GLB_CALSEQ_SEQ)) ∧ onlyOff s u o ∧ regsKept s u o [] ∧ u.out = s.out := by
  have hx := exec_injectionStrobe_owned (t := t) h
  rw [if_pos hc] at hx
  have hn : regsOnly s (s.raise o 0x0110 (le 1 t.val ++ le 1 (s.rd o F.GLB_CALSEQ_SEQ))) o [] := raise_regsOnly _ _
  exact ⟨_, hx, raise_raised (noticesOnly_refl s o), hn.onlyOff, hn.regsKept, hn.out⟩

theorem exec_injectionStrobe_calib (h : s.owner = some o) (hc : (s.tile t).calib = true) : exec (.injectionStrobe t) s = .next (s.strobe o t) := by
  rw [exec_injectionStrobe_owned h, if_neg (by simp [hc])]

theorem injectionStrobe_unowned_spec (h : s.owner = none) :
    ((s.tile t).calib = false → exec (.injectionStrobe t) s = .next s) ∧
      ((s.tile t).calib = true → exec (.injectionStrobe t) s = .next (s.strobeTile t)) := by
  rw [exec_injectionStrobe_unowned h]
  exact ⟨fun hc => congrArg Host.Outcome.next (if_neg (by simp [hc])), fun hc => congrArg Host.Outcome.next (if_pos hc)⟩

theorem calibrationSequenceEnd_early (hc : (s.off o).calRun = some c) (h : c.running = false ∨ s.sequenceOver o c = false) :
    exec (.calibrationSequenceEnd o) s = .next s := by
  rw [exec_calibrationSequenceEnd hc, if_neg]
  rcases h with h | h <;> simp [h]

theorem calibrationSequenceEnd_over (hc : (s.off o).calRun = some c) (hr : c.running = true) (h : s.sequenceOver o c = true) :
    exec (.calibrationSequenceEnd o) s = .next (s.endSequence o) := by
  rw [exec_calibrationSequenceEnd hc, if_pos (by simp [hr, h])]

theorem calibrationSequenceEnd_none (hc : (s.off o).calRun = none) : exec (.calibrationSequenceEnd o) s = .next s := by
  refine congrArg Host.Outcome.next ?_
  rw [hc]

/-- Settles O52: each command of the calibration service by the lemma that says what it does, case by case. -/
theorem calibrationServiceMoves : Obligations.CalibrationServiceMoves := by
  intro s o t v c w t0 d st state asks same busy got rounds ended skipped goes start quiet
  refine ⟨start_spec, stop_spec, apply_spec, discard_spec, evaluationDone_spec.1, fun hr ho hs hw ha => ?_, codeDensityPassEnd_spec.1,
    fun hb he hs => ?_, fun h => ?_, fun h => ⟨injectionStrobe_reported h, fun hc hrun => ?_, fun hc hrun hr hk hf hd => ?_⟩,
    fun h => calSeqGo_spec h.1 h.2, calibrationSequenceEnd_none, fun hc => ⟨calibrationSequenceEnd_early hc, fun hr he => ?_⟩,
    fun hr => ⟨exec_nvmWindowOpen_inReset hr, exec_nvmWindowWaitExpiry_inReset hr⟩,
    fun hr ⟨hp, hq⟩ => ⟨nvmWindowOpen_spec hr hp hq, fun hj => ⟨nvmWindowOpen_resumes hr hp hq hj, exec_nvmWindowWaitExpiry_jobEarly hr hp hq hj,
      fun ht hw => ?_⟩⟩,
    fun hr hj hp hq => ⟨exec_nvmWindowWaitExpiry_deltaEarly hr hj hp hq, nvmWindowWaitExpiry_delta hr hj hp hq⟩⟩
  · exact ⟨_, evaluationDone_spec.2 hr ho hs, evaluated_spec hw ha⟩
  · exact ⟨_, codeDensityPassEnd_spec.2 hb he, endPass_spec hs⟩
  · obtain ⟨hstay, hstrobe⟩ := injectionStrobe_unowned_spec (t := t) h
    exact ⟨hstay, fun hc => strobeTile_only (hstrobe hc)⟩
  · have hx := exec_injectionStrobe_calib h hc
    rw [strobe_of_notRunning hrun] at hx
    exact strobeTile_only hx
  · exact ⟨_, exec_injectionStrobe_calib h hc, strobe_of_running hrun hr hk hf hd⟩
  · exact ⟨_, calibrationSequenceEnd_over hc hr he, endSequence_spec hc⟩
  · subst hw
    exact nvmWindowWaitExpiry_job hr hp hq hj ht

end Sys2Proof.Machine
end

section
/-! SUPPORT. The DLLs of a tile (03 R88 to R91, R114): lock, loss of lock, and no lock in time. -/

namespace Sys2Proof.Machine

variable {s u : State} {d : Tile} {o x : OfficeId} {t : Fin 4} {cl : BitVec 14} {now a : Nat}

/-! ### Lock -/

/-- The tile in which a cluster's DLL has locked. -/
def Tile.dllLocked (d : Tile) (now cl : Nat) : Tile := d.modCluster cl fun k => { k with dll := .locked now }

/-- The module in which a DLL has locked: an office may raise 0x0121 for it again (R91). -/
def State.dllLocked (s : State) (t : Fin 4) (cl : Nat) : State :=
  let clear := fun (d : Office) => { d with dllNoted := d.dllNoted.erase (dllKey t cl) }
  ((s.modTile t fun d => d.dllLocked s.now cl).modOff .A clear).modOff .B clear

theorem exec_dllLock (h : ((s.tile t).cluster cl.toNat).dll = .acquiring a) :
    exec (.dllLock t cl) s = .next (if a + 1024 ≤ s.now then s.dllLocked t cl.toNat else s) := by
  change execDllLock t cl s = _
  unfold execDllLock
  rw [h]
  rfl

theorem dllLocked_spec (cl : Nat) : let u := s.dllLocked t cl
    ((u.tile t).cluster cl).dll = .locked s.now ∧ clusterOnly (s.tile t) (u.tile t) cl ∧ (∀ x, x ≠ t → u.tile x = s.tile x) ∧ u.svc = s.svc ∧
      ∀ x, (u.off x).dllNoted = (s.off x).dllNoted.erase (dllKey t cl) ∧ (u.off x).regs = (s.off x).regs := by
  intro u
  have htile : u.tile t = (s.tile t).dllLocked s.now cl := modTile_tile_same (s := s) fun d => d.dllLocked s.now cl
  have hoff : ∀ x, u.off x = { s.off x with dllNoted := (s.off x).dllNoted.erase (dllKey t cl) } := by
    intro x
    cases x <;> rfl
  refine ⟨?_, htile ▸ modCluster_clusterOnly _ _, fun x hx => modTile_tile_other (s := s) (fun d => d.dllLocked s.now cl) hx, rfl, fun x => ?_⟩
  · simp [htile, Tile.dllLocked]
  · rw [hoff]
    exact ⟨rfl, rfl⟩

/-! ### New stamps leave counters and DLLs -/

/-- Every counter and every DLL of the tile is as before. -/
def dllsKept (d e : Tile) : Prop := e.cnt = d.cnt ∧ ∀ x, (e.cluster x).dll = (d.cluster x).dll

theorem dllsKept_refl (d : Tile) : dllsKept d d := ⟨rfl, fun _ => rfl⟩

theorem dllsKept_trans {e g : Tile} (h : dllsKept d e) (k : dllsKept e g) : dllsKept d g :=
  ⟨k.1.trans h.1, fun x => (k.2 x).trans (h.2 x)⟩

theorem reletter_dllsKept (cl : Nat) (c : BitVec 18) (l : Letter) : dllsKept d (d.reletter cl c l) := by
  refine ⟨rfl, fun x => ?_⟩
  simp only [Tile.reletter, Tile.cluster, Tile.modCluster]
  rcases eq_or_ne x cl with rfl | hx
  · rw [Sparse.get_update_same]
  · rw [Sparse.get_update_other _ _ _ hx]

theorem restamp_dllsKept (cl : Nat) (es : List Edge) (y : Edge) : dllsKept d (Tile.restamp t cl es d y) := by
  unfold Tile.restamp
  split
  · exact reletter_dllsKept _ _ _
  · split
    · split
      · exact ⟨rfl, fun _ => rfl⟩
      · exact dllsKept_refl d
    · exact reletter_dllsKept _ _ _

theorem foldl_restamp_dllsKept (cl : Nat) (es l : List Edge) (d : Tile) : dllsKept d (l.foldl (Tile.restamp t cl es) d) := by
  induction l generalizing d with
  | nil => exact dllsKept_refl d
  | cons y l ih => exact dllsKept_trans (restamp_dllsKept cl es y) (ih _)

/-! ### Loss of lock -/

/-- An edge of the running tick that had an interpolator: it becomes coarse-only at a loss of lock (R90). -/
def Edge.losesFine (now : Nat) (e : Edge) : Bool := decide (e.tick = now) && e.ip.isSome

/-- An edge as a loss of lock in the tick leaves it (R90). -/
def Edge.stripped (now : Nat) (e : Edge) : Edge := if e.tick = now then { e with ip := none, locked := none } else e

/-- A cluster whose DLL has lost lock in the tick (R89, R90). -/
def Cluster.unlocked (k : Cluster) (now : Nat) : Cluster :=
  { k with dll := .acquiring now, edges := k.edges.map (·.stripped now), tickEdges := k.tickEdges.map (·.stripped now) }

/-- The tile whose DLL acquires again and whose new coarse-only stamps are counted, before its edges take them (R89, R90, R118). -/
def Tile.acquiringAgain (d : Tile) (t : Fin 4) (now cl : Nat) : Tile :=
  let es := (d.cluster cl).tickEdges.filter (·.losesFine now)
  ((d.modCluster cl (·.unlocked now)).countBy t F.SORT_TE_CNT_COLEAD_COUNT (es.filter fun e => !e.trailing).length).countBy t
    F.SORT_TE_CNT_COTRAIL_COUNT (es.filter fun e => e.trailing).length

theorem loseLock_eq (cl : Nat) : d.loseLock t now cl =
    (((d.cluster cl).tickEdges.filter (·.losesFine now)).map (·.stripped now)).foldl
      (Tile.restamp t cl ((d.cluster cl).edges.map (·.stripped now) ++ (d.cluster cl).tickEdges.map (·.stripped now))) (d.acquiringAgain t now cl) := rfl

/-- Counting leaves every counter with another key. -/
theorem reads_countBy_other {f g : Fld} (n : Nat) (h : g.key t.val 0 ≠ f.key t.val 0) :
    regGet (d.countBy t f n).cnt g t.val 0 = regGet d.cnt g t.val 0 := regGet_regSet_other _ _ _ _ _ _ _ _ h

theorem acquiringAgain_spec (cl : Nat) : let e := d.acquiringAgain t now cl
    (e.cluster cl).dll = .acquiring now ∧ e.cells = d.cells ∧
      regGet e.cnt F.SORT_TE_CNT_UNLOCK_COUNT t.val 0 = regGet d.cnt F.SORT_TE_CNT_UNLOCK_COUNT t.val 0 := by
  have hlead : F.SORT_TE_CNT_UNLOCK_COUNT.key t.val 0 ≠ F.SORT_TE_CNT_COLEAD_COUNT.key t.val 0 := by revert t; decide
  have htrail : F.SORT_TE_CNT_UNLOCK_COUNT.key t.val 0 ≠ F.SORT_TE_CNT_COTRAIL_COUNT.key t.val 0 := by revert t; decide
  exact ⟨congrArg Cluster.dll (cluster_modCluster_same (d := d) cl (·.unlocked now)), rfl, (reads_countBy_other _ htrail).trans (reads_countBy_other _ hlead)⟩

/-- A loss of lock: the DLL acquires again, the losses counted are as before, and without edges of the tick no cell changes (R89, R90). -/
theorem loseLock_spec (cl : Nat) : let e := d.loseLock t now cl
    (e.cluster cl).dll = .acquiring now ∧
      (((d.cluster cl).tickEdges.all fun y => decide (y.tick ≠ now)) = true → e.cells = d.cells) ∧
      regGet e.cnt F.SORT_TE_CNT_UNLOCK_COUNT t.val 0 = regGet d.cnt F.SORT_TE_CNT_UNLOCK_COUNT t.val 0 := by
  intro e
  obtain ⟨hdll, hcells, hcount⟩ := acquiringAgain_spec (d := d) (t := t) (now := now) cl
  have he : e = _ := loseLock_eq cl
  obtain ⟨hcnt, hkept⟩ : dllsKept (d.acquiringAgain t now cl) e := by
    rw [he]
    exact foldl_restamp_dllsKept _ _ _ _
  refine ⟨(hkept cl).trans hdll, fun hall => ?_, by rw [hcnt, hcount]⟩
  have hnone : (d.cluster cl).tickEdges.filter (·.losesFine now) = [] := by
    rw [List.filter_eq_nil_iff]
    intro y hy
    have htick := of_decide_eq_true (List.all_eq_true.1 hall y hy)
    simp [Edge.losesFine, htick]
  rw [hnone] at he
  exact (congrArg Tile.cells he).trans hcells

theorem noticeUnlock_onlyOff (cl : Nat) : onlyOff s (s.noticeUnlock o t cl) o := by
  unfold State.noticeUnlock
  dsimp only
  split
  · exact onlyOff_refl s o
  · exact onlyOff_trans (modOff_onlyOff _) (raise_noticesOnly _ _).onlyOff

/-- Beside office `o`, no office differs. -/
theorem onlyOff.off_other (h : onlyOff s u o) (hx : x ≠ o) : u.off x = s.off x := by
  obtain ⟨-, -, -, -, hpeer⟩ := h
  obtain rfl : x = otherOffice o := by revert hx; cases x <;> cases o <;> decide
  exact hpeer

/-- A loss of lock is counted in its tile, and beside that at most the owner changes (R91, R114). -/
theorem noteUnlock_spec (cl : Nat) : let u := s.noteUnlock t cl
    u.tile t = (s.tile t).countUp t F.SORT_TE_CNT_UNLOCK_COUNT ∧ (∀ x, x ≠ t → u.tile x = s.tile x) ∧ u.svc = s.svc ∧
      ∀ x, s.owner ≠ some x → u.off x = s.off x := by
  intro u
  let c := s.modTile t fun d => d.countUp t F.SORT_TE_CNT_UNLOCK_COUNT
  have hsame : c.tile t = (s.tile t).countUp t F.SORT_TE_CNT_UNLOCK_COUNT := modTile_tile_same _
  have hother : ∀ x, x ≠ t → c.tile x = s.tile x := fun x hx => modTile_tile_other _ hx
  have howner : c.owner = s.owner := rfl
  cases ho : s.owner with
  | none =>
    have hu : u = c := by
      unfold u State.noteUnlock
      dsimp only
      rw [howner, ho]
    exact hu ▸ ⟨hsame, hother, rfl, fun _ _ => rfl⟩
  | some o =>
    have hu : onlyOff c u o := by
      unfold u State.noteUnlock
      dsimp only
      rw [howner, ho]
      exact onlyOff_trans (modOff_onlyOff _) (noticeUnlock_onlyOff cl)
    obtain ⟨-, -, htiles, hsvc, -⟩ := id hu
    have htile : ∀ x, u.tile x = c.tile x := fun x => congrArg (·.get x) htiles
    exact ⟨(htile t).trans hsame, fun x hx => (htile x).trans (hother x hx), hsvc,
      fun x hx => hu.off_other fun h => hx (h ▸ rfl)⟩

theorem exec_dllLossOfLock (h : ((s.tile t).cluster cl.toNat).dll = .locked a) :
    exec (.dllLossOfLock t cl) s = .next ((s.modTile t fun d => d.loseLock t s.now cl.toNat).noteUnlock t cl.toNat) := by
  change execDllLossOfLock t cl s = _
  unfold execDllLossOfLock
  rw [h]

theorem dllLossOfLock_spec (h : ((s.tile t).cluster cl.toNat).dll = .locked a) : gives (.dllLossOfLock t cl) s fun u =>
    ((u.tile t).cluster cl.toNat).dll = .acquiring s.now ∧
      ((((s.tile t).cluster cl.toNat).tickEdges.all fun e => decide (e.tick ≠ s.now)) = true → (u.tile t).cells = (s.tile t).cells) ∧
      regGet (u.tile t).cnt F.SORT_TE_CNT_UNLOCK_COUNT t.val 0 = min (regGet (s.tile t).cnt F.SORT_TE_CNT_UNLOCK_COUNT t.val 0 + 1) 0xFFFFFFFF ∧
      (∀ x, x ≠ t → u.tile x = s.tile x) ∧ u.svc = s.svc ∧ ∀ x, s.owner ≠ some x → u.off x = s.off x := by
  obtain ⟨hdll, hcells, hcount⟩ := loseLock_spec (d := s.tile t) (t := t) (now := s.now) cl.toNat
  obtain ⟨htile, hother, hsvc, hoff⟩ := noteUnlock_spec (s := s.modTile t fun d => d.loseLock t s.now cl.toNat) (t := t) cl.toNat
  rw [modTile_tile_same] at htile
  refine ⟨_, exec_dllLossOfLock h, ?_, fun hall => ?_, ?_, fun x hx => (hother x hx).trans (modTile_tile_other _ hx), hsvc, hoff⟩
  · rw [htile]
    exact hdll
  · rw [htile]
    exact hcells hall
  · rw [htile, countUp_reads, hcount]
    rfl

/-! ### No lock in time -/

/-- The owner reports a DLL that has not locked in time, and remembers it (R91). -/
def State.dllLate (s : State) (o : OfficeId) (t : Fin 4) (cl : Nat) : State :=
  (s.modOff o fun d => { d with dllNoted := dllKey t cl :: d.dllNoted }).raise o 0x0121
    (le 1 t.val ++ le 2 cl ++ le 1 (cfgDllStart ((s.tile t).clusterWord cl)))

theorem exec_dllLockTimeout (h : ((s.tile t).cluster cl.toNat).dll = .acquiring a) (ho : s.owner = some o) :
    exec (.dllLockTimeout t cl) s = .next (if a + 30000 ≤ s.now ∧ (s.off o).dllNoted.contains (dllKey t cl.toNat) = false then
      s.dllLate o t cl.toNat else s) := by
  change execDllLockTimeout t cl s = _
  unfold execDllLockTimeout
  rw [h, ho]
  rfl

theorem dllLate_spec (cl : Nat) : let u := s.dllLate o t cl
    raised s u o 0x0121 (le 1 t.val ++ le 2 cl ++ le 1 (cfgDllStart ((s.tile t).clusterWord cl))) ∧
      (u.off o).dllNoted.contains (dllKey t cl) = true ∧ onlyOff s u o ∧ regsKept s u o [] := by
  intro u
  let c := s.modOff o fun d => { d with dllNoted := dllKey t cl :: d.dllNoted }
  have hc : c.off o = { s.off o with dllNoted := dllKey t cl :: (s.off o).dllNoted } := modOff_off_same _
  have hu : noticesOnly c u o := raise_noticesOnly _ _
  refine ⟨raised_of_keeps (by rw [hc]) (by rw [hc]), ?_, onlyOff_trans (modOff_onlyOff _) hu.onlyOff, fun k _ hk => ?_⟩
  · rw [hu.field Office.dllNoted fun _ _ _ _ _ _ => rfl, hc]
    simp
  · rw [hu.regs hk, hc]

end Sys2Proof.Machine
end

section
/-! SUPPORT. Wrong residue predictions and starts of a code-density pass (03 R113, R114, R117, R122). -/

namespace Sys2Proof.Machine

variable {s u : State} {o : OfficeId} {v : W32} {l : List (Fld × Nat × Nat)}

/-! ### What a write with action bits stores -/

/-- Action bits hold nothing: a write stores the other fields alone (R8). -/
theorem storeAll_skips_wo (x : Nat) : s.storeAll o x (l.filter fun e => decide (e.1.acc ≠ .wo)) = s.storeAll o x l := by
  induction l generalizing s with
  | nil => rfl
  | cons e es ih =>
    by_cases ha : e.1.acc = .wo
    · have he : s.storeField o x e = s := by simp [State.storeField, ha]
      rw [List.filter_cons_of_neg (by simp [ha]), storeAll_cons, he, ih]
    · rw [List.filter_cons_of_pos (by simp [ha]), storeAll_cons, storeAll_cons, ih]

/-- A register of an office that is no half of a pair, stored: no field but those that hold a value is written (R5, R8). -/
theorem storeReg_of_plainReg {addr : Nat} (x : Nat) (hp : plainReg addr) :
    regsOnly s (s.storeReg o addr x) o (writeKeys ((fieldsAt addr).filter fun e => decide (e.1.acc ≠ .wo))) ∧
      ∀ e ∈ fieldsAt addr, e.1.acc = .rw → e.1.isBad (e.1.part x) = false → (s.storeReg o addr x).rd o e.1 e.2.1 e.2.2 = e.1.part x := by
  obtain ⟨-, hlow, hhigh, -, hn, hsvc⟩ := hp
  rw [storeReg_plain x hlow hhigh]
  refine ⟨?_, fun e hm ha hb => ?_⟩
  · rw [← storeAll_skips_wo]
    exact storeAll_regsOnly x fun e he => hsvc e (List.mem_filter.1 he).1
  · rw [rd_storeAll_same x hn hm (hostWritable_of_rw ha), stored_rw ha, hb, if_neg Bool.false_ne_true]

theorem regsOnly.owns {ks : List Nat} (h : regsOnly s u o ks) (hk : F.TWN_STAT_ROLE.key 0 0 ∉ ks) : u.owns o = s.owns o := by
  have hrole : u.rd o F.TWN_STAT_ROLE = s.rd o F.TWN_STAT_ROLE := h.rd hk (by decide)
  rw [State.owns, State.owns, State.role, State.role, hrole]

/-! ### A wrong residue prediction -/

theorem plainReg_resCtl : plainReg F.SORT_RES_CTL_INJ.off := by unfold plainReg; decide

/-- The step is written, and the prediction of that step is armed to be wrong once (R113). -/
theorem residueErrorInject_spec (ho : s.owns o = true) (hw : writable s o F.SORT_RES_CTL_INJ.off v.toNat) (hv : v.getLsbD 8 = true) :
    gives (.residueErrorInject o v) s fun u =>
      (u.off o).resInj = some (v.toNat % 8) ∧ u.rd o F.SORT_RES_CTL_INJ_STEP = v.toNat % 8 ∧ onlyOff s u o ∧
        regsKept s u o [F.SORT_RES_CTL_INJ_STEP.key 0 0] := by
  obtain ⟨hr, -, -, hk, -⟩ := plainReg_resCtl
  obtain ⟨c, hc, he⟩ := hostWrite_of_writable hw hr (exists_hostWritable hk)
  obtain ⟨hstore, hrw⟩ := storeReg_of_plainReg (s := c) (o := o) v.toNat plainReg_resCtl
  have hu : regsOnly s (c.storeReg o F.SORT_RES_CTL_INJ.off v.toNat) o [F.SORT_RES_CTL_INJ_STEP.key 0 0] :=
    (hc.regsOnly _).trans (hstore.mono (by decide))
  have hmem : (F.SORT_RES_CTL_INJ_STEP, 0, 0) ∈ fieldsAt F.SORT_RES_CTL_INJ.off := by decide
  have hstep : (c.storeReg o F.SORT_RES_CTL_INJ.off v.toNat).rd o F.SORT_RES_CTL_INJ_STEP = v.toNat % 8 := by
    rw [hrw _ hmem rfl (hw.2.2 _ hmem rfl)]
    simp [Fld.part, F.SORT_RES_CTL_INJ_STEP, mkF, bitsOf]
  generalize c.storeReg o F.SORT_RES_CTL_INJ.off v.toNat = u at he hu hstep
  have hx : exec (.residueErrorInject o v) s = .next (u.modOff o fun d => { d with resInj := some (u.rd o F.SORT_RES_CTL_INJ_STEP) }) := by
    refine congrArg Host.Outcome.next ?_
    rw [State.hostAction, he, if_pos ⟨rfl, (bitsOf_toNat v 8).2 hv⟩, if_pos ((hu.owns (by decide)).trans ho)]
  refine ⟨_, hx, by rw [modOff_off_same, hstep], ?_, onlyOff_trans hu.onlyOff (modOff_onlyOff _), fun k h hk => ?_⟩
  · rw [← hstep]
    simp [State.rd]
  · rw [modOff_off_same]
    exact hu.regsKept k h hk

/-! ### A start of a code-density pass -/

/-- A pass begins, with empty counts and in the present round (R114, R122). -/
def State.beginPass (s : State) (o : OfficeId) (v : Nat) : State :=
  let s := (s.storeReg o F.SORT_CD_CTL_START.off v).wr o F.SORT_CD_STAT_BUSY 1
  s.modOff o fun d => { d with cd := { startRound := s.roundOf d.count, first := s.rd o F.SORT_CD_CTL_FIRST } }

/-- What a start asked of the owner leads to: a pass, or a refusal with its cause (R114, R117). -/
def State.answerStart (s : State) (o : OfficeId) (v : Nat) : State :=
  match s.cdRefusal o v with
  | 0 => s.beginPass o v
  | n + 1 => s.raise o 0x0123 (le 4 v ++ le 1 (n + 1))

theorem exec_codeDensityStart (hv : v.getLsbD 31 = true) (ht : s.takesWrites o = true) (ho : s.owns o = true) :
    exec (.codeDensityStart o v) s = .next ((s.journal o F.SORT_CD_CTL_START.off v.toNat true).answerStart o v.toNat) := by
  have hstart : bitsOf v.toNat 31 1 ≠ 0 := by
    rw [(bitsOf_toNat v 31).2 hv]
    exact Nat.one_ne_zero
  have howns : (s.journal o F.SORT_CD_CTL_START.off v.toNat true).owns o = true := (raise_noticesOnly _ _).owns.trans ho
  exact congrArg Host.Outcome.next ((if_neg hstart).trans ((if_neg (by simp [ht])).trans (if_neg (by simp [howns]))))

/-- A letter start at a multiple of 8,192 is refused on no ground while no pass runs (R117). -/
theorem cdRefusal_of_idle {v : Nat} (hb : s.rd o F.SORT_CD_STAT_BUSY = 0) (hsrc : v / 2 ^ 20 % 4 = 0) (hfirst : v % 8192 = 0) :
    s.cdRefusal o v = 0 := by
  have hpart : F.SORT_CD_CTL_SRC.part v = 0 := hsrc
  have hmult : F.SORT_CD_CTL_FIRST.part v % 8192 = 0 := by
    simp only [Fld.part, F.SORT_CD_CTL_FIRST, mkF, bitsOf]
    omega
  have hgood : F.SORT_CD_CTL_SRC.isBad 0 = false := by decide
  simp [State.cdRefusal, State.flag, hb, hpart, hmult, hgood]

theorem plainReg_cdCtl : plainReg F.SORT_CD_CTL_START.off := by unfold plainReg; decide

theorem beginPass_spec (v : Nat) : let u := s.beginPass o v
    u.rd o F.SORT_CD_STAT_BUSY = 1 ∧ (u.off o).cd = { startRound := s.roundOf (s.off o).count, first := v % 2 ^ 17 } ∧ onlyOff s u o := by
  intro u
  let a := s.storeReg o F.SORT_CD_CTL_START.off v
  let b := a.wr o F.SORT_CD_STAT_BUSY 1
  obtain ⟨ha, hrw⟩ := storeReg_of_plainReg (s := s) (o := o) v plainReg_cdCtl
  have hb : regsOnly a b o [F.SORT_CD_STAT_BUSY.key 0 0] := wr_regsOnly _ _ _ _ rfl
  have hmem : (F.SORT_CD_CTL_FIRST, 0, 0) ∈ fieldsAt F.SORT_CD_CTL_START.off := by decide
  have hfirst : b.rd o F.SORT_CD_CTL_FIRST = v % 2 ^ 17 := by
    rw [hb.rd (by decide) (by decide), hrw _ hmem rfl rfl]
    simp [Fld.part, F.SORT_CD_CTL_FIRST, mkF, bitsOf]
  have hround : b.roundOf (b.off o).count = s.roundOf (s.off o).count := by
    rw [State.roundOf, State.roundOf, hb.svc, ha.svc, hb.field Office.count fun _ _ _ _ _ _ _ => rfl,
      ha.field Office.count fun _ _ _ _ _ _ _ => rfl]
  have hu : u.off o = { b.off o with cd := { startRound := b.roundOf (b.off o).count, first := b.rd o F.SORT_CD_CTL_FIRST } } := modOff_off_same _
  refine ⟨?_, by rw [hu, hround, hfirst], onlyOff_trans (onlyOff_trans ha.onlyOff hb.onlyOff) (modOff_onlyOff _)⟩
  have hbusy : b.rd o F.SORT_CD_STAT_BUSY = 1 := rd_wr_same _ _ _ _
  rw [← hbusy]
  unfold State.rd
  rw [hu]
  rfl

/-- A start while no pass runs begins one (R114, R122). -/
theorem codeDensityStart_begins (ht : s.takesWrites o = true) (ho : s.owns o = true) (hv : v.getLsbD 31 = true)
    (hb : s.rd o F.SORT_CD_STAT_BUSY = 0) (hsrc : v.toNat / 2 ^ 20 % 4 = 0) (hfirst : v.toNat % 8192 = 0) :
    gives (.codeDensityStart o v) s fun u =>
      u.rd o F.SORT_CD_STAT_BUSY = 1 ∧ (u.off o).cd = { startRound := s.roundOf (s.off o).count, first := v.toNat % 2 ^ 17 } ∧ onlyOff s u o := by
  let j := s.journal o F.SORT_CD_CTL_START.off v.toNat true
  have hj : noticesOnly s j o := raise_noticesOnly _ _
  have hanswer : j.answerStart o v.toNat = j.beginPass o v.toNat := by
    unfold State.answerStart
    rw [cdRefusal_of_idle ((hj.rd (by decide)).trans hb) hsrc hfirst]
  obtain ⟨hbusy, hcd, hoff⟩ := beginPass_spec (s := j) (o := o) v.toNat
  rw [State.roundOf, hj.svc, hj.field Office.count fun _ _ _ _ _ _ => rfl] at hcd
  exact ⟨_, (exec_codeDensityStart hv ht ho).trans (congrArg Host.Outcome.next hanswer), hbusy, hcd, onlyOff_trans hj.onlyOff hoff⟩

/-- A start while a pass runs is refused with cause 1, and the pass goes on (R117; log entry 82). -/
theorem codeDensityStart_refused (ht : s.takesWrites o = true) (ho : s.owns o = true) (hv : v.getLsbD 31 = true)
    (hb : s.rd o F.SORT_CD_STAT_BUSY = 1) :
    gives (.codeDensityStart o v) s fun u =>
      raised s u o 0x0123 (le 4 v.toNat ++ [1]) ∧ (u.off o).cd = (s.off o).cd ∧ u.rd o F.SORT_CD_STAT_BUSY = 1 ∧ onlyOff s u o := by
  let j := s.journal o F.SORT_CD_CTL_START.off v.toNat true
  have hj : noticesOnly s j o := raise_noticesOnly _ _
  have hbusy : j.rd o F.SORT_CD_STAT_BUSY = 1 := (hj.rd (by decide)).trans hb
  have hcause : j.cdRefusal o v.toNat = 1 := if_pos (by simp [State.flag, hbusy])
  have hanswer : j.answerStart o v.toNat = j.raise o 0x0123 (le 4 v.toNat ++ [1]) := by
    unfold State.answerStart
    rw [hcause]
    rfl
  have hu : noticesOnly j (j.raise o 0x0123 (le 4 v.toNat ++ [1])) o := raise_noticesOnly _ _
  exact ⟨_, (exec_codeDensityStart hv ht ho).trans (congrArg Host.Outcome.next hanswer), raise_raised hj,
    (noticesOnly_trans hj hu).field Office.cd fun _ _ _ _ _ _ => rfl, (hu.rd (by decide)).trans hbusy, onlyOff_trans hj.onlyOff hu.onlyOff⟩

end Sys2Proof.Machine
end

section
/-! OBLIGATION. DLLs and the registers of the correction path (O12). -/

namespace Sys2Proof.Machine

/-- Settles O12: each command by the lemma that says what it does. -/
theorem dllsAndCorrectionPath : Obligations.DllsAndCorrectionPath := by
  refine ⟨fun s t cl a o => ⟨fun hd ha => ⟨_, (exec_dllLock hd).trans (congrArg Host.Outcome.next (if_pos ha)), dllLocked_spec _⟩,
      fun hd ha => (exec_dllLock hd).trans (congrArg Host.Outcome.next (if_neg (Nat.not_le.2 ha))), dllLossOfLock_spec,
    fun hd ho => ⟨fun ha hn => ?_, fun hn => ?_⟩⟩, fun s o v ht ho => ⟨residueErrorInject_spec ho, fun hv hb hsrc hfirst => ?_,
      codeDensityStart_refused ht ho⟩⟩
  · exact ⟨_, (exec_dllLockTimeout hd ho).trans (congrArg Host.Outcome.next (if_pos ⟨ha, hn⟩)), dllLate_spec _⟩
  · exact (exec_dllLockTimeout hd ho).trans (congrArg Host.Outcome.next (if_neg fun h => Bool.false_ne_true (h.2.symm.trans hn)))
  · obtain ⟨u, hx, hbusy, hcd, hoff⟩ := codeDensityStart_begins ht ho hv hb hsrc hfirst
    exact ⟨u, hx, hbusy, by rw [hcd], by rw [hcd], by rw [hcd], by rw [hcd], hoff⟩

end Sys2Proof.Machine
end

section
/-! SUPPORT. Buckets that close and late frames that go (04 R127, R129, R130), and their obligation. -/

namespace Sys2Proof.Machine

variable {s : State} {d e g : Tile} {t : Fin 4} {now rs : Nat}

/-! ### Buckets that close -/

/-- Of the tile only its frames and buckets differ, and no bucket that held no letters holds any. -/
def emptiesOnly (d e : Tile) : Prop :=
  e = { d with queue := e.queue, lanes := e.lanes, memPeak := e.memPeak, buckets := e.buckets } ∧
    ∀ k, (d.bucketAt k).letters = [] → (e.bucketAt k).letters = []

theorem emptiesOnly_refl (d : Tile) : emptiesOnly d d := ⟨rfl, fun _ h => h⟩

theorem emptiesOnly_trans (h : emptiesOnly d e) (i : emptiesOnly e g) : emptiesOnly d g := by
  obtain ⟨ht, hb⟩ := h
  obtain ⟨it, ib⟩ := i
  exact ⟨it.trans (congrArg (fun x : Tile => { x with
    queue := g.queue, lanes := g.lanes, memPeak := g.memPeak, buckets := g.buckets }) ht), fun k hk => ib k (hb k hk)⟩

/-- A tile that only moves frames keeps its buckets. -/
theorem framesOnly.bucketAt (h : framesOnly d e) (k : Nat) : e.bucketAt k = d.bucketAt k :=
  h.field (Tile.bucketAt · k) fun _ _ _ _ => rfl

theorem emptiesOnly_of_framesOnly (h : framesOnly d e) : emptiesOnly d e := by
  have hs : e.buckets = d.buckets := h.field Tile.buckets fun _ _ _ _ => rfl
  exact ⟨by rw [hs]; exact h, fun k hk => by rw [h.bucketAt]; exact hk⟩

theorem emptied_emptiesOnly (k : Nat) : emptiesOnly d (d.emptied k) := by
  refine ⟨rfl, fun j hj => ?_⟩
  rcases eq_or_ne j k with rfl | hne
  · simp [Tile.emptied, Tile.bucketAt]
  · rw [Tile.bucketAt, Tile.emptied, Sparse.get_set_other _ _ _ hne]
    exact hj

theorem shipData_emptiesOnly (round x : Nat) : emptiesOnly d (d.shipData now round x) :=
  emptiesOnly_trans (emptied_emptiesOnly _) (emptiesOnly_of_framesOnly (queueFrame_framesOnly _ _))

/-- A bucket that closes holds no letter, and no other gains one (R127, R129). -/
theorem closeBucket_spec (d : Tile) (now round x : Nat) :
    emptiesOnly d (d.closeBucket now round x) ∧ ((d.closeBucket now round x).bucketAt (bucketKey round x)).letters = [] := by
  unfold Tile.closeBucket
  extract_lets shipped
  have hshipped : emptiesOnly d shipped ∧ (shipped.bucketAt (bucketKey round x)).letters = [] := by
    by_cases h : (d.bucketAt (bucketKey round x)).letters = []
    · rw [show shipped = d from if_pos h]
      exact ⟨emptiesOnly_refl d, h⟩
    · rw [show shipped = d.shipData now round x from if_neg h]
      obtain ⟨hb, -, -⟩ := shipData_spec (d := d) (now := now) round x
      exact ⟨shipData_emptiesOnly _ _, by rw [hb]⟩
  obtain ⟨hrest, hempty⟩ := hshipped
  have hclose := emptiesOnly_of_framesOnly
    (queueFrame_framesOnly (d := shipped) now { kind := .close, round := round, district := x, fnum := 0, letters := [], words := [] })
  exact ⟨emptiesOnly_trans hrest hclose, hclose.2 _ hempty⟩

/-- A list of buckets that close one after another. -/
theorem foldl_closeBucket_spec (now : Nat) (round x : Nat → Nat) (l : List Nat) (d : Tile) :
    let e := l.foldl (fun d k => d.closeBucket now (round k) (x k)) d
    emptiesOnly d e ∧ ∀ k ∈ l, (e.bucketAt (bucketKey (round k) (x k))).letters = [] := by
  induction l generalizing d with
  | nil => exact ⟨emptiesOnly_refl d, nofun⟩
  | cons k l ih =>
    obtain ⟨hk, hempty⟩ := closeBucket_spec d now (round k) (x k)
    obtain ⟨hl, hall⟩ := ih (d.closeBucket now (round k) (x k))
    refine ⟨emptiesOnly_trans hk hl, fun j hj => ?_⟩
    rcases List.mem_cons.1 hj with rfl | hj
    · exact hl.2 _ hempty
    · exact hall j hj

theorem bucketAt_of_closedTo (d : Tile) (n k : Nat) : { d with closedTo := n }.bucketAt k = d.bucketAt k := rfl

/-- The closing tick of a round: of the tile its frames and buckets differ, those of the round are empty, and the next round is the
first whose buckets are open (R127). -/
theorem closeRound_spec (d : Tile) (now round : Nat) : let e := d.closeRound now round
    e = { d with queue := e.queue, lanes := e.lanes, memPeak := e.memPeak, buckets := e.buckets, closedTo := nextRound round } ∧
      ∀ k, k < 64 → (e.bucketAt (bucketKey round k)).letters = [] := by
  intro e
  let stale := (d.buckets.filter fun e => roundLe d.closedTo (e.1 / 64) && roundLt (e.1 / 64) round).map (·.1)
  let a := stale.foldl (fun d k => d.closeBucket now (k / 64) (k % 64)) d
  let b := (List.range 64).foldl (fun d k => d.closeBucket now round k) a
  have he : e = { b with closedTo := nextRound round } := rfl
  have hstale : emptiesOnly d a := (foldl_closeBucket_spec now (· / 64) (· % 64) stale d).1
  have hround : emptiesOnly a b ∧ ∀ k ∈ List.range 64, (b.bucketAt (bucketKey round k)).letters = [] :=
    foldl_closeBucket_spec now (fun _ => round) (fun k => k) (List.range 64) a
  obtain ⟨hclosed, hall⟩ := hround
  obtain ⟨hrest, -⟩ := emptiesOnly_trans hstale hclosed
  refine ⟨?_, fun k hk => ?_⟩
  · rw [he]
    exact congrArg (fun x : Tile => { x with closedTo := nextRound round }) hrest
  · rw [he, bucketAt_of_closedTo]
    exact hall k (List.mem_range.2 hk)

/-! ### Late frames -/

/-- Late letters go as one frame, and none are kept (R130). -/
theorem shipLate_spec (d : Tile) (now round x : Nat) : let e := d.shipLate now round x
    (e.lateAt (bucketKey round x)).letters = [] ∧ e.buckets = d.buckets ∧
      ∃ f, holdsFrame e f ∧ f.kind = .late ∧ f.letters = (d.lateAt (bucketKey round x)).letters := by
  intro e
  let erased := { d with late := Sparse.erase d.late (bucketKey round x) }
  have hframes : framesOnly erased e := queueFrame_framesOnly _ _
  have hlate : e.late = erased.late := hframes.field Tile.late fun _ _ _ _ => rfl
  refine ⟨?_, hframes.field Tile.buckets fun _ _ _ _ => rfl, _, holdsFrame_queueFrame _ _, rfl, rfl⟩
  rw [Tile.lateAt, hlate, Sparse.get_erase_same]

/-! ### The commands -/

/-- Of two tick counts the one that is earlier is not at or past the other (R11). -/
theorem tickLe_of_tickLt {a b : Nat} (h : tickLt a b = true) : tickLe b a = false := by
  rw [tickLt] at h
  rw [tickLe, h, Bool.not_true]

/-- Settles O14: a round whose closing tick has come by its 64 buckets, late letters by their frame, and before its time each by the tile as
it was. -/
theorem bucketsCloseAndLateFramesGo : Obligations.BucketsCloseAndLateFramesGo := by
  intro s t r x d w
  refine ⟨fun hreset hopen hdue => ?_, fun hearly => ?_, fun hletters hdue => ?_, fun hearly => ?_⟩
  · obtain ⟨hrest, hempty⟩ := closeRound_spec d s.now r.toNat
    refine onlyTile_of rfl (if_pos (by simp [d, hreset, hopen, hdue] : _ = true)) ⟨?_, ?_, ?_, ?_, hempty⟩
    all_goals
      rw [hrest]
    rfl
  · refine next_of_sameTile rfl (if_neg ?_)
    simp [d, tickLe_of_tickLt hearly]
  · exact onlyTile_of rfl (if_pos ⟨hletters, hdue⟩) (shipLate_spec d s.now r.toNat x.toNat)
  · refine next_of_sameTile rfl (if_neg ?_)
    rintro ⟨hletters, hdue⟩
    rcases hearly with h | h
    · exact hletters h
    · exact Nat.not_le.2 h hdue

end Sys2Proof.Machine
end

section
/-! SUPPORT. Frames and idle frames that leave a tile (04 R134, R136, R142, R143, R147, R149), and their obligation. -/

namespace Sys2Proof.Machine

variable {s : State} {d : Tile} {t : Fin 4} {o : OfficeId} {now : Nat} {f g : TileFrame}

/-! ### The frame in sending -/

/-- What a lane does, by its key. -/
def Tile.laneAt (d : Tile) (j : Nat) : LaneTx := Sparse.get {} d.lanes j

/-- A lane that sends goes on with its frame, whatever frame it takes (R147). -/
theorem take_goesOn (l : LaneTx) (g : TileFrame) (h : l.sending = some f) :
    (l.take now g).sending = some f ∧ (l.take now g).startAt = l.startAt := by
  simp [LaneTx.take, h]

/-- Frames that move to lanes leave what a lane sends, and since when (R147). -/
theorem dispatch_goesOn (now n : Nat) (d : Tile) {j : Nat} (h : (d.laneAt j).sending = some f) :
    ((d.dispatch now n).laneAt j).sending = some f ∧ ((d.dispatch now n).laneAt j).startAt = (d.laneAt j).startAt := by
  induction n generalizing d with
  | zero => exact ⟨h, rfl⟩
  | succ n ih =>
    unfold Tile.dispatch
    split
    · exact ⟨h, rfl⟩
    next g _ =>
      split
      · exact ⟨h, rfl⟩
      next o k _ =>
        let moved : Tile :=
          { d with queue := d.queue.erase g, lanes := Sparse.update {} d.lanes (laneKey o k) fun l => l.take now g }
        have hmoved : (moved.laneAt j).sending = some f ∧ (moved.laneAt j).startAt = (d.laneAt j).startAt := by
          rcases eq_or_ne j (laneKey o k) with rfl | hne
          · simpa [moved, Tile.laneAt] using take_goesOn (now := now) _ g h
          · simpa [moved, Tile.laneAt, Sparse.get_update_other _ _ _ hne] using h
        obtain ⟨hs, hat⟩ := hmoved
        obtain ⟨hs', hat'⟩ := ih moved hs
        exact ⟨hs', hat'.trans hat⟩

theorem accountFrame_lanes (n : Nat) : (d.accountFrame f n).lanes = d.lanes := by
  unfold Tile.accountFrame
  split
  · rfl
  · split <;> rfl

/-- A bucket after a data frame of it was sent with the good ones of its letters, or not sent where none was (R134, R142, R143). -/
def Bucket.accounts (b : Bucket) (f : TileFrame) (good : List Letter) : Bucket :=
  { b with frames := b.frames + (if good = [] then 0 else 1), shipped := b.shipped + good.length,
           eccDrop := b.eccDrop + (f.letters.length - good.length) }

/-- The bucket of a data frame accounts for it (R142, R143). -/
theorem accountFrame_bucketAt (good : List Letter) (h : f.kind = .data) :
    (d.accountFrame f good.length).bucketAt (bucketKey f.round f.district) = (d.bucketAt (bucketKey f.round f.district)).accounts f good := by
  have hbuckets : (d.accountFrame f good.length).buckets =
      Sparse.update {} d.buckets (bucketKey f.round f.district) fun b => b.accounts f good := by
    rw [Tile.accountFrame, if_pos h]
    simp only [List.length_eq_zero_iff]
    rfl
  rw [Tile.bucketAt, hbuckets, Sparse.get_update_same]
  rfl

/-- The tile whose lane of key `j` goes on with the frame committed to it. -/
def Tile.nextOn (d : Tile) (now j : Nat) : Tile :=
  { d with lanes := Sparse.set {} d.lanes j { sending := (d.laneAt j).committed, startAt := now, committed := none } }

/-- The tile that a frame has left on the lane of key `j`, with the good ones of its letters. -/
def Tile.frameLeft (d : Tile) (now j : Nat) (f : TileFrame) (good : List Letter) : Tile :=
  ((d.nextOn now j).accountFrame f good.length).dispatch now 32

theorem frameLeft_bucketAt (j : Nat) (good : List Letter) (h : f.kind = .data) :
    (d.frameLeft now j f good).bucketAt (bucketKey f.round f.district) = (d.bucketAt (bucketKey f.round f.district)).accounts f good :=
  ((dispatch_framesOnly _ _ _).bucketAt _).trans (accountFrame_bucketAt good h)

/-- The committed frame starts when the one before it has left (R147). -/
theorem frameLeft_starts (j : Nat) (good : List Letter) (h : (d.laneAt j).committed = some g) :
    ((d.frameLeft now j f good).laneAt j).sending = some g ∧ ((d.frameLeft now j f good).laneAt j).startAt = now := by
  have hlane : ((d.nextOn now j).accountFrame f good.length).laneAt j = { sending := some g, startAt := now, committed := none } := by
    rw [Tile.laneAt, accountFrame_lanes]
    exact (Sparse.get_set_same ({} : LaneTx) d.lanes j _).trans (by rw [h])
  obtain ⟨hs, hat⟩ := dispatch_goesOn (f := g) now 32 ((d.nextOn now j).accountFrame f good.length) (j := j) (by rw [hlane])
  exact ⟨hs, hat.trans (by rw [hlane])⟩

/-- What LANE_FRAME_SENT makes of a state whose lane sends a frame (R134, R147). -/
theorem exec_laneFrameSent {k : Fin 8} {bad : BitVec 24} (h : ((s.tile t).laneAt (laneKey o k.val)).sending = some f) :
    exec (.laneFrameSent t o k bad) s =
      let d := s.tile t
      let good := goodLetters bad 0 f.letters
      let u := s.modTile t fun _ => d.frameLeft s.now (laneKey o k.val) f good
      .next (if (s.now - (d.laneAt (laneKey o k.val)).startAt) * 4 < f.chars * 5 then s
        else if f.letters ≠ [] ∧ good = [] then u else u.emit (.tileFrame t o k.val (d.frameOut s.svc.roundShift f good))) := by
  have h' : (Sparse.get {} (s.tile t).lanes (laneKey o k.val) : LaneTx).sending = some f := h
  show execLaneFrameSent t o k bad s = _
  unfold execLaneFrameSent
  simp only [h']
  rfl

/-! ### Idle frames -/

/-- The state in which frames have been sent, newest first. -/
def State.sends (s : State) (xs : List Emission) : State := { s with out := xs ++ s.out }

/-- The idle frame of a lane, where the tile sends one (R149). -/
def State.idleOf (s : State) (t : Fin 4) (o : OfficeId) (k : Nat) : List Emission :=
  if (s.tile t).idlesOn o k = false ∨ (Sparse.get {} (s.off o).lanes (t.val * 12 + k) : Lane).state = .retired then []
  else if k < 8 then [.tileFrame t o k ((s.tile t).idleFrame s.now o)]
  else [.sumFrame t o (k - 8) idleSum]

/-- What a tile sends for one lane, in the state that its earlier frames have left. -/
theorem idleStep_sends (s : State) (t : Fin 4) (o : OfficeId) (xs : List Emission) (k : Nat) :
    (if ((s.sends xs).tile t).idlesOn o k = false ∨ (Sparse.get {} ((s.sends xs).off o).lanes (t.val * 12 + k)).state = .retired then s.sends xs
      else if k < 8 then (s.sends xs).emit (.tileFrame t o k (((s.sends xs).tile t).idleFrame (s.sends xs).now o))
      else (s.sends xs).emit (.sumFrame t o (k - 8) idleSum)) = s.sends (s.idleOf t o k ++ xs) := by
  have htile : (s.sends xs).tile t = s.tile t := rfl
  have hoff : (s.sends xs).off o = s.off o := rfl
  rw [htile, hoff, State.idleOf]
  split
  · rfl
  · split <;> rfl

/-- What has been sent after a list of steps, each of which sends something of its own. -/
theorem foldl_sends {step : State → Nat → State} {sent : Nat → List Emission}
    (h : ∀ xs k, step (s.sends xs) k = s.sends (sent k ++ xs)) (l : List Nat) (xs : List Emission) :
    ∃ ys, l.foldl step (s.sends xs) = s.sends (ys ++ xs) ∧ ∀ e, e ∈ ys ↔ ∃ k ∈ l, e ∈ sent k := by
  induction l generalizing xs with
  | nil => exact ⟨[], rfl, by simp⟩
  | cons k l ih =>
    obtain ⟨ys, hys, hmem⟩ := ih (sent k ++ xs)
    refine ⟨ys ++ sent k, ?_, fun e => ?_⟩
    · rw [List.foldl_cons, h, hys, List.append_assoc]
    · simp [hmem, or_comm]

/-- A tile sends its idle frames to an office lane by lane (R149). -/
theorem sendIdle_sends (s : State) (t : Fin 4) (o : OfficeId) (xs : List Emission) :
    ∃ ys, (s.sends xs).sendIdle t o = s.sends (ys ++ xs) ∧ ∀ e, e ∈ ys ↔ ∃ k ∈ List.range 11, e ∈ s.idleOf t o k :=
  foldl_sends (idleStep_sends s t o) (List.range 11) xs

/-- Which idle frames of letter lanes a tile sends to an office (R149). -/
theorem mem_idleOf {x : OfficeId} {k n : Nat} (hn : n < 8) :
    .tileFrame t x n ((s.tile t).idleFrame s.now x) ∈ s.idleOf t o k ↔
      x = o ∧ n = k ∧ (s.tile t).idlesOn o k = true ∧ (Sparse.get {} (s.off o).lanes (t.val * 12 + k) : Lane).state ≠ .retired := by
  unfold State.idleOf
  split
  next h =>
    refine iff_of_false List.not_mem_nil fun ⟨_, _, hidle, hstate⟩ => ?_
    rcases h with h | h
    · exact Bool.false_ne_true (h.symm.trans hidle)
    · exact hstate h
  next h =>
    rw [not_or, Bool.not_eq_false] at h
    split
    next =>
      constructor
      · intro hm
        obtain ⟨-, rfl, rfl, -⟩ := Emission.tileFrame.inj (List.mem_singleton.1 hm)
        exact ⟨rfl, rfl, h⟩
      · rintro ⟨rfl, rfl, -⟩
        exact List.mem_singleton.2 rfl
    next hk =>
      exact iff_of_false (fun hm => nomatch List.mem_singleton.1 hm) fun ⟨_, hnk, _⟩ => hk (hnk ▸ hn)

/-- What IDLE_FRAME_SEND sends (R149). -/
theorem exec_idleFrameSend (h : (s.tile t).inReset = false) :
    ∃ xs, exec (.idleFrameSend t) s = .next (s.sends xs) ∧
      ∀ e, e ∈ xs ↔ ∃ (o : OfficeId), ∃ k ∈ List.range 11, e ∈ s.idleOf t o k := by
  obtain ⟨as, ha, hma⟩ := sendIdle_sends s t .A []
  obtain ⟨bs, hb, hmb⟩ := sendIdle_sends s t .B (as ++ [])
  refine ⟨bs ++ (as ++ []), ?_, fun e => ?_⟩
  · have hx : exec (.idleFrameSend t) s = .next ((s.sendIdle t .A).sendIdle t .B) :=
      congrArg Host.Outcome.next (if_neg (by simp [h]))
    have ha' : s.sendIdle t .A = s.sends (as ++ []) := ha
    rw [hx, ha', hb]
  · rw [List.append_nil, List.mem_append, hma, hmb]
    constructor
    · rintro (h | h)
      · exact ⟨.B, h⟩
      · exact ⟨.A, h⟩
    · rintro ⟨_ | _, h⟩
      · exact .inr h
      · exact .inl h

/-- Settles O15: a frame that has left by the tile it leaves, idle frames lane by lane. -/
theorem framesLeaveTheTile : Obligations.FramesLeaveTheTile := by
  intro s t o k bad f d l good b
  refine ⟨fun hsends hdone => ?_, fun hsends hearly => ?_, fun hreset => ?_⟩
  · have hx := (exec_laneFrameSent (k := k) (bad := bad) hsends).trans (congrArg Host.Outcome.next (if_neg (Nat.not_lt.2 hdone)))
    let u := s.modTile t fun _ => d.frameLeft s.now (laneKey o k.val) f good
    have hothers : ∀ x, x ≠ t → u.tile x = s.tile x := fun x hne => modTile_tile_other _ hne
    have hleft : u.tile t = d.frameLeft s.now (laneKey o k.val) f good := modTile_tile_same _
    have hbucket : f.kind = .data → (u.tile t).bucketAt (bucketKey f.round f.district) = b.accounts f good := by
      rw [hleft]
      exact frameLeft_bucketAt _ good
    have hstart : ∀ g, l.committed = some g →
        ((u.tile t).laneAt (laneKey o k.val)).sending = some g ∧ ((u.tile t).laneAt (laneKey o k.val)).startAt = s.now := by
      rw [hleft]
      exact fun g => frameLeft_starts _ good
    refine ⟨_, hx, ?_⟩
    by_cases hbad : f.letters ≠ [] ∧ good = []
    · rw [if_pos hbad, if_pos hbad]
      exact ⟨rfl, rfl, hothers, rfl, hbucket, hstart⟩
    · rw [if_neg hbad, if_neg hbad]
      exact ⟨rfl, rfl, hothers, rfl, hbucket, hstart⟩
  · exact (exec_laneFrameSent hsends).trans (congrArg Host.Outcome.next (if_pos hearly))
  · obtain ⟨xs, hx, hmem⟩ := exec_idleFrameSend hreset
    refine ⟨xs, hx, fun x n hn => ?_⟩
    rw [hmem]
    constructor
    · rintro ⟨o', k', -, hm⟩
      obtain ⟨rfl, rfl, hidle⟩ := (mem_idleOf hn).1 hm
      exact hidle
    · exact fun hidle => ⟨x, n, List.mem_range.2 (by omega), (mem_idleOf hn).2 ⟨rfl, rfl, hidle⟩⟩

end Sys2Proof.Machine
end

section
/-! SUPPORT. Frames that fail a check (04 R139, R140; 08 R332; 19 R712), and their obligation. -/

namespace Sys2Proof.Machine

variable {s : State} {o : OfficeId} {t : Fin 4} {f : LaneFrame} {c : Fld}

/-! ### The counters of discarded frames -/

/-- A counter of 32 bits that an office holds for a tile, and that keeps no account of notices (R13, R167). -/
def plainCounter (c : Fld) (t : Fin 4) : Prop := c.svc = false ∧ c.w = 32 ∧ c.key t.val 0 ∉ noticeKeys

theorem badFrames_plainCounter (t : Fin 4) : plainCounter F.SORT_LN_CNT_CRC_COUNT t ∧ plainCounter F.SORT_LN_CNT_BADHDR_COUNT t := by
  unfold plainCounter
  revert t
  decide

/-- Such a counter counts one event, saturated (R13). -/
theorem rd_countUp_plain (hc : plainCounter c t) : (s.countUp o c t.val).rd o c t.val = min (s.rd o c t.val + 1) 0xFFFFFFFF := by
  obtain ⟨hsvc, hwidth, hkey⟩ := hc
  rw [rd_countUp_same c t.val 0 hsvc hkey, hwidth]
  rfl

theorem countUp_plain_regsOnly (hc : plainCounter c t) : regsOnly s (s.countUp o c t.val) o [c.key t.val 0] :=
  countUp_regsOnly c t.val 0 hc.1

/-- A frame of a letter lane that fails counts as broken or as of a bad header (R140). -/
theorem frameFault_plainCounter (t : Fin 4) (h : s.frameFault o f = some c) : plainCounter c t := by
  obtain ⟨hcrc, hhdr⟩ := badFrames_plainCounter t
  unfold State.frameFault at h
  split_ifs at h <;> cases h
  exacts [hcrc, hcrc, hhdr, hhdr, hhdr]

/-- So does one of a sum lane (R332). -/
theorem sumFault_plainCounter (t : Fin 4) (h : sumFault f = some c) : plainCounter c t := by
  obtain ⟨hcrc, hhdr⟩ := badFrames_plainCounter t
  unfold sumFault at h
  extract_lets len at h
  split_ifs at h <;> cases h
  exacts [hcrc, hhdr]

/-! ### What a bad frame leaves -/

/-- Training a sum lane changes the office's lanes alone. -/
theorem trainLane_sum (j : Fin 3) (counts bad : Bool) : ∃ m, s.trainLane o t (.sum j) counts bad = s.setLanes o m := by
  have hs : ∃ m, s = s.setLanes o m := ⟨(s.off o).lanes, modOff_id.symm⟩
  unfold State.trainLane
  extract_lets l
  split
  · exact hs
  · split
    · exact ⟨_, rfl⟩
    · split
      · exact ⟨_, rfl⟩
      · exact hs

/-- The checks of a frame read no lane (R140). -/
theorem setLanes_frameFault (m : Sparse Lane) : (s.setLanes o m).frameFault o f = s.frameFault o f := by
  have hround : ∀ x, (s.setLanes o m).fullRound o x = s.fullRound o x := fun x => by simp [State.setLanes, State.fullRound, State.roundOf]
  have howns : (s.setLanes o m).owns o = s.owns o := owns_of_regs (by simp [State.setLanes])
  simp only [State.frameFault, hround, howns]

theorem setLanes_inReset (m : Sparse Lane) : ((s.setLanes o m).off o).inReset = (s.off o).inReset := by simp [State.setLanes]

/-- A frame that is counted changes nothing but its counter, the account of notices and the training of its lane (R140, R712). -/
theorem countUp_setLanes_spec (m : Sparse Lane) (hc : plainCounter c t) : let u := (s.setLanes o m).countUp o c t.val
    u.rd o c t.val = min (s.rd o c t.val + 1) 0xFFFFFFFF ∧ onlyOff s u o ∧ regsKept s u o [c.key t.val 0] ∧ u.out = s.out ∧
      (u.off o).rounds = (s.off o).rounds ∧ (u.off o).liveness = (s.off o).liveness ∧ (u.off o).statusAt = (s.off o).statusAt := by
  intro u
  let v := s.setLanes o m
  have hv : v.off o = { s.off o with lanes := m } := modOff_off_same _
  have hu : regsOnly v u o [c.key t.val 0] := countUp_plain_regsOnly hc
  have hrd : v.rd o c t.val = s.rd o c t.val := by rw [State.rd, hv]; rfl
  refine ⟨(rd_countUp_plain hc).trans (by rw [hrd]), onlyOff_trans (modOff_onlyOff _) hu.onlyOff, fun k hk hn => ?_, hu.out, ?_, ?_, ?_⟩
  · rw [hu.regsKept k hk hn, hv]
  · rw [hu.field Office.rounds fun _ _ _ _ _ _ _ => rfl, hv]
  · rw [hu.field Office.liveness fun _ _ _ _ _ _ _ => rfl, hv]
  · rw [hu.field Office.statusAt fun _ _ _ _ _ _ _ => rfl, hv]

/-- A frame of a letter lane that fails a check counts (R140). -/
theorem rxFrame_of_bad (t : Fin 4) (k : Fin 8) (h : (s.off o).inReset = false) (hf : s.frameFault o f = some c) :
    ∃ m, s.rxFrame o t k f = (s.setLanes o m).countUp o c t.val := by
  obtain ⟨m, hm⟩ := trainLane_letter (s := s) (o := o) (t := t) k (decide (frmType f.hdr = 3)) (f.charErr || decide (f.crc ≠ frameCrc f))
  refine ⟨m, ?_⟩
  rw [State.rxFrame, if_neg (by simp [h]), hm, State.takeFrame, if_neg (by simp [setLanes_inReset, h]), setLanes_frameFault, hf]

theorem takeSum_of_bad (act : State → State) (h : (s.off o).inReset = false) (hf : sumFault f = some c) :
    s.takeSum o t f act = s.countUp o c t.val := by
  rw [State.takeSum, if_neg (by simp [h]), hf]

theorem takeSum_of_good (act : State → State) (h : (s.off o).inReset = false) (hf : sumFault f = none) : s.takeSum o t f act = act s := by
  rw [State.takeSum, if_neg (by simp [h]), hf]

/-- What IDLE_FRAME_RX of a sum lane makes of an office that is not in reset (R332, R712). -/
theorem exec_idleFrameRx_sum (j : Fin 3) (h : (s.off o).inReset = false) : exec (.idleFrameRx o t (.sum j) f) s =
    .next ((s.trainLane o t (.sum j) (decide (frmType f.hdr = 2)) (f.charErr || decide (f.crc ≠ frameCrc f))).takeSum o t f id) :=
  congrArg Host.Outcome.next (if_neg (by simp [h]))

/-- A sum frame that passes its checks came whole (R139, R332). -/
theorem whole_of_sumFault (hf : sumFault f = none) : f.charErr = false ∧ f.crc = frameCrc f := by
  unfold sumFault at hf
  extract_lets len at hf
  split at hf
  · cases hf
  next h =>
    rw [not_or, not_or, Bool.not_eq_true, not_not] at h
    exact ⟨h.1, h.2.1⟩

/-- Settles O19: a bad frame by its counter, a good idle frame of a sum lane by its training. -/
theorem badFramesCountOnceAndLeaveNothing : Obligations.BadFramesCountOnceAndLeaveNothing := by
  intro s o t k j f c counted hreset
  refine ⟨fun hf => ?_, fun hf => ?_, fun hf htr => ?_, fun hf htr ht => ?_, fun hchar => ?_⟩
  · obtain ⟨m, hm⟩ := rxFrame_of_bad t k hreset hf
    have hcounted : counted (s.rxFrame o t k f) := hm ▸ countUp_setLanes_spec m (frameFault_plainCounter t hf)
    exact ⟨⟨_, rfl, hcounted⟩, ⟨_, rfl, hcounted⟩, ⟨_, rfl, hcounted⟩, ⟨_, rfl, hcounted⟩, ⟨_, rfl, hcounted⟩⟩
  · obtain ⟨m, hm⟩ := trainLane_sum (s := s) (o := o) (t := t) j (decide (frmType f.hdr = 2)) (f.charErr || decide (f.crc ≠ frameCrc f))
    refine ⟨_, exec_idleFrameRx_sum j hreset, ?_⟩
    rw [hm, takeSum_of_bad id (by rw [setLanes_inReset, hreset]) hf]
    exact countUp_setLanes_spec m (sumFault_plainCounter t hf)
  · rw [exec_idleFrameRx_sum j hreset, State.trainLane, if_pos htr, takeSum_of_good id hreset hf]
    rfl
  · obtain ⟨hwhole, hcrc⟩ := whole_of_sumFault hf
    let l := { s.lane o t (.sum j) with good := (s.lane o t (.sum j)).good + 1 }
    have htrain : s.trainLane o t (.sum j) (decide (frmType f.hdr = 2)) (f.charErr || decide (f.crc ≠ frameCrc f)) =
        s.setLane o t (.sum j) l := by simp [State.trainLane, htr, ht, hwhole, hcrc, l]
    have hset : (s.setLane o t (.sum j) l).off o = { s.off o with lanes := Sparse.set {} (s.off o).lanes (officeLaneKey t (.sum j)) l } :=
      modOff_off_same _
    refine ⟨_, exec_idleFrameRx_sum j hreset, ?_⟩
    rw [htrain, takeSum_of_good id (by rw [hset]; exact hreset) hf, id_eq]
    exact ⟨setLane_lane, modOff_onlyOff _, fun _ _ _ => by rw [hset], rfl⟩
  · exact ⟨if_pos (.inl hchar), if_pos (.inl hchar)⟩

end Sys2Proof.Machine
end

section
/-! SUPPORT. Live and read-out frames at the owner (08 R332, R333, R336, R348), and their obligation. -/

namespace Sys2Proof.Machine

variable {s u : State} {o : OfficeId} {t : Fin 4} {f : LaneFrame} {c : Fld} {j : CapJob}

/-! ### What a frame that is counted leaves -/

/-- A count changes nothing of an office's sum stream (R13). -/
theorem countUp_stream (hc : plainCounter c t) : let u := s.countUp o c t.val
    (u.rd o c t.val = min (s.rd o c t.val + 1) 0xFFFFFFFF ∧ onlyOff s u o ∧ u.out = s.out ∧ (u.off o).seqs = (s.off o).seqs ∧
      (u.off o).reds = (s.off o).reds) ∧ (u.off o).live = (s.off o).live := by
  intro u
  have hu : regsOnly s u o [c.key t.val 0] := countUp_plain_regsOnly hc
  exact ⟨⟨rd_countUp_plain hc, hu.onlyOff, hu.out, hu.field Office.seqs fun _ _ _ _ _ _ _ => rfl,
    hu.field Office.reds fun _ _ _ _ _ _ _ => rfl⟩, hu.field Office.live fun _ _ _ _ _ _ _ => rfl⟩

/-- A frame with samples that reaches an office which does not own counts as of a bad header (R140). -/
theorem takeSumFrame_of_notOwner (h : (s.off o).inReset = false) (hf : sumFault f = none) (ht : frmType f.hdr ≤ 1) (ho : s.owns o = false) :
    s.takeSumFrame o t f = s.countUp o F.SORT_LN_CNT_BADHDR_COUNT t.val :=
  (takeSum_of_good _ h hf).trans (if_pos ⟨ht, ho⟩)

theorem takeSumFrame_live (h : (s.off o).inReset = false) (hf : sumFault f = none) (ht : frmType f.hdr = 0) (ho : s.owns o = true) :
    s.takeSumFrame o t f = s.takeLive o t f := by
  refine (takeSum_of_good _ h hf).trans ?_
  simp [ho, ht]

theorem takeSumFrame_readout (h : (s.off o).inReset = false) (hf : sumFault f = none) (ht : frmType f.hdr = 1) (ho : s.owns o = true) :
    s.takeSumFrame o t f = s.takeReadout o t f := by
  refine (takeSum_of_good _ h hf).trans ?_
  simp [ho, ht]

/-! ### Live frames -/

/-- With no reduction enabled a live frame feeds none (R352). -/
theorem feedReds_of_off (x : LiveFrame) (h : s.rd o F.TRG_CTL_RED_EN t.val = 0) : s.feedReds o t x = s := by
  have hrun : ∀ r, s.redRuns o t r = false := fun r => by simp [State.redRuns, h, bitsOf]
  have hred : ∀ r, s.feedRed o t x r = s := fun r => if_pos (hrun r)
  simp [State.feedReds, hred]

/-- A change of what the owner has of a live stream changes nothing else. -/
theorem modLive_off (g : LiveRx → LiveRx) :
    (s.modLive o t g).off o = { s.off o with live := (s.off o).live.set t (g ((s.off o).live.get t)) } := modOff_off_same _

theorem modLive_rd (g : LiveRx → LiveRx) (c : Fld) (i k : Nat) : (s.modLive o t g).rd o c i k = s.rd o c i k := by
  rw [State.rd, modLive_off]
  rfl

/-- The live frame that a sum frame carries (R332). -/
def State.liveFrame (s : State) (o : OfficeId) (f : LaneFrame) : LiveFrame :=
  { first := s.fullTick o (bitsOf f.hdr.toNat 6 22), dec := 2 ^ bitsOf f.hdr.toNat 4 2, words := wordsOf 2 64 f.payload }

/-- A live frame whose ticks have been taken as GAP is nothing (R333). -/
theorem takeLive_of_missed (h : ((s.off o).live.get t).missed.contains (s.liveFrame o f).first = true) : s.takeLive o t f = s := if_pos h

/-- With no reduction and no capture a live frame is kept as the newest, and that is all (R332, R333). -/
theorem takeLive_kept (h : ((s.off o).live.get t).missed.contains (s.liveFrame o f).first = false)
    (hred : s.rd o F.TRG_CTL_RED_EN t.val = 0) (hjob : (s.seq o t).job = none) :
    s.takeLive o t f = s.modLive o t fun l => { l with frames := (s.liveFrame o f :: l.frames).take 32 } := by
  have hfed : ∀ g x, (s.modLive o t g).feedReds o t x = s.modLive o t g := fun g x => feedReds_of_off x ((modLive_rd g _ _ _).trans hred)
  have hidle : ∀ g, ((s.modLive o t g).seq o t).job = none := fun g => by
    rw [State.seq, modLive_off]
    exact hjob
  refine (if_neg (ne_true_of_eq_false h)).trans ?_
  dsimp only
  rw [hfed, hidle]
  rfl

/-! ### Read-out frames -/

/-- The capture with a read-out frame more, kept by its number (R336, R348). -/
def CapJob.withFrame (j : CapJob) (f : LaneFrame) : CapJob :=
  let words := (wordsOf 2 (bitsOf f.hdr.toNat 0 8) f.payload).map fun w => BitVec.ofNat 16 w
  { j with frames := Sparse.set [] j.frames (bitsOf f.hdr.toNat 10 10) words }

/-- A read-out frame of another capture is nothing (R348). -/
theorem takeReadout_of_otherTag (hj : (s.seq o t).job = some j) (h : bitsOf f.hdr.toNat 20 8 ≠ j.tag) : s.takeReadout o t f = s := by
  unfold State.takeReadout
  rw [hj]
  exact if_pos h

/-- A read-out frame that is not the last is kept with its capture (R336, R348). -/
theorem takeReadout_kept (hj : (s.seq o t).job = some j) (h : bitsOf f.hdr.toNat 20 8 = j.tag)
    (hlast : bitsOf f.hdr.toNat 10 10 + 1 ≠ j.frameCount) :
    s.takeReadout o t f = s.modSeq o t fun q => { q with job := some (j.withFrame f) } := by
  unfold State.takeReadout
  rw [hj]
  exact (if_neg (not_not.2 h)).trans (if_neg hlast)

theorem modSeq_off (g : Sequencer → Sequencer) :
    (s.modSeq o t g).off o = { s.off o with seqs := (s.off o).seqs.set t (g ((s.off o).seqs.get t)) } := modOff_off_same _

/-! ### Frames that are missing -/

/-- The first tick of the frame of tick `n` at the decimation that the owner knows (R331). -/
def State.frameStart (s : State) (o : OfficeId) (t : Fin 4) (n : Nat) : Nat := n / (64 * s.decOf o t) * (64 * s.decOf o t)

theorem liveGap_plainCounter (t : Fin 4) : plainCounter F.TRG_CNT_LIVEGAP_COUNT t ∧
    F.TRG_CTL_RED_EN.key t.val 0 ∉ [F.TRG_CNT_LIVEGAP_COUNT.key t.val 0] ∧ F.TRG_CTL_RED_EN.key t.val 0 ∉ noticeKeys := by
  unfold plainCounter
  revert t
  decide

/-- With no reduction a missing frame counts, and its ticks are noted as GAP (R333). -/
theorem liveGap_counts {n : Nat} (hup : s.sumUp o t ≠ 0) (hframe : s.frameOf o t n = none)
    (hmissed : ((s.off o).live.get t).missed.contains (s.frameStart o t n) = false) (hred : s.rd o F.TRG_CTL_RED_EN t.val = 0) :
    s.liveGap o t n =
      (s.modLive o t fun x => { x with missed := (s.frameStart o t n :: x.missed).take 64 }).countUp o F.TRG_CNT_LIVEGAP_COUNT t.val := by
  obtain ⟨hc, hkey, hnotice⟩ := liveGap_plainCounter t
  have hcond : ¬ (s.sumUp o t = 0 ∨ (s.frameOf o t n).isSome ∨ ((s.off o).live.get t).missed.contains (s.frameStart o t n)) := by
    rintro (h | h | h)
    · exact hup h
    · simp [hframe] at h
    · exact Bool.false_ne_true (hmissed.symm.trans h)
  refine (if_neg hcond).trans (feedReds_of_off _ ?_)
  rw [(countUp_plain_regsOnly hc).rd hkey hnotice, modLive_rd]
  exact hred

theorem exec_liveFrameMissing : exec (.liveFrameMissing o t) s =
    .next (if s.owns o ∧ s.lEval o t ≤ (s.off o).count.toNat then s.liveGap o t ((s.off o).count.toNat - s.lEval o t) else s) := rfl

/-- Settles O38: a frame that is counted by its counter, one that is kept by its stream or its capture, a missing one by its first tick. -/
theorem liveStreamAtTheOwner : Obligations.LiveStreamAtTheOwner := by
  intro s o t k f c j d l n x m kept first counted
  refine ⟨fun hreset => ⟨fun hf => ?_, fun hf ht ho => ?_, fun hf ht ho => ⟨fun hm => ?_, fun hm hred hjob => ?_⟩,
    fun hf ht ho hj => ⟨fun htag hlast => ?_, fun htag => ?_⟩⟩, fun ho hle hup hframe hm hred => ?_, fun hnone => ?_⟩
  · have hx : s.takeSumFrame o t f = s.countUp o c t.val := takeSum_of_bad _ hreset hf
    have hu := countUp_stream (s := s) (o := o) (sumFault_plainCounter t hf)
    exact ⟨⟨_, congrArg Host.Outcome.next hx, hu⟩, ⟨_, congrArg Host.Outcome.next hx, hu⟩⟩
  · have hx := takeSumFrame_of_notOwner (t := t) hreset hf ht ho
    have hu := countUp_stream (s := s) (o := o) (badFrames_plainCounter t).2
    exact ⟨⟨_, congrArg Host.Outcome.next hx, hu⟩, ⟨_, congrArg Host.Outcome.next hx, hu⟩⟩
  · exact congrArg Host.Outcome.next ((takeSumFrame_live hreset hf ht ho).trans (takeLive_of_missed hm))
  · refine ⟨_, congrArg Host.Outcome.next ((takeSumFrame_live hreset hf ht ho).trans (takeLive_kept hm hred hjob)), ?_⟩
    beta_reduce
    rw [modLive_off]
    exact ⟨Quad.get_set_same _ _ _, fun y hy => Quad.get_set_other _ _ hy, rfl, modOff_onlyOff _, rfl⟩
  · refine ⟨_, congrArg Host.Outcome.next ((takeSumFrame_readout hreset hf ht ho).trans (takeReadout_kept hj htag hlast)), ?_⟩
    have hbits : bitsOf f.hdr.toNat 0 8 = f.hdr.toNat % 2 ^ 8 := by simp [bitsOf]
    beta_reduce
    rw [State.seq, modSeq_off]
    refine ⟨?_, rfl, modOff_onlyOff _, rfl⟩
    rw [Quad.get_set_same, CapJob.withFrame, hbits]
    rfl
  · exact congrArg Host.Outcome.next ((takeSumFrame_readout hreset hf ht ho).trans (takeReadout_of_otherTag hj htag))
  · let v := s.modLive o t fun x => { x with missed := (first :: x.missed).take 64 }
    have hx : exec (.liveFrameMissing o t) s = .next (v.countUp o F.TRG_CNT_LIVEGAP_COUNT t.val) :=
      exec_liveFrameMissing.trans (congrArg Host.Outcome.next ((if_pos ⟨ho, hle⟩).trans (liveGap_counts hup hframe hm hred)))
    obtain ⟨⟨hrd, hoff, hout, hseqs, hreds⟩, hlive⟩ := countUp_stream (s := v) (o := o) (liveGap_plainCounter t).1
    refine ⟨_, hx, ⟨hrd.trans (by rw [modLive_rd]), onlyOff_trans (modOff_onlyOff _) hoff, hout, ?_, ?_⟩, ?_⟩
    · rw [hseqs, modLive_off]
    · rw [hreds, modLive_off]
    · rw [hlive, modLive_off]
      exact Quad.get_set_same _ _ _
  · refine exec_liveFrameMissing.trans (congrArg Host.Outcome.next ?_)
    split
    next h =>
      refine if_pos ?_
      rcases hnone with ho | hup | hframe | hm
      · exact absurd h.1 (by simp [ho])
      · exact .inl hup
      · exact .inr (.inl hframe)
      · exact .inr (.inr hm)
    · rfl

end Sys2Proof.Machine
end

section
/-! SUPPORT. What an office keeps of one part of itself through the operations that merging uses (04 R158; 05 R176 to R182, R206). -/

namespace Sys2Proof.Machine

variable {s u v : State} {o : OfficeId} {t : Fin 4} {α : Type} {g : Office → α}

/-- No other die changes, and the part `g` of office `o` is as before. -/
def partKept (g : Office → α) (s u : State) (o : OfficeId) : Prop := onlyOff s u o ∧ g (u.off o) = g (s.off o)

theorem partKept_refl (g : Office → α) (s : State) (o : OfficeId) : partKept g s s o := ⟨onlyOff_refl s o, rfl⟩

theorem partKept.trans (h : partKept g s u o) (k : partKept g u v o) : partKept g s v o := by
  obtain ⟨hoff, hpart⟩ := h
  obtain ⟨koff, kpart⟩ := k
  exact ⟨onlyOff_trans hoff koff, kpart.trans hpart⟩

theorem partKept_foldl {β : Type} (f : State → β → State) (hf : ∀ s b, partKept g s (f s b) o) (l : List β) (s : State) :
    partKept g s (l.foldl f s) o := by
  induction l generalizing s with
  | nil => exact partKept_refl g s o
  | cons b l ih => exact (hf s b).trans (ih _)

theorem modOff_partKept (f : Office → Office) (hf : g (f (s.off o)) = g (s.off o)) : partKept g s (s.modOff o f) o :=
  ⟨modOff_onlyOff f, by rw [modOff_off_same, hf]⟩

theorem emit_partKept (e : Emission) : partKept g s (s.emit e) o := ⟨⟨rfl, rfl, rfl, rfl, rfl⟩, rfl⟩

theorem regsOnly.partKept {ks : List Nat} (h : regsOnly s u o ks)
    (hg : ∀ (d : Office) rx log held lost regs fresh,
      g { d with pcieRx := rx, log := log, held := held, noticesLost := lost, regs := regs, fresh := fresh } = g d) : partKept g s u o :=
  ⟨h.onlyOff, h.field g hg⟩

theorem arraysOnly.partKept (h : arraysOnly s u o)
    (hg : ∀ (d : Office) arr syn ue noticed recent rx log held lost regs fresh,
      g { d with arr := arr, syn := syn, ueWindow := ue, noticed := noticed, poisonRecent := recent, pcieRx := rx, log := log, held := held,
                 noticesLost := lost, regs := regs, fresh := fresh } = g d) : partKept g s u o := by
  obtain ⟨hoff, -⟩ := h.1
  exact ⟨hoff, h.field g hg⟩

/-! ### Configuration frames -/

section
variable (hg : ∀ (d : Office) tx free resend seq kept,
  g { d with cfgTx := tx, cfgFree := free, cfgResend := resend, dlSeq := seq, dlKept := kept } = g d)
include hg

theorem putConfigFrame_partKept (q : Nat) (ws : List W64) : partKept g s (s.putConfigFrame o t q ws) o := by
  unfold State.putConfigFrame
  exact partKept.trans (modOff_partKept _ (by exact hg _ _ _ _ _ _)) (emit_partKept _)

theorem pumpConfig_partKept : partKept g s (s.pumpConfig o t) o := by
  unfold State.pumpConfig
  extract_lets d next wait ws
  split
  · exact partKept_refl g s o
  · split
    · split
      · exact modOff_partKept _ (hg _ _ _ _ _ _)
      · exact partKept.trans (modOff_partKept _ (by exact hg _ _ _ _ _ _)) (putConfigFrame_partKept hg _ _)
    · split
      · exact partKept_refl g s o
      · exact partKept.trans (modOff_partKept _ (by exact hg _ _ _ _ _ _)) (putConfigFrame_partKept hg _ _)

/-- Words for a tile change of the office only what it keeps for the downlinks (R158, R163, R165). -/
theorem sendConfig_partKept (ws : List W64) : partKept g s (s.sendConfig o t ws) o :=
  partKept.trans (modOff_partKept _ (by exact hg _ _ _ _ _ _)) (pumpConfig_partKept hg)

theorem sendExpected_partKept (ch : Nat) : partKept g s (s.sendExpected o ch) o := by
  unfold State.sendExpected
  dsimp only
  split
  · exact partKept_refl g s o
  · exact sendConfig_partKept hg _

theorem disableCell_partKept (ch : Nat) : partKept g s (s.disableCell o ch) o := by
  unfold State.disableCell
  split
  · exact sendConfig_partKept hg _
  · exact sendExpected_partKept hg _

end

end Sys2Proof.Machine
end

section
/-! SUPPORT. District rounds made ready (05 R173, R174). -/

namespace Sys2Proof.Machine

variable {s u v : State} {o : OfficeId}

theorem roundKey_inj {r db db' : Nat} (h : roundKey r db = roundKey r db') : db = db' := Nat.add_left_cancel h

/-- Whether a district round of round `r` is neither ready nor under way (R174). -/
def Office.waits (d : Office) (k : Nat) : Bool := (d.round k).readyAt.isNone && !d.begun k

/-- A district round as it is made ready. -/
def DRound.ready (e : DRound) (now : Nat) (noClose : Bool) : DRound := { e with readyAt := some now, noClose := noClose }

theorem begun_congr {d e : Office} {k : Nat} (hr : e.round k = d.round k) (hk : e.nextKey = d.nextKey) : e.begun k = d.begun k := by
  rw [Office.begun, Office.begun, hr, hk]

theorem waits_congr {d e : Office} {k : Nat} (hr : e.round k = d.round k) (hk : e.nextKey = d.nextKey) : e.waits k = d.waits k := by
  rw [Office.waits, Office.waits, hr, begun_congr hr hk]

/-- Of the districts of round `r`, those of `ready` are made ready; the others stay, and so does every other die. -/
def readied (s u : State) (o : OfficeId) (r : Nat) (noClose : Bool) (ready : Nat → Bool) : Prop :=
  onlyOff s u o ∧ u.out = s.out ∧ (u.off o).nextKey = (s.off o).nextKey ∧
    ∀ db, (u.off o).round (roundKey r db) =
      if ready db then ((s.off o).round (roundKey r db)).ready s.now noClose else (s.off o).round (roundKey r db)

/-- A test of a district round, which reads of the office the round and the next key alone. -/
def roundTest (r : Nat) (test : Office → Nat → Bool) : Prop :=
  ∀ d e db, e.round (roundKey r db) = d.round (roundKey r db) → e.nextKey = d.nextKey → test e db = test d db

theorem roundTest_waits (r : Nat) (p : DRound → Bool) : roundTest r fun d db => d.waits (roundKey r db) && p (d.round (roundKey r db)) :=
  fun d e db hr hk => by simp only [waits_congr hr hk, hr]

/-- The step that makes one district ready, where it passes the test. -/
def readiesOne (f : State → Nat → State) (o : OfficeId) (r : Nat) (noClose : Bool) (test : Office → Nat → Bool) : Prop :=
  ∀ s db, readied s (f s db) o r noClose fun x => decide (x = db) && test (s.off o) db

section
variable {r : Nat} {noClose : Bool} {test : Office → Nat → Bool} {f : State → Nat → State}

/-- A district that is not made ready passes the test as before. -/
theorem readiesOne.test_other (hf : readiesOne f o r noClose test) (ht : roundTest r test) {db x : Nat} (hx : x ≠ db) :
    test ((f s db).off o) x = test (s.off o) x := by
  obtain ⟨-, -, hkey, hround⟩ := hf s db
  exact ht _ _ _ ((hround x).trans (by simp [hx])) hkey

/-- Districts made ready one after the other. -/
theorem readied_foldl (hf : readiesOne f o r noClose test) (ht : roundTest r test) (l : List Nat) (hl : l.Nodup) (s : State) :
    readied s (l.foldl f s) o r noClose fun db => decide (db ∈ l) && test (s.off o) db := by
  induction l generalizing s with
  | nil => exact ⟨onlyOff_refl s o, rfl, rfl, fun db => by simp⟩
  | cons x l ih =>
    obtain ⟨hx, hl⟩ := List.nodup_cons.1 hl
    obtain ⟨hoff, hout, hkey, hround⟩ := hf s x
    obtain ⟨koff, kout, kkey, kround⟩ := ih hl (f s x)
    have hnow : (f s x).now = s.now := hoff.2.1
    refine ⟨onlyOff_trans hoff koff, kout.trans hout, kkey.trans hkey, fun db => (kround db).trans ?_⟩
    rw [hround db, hnow]
    by_cases h : db = x
    · subst h
      simp [hx]
    · simp [hf.test_other ht h, h]

/-- A counter that counts every district made ready has counted them all, saturated (R13). -/
theorem rd_readied_foldl {c : Fld} {top : Nat} (hf : readiesOne f o r noClose test) (ht : roundTest r test)
    (hc : ∀ s db, (f s db).rd o c = if test (s.off o) db then min (s.rd o c + 1) top else s.rd o c) (l : List Nat) (hl : l.Nodup) (s : State) :
    (l.foldl f s).rd o c = if l.filter (test (s.off o)) = [] then s.rd o c else min (s.rd o c + (l.filter (test (s.off o))).length) top := by
  induction l generalizing s with
  | nil => simp
  | cons x l ih =>
    obtain ⟨hx, hl⟩ := List.nodup_cons.1 hl
    have hrest : l.filter (test ((f s x).off o)) = l.filter (test (s.off o)) :=
      List.filter_congr fun db hdb => hf.test_other ht fun h => hx (h ▸ hdb)
    rw [List.foldl_cons, ih hl, hrest, hc]
    by_cases h : test (s.off o) x = true
    · rw [List.filter_cons_of_pos h, if_pos h]
      rcases hn : l.filter (test (s.off o)) with - | ⟨y, ys⟩
      · simp
      · simp only [reduceCtorEq, if_false, List.length_cons]
        omega
    · rw [List.filter_cons_of_neg h, if_neg h]

end

/-! ### The late window -/

theorem makeReady_round (k : Nat) (noClose : Bool) : ((s.makeReady o k noClose).off o).round k = ((s.off o).round k).ready s.now noClose := by
  simp [State.makeReady, Office.round, DRound.ready]

theorem makeReady_round_other {k y : Nat} (noClose : Bool) (h : y ≠ k) : ((s.makeReady o k noClose).off o).round y = (s.off o).round y := by
  simp [State.makeReady, Office.round, Sparse.get_update_other _ _ _ h]

theorem rd_makeReady (k : Nat) (noClose : Bool) (f : Fld) (i j : Nat) : (s.makeReady o k noClose).rd o f i j = s.rd o f i j := by
  simp [State.makeReady, State.rd]

theorem readied_refl (s : State) (o : OfficeId) (r : Nat) (noClose : Bool) {ready : Nat → Bool} (h : ∀ db, ready db = false) :
    readied s s o r noClose ready := ⟨onlyOff_refl s o, rfl, rfl, fun db => by simp [h]⟩

theorem makeReady_readied (r db : Nat) (noClose : Bool) : readied s (s.makeReady o (roundKey r db) noClose) o r noClose fun x => decide (x = db) := by
  refine ⟨modOff_onlyOff _, rfl, by simp [State.makeReady], fun x => ?_⟩
  by_cases h : x = db
  · subst h
    rw [makeReady_round]
    simp
  · rw [makeReady_round_other noClose fun hk => h (roundKey_inj hk)]
    simp [h]

/-- One district of a round whose late window has passed (R174). -/
def State.windowPassed (s : State) (o : OfficeId) (r db : Nat) : State :=
  if ((s.off o).round (roundKey r db)).close.isSome && ((s.off o).round (roundKey r db)).readyAt.isNone && !(s.off o).begun (roundKey r db)
  then s.makeReady o (roundKey r db) false else s

/-- Whether a district round that waits has its close frame (R174). -/
def Office.closedWaits (r : Nat) (d : Office) (db : Nat) : Bool := d.waits (roundKey r db) && (d.round (roundKey r db)).close.isSome

theorem windowPassed_readies (r : Nat) : readiesOne (fun s db => s.windowPassed o r db) o r false (Office.closedWaits r) := by
  intro s db
  change readied s (s.windowPassed o r db) o r false _
  unfold State.windowPassed
  rw [show (((s.off o).round (roundKey r db)).close.isSome && ((s.off o).round (roundKey r db)).readyAt.isNone &&
    !(s.off o).begun (roundKey r db)) = Office.closedWaits r (s.off o) db by
      rw [Office.closedWaits, Office.waits, Bool.and_assoc, Bool.and_comm]]
  by_cases h : Office.closedWaits r (s.off o) db = true
  · rw [if_pos h]
    simpa only [h, Bool.and_true] using makeReady_readied r db false
  · rw [if_neg h]
    exact readied_refl s o r false fun x => by simp [h]

theorem windowPassed_partKept (r db : Nat) : partKept (fun d => (d.regs, d.log)) s (s.windowPassed o r db) o := by
  unfold State.windowPassed
  split
  · exact modOff_partKept _ rfl
  · exact partKept_refl _ s o

/-! ### Close frames given up -/

/-- Whether a district round waits for its close frame (R174). -/
def Office.openWaits (r : Nat) (d : Office) (db : Nat) : Bool := d.waits (roundKey r db) && (d.round (roundKey r db)).close.isNone

/-- The rounds and the next key of an office. -/
def Office.roundView (d : Office) : Sparse DRound × Nat := (d.rounds, d.nextKey)

theorem raiseOnceRound_roundView (t : Fin 4) (r bit code : Nat) (b : List Byte) :
    partKept Office.roundView s (s.raiseOnceRound o t r bit code b) o := by
  unfold State.raiseOnceRound
  extract_lets n
  split
  · exact partKept_refl _ s o
  · exact partKept.trans (modOff_partKept _ (by exact rfl)) (((raise_noticesOnly _ _).regsOnly []).partKept fun _ _ _ _ _ _ _ => rfl)

theorem accClose_roundView (t : Fin 4) (r n : Nat) : partKept Office.roundView s (s.accClose o t r n) o := by
  unfold State.accClose
  extract_lets a
  have ha : partKept Office.roundView s a o := modOff_partKept _ rfl
  split
  · refine ha.trans ?_
    unfold State.noticeOverflow
    dsimp only
    split
    · exact partKept_refl _ a o
    · exact raiseOnceRound_roundView _ _ _ _ _
  · exact ha

theorem readied.trans_partKept {r : Nat} {noClose : Bool} {ready : Nat → Bool} (h : readied s u o r noClose ready)
    (k : partKept Office.roundView u v o) (ho : v.out = u.out) : readied s v o r noClose ready := by
  obtain ⟨hoff, hout, hkey, hround⟩ := h
  obtain ⟨koff, kview⟩ := k
  obtain ⟨kr, kk⟩ := Prod.mk.inj kview
  exact ⟨onlyOff_trans hoff koff, ho.trans hout, kk.trans hkey, fun db =>
    (congrArg (fun m => (Sparse.get {} m (roundKey r db) : DRound)) kr).trans (hround db)⟩

theorem giveUpClose_spec (r db : Nat) : readied s (s.giveUpClose o r db) o r true (fun x => decide (x = db) && Office.openWaits r (s.off o) db) ∧
    (s.giveUpClose o r db).rd o F.SORT_MG_CNT_NOCLOSE_COUNT = if Office.openWaits r (s.off o) db
      then min (s.rd o F.SORT_MG_CNT_NOCLOSE_COUNT + 1) 0xFFFFFFFF else s.rd o F.SORT_MG_CNT_NOCLOSE_COUNT := by
  have hkey : F.SORT_MG_CNT_NOCLOSE_COUNT.key 0 0 ∉ noticeKeys := by decide
  unfold State.giveUpClose
  extract_lets k e t a
  have htest : (e.close.isSome || e.readyAt.isSome || (s.off o).begun k) = !Office.openWaits r (s.off o) db := by
    simp only [Office.openWaits, Office.waits, Bool.not_and, Bool.not_not, Option.not_isNone, e, k]
    ac_rfl
  by_cases h : Office.openWaits r (s.off o) db = true
  · rw [if_neg (by simp [htest, h])]
    have hm := makeReady_readied (s := s) (o := o) r db true
    have hc := countUp_regsOnly (s := s.makeReady o k true) (o := o) F.SORT_MG_CNT_NOCLOSE_COUNT 0 0 rfl
    have hn := raise_noticesOnly (s := a) (o := o) 0x0301 (le 1 t.val ++ le 1 (db % 64) ++ le 6 r)
    have hk := accClose_roundsKept (s := a.raise o 0x0301 (le 1 t.val ++ le 1 (db % 64) ++ le 6 r)) (o := o) (t := t) (r := r) 0
    refine ⟨readied.trans_partKept (by simpa only [h, Bool.and_true] using hm) ?_ (hk.2.1.trans (hn.out.trans hc.out)), ?_⟩
    · exact ((hc.partKept fun _ _ _ _ _ _ _ => rfl).trans ((hn.regsOnly []).partKept fun _ _ _ _ _ _ _ => rfl)).trans
        (accClose_roundView t r 0)
    · obtain ⟨-, -, -, hrd⟩ := hk
      rw [if_pos h, hrd _ _ _ hkey, hn.rd hkey]
      exact (rd_countUp_same _ _ _ rfl hkey).trans (by rw [rd_makeReady]; rfl)
  · rw [if_pos (by simpa [h] using htest)]
    exact ⟨readied_refl s o r true fun x => by simp [h], by simp [h]⟩

/-! ### The two expiries -/

section
variable {r : Round}

theorem lateWindowExpiry_runs (ho : s.owns o = true) (hm : (s.off o).merges r.toNat = true)
    (ht : tickLe (s.closingTick o r.toNat + s.rd o F.SORT_MG_LATEWIN_LATE_WIN) (s.off o).count.toNat = true) :
    exec (.lateWindowExpiry o r) s = .next ((List.range 256).foldl (fun s db => s.windowPassed o r.toNat db) s) :=
  congrArg Host.Outcome.next (if_pos (by simp [ho, hm, ht]))

theorem mergeDeadlineExpiry_runs (ho : s.owns o = true) (hm : (s.off o).merges r.toNat = true)
    (ht : tickLe (s.closingTick o r.toNat + s.rd o F.SORT_MG_DEADLINE_DEADLINE) (s.off o).count.toNat = true) :
    exec (.mergeDeadlineExpiry o r) s = .next ((List.range 256).foldl (fun s db => s.giveUpClose o r.toNat db) s) :=
  congrArg Host.Outcome.next (if_pos (by simp [ho, hm, ht]))

theorem expiries_of_not_merged (h : s.owns o = false ∨ (s.off o).merges r.toNat = false) :
    exec (.lateWindowExpiry o r) s = .next s ∧ exec (.mergeDeadlineExpiry o r) s = .next s :=
  ⟨congrArg Host.Outcome.next (if_neg (by rcases h with h | h <;> simp [h])),
    congrArg Host.Outcome.next (if_neg (by rcases h with h | h <;> simp [h]))⟩

theorem lateWindowExpiry_early (h : tickLt (s.off o).count.toNat (s.closingTick o r.toNat + s.rd o F.SORT_MG_LATEWIN_LATE_WIN) = true) :
    exec (.lateWindowExpiry o r) s = .next s :=
  congrArg Host.Outcome.next (if_neg (by simp [tickLe_of_tickLt h]))

theorem mergeDeadlineExpiry_early (h : tickLt (s.off o).count.toNat (s.closingTick o r.toNat + s.rd o F.SORT_MG_DEADLINE_DEADLINE) = true) :
    exec (.mergeDeadlineExpiry o r) s = .next s :=
  congrArg Host.Outcome.next (if_neg (by simp [tickLe_of_tickLt h]))

/-- After the late window every district round whose close frame has come is ready (R174). -/
theorem windowsPassed_spec (s : State) (o : OfficeId) (r : Nat) :
    let u := (List.range 256).foldl (fun s db => s.windowPassed o r db) s
    readied s u o r false (fun db => decide (db ∈ List.range 256) && Office.closedWaits r (s.off o) db) ∧
      (u.off o).regs = (s.off o).regs ∧ (u.off o).log = (s.off o).log := by
  obtain ⟨-, hview⟩ := partKept_foldl (g := fun d : Office => (d.regs, d.log)) (o := o) (fun s db => s.windowPassed o r db)
    (fun _ _ => windowPassed_partKept r _) (List.range 256) s
  exact ⟨readied_foldl (windowPassed_readies r) (roundTest_waits r fun e => e.close.isSome) _ List.nodup_range s, Prod.mk.inj hview⟩

/-- At the deadline every other one is given up, and each counts (R174). -/
theorem closesGivenUp_spec (s : State) (o : OfficeId) (r : Nat) :
    let u := (List.range 256).foldl (fun s db => s.giveUpClose o r db) s
    let missing := (List.range 256).filter (Office.openWaits r (s.off o))
    readied s u o r true (fun db => decide (db ∈ List.range 256) && Office.openWaits r (s.off o) db) ∧
      u.rd o F.SORT_MG_CNT_NOCLOSE_COUNT = if missing = [] then s.rd o F.SORT_MG_CNT_NOCLOSE_COUNT
        else min (s.rd o F.SORT_MG_CNT_NOCLOSE_COUNT + missing.length) 0xFFFFFFFF := by
  have hone : readiesOne (fun s db => s.giveUpClose o r db) o r true (Office.openWaits r) := fun s db => (giveUpClose_spec r db).1
  have htest : roundTest r (Office.openWaits r) := roundTest_waits r fun e => e.close.isNone
  exact ⟨readied_foldl hone htest _ List.nodup_range s,
    rd_readied_foldl hone htest (fun s db => (giveUpClose_spec r db).2) _ List.nodup_range s⟩

end

end Sys2Proof.Machine
end

section
/-! SUPPORT. The merge of a district round leaves the others (05 R176 to R182, R206, R209). -/

namespace Sys2Proof.Machine

variable {s u v : State} {o : OfficeId}

/-- An escalation writes the health of its office (R684, R685). -/
theorem trip_regsOnly (f : Fld) (kind n limit : Nat) (hf : f.svc = false) :
    regsOnly s (s.trip o f kind n limit) o [f.key 0 0, F.TWN_STAT_HEALTHY.key 0 0] := by
  unfold State.trip
  split
  · exact regsOnly_refl s o _
  · exact (setHealth_regsOnly _ _ hf).trans (raise_regsOnly _ _)

/-- The district rounds of office `o` stay, and so does every other die. -/
def roundsStay (s u : State) (o : OfficeId) : Prop := partKept Office.rounds s u o

theorem roundsStay_refl (s : State) (o : OfficeId) : roundsStay s s o := partKept_refl _ s o

theorem roundsStay.trans (h : roundsStay s u o) (k : roundsStay u v o) : roundsStay s v o := partKept.trans h k

theorem regsOnly.roundsStay {ks : List Nat} (h : regsOnly s u o ks) : roundsStay s u o := h.partKept fun _ _ _ _ _ _ _ => rfl

theorem arraysOnly.roundsStay (h : arraysOnly s u o) : roundsStay s u o := h.partKept fun _ _ _ _ _ _ _ _ _ _ _ _ => rfl

theorem modOff_roundsStay (f : Office → Office) (hf : (f (s.off o)).rounds = (s.off o).rounds) : roundsStay s (s.modOff o f) o :=
  modOff_partKept f hf

theorem wr_roundsStay (f : Fld) (x i j : Nat) (hf : f.svc = false) : roundsStay s (s.wr o f x i j) o := (wr_regsOnly f x i j hf).roundsStay

theorem countUp_roundsStay (f : Fld) (i j : Nat) (hf : f.svc = false) : roundsStay s (s.countUp o f i j) o := (countUp_regsOnly f i j hf).roundsStay

theorem raise_roundsStay (code : Nat) (b : List Byte) : roundsStay s (s.raise o code b) o := (raise_regsOnly (ks := []) code b).roundsStay

theorem modAcc_roundsStay (r : Nat) (f : RoundAcc → RoundAcc) : roundsStay s (s.modAcc o r f) o := modOff_roundsStay _ rfl

theorem disableCell_roundsStay (ch : Nat) : roundsStay s (s.disableCell o ch) o := disableCell_partKept (fun _ _ _ _ _ _ => rfl) ch

theorem arrUpdate_roundsStay (a w : Nat) (counted : Bool) (f : Nat → Nat) : roundsStay s (s.arrUpdate o a w counted f) o := by
  unfold State.arrUpdate
  extract_lets p v
  have hv : roundsStay s v o := by
    unfold v
    split
    · exact roundsStay_refl s o
    · exact (arrUse_arraysOnly a w).roundsStay
  split
  · exact hv.trans (countUp_roundsStay _ _ _ rfl)
  · exact hv.trans (modOff_roundsStay _ rfl)

/-! ### Hot cells -/

theorem autoMask_roundsStay (ch win : Nat) : roundsStay s (s.autoMask o ch win) o :=
  (((modOff_roundsStay _ (by exact rfl)).trans (disableCell_roundsStay ch)).trans (wr_roundsStay _ _ _ _ rfl)).trans (raise_roundsStay _ _)

theorem releaseMask_roundsStay (ch : Nat) : roundsStay s (s.releaseMask o ch) o :=
  (((modOff_roundsStay _ (by exact rfl)).trans (sendExpected_partKept (fun _ _ _ _ _ _ => rfl) ch)).trans (wr_roundsStay _ _ _ _ rfl)).trans
    (raise_roundsStay _ _)

theorem noHot_roundsStay (ch : Nat) (sweep : Bool) : roundsStay s (s.noHot o ch sweep).1 o := by
  unfold State.noHot
  extract_lets w on bad a
  have ha : roundsStay s a o := (arrUse_arraysOnly 0 w).roundsStay
  split
  · exact roundsStay_refl s o
  · dsimp only
    split
    · exact ha.trans (disableCell_roundsStay ch)
    · exact ha

theorem closeWindow_roundsStay (ch w x : Nat) (sweep : Bool) : roundsStay s (s.closeWindow o ch w x sweep).1 o := by
  unfold State.closeWindow
  extract_lets g win lim win' rel hot k k1 k2 k3 y n
  split
  · exact roundsStay_refl s o
  · split
    · split
      · exact releaseMask_roundsStay ch
      · exact roundsStay_refl s o
    · split
      · split
        · exact noHot_roundsStay ch sweep
        · exact (noHot_roundsStay ch sweep).trans (autoMask_roundsStay ch win)
      · exact roundsStay_refl s o

/-- The state of a pair, which need not be compared through its word. -/
theorem roundsStay_fst (h : roundsStay s u o) (x : Nat) : roundsStay s (u, x).1 o := h

theorem hitWord_roundsStay (ch r : Nat) (w : BitVec 80) (x : Nat) : roundsStay s (s.hitWord o ch r w x).1 o := by
  unfold State.hitWord
  split
  · exact roundsStay_refl s o
  · exact roundsStay_fst (closeWindow_roundsStay _ _ _ _) _

/-! ### Corrections -/

theorem touchEntries_roundsStay (a per table k : Nat) : roundsStay s (s.touchEntries o a per table k) o := by
  unfold State.touchEntries
  extract_lets w w' b
  have hb : roundsStay s b o := (arrUse_arraysOnly a w).roundsStay
  split
  · exact hb
  · exact hb.trans (arrUse_arraysOnly a w').roundsStay

theorem touchTables_roundsStay (c : CorrIn) : roundsStay s (s.touchTables o c) o := by
  unfold State.touchTables
  extract_lets a
  have ha : roundsStay s a o := by
    unfold a
    split
    · exact touchEntries_roundsStay _ _ _ _
    · exact roundsStay_refl s o
  split
  · exact ha.trans (touchEntries_roundsStay _ _ _ _)
  · exact ha

theorem noteResRetry_roundsStay : roundsStay s (s.noteResRetry o) o :=
  (modOff_roundsStay _ (by exact rfl)).trans (trip_regsOnly _ _ _ _ rfl).roundsStay

theorem noteResDrop_roundsStay : roundsStay s (s.noteResDrop o) o :=
  (modOff_roundsStay _ (by exact rfl)).trans (trip_regsOnly _ _ _ _ rfl).roundsStay

theorem correct_roundsStay (ch r : Nat) (c : CorrIn) : roundsStay s (s.correct o ch r c).2 o := by
  unfold State.correct
  extract_lets inj first a b
  have ha : roundsStay s a o := (touchTables_roundsStay c).trans (modOff_roundsStay _ rfl)
  have hb : roundsStay s b o := by
    unfold b
    split
    · exact ha
    · exact ha.trans noteResRetry_roundsStay
  clear_value first
  cases first with
  | time t => exact ha
  | poison => exact ha.trans (countUp_roundsStay _ _ _ rfl)
  | mismatch step =>
    have hb' := hb.trans (touchTables_roundsStay c)
    dsimp only
    split
    · exact hb'.trans (countUp_roundsStay _ _ _ rfl)
    · exact hb'.trans (countUp_roundsStay _ _ _ rfl)
    · exact ((hb'.trans (countUp_roundsStay _ _ _ rfl)).trans noteResDrop_roundsStay).trans (raise_roundsStay _ _)

theorem noteMatch_roundsStay (db ch : Nat) (w : BitVec 80) (f0 slot : Nat) (rho : Int) : roundsStay s (s.noteMatch o db ch w f0 slot rho) o := by
  unfold State.noteMatch
  extract_lets seen a b c k
  have ha : roundsStay s a o := modOff_roundsStay _ rfl
  have hb : roundsStay s b o := by
    unfold b
    split
    · exact ha
    · exact ha.trans (wr_roundsStay _ _ _ _ rfl)
  split
  · split
    · exact (hb.trans (wr_roundsStay _ _ _ _ rfl)).trans (wr_roundsStay _ _ _ _ rfl)
    · exact hb
  · split
    · exact hb.trans (modOff_roundsStay _ rfl)
    · exact hb

theorem countDensity_roundsStay (t : Fin 4) (r : Nat) (l : RxLetter) (w : BitVec 80) : roundsStay s (s.countDensity o t r l w) o := by
  unfold State.countDensity
  extract_lets c interp counts
  split
  · exact modOff_roundsStay _ rfl
  · exact roundsStay_refl s o

/-! ### Letters and routing -/

theorem placeLetter_roundsStay (t : Fin 4) (r db : Nat) (a : MergeAcc) (l : RxLetter) : roundsStay s (s.placeLetter o t r db a l).1 o := by
  unfold State.placeLetter
  extract_lets ch rs q lead slope w1 inp c b
  have hc : roundsStay s c.2 o := correct_roundsStay ch r inp
  split
  · exact (hc.trans (arrUpdate_roundsStay _ _ _ _)).trans (countDensity_roundsStay _ _ _ _)
  · split
    · exact (hc.trans (arrUpdate_roundsStay _ _ _ _)).trans (countDensity_roundsStay _ _ _ _)
    · exact ((hc.trans (arrUpdate_roundsStay _ _ _ _)).trans (noteMatch_roundsStay _ _ _ _ _ _)).trans (countDensity_roundsStay _ _ _ _)

theorem mergeLetter_roundsStay (t : Fin 4) (r db : Nat) (a : MergeAcc) (l : RxLetter) : roundsStay s (s.mergeLetter o t r db a l).1 o := by
  unfold State.mergeLetter
  extract_lets rs s1 ch bad s2 s3 h s4 lead s5
  have h2 : roundsStay s s2 o := partKept_foldl _ (fun _ _ => (arrUse_arraysOnly _ _).roundsStay) _ s
  have h4 : roundsStay s s4 o := (h2.trans (hitWord_roundsStay _ _ _ _)).trans (arrUpdate_roundsStay _ _ _ _)
  split
  · exact (countUp_roundsStay _ _ _ rfl).trans (modAcc_roundsStay _ _)
  · split
    · exact ((h2.trans (countUp_roundsStay _ _ _ rfl)).trans (countDensity_roundsStay _ _ _ _)).trans (disableCell_roundsStay ch)
    · split
      · exact ((h4.trans (arrUpdate_roundsStay _ _ _ _)).trans (countUp_roundsStay _ _ _ rfl)).trans (countDensity_roundsStay _ _ _ _)
      · exact h4.trans (placeLetter_roundsStay _ _ _ _ _)

theorem mergeLetters_roundsStay (t : Fin 4) (r db : Nat) (ls : List RxLetter) (s : State) (a : MergeAcc) :
    roundsStay s (ls.foldl (fun (x : State × MergeAcc) l => x.1.mergeLetter o t r db x.2 l) (s, a)).1 o := by
  induction ls generalizing s a with
  | nil => exact roundsStay_refl s o
  | cons l ls ih => exact (mergeLetter_roundsStay t r db a l).trans (ih _ _)

theorem routeWord_roundsStay (addr : Nat) : roundsStay s (s.routeWord o addr).2 o := by
  unfold State.routeWord
  split
  · dsimp only
    split
    · exact (arrUse_arraysOnly _ _).roundsStay
    · exact (arrUse_arraysOnly _ _).roundsStay
  · exact roundsStay_refl s o

/-- The route of a district round in a mode that routes: its class, then its slice (R213, R214). -/
def State.routeRead (s : State) (o : OfficeId) (r db : Nat) : Option Route × State :=
  let c := s.routeWord o (0x0310000 + db)
  match c.1 with
  | none => (none, c.2)
  | some cls =>
    let slice := r / 2 ^ s.rd o F.SORT_RT_CTL_SLICE_SHIFT % (s.rd o F.SORT_RT_CTL_SLICE_M1 + 1)
    let e := c.2.routeWord o (0x0311000 + 2 * (cls % 16 * 256 + slice))
    match e.1 with
    | none => (none, e.2)
    | some x =>
      if bitsOf x 15 1 = 1 then
        (some { ph := bitsOf x 0 12, timed := decide (bitsOf x 14 1 = 1), dlo := decide (bitsOf x 13 1 = 1) }, e.2)
      else (none, e.2)

theorem routeOf_eq (r db : Nat) : s.routeOf o r db =
    if (s.off o).modeOf r = .calibration ∨ (s.off o).modeOf r = .streaming then s.routeRead o r db else (none, s) := by
  unfold State.routeOf
  cases (s.off o).modeOf r <;> rfl

theorem routeRead_roundsStay (r db : Nat) : roundsStay s (s.routeRead o r db).2 o := by
  unfold State.routeRead
  extract_lets c slice
  have hc : roundsStay s c.2 o := routeWord_roundsStay _
  split
  · exact hc
  · extract_lets e
    have he : roundsStay s e.2 o := hc.trans (routeWord_roundsStay _)
    split
    · exact he
    · split <;> exact he

theorem routeOf_roundsStay (r db : Nat) : roundsStay s (s.routeOf o r db).2 o := by
  rw [routeOf_eq]
  split
  · exact routeRead_roundsStay r db
  · exact roundsStay_refl s o

end Sys2Proof.Machine
end

section
/-! SUPPORT. Merge units take ready district rounds (05 R176, R177, R202). -/

namespace Sys2Proof.Machine

variable {s u v : State} {o : OfficeId} {k : Nat}

/-- Of the district rounds of office `o` at most round `k` differs, and no other die. -/
def otherRoundsStay (s u : State) (o : OfficeId) (k : Nat) : Prop := onlyOff s u o ∧ ∀ y, y ≠ k → (u.off o).round y = (s.off o).round y

theorem otherRoundsStay.trans (h : otherRoundsStay s u o k) (h' : otherRoundsStay u v o k) : otherRoundsStay s v o k := by
  obtain ⟨hoff, hround⟩ := h
  obtain ⟨koff, kround⟩ := h'
  exact ⟨onlyOff_trans hoff koff, fun y hy => (kround y hy).trans (hround y hy)⟩

theorem roundsStay.round (h : roundsStay s u o) (y : Nat) : (u.off o).round y = (s.off o).round y :=
  congrArg (fun m => (Sparse.get {} m y : DRound)) h.2

theorem roundsStay.others (h : roundsStay s u o) (k : Nat) : otherRoundsStay s u o k := ⟨h.1, fun y _ => h.round y⟩

/-- A change of the office that sets district round `k`. -/
theorem modOff_otherRounds (f : Office → Office) {e : DRound} (hf : (f (s.off o)).rounds = Sparse.set {} (s.off o).rounds k e) :
    otherRoundsStay s (s.modOff o f) o k ∧ ((s.modOff o f).off o).round k = e := by
  refine ⟨⟨modOff_onlyOff f, fun y hy => ?_⟩, ?_⟩
  · rw [modOff_off_same, Office.round, hf, Sparse.get_set_other _ _ _ hy, Office.round]
  · rw [modOff_off_same, Office.round, hf, Sparse.get_set_same]

/-- Late letters of the merge's own clock touch at most its district round (R177). -/
theorem dropFresh_spec (s : State) (o : OfficeId) (k : Nat) :
    otherRoundsStay s (s.dropFresh o k) o k ∧ (((s.off o).round k).fresh (s.off o).count = 0 → s.dropFresh o k = s) := by
  unfold State.dropFresh
  extract_lets e n t kept a
  have ha : otherRoundsStay s a o k := (modOff_otherRounds _ rfl).1
  split
  · exact ⟨(roundsStay_refl s o).others k, fun _ => rfl⟩
  · next hn =>
    obtain ⟨hoff, -, hround, -⟩ := lateDrop_spec (s := a.wr o F.SORT_LN_CNT_LATE_COUNT (a.rd o F.SORT_LN_CNT_LATE_COUNT t.val - n) t.val) (o := o)
      (t := t) (r := k / 256) hn
    have hw : roundsStay a (a.wr o F.SORT_LN_CNT_LATE_COUNT (a.rd o F.SORT_LN_CNT_LATE_COUNT t.val - n) t.val) o := wr_roundsStay _ _ _ _ rfl
    refine ⟨(ha.trans (hw.others k)).trans ?_, fun h => absurd h hn⟩
    exact roundsStay.others ⟨hoff, hround⟩ k

theorem rxLoss_roundsStay (r n : Nat) (known : Bool) : roundsStay s (s.rxLoss o r n known) o := by
  unfold State.rxLoss
  split
  · exact roundsStay_refl s o
  · exact (countBy_regsOnly _ _ _ _ rfl).roundsStay.trans (modAcc_roundsStay _ _)

/-- A unit takes a district round: it is under way without letters, and the others stay (R176, R177, R179). -/
theorem mergeRound_spec (s : State) (o : OfficeId) (n k : Nat) (bad : List Nat) :
    let u := s.mergeRound o n k bad
    (∃ j, Sparse.get none (u.off o).mrg.units n = some j ∧ j.key = k ∧ j.startAt = s.now ∧
      (((s.off o).round k).fresh (s.off o).count = 0 → j.letters = ((s.off o).round k).letters.length)) ∧
      ((u.off o).round k).begun = true ∧ ((u.off o).round k).letters = [] ∧ otherRoundsStay s u o k := by
  intro u
  unfold u State.mergeRound
  extract_lets r db t a e good rxBad b c m rt envs
  obtain ⟨hfresh, hkeep⟩ := dropFresh_spec s o k
  obtain ⟨hb, hround⟩ : otherRoundsStay a b o k ∧ (b.off o).round k = { e with begun := true, letters := [] } := modOff_otherRounds _ rfl
  have hrest : roundsStay b rt.2 o :=
    ((rxLoss_roundsStay r rxBad _).trans (mergeLetters_roundsStay t r db good c {})).trans (routeOf_roundsStay r db)
  have hend : roundsStay rt.2 (rt.2.modOff o fun d => { d with mrg := { d.mrg with
      units := Sparse.set none d.mrg.units n (some { key := k, startAt := c.now, letters := e.letters.length, envs := envs }) } }) o :=
    modOff_roundsStay _ rfl
  have hall := hrest.trans hend
  have hnow : c.now = s.now := by
    have hc : roundsStay b c o := rxLoss_roundsStay r rxBad _
    exact hc.1.2.1.trans (hb.1.2.1.trans hfresh.1.2.1)
  refine ⟨⟨{ key := k, startAt := c.now, letters := e.letters.length, envs := envs }, ?_, rfl, hnow, fun h => ?_⟩, ?_, ?_, ?_⟩
  · simp
  · exact congrArg (fun v : State => ((v.off o).round k).letters.length) (hkeep h)
  · exact congrArg DRound.begun ((hall.round k).trans hround)
  · exact congrArg DRound.letters ((hall.round k).trans hround)
  · exact (hfresh.trans hb).trans (hall.others k)

theorem mergeStart_runs {bad : List Nat} {n : Nat} (ho : s.owns o = true) (hr : (s.off o).inReset = false) (hp : (s.off o).mrg.pauseUntil ≤ s.now)
    (hn : (s.off o).freeUnit = some n) (hk : (s.off o).nextReady = some k) : exec (.mergeStart o bad) s = .next (s.mergeRound o n k bad) :=
  congrArg Host.Outcome.next ((if_neg (by simp [ho, hr, hp])).trans (by simp only [hn, hk]))

theorem mergeStart_idle {bad : List Nat} (h : s.owns o = false ∨ s.now < (s.off o).mrg.pauseUntil ∨ (s.off o).freeUnit = none ∨
    (s.off o).nextReady = none) : exec (.mergeStart o bad) s = .next s := by
  refine congrArg Host.Outcome.next ?_
  rcases h with h | h | h | h
  · exact if_pos (.inl h)
  · exact if_pos (.inr (.inr h))
  · simp only [h, ite_self]
  · simp only [h]
    cases (s.off o).freeUnit <;> exact ite_self s

end Sys2Proof.Machine
end

section
/-! SUPPORT. Merge units complete, and hand over in order (05 R176, R180; 06 R235, R257). -/

namespace Sys2Proof.Machine

variable {s u v : State} {o : OfficeId}

/-! ### Hand-over to compression -/

/-- Of office `o` only compression, registers and notices differ, nothing is sent, and no other die differs. -/
def compressionOnly (s u : State) (o : OfficeId) : Prop :=
  onlyOff s u o ∧ u.out = s.out ∧ u.off o = { s.off o with
    cmp := (u.off o).cmp, pcieRx := (u.off o).pcieRx, log := (u.off o).log, held := (u.off o).held, noticesLost := (u.off o).noticesLost
    regs := (u.off o).regs, fresh := (u.off o).fresh }

theorem compressionOnly_refl (s : State) (o : OfficeId) : compressionOnly s s o := ⟨onlyOff_refl s o, rfl, rfl⟩

theorem compressionOnly.trans (h : compressionOnly s u o) (k : compressionOnly u v o) : compressionOnly s v o := by
  obtain ⟨hoff, hout, hd⟩ := h
  obtain ⟨koff, kout, kd⟩ := k
  exact ⟨onlyOff_trans hoff koff, kout.trans hout, kd.trans (congrArg (fun x : Office => { x with
    cmp := (v.off o).cmp, pcieRx := (v.off o).pcieRx, log := (v.off o).log, held := (v.off o).held, noticesLost := (v.off o).noticesLost
    regs := (v.off o).regs, fresh := (v.off o).fresh }) hd)⟩

theorem compressionOnly.field {α : Type} (h : compressionOnly s u o) (g : Office → α)
    (hg : ∀ (d : Office) cmp rx log held lost regs fresh,
      g { d with cmp := cmp, pcieRx := rx, log := log, held := held, noticesLost := lost, regs := regs, fresh := fresh } = g d) :
    g (u.off o) = g (s.off o) := by
  obtain ⟨-, -, hd⟩ := h
  rw [hd, hg]

theorem regsOnly.compressionOnly {ks : List Nat} (h : regsOnly s u o ks) : compressionOnly s u o := by
  refine ⟨h.onlyOff, h.out, ?_⟩
  obtain ⟨d, rfl, hd, -⟩ := h
  rw [modOff_off_same]
  exact hd.trans (by rw [hd])

theorem modOff_compressionOnly (c : Compression → Compression) : compressionOnly s (s.modOff o fun d => { d with cmp := c d.cmp }) o :=
  ⟨modOff_onlyOff _, rfl, by rw [modOff_off_same]⟩

/-- What compression holds of items, and the number of the next one. -/
def Compression.line (c : Compression) : List CmpBody × Nat := (c.queue.map (·.body), c.nextOrd)

/-- Compression holds the items `l` behind those of before, and numbers them on. -/
def appended (s u : State) (o : OfficeId) (l : List CmpBody) : Prop :=
  compressionOnly s u o ∧ (u.off o).cmp.queue.map (·.body) = (s.off o).cmp.queue.map (·.body) ++ l ∧
    (u.off o).cmp.nextOrd = (s.off o).cmp.nextOrd + l.length

theorem appended_nil (h : compressionOnly s u o) (hl : (u.off o).cmp.line = (s.off o).cmp.line) : appended s u o [] := by
  obtain ⟨hq, hn⟩ := Prod.mk.inj hl
  exact ⟨h, by simpa using hq, hn⟩

theorem appended.trans {l m : List CmpBody} (h : appended s u o l) (k : appended u v o m) : appended s v o (l ++ m) := by
  obtain ⟨hc, hq, hn⟩ := h
  obtain ⟨kc, kq, kn⟩ := k
  exact ⟨hc.trans kc, by rw [kq, hq, List.append_assoc], by rw [kn, hn, List.length_append, Nat.add_assoc]⟩

theorem regsOnly.appended {ks : List Nat} (h : regsOnly s u o ks) : appended s u o [] :=
  appended_nil h.compressionOnly (h.field (fun d : Office => d.cmp.line) fun _ _ _ _ _ _ _ => rfl)

theorem modOff_appended (c : Compression → Compression) (hc : ∀ x, (c x).line = x.line) :
    appended s (s.modOff o fun d => { d with cmp := c d.cmp }) o [] :=
  appended_nil (modOff_compressionOnly c) (by rw [modOff_off_same]; exact hc _)

theorem countPair_keys (lo hi : Fld) (n : Nat) (hl : lo.svc = false) (hh : hi.svc = false) :
    regsOnly s (s.countPair o lo hi n) o [lo.key 0 0, hi.key 0 0] := by
  have hw : ∀ x, regsOnly s ((s.wrPair o lo hi x).noteEvents o lo n) o [lo.key 0 0, hi.key 0 0] := fun x =>
    (((wr_regsOnly _ _ _ _ hl).mono (by simp)).trans ((wr_regsOnly _ _ _ _ hh).mono (by simp))).trans (noteEvents_regsOnly _ _ _ _ hl)
  unfold State.countPair
  extract_lets old new a nt
  split
  · exact (hw _).trans (raise_regsOnly _ _)
  · exact hw _

theorem refreshCmp_regsOnly (effort engines : Nat) : regsOnly s (s.refreshCmp o effort engines) o
    [F.CMP_STAT_ENG_ACT.key 0 0, F.CMP_STAT_EFFORT_ACT.key 0 0, F.CMP_STAT_FORCED.key 0 0] :=
  (((wr_regsOnly _ _ _ _ rfl).mono (by simp)).trans ((wr_regsOnly _ _ _ _ rfl).mono (by simp))).trans ((wr_regsOnly _ _ _ _ rfl).mono (by simp))

/-- The plan of a round leaves the items (R235, R257). -/
theorem planRound_appended (r : Round) : appended s (s.planRound o r) o [] := by
  unfold State.planRound
  extract_lets c e g k key plan a b
  have ha : appended s a o [] := modOff_appended (fun c => { c with plans := c.plans ++ [plan], lastEffort := e }) fun _ => rfl
  have hb : appended s b o [] := by
    unfold b
    split
    · exact ha.trans (modOff_appended (fun c => { c with keyRounds := _ }) fun _ => rfl)
    · exact ha
  split
  · exact appended_nil (compressionOnly_refl s o) rfl
  · exact hb.trans (refreshCmp_regsOnly e g).appended

/-- An item goes behind the others (R180, R257, R263). -/
theorem handOver_appended (r : Round) (b : CmpBody) : appended s (s.handOver o r b) o [b] := by
  unfold State.handOver
  extract_lets p q
  have hp : appended s p o [] := planRound_appended r
  have hq : appended p q o [b] := ⟨⟨modOff_onlyOff _, rfl, by unfold q; rw [modOff_off_same]⟩,
    by unfold q; rw [modOff_off_same]; simp, by unfold q; rw [modOff_off_same]; rfl⟩
  exact (hp.trans hq).trans (countPair_keys F.CMP_IN_LO_COUNT_L F.CMP_IN_HI_COUNT_H _ rfl rfl).appended

theorem handOvers_appended (es : List Envelope) (s : State) :
    appended s (es.foldl (fun s e => s.handOver o e.round (.env e)) s) o (es.map fun e => CmpBody.env e) := by
  induction es generalizing s with
  | nil => exact appended_nil (compressionOnly_refl s o) rfl
  | cons e es ih => exact (handOver_appended e.round (.env e)).trans (ih _)

/-! ### Handing over in order -/

theorem handFinished_waits (fuel : Nat) (h : Sparse.get none (s.off o).mrg.held (s.off o).nextKey = none) : s.handFinished o fuel = s := by
  cases fuel with
  | zero => rfl
  | succ n => simp only [State.handFinished, h]

/-- The district round whose turn has come goes to compression, and the turn goes on (R180). -/
theorem handFinished_hands {k : Nat} {envs : List Envelope} {x : Nat} (fuel : Nat) (hk : (s.off o).nextKey = k)
    (hh : (s.off o).mrg.held = [(k, some envs)]) (hl : k % 256 ≠ 255) (hs : (s.off o).spans = [(x, none)]) :
    let u := s.handFinished o (fuel + 1)
    (u.off o).nextKey = (k + 1) % 2 ^ 56 ∧ (u.off o).mrg = { (s.off o).mrg with held := [] } ∧ onlyOff s u o ∧ u.out = s.out ∧
      (u.off o).cmp.queue.map (·.body) = (s.off o).cmp.queue.map (·.body) ++ envs.map (fun e => CmpBody.env e) ∧
      (u.off o).cmp.nextOrd = (s.off o).cmp.nextOrd + envs.length := by
  intro u
  let p := envs.foldl (fun s e => s.handOver o e.round (.env e)) (s.planRound o (BitVec.ofNat 48 (k / 256)))
  let q := p.modOff o fun d => { d with nextKey := (k + 1) % 2 ^ 56, mrg := { d.mrg with held := Sparse.erase d.mrg.held k } }.nextSpan
  obtain ⟨hc, hqueue, hord⟩ : appended s p o (envs.map fun e => CmpBody.env e) := (planRound_appended _).trans (handOvers_appended envs _)
  have hmrg : (p.off o).mrg = (s.off o).mrg := hc.field Office.mrg fun _ _ _ _ _ _ _ _ => rfl
  have hspans : (p.off o).spans = [(x, none)] := (hc.field Office.spans fun _ _ _ _ _ _ _ _ => rfl).trans hs
  have hq : q.off o = { p.off o with nextKey := (k + 1) % 2 ^ 56, mrg := { (p.off o).mrg with held := [] } } := by
    unfold q
    rw [modOff_off_same, Office.nextSpan]
    simp [hspans, hmrg, hh, Sparse.erase]
  have hu : u = q := by
    have hget : Sparse.get none (s.off o).mrg.held k = some envs := by simp [hh, Sparse.get]
    have hstep : u = (if k % 256 = 255 then q.roundMerged o (k / 256) else q).handFinished o fuel := by
      unfold u
      rw [State.handFinished]
      simp only [hk, hget]
      rfl
    rw [hstep, if_neg hl, handFinished_waits]
    rw [hq]
    rfl
  obtain ⟨hoff, hout, -⟩ := hc
  rw [hu, hq]
  exact ⟨rfl, by rw [hmrg], onlyOff_trans hoff (modOff_onlyOff _), hout, hqueue, by simpa using hord⟩

/-! ### A unit completes -/

/-- A merge unit has read its letters: its district round is counted, and waits for its turn (R176, R180, R190). -/
def State.unitEnds (s : State) (o : OfficeId) (n : Nat) (m : MergeUnit) : State :=
  ((s.countBy o F.SORT_MG_CNT_CONT_COUNT (if m.envs.length ≤ 1 then 0 else m.envs.length)).modAcc o (m.key / 256) fun a =>
    { a with letters := Sparse.set 0 a.letters (m.key % 256) m.letters }).modOff o fun d =>
      { d with mrg := { d.mrg with units := Sparse.set none d.mrg.units n none
                                   held := Sparse.set none d.mrg.held m.key (some m.envs) } }

theorem unitEnds_spec (s : State) (o : OfficeId) (n : Nat) (m : MergeUnit) :
    let u := s.unitEnds o n m
    (u.off o).mrg = { (s.off o).mrg with units := Sparse.set none (s.off o).mrg.units n none
                                         held := Sparse.set none (s.off o).mrg.held m.key (some m.envs) } ∧
      (u.off o).nextKey = (s.off o).nextKey ∧ (u.off o).cmp = (s.off o).cmp ∧ (u.off o).spans = (s.off o).spans ∧
      onlyOff s u o ∧ u.out = s.out := by
  intro u
  have hc := countBy_regsOnly (s := s) (o := o) F.SORT_MG_CNT_CONT_COUNT (if m.envs.length ≤ 1 then 0 else m.envs.length) 0 0 rfl
  have hfield : ∀ {α : Type} (g : Office → α), (∀ (d : Office) rx log held lost regs fresh,
      g { d with pcieRx := rx, log := log, held := held, noticesLost := lost, regs := regs, fresh := fresh } = g d) →
      g ((s.countBy o F.SORT_MG_CNT_CONT_COUNT (if m.envs.length ≤ 1 then 0 else m.envs.length)).off o) = g (s.off o) := hc.field
  refine ⟨?_, ?_, ?_, ?_, onlyOff_trans hc.onlyOff (onlyOff_trans (modOff_onlyOff _) (modOff_onlyOff _)), hc.out⟩
  · simp [u, State.unitEnds, State.modAcc, hfield Office.mrg fun _ _ _ _ _ _ _ => rfl]
  · simpa [u, State.unitEnds, State.modAcc] using hfield Office.nextKey fun _ _ _ _ _ _ _ => rfl
  · simpa [u, State.unitEnds, State.modAcc] using hfield Office.cmp fun _ _ _ _ _ _ _ => rfl
  · simpa [u, State.unitEnds, State.modAcc] using hfield Office.spans fun _ _ _ _ _ _ _ => rfl

section
variable {n : Fin 8} {m : MergeUnit}

theorem mergeComplete_runs (hm : Sparse.get none (s.off o).mrg.units n.val = some m) (ht : m.startAt + 2 * m.letters ≤ s.now) :
    exec (.mergeComplete o n) s =
      .next ((s.unitEnds o n.val m).handFinished o (((s.unitEnds o n.val m).off o).mrg.held.length + 1)) := by
  refine congrArg Host.Outcome.next ?_
  rw [hm]
  exact if_neg (by omega)

theorem mergeComplete_early (hm : Sparse.get none (s.off o).mrg.units n.val = some m) (ht : s.now < m.startAt + 2 * m.letters) :
    exec (.mergeComplete o n) s = .next s := by
  refine congrArg Host.Outcome.next ?_
  rw [hm]
  exact if_pos ht

theorem mergeComplete_free (hm : Sparse.get none (s.off o).mrg.units n.val = none) : exec (.mergeComplete o n) s = .next s := by
  refine congrArg Host.Outcome.next ?_
  rw [hm]

/-- A district round whose turn has not come waits (R180). -/
theorem mergeComplete_holds (hm : Sparse.get none (s.off o).mrg.units n.val = some m) (ht : m.startAt + 2 * m.letters ≤ s.now)
    (hk : m.key ≠ (s.off o).nextKey) (hh : Sparse.get none (s.off o).mrg.held (s.off o).nextKey = none) :
    gives (.mergeComplete o n) s fun u =>
      Sparse.get none (u.off o).mrg.units n.val = none ∧ Sparse.get none (u.off o).mrg.held m.key = some m.envs ∧
        (u.off o).nextKey = (s.off o).nextKey ∧ (u.off o).cmp = (s.off o).cmp ∧ onlyOff s u o ∧ u.out = s.out := by
  obtain ⟨hmrg, hnext, hcmp, -, hoff, hout⟩ := unitEnds_spec s o n.val m
  have hwait : Sparse.get none ((s.unitEnds o n.val m).off o).mrg.held ((s.unitEnds o n.val m).off o).nextKey = none := by
    simp only [hmrg, hnext, Sparse.get_set_other _ _ _ hk.symm, hh]
  refine ⟨_, (mergeComplete_runs hm ht).trans (congrArg Host.Outcome.next (handFinished_waits _ hwait)), ?_, ?_, hnext, hcmp, hoff, hout⟩
  · rw [hmrg]
    simp
  · rw [hmrg]
    simp

/-- A district round whose turn has come goes to compression in order (R180). -/
theorem mergeComplete_hands {x : Nat} (hm : Sparse.get none (s.off o).mrg.units n.val = some m) (ht : m.startAt + 2 * m.letters ≤ s.now)
    (hk : m.key = (s.off o).nextKey) (hh : (s.off o).mrg.held = []) (hl : m.key % 256 ≠ 255) (hs : (s.off o).spans = [(x, none)]) :
    gives (.mergeComplete o n) s fun u =>
      Sparse.get none (u.off o).mrg.units n.val = none ∧ (u.off o).nextKey = (m.key + 1) % 2 ^ 56 ∧ (u.off o).mrg.held = [] ∧
        (u.off o).cmp.queue.map (·.body) = (s.off o).cmp.queue.map (·.body) ++ m.envs.map (fun e => CmpBody.env e) ∧
        (u.off o).cmp.nextOrd = (s.off o).cmp.nextOrd + m.envs.length ∧ onlyOff s u o ∧ u.out = s.out := by
  obtain ⟨hmrg, hnext, hcmp, hspans, hoff, hout⟩ := unitEnds_spec s o n.val m
  have hheld : ((s.unitEnds o n.val m).off o).mrg.held = [(m.key, some m.envs)] := by
    rw [hmrg, hh]
    rfl
  obtain ⟨knext, kmrg, koff, kout, kqueue, kord⟩ := handFinished_hands (((s.unitEnds o n.val m).off o).mrg.held.length)
    (hnext.trans hk.symm) hheld hl (hspans.trans hs)
  rw [hcmp] at kqueue kord
  refine ⟨_, mergeComplete_runs hm ht, ?_, knext, ?_, kqueue, kord, onlyOff_trans hoff koff, kout.trans hout⟩
  · rw [kmrg, hmrg]
    simp
  · rw [kmrg]

end

/-- Settles O23: district rounds become ready one by one, each by its own row; the work of a merge leaves the rounds; hand-over goes through
`handFinished`. -/
theorem mergeWindowsAndUnits : Obligations.MergeWindowsAndUnits := by
  unfold Obligations.MergeWindowsAndUnits
  refine ⟨fun s o r => ⟨fun ho hm ht => ?_, fun ho hm ht => ?_, expiries_of_not_merged, lateWindowExpiry_early, mergeDeadlineExpiry_early⟩,
    fun s o bad n u0 k m x => ⟨fun ho hr hp hn hk => ?_, mergeStart_idle, mergeComplete_early, mergeComplete_free,
      fun hm ht => ⟨mergeComplete_holds hm ht, mergeComplete_hands hm ht⟩⟩⟩
  · obtain ⟨⟨hoff, hout, -, hround⟩, hregs, hlog⟩ := windowsPassed_spec s o r.toNat
    refine ⟨_, lateWindowExpiry_runs ho hm ht, fun db hdb => (hround db).trans (if_congr ?_ rfl rfl), hregs, hlog, hoff, hout⟩
    simp [Office.closedWaits, Office.waits, hdb]
  · obtain ⟨⟨hoff, hout, -, hround⟩, hcount⟩ := closesGivenUp_spec s o r.toNat
    refine ⟨_, mergeDeadlineExpiry_runs ho hm ht, fun db hdb => (hround db).trans (if_congr ?_ rfl rfl),
      fun hne => hcount.trans (if_neg hne), hoff, hout⟩
    simp [Office.openWaits, Office.waits, hdb]
  · obtain ⟨hunit, hbegun, hletters, hoff, hother⟩ := mergeRound_spec s o u0 k bad
    exact ⟨_, mergeStart_runs ho hr hp hn hk, hunit, hbegun, hletters, hother, hoff⟩

end Sys2Proof.Machine
end

section
/-! SUPPORT. Words of the arrays without error, and their writes (00 R676, R678, R679). -/

namespace Sys2Proof.Machine

variable {s u v : State} {o : OfficeId} {d : Office} {a w : Nat}

theorem arrClass_of_clean (h : d.arrSyn a w = 0) : d.arrClass a w = .clean := by
  rw [Office.arrClass, h]
  rfl

theorem arrRead_of_clean (h : d.arrSyn a w = 0) : d.arrRead a w = d.arrData a w := by
  rw [Office.arrRead, h]
  rfl

theorem arrSyn_congr {e : Office} (h : e.syn = d.syn) (hp : e.spareOf = d.spareOf) : e.arrSyn a w = d.arrSyn a w := by
  rw [Office.arrSyn, Office.arrSyn, Office.place, Office.place, h, hp]

/-- The read of a word without error has no effects (R677). -/
theorem arrUse_of_clean (h : (s.off o).arrSyn a w = 0) : s.arrUse o a w = s := by
  simp [State.arrUse, State.arrTouch, arrClass_of_clean h]

theorem arrUpdate_of_clean (f : Nat → Nat) (h : (s.off o).arrSyn a w = 0) :
    s.arrUpdate o a w true f = s.putWord o ((s.off o).place a w).1 ((s.off o).place a w).2 (f ((s.off o).arrData a w)) 0 := by
  simp [State.arrUpdate, arrClass_of_clean h, arrRead_of_clean h]

theorem putWord_off (p q data syn : Nat) : (s.putWord o p q data syn).off o =
    { s.off o with arr := Sparse.set 0 (s.off o).arr (arrKey p q) (data % 2 ^ 64), syn := Sparse.set 0 (s.off o).syn (arrKey p q) syn } :=
  modOff_off_same _

theorem arrData_putWord (data syn : Nat) :
    ((s.putWord o ((s.off o).place a w).1 ((s.off o).place a w).2 data syn).off o).arrData a w = data % 2 ^ 64 := by
  rw [putWord_off]
  exact Sparse.get_set_same 0 _ _ _

/-- A field of an office is read from its registers. -/
theorem rd_of_regs {f : Fld} {i j : Nat} (h : (u.off o).regs = (v.off o).regs) (hf : f.svc = false) : u.rd o f i j = v.rd o f i j := by
  simp only [State.rd, hf, h]
  rfl

/-! ### Bits of a word -/

/-- Word 2 of a context after its window has been closed at window `w` (R209, R210). -/
theorem bits_restarted (x k w : Nat) : let y := setBits (setBits (setBits x 4 4 k) 8 12 0) 0 4 w
    bitsOf y 0 4 = w % 16 ∧ bitsOf (y % 2 ^ 64) 0 4 = w % 16 ∧ bitsOf (y % 2 ^ 64) 4 4 = k % 16 ∧ bitsOf (y % 2 ^ 64) 8 12 = 0 := by
  simp only [setBits, bitsOf, Nat.reducePow]
  omega

end Sys2Proof.Machine
end

section
/-! SUPPORT. The hot-window sweep (05 R209 to R211). -/

namespace Sys2Proof.Machine

variable {s u v : State} {o : OfficeId} {ch w x : Nat}

/-! ### A cell masked -/

/-- What of an office the masking of a cell leaves. -/
def Office.unmasked (d : Office) : Sparse Nat × Sparse Nat × Sparse Nat × Merging × Bool × W64 :=
  (d.arr, d.syn, d.spareOf, d.mrg, d.inReset, d.count)

/-- Masking a cell marks it, counts it and raises the notice (R211). -/
theorem autoMask_spec (s : State) (o : OfficeId) (ch win : Nat) : let u := s.autoMask o ch win
    partKept Office.unmasked s u o ∧ Sparse.get 0 (u.off o).am ch = 1 ∧ raised s u o 0x0320 (le 3 ch ++ le 2 win) ∧
      u.rd o F.SORT_HOT_STAT_AUTOMASKED = (s.rd o F.SORT_HOT_STAT_AUTOMASKED + 1) % 2 ^ 21 := by
  intro u
  let a := s.modOff o fun d => { d with am := Sparse.set 0 d.am ch 1 }
  let b := a.disableCell o ch
  let c := b.wr o F.SORT_HOT_STAT_AUTOMASKED (a.rd o F.SORT_HOT_STAT_AUTOMASKED + 1)
  have ha : partKept Office.unmasked s a o := modOff_partKept _ rfl
  have hb : partKept (fun d => (d.unmasked, d.am)) a b o := disableCell_partKept (fun _ _ _ _ _ _ => rfl) ch
  have hc : regsOnly b c o [F.SORT_HOT_STAT_AUTOMASKED.key 0 0] := wr_regsOnly _ _ _ _ rfl
  have hn : noticesOnly c u o := raise_noticesOnly (s := c) 0x0320 (le 3 ch ++ le 2 win)
  obtain ⟨hview, ham⟩ := Prod.mk.inj hb.2
  have hcu : regsOnly b u o [F.SORT_HOT_STAT_AUTOMASKED.key 0 0] := hc.trans (hn.regsOnly _)
  have hsc : partKept Office.unmasked s c o := (ha.trans ⟨hb.1, hview⟩).trans (hc.partKept fun _ _ _ _ _ _ _ => rfl)
  refine ⟨hsc.trans ((hn.regsOnly []).partKept fun _ _ _ _ _ _ _ => rfl), ?_, ?_, ?_⟩
  · rw [hcu.field Office.am fun _ _ _ _ _ _ _ => rfl, show (b.off o).am = _ from ham]
    simp [a]
  · have hkeep := hsc.2
    simp only [Office.unmasked, Prod.mk.injEq] at hkeep
    exact raised_of_keeps hkeep.2.2.2.2.1 hkeep.2.2.2.2.2
  · have hcount : a.rd o F.SORT_HOT_STAT_AUTOMASKED = s.rd o F.SORT_HOT_STAT_AUTOMASKED := by simp [a, State.rd]
    rw [hn.rd (by decide), ← hcount]
    exact rd_wr_same _ _ _ _

/-! ### A window closed -/

theorem closeWindow_current (sweep : Bool) (h : bitsOf x 0 4 = w % 16) : s.closeWindow o ch w x sweep = (s, x) :=
  if_pos (by omega)

theorem noHot_of_clean (sweep : Bool) (h : (s.off o).arrSyn 0 (ch * 4) = 0) :
    s.noHot o ch sweep = (s, decide (bitsOf ((s.off o).arrData 0 (ch * 4)) 35 1 = 1)) := by
  unfold State.noHot
  cases sweep <;> simp [arrClass_of_clean h, arrUse_of_clean h, arrRead_of_clean h]

/-- The strikes of a cell whose last window was hot (R210). -/
def strikesAfter (x : Nat) : Nat := min 15 (bitsOf x 4 4 + 1)

/-- A hot window before the current one: a strike more, and at the limit the cell is masked unless its context forbids it (R210, R211). -/
theorem closeWindow_hot (sweep : Bool) (hw : bitsOf x 0 4 = (w + 15) % 16) (hn : s.rd o F.SORT_HOT_HOT_LIM ≠ 0)
    (hl : s.rd o F.SORT_HOT_HOT_LIM ≤ bitsOf x 8 12) (ha : Sparse.get 0 (s.off o).am ch = 0) (hc : (s.off o).arrSyn 0 (ch * 4) = 0) :
    s.closeWindow o ch w x sweep =
      (if s.rd o F.SORT_HOT_STRIKE_LIM ≤ strikesAfter x ∧ bitsOf ((s.off o).arrRead 0 (ch * 4)) 35 1 = 0
          then s.autoMask o ch (bitsOf x 8 12) else s,
        setBits (setBits (setBits x 4 4 (strikesAfter x)) 8 12 0) 0 4 w) := by
  have hg : (w + 16 - bitsOf x 0 4) % 16 = 1 := by omega
  have hcool : ¬ 2 * bitsOf x 8 12 < s.rd o F.SORT_HOT_HOT_LIM := by omega
  have hbit : bitsOf ((s.off o).arrRead 0 (ch * 4)) 35 1 < 2 := Nat.mod_lt _ (by decide)
  unfold State.closeWindow strikesAfter
  simp only [hg, ha, hl, hcool, noHot_of_clean sweep hc, arrRead_of_clean hc, if_true, if_false, Nat.sub_self, Nat.sub_zero, one_ne_zero, zero_ne_one]
    at hbit ⊢
  generalize min 15 (bitsOf x 4 4 + 1) = k
  by_cases hlim : s.rd o F.SORT_HOT_STRIKE_LIM ≤ k
  · by_cases hb : bitsOf ((s.off o).arrData 0 (ch * 4)) 35 1 = 0
    · simp [hlim, hb, hn]
    · have hone : bitsOf ((s.off o).arrData 0 (ch * 4)) 35 1 = 1 := by omega
      simp [hlim, hone, hn]
  · simp [hlim]

/-! ### A visit -/

/-- The sweep goes on to the next channel (R209). -/
def State.sweptOn (s : State) (o : OfficeId) : State :=
  s.modOff o fun d => { d with mrg := { d.mrg with sweep := ((s.off o).mrg.sweep + 1) % 2 ^ 20 } }

theorem sweptOn_off : (s.sweptOn o).off o = { s.off o with mrg := { (s.off o).mrg with sweep := ((s.off o).mrg.sweep + 1) % 2 ^ 20 } } :=
  modOff_off_same _

theorem rd_sweptOn (f : Fld) (i j : Nat) : (s.sweptOn o).rd o f i j = s.rd o f i j := by
  rw [State.rd, State.rd, sweptOn_off]
  rfl

theorem currentWindow_sweptOn : (s.sweptOn o).currentWindow o = s.currentWindow o := by
  simp only [State.currentWindow, State.windowOf, rd_sweptOn, sweptOn_off]
  rfl

/-- A visit whose word 2 reads free of error closes the window stored in it (R209). -/
theorem hotSweepVisit_runs (ho : s.owns o = true) (hr : (s.off o).inReset = false) (hs : (s.off o).arrSyn 0 ((s.off o).mrg.sweep * 4 + 2) = 0) :
    exec (.hotSweepVisit o) s = .next (
      let ch := (s.off o).mrg.sweep
      let x := (s.off o).arrData 0 (ch * 4 + 2)
      let r := (s.sweptOn o).closeWindow o ch (s.currentWindow o) x true
      if r.2 = x then s.sweptOn o else r.1.arrUpdate o 0 (ch * 4 + 2) true fun _ => r.2) := by
  have hread : ((s.sweptOn o).off o).arrRead 0 ((s.off o).mrg.sweep * 4 + 2) = (s.off o).arrData 0 ((s.off o).mrg.sweep * 4 + 2) := by
    rw [sweptOn_off]
    exact arrRead_of_clean hs
  refine congrArg Host.Outcome.next ((if_neg (by simp [ho, hr])).trans ?_)
  have hswept : ((s.arrUse o 0 ((s.off o).mrg.sweep * 4 + 2)).modOff o fun d =>
      { d with mrg := { d.mrg with sweep := ((s.off o).mrg.sweep + 1) % 2 ^ 20 } }) = s.sweptOn o := by
    rw [arrUse_of_clean hs]
    rfl
  dsimp only
  rw [hswept, arrClass_of_clean hs, hread, currentWindow_sweptOn]
  rfl

theorem hotSweepVisit_of_not_owner (ho : s.owns o = false) : exec (.hotSweepVisit o) s = .next s :=
  congrArg Host.Outcome.next (if_pos (.inl ho))

/-- A word 2 written back after its window was closed. -/
theorem putWord_window {y : Nat} (hu : partKept Office.unmasked s u o) (hs : (s.off o).arrSyn 0 w = 0) :
    let v := u.arrUpdate o 0 w true fun _ => y
    (v.off o).mrg = (s.off o).mrg ∧ (v.off o).arrData 0 w = y % 2 ^ 64 ∧ (v.off o).am = (u.off o).am ∧ (v.off o).log = (u.off o).log ∧
      (v.off o).regs = (u.off o).regs ∧ onlyOff s v o := by
  intro v
  obtain ⟨hoff, hview⟩ := hu
  simp only [Office.unmasked, Prod.mk.injEq] at hview
  obtain ⟨harr, hsyn, hspare, hmrg, -, -⟩ := hview
  have hclean : (u.off o).arrSyn 0 w = 0 := (arrSyn_congr hsyn hspare).trans hs
  have hv : v = u.putWord o ((u.off o).place 0 w).1 ((u.off o).place 0 w).2 y 0 := arrUpdate_of_clean _ hclean
  rw [hv]
  refine ⟨?_, arrData_putWord _ _, ?_, ?_, ?_, onlyOff_trans hoff (modOff_onlyOff _)⟩
  all_goals rw [putWord_off]
  exact hmrg

/-- A stored window that is the current one stays (R209). -/
theorem hotSweepVisit_current (ho : s.owns o = true) (hr : (s.off o).inReset = false) (hs : (s.off o).arrSyn 0 ((s.off o).mrg.sweep * 4 + 2) = 0)
    (hw : bitsOf ((s.off o).arrData 0 ((s.off o).mrg.sweep * 4 + 2)) 0 4 = s.currentWindow o % 16) :
    exec (.hotSweepVisit o) s = .next (s.sweptOn o) := by
  rw [hotSweepVisit_runs ho hr hs]
  simp only [closeWindow_current true hw, if_true]

/-- A hot window before the current one is closed: a strike more, and at the limit the cell is masked (R210, R211). -/
theorem hotSweepVisit_hot (ho : s.owns o = true) (hr : (s.off o).inReset = false) (hs : (s.off o).arrSyn 0 ((s.off o).mrg.sweep * 4 + 2) = 0)
    (hw : bitsOf ((s.off o).arrData 0 ((s.off o).mrg.sweep * 4 + 2)) 0 4 = (s.currentWindow o + 15) % 16) (hn : s.rd o F.SORT_HOT_HOT_LIM ≠ 0)
    (hl : s.rd o F.SORT_HOT_HOT_LIM ≤ bitsOf ((s.off o).arrData 0 ((s.off o).mrg.sweep * 4 + 2)) 8 12)
    (ha : Sparse.get 0 (s.off o).am (s.off o).mrg.sweep = 0) (hc : (s.off o).arrSyn 0 ((s.off o).mrg.sweep * 4) = 0) :
    let ch := (s.off o).mrg.sweep
    let x := (s.off o).arrData 0 (ch * 4 + 2)
    let masks := s.rd o F.SORT_HOT_STRIKE_LIM ≤ strikesAfter x ∧ bitsOf ((s.off o).arrRead 0 (ch * 4)) 35 1 = 0
    gives (.hotSweepVisit o) s fun u =>
      let y := (u.off o).arrData 0 (ch * 4 + 2)
      (u.off o).mrg.sweep = (ch + 1) % 2 ^ 20 ∧ bitsOf y 0 4 = s.currentWindow o % 16 ∧ bitsOf y 4 4 = strikesAfter x ∧ bitsOf y 8 12 = 0 ∧
        (masks → Sparse.get 0 (u.off o).am ch = 1 ∧ raised s u o 0x0320 (le 3 ch ++ le 2 (bitsOf x 8 12)) ∧
          u.rd o F.SORT_HOT_STAT_AUTOMASKED = (s.rd o F.SORT_HOT_STAT_AUTOMASKED + 1) % 2 ^ 21) ∧
        (¬ masks → (u.off o).am = (s.off o).am ∧ (u.off o).log = (s.off o).log) ∧ onlyOff s u o := by
  intro ch x masks
  let a := s.sweptOn o
  let y := setBits (setBits (setBits x 4 4 (strikesAfter x)) 8 12 0) 0 4 (s.currentWindow o)
  let b := if masks then a.autoMask o ch (bitsOf x 8 12) else a
  have haoff : a.off o = _ := sweptOn_off
  have hclose : a.closeWindow o ch (s.currentWindow o) x true = (b, y) := by
    have h := closeWindow_hot (s := a) (o := o) (ch := ch) true hw (by rwa [rd_sweptOn]) (by rwa [rd_sweptOn]) (by rwa [haoff])
      (by rw [haoff]; exact hc)
    rw [h, rd_sweptOn, haoff]
    rfl
  obtain ⟨htag, htag', hstrikes, hwin⟩ := bits_restarted x (strikesAfter x) (s.currentWindow o)
  have hchanged : y ≠ x := fun h => by
    have htagy : bitsOf y 0 4 = s.currentWindow o % 16 := htag
    rw [h, hw] at htagy
    omega
  have hb : partKept Office.unmasked a b o := by
    unfold b
    split
    · exact (autoMask_spec a o ch _).1
    · exact partKept_refl _ a o
  obtain ⟨hmrg, hdata, ham, hlog, hregs, hoff⟩ := putWord_window (y := y) hb (by rw [haoff]; exact hs : (a.off o).arrSyn 0 (ch * 4 + 2) = 0)
  have hrun := hotSweepVisit_runs ho hr hs
  dsimp only at hrun
  rw [hclose] at hrun
  refine ⟨_, hrun.trans (congrArg Host.Outcome.next (if_neg hchanged)), ?_, ?_, ?_, ?_, fun hm => ?_, fun hm => ?_,
    onlyOff_trans (modOff_onlyOff _) hoff⟩
  · rw [hmrg, haoff]
  · rw [hdata]
    exact htag'
  · rw [hdata]
    exact hstrikes.trans (Nat.mod_eq_of_lt (by unfold strikesAfter; omega))
  · rw [hdata]
    exact hwin
  · have hba : b = a.autoMask o ch (bitsOf x 8 12) := if_pos hm
    obtain ⟨-, hmask, hraised, hcount⟩ := autoMask_spec a o ch (bitsOf x 8 12)
    rw [← hba] at hmask hraised hcount
    refine ⟨ham ▸ hmask, ?_, ?_⟩
    · have hsame : raised s b o 0x0320 (le 3 ch ++ le 2 (bitsOf x 8 12)) := by
        unfold raised at hraised ⊢
        rwa [haoff] at hraised
      unfold raised at hsame ⊢
      rwa [hlog]
    · rw [rd_of_regs hregs rfl, hcount, rd_sweptOn]
  · have hba : b = a := if_neg hm
    rw [ham, hlog, hba, haoff]
    exact ⟨rfl, rfl⟩

end Sys2Proof.Machine
end

section
/-! SUPPORT. Changes of contexts between the merges of two rounds (05 R202, R203, R216, R228; 16 R631). -/

namespace Sys2Proof.Machine

variable {s u v : State} {o : OfficeId} {x : W32}

/-! ### A clear starts -/

theorem plainReg_ctxClr : plainReg F.SORT_CTX_CLR_START.off := by unfold plainReg; decide

theorem ctxClrFirst (x : W32) : F.SORT_CTX_CLR_FIRST.part x.toNat = x.toNat % 2 ^ 20 :=
  congrArg (· % 2 ^ 20) (Nat.div_one x.toNat)

/-- The state in which a write with `START` is judged: its journal entry has been raised (R228, R499). -/
def State.clearAsked (s : State) (o : OfficeId) (x : W32) : State := s.journal o F.SORT_CTX_CLR_START.off x.toNat true

/-- Why a start is refused, if it is (R228). -/
def State.clearCause (s : State) (o : OfficeId) (x : W32) : Option Nat :=
  if s.flag o F.SORT_CTX_CLR_BUSY then some 0
  else if s.rd o F.SORT_CTX_CLR_LAST_LAST < F.SORT_CTX_CLR_FIRST.part x.toNat then some 1 else none

theorem clearCause_busy (h : s.rd o F.SORT_CTX_CLR_BUSY = 1) : s.clearCause o x = some 0 := if_pos (by simp [State.flag, h])

theorem clearCause_order (hb : s.rd o F.SORT_CTX_CLR_BUSY = 0) (hl : s.rd o F.SORT_CTX_CLR_LAST_LAST < x.toNat % 2 ^ 20) :
    s.clearCause o x = some 1 := by
  rw [State.clearCause, ctxClrFirst, if_neg (by simp [State.flag, hb]), if_pos hl]

theorem clearCause_none (hb : s.rd o F.SORT_CTX_CLR_BUSY = 0) (hl : x.toNat % 2 ^ 20 ≤ s.rd o F.SORT_CTX_CLR_LAST_LAST) :
    s.clearCause o x = none := by
  rw [State.clearCause, ctxClrFirst, if_neg (by simp [State.flag, hb]), if_neg (Nat.not_lt.2 hl)]

theorem clearAsked_noticesOnly : noticesOnly s (s.clearAsked o x) o := raise_noticesOnly _ _

section
variable (ht : s.takesWrites o = true) (ho : s.owns o = true) (hx : x.getLsbD 31 = true)
include ht ho hx

/-- A start that is refused raises 0x0304 with its cause (R228). -/
theorem contextClearStart_refused {c : Nat}
    (hc : s.clearCause o x = some c) :
    exec (.contextClearStart o x) s = .next ((s.clearAsked o x).raise o 0x0304 (le 4 x.toNat ++ le 1 c)) := by
  have hbit : ¬ bitsOf x.toNat 31 1 = 0 := by rw [(bitsOf_toNat x 31).2 hx]; decide
  have howns : (s.clearAsked o x).owns o = true := clearAsked_noticesOnly.owns.trans ho
  refine congrArg Host.Outcome.next ?_
  dsimp only
  rw [if_neg hbit, if_neg (by simp [ht]), show (if s.flag o F.SORT_CTX_CLR_BUSY = true then some 0 else
    if s.rd o F.SORT_CTX_CLR_LAST_LAST < F.SORT_CTX_CLR_FIRST.part x.toNat then some 1 else none) = some c from hc]
  exact if_neg (by simpa [State.clearAsked] using howns)

theorem contextClearStart_taken (hc : s.clearCause o x = none) :
    exec (.contextClearStart o x) s = .next ((((s.clearAsked o x).storeReg o F.SORT_CTX_CLR_START.off x.toNat).wr o F.SORT_CTX_CLR_BUSY 1).modOff o
      fun d => { d with mrg := { d.mrg with jobs :=
        d.mrg.jobs ++ [.clear (F.SORT_CTX_CLR_FIRST.part x.toNat) (s.rd o F.SORT_CTX_CLR_LAST_LAST)] } }) := by
  have hbit : ¬ bitsOf x.toNat 31 1 = 0 := by rw [(bitsOf_toNat x 31).2 hx]; decide
  have howns : (s.clearAsked o x).owns o = true := clearAsked_noticesOnly.owns.trans ho
  refine congrArg Host.Outcome.next ?_
  dsimp only
  rw [if_neg hbit, if_neg (by simp [ht]), show (if s.flag o F.SORT_CTX_CLR_BUSY = true then some 0 else
    if s.rd o F.SORT_CTX_CLR_LAST_LAST < F.SORT_CTX_CLR_FIRST.part x.toNat then some 1 else none) = none from hc]
  exact if_neg (by simpa [State.clearAsked] using howns)

theorem contextClearStart_refuses {c : Nat}
    (hc : s.clearCause o x = some c) :
    gives (.contextClearStart o x) s fun u =>
      raised s u o 0x0304 (le 4 x.toNat ++ le 1 c) ∧ (u.off o).mrg = (s.off o).mrg ∧ onlyOff s u o ∧ regsKept s u o [] := by
  have hn := noticesOnly_trans (clearAsked_noticesOnly (s := s) (o := o) (x := x)) (raise_noticesOnly 0x0304 (le 4 x.toNat ++ le 1 c))
  exact ⟨_, contextClearStart_refused ht ho hx hc, raise_raised clearAsked_noticesOnly, hn.field Office.mrg fun _ _ _ _ _ _ => rfl, hn.onlyOff,
    hn.regsKept []⟩

/-- A start queues the clear and shows `BUSY` (R203, R228). -/
theorem contextClearStart_queues (hcause : s.clearCause o x = none) :
    gives (.contextClearStart o x) s fun u =>
      (u.off o).mrg.jobs = (s.off o).mrg.jobs ++ [.clear (F.SORT_CTX_CLR_FIRST.part x.toNat) (s.rd o F.SORT_CTX_CLR_LAST_LAST)] ∧
        u.rd o F.SORT_CTX_CLR_BUSY = 1 ∧ u.rd o F.SORT_CTX_CLR_FIRST = F.SORT_CTX_CLR_FIRST.part x.toNat ∧
        u.rd o F.SORT_CTX_CLR_LAST_LAST = s.rd o F.SORT_CTX_CLR_LAST_LAST ∧ onlyOff s u o ∧ u.out = s.out := by
  let a := s.clearAsked o x
  let b := a.storeReg o F.SORT_CTX_CLR_START.off x.toNat
  let c := b.wr o F.SORT_CTX_CLR_BUSY 1
  have ha : noticesOnly s a o := clearAsked_noticesOnly
  obtain ⟨hb', hstored⟩ := storeReg_of_plainReg (s := a) (o := o) x.toNat plainReg_ctxClr
  have hc : regsOnly b c o [F.SORT_CTX_CLR_BUSY.key 0 0] := wr_regsOnly _ _ _ _ rfl
  have hall : regsOnly s c o
      (writeKeys ((fieldsAt F.SORT_CTX_CLR_START.off).filter fun e => decide (e.1.acc ≠ .wo)) ++ [F.SORT_CTX_CLR_BUSY.key 0 0]) :=
    ((ha.regsOnly _).trans (hb'.mono fun _ => List.mem_append_left _)).trans (hc.mono fun _ => List.mem_append_right _)
  refine ⟨_, contextClearStart_taken ht ho hx hcause, ?_, ?_, ?_, ?_, onlyOff_trans hall.onlyOff (modOff_onlyOff _), hall.out⟩
  · rw [modOff_off_same, show (c.off o).mrg = _ from hall.field Office.mrg fun _ _ _ _ _ _ _ => rfl]
  · rw [rd_of_regs (v := c) (by rw [modOff_off_same]) rfl]
    exact rd_wr_same _ _ _ _
  · rw [rd_of_regs (v := c) (by rw [modOff_off_same]) rfl, hc.rd (by decide) (by decide)]
    exact hstored _ (by decide : (F.SORT_CTX_CLR_FIRST, 0, 0) ∈ fieldsAt F.SORT_CTX_CLR_START.off) rfl rfl
  · rw [rd_of_regs (v := c) (by rw [modOff_off_same]) rfl, hall.rd (by decide) (by decide)]

end

/-! ### Between two rounds -/

/-- While a round is half merged nothing is applied (R202). -/
theorem changes_wait (h : (s.off o).betweenRounds = false) :
    exec (.contextClearDone o) s = .next s ∧ exec (.contextChangeApply o) s = .next s :=
  ⟨congrArg Host.Outcome.next (if_pos (.inr h)), congrArg Host.Outcome.next (if_pos (.inr h))⟩

/-- The first job has left the queue. -/
def State.jobTaken (s : State) (o : OfficeId) (js : List CtxJob) : State := s.modOff o fun d => { d with mrg := { d.mrg with jobs := js } }

theorem jobTaken_off (js : List CtxJob) : (s.jobTaken o js).off o = { s.off o with mrg := { (s.off o).mrg with jobs := js } } := modOff_off_same _

theorem rd_jobTaken (js : List CtxJob) (f : Fld) (i j : Nat) : (s.jobTaken o js).rd o f i j = s.rd o f i j := by
  rw [State.rd, State.rd, jobTaken_off]
  rfl

theorem contextClearDone_runs {f l : Nat} (hr : (s.off o).inReset = false) (hg : (s.off o).betweenRounds = true)
    (hj : (s.off o).mrg.jobs = [.clear f l]) :
    exec (.contextClearDone o) s = .next (((s.jobTaken o []).clearHits o f l).wr o F.SORT_CTX_CLR_BUSY 0) := by
  refine congrArg Host.Outcome.next ((if_neg (by simp [hr, hg])).trans ?_)
  have htaken : (s.modOff o fun d => { d with mrg := { d.mrg with jobs := d.mrg.jobs.erase (.clear f l) } }) = s.jobTaken o [] := by
    simp [State.modOff, State.jobTaken, hj]
  rw [hj]
  dsimp only [List.find?]
  rw [htaken]
  rfl

theorem contextChangeApply_runs {j : CtxJob} {js : List CtxJob} (hr : (s.off o).inReset = false) (hg : (s.off o).betweenRounds = true)
    (hj : (s.off o).mrg.jobs = j :: js) (hc : ∀ f l, j ≠ .clear f l) :
    exec (.contextChangeApply o) s = .next ((s.jobTaken o js).applyJob o j) := by
  refine congrArg Host.Outcome.next ((if_neg (by simp [hr, hg])).trans ?_)
  rw [hj]
  cases j with
  | clear f l => exact absurd rfl (hc f l)
  | items _ _ _ _ => rfl
  | campaign => rfl
  | refresh _ _ => rfl
  | retire _ _ _ => rfl

/-! ### Hits cleared -/

theorem contextWritten_partKept {α : Type} {g : Office → α} (hg : ∀ (d : Office) tx free resend seq kept,
    g { d with cfgTx := tx, cfgFree := free, cfgResend := resend, dlSeq := seq, dlKept := kept } = g d) (w : Nat) (bad : Bool) :
    partKept g s (s.contextWritten o w bad) o := by
  unfold State.contextWritten
  extract_lets ch t c cfg
  split
  · split
    · exact sendConfig_partKept hg _
    · exact sendConfig_partKept hg _
  · exact partKept_refl g s o

theorem freeTracker_regsOnly (k : Nat) : regsOnly s (s.freeTracker o k) o
    [F.ERR_RT_STAT_VALID.key k 0, F.ERR_RT_STAT_COUNT.key k 0, F.ERR_RT_STAT_NOTIFIED.key k 0] :=
  (((wr_regsOnly _ _ _ _ rfl).mono (by simp)).trans ((wr_regsOnly _ _ _ _ rfl).mono (by simp))).trans ((wr_regsOnly _ _ _ _ rfl).mono (by simp))

theorem freeTracker_arraysOnly (k : Nat) : arraysOnly s (s.freeTracker o k) o := by
  refine (freeTracker_regsOnly k).arraysOnly fun x hx => ?_
  simp only [List.mem_cons, List.not_mem_nil, or_false] at hx
  rcases hx with rfl | rfl | rfl <;> exact calKey_of_errors (by decide) _ _

/-- A full write leaves what an office holds beside the arrays, its registers and its notices (R679, R680). -/
theorem arrWrite_arraysOnly (a w data : Nat) : arraysOnly s (s.arrWrite o a w data) o := by
  unfold State.arrWrite
  extract_lets p b c
  have hc : arraysOnly s c o := arraysOnly_trans (modOff_arraysOnly _ fun _ => rfl) (modOff_arraysOnly _ fun _ => rfl)
  split
  · exact arraysOnly_trans hc (freeTracker_arraysOnly _)
  · exact hc

/-- The data of a word written in full. -/
theorem arrWrite_arr (a w data : Nat) : ((s.arrWrite o a w data).off o).arr =
    Sparse.set 0 (s.off o).arr (arrKey ((s.off o).place a w).1 ((s.off o).place a w).2) (data % 2 ^ 64) := by
  unfold State.arrWrite
  extract_lets p b c
  have hc : (c.off o).arr = Sparse.set 0 (s.off o).arr (arrKey p.1 p.2) (data % 2 ^ 64) := by
    rw [modOff_off_same, putWord_off]
  split
  · rw [(freeTracker_regsOnly _).field Office.arr fun _ _ _ _ _ _ _ => rfl, hc]
  · exact hc

/-- One word of a clear (R203, R207). -/
def State.clearHit (s : State) (o : OfficeId) (ch tag : Nat) : State :=
  (s.arrWrite o 0 (ch * 4 + 2) tag).contextWritten o (ch * 4 + 2) ((s.off o).contextBad ch)

theorem place_of_noSpares {d : Office} (h : d.spareOf = []) (w : Nat) : d.place 0 w = (0, w) := by
  simp [Office.place, h, Sparse.get]

theorem arrData_of_noSpares {d : Office} (h : d.spareOf = []) (w : Nat) : d.arrData 0 w = Sparse.get 0 d.arr (arrKey 0 w) := by
  rw [Office.arrData, place_of_noSpares h]

theorem arrKey_inj {w w' : Nat} (h : arrKey 0 w = arrKey 0 w') : w = w' := Nat.add_left_cancel h

theorem clearHit_spec (s : State) (o : OfficeId) (ch : Nat) {tag : Nat} (ht : tag < 2 ^ 64) : let u := s.clearHit o ch tag
    (u.off o).mrg = (s.off o).mrg ∧ (u.off o).spareOf = (s.off o).spareOf ∧
      ((s.off o).spareOf = [] → ∀ w, (u.off o).arrData 0 w = if w = ch * 4 + 2 then tag else (s.off o).arrData 0 w) := by
  intro u
  let a := s.arrWrite o 0 (ch * 4 + 2) tag
  have ha : arraysOnly s a o := arrWrite_arraysOnly _ _ _
  have hu : partKept (fun d => (d.mrg, d.spareOf, d.arr)) a u o := contextWritten_partKept (fun _ _ _ _ _ _ => rfl) _ _
  obtain ⟨hmrg, hrest⟩ := Prod.mk.inj hu.2
  obtain ⟨hspare, harr⟩ := Prod.mk.inj hrest
  have hsp : (u.off o).spareOf = (s.off o).spareOf := hspare.trans (ha.field Office.spareOf fun _ _ _ _ _ _ _ _ _ _ _ _ => rfl)
  refine ⟨hmrg.trans (ha.field Office.mrg fun _ _ _ _ _ _ _ _ _ _ _ _ => rfl), hsp, fun hs w => ?_⟩
  rw [arrData_of_noSpares (hsp.trans hs), arrData_of_noSpares hs, harr, arrWrite_arr, place_of_noSpares hs]
  split
  · next h =>
    rw [h, Sparse.get_set_same]
    exact Nat.mod_eq_of_lt ht
  · next h => exact Sparse.get_set_other _ _ _ fun hk => h (arrKey_inj hk)

theorem clearHitsOf_spec (o : OfficeId) (first : Nat) {tag : Nat} (ht : tag < 2 ^ 64) (l : List Nat) (s : State) :
    let u := l.foldl (fun s i => s.clearHit o (first + i) tag) s
    (u.off o).mrg = (s.off o).mrg ∧ (u.off o).spareOf = (s.off o).spareOf ∧
      ((s.off o).spareOf = [] → ∀ ch, (∃ i ∈ l, ch = first + i) ∨ (s.off o).arrData 0 (ch * 4 + 2) = tag →
        (u.off o).arrData 0 (ch * 4 + 2) = tag) := by
  induction l generalizing s with
  | nil => exact ⟨rfl, rfl, fun _ ch h => h.elim (fun ⟨_, hi, _⟩ => absurd hi List.not_mem_nil) id⟩
  | cons i l ih =>
    obtain ⟨hmrg, hspare, hdata⟩ := clearHit_spec s o (first + i) ht
    obtain ⟨kmrg, kspare, kdata⟩ := ih (s.clearHit o (first + i) tag)
    refine ⟨kmrg.trans hmrg, kspare.trans hspare, fun hs ch h => kdata (hspare.trans hs) ch ?_⟩
    by_cases hc : ch = first + i
    · exact .inr ((hdata hs _).trans (if_pos (by rw [hc])))
    · rcases h with ⟨j, hj, rfl⟩ | h
      · exact .inl ⟨j, (List.mem_cons.1 hj).resolve_left fun e => hc (by rw [e]), rfl⟩
      · exact .inr ((hdata hs _).trans ((if_neg fun e => hc (by omega)).trans h))

/-- A clear leaves word 2 of each of its channels at the current window alone (R203). -/
theorem clearHits_spec (s : State) (o : OfficeId) (first last : Nat) : let u := s.clearHits o first last
    (u.off o).mrg = (s.off o).mrg ∧ ((s.off o).spareOf = [] → ∀ ch, first ≤ ch → ch ≤ last →
      (u.off o).arrData 0 (ch * 4 + 2) = s.currentWindow o % 16) := by
  obtain ⟨hmrg, -, hdata⟩ := clearHitsOf_spec o first (tag := s.currentWindow o % 16) (by omega) (List.range (last + 1 - first)) s
  exact ⟨hmrg, fun hs ch hf hl => hdata hs ch (.inl ⟨ch - first, by simpa using by omega, by omega⟩)⟩

/-- The clear's job leaves the queue, its channels are clear, and `BUSY` is 0 (R203). -/
theorem contextClearDone_spec {f l : Nat} (hr : (s.off o).inReset = false) (hg : (s.off o).betweenRounds = true)
    (hj : (s.off o).mrg.jobs = [.clear f l]) (hs : (s.off o).spareOf = []) :
    gives (.contextClearDone o) s fun u =>
      (u.off o).mrg.jobs = [] ∧ u.rd o F.SORT_CTX_CLR_BUSY = 0 ∧
        ∀ ch, f ≤ ch → ch ≤ l → (u.off o).arrData 0 (ch * 4 + 2) = s.currentWindow o % 16 := by
  have hwindow : (s.jobTaken o []).currentWindow o = s.currentWindow o := by
    simp only [State.currentWindow, State.windowOf, rd_jobTaken, jobTaken_off]
    rfl
  obtain ⟨hmrg, hdata⟩ := clearHits_spec (s.jobTaken o []) o f l
  have hw : regsOnly ((s.jobTaken o []).clearHits o f l) (((s.jobTaken o []).clearHits o f l).wr o F.SORT_CTX_CLR_BUSY 0) o
    [F.SORT_CTX_CLR_BUSY.key 0 0] := wr_regsOnly _ _ _ _ rfl
  refine ⟨_, contextClearDone_runs hr hg hj, ?_, rd_wr_same _ _ _ _, fun ch hf hl => ?_⟩
  · rw [hw.field Office.mrg fun _ _ _ _ _ _ _ => rfl, hmrg, jobTaken_off]
  · rw [hw.field (fun d : Office => d.arrData 0 (ch * 4 + 2)) fun _ _ _ _ _ _ _ => rfl, ← hwindow]
    exact hdata (by rw [jobTaken_off]; exact hs) ch hf hl

/-! ### A campaign cleared -/

theorem clearCampaign_spec (s : State) (o : OfficeId) : let u := s.clearCampaign o
    (u.off o).mrg = (s.off o).mrg ∧ u.rd o F.EMT_CAL_XN_XN = 0 ∧ u.rd o F.EMT_CAL_XSUM_XSUM = 0 ∧ u.rd o F.EMT_CAL_STAT_FLASHES = 0 ∧
      (u.off o).cal.walkN = [] ∧ (u.off o).cal.offsets = [] := by
  intro u
  unfold u State.clearCampaign
  extract_lets a
  have ha : partKept Office.mrg s a o := partKept_foldl _ (fun v ch => by
    dsimp only
    split
    · exact partKept_refl _ v o
    · exact ((arrWrite_arraysOnly _ _ _).partKept fun _ _ _ _ _ _ _ _ _ _ _ _ => rfl).trans
        (contextWritten_partKept (fun _ _ _ _ _ _ => rfl) _ _)) _ s
  obtain ⟨-, hxn, hxsum, hflashes, hcal, hmrg, -, -⟩ := clearAccumulators_spec (s := a) (o := o)
  exact ⟨hmrg.trans ha.2, hxn, hxsum, hflashes, by rw [hcal]; rfl, by rw [hcal]; rfl⟩

theorem pauseMerge_off (n : Nat) : (s.pauseMerge o n).off o = { s.off o with mrg := { (s.off o).mrg with pauseUntil := s.now + pauseTicks n } } :=
  modOff_off_same _

theorem applyJob_campaign : s.applyJob o .campaign = (s.clearCampaign o).pauseMerge o (2 ^ 20) := by rw [State.applyJob]

/-- A pause leaves registers, calibration and the queue of jobs (R202). -/
theorem pauseMerge_keeps (n : Nat) : let u := s.pauseMerge o n
    (u.off o).regs = (s.off o).regs ∧ (u.off o).cal = (s.off o).cal ∧ (u.off o).mrg.jobs = (s.off o).mrg.jobs := by
  intro u
  unfold u
  rw [pauseMerge_off]
  exact ⟨rfl, rfl, rfl⟩

/-- The job of a campaign clears its accumulators, and leaves the queue (R631). -/
theorem contextChangeApply_campaign {js : List CtxJob} (hr : (s.off o).inReset = false) (hg : (s.off o).betweenRounds = true)
    (hj : (s.off o).mrg.jobs = .campaign :: js) :
    gives (.contextChangeApply o) s fun u =>
      (u.off o).mrg.jobs = js ∧ u.rd o F.EMT_CAL_STAT_FLASHES = 0 ∧ u.rd o F.EMT_CAL_XN_XN = 0 ∧ u.rd o F.EMT_CAL_XSUM_XSUM = 0 ∧
        (u.off o).cal.walkN = [] ∧ (u.off o).cal.offsets = [] := by
  let a := (s.jobTaken o js).clearCampaign o
  obtain ⟨hmrg, hxn, hxsum, hflashes, hwalk, hoffsets⟩ := clearCampaign_spec (s.jobTaken o js) o
  obtain ⟨hregs, hcal, hjobs⟩ := pauseMerge_keeps (s := a) (o := o) (2 ^ 20)
  have hrun := contextChangeApply_runs hr hg hj nofun
  rw [applyJob_campaign] at hrun
  have htaken : (a.off o).mrg.jobs = js := (congrArg Merging.jobs hmrg).trans (by rw [jobTaken_off])
  exact ⟨a.pauseMerge o (2 ^ 20), hrun, hjobs.trans htaken, (rd_of_regs hregs rfl).trans hflashes,
    (rd_of_regs hregs rfl).trans hxn, (rd_of_regs hregs rfl).trans hxsum, (congrArg CalSvc.walkN hcal).trans hwalk,
    (congrArg CalSvc.offsets hcal).trans hoffsets⟩

/-! ### Settings applied -/

/-- The merging of office `o`, and the time, are as before. -/
def mergingStays (s u : State) (o : OfficeId) : Prop := (u.off o).mrg = (s.off o).mrg ∧ u.now = s.now

theorem mergingStays_refl (s : State) (o : OfficeId) : mergingStays s s o := ⟨rfl, rfl⟩

theorem mergingStays.trans (h : mergingStays s u o) (k : mergingStays u v o) : mergingStays s v o :=
  ⟨k.1.trans h.1, k.2.trans h.2⟩

theorem partKept.mergingStays (h : partKept Office.mrg s u o) : mergingStays s u o := ⟨h.2, h.1.2.1⟩

theorem mergingStays_foldl {β : Type} (f : State → β → State) (hf : ∀ s b, mergingStays s (f s b) o) (l : List β) (s : State) :
    mergingStays s (l.foldl f s) o := by
  induction l generalizing s with
  | nil => exact mergingStays_refl s o
  | cons b l ih => exact (hf s b).trans (ih _)

/-- Two states between which office `o` keeps its merging and the epoch of its settings. -/
def epochStays (s u : State) (o : OfficeId) : Prop :=
  mergingStays s u o ∧ u.rd o F.SORT_CAL_EPOCH_EPOCH = s.rd o F.SORT_CAL_EPOCH_EPOCH

theorem arraysOnly.mergingStays (h : arraysOnly s u o) : mergingStays s u o :=
  (h.partKept fun _ _ _ _ _ _ _ _ _ _ _ _ => rfl).mergingStays

theorem wr_mergingStays (f : Fld) (x i j : Nat) : mergingStays s (s.wr o f x i j) o := by
  unfold State.wr
  split
  · exact mergingStays_refl s o
  · exact (modOff_partKept _ rfl).mergingStays

theorem arrUpdate_arraysOnly (a w : Nat) (counted : Bool) (f : Nat → Nat) : arraysOnly s (s.arrUpdate o a w counted f) o := by
  unfold State.arrUpdate
  extract_lets p b
  have hb : arraysOnly s b o := by
    unfold b
    split
    · exact arraysOnly_refl s o
    · exact arrUse_arraysOnly a w
  split
  · exact arraysOnly_trans hb (countUp_arraysOnly _ _ _ rfl (by decide))
  · exact arraysOnly_trans hb (modOff_arraysOnly _ fun _ => rfl)

theorem itemRegister_mergingStays (image : Bool) (addr n x : Nat) : mergingStays s (s.itemRegister o image addr n x) o := by
  refine mergingStays_foldl _ (fun v e => ?_) _ s
  split
  · exact wr_mergingStays _ _ _ _
  · exact mergingStays_refl v o

theorem itemElement_mergingStays (image : Bool) (seq esize : Nat) (e : Nat × Nat) : mergingStays s (s.itemElement o image seq esize e) o := by
  unfold State.itemElement
  extract_lets addr
  split
  · split
    · exact mergingStays_refl s o
    · split
      · exact (arrWrite_arraysOnly _ _ _).mergingStays
      · dsimp only
        split
        · exact (arraysOnly_trans (arrUpdate_arraysOnly _ _ _ _) (raise_arraysOnly _ _)).mergingStays
        · exact (arrUpdate_arraysOnly _ _ _ _).mergingStays
  · split
    · exact (itemRegister_mergingStays _ _ _ _).trans (itemRegister_mergingStays _ _ _ _)
    · exact itemRegister_mergingStays _ _ _ _

theorem applyElement_mergingStays (image : Bool) (seq esize : Nat) (e : Nat × Nat) : mergingStays s (s.applyElement o image seq esize e) o := by
  unfold State.applyElement
  split
  · exact (itemElement_mergingStays _ _ _ _).trans (contextWritten_partKept (fun _ _ _ _ _ _ => rfl) _ _).mergingStays
  · exact itemElement_mergingStays _ _ _ _

theorem applyItems_mergingStays (image : Bool) (seq : Nat) (items : List Item) : mergingStays s (s.applyItems o image seq items) o :=
  mergingStays_foldl _ (fun _ _ => mergingStays_foldl _ (fun _ _ => applyElement_mergingStays _ _ _ _) _ _) _ s

/-! ### What follows the settings -/

theorem epochStays_refl (s : State) (o : OfficeId) : epochStays s s o := ⟨mergingStays_refl s o, rfl⟩

theorem epochStays.trans (h : epochStays s u o) (k : epochStays u v o) : epochStays s v o := ⟨h.1.trans k.1, k.2.trans h.2⟩

theorem epochStays_foldl {β : Type} (f : State → β → State) (hf : ∀ s b, epochStays s (f s b) o) (l : List β) (s : State) :
    epochStays s (l.foldl f s) o := by
  induction l generalizing s with
  | nil => exact epochStays_refl s o
  | cons b l ih => exact (hf s b).trans (ih _)

theorem arraysOnly.epochStays (h : arraysOnly s u o) : epochStays s u o :=
  ⟨h.mergingStays, h.1.rd (by decide) nofun⟩

theorem regsOnly.epochStays {ks : List Nat} (h : regsOnly s u o ks) (hk : F.SORT_CAL_EPOCH_EPOCH.key 0 0 ∉ ks) : epochStays s u o :=
  ⟨(h.partKept fun _ _ _ _ _ _ _ => rfl).mergingStays, h.rd hk (by decide)⟩

theorem epochStays_of_off (h : u.off o = s.off o) (hn : u.now = s.now) : epochStays s u o :=
  ⟨⟨by rw [h], hn⟩, rd_of_regs (by rw [h]) rfl⟩

theorem sendFrontEnd_epochStays (t : Fin 4) : epochStays s (s.sendFrontEnd o t) o :=
  epochStays_of_off ((orderTile_keeps t _).1 o) (by unfold State.sendFrontEnd State.orderTile; split <;> rfl)

theorem sendFrontEnds_epochStays : epochStays s (s.sendFrontEnds o) o := by
  unfold State.sendFrontEnds
  split
  · exact (((sendFrontEnd_epochStays 0).trans (sendFrontEnd_epochStays 1)).trans (sendFrontEnd_epochStays 2)).trans (sendFrontEnd_epochStays 3)
  · exact epochStays_refl s o

theorem sendType3_epochStays (t : Fin 4) (n : Nat) (ws : List W64) : epochStays s (s.sendType3 o t n ws) o := by
  induction n generalizing s ws with
  | zero => exact epochStays_refl s o
  | succ n ih =>
    cases ws with
    | nil => exact epochStays_refl s o
    | cons w ws => exact (epochStays_of_off rfl rfl).trans (ih _)

theorem useWindow_epochStays (addr len : Nat) : epochStays s (s.useWindow o addr len) o :=
  epochStays_foldl _ (fun v k => by
    split
    · exact (arrUse_arraysOnly _ _).epochStays
    · exact epochStays_refl v o) _ s

theorem loadProfile_epochStays (t : Fin 4) (p : Nat) : epochStays s (s.loadProfile o t p) o := by
  unfold State.loadProfile
  extract_lets base b
  have hb : epochStays s b o := useWindow_epochStays _ _
  split
  · exact epochStays_refl s o
  · split
    · exact hb
    · exact hb.trans (sendType3_epochStays _ _ _)

theorem reloadProfiles_epochStays (items : List Item) : epochStays s (s.reloadProfiles o items) o :=
  epochStays_foldl _ (fun v t => by
    dsimp only
    split
    · exact loadProfile_epochStays _ _
    · exact epochStays_refl v o) _ s

theorem raise_epochStays (code : Nat) (b : List Byte) : epochStays s (s.raise o code b) o := (raise_arraysOnly code b).epochStays

theorem abortCampaign_epochStays (cause : Nat) : epochStays s (s.abortCampaign o cause) o := by
  unfold State.abortCampaign
  extract_lets st
  split
  · exact (((wr_regsOnly _ _ _ _ rfl).epochStays (by decide)).trans ((wr_regsOnly _ _ _ _ rfl).epochStays (by decide))).trans (raise_epochStays _ _)
  · exact epochStays_refl s o

theorem deltaApplied_epochStays (seq : Nat) (items : List Item) : epochStays s (s.deltaApplied o seq items) o := by
  unfold State.deltaApplied
  extract_lets mine b
  have hb : epochStays s b o := by
    unfold b
    split
    · exact (wr_regsOnly _ _ _ _ rfl).epochStays (by decide)
    · exact abortCampaign_epochStays 3
  split
  · exact hb.trans (raise_epochStays _ _)
  · exact hb

theorem amendmentApplied_epochStays (seq amdId : Nat) : epochStays s (s.amendmentApplied o seq amdId) o := by
  unfold State.amendmentApplied
  extract_lets b
  have hb : epochStays s b o := (countUp_regsOnly _ _ _ rfl).epochStays (by decide)
  split
  · exact hb.trans (raise_epochStays _ _)
  · exact hb

/-- What comes once settings have been applied: the report of the change, by its kind (R492, R512, R631, R638). -/
def State.settingsDone (s : State) (o : OfficeId) (seq : W32) (amdId : W64) (delta : Bool) (items : List Item) : State :=
  let s := if s.owns o then s.raise o 0x0340 (le 4 seq.toNat ++ le 4 (pauseTicks (writtenWords items) / 1500)) else s
  if delta then s.deltaApplied o seq.toNat items
  else
    let s := if touchesTiming items then s.abortCampaign o 3 else s
    s.amendmentApplied o seq.toNat amdId.toNat

theorem settingsDone_epochStays (seq : W32) (amdId : W64) (delta : Bool) (items : List Item) :
    epochStays s (s.settingsDone o seq amdId delta items) o := by
  unfold State.settingsDone
  extract_lets b c
  have hb : epochStays s b o := by
    unfold b
    split
    · exact raise_epochStays _ _
    · exact epochStays_refl s o
  split
  · exact hb.trans (deltaApplied_epochStays _ _)
  · refine (hb.trans ?_).trans (amendmentApplied_epochStays _ _)
    unfold c
    split
    · exact abortCampaign_epochStays 3
    · exact epochStays_refl b o

/-- A change of settings leaves the queue, sets the epoch, and pauses merging for its writes (R202, R216). -/
theorem contextChangeApply_items {js : List CtxJob} {seq : W32} {id : W64} {delta : Bool} {items : List Item} (hr : (s.off o).inReset = false)
    (hg : (s.off o).betweenRounds = true) (hj : (s.off o).mrg.jobs = .items seq id delta items :: js) :
    gives (.contextChangeApply o) s fun u => (u.off o).mrg.jobs = js ∧ u.rd o F.SORT_CAL_EPOCH_EPOCH = seq.toNat ∧
      (u.off o).mrg.pauseUntil = s.now + 2 * ((writtenWords items + 3) / 4) := by
  let a := (s.jobTaken o js).applyItems o false seq.toNat items
  let b := a.wr o F.SORT_CAL_EPOCH_EPOCH seq.toNat
  let c := (b.sendFrontEnds o).reloadProfiles o items
  let p := c.pauseMerge o (writtenWords items)
  obtain ⟨hmrg, hnow⟩ := (applyItems_mergingStays (s := s.jobTaken o js) (o := o) false seq.toNat items).trans
    (wr_mergingStays F.SORT_CAL_EPOCH_EPOCH seq.toNat 0 0)
  obtain ⟨⟨kmrg, know⟩, kepoch⟩ := (sendFrontEnds_epochStays (s := b) (o := o)).trans (reloadProfiles_epochStays items)
  obtain ⟨⟨lmrg, -⟩, lepoch⟩ := settingsDone_epochStays (s := p) (o := o) seq id delta items
  have hp : p.off o = _ := pauseMerge_off (s := c) (o := o) (writtenWords items)
  have hc : (c.off o).mrg = { (s.off o).mrg with jobs := js } := kmrg.trans (hmrg.trans (by rw [jobTaken_off]))
  have htime : c.now = s.now := know.trans hnow
  refine ⟨p.settingsDone o seq id delta items, contextChangeApply_runs hr hg hj nofun, ?_, ?_, ?_⟩
  · rw [lmrg, hp, hc]
  · have hepoch : b.rd o F.SORT_CAL_EPOCH_EPOCH = seq.toNat := (rd_wr_same _ _ _ _).trans (Nat.mod_eq_of_lt seq.isLt)
    rw [lepoch, rd_of_regs (v := c) (by rw [hp]) rfl]
    exact kepoch.trans hepoch
  · rw [lmrg, hp, htime]
    rfl

/-- Settles O24: a visit by what `closeWindow` does at the two windows; a start by its cause; each change by what its job leaves of the
merging. -/
theorem hotSweepAndContextChanges : Obligations.HotSweepAndContextChanges := by
  unfold Obligations.HotSweepAndContextChanges
  refine ⟨fun s o => ⟨fun ho hr hs => ⟨fun hw => ?_, hotSweepVisit_hot ho hr hs⟩, hotSweepVisit_of_not_owner⟩,
    fun s o v f l js seq id delta items => ⟨fun ht ho hx => ⟨fun hb hl => ?_, fun hb hl => ?_, fun hb => ?_⟩, changes_wait,
      fun hr hg => ⟨contextClearDone_spec hr hg, contextChangeApply_campaign hr hg, contextChangeApply_items hr hg⟩⟩⟩
  · refine ⟨_, hotSweepVisit_current ho hr hs hw, ?_⟩
    simp only [sweptOn_off, true_and]
    exact ⟨modOff_onlyOff _, rfl⟩
  · rw [← ctxClrFirst v]
    exact contextClearStart_queues ht ho hx (clearCause_none hb hl)
  · exact contextClearStart_refuses ht ho hx (clearCause_order hb hl)
  · exact contextClearStart_refuses ht ho hx (clearCause_busy hb)

end Sys2Proof.Machine
end

section
/-! SUPPORT. What work at the pigeonholes leaves of the store (11 R456 to R463). -/

namespace Sys2Proof.Machine

variable {s u v : State} {o : OfficeId} {p : Nat}

/-- Office `o` has at most worked at its pigeonholes: its store is as before, and so is every register below those of the ring. -/
def phWork (s u : State) (o : OfficeId) : Prop :=
  onlyOff s u o ∧ (u.off o).sto = (s.off o).sto ∧ ∀ k, k < 0x600000 * 32 → Sparse.get 0 (u.off o).regs k = Sparse.get 0 (s.off o).regs k

theorem phWork_refl (s : State) (o : OfficeId) : phWork s s o := ⟨onlyOff_refl s o, rfl, fun _ _ => rfl⟩

theorem phWork.trans (h : phWork s u o) (k : phWork u v o) : phWork s v o := by
  obtain ⟨hoff, hsto, hregs⟩ := h
  obtain ⟨koff, ksto, kregs⟩ := k
  exact ⟨onlyOff_trans hoff koff, ksto.trans hsto, fun a ha => (kregs a ha).trans (hregs a ha)⟩

theorem phWork_foldl {α : Type} (f : State → α → State) (hf : ∀ s a, phWork s (f s a) o) (l : List α) (s : State) :
    phWork s (l.foldl f s) o := by
  induction l generalizing s with
  | nil => exact phWork_refl s o
  | cons a l ih => exact (hf s a).trans (ih _)

theorem modOff_phWork (f : Office → Office) (hs : (f (s.off o)).sto = (s.off o).sto) (hr : (f (s.off o)).regs = (s.off o).regs) :
    phWork s (s.modOff o f) o := ⟨modOff_onlyOff f, by rw [modOff_off_same, hs], fun k _ => by rw [modOff_off_same, hr]⟩

theorem regsOnly.phWork {ks : List Nat} (h : regsOnly s u o ks) (hk : ∀ k ∈ ks, 0x600000 * 32 ≤ k) : phWork s u o := by
  refine ⟨h.onlyOff, h.field Office.sto fun _ _ _ _ _ _ _ => rfl, fun k hl => h.regsKept k (fun hm => ?_) fun hm => ?_⟩
  · exact absurd (hk k hm) (Nat.not_le.2 hl)
  · have hnotice : ∀ a ∈ noticeKeys, 0x600000 * 32 ≤ a := by decide
    exact absurd (hnotice k hm) (Nat.not_le.2 hl)

/-- The keys of a field above the store's registers. -/
theorem key_above {f : Fld} (hf : 0x600000 ≤ f.off) (i j : Nat) : 0x600000 * 32 ≤ f.key i j := by
  unfold Fld.key Fld.addr
  omega

theorem wr_phWork (f : Fld) (x i j : Nat) (hs : f.svc = false) (hf : 0x600000 ≤ f.off) : phWork s (s.wr o f x i j) o :=
  (wr_regsOnly f x i j hs).phWork (by simpa using key_above hf i j)

theorem countUp_phWork (f : Fld) (i j : Nat) (hs : f.svc = false) (hf : 0x600000 ≤ f.off) : phWork s (s.countUp o f i j) o :=
  (countUp_regsOnly f i j hs).phWork (by simpa using key_above hf i j)

theorem raise_phWork (code : Nat) (b : List Byte) : phWork s (s.raise o code b) o := (raise_regsOnly (ks := []) code b).phWork nofun

theorem postWrite_phWork (addr : Nat) (b : List Byte) : phWork s (s.postWrite o addr b) o :=
  ⟨postWrite_onlyOff addr b, postWrite_field Office.sto (fun _ _ => rfl) addr b, fun k _ =>
    postWrite_field (fun d => Sparse.get 0 d.regs k) (fun _ _ => rfl) addr b⟩

theorem postRead_phWork (addr n : Nat) : phWork s (s.postRead o addr n) o := by
  obtain ⟨-, hp, hn, -, hs, ht, ho, hd⟩ := postRead_spec (s := s) (o := o) addr n
  exact ⟨⟨hp, hn, ht, hs, ho⟩, by rw [hd], fun k _ => by rw [hd]⟩

theorem modPh_phWork (f : Ph → Ph) : phWork s (s.modPh o p f) o :=
  (modOff_phWork _ (by exact rfl) (by exact rfl)).trans (wr_phWork _ _ _ _ rfl (by decide))

/-! ### Receipts and mailbags -/

theorem signal_phWork (n : Nat) : phWork s (s.signal o n) o := by
  unfold State.signal
  dsimp only
  split
  · exact postWrite_phWork _ _
  · exact wr_phWork _ _ _ _ rfl (by decide)

theorem noteReceipt_phWork : phWork s (s.noteReceipt o p) o := by
  unfold State.noteReceipt
  extract_lets x a
  have ha : phWork s a o := modPh_phWork _
  split
  · exact (ha.trans (modPh_phWork _)).trans (signal_phWork _)
  · exact ha

theorem writeReceipt_phWork (c : Receipt) : phWork s (s.writeReceipt o p c) o :=
  ((postWrite_phWork _ _).trans (wr_phWork F.PH_RPROD_INDEX _ _ _ rfl (by decide))).trans noteReceipt_phWork

theorem dropBuffer_phWork : phWork s (s.dropBuffer o p) o := by
  unfold State.dropBuffer
  extract_lets a x
  have ha : phWork s a o := modPh_phWork _
  split
  · exact ha.trans (wr_phWork _ _ _ _ rfl (by decide))
  · exact ha

theorem closeBag_phWork : phWork s (s.closeBag o p) o := by
  unfold State.closeBag
  extract_lets x
  split
  · split
    · exact phWork_refl s o
    · extract_lets used back a b c d
      have hd : phWork s d o := (((((postWrite_phWork _ _).trans (modPh_phWork _)).trans (writeReceipt_phWork _)).trans
        (countUp_phWork F.PH_CNT_MAILBAG_COUNT _ _ rfl (by decide)))).trans (modOff_phWork _ (by split <;> rfl) (by split <;> rfl))
      split
      · exact hd.trans dropBuffer_phWork
      · exact hd
  · exact phWork_refl s o

theorem passMarks_phWork (n : Nat) : phWork s (s.passMarks o p n) o := by
  induction n generalizing s with
  | zero => exact phWork_refl s o
  | succ n ih =>
    unfold State.passMarks
    split
    · exact ((modPh_phWork _).trans closeBag_phWork).trans ih
    · exact phWork_refl s o

theorem queueMark_phWork : phWork s (s.queueMark o p) o := by
  unfold State.queueMark
  dsimp only
  split
  · exact phWork_refl s o
  · exact (modPh_phWork _).trans (passMarks_phWork _)

theorem roundMarks_phWork (r : Nat) : phWork s (s.roundMarks o r) o :=
  phWork_foldl _ (fun v e => by
    dsimp only
    split
    · exact queueMark_phWork
    · exact phWork_refl v o) _ s

end Sys2Proof.Machine
end

section
/-! SUPPORT. What the end of dropped rounds leaves of staging and of the losses (07 R267, R281, R283, R295). -/

namespace Sys2Proof.Machine

variable {s u v : State} {o : OfficeId}

/-- Of an office: where dropping began, its staging, its losses, and their registers. -/
def Office.dropView (d : Office) : Option Nat × List Staged × List LossRec × Nat × Nat :=
  (d.sto.dropFrom, d.sto.staged, d.sto.lossBuf, Sparse.get 0 d.regs (F.STO_STAT_DROPPING.key 0 0),
    Sparse.get 0 d.regs (F.STO_CNT_DROPRND_COUNT.key 0 0))

/-- With it, whether the next round decided is a resume point. -/
def Office.resumeView (d : Office) : (Option Nat × List Staged × List LossRec × Nat × Nat) × Bool := (d.dropView, d.sto.resume)

/-- Office `o` keeps what concerns dropped rounds. -/
def dropsStay (s u : State) (o : OfficeId) : Prop := partKept Office.resumeView s u o

theorem dropsStay_refl (s : State) (o : OfficeId) : dropsStay s s o := partKept_refl _ s o

theorem dropsStay.trans (h : dropsStay s u o) (k : dropsStay u v o) : dropsStay s v o := partKept.trans h k

theorem phWork.dropsStay (h : phWork s u o) : dropsStay s u o := by
  obtain ⟨hoff, hsto, hregs⟩ := h
  exact ⟨hoff, by rw [Office.resumeView, Office.resumeView, Office.dropView, Office.dropView, hsto, hregs _ (by decide), hregs _ (by decide)]⟩

theorem regsOnly.dropsStay {ks : List Nat} (h : regsOnly s u o ks) (hd : F.STO_STAT_DROPPING.key 0 0 ∉ ks)
    (hc : F.STO_CNT_DROPRND_COUNT.key 0 0 ∉ ks) : dropsStay s u o := by
  have hsto : (u.off o).sto = (s.off o).sto := h.field Office.sto fun _ _ _ _ _ _ _ => rfl
  exact ⟨h.onlyOff, by
    rw [Office.resumeView, Office.resumeView, Office.dropView, Office.dropView, hsto, h.regsKept _ hd (by decide), h.regsKept _ hc (by decide)]⟩

theorem modSto_dropsStay (f : Store → Store) (hf : ∀ t, (f t).dropFrom = t.dropFrom ∧ (f t).staged = t.staged ∧ (f t).lossBuf = t.lossBuf ∧
    (f t).resume = t.resume) : dropsStay s (s.modSto o f) o := by
  obtain ⟨hd, hs, hl, hr⟩ := hf (s.off o).sto
  exact modOff_partKept _ (by rw [Office.resumeView, Office.resumeView, Office.dropView, Office.dropView, hd, hs, hl, hr])

theorem dropsStay_foldl {α : Type} (f : State → α → State) (hf : ∀ s a, dropsStay s (f s a) o) (l : List α) (s : State) :
    dropsStay s (l.foldl f s) o := partKept_foldl f hf l s

/-! ### Writes of the index -/

theorem confirm_dropsStay (r : Nat) : dropsStay s (s.confirm o r) o := by
  unfold State.confirm
  extract_lets t q set a
  have hset : ∀ x, dropsStay s (set x) o := fun x => modSto_dropsStay _ fun _ => ⟨rfl, rfl, rfl, rfl⟩
  split
  · exact dropsStay_refl s o
  · split
    · exact hset _
    · split
      · exact hset _
      · split
        · exact (hset _).trans (postRead_phWork _ _).dropsStay
        · exact hset _

theorem issueWrite_dropsStay (r addr : Nat) (b : List Byte) (round : Option Round) : dropsStay s (s.issueWrite o r addr b round) o := by
  unfold State.issueWrite
  extract_lets a c
  have ha : dropsStay s a o := modSto_dropsStay _ fun _ => ⟨rfl, rfl, rfl, rfl⟩
  have hc : dropsStay s c o := by
    unfold c
    split
    · exact ha.trans (postWrite_phWork _ _).dropsStay
    · exact ha
  split
  · exact hc.trans (confirm_dropsStay _)
  · exact hc

theorem storeWrite_dropsStay (r addr : Nat) (b : List Byte) (round : Option Round) : dropsStay s (s.storeWrite o r addr b round) o := by
  unfold State.storeWrite
  extract_lets since
  split
  · exact issueWrite_dropsStay _ _ _ _
  · exact dropsStay_foldl _ (fun _ _ => issueWrite_dropsStay _ _ _ _) _ s

theorem writeEntry_dropsStay (k : Nat) : dropsStay s (s.writeEntry o k) o :=
  dropsStay_foldl _ (fun _ _ => (storeWrite_dropsStay _ _ _ _).trans (confirm_dropsStay _)) _ s

/-! ### Sacks closed -/

theorem modSack_dropsStay (k : Nat) (f : Sack → Sack) : dropsStay s (s.modSack o k f) o :=
  modSto_dropsStay (fun t => { t with sacks := Sparse.update {} t.sacks k f }) fun _ => ⟨rfl, rfl, rfl, rfl⟩

theorem closeSack_dropsStay (k : Nat) : dropsStay s (s.closeSack o k) o := by
  unfold State.closeSack
  exact (modSack_dropsStay _ _).trans (writeEntry_dropsStay k)

theorem closeSacks_dropsStay (l : List OpenSack) : dropsStay s (l.foldl (fun s x => s.closeSack o x.sack) s) o :=
  dropsStay_foldl (fun (s : State) (x : OpenSack) => s.closeSack o x.sack) (fun v x => closeSack_dropsStay (s := v) x.sack) l s

theorem closeCurrent_dropsStay : dropsStay s (s.closeCurrent o) o := by
  unfold State.closeCurrent
  split
  · exact (closeSack_dropsStay _).trans (modSto_dropsStay _ fun _ => ⟨rfl, rfl, rfl, rfl⟩)
  · exact dropsStay_refl s o

theorem wr_dropsStay (f : Fld) (x : Nat) (hs : f.svc = false) (hd : f.key 0 0 ≠ F.STO_STAT_DROPPING.key 0 0)
    (hc : f.key 0 0 ≠ F.STO_CNT_DROPRND_COUNT.key 0 0) : dropsStay s (s.wr o f x) o :=
  (wr_regsOnly f x 0 0 hs).dropsStay (by simpa using hd.symm) (by simpa using hc.symm)

theorem refreshStore_dropsStay : dropsStay s (s.refreshStore o) o := by
  unfold State.refreshStore
  extract_lets t old new a b c d e dead
  have ha : dropsStay s a o := (wr_dropsStay F.STO_OLDEST_LO_ROUND_L _ rfl (by decide) (by decide)).trans
    (wr_dropsStay F.STO_OLDEST_HI_ROUND_H _ rfl (by decide) (by decide))
  have hb : dropsStay s b o := (ha.trans (wr_dropsStay F.STO_NEWEST_LO_ROUND_L _ rfl (by decide) (by decide))).trans
    (wr_dropsStay F.STO_NEWEST_HI_ROUND_H _ rfl (by decide) (by decide))
  have hc : dropsStay s c o := by
    unfold c
    split
    · exact (hb.trans (wr_dropsStay F.STO_WP_HI_SACK _ rfl (by decide) (by decide))).trans
        (wr_dropsStay F.STO_WP_LO_OFFSET _ rfl (by decide) (by decide))
    · exact hb
  exact ((hc.trans (wr_dropsStay F.STO_SACKS_TOTAL_COUNT _ rfl (by decide) (by decide))).trans
    (wr_dropsStay F.STO_SACKS_PINNED_COUNT _ rfl (by decide) (by decide))).trans (wr_dropsStay F.STO_SACKS_FAULT_COUNT _ rfl (by decide) (by decide))

/-- The end of dropped rounds leaves what concerns them, but the store may then wait for a resume point (R283, R295). -/
theorem endDrops_spec (s : State) (o : OfficeId) : let u := s.endDrops o
    partKept Office.dropView s u o ∧ ((s.off o).sto.resume = true → (u.off o).sto.resume = true) := by
  intro u
  let a := s.purgeDropped o
  have ha : dropsStay s a o := modOff_partKept _ rfl
  have hview : ∀ {v}, dropsStay s v o → partKept Office.dropView s v o ∧ ((s.off o).sto.resume = true → (v.off o).sto.resume = true) :=
    fun {v} ⟨hoff, hv⟩ => ⟨⟨hoff, (Prod.mk.inj hv).1⟩, fun hr => (Prod.mk.inj hv).2.trans hr⟩
  by_cases hset : (a.mode o).isData = false ∧ (a.off o).drained ∧ ((a.off o).sto.cur.isSome ∨ (a.off o).sto.ahead ≠ [])
  · let b := (a.off o).sto.ahead.foldl (fun s x => s.closeSack o x.sack) (a.closeCurrent o)
    let c := b.modSto o fun t => { t with ahead := [], resume := true }
    have hu : u = c.refreshStore o := if_pos hset
    have hb : dropsStay s b o := (ha.trans closeCurrent_dropsStay).trans (closeSacks_dropsStay _)
    have hc : partKept Office.dropView b c o := modOff_partKept _ rfl
    have hr : dropsStay c u o := hu ▸ refreshStore_dropsStay
    refine ⟨((hview hb).1.trans hc).trans ⟨hr.1, (Prod.mk.inj hr.2).1⟩, fun _ => (Prod.mk.inj hr.2).2.trans ?_⟩
    exact congrArg (fun d : Office => d.sto.resume) (modOff_off_same _)
  · have hu : u = a := if_neg hset
    exact hu ▸ hview ha

end Sys2Proof.Machine
end

section
/-! SUPPORT. Rounds dropped for want of staging (07 R284 to R287, R295). -/

namespace Sys2Proof.Machine

variable {s u v : State} {o : OfficeId}

/-- What of an office a loss record leaves. -/
def Office.stagingView (d : Office) : Option Nat × List Staged × Nat × Nat × Bool :=
  (d.sto.dropFrom, d.sto.staged, Sparse.get 0 d.regs (F.STO_STAT_DROPPING.key 0 0), Sparse.get 0 d.regs (F.STO_CNT_DROPRND_COUNT.key 0 0),
    d.sto.resume)

theorem dropsStay.staging (h : dropsStay s u o) : partKept Office.stagingView s u o ∧ (u.off o).sto.lossBuf = (s.off o).sto.lossBuf := by
  obtain ⟨hoff, hv⟩ := h
  obtain ⟨hd, hr⟩ := Prod.mk.inj hv
  simp only [Office.dropView, Prod.mk.injEq] at hd
  obtain ⟨h1, h2, h3, h4, h5⟩ := hd
  exact ⟨⟨hoff, by simp only [Office.stagingView, h1, h2, h4, h5, hr]⟩, h3⟩

/-- The newest loss record is of a cause. -/
def lastLoss (s : State) (o : OfficeId) (cause : Nat) : Prop := ∃ l, (s.off o).sto.lossBuf.getLast? = some l ∧ l.cause = cause

/-- A loss is recorded last, with its cause (R286). -/
theorem addLoss_spec (cause district : Nat) (all chain : Bool) (first : Round) (rounds : Nat) :
    let u := s.addLoss o cause district all chain first rounds
    partKept Office.stagingView s u o ∧ lastLoss u o cause := by
  intro u
  let put := fun (l : LossRec) (b : List LossRec) (q : Nat) => (s.modSto o fun t => { t with lossBuf := b ++ [l], lseq := q }).lossNotice o l
  have hput : ∀ l b q, l.cause = cause → partKept Office.stagingView s (put l b q) o ∧ lastLoss (put l b q) o cause := by
    intro l b q hl
    have hm : partKept Office.stagingView s (s.modSto o fun t => { t with lossBuf := b ++ [l], lseq := q }) o := modOff_partKept _ rfl
    obtain ⟨hstage, hbuf⟩ := ((raise_regsOnly (s := s.modSto o fun t => { t with lossBuf := b ++ [l], lseq := q }) (o := o) (ks := []) 0x0502
      (le 4 l.lseq ++ le 1 l.cause ++ le 1 (b2n l.all + 2 * b2n l.chain) ++ le 1 l.district ++ le 6 l.first.toNat ++ le 4 l.rounds)).dropsStay
        nofun nofun).staging
    refine ⟨hm.trans hstage, l, ?_, hl⟩
    rw [show ((put l b q).off o).sto.lossBuf = _ from hbuf]
    simp [State.modSto]
  unfold u State.addLoss
  extract_lets t n
  split
  · split
    · next h => exact hput _ _ _ h.1
    · split
      · exact hput _ _ _ rfl
      · exact hput _ _ _ rfl
  · exact hput _ _ _ rfl

theorem refreshFill_dropsStay : dropsStay s (s.refreshFill o) o :=
  ((modSto_dropsStay Store.settleLeaving fun _ => ⟨rfl, rfl, rfl, rfl⟩).trans (wr_dropsStay F.STO_STAGE_FILL _ rfl (by decide) (by decide))).trans
    (wr_dropsStay F.STO_STAGE_PEAK _ rfl (by decide) (by decide))

theorem rd_of_key {f : Fld} {i j : Nat} (hf : f.svc = false) (h : Sparse.get 0 (u.off o).regs (f.key i j) = Sparse.get 0 (s.off o).regs (f.key i j)) :
    u.rd o f i j = s.rd o f i j := by
  simp only [State.rd, hf, regGet, h]
  rfl

/-- What stays of staging and of the registers, part by part. -/
theorem staging_parts (h : partKept Office.stagingView s u o) : onlyOff s u o ∧ (u.off o).sto.dropFrom = (s.off o).sto.dropFrom ∧
    (u.off o).sto.staged = (s.off o).sto.staged ∧ u.rd o F.STO_STAT_DROPPING = s.rd o F.STO_STAT_DROPPING ∧
    u.rd o F.STO_CNT_DROPRND_COUNT = s.rd o F.STO_CNT_DROPRND_COUNT ∧ (u.off o).sto.resume = (s.off o).sto.resume := by
  obtain ⟨hoff, hv⟩ := h
  simp only [Office.stagingView, Prod.mk.injEq] at hv
  obtain ⟨hfrom, hstaged, hdropping, hcount, hresume⟩ := hv
  exact ⟨hoff, hfrom, hstaged, rd_of_key rfl hdropping, rd_of_key rfl hcount, hresume⟩

theorem lastLoss_congr {cause : Nat} (h : lastLoss s o cause) (hb : (u.off o).sto.lossBuf = (s.off o).sto.lossBuf) : lastLoss u o cause := by
  rwa [lastLoss, hb]

/-- A round dropped leaves staging, counts, and is recorded as lost (R276, R295). -/
theorem dropRound_spec (r : Round) (cause : Nat) : let u := s.dropRound o r cause
    onlyOff s u o ∧ (u.off o).sto.dropFrom = (s.off o).sto.dropFrom ∧
      (u.off o).sto.staged = (s.off o).sto.staged.filter (fun x => x.item.round ≠ r) ∧
      u.rd o F.STO_STAT_DROPPING = s.rd o F.STO_STAT_DROPPING ∧
      u.rd o F.STO_CNT_DROPRND_COUNT = min (s.rd o F.STO_CNT_DROPRND_COUNT + 1) 0xFFFFFFFF ∧ lastLoss u o cause := by
  intro u
  unfold u State.dropRound
  extract_lets a b
  have hkey : F.STO_CNT_DROPRND_COUNT.key 0 0 ∉ noticeKeys := by decide
  have hc := countUp_regsOnly (s := s) (o := o) F.STO_CNT_DROPRND_COUNT 0 0 rfl
  have hcount := rd_countUp_same (s := s) (o := o) F.STO_CNT_DROPRND_COUNT 0 0 rfl hkey
  have hcsto : ((s.countUp o F.STO_CNT_DROPRND_COUNT).off o).sto = (s.off o).sto := hc.field Office.sto fun _ _ _ _ _ _ _ => rfl
  obtain ⟨ha, hloss⟩ : partKept Office.stagingView (s.countUp o F.STO_CNT_DROPRND_COUNT) a o ∧ lastLoss a o cause := addLoss_spec _ _ _ _ _ _
  obtain ⟨haoff, hafrom, hastaged, hadropping, hacount, -⟩ := staging_parts ha
  have hb : b.off o = _ := modOff_off_same _
  have hbregs : (b.off o).regs = (a.off o).regs := by rw [hb]
  obtain ⟨hend, hbuf⟩ := (refreshFill_dropsStay.trans (roundMarks_phWork (s := b.refreshFill o) r.toNat).dropsStay).staging
  obtain ⟨heoff, hefrom, hestaged, hedropping, hecount, -⟩ := staging_parts hend
  refine ⟨onlyOff_trans hc.onlyOff (onlyOff_trans haoff (onlyOff_trans (modOff_onlyOff _) heoff)), ?_, ?_, ?_, ?_, lastLoss_congr hloss ?_⟩
  · rw [hefrom, hb, ← hcsto]
    exact hafrom
  · rw [hestaged, hb, ← hcsto, ← hastaged]
  · rw [hedropping, rd_of_regs hbregs rfl, hadropping]
    exact hc.rd (by decide) (by decide)
  · rw [hecount, rd_of_regs hbregs rfl, hacount, hcount]
    rfl
  · rw [hbuf, hb]

/-! ### Dropping begins and ends -/

/-- A round that would overfill staging is dropped, and dropping begins with it (R295). -/
theorem startDropping_spec (r : Round) (hd : (s.off o).sto.dropFrom = none) : let u := (s.startDropping o r).endDrops o
    (u.off o).sto.dropFrom = some r.toNat ∧ u.rd o F.STO_STAT_DROPPING = 1 ∧
      u.rd o F.STO_CNT_DROPRND_COUNT = min (s.rd o F.STO_CNT_DROPRND_COUNT + 1) 0xFFFFFFFF ∧
      (∀ y ∈ (u.off o).sto.staged, y.item.round ≠ r) ∧ lastLoss u o 2 ∧ onlyOff s u o := by
  intro u
  let a := s.modSto o fun t => { t with dropFrom := some (t.dropFrom.elim r.toNat fun k => if roundLe k r.toNat then k else r.toNat) }
  let b := a.wr o F.STO_STAT_DROPPING 1
  have ha : a.off o = _ := modOff_off_same _
  have hb : regsOnly a b o [F.STO_STAT_DROPPING.key 0 0] := wr_regsOnly _ _ _ _ rfl
  obtain ⟨hoff, hfrom, hstaged, hdropping, hcount, hloss⟩ := dropRound_spec (s := b) (o := o) r 2
  obtain ⟨⟨heoff, hview⟩, -⟩ := endDrops_spec (b.dropRound o r 2) o
  simp only [Office.dropView, Prod.mk.injEq] at hview
  obtain ⟨hefrom, hestaged, hebuf, hedropping, hecount⟩ := hview
  have hcount0 : b.rd o F.STO_CNT_DROPRND_COUNT = s.rd o F.STO_CNT_DROPRND_COUNT :=
    (hb.rd (by decide) (by decide)).trans (rd_of_regs (by rw [ha]) rfl)
  have hbsto : (b.off o).sto = (a.off o).sto := hb.field Office.sto fun _ _ _ _ _ _ _ => rfl
  refine ⟨?_, ?_, ?_, fun y hy => ?_, lastLoss_congr hloss hebuf,
    onlyOff_trans (modOff_onlyOff _) (onlyOff_trans hb.onlyOff (onlyOff_trans hoff heoff))⟩
  · rw [show (u.off o).sto.dropFrom = _ from hefrom, hfrom, hbsto, ha]
    simp [hd]
  · exact (rd_of_key rfl hedropping).trans (hdropping.trans (rd_wr_same _ _ _ _))
  · exact (rd_of_key rfl hecount).trans (hcount.trans (by rw [hcount0]))
  · have hmem : y ∈ (b.off o).sto.staged.filter fun x => x.item.round ≠ r := by
      rw [← hstaged, ← hestaged]
      exact hy
    simpa using (List.mem_filter.1 hmem).2

theorem dropBegun_onlyOff (k : Nat) : onlyOff s (s.dropBegun o k) o := by
  have hstep : ∀ (l : List RoundPlan) (v : State), onlyOff v (l.foldl (fun s p =>
      let g := (s.off o).planProgress p
      if p.dropped ∨ roundLt p.round.toNat k ∨ g.1 = false then s else s.dropRound o p.round (if g.2 then 2 else 7)) v) o := by
    intro l
    induction l with
    | nil => exact fun v => onlyOff_refl v o
    | cons p l ih =>
      intro v
      refine onlyOff_trans ?_ (ih _)
      dsimp only
      split
      · exact onlyOff_refl v o
      · exact (dropRound_spec _ _).1
  exact hstep _ s

/-- Below 16 MiB dropping ends with a resume point (R295). -/
theorem stagingDrained_ends {k : Nat} (hf : (s.off o).sto.fill < 16 * 2 ^ 20) (hd : (s.off o).sto.dropFrom = some k) :
    gives (.stagingDrained o) s fun u => (u.off o).sto.dropFrom = none ∧ (u.off o).sto.resume = true ∧ onlyOff s u o := by
  let a := s.modSto o fun t => { t with replayHeld := false, liveArmed := t.liveArmed || s.flag o F.STO_STAT_LIVE_HELD }
  let b := a.dropBegun o k
  let c := b.modSto o fun t => { t with dropFrom := none, resume := true }
  have ha : (a.off o).sto = _ := congrArg Office.sto (modOff_off_same _)
  have hc : (c.off o).sto = _ := congrArg Office.sto (modOff_off_same _)
  obtain ⟨⟨heoff, hview⟩, hresume⟩ := endDrops_spec c o
  simp only [Office.dropView, Prod.mk.injEq] at hview
  refine ⟨c.endDrops o, congrArg Host.Outcome.next ((if_neg (by omega)).trans ?_), ?_, hresume (by rw [hc]),
    onlyOff_trans (modOff_onlyOff _) (onlyOff_trans (dropBegun_onlyOff k) (onlyOff_trans (modOff_onlyOff _) heoff))⟩
  · dsimp only
    rw [show (a.off o).sto.dropFrom = some k by rw [ha]; exact hd]
  · rw [hview.1, hc]

/-- Below 16 MiB without dropping, live deliveries that were held wait for a new round (R295). -/
theorem stagingDrained_resumes (hf : (s.off o).sto.fill < 16 * 2 ^ 20) (hd : (s.off o).sto.dropFrom = none) :
    gives (.stagingDrained o) s fun u =>
      (u.off o).sto = { (s.off o).sto with
          replayHeld := false, liveArmed := (s.off o).sto.liveArmed || decide (s.rd o F.STO_STAT_LIVE_HELD ≠ 0) } ∧
        (u.off o).regs = (s.off o).regs ∧ onlyOff s u o ∧ u.out = s.out := by
  let a := s.modSto o fun t => { t with replayHeld := false, liveArmed := t.liveArmed || s.flag o F.STO_STAT_LIVE_HELD }
  have ha : a.off o = _ := modOff_off_same _
  refine ⟨a, congrArg Host.Outcome.next ((if_neg (by omega)).trans ?_), by rw [ha]; rfl, by rw [ha], modOff_onlyOff _, rfl⟩
  dsimp only
  rw [show (a.off o).sto.dropFrom = none by rw [ha]; exact hd]

end Sys2Proof.Machine
end

section
/-! SUPPORT. Items enter staging in their order (06 R237, R239, R263; 07 R295). -/

namespace Sys2Proof.Machine

variable {s u v : State} {o : OfficeId} {x : CodedItem}

/-! ### A pair counts -/

/-- The counters of bytes out of compression read their old value and the bytes, saturated (R13, R263). -/
theorem rdPair_countOut (n : Nat) : (s.countPair o F.CMP_OUT_LO_COUNT_L F.CMP_OUT_HI_COUNT_H n).rdPair o F.CMP_OUT_LO_COUNT_L F.CMP_OUT_HI_COUNT_H =
    min (s.rdPair o F.CMP_OUT_LO_COUNT_L F.CMP_OUT_HI_COUNT_H + n) (2 ^ 64 - 1) := by
  have hset : ∀ x ≤ 2 ^ 64 - 1, ((s.wrPair o F.CMP_OUT_LO_COUNT_L F.CMP_OUT_HI_COUNT_H x).noteEvents o F.CMP_OUT_LO_COUNT_L n).rdPair o
      F.CMP_OUT_LO_COUNT_L F.CMP_OUT_HI_COUNT_H = x := fun x hx => by
    rw [State.rdPair, rd_noteEvents, rd_noteEvents, State.wrPair, rd_wr_other _ _ _ _ _ _ _ (by decide), rd_wr_same, rd_wr_same]
    change x % 2 ^ 32 + x / 2 ^ 32 % 2 ^ 32 * 2 ^ 32 = x
    omega
  unfold State.countPair
  extract_lets old new a nt
  split
  · rw [State.rdPair, (raise_noticesOnly _ _).rd (by decide), (raise_noticesOnly _ _).rd (by decide)]
    exact hset new (Nat.min_le_right _ _)
  · exact hset new (Nat.min_le_right _ _)

/-! ### Before an item enters -/

theorem modOff_eq_self (f : Office → Office) (h : f (s.off o) = s.off o) : s.modOff o f = s := by
  rw [modOff_const, h, ← modOff_const fun d => d, modOff_id]

/-- Where no round is dropped nothing of compression is forgotten. -/
theorem purgeDropped_none (h : ((s.off o).cmp.plans.all fun p => !p.dropped) = true) : s.purgeDropped o = s := by
  have hnone : ∀ p ∈ (s.off o).cmp.plans, p.dropped = false := by simpa using h
  have hgone : ∀ r, ((s.off o).cmp.plans.any fun p => decide (p.round = r) && p.dropped) = false := fun r => by
    simp only [List.any_eq_false]
    exact fun p hp => by simp [hnone p hp]
  have hplans : ((s.off o).cmp.plans.filter fun p => !(p.dropped && p.endOrd.isSome && !(s.off o).cmp.inEngines p.round)) = (s.off o).cmp.plans :=
    List.filter_eq_self.2 fun p hp => by simp [hnone p hp]
  refine modOff_eq_self _ ?_
  simp only [hgone, hplans, Bool.not_false, List.filter_true]

theorem endDrops_none (h : ((s.off o).cmp.plans.all fun p => !p.dropped) = true) (hs : s.settleStore o = s) : s.endDrops o = s := by
  rw [State.endDrops, purgeDropped_none h, hs]

theorem stagingEntry_of_none (h : ((s.off o).cmp.plans.all fun p => !p.dropped) = true) (hs : s.settleStore o = s) (hn : s.stageNext o = none) :
    exec (.stagingEntry o) s = .next s := by
  refine congrArg Host.Outcome.next ?_
  dsimp only
  rw [endDrops_none h hs, hn]

/-- No plan of a round is dropped. -/
theorem planDropped_none (h : ((s.off o).cmp.plans.all fun p => !p.dropped) = true) (r : Round) :
    ((s.off o).cmp.plans.any fun p => decide (p.round = r) && p.dropped) = false := by
  have hnone : ∀ p ∈ (s.off o).cmp.plans, p.dropped = false := by simpa using h
  simp only [List.any_eq_false]
  exact fun p hp => by simp [hnone p hp]

/-- The state in which an item has been written into staging, its bytes not yet counted (R295). -/
def State.staged (s : State) (o : OfficeId) (x : CodedItem) : State :=
  let s := (s.resumeLive o x).takeOut o x.ord
  let a := (s.off o).sto.stageAt x.bytes.length 1024 (s.off o).sto.stageAddr
  let s := (s.rewriteWords o 6 (a / 8) ((a + x.bytes.length + 7) / 8)).modSto o fun t =>
    { t with staged := t.staged ++ [{ item := x, addr := a }], stageAddr := (a + (x.bytes.length + 7) / 8 * 8) % (64 * 2 ^ 20) }
  ((s.refreshFill o).deliverLive o x).holdLive o

section
variable (hp : ((s.off o).cmp.plans.all fun p => !p.dropped) = true) (hs : s.settleStore o = s) (hn : s.stageNext o = some x)
  (hdec : s.decideUpTo o x.round = s) (hu : (s.off o).undecided x.round = false) (hd : (s.off o).sto.dropFrom = none)
include hp hs hn hdec hu hd

theorem stagingEntry_overfull (hroom : (s.off o).sto.room < (s.off o).sto.fill + x.bytes.length) : exec (.stagingEntry o) s = .next
    (((s.countPair o F.CMP_OUT_LO_COUNT_L F.CMP_OUT_HI_COUNT_H (x.bytes.length - 64)).startDropping o x.round).endDrops o) := by
  refine congrArg Host.Outcome.next ?_
  dsimp only
  rw [endDrops_none hp hs, hn]
  dsimp only
  rw [hdec, hu, planDropped_none hp, hd]
  simp only [Option.any_none, Bool.false_eq_true, if_false, hroom, if_true]

theorem stagingEntry_enters (hroom : (s.off o).sto.fill + x.bytes.length ≤ (s.off o).sto.room) : exec (.stagingEntry o) s = .next
    ((s.staged o x).countPair o F.CMP_OUT_LO_COUNT_L F.CMP_OUT_HI_COUNT_H (x.bytes.length - 64)) := by
  refine congrArg Host.Outcome.next ?_
  dsimp only
  rw [endDrops_none hp hs, hn]
  dsimp only
  rw [hdec, hu, planDropped_none hp, hd]
  simp only [Option.any_none, Bool.false_eq_true, if_false, Nat.not_lt.2 hroom]
  rfl

end

/-! ### An item in staging -/

theorem Store.fill_append (t : Store) (y : Staged) : ({ t with staged := t.staged ++ [y] } : Store).fill = t.fill + y.item.bytes.length := by
  simp [Store.fill]

theorem rewriteWords_arraysOnly (a lo hi : Nat) : arraysOnly s (s.rewriteWords o a lo hi) o := by
  unfold State.rewriteWords
  extract_lets b
  have hb : arraysOnly s b o := foldl_arraysOnly _ (fun _ _ => arrWrite_arraysOnly _ _ _) _ s
  refine arraysOnly_trans hb (foldl_arraysOnly _ (fun v k => ?_) _ b)
  split
  · exact freeTracker_arraysOnly k
  · exact arraysOnly_refl v o

theorem resumeLive_unarmed (h : (s.off o).sto.liveArmed = false) : s.resumeLive o x = s := if_neg fun hc => by simp [h] at hc

theorem deliverLive_unrouted {e : Envelope} (hx : x.body = .env e) (hr : e.route = none) : s.deliverLive o x = s := by
  unfold State.deliverLive
  simp only [hx, hr]

theorem holdLive_low (h : (s.off o).sto.fill ≤ 32 * 2 ^ 20) : s.holdLive o = s := if_pos h

/-- Where an item goes in staging. -/
def Office.entryFor (d : Office) (x : CodedItem) : Staged := { item := x, addr := d.sto.stageAt x.bytes.length 1024 d.sto.stageAddr }

/-- The entry of an item whose envelope is not delivered, below 32 MiB: it stands behind the others, has left compression, and no pigeonhole
has it (R239, R295). -/
theorem staged_spec {e : Envelope} (hx : x.body = .env e) (hr : e.route = none) (hl : (s.off o).sto.liveArmed = false)
    (hf : (s.off o).sto.fill + x.bytes.length ≤ 32 * 2 ^ 20) : let u := s.staged o x
    (u.off o).sto.staged = (s.off o).sto.staged ++ [(s.off o).entryFor x] ∧
      (u.off o).cmp.queue = (s.off o).cmp.queue.filter (fun y => y.ord ≠ x.ord) ∧
      (u.off o).cmp.coded = (s.off o).cmp.coded.filter (fun y => y.ord ≠ x.ord) ∧ (u.off o).phs = (s.off o).phs ∧
      u.rdPair o F.CMP_OUT_LO_COUNT_L F.CMP_OUT_HI_COUNT_H = s.rdPair o F.CMP_OUT_LO_COUNT_L F.CMP_OUT_HI_COUNT_H ∧
      onlyOff s u o ∧ u.out = s.out := by
  intro u
  let b := s.takeOut o x.ord
  let a := ((s.off o).entryFor x).addr
  let c := b.rewriteWords o 6 (a / 8) ((a + x.bytes.length + 7) / 8)
  let d := c.modSto o fun t => { t with
    staged := t.staged ++ [{ item := x, addr := a }], stageAddr := (a + (x.bytes.length + 7) / 8 * 8) % (64 * 2 ^ 20) }
  let f := d.modSto o Store.settleLeaving
  let v := d.refreshFill o
  have hb : b.off o = _ := modOff_off_same _
  have hc : arraysOnly b c o := rewriteWords_arraysOnly _ _ _
  have hd : d.off o = _ := modOff_off_same _
  have hfo : f.off o = _ := modOff_off_same _
  have hv : regsOnly f v o [F.STO_STAGE_FILL.key 0 0, F.STO_STAGE_PEAK.key 0 0] :=
    ((wr_regsOnly _ _ _ _ rfl).mono (by simp)).trans ((wr_regsOnly _ _ _ _ rfl).mono (by simp))
  have hcsto : (c.off o).sto = (s.off o).sto := (hc.field Office.sto fun _ _ _ _ _ _ _ _ _ _ _ _ => rfl).trans (by rw [hb])
  have hstaged : (v.off o).sto.staged = (s.off o).sto.staged ++ [(s.off o).entryFor x] := by
    rw [hv.field Office.sto fun _ _ _ _ _ _ _ => rfl, hfo, hd, hcsto]
    rfl
  have hfill : (v.off o).sto.fill ≤ 32 * 2 ^ 20 := by
    have h : (v.off o).sto.fill = (s.off o).sto.fill + x.bytes.length := by
      rw [Store.fill, hstaged]
      exact Store.fill_append (s.off o).sto ((s.off o).entryFor x)
    omega
  have hu : u = v := by
    have hentry : u = (v.deliverLive o x).holdLive o := by
      unfold u State.staged
      rw [resumeLive_unarmed hl]
      have haddr : (b.off o).sto.stageAt x.bytes.length 1024 (b.off o).sto.stageAddr = a := by
        rw [hb]
        rfl
      dsimp only
      rw [haddr]
    rw [hentry, deliverLive_unrouted hx hr, holdLive_low hfill]
  have hcmp : (v.off o).cmp = (b.off o).cmp := by
    rw [hv.field Office.cmp fun _ _ _ _ _ _ _ => rfl, hfo, hd]
    exact hc.field Office.cmp fun _ _ _ _ _ _ _ _ _ _ _ _ => rfl
  have hregs : ∀ {g : Fld}, g.svc = false → g.key 0 0 ∉ [F.STO_STAGE_FILL.key 0 0, F.STO_STAGE_PEAK.key 0 0] → g.key 0 0 ∉ noticeKeys →
      calKey (g.key 0 0) = true → v.rd o g = s.rd o g := fun {g} hs hk hn hcal =>
    (hv.rd hk hn).trans ((rd_of_regs (show (f.off o).regs = (c.off o).regs by rw [hfo, hd]) hs).trans
      ((hc.1.rd hcal nofun).trans (rd_of_regs (by rw [hb]) hs)))
  rw [hu]
  refine ⟨hstaged, by rw [hcmp, hb], by rw [hcmp, hb], ?_, ?_, ?_, hv.out.trans hc.1.2.1⟩
  · rw [hv.field Office.phs fun _ _ _ _ _ _ _ => rfl, hfo, hd, hc.field Office.phs fun _ _ _ _ _ _ _ _ _ _ _ _ => rfl, hb]
  · rw [State.rdPair, State.rdPair, hregs rfl (by decide) (by decide) (by decide), hregs rfl (by decide) (by decide) (by decide)]
  · exact onlyOff_trans (modOff_onlyOff _) (onlyOff_trans hc.1.1 (onlyOff_trans (modOff_onlyOff _) (onlyOff_trans (modOff_onlyOff _) hv.onlyOff)))

/-- Settles O33: an item enters by `staged_spec`, or starts dropping by `startDropping_spec`; dropping ends by `stagingDrained_ends`. -/
theorem itemsEnterStaging : Obligations.ItemsEnterStaging := by
  unfold Obligations.ItemsEnterStaging
  intro s o x e k
  refine ⟨fun hp hs => ⟨stagingEntry_of_none hp hs, fun hn hdec hu hd => ⟨fun hx hr hl hf hroom => ?_, fun hroom => ?_⟩⟩,
    fun hf => congrArg Host.Outcome.next (if_pos hf), stagingDrained_resumes, stagingDrained_ends⟩
  · obtain ⟨hstaged, hqueue, hcoded, hphs, hpair, hoff, hout⟩ := staged_spec hx hr hl hf
    have hc := countPair_keys (s := s.staged o x) (o := o) F.CMP_OUT_LO_COUNT_L F.CMP_OUT_HI_COUNT_H (x.bytes.length - 64) rfl rfl
    refine ⟨_, stagingEntry_enters hp hs hn hdec hu hd hroom, ?_, ?_, ?_, ?_, ?_, onlyOff_trans hoff hc.onlyOff, hc.out.trans hout⟩
    · rw [hc.field Office.sto fun _ _ _ _ _ _ _ => rfl]
      exact hstaged
    · rw [hc.field Office.cmp fun _ _ _ _ _ _ _ => rfl, hqueue]
    · rw [hc.field Office.cmp fun _ _ _ _ _ _ _ => rfl, hcoded]
    · rw [hc.field Office.phs fun _ _ _ _ _ _ _ => rfl, hphs]
    · rw [rdPair_countOut, hpair]
  · let b := s.countPair o F.CMP_OUT_LO_COUNT_L F.CMP_OUT_HI_COUNT_H (x.bytes.length - 64)
    have hb := countPair_keys (s := s) (o := o) F.CMP_OUT_LO_COUNT_L F.CMP_OUT_HI_COUNT_H (x.bytes.length - 64) rfl rfl
    have hbsto : (b.off o).sto = (s.off o).sto := hb.field Office.sto fun _ _ _ _ _ _ _ => rfl
    obtain ⟨hfrom, hdropping, hcount, hstaged, hloss, hoff⟩ := startDropping_spec (s := b) (o := o) x.round (by rw [hbsto]; exact hd)
    rw [hb.rd (by decide) (by decide)] at hcount
    exact ⟨_, stagingEntry_overfull hp hs hn hdec hu hd hroom, hfrom, hdropping, hcount, hstaged, hloss, onlyOff_trans hb.onlyOff hoff⟩

end Sys2Proof.Machine
end


section
/-! SUPPORT. The commands of the thermal model and of pages (17 R645, R648; 18 R681, R682, R691). -/

namespace Sys2Proof.Machine

variable {s u w : State} {o : OfficeId} {v : W32} {ks : List Nat}

theorem bitsOf_low (x n : Nat) : bitsOf x 0 n = x % 2 ^ n := by simp [bitsOf]

/-! ### Commands of `THM_CTL` (R645, R648) -/

/-- Beside notices, office `o` has changed its thermal model alone. -/
def thmOnly (s u : State) (o : OfficeId) (m : Thermal) : Prop :=
  (u.off o).thm = m ∧ onlyOff s u o ∧ regsKept s u o [] ∧ u.out = s.out

theorem noticesOnly.thmOnly (h : noticesOnly s u o) : thmOnly s u o (s.off o).thm :=
  ⟨h.field Office.thm fun _ _ _ _ _ _ => rfl, h.onlyOff, h.regsKept [], h.out⟩

theorem modThm_thmOnly (h : noticesOnly s u o) (f : Thermal → Thermal) : thmOnly s (u.modThm o f) o (f (s.off o).thm) := by
  obtain ⟨hthm, hoff, hregs, hout⟩ := h.thmOnly
  have hv : (u.modThm o f).off o = { u.off o with thm := f (u.off o).thm } := modOff_off_same _
  refine ⟨by rw [hv, hthm], onlyOff_trans hoff (modOff_onlyOff _), fun k hk hn => ?_, hout⟩
  rw [hv]
  exact hregs k hk hn

/-- A write of `THM_CTL` that the owner takes, by its two action bits. -/
theorem writeThmCtl_of_writable (hw : writable s o F.THM_CTL_ACK.off v.toNat) (ho : s.owns o = true) :
    ∃ u, noticesOnly s u o ∧ (v.getLsbD 31 = true → v.getLsbD 30 = false → s.writeThmCtl o v.toNat = u.modThm o fun m => { m with ack := true }) ∧
      (v.getLsbD 30 = true → v.getLsbD 31 = false → s.writeThmCtl o v.toNat = if (u.off o).thm.admits (v.toNat % 64) = false then
        u.modThm o fun m => { m with sensors := Sparse.set {} m.sensors (v.toNat % 64) { good := some 0 } } else u) := by
  obtain ⟨u, hu, he⟩ := hostWrite_of_holdsNothing (by decide) hw
  have hj : bitsOf v.toNat 0 6 = v.toNat % 64 := bitsOf_low _ _
  have hset : ∀ k, v.getLsbD k = true → bitsOf v.toNat k 1 = 1 := fun k h => (bitsOf_toNat v k).2 h
  have hclear : ∀ k, v.getLsbD k = false → ¬ bitsOf v.toNat k 1 = 1 := fun k h hc => Bool.false_ne_true (h.symm.trans ((bitsOf_toNat v k).1 hc))
  have howns : u.owns o = true := hu.owns.trans ho
  refine ⟨u, hu, fun h31 h30 => ?_, fun h30 h31 => ?_⟩
  · simp [State.writeThmCtl, he, howns, hset 31 h31, hclear 30 h30]
  · simp [State.writeThmCtl, he, howns, hset 30 h30, hclear 31 h31, hj]

theorem thermalAck_spec (hw : writable s o F.THM_CTL_ACK.off v.toNat) (ho : s.owns o = true) (h31 : v.getLsbD 31 = true)
    (h30 : v.getLsbD 30 = false) : gives (.thermalAck o v) s fun u => thmOnly s u o { (s.off o).thm with ack := true } := by
  obtain ⟨u, hu, hack, -⟩ := writeThmCtl_of_writable hw ho
  exact ⟨_, congrArg Host.Outcome.next (hack h31 h30), modThm_thmOnly hu _⟩

/-- The model of an office whose excluded sensor `j` may be tested. -/
def Thermal.readmitted (m : Thermal) (j : Nat) : Thermal :=
  if m.admits j then m else { m with sensors := Sparse.set {} m.sensors j { good := some 0 } }

theorem readmit_spec (hw : writable s o F.THM_CTL_ACK.off v.toNat) (ho : s.owns o = true) (h30 : v.getLsbD 30 = true)
    (h31 : v.getLsbD 31 = false) : gives (.readmit o v) s fun u => thmOnly s u o ((s.off o).thm.readmitted (v.toNat % 64)) := by
  obtain ⟨u, hu, -, hread⟩ := writeThmCtl_of_writable hw ho
  refine ⟨_, congrArg Host.Outcome.next (hread h30 h31), ?_⟩
  rw [hu.thmOnly.1, Thermal.readmitted]
  cases (s.off o).thm.admits (v.toNat % 64) with
  | true => exact hu.thmOnly
  | false => exact modThm_thmOnly hu fun m => { m with sensors := Sparse.set {} m.sensors (v.toNat % 64) { good := some 0 } }

theorem writeThmCtl_of_not_taken (x : Nat) (h : s.takesWrites o = false) : s.writeThmCtl o x = s := by
  unfold State.writeThmCtl
  rw [hostWrite_of_not_taken _ _ _ _ h]
  exact if_pos (.inl rfl)

/-! ### Page commands (R681, R682, R691) -/

/-- What a page command does once its write has gone through. -/
def State.pageCmd (s : State) (o : OfficeId) (v : Nat) : State :=
  if s.flag o F.ERR_PAGE_CMD_BUSY then s.refusePage o v 5
  else if pageExists (bitsOf v 20 4) (bitsOf v 0 20) = false then s.refusePage o v 4
  else if bitsOf v 28 2 = 0 then s.startRefresh o v
  else if s.retireFault o v ≠ 0 then s.refusePage o v (s.retireFault o v) else s.startRetire o v

/-- The keys of the fields of `ERR_PAGE_CMD`. -/
def pageCmdKeys : List Nat := writeKeys (fieldsAt F.ERR_PAGE_CMD_GO.off)

theorem plainReg_pageCmd : plainReg F.ERR_PAGE_CMD_GO.off := by unfold plainReg; decide

theorem writePageCmd_of_writable (hw : writable s o F.ERR_PAGE_CMD_GO.off v.toNat) (hgo : v.getLsbD 31 = true) :
    ∃ u, regsOnly s u o pageCmdKeys ∧ s.writePageCmd o v.toNat = u.pageCmd o v.toNat := by
  obtain ⟨u, hu, he, -⟩ := hostWrite_of_plainReg plainReg_pageCmd hw
  exact ⟨u, hu, by rw [State.writePageCmd, State.hostAction, he, if_pos ⟨rfl, (bitsOf_toNat v 31).2 hgo⟩]; rfl⟩

theorem writePageCmd_of_not_taken (x : Nat) (h : s.takesWrites o = false) : s.writePageCmd o x = s := by
  rw [State.writePageCmd, State.hostAction, hostWrite_of_not_taken _ _ _ _ h]
  exact if_neg fun hc => Bool.false_ne_true hc.1

theorem busy_pageCmd (hu : regsOnly s u o pageCmdKeys) : u.flag o F.ERR_PAGE_CMD_BUSY = s.flag o F.ERR_PAGE_CMD_BUSY := by
  rw [State.flag, State.flag, hu.rd (by decide) (by decide)]

/-- A change of registers leaves the spares and the stores of both offices. -/
theorem regsOnly.spares (hu : regsOnly s u o ks) (y : OfficeId) : (u.off y).spareOf = (s.off y).spareOf ∧ (u.off y).sto = (s.off y).sto := by
  obtain rfl | hy := eq_or_ne y o
  · exact ⟨hu.field Office.spareOf fun _ _ _ _ _ _ _ => rfl, hu.field Office.sto fun _ _ _ _ _ _ _ => rfl⟩
  · obtain ⟨d, rfl, -⟩ := hu
    rw [modOff_off_other _ hy]
    exact ⟨rfl, rfl⟩

theorem regsOnly.sparesTaken (hu : regsOnly s u o ks) (hk : F.SEC_BOOK_USE_ENTRIES.key 0 0 ∉ ks) (y : OfficeId) :
    u.sparesTaken o y = s.sparesTaken o y := by
  have hbook : u.book o = s.book o := by
    rw [State.book, State.book, hu.field Office.nvm fun _ _ _ _ _ _ _ => rfl, hu.rd hk (by decide)]
  rw [State.sparesTaken, State.sparesTaken, (hu.spares y).1, hbook]

/-- Whether and why a retirement is refused does not lie in the registers of the command. -/
theorem retireFault_pageCmd (hu : regsOnly s u o pageCmdKeys) (x : Nat) : u.retireFault o x = s.retireFault o x := by
  have howns : u.owns o = s.owns o := hu.owns (by decide)
  have hretired : ∀ y a p, (u.off y).pageRetired a p = (s.off y).pageRetired a p := fun y a p => by
    rw [Office.pageRetired, Office.pageRetired, (hu.spares y).1, (hu.spares y).2]
  have hfree : ∀ y a p, u.freeSpare o y a p = s.freeSpare o y a p := fun y a p => by
    rw [State.freeSpare, State.freeSpare, hu.sparesTaken (by decide)]
  simp only [State.retireFault, howns, hretired, hfree, hu.spares]

/-- A page command has been refused with `RESULT` = `res` (R691). -/
def pageRefused (s : State) (o : OfficeId) (x res : Nat) (u : State) : Prop :=
  u.rd o F.ERR_PAGE_RES_RESULT = res ∧ raised s u o 0x0F24 (le 4 x ++ le 1 res) ∧ (u.off o).arr = (s.off o).arr ∧
    (u.off o).spareOf = (s.off o).spareOf ∧ onlyOff s u o ∧ u.out = s.out

theorem refusePage_spec (hu : regsOnly s u o ks) (x : Nat) {res : Nat} (hres : res < 16) : pageRefused s o x res (u.refusePage o x res) := by
  let a := u.wr o F.ERR_PAGE_RES_RESULT res
  have ha : regsOnly u a o [F.ERR_PAGE_RES_RESULT.key 0 0] := wr_regsOnly _ _ _ _ rfl
  have hn : noticesOnly a (u.refusePage o x res) o := raise_noticesOnly _ _
  have hsa : regsOnly s a o (F.ERR_PAGE_RES_RESULT.key 0 0 :: ks) := (hu.mono fun _ h => List.mem_cons_of_mem _ h).trans (ha.mono (by simp))
  have hall : regsOnly s (u.refusePage o x res) o (F.ERR_PAGE_RES_RESULT.key 0 0 :: ks) := hsa.trans (hn.regsOnly _)
  refine ⟨?_, raised_of_keeps (u := a) (hsa.field Office.inReset fun _ _ _ _ _ _ _ => rfl) (hsa.field Office.count fun _ _ _ _ _ _ _ => rfl),
    hall.field Office.arr fun _ _ _ _ _ _ _ => rfl, hall.field Office.spareOf fun _ _ _ _ _ _ _ => rfl, hall.onlyOff, hall.out⟩
  rw [hn.rd (by decide), rd_wr_same]
  exact Nat.mod_eq_of_lt hres

theorem pageCmd_refused {res : Nat} (hw : writable s o F.ERR_PAGE_CMD_GO.off v.toNat) (hgo : v.getLsbD 31 = true) (hres : res < 16)
    (h : ∀ u, regsOnly s u o pageCmdKeys → u.pageCmd o v.toNat = u.refusePage o v.toNat res) :
    gives (.refresh o v) s (pageRefused s o v.toNat res) ∧ gives (.retire o v) s (pageRefused s o v.toNat res) := by
  obtain ⟨u, hu, he⟩ := writePageCmd_of_writable hw hgo
  have hx : s.writePageCmd o v.toNat = u.refusePage o v.toNat res := he.trans (h u hu)
  exact ⟨⟨_, congrArg Host.Outcome.next hx, refusePage_spec hu _ hres⟩, ⟨_, congrArg Host.Outcome.next hx, refusePage_spec hu _ hres⟩⟩

/-- A command goes on where none is under way and its page exists. -/
theorem pageCmd_free (hu : regsOnly s u o pageCmdKeys) (hb : s.flag o F.ERR_PAGE_CMD_BUSY = false)
    (hp : pageExists (v.toNat / 2 ^ 20 % 16) (v.toNat % 2 ^ 20) = true) : u.pageCmd o v.toNat =
      if v.toNat / 2 ^ 28 % 4 = 0 then u.startRefresh o v.toNat
      else if s.retireFault o v.toNat ≠ 0 then u.refusePage o v.toNat (s.retireFault o v.toNat) else u.startRetire o v.toNat := by
  have ha : bitsOf v.toNat 20 4 = v.toNat / 2 ^ 20 % 16 := rfl
  rw [State.pageCmd, busy_pageCmd hu, hb, if_neg Bool.false_ne_true, ha, bitsOf_low, hp, if_neg (by simp), retireFault_pageCmd hu]
  rfl

end Sys2Proof.Machine
end

section
/-! SUPPORT. Page commands that run (18 R488, R681, R682). -/

namespace Sys2Proof.Machine

variable {s u w : State} {o : OfficeId} {v : W32} {ks : List Nat}

/-- A refresh of an array 0x0 to 0x3 waits among the jobs between two rounds (R681). -/
theorem startRefresh_queues {x : Nat} (hu : regsOnly s u o ks) (ha : bitsOf x 20 4 ≤ 3) : let w := u.startRefresh o x
    w.rd o F.ERR_PAGE_CMD_BUSY = 1 ∧ (w.off o).mrg.jobs = (s.off o).mrg.jobs ++ [.refresh (bitsOf x 20 4) (bitsOf x 0 20)] ∧
      (w.off o).arr = (s.off o).arr ∧ onlyOff s w o ∧ w.out = s.out := by
  intro w
  let a := u.wr o F.ERR_PAGE_CMD_BUSY 1
  have ha' : regsOnly u a o [F.ERR_PAGE_CMD_BUSY.key 0 0] := wr_regsOnly _ _ _ _ rfl
  have hw : w = a.modOff o fun d => { d with mrg := { d.mrg with jobs := d.mrg.jobs ++ [.refresh (bitsOf x 20 4) (bitsOf x 0 20)] } } := if_pos ha
  have hd : w.off o = { a.off o with mrg := { (a.off o).mrg with jobs := (a.off o).mrg.jobs ++ [.refresh (bitsOf x 20 4) (bitsOf x 0 20)] } } := by
    rw [hw, modOff_off_same]
  have hsa : regsOnly s a o (F.ERR_PAGE_CMD_BUSY.key 0 0 :: ks) := (hu.mono fun _ h => List.mem_cons_of_mem _ h).trans (ha'.mono (by simp))
  refine ⟨?_, ?_, ?_, onlyOff_trans hsa.onlyOff (hw ▸ modOff_onlyOff _), ?_⟩
  · rw [rd_of_regs (v := a) (by rw [hd]) rfl, rd_wr_same]
    rfl
  · rw [hd, hsa.field Office.mrg fun _ _ _ _ _ _ _ => rfl]
  · rw [hd]
    exact hsa.field Office.arr fun _ _ _ _ _ _ _ => rfl
  · rw [hw]
    exact hsa.out

theorem refreshWord_arraysOnly (a x : Nat) (acc : Nat × Nat × Option Nat) : arraysOnly s (s.refreshWord o a x acc).1 o := by
  unfold State.refreshWord
  split
  · exact arraysOnly_refl s o
  · exact arraysOnly_trans (arrTouch_arraysOnly _ _) (modOff_arraysOnly _ fun _ => rfl)
  · exact arrTouch_arraysOnly _ _

theorem refreshWords_arraysOnly (a : Nat) (l : List Nat) (acc : Nat × Nat × Option Nat) (s : State) :
    arraysOnly s (l.foldl (fun (x : State × (Nat × Nat × Option Nat)) k => x.1.refreshWord o a k x.2) (s, acc)).1 o := by
  induction l generalizing s acc with
  | nil => exact arraysOnly_refl s o
  | cons k ks ih => exact arraysOnly_trans (refreshWord_arraysOnly a k acc) (ih _ _)

theorem freePage_arraysOnly (a page : Nat) : arraysOnly s (s.freePage o a page) o := by
  refine foldl_arraysOnly _ (fun s k => ?_) _ s
  split
  · exact freeTracker_arraysOnly k
  · exact arraysOnly_refl s o

/-- The end of a page command: `BUSY` and the result (R691). -/
theorem pageResult_spec (result repaired poisoned : Nat) : let w := s.pageResult o result repaired poisoned
    arraysOnly s w o ∧ w.rd o F.ERR_PAGE_CMD_BUSY = 0 ∧ w.rd o F.ERR_PAGE_RES_RESULT = result % 16 := by
  intro w
  refine ⟨?_, ?_, ?_⟩
  · exact arraysOnly_trans (arraysOnly_trans (arraysOnly_trans (wr_arraysOnly _ _ _ _ rfl (by decide)) (wr_arraysOnly _ _ _ _ rfl (by decide)))
      (wr_arraysOnly _ _ _ _ rfl (by decide))) (wr_arraysOnly _ _ _ _ rfl (by decide))
  · change (s.pageResult o result repaired poisoned).rd o F.ERR_PAGE_CMD_BUSY = 0
    rw [State.pageResult, rd_wr_other _ _ _ _ _ _ _ (by decide), rd_wr_other _ _ _ _ _ _ _ (by decide),
      rd_wr_other _ _ _ _ _ _ _ (by decide), rd_wr_same]
    rfl
  · change (s.pageResult o result repaired poisoned).rd o F.ERR_PAGE_RES_RESULT = _
    rw [State.pageResult, rd_wr_other _ _ _ _ _ _ _ (by decide), rd_wr_other _ _ _ _ _ _ _ (by decide), rd_wr_same]
    rfl

/-- A refresh at once: the words read and rewritten, and the result shown (R681). -/
theorem refreshPage_spec (s : State) (o : OfficeId) (a page : Nat) : let w := s.refreshPage o a page
    arraysOnly s w o ∧ w.rd o F.ERR_PAGE_CMD_BUSY = 0 ∧ w.rd o F.ERR_PAGE_RES_RESULT = 0 := by
  intro w
  let r := (pageRange a page).foldl (fun (x : State × (Nat × Nat × Option Nat)) k => x.1.refreshWord o a k x.2) (s, (0, 0, none))
  let b := (r.1.freePage o a page).pageResult o 0 r.2.1 r.2.2.1
  obtain ⟨hb, hbusy, hres⟩ := pageResult_spec (s := r.1.freePage o a page) (o := o) 0 r.2.1 r.2.2.1
  have hsb : arraysOnly s b o := arraysOnly_trans (arraysOnly_trans (refreshWords_arraysOnly a _ _ s) (freePage_arraysOnly a page)) hb
  have hbw : noticesOnly b w o := by
    refine noticesOnly_trans (u := match r.2.2.2 with
      | some x => b.raise o 0x0F21 (le 1 a ++ le 4 x)
      | none => b) ?_ (raise_noticesOnly _ _)
    split
    · exact raise_noticesOnly _ _
    · exact noticesOnly_refl b o
  exact ⟨arraysOnly_trans hsb hbw.arraysOnly, (hbw.rd (by decide)).trans hbusy, (hbw.rd (by decide)).trans hres⟩

/-- A retirement waits while the NVM window is closed (R488). -/
theorem startRetire_waits (hu : regsOnly s u o ks) (x : Nat) (hn : u.nvmOpen o = false) : let w := u.startRetire o x
    w.rd o F.ERR_PAGE_CMD_BUSY = 1 ∧ (w.off o).pageWait = some (x, s.now) ∧ (w.off o).nvm = (s.off o).nvm ∧ (w.off o).arr = (s.off o).arr ∧
      onlyOff s w o ∧ w.out = s.out := by
  intro w
  let a := u.wr o F.ERR_PAGE_CMD_BUSY 1
  let b := (a.draw 8).2.raise o 0x0911 [BitVec.ofNat 8 (a.draw 8).1, 0]
  have ha : regsOnly u a o [F.ERR_PAGE_CMD_BUSY.key 0 0] := wr_regsOnly _ _ _ _ rfl
  have hb : noticesOnly (a.draw 8).2 b o := raise_noticesOnly _ _
  have hna : a.nvmOpen o = false := by
    rw [← hn, State.nvmOpen, State.nvmOpen, State.flag, State.flag, ha.rd (by decide) (by decide)]
  have hw : w = b.modOff o fun d => { d with pageWait := some (x, a.now) } :=
    if_neg fun h => Bool.false_ne_true (hna.symm.trans h)
  have hd : w.off o = { b.off o with pageWait := some (x, a.now) } := by rw [hw, modOff_off_same]
  have hsa : regsOnly s a o (F.ERR_PAGE_CMD_BUSY.key 0 0 :: ks) := (hu.mono fun _ h => List.mem_cons_of_mem _ h).trans (ha.mono (by simp))
  have hoff : onlyOff s b o := onlyOff_trans hsa.onlyOff (onlyOff_trans ⟨rfl, rfl, rfl, rfl, rfl⟩ hb.onlyOff)
  refine ⟨?_, ?_, ?_, ?_, onlyOff_trans hoff (hw ▸ modOff_onlyOff _), ?_⟩
  · rw [rd_of_regs (v := b) (by rw [hd]) rfl, hb.rd (by decide)]
    exact rd_wr_same (s := u) F.ERR_PAGE_CMD_BUSY 1 0 0
  · rw [hd, hsa.now]
  · rw [hd]
    exact (hb.field Office.nvm fun _ _ _ _ _ _ => rfl).trans (hsa.field Office.nvm fun _ _ _ _ _ _ _ => rfl)
  · rw [hd]
    exact (hb.field Office.arr fun _ _ _ _ _ _ => rfl).trans (hsa.field Office.arr fun _ _ _ _ _ _ _ => rfl)
  · rw [hw]
    exact hb.out.trans hsa.out

end Sys2Proof.Machine
end

section
/-! SUPPORT. Check-bit test mode (18 R683, R692). -/

namespace Sys2Proof.Machine

variable {s u w : State} {o : OfficeId} {v : W32} {c : Instr} {ks : List Nat} {a x : Nat}

/-- A command that writes `ERR_CBT_CTL`. -/
def cbtCommand (c : Instr) (o : OfficeId) (v : W32) : Prop := c = .cbtEnable o v ∨ c = .cbtData o v ∨ c = .cbtCheck o v ∨ c = .cbtRead o v

theorem exec_cbtCommand (hc : cbtCommand c o v) (s : State) : exec c s = .next (s.writeCbtCtl o v.toNat) := by
  obtain rfl | rfl | rfl | rfl := hc <;> rfl

/-- The registers and the notice of a write of `ERR_CBT_CTL` that has gone through, before its operation (R683). -/
def State.cbtSwitched (s : State) (o : OfficeId) (was : Bool) : State :=
  if s.flag o F.ERR_CBT_CTL_EN = was then s else s.cbtNotice o (b2n was)

/-- The keys of the fields of `ERR_CBT_CTL`. -/
def cbtCtlKeys : List Nat := writeKeys (fieldsAt F.ERR_CBT_CTL_EN.off)

theorem plainReg_cbtCtl : plainReg F.ERR_CBT_CTL_EN.off := by unfold plainReg; decide

/-- A write that sets `EN` outside Standby is refused (R683). -/
theorem writeCbtCtl_outside (hw : writable s o F.ERR_CBT_CTL_EN.off v.toNat) (h31 : v.getLsbD 31 = true) (hm : s.mode o ≠ .standby) :
    s.writeCbtCtl o v.toNat = (s.journal o F.ERR_CBT_CTL_EN.off v.toNat false).cbtNotice o 2 :=
  if_pos ⟨hw.1, (bitsOf_toNat v 31).2 h31, hm⟩

/-- A write that is taken holds the values of its fields, tells of a change of `EN`, and starts its operation with `GO` (R683). -/
theorem writeCbtCtl_of_writable (hw : writable s o F.ERR_CBT_CTL_EN.off v.toNat) (hm : v.getLsbD 31 = false ∨ s.mode o = .standby) :
    ∃ u, regsOnly s u o cbtCtlKeys ∧ u.flag o F.ERR_CBT_CTL_EN = v.getLsbD 31 ∧ u.rd o F.ERR_CBT_CTL_OP = v.toNat / 2 ^ 28 % 4 ∧
      u.rd o F.ERR_CBT_CTL_ARRAY = v.toNat / 2 ^ 24 % 16 ∧ s.writeCbtCtl o v.toNat = if v.getLsbD 30 then
        (u.cbtSwitched o (s.flag o F.ERR_CBT_CTL_EN)).cbtOperate o else u.cbtSwitched o (s.flag o F.ERR_CBT_CTL_EN) := by
  obtain ⟨u, hu, he, hrw⟩ := hostWrite_of_plainReg plainReg_cbtCtl hw
  refine ⟨u, hu, ?_, hrw (F.ERR_CBT_CTL_OP, 0, 0) (by decide) rfl, hrw (F.ERR_CBT_CTL_ARRAY, 0, 0) (by decide) rfl, ?_⟩
  · rw [State.flag, hrw (F.ERR_CBT_CTL_EN, 0, 0) (by decide) rfl]
    have hbit := bitsOf_toNat v 31
    have hpart : F.ERR_CBT_CTL_EN.part v.toNat = bitsOf v.toNat 31 1 := rfl
    have hlt : bitsOf v.toNat 31 1 < 2 := Nat.mod_lt _ (by decide)
    rw [hpart, Bool.eq_iff_iff, ← hbit, decide_eq_true_iff]
    omega
  · have hin : ¬ (s.takesWrites o = true ∧ bitsOf v.toNat 31 1 = 1 ∧ s.mode o ≠ .standby) := by
      rintro ⟨-, h1, h2⟩
      exact hm.elim (fun h => Bool.false_ne_true (h.symm.trans ((bitsOf_toNat v 31).1 h1))) h2
    unfold State.writeCbtCtl
    rw [if_neg hin, he]
    simp only [bitsOf_toNat]
    rfl

/-- `ERR_CBT_CTL` has been written, and at most a notice of the change has been raised. -/
theorem cbtSwitched_spec (hu : regsOnly s u o cbtCtlKeys) (was : Bool) : let w := u.cbtSwitched o was
    regsOnly s w o cbtCtlKeys ∧ noticesOnly u w o ∧ (was ≠ u.flag o F.ERR_CBT_CTL_EN → raised s w o 0x0F26 (le 1 (b2n was))) := by
  intro w
  by_cases h : u.flag o F.ERR_CBT_CTL_EN = was
  · rw [show w = u from if_pos h]
    exact ⟨hu, noticesOnly_refl u o, fun hne => absurd h.symm hne⟩
  · have hw : w = u.cbtNotice o (b2n was) := if_neg h
    rw [hw]
    have hn : noticesOnly u (u.cbtNotice o (b2n was)) o := raise_noticesOnly _ _
    exact ⟨hu.trans (hn.regsOnly _), hn, fun _ => raised_of_keeps (u := u) (hu.field Office.inReset fun _ _ _ _ _ _ _ => rfl)
      (hu.field Office.count fun _ _ _ _ _ _ _ => rfl)⟩

/-- No word changes, and nothing but office `o` does. -/
def wordsKept (s u : State) (o : OfficeId) : Prop :=
  (u.off o).arr = (s.off o).arr ∧ (u.off o).syn = (s.off o).syn ∧ onlyOff s u o ∧ u.out = s.out

theorem regsOnly.wordsKept (h : regsOnly s u o ks) : wordsKept s u o :=
  ⟨h.field Office.arr fun _ _ _ _ _ _ _ => rfl, h.field Office.syn fun _ _ _ _ _ _ _ => rfl, h.onlyOff, h.out⟩

/-- An operation is refused (R683). -/
theorem cbtNotice_refuses (hu : regsOnly s u o ks) : raised s (u.cbtNotice o 2) o 0x0F26 (le 1 2) ∧ wordsKept s (u.cbtNotice o 2) o :=
  ⟨raised_of_keeps (u := u) (hu.field Office.inReset fun _ _ _ _ _ _ _ => rfl) (hu.field Office.count fun _ _ _ _ _ _ _ => rfl),
    (hu.trans ((raise_noticesOnly _ _).regsOnly _)).wordsKept⟩

/-! ### The operations -/

theorem place_of_spares {d e : Office} (h : e.spareOf = d.spareOf) : e.place a x = d.place a x := by rw [Office.place, Office.place, h]

theorem arrSyn_putWord (data syn : Nat) :
    ((s.putWord o ((s.off o).place a x).1 ((s.off o).place a x).2 data syn).off o).arrSyn a x = syn := by
  rw [putWord_off]
  exact Sparse.get_set_same 0 _ _ _

/-- A word has been written with its check byte; no other word differs. -/
theorem putWord_spec (hu : regsOnly s u o ks) (data syn : Nat) : let p := (s.off o).place a x; let w := u.putWord o p.1 p.2 data syn
    (w.off o).arrData a x = data % 2 ^ 64 ∧ (w.off o).arrSyn a x = syn ∧
      (∀ y, y ≠ arrKey p.1 p.2 → Sparse.get 0 (w.off o).arr y = Sparse.get 0 (s.off o).arr y) ∧ onlyOff s w o ∧ w.out = s.out := by
  intro p w
  have hd : w.off o = { u.off o with
      arr := Sparse.set 0 (u.off o).arr (arrKey p.1 p.2) (data % 2 ^ 64), syn := Sparse.set 0 (u.off o).syn (arrKey p.1 p.2) syn } := putWord_off ..
  have harr := hu.field Office.arr fun _ _ _ _ _ _ _ => rfl
  have hplace : (u.off o).place a x = p := place_of_spares (hu.field Office.spareOf fun _ _ _ _ _ _ _ => rfl)
  refine ⟨?_, ?_, fun y hy => ?_, onlyOff_trans hu.onlyOff (modOff_onlyOff _), hu.out⟩
  · have h := arrData_putWord (s := u) (o := o) (a := a) (w := x) data syn
    rwa [hplace] at h
  · have h := arrSyn_putWord (s := u) (o := o) (a := a) (x := x) data syn
    rwa [hplace] at h
  · rw [hd, ← harr]
    exact Sparse.get_set_other 0 _ _ hy

/-- An operation on a word that exists, in test mode, by `OP`. -/
theorem cbtOperate_runs {k n : Nat} (he : s.flag o F.ERR_CBT_CTL_EN = true) (ha : s.rd o F.ERR_CBT_CTL_ARRAY = k)
    (hx : s.rd o F.ERR_CBT_ADDR_WORD = n) (hwd : wordExists k n = true) :
    (s.rd o F.ERR_CBT_CTL_OP = 0 → s.cbtOperate o = s.cbtWrite o k n) ∧ (s.rd o F.ERR_CBT_CTL_OP = 1 → s.cbtOperate o = s.cbtSetCheck o k n) ∧
      (s.rd o F.ERR_CBT_CTL_OP = 2 → s.cbtOperate o = s.cbtFetch o k n) := by
  refine ⟨fun h => ?_, fun h => ?_, fun h => ?_⟩ <;> simp [State.cbtOperate, he, ha, hx, hwd, h]

theorem cbtOperate_disabled (he : s.flag o F.ERR_CBT_CTL_EN = false) : s.cbtOperate o = s.cbtNotice o 2 := if_pos (.inl he)

/-- What READ shows of a word outside stream histories and staging (R683, R692). -/
theorem cbtFetch_spec (hu : regsOnly s u o ks) {k n : Nat} (h4 : k ≠ 4) (h6 : k ≠ 6) : let w := u.cbtFetch o k n; let d := s.off o
    w.rdPair o F.ERR_CBT_DATA_LO_DATA_L F.ERR_CBT_DATA_HI_DATA_H = d.arrData k n % 2 ^ 64 ∧
      w.rd o F.ERR_CBT_CHECK_CHECK = (d.arrSyn k n ^^^ checkByte (d.arrData k n)) % 256 ∧
      w.rd o F.ERR_CBT_CHECK_CLASS = (d.arrClass k n).code ∧ wordsKept s w o := by
  intro w d
  have hplace : (u.off o).place k n = d.place k n := place_of_spares (hu.field Office.spareOf fun _ _ _ _ _ _ _ => rfl)
  have hdata : (u.off o).arrData k n = d.arrData k n := by
    rw [Office.arrData, Office.arrData, hplace, hu.field Office.arr fun _ _ _ _ _ _ _ => rfl]
  have hsyn : (u.off o).arrSyn k n = d.arrSyn k n := by
    rw [Office.arrSyn, Office.arrSyn, hplace, hu.field Office.syn fun _ _ _ _ _ _ _ => rfl]
  have hcls : (u.off o).arrClass k n = d.arrClass k n := by rw [Office.arrClass, Office.arrClass, hdata, hsyn]
  let b := u.wrPair o F.ERR_CBT_DATA_LO_DATA_L F.ERR_CBT_DATA_HI_DATA_H (d.arrData k n)
  have hw : w = (b.wr o F.ERR_CBT_CHECK_CHECK (d.arrSyn k n ^^^ checkByte (d.arrData k n))).wr o F.ERR_CBT_CHECK_CLASS (d.arrClass k n).code := by
    change u.cbtFetch o k n = _
    simp [State.cbtFetch, h4, h6, hdata, hsyn, hcls, b]
  have hkeys : regsOnly s w o (F.ERR_CBT_DATA_LO_DATA_L.key 0 0 :: F.ERR_CBT_DATA_HI_DATA_H.key 0 0 :: F.ERR_CBT_CHECK_CHECK.key 0 0 ::
      F.ERR_CBT_CHECK_CLASS.key 0 0 :: ks) := by
    rw [hw]
    refine regsOnly.trans (regsOnly.trans (regsOnly.trans (regsOnly.trans (hu.mono fun y hy => by simp [hy])
      ((wr_regsOnly _ _ _ _ rfl).mono (by simp))) ((wr_regsOnly _ _ _ _ rfl).mono (by simp))) ((wr_regsOnly _ _ _ _ rfl).mono (by simp)))
      ((wr_regsOnly _ _ _ _ rfl).mono (by simp))
  refine ⟨?_, ?_, ?_, hkeys.wordsKept⟩
  · rw [hw, State.rdPair, rd_wr_other _ _ _ _ _ _ _ (by decide), rd_wr_other _ _ _ _ _ _ _ (by decide),
      rd_wr_other _ _ _ _ _ _ _ (by decide), rd_wr_other _ _ _ _ _ _ _ (by decide)]
    simp only [b, State.wrPair]
    rw [rd_wr_other _ _ _ _ _ _ _ (by decide), rd_wr_same, rd_wr_same]
    simp only [F.ERR_CBT_DATA_LO_DATA_L, F.ERR_CBT_DATA_HI_DATA_H, mkF]
    omega
  · rw [hw, rd_wr_other _ _ _ _ _ _ _ (by decide), rd_wr_same]
    rfl
  · rw [hw, rd_wr_same]
    cases d.arrClass k n <;> rfl

end Sys2Proof.Machine
end

section
/-! SUPPORT. The clauses of check-bit test mode, the end of an escalation window, and host reads of arrays (18 R677 to R684). -/

namespace Sys2Proof.Machine

variable {s u w : State} {o : OfficeId} {v : W32} {c : Instr} {ks : List Nat}

/-! ### Check-bit test mode (R683) -/

theorem noticesOnly.flag (h : noticesOnly s u o) {f : Fld} {i j : Nat} (hk : f.key i j ∉ noticeKeys) : u.flag o f i j = s.flag o f i j := by
  rw [State.flag, State.flag, h.rd hk]

/-- An operation that a write of `ERR_CBT_CTL` starts, on what the write has left. -/
theorem cbtCommand_operates (hc : cbtCommand c o v) (hw : writable s o F.ERR_CBT_CTL_EN.off v.toNat)
    (hm : v.getLsbD 31 = false ∨ s.mode o = .standby) (h30 : v.getLsbD 30 = true) :
    ∃ u, regsOnly s u o cbtCtlKeys ∧ u.flag o F.ERR_CBT_CTL_EN = v.getLsbD 31 ∧ u.rd o F.ERR_CBT_CTL_OP = v.toNat / 2 ^ 28 % 4 ∧
      u.rd o F.ERR_CBT_CTL_ARRAY = v.toNat / 2 ^ 24 % 16 ∧ exec c s = .next (u.cbtOperate o) := by
  obtain ⟨u, hu, hen, hop, harr, he⟩ := writeCbtCtl_of_writable hw hm
  obtain ⟨hsu, hn, -⟩ := cbtSwitched_spec hu (s.flag o F.ERR_CBT_CTL_EN)
  refine ⟨u.cbtSwitched o (s.flag o F.ERR_CBT_CTL_EN), hsu, ?_, (hn.rd (by decide)).trans hop, (hn.rd (by decide)).trans harr, ?_⟩
  · exact (hn.flag (by decide)).trans hen
  · rw [exec_cbtCommand hc, he, h30]
    rfl

theorem cbtCommand_outside (hc : cbtCommand c o v) (hw : writable s o F.ERR_CBT_CTL_EN.off v.toNat) (h31 : v.getLsbD 31 = true)
    (hm : s.mode o ≠ .standby) : gives c s fun u => u.flag o F.ERR_CBT_CTL_EN = s.flag o F.ERR_CBT_CTL_EN ∧ raised s u o 0x0F26 (le 1 2) ∧
      wordsKept s u o ∧ regsKept s u o [] := by
  have hj : noticesOnly s (s.journal o F.ERR_CBT_CTL_EN.off v.toNat false) o := raise_noticesOnly _ _
  have hall : noticesOnly s ((s.journal o F.ERR_CBT_CTL_EN.off v.toNat false).cbtNotice o 2) o := noticesOnly_trans hj (raise_noticesOnly _ _)
  refine ⟨_, (exec_cbtCommand hc s).trans (congrArg Host.Outcome.next (writeCbtCtl_outside hw h31 hm)), hall.flag (by decide), raise_raised hj,
    (hall.regsOnly []).wordsKept, hall.regsKept []⟩

theorem cbtCommand_switches (hc : cbtCommand c o v) (hw : writable s o F.ERR_CBT_CTL_EN.off v.toNat)
    (hm : v.getLsbD 31 = false ∨ s.mode o = .standby) (h30 : v.getLsbD 30 = false) :
    gives c s fun u => u.flag o F.ERR_CBT_CTL_EN = v.getLsbD 31 ∧
      (s.flag o F.ERR_CBT_CTL_EN ≠ v.getLsbD 31 → raised s u o 0x0F26 (le 1 (b2n (s.flag o F.ERR_CBT_CTL_EN)))) ∧ wordsKept s u o := by
  obtain ⟨u, hu, hen, -, -, he⟩ := writeCbtCtl_of_writable hw hm
  obtain ⟨hsu, hn, hraised⟩ := cbtSwitched_spec hu (s.flag o F.ERR_CBT_CTL_EN)
  rw [h30] at he
  refine ⟨_, (exec_cbtCommand hc s).trans (congrArg Host.Outcome.next he), (hn.flag (by decide)).trans hen,
    fun hne => hraised (hen ▸ hne), hsu.wordsKept⟩

theorem cbtCommand_disabled (hc : cbtCommand c o v) (hw : writable s o F.ERR_CBT_CTL_EN.off v.toNat) (h31 : v.getLsbD 31 = false)
    (h30 : v.getLsbD 30 = true) : gives c s fun u => raised s u o 0x0F26 (le 1 2) ∧ wordsKept s u o := by
  obtain ⟨u, hu, hen, -, -, he⟩ := cbtCommand_operates hc hw (.inl h31) h30
  rw [cbtOperate_disabled (hen.trans h31)] at he
  exact ⟨_, he, cbtNotice_refuses hu⟩

/-- An operation on a word that exists in test mode, by its code. -/
theorem cbtCommand_runs {k n : Nat} (hc : cbtCommand c o v) (hw : writable s o F.ERR_CBT_CTL_EN.off v.toNat) (h31 : v.getLsbD 31 = true)
    (h30 : v.getLsbD 30 = true) (hm : s.mode o = .standby) (hk : v.toNat / 2 ^ 24 % 16 = k) (hn : s.rd o F.ERR_CBT_ADDR_WORD = n)
    (hx : wordExists k n = true) : ∃ u, regsOnly s u o cbtCtlKeys ∧
      (v.toNat / 2 ^ 28 % 4 = 0 → exec c s = .next (u.cbtWrite o k n)) ∧ (v.toNat / 2 ^ 28 % 4 = 1 → exec c s = .next (u.cbtSetCheck o k n)) ∧
      (v.toNat / 2 ^ 28 % 4 = 2 → exec c s = .next (u.cbtFetch o k n)) := by
  obtain ⟨u, hu, hen, hop, harr, he⟩ := cbtCommand_operates hc hw (.inr hm) h30
  obtain ⟨h0, h1, h2⟩ := cbtOperate_runs (hen.trans h31) (harr.trans hk) ((hu.rd (by decide) (by decide)).trans hn) hx
  rw [hop] at h0 h1 h2
  exact ⟨u, hu, fun h => he.trans (congrArg _ (h0 h)), fun h => he.trans (congrArg _ (h1 h)), fun h => he.trans (congrArg _ (h2 h))⟩

theorem rdPair_cbtData (hu : regsOnly s u o cbtCtlKeys) : u.rdPair o F.ERR_CBT_DATA_LO_DATA_L F.ERR_CBT_DATA_HI_DATA_H =
    s.rdPair o F.ERR_CBT_DATA_LO_DATA_L F.ERR_CBT_DATA_HI_DATA_H := by
  rw [State.rdPair, State.rdPair, hu.rd (by decide) (by decide), hu.rd (by decide) (by decide)]

theorem cbtTarget_of_regs (hu : regsOnly s u o cbtCtlKeys) (k n : Nat) : u.cbtTarget o k n = s.cbtTarget o k n := by
  rw [State.cbtTarget, State.cbtTarget, hu.sparesTaken (by decide)]

/-- DATA may write words that lie where they are named: of staging and of spare pages. -/
theorem place_of_cbtTarget {k n : Nat} (h : s.cbtTarget o k n = true) (d : Office) : d.place k n = (k, n) := by
  refine if_neg fun hk => ?_
  simp [State.cbtTarget, hk] at h

/-- DATA writes a word of staging or of a free spare page, with the check byte of the registers (R683). -/
theorem cbtWrite_spec {k n : Nat} (hu : regsOnly s u o cbtCtlKeys) (ht : s.cbtTarget o k n = true) :
    let w := u.cbtWrite o k n; let data := s.rdPair o F.ERR_CBT_DATA_LO_DATA_L F.ERR_CBT_DATA_HI_DATA_H
    (w.off o).arrData k n = data % 2 ^ 64 ∧ (w.off o).arrSyn k n = s.rd o F.ERR_CBT_CHECK_CHECK ^^^ checkByte data ∧
      (∀ y, y ≠ arrKey k n → Sparse.get 0 (w.off o).arr y = Sparse.get 0 (s.off o).arr y) ∧ onlyOff s w o ∧ w.out = s.out := by
  intro w data
  have hw : w = u.putWord o k n data (s.rd o F.ERR_CBT_CHECK_CHECK ^^^ checkByte data) := by
    change u.cbtWrite o k n = _
    rw [State.cbtWrite, cbtTarget_of_regs hu, if_pos ht, rdPair_cbtData hu, hu.rd (by decide) (by decide)]
  have h := putWord_spec (a := k) (x := n) hu data (s.rd o F.ERR_CBT_CHECK_CHECK ^^^ checkByte data)
  rw [place_of_cbtTarget ht] at h
  rw [hw]
  exact h

theorem cbtWrite_refused {k n : Nat} (hu : regsOnly s u o cbtCtlKeys) (ht : s.cbtTarget o k n = false) :
    u.cbtWrite o k n = u.cbtNotice o 2 := by
  rw [State.cbtWrite, cbtTarget_of_regs hu, ht]
  rfl

/-- CHECK writes the check byte of a word and leaves its data (R683). -/
theorem cbtSetCheck_spec {k n : Nat} (hu : regsOnly s u o cbtCtlKeys) : let w := u.cbtSetCheck o k n; let d := s.off o
    (w.off o).arrData k n = d.arrData k n % 2 ^ 64 ∧ (w.off o).arrSyn k n = s.rd o F.ERR_CBT_CHECK_CHECK ^^^ checkByte (d.arrData k n) ∧
      onlyOff s w o ∧ w.out = s.out := by
  intro w d
  have hplace : (u.off o).place k n = d.place k n := place_of_spares (hu.spares o).1
  have hdata : (u.off o).arrData k n = d.arrData k n := by
    rw [Office.arrData, Office.arrData, hplace, hu.field Office.arr fun _ _ _ _ _ _ _ => rfl]
  have hw : w = u.putWord o (d.place k n).1 (d.place k n).2 (d.arrData k n) (s.rd o F.ERR_CBT_CHECK_CHECK ^^^ checkByte (d.arrData k n)) := by
    change u.cbtSetCheck o k n = _
    rw [State.cbtSetCheck, hplace, hdata, hu.rd (by decide) (by decide)]
  obtain ⟨h1, h2, -, hoff, hout⟩ := putWord_spec (a := k) (x := n) hu (d.arrData k n) (s.rd o F.ERR_CBT_CHECK_CHECK ^^^ checkByte (d.arrData k n))
  rw [hw]
  exact ⟨h1, h2, hoff, hout⟩

/-! ### Escalation windows (R684) -/

/-- The next escalation window begins, and the events of the last are forgotten. -/
def Office.nextWindow (d : Office) (len : Nat) : Office :=
  { d with escAt := d.escAt + len, ueWindow := [], resDrops := 0, resRetries := 0, vFails := 0 }

theorem checkEngines_regsOnly (s : State) (o : OfficeId) :
    regsOnly s (s.checkEngines o) o [F.TWN_HEALTH_ARITH.key 0 0, F.TWN_STAT_HEALTHY.key 0 0] := by
  unfold State.checkEngines
  dsimp only
  split
  · exact trip_regsOnly _ _ _ _ rfl
  · exact regsOnly_refl s o _

theorem escalationWindowEnd_early (h : ¬ ((s.off o).inReset = false ∧ (s.off o).escAt + s.escWindow o ≤ s.now)) :
    exec (.escalationWindowEnd o) s = .next s := by
  refine congrArg Host.Outcome.next (if_pos ?_)
  rw [not_and, Nat.not_le] at h
  cases hr : (s.off o).inReset with
  | true => exact .inl rfl
  | false => exact .inr (h hr)

theorem escalationWindowEnd_spec (hr : (s.off o).inReset = false) (ht : (s.off o).escAt + s.escWindow o ≤ s.now) :
    gives (.escalationWindowEnd o) s fun u => (u.off o).escAt = (s.off o).escAt + s.escWindow o ∧ (u.off o).ueWindow = [] ∧
      (u.off o).resDrops = 0 ∧ (u.off o).resRetries = 0 ∧ (u.off o).vFails = 0 ∧ (onlyOff s u o ∧ u.out = s.out) ∧
      regsKept s u o [F.TWN_HEALTH_ARITH.key 0 0, F.TWN_STAT_HEALTHY.key 0 0] := by
  let b := s.modOff o fun d => d.nextWindow (s.escWindow o)
  have hb : b.off o = (s.off o).nextWindow (s.escWindow o) := modOff_off_same _
  have hc := checkEngines_regsOnly b o
  have hwindow := hc.field (fun d => (d.escAt, d.ueWindow, d.resDrops, d.resRetries, d.vFails)) fun _ _ _ _ _ _ _ => rfl
  simp only [hb, Office.nextWindow, Prod.mk.injEq] at hwindow
  obtain ⟨hat, hue, hdrops, hretries, hfails⟩ := hwindow
  refine ⟨b.checkEngines o, congrArg Host.Outcome.next (if_neg ?_), hat, hue, hdrops, hretries, hfails,
    ⟨onlyOff_trans (modOff_onlyOff _) hc.onlyOff, hc.out⟩, fun k hk hn => ?_⟩
  · rw [hr]
    rintro (h | h)
    · exact Bool.false_ne_true h
    · exact absurd ht (Nat.not_le.2 h)
  · rw [hc.regsKept k hk hn, hb]
    rfl

/-! ### Host reads of arrays (R677, R678) -/

theorem arrayHostRead_refused {addr : BitVec 26} (h : arrayAt addr.toNat = none ∨ addr.toNat % 4 ≠ 0 ∨ (s.off o).inReset = true ∨
    (s.off o).d3hot = true) : exec (.arrayHostRead o addr) s = .next s := by
  refine congrArg Host.Outcome.next ?_
  obtain h | h | h := h
  · exact if_neg fun hc => by simp [h] at hc
  · exact if_neg fun hc => h hc.2
  · rw [hostRead_of_dead h, ite_self]

theorem freshen_array {n : Nat} {p : Nat × Nat} (hp : arrayAt n = some p) : s.freshen n = s := by
  have h : ∀ m, arrayAt m = none → n ≠ m := fun m hm he => by simp [he ▸ hp] at hm
  rw [State.freshen, if_neg (h _ (by decide)), if_neg (h _ (by decide))]

/-- What a host read of an array word leaves before its answer: the word used, and where it is the low half of a pair, latched. -/
theorem hostRead_array {n : Nat} {p : Nat × Nat} (hp : arrayAt n = some p) (hr : (s.off o).inReset = false) (hd : (s.off o).d3hot = false)
    (ha : s.answersRead o n = true) (hl : (s.off o).fromLatch n = false) :
    ∃ u, onlyOff s u o ∧ u.out = s.out ∧ s.hostRead o n = u.answer o n (s.readRaw o n).1 (s.readRaw o n).2 := by
  let a := (s.pcieIn o (tlpWords 0)).arrUse o p.1 p.2
  have hpa : onlyOff s a o ∧ a.out = s.out :=
    have h : arraysOnly s a o := arraysOnly_trans (pcieIn_noticesOnly _).arraysOnly (arrUse_arraysOnly _ _)
    ⟨h.1.1, h.1.2.1⟩
  refine ⟨if isPairLow n then a.takeLatch o n else a, ?_, ?_, ?_⟩
  · obtain ⟨-, ⟨-, hlatch⟩, -⟩ := takeLatch_off (s := a) (o := o) n
    split
    · exact onlyOff_trans hpa.1 hlatch
    · exact hpa.1
  · obtain ⟨-, -, hlatch, -⟩ := takeLatch_off (s := a) (o := o) n
    split
    · exact hlatch.trans hpa.2
    · exact hpa.2
  · have hdead : ¬ ((s.off o).inReset = true ∨ (s.off o).d3hot = true) := by simp [hr, hd]
    rw [State.hostRead, if_neg hdead, if_neg (by simp [ha]), if_neg (by simp [hl])]
    dsimp only
    rw [freshen_array hp, readRaw_pcieIn, hp]

theorem answer_poisoned_out (n x : Nat) : (s.answer o n x true).out = .completion o [BitVec.ofNat 32 x] true :: s.out := by
  unfold State.answer
  rfl

theorem arrayHostRead_runs {addr : BitVec 26} {p : Nat × Nat} (hp : arrayAt addr.toNat = some p) (h4 : addr.toNat % 4 = 0) :
    exec (.arrayHostRead o addr) s = .next (s.hostRead o addr.toNat) := congrArg Host.Outcome.next (if_pos ⟨by rw [hp]; rfl, h4⟩)

theorem arrayHostRead_poisoned {addr : BitVec 26} {p : Nat × Nat} (hp : arrayAt addr.toNat = some p) (h4 : addr.toNat % 4 = 0)
    (hr : (s.off o).inReset = false) (hd : (s.off o).d3hot = false) (ha : s.answersRead o addr.toNat = true)
    (hl : (s.off o).fromLatch addr.toNat = false) (hc : (s.off o).arrClass p.1 p.2 = .uncorrectable) :
    gives (.arrayHostRead o addr) s fun u => u.out = .completion o [0xFFFFFFFF] true :: s.out ∧ onlyOff s u o := by
  obtain ⟨u, hu, hout, he⟩ := hostRead_array hp hr hd ha hl
  have hraw : s.readRaw o addr.toNat = (0xFFFFFFFF, true) := by simp [State.readRaw, hp, hc]
  rw [hraw] at he
  refine ⟨_, (arrayHostRead_runs hp h4).trans (congrArg _ he), ?_, onlyOff_trans hu (answer_onlyOff _ _ _)⟩
  rw [answer_poisoned_out, hout]
  rfl

theorem arrayHostRead_defined {addr : BitVec 26} {p : Nat × Nat} (hp : arrayAt addr.toNat = some p) (h4 : addr.toNat % 4 = 0)
    (hr : (s.off o).inReset = false) (hd : (s.off o).d3hot = false) (ha : s.answersRead o addr.toNat = true)
    (hl : (s.off o).fromLatch addr.toNat = false) (hc : (s.off o).arrClass p.1 p.2 ≠ .uncorrectable) (ham : p.1 ≠ 0 ∨ p.2 % 4 ≠ 0) :
    gives (.arrayHostRead o addr) s fun u => onlyOff s u o ∧ ∃ w : W32, u.out = .completion o [w] false :: s.out ∧
      ∀ i, i < 32 → (s.undefinedBits o addr.toNat).testBit i = false →
        w.getLsbD i = (bitsOf ((s.off o).arrRead p.1 p.2) (8 * (addr.toNat % 8)) 32).testBit i := by
  obtain ⟨u, hu, hout, he⟩ := hostRead_array hp hr hd ha hl
  have hraw : s.readRaw o addr.toNat = (bitsOf ((s.off o).arrRead p.1 p.2) (8 * (addr.toNat % 8)) 32, false) := by
    have hamend : ¬ (p.1 = 0 ∧ p.2 % 4 = 0) := by tauto
    simp [State.readRaw, hp, hc, hamend]
  have hund : u.undefinedBits o addr.toNat = s.undefinedBits o addr.toNat := by simp [State.undefinedBits, hp]
  rw [hraw] at he
  obtain ⟨x, hx, hbits⟩ := answer_out (s := u) (o := o) addr.toNat (bitsOf ((s.off o).arrRead p.1 p.2) (8 * (addr.toNat % 8)) 32)
  rw [hund] at hbits
  exact ⟨_, (arrayHostRead_runs hp h4).trans (congrArg _ he), onlyOff_trans hu (answer_onlyOff _ _ _), x, hx.trans (by rw [hout]), hbits⟩

end Sys2Proof.Machine
end

section
/-! SUPPORT. What an update of the thermal model shows (17 R643, R653): the model's clock, the readings and the validity, and the
operations that leave them. -/

namespace Sys2Proof.Machine

/-- How often the model has been updated, when last, and whether an `ACK` waits. -/
def Thermal.clock (m : Thermal) : Nat × Nat × Bool := (m.updates, m.lastAt, m.ack)

/-- The keys of `THM_STAT.VALID` and of `THM_SENS.T`. -/
def shownKey (k : Nat) : Bool :=
  decide (k = 0xB0010C * 32 + 27) || (decide (0xB01800 * 32 ≤ k) && decide (k < 0xB018A8 * 32) && decide (k % 32 = 0))

/-- What an update of the model of office `q` shows: its clock, the registers of readings and validity, and the tiles' sensors. -/
def State.shown (s : State) (q : OfficeId) : (Nat × Nat × Bool) × (Nat → Nat) × (Fin 4 → Sparse Nat) :=
  ((s.off q).thm.clock, fun k => if shownKey k then Sparse.get 0 (s.off q).regs k else 0, fun t => (s.tile t).sensors)

variable {s u : State} {p q : OfficeId} {ks : List Nat}

theorem shown_congr (hc : (u.off q).thm.clock = (s.off q).thm.clock)
    (hr : ∀ k, shownKey k = true → Sparse.get 0 (u.off q).regs k = Sparse.get 0 (s.off q).regs k)
    (ht : ∀ t, (u.tile t).sensors = (s.tile t).sensors) : u.shown q = s.shown q := by
  refine Prod.ext hc (Prod.ext (funext fun k => ?_) (funext ht))
  by_cases hk : shownKey k = true
  · simp [State.shown, hk, hr k hk]
  · simp [State.shown, hk]

theorem shown_parts (h : u.shown q = s.shown q) : (u.off q).thm.clock = (s.off q).thm.clock ∧
    (∀ k, shownKey k = true → Sparse.get 0 (u.off q).regs k = Sparse.get 0 (s.off q).regs k) ∧
    ∀ t, (u.tile t).sensors = (s.tile t).sensors := by
  refine ⟨congrArg (·.1) h, fun k hk => ?_, fun t => congrFun (congrArg (·.2.2) h) t⟩
  have hreg := congrFun (congrArg (·.2.1) h) k
  simpa [State.shown, hk] using hreg

/-! ### Operations on the state -/

@[simp] theorem shown_ite (c : Prop) [Decidable c] (a b : State) : (if c then a else b).shown q = if c then a.shown q else b.shown q :=
  apply_ite (State.shown · q) c a b

theorem foldl_shown {α : Type} (f : State → α → State) (l : List α) (h : ∀ u, ∀ a ∈ l, (f u a).shown q = u.shown q) (s : State) :
    (l.foldl f s).shown q = s.shown q := by
  induction l generalizing s with
  | nil => rfl
  | cons a l ih => exact (ih (fun u b hb => h u b (List.mem_cons_of_mem _ hb)) _).trans (h s a List.mem_cons_self)

theorem modOff_shown (f : Office → Office) (hr : ∀ d, (f d).regs = d.regs) (hc : ∀ d, (f d).thm.clock = d.thm.clock) :
    (s.modOff p f).shown q = s.shown q := by
  obtain rfl | h := eq_or_ne q p
  · exact shown_congr (by rw [modOff_off_same, hc]) (fun k _ => by rw [modOff_off_same, hr]) fun _ => rfl
  · exact shown_congr (by rw [modOff_off_other _ h]) (fun k _ => by rw [modOff_off_other _ h]) fun _ => rfl

theorem modThm_shown (f : Thermal → Thermal) (hf : ∀ m, (f m).clock = m.clock) : (s.modThm p f).shown q = s.shown q :=
  modOff_shown _ (fun _ => rfl) fun _ => hf _

@[simp] theorem modSvc_shown (f : ServiceDie → ServiceDie) : (s.modSvc f).shown q = s.shown q := rfl
@[simp] theorem swr_shown (f : Fld) (x i j : Nat) : (s.swr f x i j).shown q = s.shown q := rfl
@[simp] theorem emit_shown (e : Emission) : (s.emit e).shown q = s.shown q := rfl
@[simp] theorem draw_shown (n : Nat) : (s.draw n).2.shown q = s.shown q := rfl

theorem regsOnly.shown (h : regsOnly s u p ks) (hk : ∀ k ∈ ks, shownKey k = false) : u.shown q = s.shown q := by
  have ht : ∀ t, (u.tile t).sensors = (s.tile t).sensors := fun t => by rw [h.tile]
  obtain rfl | hq := eq_or_ne q p
  · refine shown_congr (by rw [h.field Office.thm fun _ _ _ _ _ _ _ => rfl]) (fun k hs => h.regsKept k (fun hm => ?_) fun hm => ?_) ht
    · exact Bool.false_ne_true ((hk k hm).symm.trans hs)
    · exact Bool.false_ne_true (((by decide : ∀ k ∈ noticeKeys, shownKey k = false) k hm).symm.trans hs)
  · obtain ⟨d, rfl, -⟩ := h
    exact shown_congr (by rw [modOff_off_other _ hq]) (fun k _ => by rw [modOff_off_other _ hq]) ht

theorem arraysOnly.shown (h : arraysOnly s u q) : u.shown q = s.shown q := by
  obtain ⟨⟨⟨-, -, ht, -⟩, -, hr⟩, -⟩ := id h
  refine shown_congr (by rw [h.field Office.thm fun _ _ _ _ _ _ _ _ _ _ _ _ => rfl]) (fun k hk => hr k ?_ nofun) fun t => by rw [State.tile, ht]; rfl
  simp only [shownKey, calKey, Bool.or_eq_true, Bool.and_eq_true, decide_eq_true_eq] at hk ⊢
  omega

@[simp] theorem raise_shown (code : Nat) (b : List Byte) : (s.raise p code b).shown q = s.shown q := (raise_regsOnly (ks := []) code b).shown nofun

@[simp] theorem raiseSvc_shown (code : Nat) (b : List Byte) : (s.raiseSvc code b).shown q = s.shown q := by
  unfold State.raiseSvc
  split <;> simp

theorem wr_shown (f : Fld) (x i j : Nat) (hk : shownKey (f.key i j) = false) : (s.wr p f x i j).shown q = s.shown q := by
  by_cases hf : f.svc = true
  · rw [State.wr, if_pos hf, modSvc_shown]
  · exact (wr_regsOnly f x i j (by simpa using hf)).shown (by simpa using hk)

@[simp] theorem noteEvents_shown (f : Fld) (n i j : Nat) : (s.noteEvents p f n i j).shown q = s.shown q := by
  unfold State.noteEvents
  split
  · exact modSvc_shown _
  · exact modOff_shown _ (fun _ => rfl) fun _ => rfl

theorem countUp_shown (f : Fld) (i j : Nat) (hk : shownKey (f.key i j) = false) : (s.countUp p f i j).shown q = s.shown q := by
  simp [State.countUp, State.countBy, wr_shown f _ i j hk]

/-- A field of one bit or more that begins elsewhere in its word than readings and validity. -/
theorem shownKey_of_lo (f : Fld) (i j : Nat) (h : f.lo < 32) (h0 : f.lo ≠ 0) (h27 : f.lo ≠ 27) : shownKey (f.key i j) = false := by
  have hk : f.key i j % 32 = f.lo := by
    unfold Fld.key
    omega
  simp only [shownKey, Bool.or_eq_false_iff, Bool.and_eq_false_iff, decide_eq_false_iff_not]
  omega

/-! ### Levels and stops (R646, R647, R649) -/

@[simp] theorem latchCauses_shown : s.latchCauses.shown q = s.shown q := rfl
@[simp] theorem modPwr_shown (f : Power → Power) : (s.modPwr f).shown q = s.shown q := rfl

@[simp] theorem followLevel_shown : (s.followLevel p).shown q = s.shown q := by
  have h : ∀ e n, (s.modOff p fun d => { d with cmp := { d.cmp with forcedEffort := e, allowedEngines := n } }).shown q = s.shown q :=
    fun e n => modOff_shown _ (fun _ => rfl) fun _ => rfl
  simp [State.followLevel, h]

@[simp] theorem sendType3_shown (t : Fin 4) (n : Nat) (ws : List W64) : (s.sendType3 p t n ws).shown q = s.shown q := by
  induction n generalizing s ws with
  | zero => cases ws <;> rfl
  | succ n ih =>
    cases ws with
    | nil => rfl
    | cons w ws => exact ih _

theorem hotWords_shown (f : Nat → Nat) : ((List.range 8).foldl (fun s k => s.wr p F.THM_HOT_D (f k) k) s).shown q = s.shown q := by
  have hkey : ∀ k < 8, shownKey (F.THM_HOT_D.key k 0) = false := by decide
  exact foldl_shown _ _ (fun u k hk => wr_shown _ _ _ _ (hkey k (List.mem_range.1 hk))) s

@[simp] theorem sendHot_shown (old : Nat) : (s.sendHot p old).shown q = s.shown q := by
  have hat : ∀ (a : State) n, (a.modThm p fun m => { m with hotAt := n }).shown q = a.shown q := fun a n => modThm_shown _ fun _ => rfl
  have hnote : ∀ (a : State) t level hot, (a.modOff p fun d => d.noteThrottle t level hot).shown q = a.shown q :=
    fun a t level hot => modOff_shown _ (fun _ => rfl) fun _ => rfl
  unfold State.sendHot
  dsimp only
  split
  · rw [hat, hotWords_shown]
  · refine (foldl_shown _ _ (fun u t _ => ?_) _).trans (by rw [hat, hotWords_shown])
    simp [hnote]

@[simp] theorem setLevel_shown (new : Nat) : (s.setLevel p new).shown q = s.shown q := by
  simp [State.setLevel, countUp_shown F.THM_CNT_STEPUP_COUNT 0 0 (by decide)]

@[simp] theorem evalLevel_shown (t : Rat) (valid : Bool) : (s.evalLevel p t valid).shown q = s.shown q := by simp [State.evalLevel]

@[simp] theorem sendQuiet_shown (enter : Bool) : (s.sendQuiet p enter).shown q = s.shown q := by
  refine foldl_shown _ _ (fun u t _ => ?_) s
  split
  · rw [modOff_shown _ (by exact fun _ => rfl) (by exact fun _ => rfl), sendType3_shown]
  · rfl

@[simp] theorem showPending_shown : (s.showPending p).shown q = s.shown q := by
  unfold State.showPending
  split
  all_goals simp [State.wrPair, wr_shown F.GLB_MODE_PEND_MODE _ 0 0 (by decide), wr_shown F.GLB_MODE_PEND_SCHED _ 0 0 (by decide),
    wr_shown F.GLB_MODE_TICK_LO_TICK_L _ 0 0 (by decide), wr_shown F.GLB_MODE_TICK_HI_TICK_H _ 0 0 (by decide)]

@[simp] theorem refreshPending_shown : s.refreshPending.shown q = s.shown q := by
  unfold State.refreshPending
  dsimp only
  split <;> simp

@[simp] theorem askHeld_shown (cause : Nat) : (s.askHeld p cause).shown q = s.shown q := by
  have hwait : ∀ a : State, (a.modOff p fun d => { d with pendMode := none, loadedAt := none }).shown q = a.shown q :=
    fun a => modOff_shown _ (fun _ => rfl) fun _ => rfl
  unfold State.askHeld
  split
  · split
    · rfl
    · simp [hwait, wr_shown F.GLB_MODE_HELD_CAUSE _ 0 0 (by decide)]
  · exact modOff_shown _ (fun _ => rfl) fun _ => rfl

@[simp] theorem modLoop_shown (k : Nat) (f : BiasLoop → BiasLoop) : (s.modLoop k f).shown q = s.shown q := rfl

@[simp] theorem setLoopState_shown (k new : Nat) : (s.setLoopState k new).shown q = s.shown q := by simp [State.setLoopState]

@[simp] theorem startStop_shown (k : Nat) (trip : Bool) : (s.startStop k trip).shown q = s.shown q := by simp [State.startStop]

@[simp] theorem orderlyStop_shown (cause : Nat) : (s.orderlyStop p cause).shown q = s.shown q := by
  simp [State.orderlyStop, countUp_shown F.THM_CNT_STOP_COUNT 0 0 (by decide), wr_shown F.THM_STAT_STOPPED _ 0 0 (by decide)]

/-! ### The emitters' shutdown (R625) -/

@[simp] theorem modEmt_shown (f : Emitter → Emitter) : (s.modEmt f).shown q = s.shown q := rfl
@[simp] theorem setEmitter_shown (e x : Nat) : (s.setEmitter e x).shown q = s.shown q := rfl

@[simp] theorem verifyPulse_shown (e : Nat) (seen : Bool) : (s.verifyPulse e seen).shown q = s.shown q := by simp [State.verifyPulse]

@[simp] theorem endSlot_shown (f : Flash) (upto : Nat) (x : FlashSlot × Nat) : (s.endSlot f upto x).shown q = s.shown q := by
  unfold State.endSlot
  dsimp only
  split
  · simp
  · split
    · exact foldl_shown _ _ (fun u c _ => verifyPulse_shown _ _) s
    · rfl

@[simp] theorem endFlash_shown (upto : Nat) (cut suppressed : Bool) : (s.endFlash upto cut suppressed).shown q = s.shown q := by
  unfold State.endFlash
  split
  · rfl
  · dsimp only
    rw [emit_shown, modEmt_shown]
    split
    · rfl
    · exact foldl_shown _ _ (fun u x _ => endSlot_shown _ _ _) s

@[simp] theorem suppressNow_shown : s.suppressNow.shown q = s.shown q := by
  unfold State.suppressNow
  split
  · simp [countUp_shown F.EMT_CNT_SUPPR_COUNT 0 0 (by decide)]
  · rfl

@[simp] theorem checkShut_shown : s.checkShut.shown q = s.shown q := by simp [State.checkShut]

/-! ### Sensors judged (R645) -/

@[simp] theorem setHold_shown (on : Bool) : (s.setHold p on).shown q = s.shown q := by simp [State.setHold]

@[simp] theorem excludeSensor_shown (j cause : Nat) (x : Int) : (s.excludeSensor p j cause x).shown q = s.shown q := by
  have hout : ∀ e y, (s.modThm p fun m => { m with excluded := e :: m.excluded, sensors := Sparse.set {} m.sensors j y }).shown q = s.shown q :=
    fun e y => modThm_shown _ fun _ => rfl
  simp [State.excludeSensor, hout, countUp_shown F.THM_CNT_SENSFAIL_COUNT 0 0 (by decide),
    wr_shown F.THM_SENS_CAUSE _ j 0 (shownKey_of_lo _ _ _ (by decide) (by decide) (by decide))]

@[simp] theorem judgeSensor_shown (rs : List W16) (j : Nat) : (s.judgeSensor p rs j).shown q = s.shown q := by
  have hset : ∀ y, (s.modThm p fun m => { m with sensors := Sparse.set {} m.sensors j y }).shown q = s.shown q :=
    fun y => modThm_shown _ fun _ => rfl
  have hin : ∀ y, (s.modThm p fun m => { m with excluded := m.excluded.erase j, sensors := Sparse.set {} m.sensors j y }).shown q = s.shown q :=
    fun y => modThm_shown _ fun _ => rfl
  unfold State.judgeSensor
  dsimp only
  split
  · simp [hset]
  · split
    · rfl
    · simp [hset, hin, wr_shown F.THM_SENS_CAUSE _ j 0 (shownKey_of_lo _ _ _ (by decide) (by decide) (by decide))]

end Sys2Proof.Machine
end

section
/-! SUPPORT. An update of the thermal model (17 R643 to R645, R653), in three stages: the model steps, its sensors are judged, and both are
shown. -/

namespace Sys2Proof.Machine

variable {s u : State} {o p q : OfficeId} {rs : List W16}

/-! ### The model steps (R643, R644) -/

theorem sampleRails_shown : s.sampleRails.shown q = s.shown q := by
  unfold State.sampleRails
  exact foldl_shown _ _ (fun u r _ => by rw [swr_shown, draw_shown]) s

theorem touchModel_shown : (s.touchModel o).shown o = s.shown o := by
  refine foldl_shown _ _ (fun u a _ => ?_) s
  split
  · rfl
  · exact (arrTouch_arraysOnly _ _).shown
  · exact (arraysOnly_trans (arrTouch_arraysOnly _ _) (raiseOnceFor_arraysOnly _ _ _ _)).shown

theorem foldl_fst_shown {α β : Type} (f : State × β → α → State × β) (h : ∀ x a, (f x a).1.shown q = x.1.shown q) (l : List α) (x : State × β) :
    (l.foldl f x).1.shown q = x.1.shown q := by
  induction l generalizing x with
  | nil => rfl
  | cons a l ih => exact (ih _).trans (h x a)

theorem initTemps_shown : (s.initTemps p rs).shown q = s.shown q := by
  unfold State.initTemps
  extract_lets d byNode own r
  rw [modThm_shown _ (by exact fun _ => rfl)]
  refine foldl_fst_shown _ (fun x i => ?_) _ _
  dsimp only
  split
  · rfl
  · split <;> rfl

/-- The temperatures of the nodes after a step, and the model's clock advanced. -/
def State.modelStepped (s : State) (o : OfficeId) (rs : List W16) : State :=
  let a := s.sampleRails.touchModel o
  let b := if (s.off o).thm.updates = 0 then a.initTemps o rs else a
  let temps := (List.range 268).foldl (b.stepNode o b.coolant) (b.off o).thm.temps
  b.modThm o fun m => { m with temps := temps, updates := m.updates + 1, lastAt := b.now, ack := false }

theorem modelStepped_clock (s : State) (o : OfficeId) (rs : List W16) :
    ((s.modelStepped o rs).off o).thm.clock = ((s.off o).thm.updates + 1, s.now, false) := by
  let a := s.sampleRails.touchModel o
  let b := if (s.off o).thm.updates = 0 then a.initTemps o rs else a
  have hshown : b.shown o = s.shown o := by simp [b, a, initTemps_shown, touchModel_shown, sampleRails_shown]
  have hnow : b.now = s.now := by
    have hheld : b.held = s.held := by simp [b, a]
    exact congrArg (·.2.1) hheld
  have hupd : (b.off o).thm.updates = (s.off o).thm.updates := congrArg (·.1) (shown_parts hshown).1
  have hoff : (s.modelStepped o rs).off o = { b.off o with thm := { (b.off o).thm with
      temps := (List.range 268).foldl (b.stepNode o b.coolant) (b.off o).thm.temps, updates := (b.off o).thm.updates + 1, lastAt := b.now,
      ack := false } } := modOff_off_same _
  rw [hoff, ← hupd, ← hnow]
  rfl

/-! ### The sensors are judged (R645, R648) -/

/-- The sensors judged, `HOLD` released where an `ACK` waited and no sensor has failed since, and the nodes corrected by the sensors. -/
def State.sensorsJudged (s : State) (o : OfficeId) (rs : List W16) (before : Thermal) : State :=
  let a := allSensors.foldl (fun s j => s.judgeSensor o rs j) s
  let fresh := (a.off o).thm.excluded.any fun j => !before.excluded.contains j
  let b := if before.ack ∧ !fresh then a.setHold o false else a
  b.modThm o fun m => { m with temps := allSensors.foldl ((b.off o).observe rs) m.temps }

theorem sensorsJudged_shown (before : Thermal) : (s.sensorsJudged o rs before).shown q = s.shown q := by
  unfold State.sensorsJudged
  extract_lets a fresh b
  rw [modThm_shown _ (by exact fun _ => rfl)]
  have hj : (allSensors.foldl (fun s j => s.judgeSensor o rs j) s).shown q = s.shown q := foldl_shown _ _ (fun _ _ _ => judgeSensor_shown _ _) s
  simp [b, a, hj]

theorem tMax_shown (valid : Bool) : (s.tMax o rs valid).2.shown q = s.shown q := by
  unfold State.tMax
  dsimp only
  split
  · rfl
  · split <;> rfl

/-! ### The sensors are shown (R69, R653) -/

theorem get_foldl_set (f : Nat → Nat) (l : List Nat) (m : Sparse Nat) {i : Nat} (h : i ∈ l ∨ Sparse.get 0 m i = f i) :
    Sparse.get 0 (l.foldl (fun m k => Sparse.set 0 m k (f k)) m) i = f i := by
  induction l generalizing m with
  | nil => exact h.resolve_left List.not_mem_nil
  | cons a l ih =>
    refine ih _ ?_
    by_cases ha : i = a
    · exact .inr (by rw [ha, Sparse.get_set_same])
    · exact h.imp (fun hm => (List.mem_cons.1 hm).resolve_left ha) fun hg => by rw [Sparse.get_set_other 0 _ _ ha, hg]

/-- The registers of a sensor: its reading, and whether it is admitted. -/
def State.showSensor (s : State) (o : OfficeId) (rs : List W16) (m : Thermal) (j : Nat) : State :=
  (s.wr o F.THM_SENS_T (ofInt 16 (reading rs j)) j).wr o F.THM_SENS_ADMIT (b2n (m.admits j)) j

theorem sensKey_ne {i j : Nat} (h : i ≠ j) : F.THM_SENS_T.key i 0 ≠ F.THM_SENS_T.key j 0 := by
  simp only [Fld.key, Fld.addr, F.THM_SENS_T, mkA]
  omega

theorem sensKey_ne_admit (i j : Nat) : F.THM_SENS_T.key i 0 ≠ F.THM_SENS_ADMIT.key j 0 := by
  simp only [Fld.key, Fld.addr, F.THM_SENS_T, F.THM_SENS_ADMIT, mkA]
  omega

theorem rd_showSensor (m : Thermal) (i j : Nat) : (s.showSensor o rs m j).rd o F.THM_SENS_T i =
    if i = j then ofInt 16 (reading rs i) % 2 ^ 16 else s.rd o F.THM_SENS_T i := by
  rw [State.showSensor, rd_wr_other _ _ _ _ _ _ _ (sensKey_ne_admit i j)]
  split
  next h => rw [h, rd_wr_same]; rfl
  next h => exact rd_wr_other _ _ _ _ _ _ _ (sensKey_ne h)

theorem rd_showSensors (m : Thermal) (l : List Nat) (s : State) {i : Nat} (h : i ∈ l ∨ s.rd o F.THM_SENS_T i = ofInt 16 (reading rs i) % 2 ^ 16) :
    (l.foldl (fun s j => s.showSensor o rs m j) s).rd o F.THM_SENS_T i = ofInt 16 (reading rs i) % 2 ^ 16 := by
  induction l generalizing s with
  | nil => exact h.resolve_left List.not_mem_nil
  | cons a l ih =>
    refine ih _ ?_
    rw [rd_showSensor]
    by_cases ha : i = a
    · exact .inr (if_pos ha)
    · rw [if_neg ha]
      exact h.imp_left fun hm => (List.mem_cons.1 hm).resolve_left ha

theorem showSensor_regsOnly (m : Thermal) (j : Nat) : regsOnly s (s.showSensor o rs m j) o [F.THM_SENS_T.key j 0, F.THM_SENS_ADMIT.key j 0] :=
  ((wr_regsOnly _ _ _ _ rfl).mono (by simp)).trans ((wr_regsOnly _ _ _ _ rfl).mono (by simp))

/-- The sensors that tile `t` shows. -/
def tileSensors (rs : List W16) (t : Fin 4) : Sparse Nat :=
  (List.range 8).foldl (fun m k => Sparse.set 0 m k (ofInt 16 (reading rs (t.val * 8 + k)))) []

theorem get_tileSensors (t : Fin 4) {i : Nat} (hi : i < 8) : Sparse.get 0 (tileSensors rs t) i = ofInt 16 (reading rs (t.val * 8 + i)) :=
  get_foldl_set (fun k => ofInt 16 (reading rs (t.val * 8 + k))) _ _ (.inl (List.mem_range.2 hi))

/-- The readings of an update at the tiles. -/
def State.showTiles (s : State) (rs : List W16) : State :=
  allTiles.foldl (fun s t => s.modTile t fun d => { d with sensors := tileSensors rs t }) s

theorem showTiles_spec (s : State) (rs : List W16) : (s.showTiles rs).offices = s.offices ∧ (s.showTiles rs).svc = s.svc ∧
    ∀ t, ((s.showTiles rs).tile t).sensors = tileSensors rs t := by
  refine ⟨rfl, rfl, fun t => ?_⟩
  fin_cases t <;> rfl

/-- What an update shows: the model's clock, the readings in the registers, and those at the tiles. -/
def updateShown (u : State) (o : OfficeId) (rs : List W16) (c : Nat × Nat × Bool) : Prop :=
  (u.off o).thm.clock = c ∧ (∀ i, i < 42 → u.rd o F.THM_SENS_T i = ofInt 16 (reading rs i) % 2 ^ 16) ∧
    ∀ t : Fin 4, ∀ i, i < 8 → Sparse.get 0 (u.tile t).sensors i = ofInt 16 (reading rs (t.val * 8 + i))

theorem rd_of_shown {f : Fld} {i j : Nat} (h : u.shown q = s.shown q) (hf : f.svc = false) (hk : shownKey (f.key i j) = true) :
    u.rd q f i j = s.rd q f i j := rd_of_key hf ((shown_parts h).2.1 _ hk)

theorem shownKey_sens : ∀ i < 42, shownKey (F.THM_SENS_T.key i 0) = true := by decide

theorem updateShown_of_shown {c : Nat × Nat × Bool} (hu : updateShown s o rs c) (h : u.shown o = s.shown o) : updateShown u o rs c := by
  obtain ⟨hclock, hsens, htiles⟩ := hu
  obtain ⟨kclock, -, ktiles⟩ := shown_parts h
  exact ⟨kclock.trans hclock, fun i hi => (rd_of_shown h rfl (shownKey_sens i hi)).trans (hsens i hi), fun t i hi => by rw [ktiles, htiles t i hi]⟩

theorem showSensors_spec (s : State) (o : OfficeId) (rs : List W16) : updateShown (s.showSensors o rs) o rs (s.off o).thm.clock := by
  let m := (s.off o).thm
  let a := allSensors.foldl (fun s j => s.showSensor o rs m j) s
  let b := a.showTiles rs
  let mask := fun lo n => ((List.range n).filter fun j => !m.admits (lo + j)).foldl (fun x j => x + 2 ^ j) 0
  have hw : s.showSensors o rs = (b.wr o F.THM_EXCL_LO_MASK (mask 0 32)).wr o F.THM_EXCL_HI_MASK (mask 32 10) := rfl
  have hclock : (a.off o).thm = m := by
    have hfold : ∀ (l : List Nat) (s : State), ((l.foldl (fun s j => s.showSensor o rs m j) s).off o).thm = (s.off o).thm := fun l s =>
      l.foldlRecOn (motive := fun (u : State) => (u.off o).thm = (s.off o).thm) _ rfl fun u h j _ =>
        ((showSensor_regsOnly m j).field Office.thm fun _ _ _ _ _ _ _ => rfl).trans h
    exact hfold _ s
  obtain ⟨hoff, hsvc, htiles⟩ := showTiles_spec a rs
  have hbo : b.off o = a.off o := by rw [State.off, State.off, hoff]
  have hb : updateShown b o rs m.clock := by
    refine ⟨by rw [hbo, hclock], fun i hi => ?_, fun t i hi => by rw [htiles, get_tileSensors t hi]⟩
    rw [rd_of_regs (congrArg Office.regs hbo) rfl]
    exact rd_showSensors m _ s (.inl (List.mem_range.2 hi))
  rw [hw]
  exact updateShown_of_shown hb ((wr_shown _ _ _ _ (by decide)).trans (wr_shown _ _ _ _ (by decide)))

end Sys2Proof.Machine
end

section
/-! SUPPORT. The model shown and acted on (17 R643, R644, R646, R649, R653), and the update as a whole. -/

namespace Sys2Proof.Machine

variable {s u : State} {o p q : OfficeId} {rs : List W16} {c : Nat × Nat × Bool}

/-- The nodes' registers (R653). -/
def State.showNodes (s : State) (o : OfficeId) (valid : Bool) : State :=
  (List.range 268).foldl (fun s i =>
    let e := (s.off o).estimate i
    ((s.wr o F.THM_NODE_VALID (b2n valid) i).wr o F.THM_NODE_EST (b2n e.2) i).wr o F.THM_NODE_T (centi e.1) i) s

theorem shownKey_between {k : Nat} (h : 0xB0010C * 32 + 27 < k) (h' : k < 0xB01800 * 32) : shownKey k = false := by
  simp only [shownKey, Bool.or_eq_false_iff, Bool.and_eq_false_iff, decide_eq_false_iff_not]
  omega

theorem showNodes_shown (valid : Bool) : (s.showNodes o valid).shown q = s.shown q := by
  have hkey : ∀ i < 268, shownKey (F.THM_NODE_T.key i 0) = false := fun i hi => by
    refine shownKey_between ?_ ?_ <;> simp only [Fld.key, Fld.addr, F.THM_NODE_T, mkA] <;> omega
  refine foldl_shown _ _ (fun u i hi => ?_) s
  dsimp only
  rw [wr_shown _ _ _ _ (hkey i (List.mem_range.1 hi)), wr_shown _ _ _ _ (shownKey_of_lo _ _ _ (by decide) (by decide) (by decide)),
    wr_shown _ _ _ _ (shownKey_of_lo _ _ _ (by decide) (by decide) (by decide))]

/-- `THM_STAT.VALID`, and the notice of its change (R644). -/
def State.showValid (s : State) (o : OfficeId) (valid : Bool) : State :=
  if s.flag o F.THM_STAT_VALID = valid then s else (s.wr o F.THM_STAT_VALID (b2n valid)).raise o 0x0E0B (le 1 (b2n valid))

theorem showValid_spec (valid : Bool) (hu : updateShown s o rs c) : let u := s.showValid o valid
    updateShown u o rs c ∧ u.flag o F.THM_STAT_VALID = valid := by
  intro u
  by_cases h : s.flag o F.THM_STAT_VALID = valid
  · rw [show u = s from if_pos h]
    exact ⟨hu, h⟩
  · let a := s.wr o F.THM_STAT_VALID (b2n valid)
    have hw : u = a.raise o 0x0E0B (le 1 (b2n valid)) := if_neg h
    have ha : regsOnly s a o [F.THM_STAT_VALID.key 0 0] := wr_regsOnly _ _ _ _ rfl
    obtain ⟨hclock, hsens, htiles⟩ := hu
    have hsa : updateShown a o rs c := by
      refine ⟨by rw [ha.field Office.thm fun _ _ _ _ _ _ _ => rfl, hclock], fun i hi => ?_, fun t i hi => by rw [ha.tile, htiles t i hi]⟩
      rw [rd_wr_other _ _ _ _ _ _ _ ?_, hsens i hi]
      simp only [Fld.key, Fld.addr, F.THM_SENS_T, F.THM_STAT_VALID, mkA, mkF]
      omega
    rw [hw]
    refine ⟨updateShown_of_shown hsa (raise_shown _ _), ?_⟩
    rw [State.flag, (raise_noticesOnly (s := a) (o := o) _ _).rd (by decide), rd_wr_same]
    cases valid <;> rfl

/-- What follows from the nodes' temperatures: the NVM and fuse windows and the emitters' shutdown (R476, R488, R625). -/
def State.followNodes (s : State) (o : OfficeId) (valid : Bool) : State :=
  let inside := fun i lo hi => valid && decide (lo ≤ toInt 16 (s.rd o F.THM_NODE_T i)) && decide (toInt 16 (s.rd o F.THM_NODE_T i) ≤ hi)
  ([OfficeId.A, .B].foldl (fun s x =>
    (s.wr x F.SEC_STAT_NVM_WIN (b2n (inside (265 + officeBit x) (-2000) 8500))).wr x F.SEC_STAT_FUSE_WIN (b2n (s.fuseOpen o))) s).checkShut

theorem followNodes_shown (valid : Bool) : (s.followNodes o valid).shown q = s.shown q := by
  unfold State.followNodes
  rw [checkShut_shown]
  exact foldl_shown _ _ (fun u x _ => by rw [wr_shown _ _ _ _ (by decide), wr_shown _ _ _ _ (by decide)]) s

theorem validFlag_of_shown (h : u.shown q = s.shown q) : u.flag q F.THM_STAT_VALID = s.flag q F.THM_STAT_VALID := by
  rw [State.flag, State.flag, rd_of_shown h rfl (by decide)]

theorem showModel_spec (valid : Bool) (t : Rat × Nat) (hu : updateShown s o rs c) : let u := s.showModel o valid t
    updateShown u o rs c ∧ u.flag o F.THM_STAT_VALID = valid := by
  intro u
  let a := ((s.showNodes o valid).wr o F.THM_STAT_T_MAX (centi t.1)).wr o F.THM_STAT_NODE t.2
  have ha : a.shown o = s.shown o :=
    (wr_shown _ _ _ _ (by decide)).trans ((wr_shown _ _ _ _ (by decide)).trans (showNodes_shown valid))
  have hw : u = (a.showValid o valid).followNodes o valid := rfl
  obtain ⟨hb, hflag⟩ := showValid_spec valid (updateShown_of_shown hu ha)
  rw [hw]
  refine ⟨updateShown_of_shown hb (followNodes_shown valid), ?_⟩
  exact (validFlag_of_shown (followNodes_shown valid)).trans hflag

/-- The level evaluated or the orderly stop begun, and the hot set sent again where it is due (R646, R647, R649). -/
def State.modelActed (s : State) (o : OfficeId) (valid : Bool) (t : Rat) : State :=
  let stop := valid && decide (((s.rd o F.THM_CFG_T_STOP : Nat) : Rat) ≤ t)
  let run := if stop then (s.off o).thm.stopRun + 1 else 0
  let s := s.modThm o fun m => { m with stopRun := run }
  let s := if 3 ≤ run ∧ s.flag o F.THM_STAT_STOPPED = false then s.orderlyStop o 0 else s.evalLevel o t valid
  let level := s.srd F.THM_STAT_LEVEL
  (if 5 ≤ level ∧ (s.off o).thm.hotAt + s.dwell o ≤ s.now then s.sendHot o level else s).latchCauses

theorem modelActed_shown (valid : Bool) (t : Rat) : (s.modelActed o valid t).shown q = s.shown q := by
  have hrun : ∀ n, (s.modThm o fun m => { m with stopRun := n }).shown q = s.shown q := fun n => modThm_shown _ fun _ => rfl
  simp [State.modelActed, hrun]

/-- An update by the owner, when its time has come. -/
def State.modelUpdated (s : State) (o : OfficeId) (rs : List W16) : State :=
  let a := (s.modelStepped o rs).sensorsJudged o rs (s.off o).thm
  let valid := decide (10 ≤ (a.off o).thm.updates)
  let x := a.tMax o rs valid
  ((x.2.showSensors o rs).showModel o valid x.1).modelActed o valid x.1.1

theorem thermalModelUpdate_runs (hr : (s.off o).inReset = false) (ho : s.owns o = true)
    (ht : (s.off o).thm.updates = 0 ∨ (s.off o).thm.lastAt + 150000 ≤ s.now) :
    exec (.thermalModelUpdate o rs) s = .next (s.modelUpdated o rs) := by
  refine congrArg Host.Outcome.next (if_neg ?_)
  rw [hr, ho]
  rintro (h | h | ⟨h0, hlt⟩)
  · exact Bool.false_ne_true h
  · exact Bool.false_ne_true h.symm
  · exact ht.elim h0 fun h => absurd hlt (Nat.not_lt.2 h)

theorem thermalModelUpdate_idle (h : ¬ ((s.off o).inReset = false ∧ s.owns o = true ∧
    ((s.off o).thm.updates = 0 ∨ (s.off o).thm.lastAt + 150000 ≤ s.now))) : exec (.thermalModelUpdate o rs) s = .next s := by
  refine congrArg Host.Outcome.next (if_pos ?_)
  cases hr : (s.off o).inReset with
  | true => exact .inl rfl
  | false =>
    cases ho : s.owns o with
    | false => exact .inr (.inl rfl)
    | true => exact .inr (.inr ⟨fun h0 => h ⟨hr, ho, .inl h0⟩, Nat.lt_of_not_le fun hle => h ⟨hr, ho, .inr hle⟩⟩)

theorem modelUpdated_spec (s : State) (o : OfficeId) (rs : List W16) : let u := s.modelUpdated o rs
    updateShown u o rs ((s.off o).thm.updates + 1, s.now, false) ∧ u.flag o F.THM_STAT_VALID = decide (10 ≤ (s.off o).thm.updates + 1) := by
  intro u
  let a := (s.modelStepped o rs).sensorsJudged o rs (s.off o).thm
  let valid := decide (10 ≤ (a.off o).thm.updates)
  let x := a.tMax o rs valid
  have ha : (a.off o).thm.clock = ((s.off o).thm.updates + 1, s.now, false) :=
    (shown_parts (sensorsJudged_shown _)).1.trans (modelStepped_clock s o rs)
  have hvalid : valid = decide (10 ≤ (s.off o).thm.updates + 1) := by
    have hupd : (a.off o).thm.updates = (s.off o).thm.updates + 1 := congrArg (·.1) ha
    rw [← hupd]
  have hx : (x.2.off o).thm.clock = ((s.off o).thm.updates + 1, s.now, false) := (shown_parts (tMax_shown valid)).1.trans ha
  obtain ⟨hmodel, hflag⟩ := showModel_spec valid x.1 (showSensors_spec x.2 o rs)
  have hu : u.shown o = ((x.2.showSensors o rs).showModel o valid x.1).shown o := modelActed_shown valid x.1.1
  rw [← hx, ← hvalid]
  exact ⟨updateShown_of_shown hmodel hu, (validFlag_of_shown hu).trans hflag⟩

end Sys2Proof.Machine
end

section
/-! SUPPORT. O54, the thermal model, page commands, check-bit test mode and host reads of arrays (17 R643 to R648; 18 R677 to R684). -/

namespace Sys2Proof.Machine

variable {s : State} {o : OfficeId} {v : W32} {rs : List W16}

theorem thermalModelUpdate_spec (hr : (s.off o).inReset = false) (ho : s.owns o = true)
    (ht : (s.off o).thm.updates = 0 ∨ (s.off o).thm.lastAt + 150000 ≤ s.now) : gives (.thermalModelUpdate o rs) s fun u =>
      (u.off o).thm.updates = (s.off o).thm.updates + 1 ∧ (u.off o).thm.lastAt = s.now ∧ (u.off o).thm.ack = false ∧
        (∀ i, i < 42 → u.rd o F.THM_SENS_T i = ofInt 16 (reading rs i) % 2 ^ 16) ∧
        u.flag o F.THM_STAT_VALID = decide (10 ≤ (s.off o).thm.updates + 1) ∧
        (∀ t : Fin 4, ∀ i, i < 8 → Sparse.get 0 (u.tile t).sensors i = ofInt 16 (reading rs (t.val * 8 + i))) ∧ kept s u := by
  have hrun := thermalModelUpdate_runs (rs := rs) hr ho ht
  obtain ⟨⟨hclock, hsens, htiles⟩, hflag⟩ := modelUpdated_spec s o rs
  have hkept : kept s (s.modelUpdated o rs) := by
    have hc := execThermalModelUpdate_completes s o rs
    rw [show execThermalModelUpdate o rs s = .next (s.modelUpdated o rs) from hrun, completes_next] at hc
    exact (kept_iff_held _ _).2 hc
  exact ⟨_, hrun, congrArg (·.1) hclock, congrArg (·.2.1) hclock, congrArg (·.2.2) hclock, hsens, hflag, htiles, hkept⟩

theorem refresh_queues {a page : Nat} (hw : writable s o F.ERR_PAGE_CMD_GO.off v.toNat) (hgo : v.getLsbD 31 = true)
    (hb : s.flag o F.ERR_PAGE_CMD_BUSY = false) (ha : v.toNat / 2 ^ 20 % 16 = a) (hp : v.toNat % 2 ^ 20 = page) (hx : pageExists a page = true)
    (hop : v.toNat / 2 ^ 28 % 4 = 0) (h3 : a ≤ 3) : gives (.refresh o v) s fun u => u.rd o F.ERR_PAGE_CMD_BUSY = 1 ∧
      (u.off o).mrg.jobs = (s.off o).mrg.jobs ++ [.refresh a page] ∧ (u.off o).arr = (s.off o).arr ∧ onlyOff s u o ∧ u.out = s.out := by
  subst ha hp
  obtain ⟨u, hu, he⟩ := writePageCmd_of_writable hw hgo
  rw [pageCmd_free hu hb hx, if_pos hop] at he
  have h := startRefresh_queues (x := v.toNat) hu h3
  rw [bitsOf_low] at h
  exact ⟨_, congrArg Host.Outcome.next he, h⟩

theorem refresh_runs {a page : Nat} (hw : writable s o F.ERR_PAGE_CMD_GO.off v.toNat) (hgo : v.getLsbD 31 = true)
    (hb : s.flag o F.ERR_PAGE_CMD_BUSY = false) (ha : v.toNat / 2 ^ 20 % 16 = a) (hp : v.toNat % 2 ^ 20 = page) (hx : pageExists a page = true)
    (hop : v.toNat / 2 ^ 28 % 4 = 0) (h4 : 4 ≤ a) : gives (.refresh o v) s fun u => u.rd o F.ERR_PAGE_CMD_BUSY = 0 ∧
      u.rd o F.ERR_PAGE_RES_RESULT = 0 ∧ onlyOff s u o ∧ u.out = s.out := by
  subst ha hp
  obtain ⟨u, hu, he⟩ := writePageCmd_of_writable hw hgo
  have hnow : u.startRefresh o v.toNat = u.refreshPage o (bitsOf v.toNat 20 4) (bitsOf v.toNat 0 20) :=
    if_neg fun h : v.toNat / 2 ^ 20 % 16 ≤ 3 => absurd h4 (by omega)
  rw [pageCmd_free hu hb hx, if_pos hop, hnow] at he
  obtain ⟨harr, hbusy, hres⟩ := refreshPage_spec u o (bitsOf v.toNat 20 4) (bitsOf v.toNat 0 20)
  exact ⟨_, congrArg Host.Outcome.next he, hbusy, hres, onlyOff_trans hu.onlyOff harr.1.1, harr.1.2.1.trans hu.out⟩

theorem retire_refused (hw : writable s o F.ERR_PAGE_CMD_GO.off v.toNat) (hgo : v.getLsbD 31 = true)
    (hb : s.flag o F.ERR_PAGE_CMD_BUSY = false) (hx : pageExists (v.toNat / 2 ^ 20 % 16) (v.toNat % 2 ^ 20) = true)
    (hop : v.toNat / 2 ^ 28 % 4 ≠ 0) (hf : s.retireFault o v.toNat ≠ 0) (hlt : s.retireFault o v.toNat < 16) :
    gives (.retire o v) s (pageRefused s o v.toNat (s.retireFault o v.toNat)) :=
  (pageCmd_refused hw hgo hlt fun u hu => by rw [pageCmd_free hu hb hx, if_neg hop, if_pos hf]).2

theorem retire_waits (hw : writable s o F.ERR_PAGE_CMD_GO.off v.toNat) (hgo : v.getLsbD 31 = true)
    (hb : s.flag o F.ERR_PAGE_CMD_BUSY = false) (hx : pageExists (v.toNat / 2 ^ 20 % 16) (v.toNat % 2 ^ 20) = true)
    (hop : v.toNat / 2 ^ 28 % 4 ≠ 0) (hf : s.retireFault o v.toNat = 0) (hn : s.nvmOpen o = false) :
    gives (.retire o v) s fun u => u.rd o F.ERR_PAGE_CMD_BUSY = 1 ∧ (u.off o).pageWait = some (v.toNat, s.now) ∧
      (u.off o).nvm = (s.off o).nvm ∧ (u.off o).arr = (s.off o).arr ∧ onlyOff s u o ∧ u.out = s.out := by
  obtain ⟨u, hu, he⟩ := writePageCmd_of_writable hw hgo
  rw [pageCmd_free hu hb hx, if_neg hop, if_neg (not_not.2 hf)] at he
  have hclosed : u.nvmOpen o = false := by
    rw [← hn, State.nvmOpen, State.nvmOpen, State.flag, State.flag, hu.rd (by decide) (by decide)]
  exact ⟨_, congrArg Host.Outcome.next he, startRetire_waits hu v.toNat hclosed⟩

/-- Where one is under way, or its page does not exist, a page command is refused (R691). -/
theorem pageCmd_refuses (hw : writable s o F.ERR_PAGE_CMD_GO.off v.toNat) (hgo : v.getLsbD 31 = true) :
    (s.flag o F.ERR_PAGE_CMD_BUSY = true →
      gives (.refresh o v) s (pageRefused s o v.toNat 5) ∧ gives (.retire o v) s (pageRefused s o v.toNat 5)) ∧
    (s.flag o F.ERR_PAGE_CMD_BUSY = false → pageExists (v.toNat / 2 ^ 20 % 16) (v.toNat % 2 ^ 20) = false →
      gives (.refresh o v) s (pageRefused s o v.toNat 4) ∧ gives (.retire o v) s (pageRefused s o v.toNat 4)) := by
  refine ⟨fun hb => pageCmd_refused hw hgo (by decide) fun u hu => ?_, fun hb hx => pageCmd_refused hw hgo (by decide) fun u hu => ?_⟩
  · exact if_pos ((busy_pageCmd hu).trans hb)
  · rw [State.pageCmd, busy_pageCmd hu, hb, if_neg Bool.false_ne_true, bitsOf_low]
    exact if_pos hx

/-- Settles O54, each command by its lemmas: `thermalModelUpdate_spec`, those of `ERR_PAGE_CMD` by `pageCmd_free`, those of test mode by
`cbtCommand_runs`, host reads by `hostRead_array`. -/
theorem thermalModelAndArrays : Obligations.ThermalModelAndArrays := by
  unfold Obligations.ThermalModelAndArrays
  intro s o v rs addr c p d n ready thm j a page pages free f refused cbt takes was k op w data check on frame ended
  refine ⟨thermalModelUpdate_idle, fun ⟨hr, ho, ht⟩ => thermalModelUpdate_spec hr ho ht,
    fun ⟨hw, ho⟩ => ⟨thermalAck_spec hw ho, fun h30 h31 => ?_⟩, fun hn => ?_, fun ⟨hw, hgo⟩ => ?_, fun ⟨hc, hw⟩ h31 hm => ?_,
    fun ⟨hc, hw⟩ hm h30 => ?_, fun ⟨hc, hw⟩ h31 h30 => ?_, fun ⟨⟨hc, hw⟩, hen, h31, h30, hm, hx⟩ => ?_, escalationWindowEnd_early,
    fun ⟨hr, ht⟩ => escalationWindowEnd_spec hr ht, arrayHostRead_refused, fun hp h4 hr hd ha hl _ =>
      ⟨arrayHostRead_poisoned hp h4 hr hd ha hl, arrayHostRead_defined hp h4 hr hd ha hl⟩⟩
  · obtain ⟨u, he, hthm, hoff, hregs, hout⟩ := readmit_spec hw ho h30 h31
    exact ⟨u, he, hoff, hregs, hout, hthm⟩
  · have hthm := writeThmCtl_of_not_taken v.toNat hn
    have hpg := writePageCmd_of_not_taken v.toNat hn
    exact ⟨congrArg Host.Outcome.next hthm, congrArg Host.Outcome.next hthm, congrArg Host.Outcome.next hpg, congrArg Host.Outcome.next hpg⟩
  · obtain ⟨hbusy, hnone⟩ := pageCmd_refuses hw hgo
    exact ⟨hbusy, hnone, fun ⟨hb, hx⟩ => refresh_queues hw hgo hb rfl rfl hx, fun ⟨hb, hx⟩ => refresh_runs hw hgo hb rfl rfl hx,
      fun ⟨hb, hx⟩ => retire_refused hw hgo hb hx, fun ⟨hb, hx⟩ => retire_waits hw hgo hb hx⟩
  · obtain ⟨u, he, hflag, hraised, ⟨harr, hsyn, hframe⟩, hregs⟩ := cbtCommand_outside hc hw h31 hm
    exact ⟨u, he, hflag, hraised, harr, hsyn, hframe, hregs⟩
  · exact cbtCommand_switches hc hw hm h30
  · exact cbtCommand_disabled hc hw h31 h30
  · obtain ⟨u, hu, hdata, hcheck, hread⟩ := cbtCommand_runs hc hw h31 h30 hm rfl rfl hx
    exact ⟨fun hop ht => ⟨_, hdata hop, cbtWrite_spec hu ht⟩, fun hop ht => ⟨_, (hdata hop).trans (congrArg _ (cbtWrite_refused hu ht)),
      cbtNotice_refuses hu⟩, fun hop => ⟨_, hcheck hop, cbtSetCheck_spec hu⟩, fun hop h4 h6 => ⟨_, hread hop, cbtFetch_spec hu h4 h6⟩⟩

end Sys2Proof.Machine
end
